-- ==== Sys2Proof/Word.lean ====
section
/-! DEFINITION. The word and byte types of the K960's registers, descriptors and blocks (spec 00, Table 0.5). -/

namespace Sys2Proof

/-- A 32-bit register, descriptor word or configuration word (R50, R58). -/
abbrev Word := BitVec 32

/-- A byte of a block, bank, frame or record; multi-byte values are little-endian (Table 0.5). -/
abbrev Byte := BitVec 8

end Sys2Proof
end

