-- ==== Sys2Proof/Syntax.lean ====
section
/-! DEFINITION. The commands the K960 takes (one constructor per row of the table of operations and events), with the
operands a command brings from outside: register values, descriptors, measured facts. -/

namespace Sys2Proof

/-- Where a descriptor came from: a host ring (R57), a two-wire mailbox (R85, R480; `peer` = Port A), or a CoAP request
with its session and Message ID, `img` for a PUT to /k/img (R408, R446). -/
inductive Src where
  | ring (n : Nat)
  | mailbox (peer : Bool)
  | coap (session mid : Nat) (img : Bool)
  deriving DecidableEq, Repr

/-- A submission descriptor without its opcode (Table 3.7): word 0 bits [31:16], the handle word, PARAM0 to PARAM13,
and the bytes the device reads from the source buffer that the parameters name. -/
structure Desc where
  src : Src
  flags : BitVec 16
  handle : Word
  params : List Word
  data : List Byte
  deriving DecidableEq, Repr

/-- A descriptor with its opcode word (Table 3.7). -/
structure RawDesc where
  op : Nat
  d : Desc
  deriving DecidableEq, Repr

/-- How a DMA read of descriptors ended (R57, R66). -/
inductive FetchResult where
  | ok (descs : List RawDesc)
  | unsupportedRequest
  | completerAbort
  | poisoned
  deriving DecidableEq, Repr

/-- What a family's calibration yields for one converter: nothing, or an offset, a gain and segment corrections that
may lie outside their fields (R113). -/
structure CalYield where
  ok : Bool
  offset : Int
  gain : Int
  segs : List Int
  deriving DecidableEq, Repr

/-- A loop that occupies a lane: a LOOP handle's, a rail's balance loop for a phase position, or the current-limit loop
of a feed (0 to 39) or branch (40 to 43) channel (R73). -/
inductive LoopId where
  | user (i : Nat)
  | balance (rail pos : Nat)
  | limit (chan : Nat)
  deriving DecidableEq, Repr

/-- Whose data a line of the shared SRAM holds (Table 14.3). -/
inductive SramOwner where
  | none_
  | core (n : Nat)
  | handle (h : Word)
  | ring (n : Nat)
  | unit (n : Nat)
  deriving DecidableEq, Repr

/-- Who reads a line: the scrubber, the line's owner, or the host through BAR4 (R398, R399). -/
inductive SramReader where
  | scrubber | owner | bar4
  deriving DecidableEq, Repr

/-- What befalls a stored line of the SRAM: a bit of codeword 0 to 8 flips (8 holds the CRC), or bytes are written from an
offset on by a saggar (R394, R396). -/
inductive LineChange where
  | flip (word bit : Nat)
  | write (offset : Nat) (bytes : List (BitVec 8)) (writer : SramOwner)
  deriving DecidableEq, Repr

/-- A change of the line `index` of bank 0 to 15, or 16 = P, and whose data that line holds. -/
structure LineEvent where
  bank : Nat
  index : Nat
  owner : SramOwner
  change : LineChange
  deriving DecidableEq, Repr

/-- A read of one SRAM line (R395): bank 0 to 15 or 16 = P, line index, whose data it holds, and who reads. -/
structure LineRead where
  bank : Nat
  index : Nat
  owner : SramOwner
  reader : SramReader
  deriving DecidableEq, Repr

/-- What comes of a DTLS handshake (R406): a ClientHello arrives; one in progress ends, completed or failed. -/
inductive Handshake where
  | hello | completes | fails
  deriving DecidableEq, Repr

/-- What a received Ethernet frame holds (R404, R405, R407): a VLAN tag, a PAUSE frame, a packet outside the subset, one that
asks for an answer (ARP, neighbour discovery, echo), one for a closed UDP port, a CoAP request on the plain port other than
GET /k/id, or another packet of the subset. -/
inductive EthKind where
  | vlan | pause | outside | asks | closedPort | plain | other
  deriving DecidableEq, Repr

/-- Why a mailbox write transaction is no COMMAND that is executed: the bytes that were acknowledged make no valid frame, or
the transaction was abandoned (R486, R489). -/
inductive FrameFault where
  | bytes (bs : List (BitVec 8))
  | timeout | abort
  deriving DecidableEq, Repr

/-- The words a poll cycle reads from one module (R475, R476): STATUS_WORD, READ_VIN, READ_VOUT, READ_IOUT,
READ_TEMPERATURE_1 and, where the input is written, OPERATION and VOUT_COMMAND. -/
structure PollReads where
  status : Nat
  vin : Nat
  vOut : Nat
  iOut : Nat
  temp : Nat
  op : Nat
  vcmd : Nat
  deriving DecidableEq, Repr
/-- The commands: one constructor per row of the table, in its order. -/
inductive Instr where
  /-- CREATE (R77). -/
  | create (d : Desc)
  /-- DESTROY (R80). -/
  | destroy (d : Desc)
  /-- CONFIGURE (R546). -/
  | configure (d : Desc)
  /-- BANK_WRITE (R141). -/
  | bankWrite (d : Desc)
  /-- BANK_SWAP (R14). -/
  | bankSwap (d : Desc)
  /-- BANK_READ (R141). -/
  | bankRead (d : Desc)
  /-- BANK_COPY (R82). -/
  | bankCopy (d : Desc)
  /-- ENABLE (R547). -/
  | enable (d : Desc)
  /-- DISABLE (R82). -/
  | disable (d : Desc)
  /-- SET_POINT (R82). -/
  | setPoint (d : Desc)
  /-- SET_PROFILE (R25). -/
  | setProfile (d : Desc)
  /-- SET_ROUND (R38). -/
  | setRound (d : Desc)
  /-- CLEAR (R82). -/
  | clear (d : Desc)
  /-- RECOVER (R515). -/
  | recover (d : Desc)
  /-- QUERY_STATE (R551). -/
  | queryState (d : Desc)
  /-- QUERY_READ (R83). -/
  | queryRead (d : Desc)
  /-- EVENT_WAIT (R69). -/
  | eventWait (d : Desc)
  /-- QUERY_RESOURCES (R550). -/
  | queryResources (d : Desc)
  /-- QUERY_HANDLES (R551). -/
  | queryHandles (d : Desc)
  /-- STREAM_START (R412). -/
  | streamStart (d : Desc)
  /-- STREAM_BUF (R415). -/
  | streamBuf (d : Desc)
  /-- STREAM_STOP (R412). -/
  | streamStop (d : Desc)
  /-- IMG_SHERD (R447). -/
  | imgSherd (d : Desc)
  /-- IMG_STATUS (R463). -/
  | imgStatus (d : Desc)
  /-- IMG_ACTIVATE (R451). -/
  | imgActivate (d : Desc)
  /-- IMG_ROLLBACK (R459). -/
  | imgRollback (d : Desc)
  /-- NOP (R57). -/
  | nop (d : Desc)
  /-- FENCE (R384). -/
  | fence (d : Desc)
  /-- WARM_START (R516). -/
  | warmStart (d : Desc)
  /-- KILN_READ (R83). -/
  | kilnRead (d : Desc)
  /-- DEBUG_UNLOCK (R522). -/
  | debugUnlock (d : Desc)
  /-- HOST_DB_SQ (R56). -/
  | hostDbSq (ring : Nat) (value : Word)
  /-- HOST_DB_CQ (R55). -/
  | hostDbCq (ring : Nat) (value : Word)
  /-- RING_ENABLE (R63). -/
  | ringEnable (ring : Nat)
  /-- RING_PAUSE (R64). -/
  | ringPause (ring : Nat)
  /-- RING_RESET (R65). -/
  | ringReset (ring : Nat)
  /-- ACQ_CAL_START (R109). -/
  | acqCalStart (value : Word)
  /-- SYS_LOCK (R520). -/
  | sysLock (value : Word)
  /-- WHEEL_TURN_LO_READ (R45). -/
  | wheelTurnLoRead
  /-- TALLY_FB_CYC_LO_READ (R501). -/
  | tallyFbCycLoRead (set : Nat)
  /-- TALLY_FB_CNT_READ (R501). -/
  | tallyFbCntRead (set : Nat) (counter : Nat)
  /-- TALLY_FB_CLEAR (R501). -/
  | tallyFbClear (set : Nat)
  /-- TALLY_FB_FREEZE (R501). -/
  | tallyFbFreeze (set : Nat) (freeze : Bool)
  /-- TALLY_TAG_CLEAR (R504). -/
  | tallyTagClear
  /-- HOST_AUDIT_READ (R7). -/
  | hostAuditRead
  /-- HOST_INFLIGHT_READ (R7). -/
  | hostInflightRead
  /-- WHEEL_COUNT_READ (R7). -/
  | wheelCountRead
  /-- ACQ_FS_COUNT_READ (R7). -/
  | acqFsCountRead (conv : Nat)
  /-- ACQ_CAL_STATUS_WRITE (R7). -/
  | acqCalStatusWrite (value : Word)
  /-- SYS_CLK_READ (R7). -/
  | sysClkRead
  /-- SYS_CLK_WRITE (R7). -/
  | sysClkWrite (value : Word)
  /-- SYS_RST_READ (R517). -/
  | sysRstRead
  /-- SYS_RST_WRITE (R517). -/
  | sysRstWrite (value : Word)
  /-- BAR4_WRITE (R51). -/
  | bar4Write (offset : Nat) (value : Word)
  /-- REGISTER_WRITE (R7). -/
  | registerWrite (offset : Nat) (value : BitVec 64) (wide : Bool)
  /-- LINK_TRAINING_DONE (R545). -/
  | linkTrainingDone (maxSpeed : BitVec 2) (maxWidth : BitVec 2) (perstN : Bool)
  /-- CONFIG_SPACE_READY (R545). -/
  | configSpaceReady
  /-- HOST_INTERFACE_RESET (R48). -/
  | hostInterfaceReset (conventional : Bool) (perstN : Bool)
  /-- DESCRIPTOR_FETCH_DONE (R57). -/
  | descriptorFetchDone (ring : Nat) (result : FetchResult)
  /-- COMPLETION_POST (R59). -/
  | completionPost (ring : Nat)
  /-- IRQ_COALESCE_TIMEOUT (R62). -/
  | irqCoalesceTimeout (ring : Nat)
  /-- MAINS_EDGE (R29). -/
  | mainsEdge (acSense : Bool) (highNs : Nat) (time : Nat) (tick : Nat)
  /-- WHEEL_MISSED_EDGE (R31). -/
  | wheelMissedEdge
  /-- TURN_BOUNDARY (R42). -/
  | turnBoundary (time : Nat)
  /-- MGMT_HEARTBEAT (R19). -/
  | mgmtHeartbeat
  /-- MGMT_WATCHDOG_TIMEOUT (R19). -/
  | mgmtWatchdogTimeout
  /-- MGMT_WD_COLD_START (R516). -/
  | mgmtWdColdStart
  /-- LEDGER_CLOSE (R280). -/
  | ledgerClose (pFb pHk pDrv : Nat)
  /-- LEDG_UNMETERED (R285). -/
  | ledgUnmetered
  /-- ESTIMATOR_STEP (R300). -/
  | estimatorStep
  /-- BATT_UNANCHORED (R308). -/
  | battUnanchored (string : Nat)
  /-- IMPEDANCE_WINDOW_CLOSE (R303). -/
  | impedanceWindowClose (string : Nat)
  /-- TALLY_GATHER (R497). -/
  | tallyGather
  /-- SCRUB (R399). -/
  | scrub (events : List LineEvent)
  /-- BANK_REBUILD (R400). -/
  | bankRebuild (bank : Nat)
  /-- SRAM_LINE_READ (R395). -/
  | sramLineRead (events : List LineEvent) (read : LineRead)
  /-- SAMPLE_TRIGGER (R91). -/
  | sampleTrigger (gen : Nat)
  /-- FS_CONVERSION_DONE (R93). -/
  | fsConversionDone (conv : Nat) (code : Int) (isOver : Bool) (late : Bool) (pos : Nat)
  /-- URGENT_TRIGGER (R96). -/
  | urgentTrigger (conv : Nat) (channel : Nat)
  /-- INJECTED_START (R96). -/
  | injectedStart (conv : Nat)
  /-- LOOP_DISPATCH (R136). -/
  | loopDispatch (lane : Nat) (wait : Nat) (pos : Nat)
  /-- LOOP_FERR (R145). -/
  | loopFerr (loop : Nat)
  /-- LOOP_STARVED (R132). -/
  | loopStarved (loop : LoopId)
  /-- THROW_MEM_ERROR (R117). -/
  | throwMemError (corrected : Bool) (lane : Nat) (owner : LoopId) (coef : Bool)
  /-- SV_SCAN_START (R98). -/
  | svScanStart
  /-- SV_CONVERSION_DONE (R333). -/
  | svConversionDone (code : Nat) (isOver : Bool) (under : Bool)
  /-- PD_OUTPUT (R104). -/
  | pdOutput (chan : Nat) (value : Int) (isOver : Bool) (pos : Nat) (settled : Bool)
  /-- PD_WINDOW_CROSSING (R105). -/
  | pdWindowCrossing (chan : Nat)
  /-- TD_CONVERSION_DONE (R106). -/
  | tdConversionDone (value : Int) (uv : Nat) (opn short exc biasOk : Bool)
  /-- SENSOR_PERIOD (R371). -/
  | sensorPeriod (sensor : Nat)
  /-- CAL_FAMILY_DONE (R109). -/
  | calFamilyDone (family : Nat) (yields : List CalYield) (milliC : Int)
  /-- CAL_DONE (R113). -/
  | calDone
  /-- FLUE_CRC_FAIL (R391). -/
  | flueCrcFail (lane run : Nat)
  /-- FLUE_KEEPALIVE (R10). -/
  | flueKeepalive
  /-- FLUE_TAKEOVER (R10). -/
  | flueTakeover
  /-- FLUE_TAKEOVER_REPORT (R548). -/
  | flueTakeoverReport
  /-- FIREBOX_SILENCE (R391). -/
  | fireboxSilence
  /-- UNIT_WATCHDOG (R383). -/
  | unitWatchdog (unit : Nat)
  /-- CARRIER_START (R153). -/
  | carrierStart (phase : Nat) (iMax iMin : Int)
  /-- SHEDDING_END (R168). -/
  | sheddingEnd (phase : Nat)
  /-- SHED_HOLD_END (R167). -/
  | shedHoldEnd (rail : Nat)
  /-- BOOTSTRAP_UV (R151). -/
  | bootstrapUv (phase : Nat) (low : Bool)
  /-- VDRV_UV (R151). -/
  | vdrvUv
  /-- SURGE_DETECT (R171). -/
  | surgeDetect (rail : Nat) (mv slope : Int) (pos : Nat)
  /-- FIRING_END (R172). -/
  | firingEnd (phase : Nat) (mv : Int) (pos : Nat)
  /-- RAIL_PG_CONFIRM (R179). -/
  | railPgConfirm (rail : Nat)
  /-- RAIL_START_TIMEOUT (R179). -/
  | railStartTimeout (rail : Nat) (tick : Nat)
  /-- RAIL_OFF_REACHED (R180). -/
  | railOffReached (rail : Nat)
  /-- RAIL_STOP_LATE (R183). -/
  | railStopLate (rail : Nat) (tick : Nat)
  /-- RAIL_OV (R184). -/
  | railOv (rail : Nat) (tick : Nat)
  /-- RAIL_UV_TIME (R184). -/
  | railUvTime (rail : Nat) (tick : Nat)
  /-- RAIL_OCP (R184). -/
  | railOcp (rail : Nat) (pos : Nat) (tick : Nat)
  /-- PHASE_FAILURE (R187). -/
  | phaseFailure (rail : Nat) (pos : Nat) (sense : Bool) (tick : Nat)
  /-- FEED_PRECHARGE_DONE (R202). -/
  | feedPrechargeDone (feed : Nat)
  /-- FEED_PRECHARGE_TIMEOUT (R202). -/
  | feedPrechargeTimeout (feed : Nat) (tick : Nat)
  /-- FEED_PG_CONFIRM (R203). -/
  | feedPgConfirm (feed : Nat)
  /-- FEED_PG_LOSS (R203). -/
  | feedPgLoss (feed : Nat)
  /-- FEED_GATE_TIMEOUT (R203). -/
  | feedGateTimeout (feed : Nat) (vgsLow : Bool) (tick : Nat)
  /-- FEED_SHORT (R205). -/
  | feedShort (feed : Nat) (tick : Nat)
  /-- FEED_FAULT_TIMER (R207). -/
  | feedFaultTimer (feed : Nat) (vgsLow : Bool) (tick : Nat)
  /-- FEED_BACKSTOP (R207). -/
  | feedBackstop (feed : Nat) (tick : Nat)
  /-- FEED_POWER_LIMIT (R208). -/
  | feedPowerLimit (feed : Nat) (tick : Nat)
  /-- FEED_OV_REVERSE (R209). -/
  | feedOvReverse (feed : Nat) (reverse : Bool) (tick : Nat)
  /-- FEED_FAULT_RECORD (R210). -/
  | feedFaultRecord (feed : Nat)
  /-- FEED_BLEED_START (R212). -/
  | feedBleedStart (feed : Nat)
  /-- FEED_BLEED_END (R212). -/
  | feedBleedEnd (feed : Nat)
  /-- FEED_RES_LATE (R212). -/
  | feedResLate (feed : Nat)
  /-- FEED_RETRY_DELAY (R211). -/
  | feedRetryDelay (feed : Nat)
  /-- FEED_RETRY_CLEAR (R211). -/
  | feedRetryClear (feed : Nat)
  /-- FEED_BACKFEED (R213). -/
  | feedBackfeed (feed : Nat)
  /-- BRANCH_ENERGY_TRIP (R235). -/
  | branchEnergyTrip (branch uj mv : Nat) (ma slope : Int) (tick : Nat)
  /-- BRANCH_HARD_TRIP (R236). -/
  | branchHardTrip (branch : Nat) (tick : Nat)
  /-- BRANCH_ONSET_RESET (R234). -/
  | branchOnsetReset (branch : Nat)
  /-- BRANCH_RAMP_TIMEOUT (R232). -/
  | branchRampTimeout (branch : Nat) (vgsLow : Bool) (tick : Nat)
  /-- BRANCH_OPENING_END (R231). -/
  | branchOpeningEnd (branch : Nat)
  /-- BRANCH_HEALTH_WINDOW (R243). -/
  | branchHealthWindow (branch : Nat)
  /-- SRC_QUALIFIED (R257). -/
  | srcQualified (set : Nat) (input : Nat)
  /-- SRC_LOSS (R257). -/
  | srcLoss (set : Nat) (input : Nat) (cause : Nat) (tick : Nat)
  /-- SRC_BLOCKING_CONFIRMED (R258). -/
  | srcBlockingConfirmed (set : Nat) (input : Nat)
  /-- SRC_CONDUCTION_CONFIRMED (R258). -/
  | srcConductionConfirmed (set : Nat) (gapNs : Nat) (vbusMin : Nat)
  /-- SRC_STUCK (R258). -/
  | srcStuck (set : Nat)
  /-- SRC_FAILED (R258). -/
  | srcFailed (set : Nat)
  /-- SRC_AUTO_RETURN (R257). -/
  | srcAutoReturn (set : Nat)
  /-- SRC_NONE_TIMEOUT (R260). -/
  | srcNoneTimeout (set : Nat)
  /-- HOLDUP_RELEASE (R252). -/
  | holdupRelease (on : Bool)
  /-- HOLDUP_CHARGE_END (R262). -/
  | holdupChargeEnd
  /-- HOLDUP_BLEED_START (R263). -/
  | holdupBleedStart (time tick : Nat)
  /-- HOLDUP_BLEED_GATE (R263). -/
  | holdupBleedGate (time : Nat)
  /-- HOLDUP_BLEED_END (R263). -/
  | holdupBleedEnd (late : Bool) (time : Nat)
  /-- BATT_CUTOFF (R309). -/
  | battCutoff (string : Nat)
  /-- CUTOFF_RELEASE (R309). -/
  | cutoffRelease (string : Nat)
  /-- BATT_HIBERNATE (R317). -/
  | battHibernate (string : Nat)
  /-- REDUCED_SAMPLING (R318). -/
  | reducedSampling (string : Nat)
  /-- SEQ_DELAY_UP_END (R340). -/
  | seqDelayUpEnd (seq : Nat)
  /-- SEQ_DELAY_DOWN_END (R342). -/
  | seqDelayDownEnd (seq : Nat)
  /-- SEQ_STEP_UP (R340). -/
  | seqStepUp (seq : Nat)
  /-- SEQ_STEP_OFF (R342). -/
  | seqStepOff (seq : Nat)
  /-- SEQ_RISE_TIMEOUT (R340). -/
  | seqRiseTimeout (seq : Nat)
  /-- SEQ_FALL_TIMEOUT (R347). -/
  | seqFallTimeout (seq : Nat)
  /-- SEQ_DSCH_WIN_END (R347). -/
  | seqDschWinEnd (seq : Nat)
  /-- SEQ_MEMBER_FAULT (R349). -/
  | seqMemberFault (seq : Nat) (step : Nat)
  /-- SEQ_MIN_OFF_END (R341). -/
  | seqMinOffEnd (seq : Nat)
  /-- FAULTN_QUIET (R341). -/
  | faultnQuiet (seq : Nat)
  /-- FAULTN_LOW (R353). -/
  | faultnLow (time : Nat)
  /-- FAULTN_HIGH (R351). -/
  | faultnHigh (time : Nat)
  /-- CONE_TRIP (R366). -/
  | coneTrip (sensor cone : Nat) (release : Bool) (uv : Nat)
  /-- CONE_CONFIRM (R366). -/
  | coneConfirm (sensor cone : Nat) (tick : Nat)
  /-- SITTER_RELEASE (R376). -/
  | sitterRelease
  /-- SENSOR_BIAS_FAULT (R373). -/
  | sensorBiasFault (sensor : Nat)
  /-- BLACK_BOX_TRIGGER (R435). -/
  | blackBoxTrigger (tick : Nat)
  /-- BLACK_BOX_COMMIT_DONE (R436). -/
  | blackBoxCommitDone
  /-- BLACK_BOX_REARM (R435). -/
  | blackBoxRearm
  /-- SHERD_WRITE_DONE (R448). -/
  | sherdWriteDone (ok : Bool)
  /-- SLOT_ERASE_DONE (R444). -/
  | slotEraseDone (slot : Nat)
  /-- HANDOVER_COPY_DONE (R452). -/
  | handoverCopyDone (tick : Nat)
  /-- HANDOVER_HOLD_COMMANDS (R452). -/
  | handoverHoldCommands
  /-- HANDOVER_BOUNDARY (R452). -/
  | handoverBoundary
  /-- NEW_IMAGE_START (R453). -/
  | newImageStart (recordsOk : Bool)
  /-- FIREBOX_IMAGE_SWITCH (R454). -/
  | fireboxImageSwitch
  /-- FIREBOX_SELF_REVERT (R460). -/
  | fireboxSelfRevert
  /-- IMAGE_CONFIRMED (R457). -/
  | imageConfirmed (firebox : Bool)
  /-- FAILED_BOOT (R458). -/
  | failedBoot
  /-- SAFE_HOLD (R461). -/
  | safeHold
  /-- FIREBOX_POR_RELEASE (R506). -/
  | fireboxPorRelease (straps : BitVec 7)
  /-- FIREBOX_POR (R506). -/
  | fireboxPor
  /-- FIREBOX_RAILS_GOOD (R507). -/
  | fireboxRailsGood
  /-- SUPERVISOR_CHECKED (R507). -/
  | supervisorChecked (ok : Bool)
  /-- HK_SUPPLIES_GOOD (R507). -/
  | hkSuppliesGood
  /-- HK_START_FAIL (R508). -/
  | hkStartFail
  /-- HK_RETRY (R508). -/
  | hkRetry
  /-- BOOT_ROM_INIT_DONE (R507). -/
  | bootRomInitDone (sound : List Nat)
  /-- MGMT_READY (R111). -/
  | mgmtReady
  /-- HEARTH_SUPPLY_FAULT (R509). -/
  | hearthSupplyFault
  /-- DEVICE_RESET (R515). -/
  | deviceReset (straps : BitVec 7)
  /-- REF_CLOCK_LOSS (R513). -/
  | refClockLoss
  /-- REF_CLOCK_RESTORE (R513). -/
  | refClockRestore
  /-- PLL_UNLOCK (R513). -/
  | pllUnlock (pll : Nat)
  /-- MBOX_COMMAND (R484). -/
  | mboxCommand (peer : Bool) (desc : RawDesc)
  /-- MBOX_REREAD (R482). -/
  | mboxReread (peer : Bool)
  /-- MBOX_DISCARD (R482). -/
  | mboxDiscard (peer : Bool)
  /-- MBOX_FRAME_ERROR (R486). -/
  | mboxFrameError (peer : Bool) (fault : FrameFault)
  /-- MBOX_READ (R485). -/
  | mboxRead (peer : Bool) (count : Nat)
  /-- ALERT_RESPONSE_READ (R487). -/
  | alertResponseRead
  /-- ATTENTION_PULSE (R488). -/
  | attentionPulse (time : Nat)
  /-- TWO_WIRE_TIMEOUT (R489). -/
  | twoWireTimeout (peer controller : Bool) (address : Nat)
  /-- TWO_WIRE_ABORT (R489). -/
  | twoWireAbort (peer controller : Bool) (address : Nat)
  /-- BUS_STUCK_CLEAR (R489). -/
  | busStuckClear (cleared : Bool) (address : Nat)
  /-- ARBITRATION_LOST (R470). -/
  | arbitrationLost (served : Bool) (address : Nat)
  /-- MODULE_DISCOVERY (R476). -/
  | moduleDiscovery (address : Nat) (reply : Option (Nat × Nat))
  /-- MODULE_POLL_CYCLE (R476). -/
  | modulePollCycle (polls : List (Nat × Option PollReads)) (peer : Bool)
  /-- MODULE_WRITE (R477). -/
  | moduleWrite (address : Nat) (nack : Option Nat)
  /-- ETH_FRAME_RECEIVED (R405). -/
  | ethFrameReceived (port length : Nat) (kind : EthKind) (time : Nat)
  /-- NET_LINK (R419). -/
  | netLink (port : Nat) (up : Bool) (speed : Nat)
  /-- DTLS_HANDSHAKE (R406). -/
  | dtlsHandshake (port : Nat) (key : List Byte) (stage : Handshake)
  /-- DTLS_IDLE_CLOSE (R406). -/
  | dtlsIdleClose (session : Nat)
  /-- COAP_GET_ID (R407). -/
  | coapGetId (port : Nat)
  /-- COAP_POST_CMD (R408). -/
  | coapPostCmd (session mid szx block : Nat) (desc : RawDesc)
  /-- COAP_PUT_IMG (R446). -/
  | coapPutImg (session mid szx num : Nat) (restart : Bool) (sherd : List Byte)
  /-- STREAM_EMISSION (R412). -/
  | streamEmission (stream : Nat) (resolved : Bool)
  /-- BRANCH_PG_CONFIRM (R232). -/
  | branchPgConfirm (branch : Nat)
  /-- BRANCH_PG_LOSS (R232). -/
  | branchPgLoss (branch : Nat)
  /-- BRANCH_BACKSTOP (R232). -/
  | branchBackstop (branch : Nat) (tick : Nat)
  /-- BRANCH_OV_REVERSE (R239). -/
  | branchOvReverse (branch : Nat) (reverse : Bool) (tick : Nat)
  /-- BRANCH_RETRY_DELAY (R231). -/
  | branchRetryDelay (branch : Nat)
  /-- BRANCH_RETRY_CLEAR (R239). -/
  | branchRetryClear (branch : Nat)
  /-- SRC_WINDOW_LOSS (R257). -/
  | srcWindowLoss (set : Nat) (input : Nat) (tick : Nat)
  /-- VDRV_UV_RELEASE (R151). -/
  | vdrvUvRelease
  /-- PLL_RELOCK (R513). -/
  | pllRelock (pll : Nat)
  /-- PCIE_LINK_DOWN (R513). -/
  | pcieLinkDown (refclk : Bool)
  /-- NETIF_LINK_TIMEOUT (R412). -/
  | netifLinkTimeout (port : Nat)
  /-- DAD_COMPLETE (R405). -/
  | dadComplete (port : Nat) (conflict : Bool)
  /-- REDUCED_SAMPLING_TURN (R318). -/
  | reducedSamplingTurn (string : Nat)
  /-- ATTENTION_PULSE_COLLISION (R488). -/
  | attentionPulseCollision
  /-- DISCHARGE_THERMAL_OFF (R183). -/
  | dischargeThermalOff (bleed : Bool) (switch : Nat)
  /-- JTAG_INSTRUCTION_LOAD (R521). -/
  | jtagInstructionLoad (code : Nat)
  deriving DecidableEq, Repr

end Sys2Proof
end

