-- ==== Sys2Proof/Config.lean ====
section
/-! DEFINITION. What an implementation fixes and what the spec leaves open: constants without a body (nothing can
evaluate them), each named in the assumption log. -/

namespace Sys2Proof.Config

/-- Whether a quotient that is not exact is rounded up, where the spec asks for an integer and states no rounding
(log entry 3). -/
opaque roundsUp : Int → Nat → Bool

/-- The fused grade of the part (R1, R2): false = IA, true = XA. -/
opaque gradeXa : Bool

/-- SYS_UID, fused per part (spec 20). -/
opaque uid : BitVec 64

/-- The public half of the device's P-256 key pair, x then y (R406). -/
opaque identityKey : List (BitVec 8)

/-- The MAC base address, fused per part (R404). -/
opaque macBase : BitVec 48

/-- A free value: the spec states that some value results and not which. Applied to the counter of free values that
the state holds, so two uses need not agree (log entry 4). -/
opaque freeNat : Nat → Nat

/-- What a field of `n` bits holds where the value the spec computes for it does not fit (log entry 16). -/
opaque overflow : Nat → Int → Nat

/-- The idle time in µs after which a branch's start backstop clears, which the spec leaves open (log entry 17). -/
opaque branchBackstopClear : Nat

/-- The bus voltage at full scale of the PD channel BUS_PD, in 10 mV units, which the spec does not state
(log entry 19). -/
opaque busFullScale : Nat

/-- The bank voltage at full scale of the PD channel HU_PD, in 10 mV units (log entry 19). -/
opaque bankFullScale : Nat

/-- The offset in BAR4 of the snapshot area of a handle's block, which the spec leaves to the device (R434). -/
opaque snapOffset : Nat → Nat → Nat

/-- Whether an ECDSA P-256 signature (r, s) of a SHA-256 digest passes against the Ozrath key of the boot ROM, which the
spec does not give (R442, R522; log entry 22). -/
opaque signatureOk : List (BitVec 8) → List (BitVec 8) → Bool

/-- The bytes of the manifest of the image that the part leaves the factory with, which the spec does not give (log entry 23). -/
opaque factoryByte : Nat → BitVec 8

/-- That manifest: whatever its bytes, it lists the part's own stepping, B0, and no other (R3, log entry 23). -/
def factoryManifest : List (BitVec 8) :=
  (List.range 1024).map fun k => if k = 92 then 1 else if k = 96 then 0xB0 else factoryByte k

/-- The factory trim of the on-die sensors: the diode voltage in 1/128 µV of sensor `n` at a temperature in Q9.7 °C, which the
spec does not state (R367, log entry 91). -/
opaque trimVbe : Nat → Int → Int

/-- The version of the Firebox image that both banks leave the factory with (log entry 23). -/
opaque factoryFirebox : Nat

end Sys2Proof.Config
end

