-- ==== Sys2Proof/Machine/State.lean ====
section
/-! DEFINITION. The machine's state as plain data: every register, queue, mode and pin the spec gives the K960, the
queue of waiting commands, the reasons a step can stop, and the state after reset. Tables keyed by an instance number
are lists of (number, entry) pairs with rising numbers that list no entry equal to the table's default. -/

namespace Sys2Proof.Machine

/-- The reasons a step stops with a fault. -/
inductive Fault where
  /-- The command names an instance the spec does not give the part (a ring above 127, a feed above 39, ...): raised by
  every meaning whose command carries an instance number. Safe: no such command can reach the part. -/
  | noSuchInstance
  deriving DecidableEq, Repr

/-- The reasons a command is refused. -/
inductive Refusal where
  /-- The command has no meaning in the model: raised by an arm of `exec` alone. Safe: the model stops. -/
  | notModelled (mnemonic : String)
  deriving DecidableEq, Repr

/-! ### The Kiln log store (non-volatile: spec 04, 06, 08, 11, 13, 16, 17) -/

/-- A record kept in two alternating copies with a count of its writes: `newer` and `older` hold record bytes, empty
before the first write (R189). -/
structure Copies where
  newer : List Byte := []
  older : List Byte := []
  count : Nat := 0
  deriving DecidableEq, Repr

/-- The Kiln log store: the calibration copy of R113, and the records of rails, branches, baselines, strings, impedance
tables, the Sitter and the black box. -/
structure KilnStore where
  cal : List Byte := []
  rails : List (Nat × Copies) := []
  branches : List (Nat × Copies) := []
  baselines : List (Nat × List Byte) := []
  strings : List (Nat × Copies) := []
  impedance : List (Nat × Copies) := []
  sitter : Copies := {}
  blackBox : Copies := {}
  deriving DecidableEq, Repr

/-! ### Setup registers under SYS_LOCK (RWL fields: Tables 1.2, 1.5, 2.3; spec 20) -/

/-- The RWL registers and the lock: the registers that no command but a device reset, a Firebox power-on reset or a
setup write changes (R7, R520). -/
structure Setup where
  lock : Bool := false
  flueTime : BitVec 10 := 200
  flueSeq : BitVec 3 := 0
  wdTurns : BitVec 16 := 50
  wdDown : Bool := false
  wdSeq : BitVec 3 := 0
  wheelNominal : Bool := false
  wheelSrc : BitVec 2 := 0
  wheelDelay : BitVec 8 := 0
  deriving DecidableEq, Repr

/-- The firing profiles (Table 1.7). -/
inductive Profile where
  | bisque | glaze | raku
  deriving DecidableEq, Repr

/-- SYS_PROFILE, the management watchdog, the Flue watch and the takeover program (R10, R19, R25). -/
structure Plane where
  profile : Profile := .glaze
  profilePending : Profile := .glaze
  profileChanging : Bool := false
  /-- The management plane is running and services command rings (R18). -/
  mgmtRunning : Bool := false
  wdArmed : Bool := false
  wdCount : Nat := 0
  beatThisTurn : Bool := false
  mgmtLost : Bool := false
  /-- Turn boundaries passed since MGMT_LOST without a heartbeat (R516). -/
  lostTurns : Nat := 0
  wdFaultN : Bool := false
  /-- The Flue is silent and the Firebox has taken over (R10). -/
  takeover : Bool := false
  hearthRestarted : Bool := false
  /-- Down orders still to run, one after another (R10 steps 4 and 5, R19): sequence indices. -/
  downOrders : List Nat := []
  downRunning : Option Nat := none
  /-- Elements still to stop in step 6 of a takeover, as type codes and indices. -/
  stopList : List (Nat × Nat) := []
  stopping : Option (Nat × Nat) := none
  deriving DecidableEq, Repr

/-! ### The Wheel (spec 02) -/

/-- Wheel states (Table 2.1). -/
inductive WheelState where
  | free | acquire | slew | locked | coast
  deriving DecidableEq, Repr

/-- What the Wheel remembers of one of its two inputs: the raw time of the last accepted edge, its compensated time
and the time of the last valid edge, in 10 ns units (R28 to R30). -/
structure EdgeInput where
  lastRaw : Option Nat := none
  lastComp : Option Nat := none
  lastValid : Option Nat := none
  deriving DecidableEq, Repr

/-- The Wheel (spec 02). Times and periods are in 10 ns units, phases in wheel ticks. -/
structure Wheel where
  state : WheelState := .free
  everLocked : Bool := false
  /-- Tick count at the latest command that brought one (R41). -/
  tick : Nat := 0
  /-- Input in use: false = MAINS_REF, true = AC_SENSE (R30). -/
  input : Bool := false
  /-- WHEEL_CFG.SRC and DELAY as they took effect at the last turn boundary. -/
  src : BitVec 2 := 0
  delay : BitVec 8 := 0
  nominal60 : Bool := false
  switchPending : Bool := false
  mains : EdgeInput := {}
  acSense : EdgeInput := {}
  period : Nat := 2000000
  held : Nat := 2000000
  lastPeriods : List Nat := []
  /-- The ACQUIRE run: its number of edges and its periods, latest first (R31). -/
  runEdges : Nat := 0
  runPeriods : List Nat := []
  /-- Remaining error r of SLEW (R33). -/
  r : Int := 0
  missedRow : Nat := 0
  missedTurn : Nat := 0
  turn : BitVec 48 := 0
  turnHi : BitVec 16 := 0
  base : BitVec 48 := 0
  length : BitVec 16 := 3000
  lengthPending : BitVec 16 := 3000
  lengthChange : Bool := false
  missed : Nat := 0
  rejected : Nat := 0
  switches : Nat := 0
  /-- Flags COAST and SLEW of the running turn, of the ended turn, and ORed over the running round (R39). -/
  coastFlag : Bool := true
  slewFlag : Bool := false
  coastEnded : Bool := false
  slewEnded : Bool := false
  coastRound : Bool := false
  slewRound : Bool := false
  deriving DecidableEq, Repr

/-! ### Status codes and completions (Tables 3.8, 3.20) -/

/-- The status codes of Table 3.20, and no other (R84). -/
inductive Status where
  | ok | badHandle | stale | noResource | busy | fenced | range | state | energyLimit | budget | aborted | version
  | auth | uncalibrated
  deriving DecidableEq, Repr

/-- What a descriptor completes with: status, handle word, the 64-bit result, the bytes it writes to its destination
buffer and that buffer's address (R59). -/
structure Cpl where
  status : Status
  handle : Word
  result : BitVec 64
  out : List Byte
  outAddr : BitVec 64
  deriving DecidableEq, Repr

/-! ### Host interface (spec 03) -/

/-- The PCIe link: down, trained with configuration requests retried, or serving requests (R545). -/
inductive LinkPhase where
  | down | trained | ready
  deriving DecidableEq, Repr

/-- Ring states (Table 3.15). -/
inductive RingState where
  | disabled | active | paused | fenced | resetting
  deriving DecidableEq, Repr

/-- The state of a submitted descriptor that has not been posted: fetched and not begun, being executed or waiting, or
ended with its completion ready to post (R57, R59). -/
inductive EntryState where
  | held
  | running
  | done (c : Cpl)
  deriving DecidableEq, Repr

/-- A submitted descriptor between its fetch and the posting of its completion. -/
structure Entry where
  raw : RawDesc
  st : EntryState
  /-- The place of its fetch among all fetches of the device (R81). -/
  stamp : Nat := 0
  deriving DecidableEq, Repr

/-- An event as queued for an event ring (R69). -/
structure QEvent where
  code : Nat
  detail : Nat
  handle : Word
  turn : Nat
  discarded : Nat
  overflow : Bool
  deriving DecidableEq, Repr

/-- One descriptor ring: its registers (Tables 3.9 to 3.16), its four counts T, F, C, H and the submitted limit U, the
descriptors fetched and not posted (oldest first, so that F = C + their number), the event queue and the coalescing
count (R54 to R69). -/
structure Ring where
  sqb : BitVec 64 := 0
  cqb : BitVec 64 := 0
  size : BitVec 4 := 4
  cls : BitVec 2 := 0
  vec : BitVec 7 := 0
  evmask : BitVec 16 := 0
  irqCount : BitVec 8 := 1
  irqTime : BitVec 16 := 0
  en : Bool := false
  state : RingState := .disabled
  reason : Nat := 0
  t : BitVec 16 := 0
  u : BitVec 16 := 0
  c : BitVec 16 := 0
  h : BitVec 16 := 0
  q : List Entry := []
  evq : List QEvent := []
  discarded : Nat := 0
  unsignalled : Nat := 0
  deriving DecidableEq, Repr

/-- One MSI-X table entry (PCIe 3.1): address, data and the mask bit of the vector control word. -/
structure MsixEntry where
  addr : BitVec 64 := 0
  data : Word := 0
  mask : Bool := true
  pending : Bool := false
  deriving DecidableEq, Repr

/-- A memory write the device issued to host memory. -/
structure DmaWrite where
  addr : BitVec 64
  bytes : List Byte
  deriving DecidableEq, Repr

/-- The host interface (spec 03): link and HOST_ registers, rings, MSI-X, and what the device has sent: memory writes
and interrupt messages, oldest first; `rdData` is the value the last register read returned. -/
structure HostIf where
  link : LinkPhase := .down
  /-- The level of PCIE_PERST_N: no link is trained while it is low (R545). -/
  perstN : Bool := false
  speed : BitVec 2 := 0
  width : BitVec 2 := 0
  lastRing : BitVec 7 := 0
  auditValid : Bool := false
  faults : Nat := 0
  droppedDb : Nat := 0
  peak : Nat := 0
  bar4Wr : Nat := 0
  rings : List (Nat × Ring) := []
  /-- The ring that the DMA engine served last, and the number of descriptors fetched so far (R61, R81). -/
  served : Nat := 127
  fetched : Nat := 0
  /-- Max payload size and max read request size as PCIe 3.1 codes them (0 = 128 bytes), and the AER status words (R47). -/
  mps : BitVec 3 := 0
  mrrs : BitVec 3 := 2
  aerUncor : Word := 0
  aerCor : Word := 0
  msix : List (Nat × MsixEntry) := []
  unselected : List (Nat × Nat) := []
  dma : List DmaWrite := []
  msgs : List Nat := []
  rdData : BitVec 32 := 0
  deriving DecidableEq, Repr

/-! ### Handles (spec 03) -/

/-- The state of a live handle (R79). -/
inductive HState where
  | disabled | enabled | fenced
  deriving DecidableEq, Repr

/-- One slot of the handle table: the generation it issues (R75), and, while live, the handle's state, configuration
block, both banks, which bank is active and whether a swap is pending (R14, R79). -/
structure Slot where
  live : Bool := false
  gen : BitVec 14 := 1
  hstate : HState := .disabled
  schema : Nat := 0
  /-- The handle went with a Hearth reset; the Firebox still holds what it was configured with (R514). -/
  ghost : Bool := false
  cfg : List Word := []
  bankA : List Byte := []
  bankB : List Byte := []
  activeB : Bool := false
  swap : Bool := false
  /-- Bytes of instruction, coefficient and shared memory that the handle holds (R116, R77). -/
  instr : Nat := 0
  coef : Nat := 0
  sram : Nat := 0
  deriving DecidableEq, Repr

/-- What a command that has begun is waiting for (R57, R65, R547). -/
inductive WaitKind where
  | enable | enableStart | disable | destroyForce | setPoint (value : Int) | swap | convert (outAddr : BitVec 64) (len : Nat)
  | warmStart | activate | rollback | sherd
  /-- What it waited for came while the management plane was halted (R67). -/
  | lost
  deriving DecidableEq, Repr

/-- A waiting command: where it came from (none once a host-interface reset has taken its ring, R48), what it waits
for and the handle it names. -/
structure Wait where
  src : Option Src
  kind : WaitKind
  handle : Word
  deriving DecidableEq, Repr

/-! ### Acquisition (spec 04) -/

/-- A placed regular slot of a fast converter (R91): its input, mode, span, generator, divisor (as log2) and offset,
and the keys of the handles that own it. -/
structure FsSlot where
  input : Nat
  mode : Nat
  span : Nat
  trig : Nat
  divLog : Nat
  offset : Nat
  owners : List Nat
  deriving DecidableEq, Repr

/-- An injected slot of a fast converter (R95): fixed input in its mode, or current (rel 1) or voltage (rel 2) of the
channel that triggered. -/
structure InjSlot where
  rel : Nat
  input : Nat
  owners : List Nat
  mode : Nat := 0
  deriving DecidableEq, Repr

/-- Calibration factors of a converter (Tables 4.16, 4.17); a PD channel keeps no segments and no turn. -/
structure Factors where
  offset : Int := 0
  gain : Int := 0
  segs : List Int := []
  temp : Int := 0
  turn : BitVec 48 := 0
  valid : Bool := false
  deriving DecidableEq, Repr

/-- A start of a generator on one converter: the inputs that it still has to convert, in order, whether it was late
(R93), which of its inputs convert in SE mode (Table 4.3), and the factors that it found (R112). -/
structure FsStart where
  gen : Nat
  inputs : List Nat
  late : Bool := false
  begun : Bool := false
  se : List Nat := []
  factors : Factors := {}
  deriving DecidableEq, Repr

/-- One fast converter (R90 to R97). -/
structure Conv where
  slots : List FsSlot := []
  inj : List InjSlot := []
  current : Option FsStart := none
  waiting : List FsStart := []
  /-- Channels with a pending injected start, and the injected conversions of the sequence that runs. -/
  injPending : List Nat := []
  injRunning : List (Nat × Nat) := []
  late : Nat := 0
  dropped : Nat := 0
  injMerged : Nat := 0
  deriving DecidableEq, Repr

/-- A precision channel: its owner, last direct and notched output words, and the direct outputs of the last turn, each
with the end of its window in units of 2^-32 turn (R100 to R105). -/
structure PdChan where
  owner : Option Nat := none
  req : Word := 0
  direct : Word := 0
  notched : Word := 0
  hist : List (Nat × Int) := []
  /-- Settings changed or the group started, and not yet settled (R102). -/
  settling : Bool := false
  /-- Held by a calibration and not yet settled again (R112). -/
  calHold : Bool := false
  deriving DecidableEq, Repr

/-- Acquisition: converters, generators' start counts, last result words, the supervisor scan, precision groups, the
thermal queue and calibration (spec 04). -/
structure Acq where
  convs : List (Nat × Conv) := []
  genCount : List (Nat × Nat) := []
  fsWord : List (Nat × Word) := []
  svWord : List (Nat × Word) := []
  tdWord : List (Nat × Word) := []
  /-- Inputs that the running supervisor scan still has to convert; whether its results are calibrated. -/
  svScan : List Nat := []
  svScanUncal : Bool := true
  svPaused : Bool := false
  pd : List (Nat × PdChan) := []
  pdStopped : List Nat := [0, 1, 2, 3, 4, 5, 6, 7]
  tdQueue : List Nat := []
  calBusy : Bool := false
  /-- Families selected and not yet finished, and all families selected: bit 0 SV, bit 1 FS, bit 2 PD. -/
  calLeft : BitVec 3 := 0
  calFamilies : BitVec 3 := 0
  calTemp : Int := 0
  svFail : Bool := false
  fsFail : Bool := false
  pdFail : Bool := false
  drift : Bool := false
  first : Bool := false
  fsSkipped : BitVec 12 := 0
  pdYield : List CalYield := []
  /-- First failed and first drifted converter of the family that finished last (R113). -/
  firstFail : Option Nat := none
  firstDrift : Option Nat := none
  calFs : List (Nat × Factors) := []
  calSv : Factors := {}
  calPd : List (Nat × Factors) := []
  /-- PD calibration overlaps the running turn, or overlapped the ended one (R112). -/
  pdCalTurn : Bool := false
  pdCalEnded : Bool := false
  deriving DecidableEq, Repr

/-! ### Throw Engine (spec 05) -/

/-- A placed loop: its lane, its C in cycles, its generator and its trigger period as a fraction, in units of
250 ps / 256 (R137, R138). -/
structure Placed where
  id : LoopId
  lane : Nat
  c : Nat
  gen : Nat
  num : Nat
  den : Nat
  deriving DecidableEq, Repr

/-- How a LOOP's runs are latched (R145). -/
inductive Latch where
  | running | hold | force
  deriving DecidableEq, Repr

/-- A start of a LOOP's generator whose samples are still to come: the inputs still missing, the values at IN0 to IN7,
whether a converted input carries DEFAULTED, and whether its run will not be performed in any case (R131, R132). -/
structure RunStart where
  missing : List Nat
  vals : List Int
  bad : Bool := false
  dead : Bool := false
  deriving DecidableEq, Repr

/-- A LOOP at run time: state words, the last value of each input, the starts that still await samples (oldest first), the
values of the run that is ready, the values at the output ports, supervision and statistics. -/
structure LoopRt where
  s : List Int := []
  ins : List Int := [0, 0, 0, 0, 0, 0, 0, 0]
  awaiting : List RunStart := []
  ready : Option (List Int) := none
  outs : List Int := [0, 0, 0, 0]
  outDefaulted : Bool := false
  latch : Latch := .running
  missed : Nat := 0
  ferr : Nat := 0
  ferrTripped : Bool := false
  runs : BitVec 32 := 0
  skipped : Nat := 0
  overrun : Nat := 0
  accSat : Nat := 0
  dSat : Nat := 0
  trips : Nat := 0
  maxWait : Nat := 0
  lastSwapRun : BitVec 32 := 0
  overrunsTurn : Nat := 0
  w : Nat := 0
  /-- SET_POINTs waiting for the next sample boundary: coefficient index and value (R134). -/
  setPoints : List (Nat × Int) := []
  /-- A preload of an integrator before the next dispatch (R164, R172, R176): index and Q1.31 value. -/
  preload : Option (Nat × Int) := none
  deriving DecidableEq, Repr

/-- The Throw Engine: placed loops in placement order, the runs that are ready in ready order, LOOP run-time state. -/
structure Throw where
  placed : List Placed := []
  ready : List LoopId := []
  /-- Overruns of the built-in loops in the turn (R132). -/
  overruns : List LoopId := []
  loops : List (Nat × LoopRt) := []
  memCorrected : Nat := 0
  deriving DecidableEq, Repr

/-! ### Regulators and phase drivers (spec 06) -/

/-- Phase states (Table 6.6). -/
inductive PhaseState where
  | off | refresh | active | shedding | shed | firing | fenced
  deriving DecidableEq, Repr

/-- The gate edges of a carrier period, in 250 ps steps from its carrier start: the high side on and off, and the low side
on and off around it (R150, R153). -/
structure GateEdges where
  hiOn : Nat
  hiOff : Nat
  loOn : Nat
  loOff : Nat
  deriving DecidableEq, Repr

/-- One phase driver: its state, the carrier periods it has spent in SHEDDING, SHED or FIRING, its bootstrap, its balance trim (Q1.31) and its loaded duty (R149 to R155, R166 to R169). -/
structure Phase where
  owner : Option Nat := none
  state : PhaseState := .off
  periods : Nat := 0
  /-- A phase SHED for less than 50 µs that enters ACTIVE at its next carrier start (R168). -/
  adding : Bool := false
  bootLow : Bool := false
  trim : Int := 0
  /-- A KIND 1 output that replaces demand and trim (R163). -/
  kind1 : Option Int := none
  duty : Int := 0
  /-- On-time loaded for the period, in 250 ps steps; 0 = no high-side pulse (R151, R153). -/
  onTime : Nat := 0
  /-- The edges that the on-time gives; none without a high-side pulse. -/
  edges : Option GateEdges := none
  /-- Carrier start of the phase in the rail's period, in 250 ps steps (R154). -/
  place : Nat := 0
  /-- The place in its own carrier period at which the phase entered FIRING, or REFRESH for a Surge (R171, R173). -/
  entered : Nat := 0
  /-- What the comparators did in the period that ended: the peak limit ended the on-time, the low side turned off at
  -I_NEG; and the consecutive periods that ended at ILIM_PK (R171, R177, R181, R184). -/
  atPeak : Bool := false
  atNeg : Bool := false
  peaks : Nat := 0
  /-- Consecutive carrier periods that met the conditions of R185 and of R186. -/
  openCount : Nat := 0
  senseCount : Nat := 0
  deriving DecidableEq, Repr

/-- A sample-trigger generator as defined: its word, the carrier period of the defining rail and the keys of its
definers (R156, R157). -/
structure Gen where
  word : Word := 0
  carrier : Nat := 0
  definers : List Nat := []
  deriving DecidableEq, Repr

/-- Run states of a rail (R175). -/
inductive RailRun where
  | off | starting | on | stopping | faulted
  deriving DecidableEq, Repr

/-- A RAIL at run time. The reference and its target are Q1.31 fractions of full scale; voltages are in mV, currents in
10 mA units. -/
structure Rail where
  run : RailRun := .off
  pg : Bool := false
  light : Bool := false
  dem : Bool := false
  demCount : Nat := 0
  /-- Every low side is held in DEM until the output first reaches PG_LO (R176). -/
  prebiased : Bool := false
  /-- Samples of the output still to come before V_pre is known (R176). -/
  preLeft : Nat := 0
  preSum : Int := 0
  surge : Option Bool := none
  surgeWin : Nat := 0
  /-- A Surge has ended: the rail's carrier starts since, and the place in the period at which it ended; none once a whole
  carrier period has passed (R170). -/
  surgeEnd : Option (Nat × Nat) := none
  surgesTurn : Nat := 0
  dmaxEff : Int := 32767
  limited : Bool := false
  /-- Carrier periods since a PHASE_OPEN or SENSE_FAIL record; none = no such record since the start (R187). -/
  failAge : Option Nat := none
  /-- Current limit under a Kiln throttle, in percent of the rating (R372). -/
  throttlePct : Nat := 100
  vset : Nat := 0
  ref : Int := 0
  target : Int := 0
  step : Int := 0
  ramping : Bool := false
  shedHold : Bool := false
  discharge : Bool := false
  fallExpired : Bool := false
  /-- An open-loop stop while the Flue is silent: carrier periods gone and in all (R182). -/
  openLoop : Option (Nat × Nat) := none
  /-- The output at the Flue takeover in mV (R182). -/
  vTake : Int := 0
  isum : List Int := []
  demand : Int := 0
  demandDefaulted : Bool := false
  lastDemand : Int := 0
  overOff : Nat := 0
  deriving DecidableEq, Repr

/-- PWM tile and rails. `railRecs` is the Kiln last-fault record of each rail index: the newer copy, the older copy and
COUNT (R189, R192). -/
structure Pwm where
  phases : List (Nat × Phase) := []
  gens : List (Nat × Gen) := []
  vdrvLow : Bool := true
  rails : List (Nat × Rail) := []
  discharge : List Nat := []
  deriving DecidableEq, Repr

/-! ### Feeds (spec 07) and prime branches (spec 08) -/

/-- Run states of feeds and branches (Tables 7.4, 8.4). -/
inductive ChanRun where
  | off | precharge | ramp | on | limiting | bleed | opening | wait | lockout
  deriving DecidableEq, Repr

/-- Where a BLEED or OPENING leads (Tables 7.4, 8.4). -/
inductive AfterOff where
  | off | wait | lockout
  deriving DecidableEq, Repr

/-- The samples of a channel in one turn: their number, the sums of the current and voltage results, the energy in
2^-16 µJ, the largest current result and whether one was late (R218, R219). -/
structure TurnAcc where
  n : Nat := 0
  nv : Nat := 0
  sumI : Int := 0
  sumV : Int := 0
  sumP : Int := 0
  energy : Int := 0
  peak : Int := -32768
  late : Bool := false
  limited : Bool := false
  defaulted : Bool := false
  /-- Branches: the run state was not ON at some instant, or a drop output carried SETTLING or DEFAULTED (R242). -/
  notOn : Bool := false
  badDrop : Bool := false
  deriving DecidableEq, Repr

/-- The energy since the onset of each fault condition that holds, in 2^-16 µJ (R221, R240): the fault timer's or, for a
branch, the estimator's; the backstop's; overvoltage; reverse current; the pre-charge; the ramp; and over the turns above
P_MAX. -/
structure Onsets where
  timer : Option Int := none
  slow : Option Int := none
  ov : Option Int := none
  rev : Option Int := none
  start : Option Int := none
  ramp : Option Int := none
  power : Option Int := none
  deriving DecidableEq, Repr

/-- The sums of a ripple demodulator over one turn: the number of samples, and Σ x·e^(−jhθ) at h = 2 and h = 6, with
e^(jθ) in units of 2^-30 (R241, R303). -/
structure Ripple where
  n : Nat := 0
  re2 : Int := 0
  im2 : Int := 0
  re6 : Int := 0
  im6 : Int := 0
  deriving DecidableEq, Repr

/-- A window of connection health: its turns, those that contribute, their Σ|I_2| in nA, and over both harmonics Σ|I_h|²,
Σ Re(V·I*) of the two drops, and Σ Im(V·I*) of their sum times the turn's length over h, in nA, pV and 10 ns (R241, R242). -/
structure RippleWin where
  turns : Nat := 0
  used : Nat := 0
  amp : Nat := 0
  w : Int := 0
  out : Int := 0
  ret : Int := 0
  ind : Int := 0
  deriving DecidableEq, Repr

/-- A FEED or BRANCH at run time. -/
structure Chan where
  run : ChanRun := .off
  after : AfterOff := .off
  pg : Bool := false
  bleedOn : Bool := false
  resLate : Bool := false
  retry : Nat := 0
  lastCause : Nat := 0
  /-- A stop from outside has reached a BLEED or OPENING, or a fault whose record is not complete (R222). -/
  stopping : Bool := false
  faultTurn : BitVec 48 := 0
  faultTick : Nat := 0
  /-- Percent of ILIM under a Kiln throttle (R372). -/
  throttlePct : Nat := 100
  /-- RETRY_DELAY has passed while the stop still went on (R211). -/
  retryDue : Bool := false
  /-- Causes found in the sample interval of a fault whose record is not complete (R210), each with the energy between its
  onset and the trip, and the state before it. -/
  causes : List (Nat × Int) := []
  before : ChanRun := .off
  attempt : Nat := 0
  iInj : Option Word := none
  vInj : Option Word := none
  attemptPeak : Option Int := none
  /-- Energy since the onset of the conditions that hold, frozen at a trip (R221). -/
  onsets : Onsets := {}
  /-- Let-through energy of the most recent fault, in 2^-16 µJ: from the onset of the recorded cause to the trip, and since
  the trip; and whether the latter is still being integrated. -/
  eBase : Int := 0
  eLet : Int := 0
  eLetRunning : Bool := false
  fault : List Byte := []
  /-- The block of the fault before, until that of the present one is complete (R210). -/
  shown : Option (List Byte) := none
  /-- Starts of the IMEAS generator since the last converted current sample (R218). -/
  starts : Nat := 0
  /-- A current sample has been converted since sampling resumed. -/
  sampled : Bool := false
  /-- Fault timer and backstop, and how long their conditions have been absent, in starts (R207). -/
  timer : Nat := 0
  timerIdle : Nat := 0
  backstop : Nat := 0
  backstopIdle : Nat := 0
  /-- Consecutive turns above P_MAX, and their number without the ended turn (R208). -/
  powerTurns : Nat := 0
  powerPrev : Nat := 0
  pgTurns : Nat := 0
  /-- Power-good without a break since the last turn boundary. -/
  pgWhole : Bool := false
  /-- The gate-drive level of the built-in loop in Q1.31; full drive is 2^31 − 1 (R206). -/
  level : Int := 2147483647
  limMissed : Nat := 0
  ref : Option Int := none
  refLost : Bool := false
  /-- An attempt is to start as soon as backfeed, the Sitter and the takeover allow it (R213, Table 7.13). -/
  wantStart : Bool := false
  waitSitter : Bool := false
  overThisTurn : Bool := false
  backfeed : Bool := false
  energy : Int := 0
  acc : TurnAcc := {}
  ended : TurnAcc := {}
  telem : List Byte := []
  /-- Branches: the estimator's onset, energy and largest current result (R234). -/
  onset : Bool := false
  e : Int := 0
  onsetPeak : Int := 0
  /-- Branches: the last change of the current, in mA per µs (R235). -/
  slope : Int := 0
  iPrev : Int := 0
  /-- The onset ended in a trip. -/
  onsetTrip : Bool := false
  /-- Branches: the demodulator's sums of the turn for the current and the two drops, the health window, baseline windows,
  levels and the last window (R241 to R243). -/
  ripI : Ripple := {}
  ripOut : Ripple := {}
  ripRet : Ripple := {}
  win : RippleWin := {}
  baseSum : List (Int × Int) := []
  windows : Nat := 0
  overWarn : Nat := 0
  underWarn : Nat := 0
  overAlarm : Nat := 0
  underAlarm : Nat := 0
  warn : Bool := false
  alarm : Bool := false
  health : List Byte := []
  healthValid : Bool := false
  deriving DecidableEq, Repr

/-! ### Rail supervision and sequencing (spec 12) -/

/-- A MONITOR at run time: its four conditions, whether UV is armed, and the results in a row that satisfy each change
(R333). -/
structure MonRt where
  pg : Bool := false
  off : Bool := false
  uv : Bool := false
  ov : Bool := false
  uvArmed : Bool := false
  cPg : Nat := 0
  cOff : Nat := 0
  cUv : Nat := 0
  cOv : Nat := 0
  deriving DecidableEq, Repr

/-- Sequence run states (Table 12.6). -/
inductive SeqRun where
  | off | rising | on | falling | held | locked
  deriving DecidableEq, Repr

/-- Step states (R360). -/
inductive StepState where
  | off | delay | starting | up | stopping | discharging | held | failed
  deriving DecidableEq, Repr

/-- One step of a sequence: its state, its marks with the turn of the latest (R360), whether it has begun and has not
been off since, its STUCK_HIGH source of FAULT_N (R352), and a discharge that goes on outside a down order (R350). -/
structure StepRt where
  st : StepState := .off
  stuck : Bool := false
  backfeed : Bool := false
  late : Bool := false
  failed : Bool := false
  member : Bool := false
  markTurn : BitVec 16 := 0
  begun : Bool := false
  stuckSrc : Bool := false
  drain : Bool := false
  deriving DecidableEq, Repr

/-- A SEQUENCE at run time (R339 to R356). -/
structure SeqRt where
  run : SeqRun := .off
  cur : Nat := 0
  cause : Nat := 7
  pending : Bool := false
  /-- MIN_OFF has not passed since the last down order. -/
  minOff : Bool := false
  /-- FAULT_N has been high for this sequence's QUIET. -/
  quiet : Bool := false
  ownFault : Bool := false
  lock : Bool := false
  /-- The SOURCE_SET whose brown-out took the sequence down, and whether its up order is to resume (R346). -/
  brown : Option Nat := none
  resume : Bool := false
  /-- A start request waits for that set to select an input other than BAT (R346). -/
  brownHold : Option Nat := none
  steps : List (Nat × StepRt) := []
  deriving DecidableEq, Repr

/-- An enable pin of an EXTERNAL step (R337). -/
inductive EnPin where
  | hiZ | low | high
  deriving DecidableEq, Repr

/-- The FAULT_N line and its counts (Table 12.15); times in 10 ns units. -/
structure FaultN where
  low : Bool := false
  edges : BitVec 32 := 0
  heldTurns : Nat := 0
  /-- The line has been low at every tick of the running turn. -/
  lowTurn : Bool := false
  highSince : Nat := 0
  /-- Accepted lows, latest first, as far back as 1.000 s matters. -/
  cycles : List Nat := []
  deriving DecidableEq, Repr

/-- MONITORs, SEQUENCEs, the enable pins SEQ_EN0 to SEQ_EN15 and FAULT_N. -/
structure SeqPart where
  mons : List (Nat × MonRt) := []
  seqs : List (Nat × SeqRt) := []
  pins : List (Nat × EnPin) := []
  fn : FaultN := {}
  deriving DecidableEq, Repr

/-! ### Source selection and hold-up (spec 09) -/

/-- Input states (Table 9.3). -/
inductive SrcState where
  | down | qualifying | available | selected | floating | failed | stuckOn
  deriving DecidableEq, Repr

/-- One input of a SOURCE_SET: its state, and whether its path is confirmed blocking (R258). -/
structure SrcInput where
  st : SrcState := .down
  blocked : Bool := true
  /-- Whole turns in the present state, and whether it has lasted since the last turn boundary (R257). -/
  turns : Nat := 0
  whole : Bool := false
  deriving DecidableEq, Repr

/-- A charge of the hold-up bank as it is measured (R262): the HU_PD value at its start and at its last output, and the sum of
bus less bank voltage over its output periods, in units of the PD values' full scales and 1 / 8.192 MHz. -/
structure HuCharge where
  start : Int
  last : Int
  sum : Int := 0
  deriving DecidableEq, Repr

/-- The phase of a transfer (R258): breaking until the old input is confirmed blocking, then making. -/
inductive Xfer where
  | idle | breaking | making
  deriving DecidableEq, Repr

/-- A SOURCE_SET at run time (R257 to R268). -/
structure SrcRt where
  ins : List (Nat × SrcInput) := []
  selected : Option Nat := none
  /-- The set is in NONE (R260). -/
  inNone : Bool := false
  xfer : Xfer := .idle
  old : Option Nat := none
  target : Option Nat := none
  /-- CAUSE of the transfer; a transfer from no input has none. -/
  cause : Option Nat := none
  turn : BitVec 48 := 0
  tick : Nat := 0
  eBefore : Nat := 0
  /-- A next input was taken (OUTCOME 1). -/
  next : Bool := false
  forced : Option Nat := none
  /-- A stop by DISABLE or DESTROY goes on until the bank has bled (R266). -/
  stopping : Bool := false
  /-- A return to an input of higher priority takes place at the next turn boundary (R257). -/
  returnDue : Bool := false
  /-- BROWNOUT has been started in this NONE, or by the cut-off hint (R260, R311). -/
  brownStarted : Bool := false
  huChg : Bool := false
  huRel : Bool := false
  huBlg : Bool := false
  bleedDue : Bool := false
  bleeding : Bool := false
  bleedLate : Bool := false
  /-- When the bleed started, in 10 ns units. -/
  bleedAt : Nat := 0
  charge : Option HuCharge := none
  cMeas : Nat := 0
  block : List Byte := []
  /-- Part of a transfer gap fell in the running turn, or in the ended one (R264). -/
  gapTurn : Bool := false
  gapEnded : Bool := false
  deriving DecidableEq, Repr

/-! ### Battery strings (spec 11) -/

/-- What a string gathers in one turn: numbers and sums of its outputs, and what befell it. -/
structure StrTurn where
  nI : Nat := 0
  nV : Nat := 0
  sumV : Int := 0
  nT : Nat := 0
  /-- Sum of the temperatures in 2^-16 °C. -/
  sumT : Int := 0
  /-- Every current output lay below 0.01 C. -/
  low : Bool := true
  /-- Awake and settled, with no DEFAULTED input, at every tick so far. -/
  awake : Bool := true
  defaulted : Bool := false
  badT : Bool := false
  hibernated : Bool := false
  settling : Bool := false
  /-- The group was stopped at some time in the turn (R318, R319). -/
  stopped : Bool := false
  /-- Q was extrapolated or estimated in the turn. -/
  estimated : Bool := false
  /-- Energy into the string and over PATH kind 4 per unit resistance, in 2^-16 µJ. -/
  energy : Int := 0
  deriving DecidableEq, Repr

/-- An impedance window at h = 2 and h = 6: its turns, those that contribute at each, Σ|I_h|² and Σ V_h·I_h*, in nA and nV
(R303). -/
structure ZWin where
  turns : Nat := 0
  used2 : Nat := 0
  used6 : Nat := 0
  w2 : Nat := 0
  w6 : Nat := 0
  re2 : Int := 0
  im2 : Int := 0
  re6 : Int := 0
  im6 : Int := 0
  deriving DecidableEq, Repr

/-- POWER of a string (Table 11.13). -/
inductive StrPower where
  | awake | hibernating | stopped | settling
  deriving DecidableEq, Repr

/-- Service states (Table 11.8). -/
inductive Service where
  | start | normal | test | recovery
  deriving DecidableEq, Repr

/-- Learning states (Table 11.5). -/
inductive Learn where
  | idle | armed | running
  deriving DecidableEq, Repr

/-- The learning cycle (R312 to R314): charges in 2^-16 µC, SoC in units of 2^-48, temperatures in 2^-16 °C. -/
structure LearnRt where
  st : Learn := .idle
  last : Nat := 255
  charge : Bool := false
  startTurn : BitVec 48 := 0
  startSoc : Int := 0
  dq : Int := 0
  /-- Time since the starting anchor in 10 ns units, steps and sum of temperatures. -/
  dur : Nat := 0
  steps : Nat := 0
  sumT : Int := 0
  tMin : Int := 0
  tMax : Int := 0
  extreme : Int := 0
  disagree : Bool := false
  cMeas : Nat := 0
  sohBefore : Nat := 0
  sohAfter : Nat := 0
  deriving DecidableEq, Repr

/-- A STRING at run time. Charges are in 2^-16 µC, SoC and uncertainties in units of 2^-48 (1 = 100 %), voltages in nV,
currents in nA, temperatures in 2^-16 °C (log entry 20). -/
structure StrRt where
  q : Int := 0
  qDis : Int := 0
  b : Int := 0
  gap : Nat := 0
  /-- A voltage, or current, output whose partner is still to come, with its sampling instant (R271). -/
  vPend : Option (Nat × Int) := none
  iPend : Option (Nat × Int) := none
  run : StrTurn := {}
  ended : StrTurn := {}
  /-- The demodulator's sums of the running turn, and the impedance window (R303). -/
  ripI : Ripple := {}
  ripV : Ripple := {}
  zWin : ZWin := {}
  qEnd : Int := 0
  disEnd : Int := 0
  bEnd : Int := 0
  /-- The accumulator at the last step. -/
  qStep : Int := 0
  disStep : Int := 0
  bStep : Int := 0
  power : StrPower := .awake
  reduced : Bool := false
  /-- The running turn is this string's sampled turn (R318). -/
  sampling : Bool := false
  /-- From a wake to the first settled output: the wake threshold in 0.01 C; 0 = no wake (Table 11.4). -/
  wakeCharge : Nat := 0
  iLast : Int := 0
  lowTurns : Nat := 0
  t : Int := 0
  tFault : Bool := false
  tGood : Nat := 0
  soc : Int := 0
  u : Int := 0
  vpol : Int := 0
  iMean : Int := 0
  vMean : Int := 0
  vSyn : Option Int := none
  sigma : Option Int := none
  rEff : Option Int := none
  rLive : Bool := false
  unanchored : Bool := false
  unSteps : Nat := 0
  disagree : Bool := false
  low : Bool := false
  outOfTable : Bool := false
  cut : Bool := false
  /-- How long the string, its lower and its upper half have been below the cut-off voltage, in cycles of 8.192 MHz (R309). -/
  cutTime : Nat × Nat × Nat := (0, 0, 0)
  /-- A cut-off that the next step takes up (R310). -/
  cutStep : Bool := false
  service : Service := .start
  serviceTurns : Nat := 0
  zValid : Bool := false
  /-- The run of R307: its steps, the sum of its values and SOC_RAW at its first step. -/
  runN : Nat := 0
  runSum : Int := 0
  runSoc : Int := 0
  age : Nat := 0
  anchorTurn : BitVec 48 := 0
  jumps : Nat := 0
  lastJump : Int := 0
  maxJump : Int := 0
  learn : LearnRt := {}
  soh : Nat := 16384
  learned : Nat := 0
  rem : Int := 0
  hund : Nat := 0
  cycles : Nat := 0
  /-- The last valid Z_2: the turn of its close and its real part in µΩ. -/
  zLast : Option (BitVec 48 × Int) := none
  tte : Option Int := none
  stepTurn : BitVec 48 := 0
  /-- The step of the ended turn is still to come (R300). -/
  stepDue : Bool := true
  /-- The estimator has held values since CREATE, and B when the state record was last written (R320, R321). -/
  known : Bool := false
  bSave : Int := 0
  telem : List Byte := []
  deriving DecidableEq, Repr

/-! ### The Energy Ledger (spec 10) -/

/-- A metered account of the running turn: its energy in 2^-16 µJ, the starts of its generator since its last sample,
whether it has been sampled, and what its samples carried. -/
structure LedAcc where
  e : Int := 0
  starts : Nat := 0
  sampled : Bool := false
  late : Bool := false
  dflt : Bool := false
  vPend : Option (Nat × Int) := none
  iPend : Option (Nat × Int) := none
  deriving DecidableEq, Repr

/-- One account of a turn or round (Table 10.7): its value in 2^-16 µJ or µC. -/
structure Account where
  kind : Nat
  index : Nat
  value : Int
  handle : Word := 0
  est : Bool := false
  used : Bool := false
  hib : Bool := false
  fsMet : Bool := false
  late : Bool := false
  deriving DecidableEq, Repr

/-- An ended turn that waits for its close: everything the close needs but the measured own draw (R280 to R283). -/
structure LedTurn where
  turn : BitVec 48
  profile : Profile
  coast : Bool
  slew : Bool
  /-- REASON of LEDG_TURN. -/
  reason : Nat
  /-- Battery mode: 1 strings, 2 substitution, 3 none. -/
  mode : Nat
  /-- Excuse reasons but FENCED. -/
  excuse : Nat
  accounts : List Account
  /-- The accounts of OWN's efficiencies and the duration in 10 ns units. -/
  effHk : Nat
  effDrv : Nat
  dur : Nat
  /-- The battery mode without the strings, and the bus and bank words at the start of the turn (R272, R276). -/
  other : Nat
  bus0 : Word
  bank0 : Word
  unmet : Nat
  /-- The turn ends a round; the number of its latch. -/
  latch : Option (BitVec 48)
  deriving DecidableEq, Repr

/-- The sums of a running round (Table 10.8), in 2^-16 µJ. -/
structure LedRound where
  coast : Bool := false
  slew : Bool := false
  declared : Bool := false
  excuse : Nat := 0
  turns : Nat := 0
  closed : Nat := 0
  excused : Nat := 0
  isOver : Nat := 0
  inp : Int := 0
  out : Int := 0
  loss : Int := 0
  stored : Int := 0
  residual : Int := 0
  resAudited : Int := 0
  thrAudited : Int := 0
  /-- Largest |RESIDUAL| / BOUND as a fraction, and its turn. -/
  maxNum : Nat := 0
  maxDen : Nat := 1
  maxTurn : BitVec 48 := 0
  accounts : List (Nat × Account) := []
  deriving DecidableEq, Repr

/-- The Ledger (spec 10). Accounts of the running turn are keyed by kind × 256 + index. -/
structure Led where
  acc : List (Nat × LedAcc) := []
  /-- The accounts of the ended turn: samples of it may still be in flight (R42). -/
  accEnded : List (Nat × LedAcc) := []
  /-- PD_DONE, and an ENABLED SOURCE_SET, at every tick of the running turn so far. -/
  pdAll : Bool := false
  srcAll : Bool := false
  /-- The turn is a handover turn, or one of a cold management start (R283). -/
  handover : Bool := false
  /-- Bus and bank voltage words at the start of the running turn (R276), and the strings' accumulators. -/
  vBus : Word := 0
  vBank : Word := 0
  q0 : List (Nat × Int) := []
  /-- The 496-byte LEDG_PATH in force in the running turn; empty = the table of zeros (R277). -/
  path : List Byte := []
  waiting : Option LedTurn := none
  count : Nat := 0
  good : Nat := 0
  alarm : Bool := false
  lastNegative : Bool := false
  lastClosed : Bool := false
  /-- The last close latched a round, so that its alarm bits go to the latched block too. -/
  latched : Bool := false
  round : LedRound := {}
  /-- UNMET_TURNS as of the last close. -/
  unmet : Nat := 50
  turnBlock : List Byte := []
  accBlock : List Byte := []
  roundBlock : List Byte := []
  roundAccBlock : List Byte := []
  fenced : Bool := false
  deriving DecidableEq, Repr

/-! ### Kiln (spec 13) -/

/-- The Cones of one sensor, bit 0 = C1: the trip comparators, the release comparators, and what is confirmed (R366). -/
structure Cones where
  trip : BitVec 3 := 0
  rel : BitVec 3 := 0
  conf : BitVec 3 := 0
  deriving DecidableEq, Repr

/-- A SENSOR at run time (R371, R373): its Cones armed at the handle's thresholds, BROKEN, good conversions in a row,
turns since the last conversion and since the last periodic request; and of the last good conversion the voltage at 10 µA in
µV and the temperature in Q9.7, from which the Firebox derives the thresholds (R365). -/
structure SensorRt where
  armed : Bool := false
  broken : Bool := false
  good : Nat := 0
  age : Option Nat := none
  turns : Nat := 0
  base : Option (Nat × Int) := none
  deriving DecidableEq, Repr

/-- Kiln: Cones, SENSORs, zones, and the sensors and the largest DWELL of the running Sitter episode. -/
structure KilnRt where
  cones : List (Nat × Cones) := []
  sens : List (Nat × SensorRt) := []
  blind : List Nat := []
  throttled : List Nat := []
  episode : List Nat := []
  dwell : Nat := 0
  deriving DecidableEq, Repr

/-! ### The Witness recorder, snapshot areas and the black box (spec 16) -/

/-- A running set of a HISTOGRAM or EXTREME: counts of the bins that are not 0, values offered and skipped, extremes
with their turns, the first turn, and the flags gathered (R423 to R426). -/
structure WitSet where
  bins : List (Nat × Nat) := []
  offered : Nat := 0
  skipped : Nat := 0
  mn : Int := 2147483647
  mx : Int := -2147483648
  mnTurn : BitVec 48 := 0
  mxTurn : BitVec 48 := 0
  first : BitVec 48 := 0
  coast : Bool := false
  slew : Bool := false
  cleared : Bool := false
  deriving DecidableEq, Repr

/-- A HISTOGRAM or EXTREME at run time: its running set and latched block, whether it has been ENABLED at some tick and
at every tick of the round, SOURCE_GONE, and the values of the running turn (sum over a common divisor, number, number
DEFAULTED, largest). -/
structure WitRt where
  run : WitSet := {}
  latched : List Byte := []
  lastLatch : BitVec 48 := 0
  used : Bool := false
  whole : Bool := false
  gone : Bool := false
  goneDone : Bool := false
  sum : Int := 0
  den : Nat := 1
  n : Nat := 0
  nDflt : Nat := 0
  top : Option Int := none
  deriving DecidableEq, Repr

/-- A published snapshot area: the turn of its last publication (HEAD = TAIL = 2 × turn; 0 = never) and its block. -/
structure Area where
  turn : BitVec 48
  block : List Byte
  deriving DecidableEq, Repr

/-- A directory entry (R434). -/
structure DirEntry where
  handle : Word
  sel : Nat
  round : Bool
  length : Nat
  deriving DecidableEq, Repr

/-- The Witness (spec 16). Areas are listed by (handle, selector); the directory is as last published. -/
structure Witness where
  sets : List (Nat × WitRt) := []
  areas : List ((Word × Nat) × Area) := []
  /-- Blocks that a fence republishes and whose area has been published in this turn already (R428, R432). -/
  late : List ((Word × Nat) × List Byte) := []
  /-- WIT_STATUS bytes 18 to 29 as latched at the last boundary: COMMITS, COMMIT_TURN, IGNORED (R439). -/
  commits : List Byte := []
  dir : List DirEntry := []
  dirTurn : BitVec 48 := 0
  /-- WIT_STATUS as latched: SETS, LATCH, TURNS, FAULTN_HELD, and the counts at the last boundary. -/
  nSets : Nat := 0
  latch : BitVec 48 := 0
  turns : Nat := 0
  held : Nat := 0
  heldBase : Nat := 0
  lastBoundary : BitVec 48 := 0
  /-- Black box: cause of the commit in progress, its trigger, the VIN_HV trigger armed, and the counts. -/
  commit : Option Nat := none
  trigTurn : BitVec 48 := 0
  trigTick : Nat := 0
  armed : Bool := true
  lastOk : Bool := false
  ignored : Nat := 0
  deriving DecidableEq, Repr

/-! ### Saggars, the Flue's lanes and the shared SRAM (spec 14) -/

/-- The internal units' saggars (Tables 14.1, 14.5): fenced and held units, causes, the rounds of each unit's recent
fences, and the counts. -/
structure Sag where
  fenced : List Nat := []
  held : List Nat := []
  cause : List (Nat × Nat) := []
  recent : List (Nat × Nat) := []
  rounds : Nat := 0
  fences : Nat := 0
  handleFences : Nat := 0
  /-- While the stream engine is fenced: when the running second began, in 10 ns units, and the events that the management
  plane has served in it (R390). -/
  servedAt : Nat := 0
  served : Nat := 0
  /-- Held units restart at the next round boundary (R389). -/
  heldRestart : Bool := false
  /-- While the Flue is fenced: the state words (selector 65,536) and blocks of the Firebox's objects as the Hearth last knew
  them, by handle and selector (R548). -/
  known : List ((Word × Nat) × List Byte) := []
  deriving DecidableEq, Repr

/-- The Flue's lanes 0 to 31: retired lanes, failures of each in the running turn, retries (R391). -/
structure FlueLanes where
  retired : List Nat := []
  fails : List (Nat × Nat) := []
  retries : BitVec 32 := 0
  deriving DecidableEq, Repr

/-- A poisoned line of the shared SRAM: bank 0 to 15, or 16 = P, line index, and its owner. -/
structure PoisonLine where
  bank : Nat
  index : Nat
  owner : SramOwner
  deriving DecidableEq, Repr

/-- A line as the array stores it: eight 72-bit codewords, the codeword that holds its CRC-32 in the bank's side array
(R394), and whose data it holds (Table 14.3). -/
structure SramLine where
  words : List (BitVec 72) := List.replicate 9 0
  owner : SramOwner := .none_
  deriving DecidableEq, Repr

/-- The shared SRAM (R393 to R400, Table 14.4): the stored lines by bank × 8,192 + index, bank 16 = P, a line that is not
listed holding zeros (the SRAM as step 5 of Table 20.1 initialises it; log entry 92); the lines that are poisoned, the
banks, and the counts. -/
structure Sram where
  lines : List (Nat × SramLine) := []
  poisoned : List PoisonLine := []
  /-- Lines of each bank reconstructed in the running scrub pass. -/
  rebuiltPass : List (Nat × Nat) := []
  /-- Banks being rebuilt, with the next stripe to rewrite. -/
  rebuilding : List (Nat × Nat) := []
  rebuildEnd : List (Nat × BitVec 48) := []
  retired : List Nat := []
  /-- The boot ROM has yet to test the retired banks: set by a device power-on (R400). -/
  untested : Bool := true
  stripe : Nat := 0
  corrected : BitVec 64 := 0
  miscorrect : Nat := 0
  rebuilt : Nat := 0
  poisonCount : Nat := 0
  consumed : Nat := 0
  passes : Nat := 0
  passTurn : BitVec 48 := 0
  lastTurn : BitVec 48 := 0
  lastAddr : Nat := 0
  deriving DecidableEq, Repr

/-! ### Network plane (spec 15) -/

/-- A STREAM at run time: frame counts, GAP of the next frame, the turn of the last emission; for a NETIF, link up and
address usable. -/
structure StreamRt where
  seq : BitVec 32 := 0
  dropped : Nat := 0
  gap : Bool := false
  lastEmit : Option (BitVec 48) := none
  link : Bool := false
  addr : Bool := false
  deriving DecidableEq, Repr

/-- A network port (Table 15.9). -/
structure Port where
  link : Bool := false
  speed : Nat := 0
  dad : Bool := false
  rx : BitVec 32 := 0
  tx : BitVec 32 := 0
  discarded : Nat := 0
  dtlsFail : Nat := 0
  drops : Nat := 0
  /-- Times of the Destination Unreachables of the last second. -/
  unreach : List Nat := []
  deriving DecidableEq, Repr

/-- A DTLS session: its port, its peer, the last 32 responses by Message ID, oldest first, and whether it is open: a
management start closes sessions and keeps the stores (R406, R408, R453). -/
structure Session where
  port : Nat
  peer : List Byte
  stored : List (Nat × List Byte) := []
  isOpen : Bool := true
  deriving DecidableEq, Repr

/-- The network plane: what it has sent is `sent` (port and datagram or response payload, oldest first); `fill` holds the
bytes written so far into the oldest buffer of each stream ring. -/
structure Net where
  streams : List (Nat × StreamRt) := []
  ports : List (Nat × Port) := []
  sessions : List (Nat × Session) := []
  /-- Handshakes in progress: the port and the peer's key. -/
  shaking : List (Nat × List Byte) := []
  fill : List (Nat × List Byte) := []
  sent : List (Nat × List Byte) := []
  deriving DecidableEq, Repr

/-! ### Firmware update (spec 17) -/

/-- Roles of a flash slot (R444). -/
inductive SlotRole where
  | free | greenware | trial | active | previous | rejected
  deriving DecidableEq, Repr

/-- One 4 MiB flash slot (R443, R448): its role, whether it is erased, the sherds written and marked (number and 1,024
bytes), and whether its manifest has been verified. `factory` marks the image the part leaves the factory with. -/
structure ImgSlot where
  role : SlotRole := .free
  erased : Bool := true
  factory : Bool := false
  sherds : List (Nat × List Byte) := []
  verified : Bool := false
  deriving DecidableEq, Repr

/-- A Firebox program bank (R445): its image's version, none = the factory image, and whether it is marked good. -/
structure FbBank where
  version : Option Nat := none
  good : Bool := true
  deriving DecidableEq, Repr

/-- How far a management start has come (Table 17.4). -/
inductive StartPhase where
  | copying | copied | holding | handedOver | started
  deriving DecidableEq, Repr

/-- A management start in progress: its slot, its LAST code, whether it is cold, whether it takes the greenware, the
handover boundary T, and the Firebox bank to switch to with the turn of the switch (R452, R454, R460). -/
structure StartRt where
  slot : Nat
  last : Nat
  cold : Bool
  green : Bool
  phase : StartPhase := .copying
  turn : BitVec 48 := 0
  fbAt : Bool := false
  fbSwitch : Bool := false
  deriving DecidableEq, Repr

/-- A sherd being written to flash: where it came from, its slot, number and bytes. -/
structure SherdWrite where
  src : Option Src
  slot : Nat
  num : Nat
  bytes : List Byte
  deriving DecidableEq, Repr

/-- Firmware update: slots and Firebox banks, the running image's slot and bank, trial and confirmation counts, the start
in progress and the sherds being written. The roles, bitmaps, banks and TRIAL_STARTS are kept in non-volatile store. -/
structure Img where
  slots : List (Nat × ImgSlot) := [(0, { role := .active, erased := false, factory := true, verified := true })]
  banks : List (Nat × FbBank) := []
  fbRun : Nat := 0
  run : Nat := 0
  last : Nat := 0
  lastTurn : BitVec 48 := 0
  trialStarts : Nat := 0
  confirm : Nat := 0
  /-- Boundaries since the Firebox switched image; none = confirmed. -/
  fbConfirm : Option Nat := none
  /-- A Firebox switch that is due: the bank, and the turn at whose tick 0 it takes place. -/
  fbDue : Option (Nat × BitVec 48) := none
  authFails : Nat := 0
  start : Option StartRt := none
  safeHold : Bool := false
  /-- No candidate has passed R450 at the last management start (R461). -/
  noCandidate : Bool := false
  /-- The execution region of Table 14.3 that the running image uses. -/
  region : Nat := 0
  writes : List SherdWrite := []
  /-- A boundary of the trial passed without a heartbeat; no heartbeat yet since a power-on start. -/
  missedBeat : Bool := false
  noBeat : Bool := false
  deriving DecidableEq, Repr

/-! ### Two-wire ports (spec 18) -/

/-- Mailbox states (R484). -/
inductive MboxState where
  | empty | executing | response
  deriving DecidableEq, Repr

/-- A mailbox: its state, the command it holds until the management plane serves it, the response frame and how much of it
has been read, and the status payload's fields. -/
structure Mbox where
  st : MboxState := .empty
  held : Option RawDesc := none
  resp : List Byte := []
  pos : Nat := 0
  lastErr : Nat := 0
  attn : BitVec 4 := 0
  errs : Nat := 0
  deriving DecidableEq, Repr

/-- A rectifier or battery module at a Port A address (R476 to R479). `op` and `vout` hold the words last written. -/
structure Module where
  present : Bool := false
  lost : Bool := false
  vmode : Bool := false
  pend : Bool := false
  lastFailed : Bool := false
  streak : Nat := 0
  exp : Int := 0
  status : Nat := 0
  vin : Nat := 0
  vOut : Nat := 0
  iOut : Nat := 0
  temp : Nat := 0
  age : Nat := 0
  fails : Nat := 0
  opWritten : Option Nat := none
  voutWritten : Option Nat := none
  droopWritten : Option Nat := none
  /-- A poll has read back what was last written (R477). -/
  proved : Bool := false
  deriving DecidableEq, Repr

/-- The two-wire ports: mailbox A (peer) and B (management), TWB_ALERT_N, the attention pulse, the counters of Table
18.14 by byte offset, the modules by address, the peer, and Port A's transaction in progress (R469 to R471). -/
structure TwoWire where
  boxA : Mbox := {}
  boxB : Mbox := {}
  alert : Bool := false
  pulseDue : Bool := false
  lastPulse : Option Nat := none
  counts : List (Nat × Nat) := []
  mods : List (Nat × Module) := []
  pollTurn : BitVec 48 := 0
  sincePoll : Nat := 0
  peerStreak : Nat := 0
  peerLost : Bool := false
  /-- The address that Port A's running transaction names, and its arbitration losses and bus errors in succession. -/
  running : Nat := 0
  arbRun : Nat := 0
  busErrRun : Nat := 0
  /-- Addresses with a transaction abandoned since the last poll cycle: that cycle fails (R470, R471, R489). -/
  abandoned : List Nat := []
  /-- Write transactions on Port A that were acknowledged: address, and the bytes with their PEC, oldest first (R475). -/
  sends : List (Nat × List (BitVec 8)) := []
  /-- The bytes that the last target read returned. -/
  read : List Byte := []
  deriving DecidableEq, Repr

/-! ### Tallies (spec 19) -/

/-- A fallback set (R501, R502): cycles and counts folded so far, the time and the totals they are folded to, the event
codes, FREEZE, and the captured high words. -/
structure FbSet where
  freeze : Bool := false
  cyc : Nat := 0
  since : Nat := 0
  hi : Word := 0
  sel : List Nat := [255, 255, 255, 255, 255, 255]
  cnt : List Nat := [0, 0, 0, 0, 0, 0]
  mark : List Nat := [0, 0, 0, 0, 0, 0]
  cntHi : List Nat := [0, 0, 0, 0, 0, 0]
  deriving DecidableEq, Repr

/-- Tallies: the totals of the block counters since device reset, keyed by block × 8 + counter, and their values at the
last round boundary; for each Throw lane the time since which it is ungated and the ungated time before; the two
published blocks; the fallback sets; and the random sampler (R493 to R504). -/
structure Tally where
  total : List (Nat × Nat) := []
  base : List (Nat × Nat) := []
  laneOn : List (Nat × Nat) := []
  laneTime : List (Nat × Nat) := []
  coast : Bool := false
  slew : Bool := false
  isPartial : Bool := false
  gather : List Byte := []
  round : List Byte := []
  fb : List (Nat × FbSet) := []
  tagEn : Bool := false
  tagM : BitVec 4 := 12
  tagFull : Bool := false
  lfsr : BitVec 24 := 1
  tags : List (List Byte) := []
  deriving DecidableEq, Repr

/-! ### Start-up, reset and clocking (spec 20) -/

/-- How far power-up has come (Table 20.1). -/
inductive PowerPhase where
  | held | rails | supervisor | supplies | boot | image | up
  deriving DecidableEq, Repr

/-- Start-up: the phase, HK_EN and its consecutive failures, SYS_RST, SYS_CLK, refused debug tokens, the instruction of
the IEEE 1149.1 port (0 = BYPASS, 1 = IDCODE, 2 = EXTEST, 3 = INTEST), and discharge and bleed switches that are off at
their thermal limit (R183, R506 to R522). -/
structure Power where
  phase : PowerPhase := .held
  hkEn : Bool := false
  hkRun : Nat := 0
  hkReport : Bool := false
  por : Bool := true
  pin : Bool := false
  hearth : Bool := false
  wdStart : Bool := false
  hkFails : Nat := 0
  refOk : Bool := false
  refFail : Bool := false
  refReturn : Bool := false
  coreLock : Bool := false
  throwLock : Bool := false
  pdLock : Bool := false
  pcieRef : Bool := false
  unlocks : Nat := 0
  tokenFails : Nat := 0
  jtag : Nat := 1
  /-- SYS_STRAP [6:0] as sampled at the end of the last device reset: ADDR, TWA_SPD, FLASH_OCT, REFSEL (R511, log
  entry 93). -/
  straps : BitVec 7 := 0
  debug : Bool := false
  scope : BitVec 3 := 0
  deriving DecidableEq, Repr

/-! ### The whole state -/

/-- Everything but the setup registers and the queue of commands. -/
structure Dev where
  wheel : Wheel := {}
  plane : Plane := {}
  host : HostIf := {}
  slots : List (Nat × Slot) := []
  waits : List Wait := []
  acq : Acq := {}
  thr : Throw := {}
  pwm : Pwm := {}
  kiln : KilnStore := {}
  feeds : List (Nat × Chan) := []
  branches : List (Nat × Chan) := []
  seq : SeqPart := {}
  src : List (Nat × SrcRt) := []
  strs : List (Nat × StrRt) := []
  /-- STRING indices that have been ENABLED since the device power-on (R321). -/
  strSeen : List Nat := []
  led : Led := {}
  /-- The time of the last turn boundary and the length of the ended turn, in 10 ns units. -/
  turnStart : Nat := 0
  turnDur : Nat := 0
  heat : KilnRt := {}
  wit : Witness := {}
  net : Net := {}
  sag : Sag := {}
  lanes : FlueLanes := {}
  sram : Sram := {}
  img : Img := {}
  twb : TwoWire := {}
  tal : Tally := {}
  pow : Power := {}
  sitter : Bool := false
  /-- The latest time that a command brought, in 10 ns units. -/
  now : Nat := 0
  /-- While a command runs that brings it: the wheel tick at which it stands (log entry 87). -/
  tickNow : Option Nat := none
  /-- Keys of the events that are limited to one a turn, or one a round, and have been raised in it. -/
  onceTurn : List Nat := []
  onceRound : List Nat := []
  /-- The model's own counter of free values (log entry 4). -/
  fresh : Nat := 0
  deriving DecidableEq, Repr

/-- The machine: the commands that are waiting (first in, first out), the setup registers, and the rest. -/
structure State where
  pending : List Instr
  setup : Setup
  dev : Dev
  deriving DecidableEq, Repr

/-- The machine right after reset: no command waiting, every register at its reset value, the Firebox power-on reset
asserted (R506). -/
def State.reset : State := ⟨[], {}, {}⟩

end Sys2Proof.Machine
end

