-- ==== Sys2Proof/Machine/Ops.lean ====
section
/-! DEFINITION. The operations every family uses: bit fields and byte order, tables keyed by an instance number,
saturating counters, open rounding, events, completions and waiting commands, the handle word and the slots. -/

namespace Sys2Proof.Machine

/-! ### How a meaning answers -/

/-- The three outcomes of a meaning. -/
abbrev Out := Host.Outcome State Fault Refusal

/-- A command that changes everything but the queue and the setup registers, and always completes. -/
def State.onDev (s : State) (f : Setup → Dev → Dev) : Out :=
  .next { s with dev := f s.setup s.dev }

/-- A command that names instance `n` of `lim`: no such instance is a fault, else as `onDev`. -/
def State.onDevAt (s : State) (lim n : Nat) (f : Setup → Dev → Dev) : Out :=
  if n < lim then s.onDev f else .fault .noSuchInstance

/-- A request of the host through a BAR: it reaches the device only once the configuration space is ready (R545). -/
def State.onHost (s : State) (f : Setup → Dev → Dev) : Out :=
  if s.dev.host.link = .ready then s.onDev f else .next s

/-- A request of the host that names instance `n` of `lim`. -/
def State.onHostAt (s : State) (lim n : Nat) (f : Setup → Dev → Dev) : Out :=
  if n < lim then s.onHost f else .fault .noSuchInstance

/-! ### Bit fields, byte order, counters -/

/-- Bits [lo + n - 1 : lo] of a number. -/
def bitsN (v lo n : Nat) : Nat := v / 2 ^ lo % 2 ^ n

/-- Bits [lo + n - 1 : lo] of a word. -/
def bits (w : Word) (lo n : Nat) : Nat := bitsN w.toNat lo n

/-- Bit `i` of a word. -/
def bit (w : Word) (i : Nat) : Bool := bits w i 1 == 1

/-- A flag as a number. -/
def b2n (b : Bool) : Nat := if b then 1 else 0

/-- The low `n` bits of a number read as two's complement. -/
def sx (n v : Nat) : Int := if v % 2 ^ n < 2 ^ (n - 1) then (v % 2 ^ n : Int) else (v % 2 ^ n : Int) - 2 ^ n

/-- An integer as `n` bits of two's complement. -/
def twos (n : Nat) (v : Int) : Nat := (v % (2 ^ n : Int)).toNat

/-- Clamp an integer to an interval. -/
def clampInt (lo hi v : Int) : Int := if v < lo then lo else if hi < v then hi else v

/-- Clamp an integer to `n` bits of two's complement. -/
def satSigned (n : Nat) (v : Int) : Int := clampInt (-(2 ^ (n - 1) : Int)) (2 ^ (n - 1) - 1) v

/-- Add to a counter that saturates at `2 ^ n - 1`. -/
def satAdd (n v k : Nat) : Nat := min (v + k) (2 ^ n - 1)

/-- `n` bytes of a number, least significant first (Table 0.5). -/
def leBytes : Nat → Nat → List Byte
  | 0, _ => []
  | n + 1, v => BitVec.ofNat 8 v :: leBytes n (v / 256)

/-- The number that bytes spell, least significant first. -/
def ofLe : List Byte → Nat
  | [] => 0
  | b :: bs => b.toNat + 256 * ofLe bs

/-- `n` bytes of zero. -/
def zeros (n : Nat) : List Byte := List.replicate n 0

/-- The bytes of words, in order. -/
def bytesOfWords (ws : List Word) : List Byte := ws.flatMap fun w => leBytes 4 w.toNat

/-- The words that bytes spell; a last group of fewer than four bytes is padded with zeros. -/
def wordsOfBytes : List Byte → List Word
  | a :: b :: c :: d :: rest => BitVec.ofNat 32 (ofLe [a, b, c, d]) :: wordsOfBytes rest
  | [] => []
  | bs => [BitVec.ofNat 32 (ofLe bs)]

/-- Word `i` of a list, 0 where the list ends. -/
def word (ws : List Word) (i : Nat) : Word := ws.getD i 0

/-- Field [lo + n - 1 : lo] of word `i` of a list. -/
def field (ws : List Word) (i lo n : Nat) : Nat := bits (word ws i) lo n

/-- `n` bytes from offset `off` of a byte list, zeros past its end, as a number. -/
def byteField (bs : List Byte) (off n : Nat) : Nat := ofLe ((bs.drop off).take n)

/-- Bytes `off` to `off + new.length - 1` of a byte list replaced. -/
def splice (bs new : List Byte) (off : Nat) : List Byte :=
  (bs.take off ++ zeros (off - bs.length)) ++ new ++ bs.drop (off + new.length)

/-- Rounded to the nearest integer, halves up. -/
def roundHalfUp (num : Int) (den : Nat) : Int := (2 * num + den) / (2 * den)

/-- A quotient the spec asks for as an integer without stating a rounding: exact where it divides, else one of the two
neighbours, which one left free (log entry 3). -/
def roundOpen (num : Int) (den : Nat) : Int :=
  if num % (den : Int) = 0 then num / den
  else num / den + (if Config.roundsUp num den then 1 else 0)

/-- A signed field of `n` bits: the value where it fits, else what log entry 16 leaves open. -/
def fitS (n : Nat) (v : Int) : Nat :=
  if -(2 ^ (n - 1) : Int) ≤ v ∧ v < 2 ^ (n - 1) then twos n v else Config.overflow n v % 2 ^ n

/-- An unsigned field of `n` bits: the value where it fits, else what log entry 16 leaves open. -/
def fitU (n : Nat) (v : Int) : Nat := if 0 ≤ v ∧ v < 2 ^ n then v.toNat else Config.overflow n v % 2 ^ n

/-- The sum of a list of integers. -/
def sumInt (l : List Int) : Int := l.foldl (· + ·) 0

/-- Stable insertion sort: `before x y` says that x goes strictly before y. -/
def isort {α : Type} (before : α → α → Bool) : List α → List α
  | [] => []
  | x :: xs => isortInsert before x (isort before xs)
where
  /-- Insert an earlier element, before equals. -/
  isortInsert (before : α → α → Bool) (x : α) : List α → List α
    | [] => [x]
    | y :: ys => if before y x then y :: isortInsert before x ys else x :: y :: ys

/-- Rising order of naturals. -/
def sortNat (l : List Nat) : List Nat := isort (fun a b => decide (a < b)) l

/-! ### Tables -/

/-- The entry of a table at a key, its default where the table lists none. -/
def tget {α : Type} (dflt : α) (t : List (Nat × α)) (k : Nat) : α :=
  match t with
  | [] => dflt
  | (j, v) :: rest => if j = k then v else tget dflt rest k

/-- The table without the key `k`. -/
def tdrop {α : Type} (t : List (Nat × α)) (k : Nat) : List (Nat × α) :=
  t.filter fun p => p.1 != k

/-- Insert an entry in key order. -/
def tinsert {α : Type} (t : List (Nat × α)) (k : Nat) (v : α) : List (Nat × α) :=
  match t with
  | [] => [(k, v)]
  | (j, w) :: rest =>
    if k < j then (k, v) :: (j, w) :: rest
    else if k = j then (k, v) :: rest
    else (j, w) :: tinsert rest k v

/-- Write an entry: an entry equal to the default is not listed. -/
def tset {α : Type} [DecidableEq α] (dflt : α) (t : List (Nat × α)) (k : Nat) (v : α) : List (Nat × α) :=
  if v = dflt then tdrop t k else tinsert t k v

/-- Change one entry. -/
def tmod {α : Type} [DecidableEq α] (dflt : α) (t : List (Nat × α)) (k : Nat) (f : α → α) : List (Nat × α) :=
  tset dflt t k (f (tget dflt t k))

/-- Change every listed entry. -/
def tmapAll {α : Type} [DecidableEq α] (dflt : α) (t : List (Nat × α)) (f : Nat → α → α) : List (Nat × α) :=
  match t with
  | [] => []
  | (k, v) :: rest => tset dflt (tmapAll dflt rest f) k (f k v)

/-- A table lists rising keys and no entry equal to its default. -/
def tableWf {α : Type} [DecidableEq α] (dflt : α) : List (Nat × α) → Bool
  | [] => true
  | [(_, v)] => decide (v ≠ dflt)
  | (j, v) :: (k, w) :: rest => decide (v ≠ dflt) && decide (j < k) && tableWf dflt ((k, w) :: rest)

/-! ### Handles (R71 to R76) -/

/-- Type codes of Table 3.17. -/
def tLoop := 1
/-- RAIL. -/
def tRail := 2
/-- FEED. -/
def tFeed := 3
/-- BRANCH. -/
def tBranch := 4
/-- SOURCE_SET. -/
def tSource := 5
/-- SEQUENCE. -/
def tSeq := 6
/-- MONITOR. -/
def tMon := 7
/-- STRING. -/
def tString := 8
/-- SENSOR. -/
def tSensor := 9
/-- STREAM. -/
def tStream := 10
/-- HISTOGRAM. -/
def tHist := 11
/-- EXTREME. -/
def tExtr := 12

/-- The limit of each type (Table 3.17); 0 for a code that names no type. -/
def typeLimit (t : Nat) : Nat :=
  [0, 96, 24, 40, 4, 2, 8, 64, 8, 20, 64, 256, 512].getD t 0

/-- TYPE of a handle word. -/
def hType (h : Word) : Nat := bits h 26 6
/-- INDEX of a handle word. -/
def hIndex (h : Word) : Nat := bits h 14 12
/-- GENERATION of a handle word. -/
def hGen (h : Word) : Nat := bits h 0 14

/-- The handle word of a type, index and generation. -/
def mkHandle (t i : Nat) (g : BitVec 14) : Word := BitVec.ofNat 32 (t * 2 ^ 26 + i * 2 ^ 14 + g.toNat)

/-- The key of a slot in the handle table. -/
def slotKey (t i : Nat) : Nat := t * 4096 + i

/-- The slot of a type and index. -/
def Dev.slot (d : Dev) (t i : Nat) : Slot := tget {} d.slots (slotKey t i)

/-- Change a slot. -/
def Dev.modSlot (d : Dev) (t i : Nat) (f : Slot → Slot) : Dev :=
  { d with slots := tmod {} d.slots (slotKey t i) f }

/-- The handle that a slot issues or has issued. -/
def Dev.handleOf (d : Dev) (t i : Nat) : Word := mkHandle t i (d.slot t i).gen

/-- Whether a slot is live. -/
def Dev.live (d : Dev) (t i : Nat) : Bool := (d.slot t i).live

/-- Whether a slot is live and ENABLED. -/
def Dev.enabled (d : Dev) (t i : Nat) : Bool := (d.slot t i).live && (d.slot t i).hstate == .enabled

/-- Whether a slot is live and FENCED. -/
def Dev.isFenced (d : Dev) (t i : Nat) : Bool := (d.slot t i).live && (d.slot t i).hstate == .fenced

/-- The indices of a type whose slot is live, rising. -/
def Dev.liveIndices (d : Dev) (t : Nat) : List Nat :=
  (d.slots.filter fun p => p.2.live && p.1 / 4096 == t).map fun p => p.1 % 4096

/-- Whether a handle word names a live handle of type `t`. -/
def Dev.namesLive (d : Dev) (t : Nat) (h : Word) : Bool :=
  hType h == t && hIndex h < typeLimit t && d.live t (hIndex h) && (d.slot t (hIndex h)).gen.toNat == hGen h

/-- Configuration word `i` of a slot. -/
def Slot.w (s : Slot) (i : Nat) : Word := word s.cfg i

/-- The active bank. -/
def Slot.active (s : Slot) : List Byte := if s.activeB then s.bankB else s.bankA

/-- The shadow bank. -/
def Slot.shadow (s : Slot) : List Byte := if s.activeB then s.bankA else s.bankB

/-- Replace the shadow bank. -/
def Slot.setShadow (s : Slot) (b : List Byte) : Slot :=
  if s.activeB then { s with bankA := b } else { s with bankB := b }

/-- The words of the active bank. -/
def Slot.bankW (s : Slot) (i : Nat) : Word := BitVec.ofNat 32 (byteField s.active (4 * i) 4)

/-! ### Rings -/

/-- Ring `n`. -/
def HostIf.ring (h : HostIf) (n : Nat) : Ring := tget {} h.rings n

/-- Change ring `n`. -/
def HostIf.modRing (h : HostIf) (n : Nat) (f : Ring → Ring) : HostIf := { h with rings := tmod {} h.rings n f }

/-- The number of entries N of a ring (R54). -/
def Ring.n (r : Ring) : Nat := 2 ^ r.size.toNat

/-- The fetch count F: the completions posted and the descriptors fetched and not posted. -/
def Ring.f (r : Ring) : BitVec 16 := r.c + BitVec.ofNat 16 r.q.length

/-- Whether an entry has ended. -/
def Entry.isDone (e : Entry) : Bool := match e.st with | .done _ => true | _ => false

/-- The writes that an ended descriptor still needs: its completion or event, and its result buffer or stream block (R61). -/
def Entry.writes (e : Entry) : Nat :=
  match e.st with
  | .done c => if c.out.isEmpty then 1 else 2
  | _ => 0

/-- The DMA operations that a ring has pending: a read of submitted descriptors, and the writes of what has ended (R61). -/
def Ring.operations (r : Ring) : Nat :=
  (if r.state == .active && r.u != r.f then 1 else 0) + (r.q.map Entry.writes).foldl (· + ·) 0

/-- DMA operations outstanding: those pending on all rings, of which at most 128 are outstanding and the others wait (R61, log
entry 9). -/
def HostIf.inflight (h : HostIf) : Nat := min 128 (h.rings.foldl (fun n p => n + p.2.operations) 0)

/-- The ring that the DMA engine serves next: round robin from the ring served last (R61). -/
def HostIf.nextServed (h : HostIf) : Option Nat :=
  ((List.range 128).map fun k => (h.served + 1 + k) % 128).find? fun n => h.rings.any fun p => p.1 == n && p.2.operations != 0

/-- HOST_INFLIGHT.PEAK follows the highest value. -/
def HostIf.notePeak (h : HostIf) : HostIf := { h with peak := max h.peak h.inflight }

/-- The completion of an EVENT_WAIT with a queued event (R69). -/
def eventCpl (e : QEvent) : Cpl :=
  ⟨.ok, e.handle,
   BitVec.ofNat 64 (e.code % 65536 + e.detail % 65536 * 2 ^ 16 + e.turn % 2 ^ 24 * 2 ^ 32
     + min e.discarded 127 * 2 ^ 56 + b2n e.overflow * 2 ^ 63), [], 0⟩

/-- Mark the first entry that satisfies `p` as ended with `c`. -/
def endFirst (p : Entry → Bool) (c : Cpl) : List Entry → List Entry
  | [] => []
  | e :: es => if p e then { e with st := .done c } :: es else e :: endFirst p c es

/-- Whether an entry is a waiting EVENT_WAIT. -/
def Entry.waitsEvent (e : Entry) : Bool := e.raw.op == 0x0403 && e.st == .running

/-- The oldest EVENT_WAIT completes with the oldest queued event (R69). -/
def Ring.pump (r : Ring) : Ring :=
  match r.evq with
  | [] => r
  | e :: es =>
    if r.q.any Entry.waitsEvent then
      { r with evq := es, q := endFirst Entry.waitsEvent (eventCpl e) r.q }
    else r

/-- Queue an event on a ring, or discard and count it (R69). -/
def Ring.deliver (r : Ring) (code detail : Nat) (handle : Word) (turn : Nat) : Ring :=
  if r.evq.length < 256 then
    Ring.pump { r with evq := r.evq ++ [⟨code, detail, handle, turn, r.discarded, r.discarded != 0⟩], discarded := 0 }
  else { r with discarded := r.discarded + 1 }

/-- The category of an event code (Table 3.13). -/
def eventCategory (code : Nat) : Nat := min (code / 256) 15

/-- Whether an event ring selects a category (R69). -/
def Ring.selects (r : Ring) (cat : Nat) : Bool :=
  r.state != .disabled && r.cls == 2 && bitsN r.evmask.toNat cat 1 == 1

/-- Deliver an event to every ring that selects it, or count it as unselected (R69, R70); one that is over the rate of R390
is discarded and counted on each ring. -/
def HostIf.raise (h : HostIf) (excess : Bool) (code detail : Nat) (handle : Word) (turn : Nat) : HostIf :=
  if (h.rings.any fun p => p.2.selects (eventCategory code)) = true then
    HostIf.notePeak { h with rings := tmapAll {} h.rings fun _ r => (
      if r.selects (eventCategory code) then
        (if excess then { r with discarded := r.discarded + 1 } else r.deliver code detail handle turn)
      else r) }
  else { h with unselected := tmod 0 h.unselected (eventCategory code) fun n => satAdd 32 n 1 }

/-- Counter `c` of counting block `b` counts `n` events (Table 19.1). -/
def Dev.tally (d : Dev) (b c n : Nat) : Dev :=
  { d with tal := { d.tal with total := tmod 0 d.tal.total (b * 8 + c) (· + n) } }

/-- The rings that an event goes to, and of them those with no room in their queue (R69). -/
def HostIf.takers (h : HostIf) (code : Nat) : Nat × Nat :=
  let rs := h.rings.filter fun p => p.2.selects (eventCategory code)
  (rs.length, (rs.filter fun p => decide (256 ≤ p.2.evq.length)).length)

/-- The events served in the running second, counted while the stream engine is fenced (R390): a second begins at the first
event served after the last one has ended (log entry 64). -/
def Sag.meter (s : Sag) (now : Nat) : Sag :=
  if s.fenced.contains 10 then
    if s.served = 0 ∨ s.servedAt + 100000000 ≤ now then { s with servedAt := now, served := 1 }
    else { s with served := s.served + 1 }
  else s

/-- Whether an event is beyond the 2,000 in a second that the management plane serves. -/
def Sag.excess (s : Sag) : Bool := s.fenced.contains 10 && decide (2000 < s.served)

/-- Raise an event (R69): its turn is the turn in which it is raised. -/
def Dev.raise (d : Dev) (code detail : Nat) (handle : Word) : Dev :=
  let n := d.host.takers code
  let d := if n.1 = 0 then d else { d with sag := d.sag.meter d.now }
  let excess := d.sag.excess
  let d := { d with host := d.host.raise excess code detail handle (d.wheel.turn.toNat % 2 ^ 24) }
  if n.1 = 0 then d else if excess then d.tally 33 5 n.1 else (d.tally 33 4 (n.1 - n.2)).tally 33 5 n.2

/-- Raise an event unless one with the same key was raised in this turn. -/
def Dev.raiseOnceTurn (d : Dev) (key code detail : Nat) (handle : Word) : Dev :=
  if d.onceTurn.contains key then d
  else Dev.raise { d with onceTurn := key :: d.onceTurn } code detail handle

/-- Raise an event unless one with the same key was raised in this round. -/
def Dev.raiseOnceRound (d : Dev) (key code detail : Nat) (handle : Word) : Dev :=
  if d.onceRound.contains key then d
  else Dev.raise { d with onceRound := key :: d.onceRound } code detail handle

/-- Whether an entry is being executed or waits. -/
def Entry.isRunning (e : Entry) : Bool := e.st == .running

/-- The executing descriptor of a command ring ends with `c`. -/
def HostIf.finishRing (h : HostIf) (n : Nat) (c : Cpl) : HostIf :=
  HostIf.notePeak (h.modRing n fun r => { r with q := endFirst Entry.isRunning c r.q })

/-- MSI-X table entry `v`. -/
def HostIf.msixEntry (h : HostIf) (v : Nat) : MsixEntry := tget {} h.msix v

/-- Signal a vector (R62): the message is sent, or stays pending while the vector is masked (PCIe 3.1), and every
ring on the vector counts afresh. -/
def HostIf.signal (h : HostIf) (v : Nat) : HostIf :=
  let h := { h with rings := tmapAll {} h.rings fun _ r => if r.vec.toNat == v then { r with unsignalled := 0 } else r }
  if (h.msixEntry v).mask then { h with msix := tmod {} h.msix v fun e => { e with pending := true } }
  else { h with msgs := h.msgs ++ [v] }

/-- A descriptor that was never read and has ended: its completion carries handle 0 (Table 3.8). -/
def unreadEntry (st : Status) : Entry := { raw := ⟨0, ⟨.ring 0, 0, 0, [], []⟩⟩, st := .done ⟨st, 0, 0, [], 0⟩ }

/-- Fence a ring with a reason (R66): the descriptors being executed keep running, every other submitted descriptor
ends with FENCED, those not fetched with handle 0. -/
def Ring.fence (r : Ring) (reason : Nat) : Ring :=
  { r with
    state := .fenced
    reason := reason
    q := (r.q.map fun e => if e.st == .held then { e with st := .done ⟨.fenced, e.raw.d.handle, 0, [], 0⟩ } else e)
      ++ List.replicate (r.u - r.f).toNat (unreadEntry .fenced) }

/-- Fence ring `n` from ACTIVE or PAUSED and raise RING_FENCED (R63, R66, R69). -/
def Dev.fenceRing (d : Dev) (n reason : Nat) : Dev :=
  let r := d.host.ring n
  if r.state == .active || r.state == .paused then
    Dev.raise { d with host := d.host.modRing n fun r => r.fence reason } 0x0002 (n + reason * 256) 0
  else d

/-! ### Completing waiting commands -/

/-- The opcodes of Table 3.19. -/
def catalogue : List Nat :=
  [0x0101, 0x0102, 0x0103, 0x0201, 0x0202, 0x0203, 0x0204, 0x0301, 0x0302, 0x0303, 0x0304, 0x0305, 0x0306, 0x0307, 0x0401,
   0x0402, 0x0403, 0x0404, 0x0405, 0x0501, 0x0502, 0x0503, 0x0601, 0x0602, 0x0603, 0x0604, 0x0701, 0x0702, 0x0703, 0x0704,
   0x0705]

/-- Status codes of Table 3.20. -/
def Status.code : Status → Nat
  | .ok => 0 | .badHandle => 1 | .stale => 2 | .noResource => 3 | .busy => 4 | .fenced => 5 | .range => 6
  | .state => 7 | .energyLimit => 8 | .budget => 9 | .aborted => 10 | .version => 11 | .auth => 12
  | .uncalibrated => 13

/-- A completion entry: 16 bytes (Table 3.8). -/
def completionBytes (phase : Bool) (turn : Nat) (c : Cpl) : List Byte :=
  leBytes 4 (b2n phase + c.status.code * 2 + turn % 2 ^ 24 * 256) ++ leBytes 4 c.handle.toNat
    ++ leBytes 8 c.result.toNat

/-- One step of CRC-8 with polynomial x^8 + x^2 + x + 1 (R482). -/
def crc8Shift (c : Nat) : Nat := if 128 ≤ c then (c * 2 % 256) ^^^ 7 else c * 2

/-- CRC-8 of bytes. -/
def crc8 (bs : List Byte) : Nat :=
  bs.foldl (fun c b => (List.range 8).foldl (fun c _ => crc8Shift c) (c ^^^ b.toNat)) 0

/-- A mailbox response frame (Table 18.7): LEN, TYPE, payload, CRC. -/
def mboxFrame (type : Nat) (payload : List Byte) : List Byte :=
  let bs := leBytes 2 (1 + payload.length) ++ [BitVec.ofNat 8 type] ++ payload
  bs ++ [BitVec.ofNat 8 (crc8 bs)]

/-- The mailbox of Port A or B. -/
def TwoWire.box (t : TwoWire) (peer : Bool) : Mbox := if peer then t.boxA else t.boxB

/-- Change a mailbox. -/
def Dev.modBox (d : Dev) (peer : Bool) (f : Mbox → Mbox) : Dev :=
  { d with twb := if peer then { d.twb with boxA := f d.twb.boxA } else { d.twb with boxB := f d.twb.boxB } }

/-- A mailbox notes an attention reason for its status frame (Table 18.9). -/
def Dev.noteAttn (d : Dev) (peer : Bool) (reason : Nat) : Dev :=
  d.modBox peer fun b => { b with attn := b.attn ||| BitVec.ofNat 4 (2 ^ reason) }

/-- Attention is requested on Port B for a reason: 0 response, 1 FAULT_N low, 2 Sitter, 3 READY; the last three are reasons
of the peer mailbox's status too (R480, R487). -/
def Dev.attend (d : Dev) (reason : Nat) : Dev :=
  let d := (if reason = 0 then d else d.noteAttn true reason).noteAttn false reason
  { d with twb := { d.twb with alert := true, pulseDue := true } }

/-- The CoAP response code of an IMG_SHERD's status (R446): 2.31, 2.04, 4.00, 4.03, 4.12 or 5.03. -/
def coapImgCode (st : Status) (missing : Nat) : Nat :=
  match st with
  | .ok => if missing = 0 then 0x44 else 0x5F
  | .range => 0x80
  | .auth => 0x83
  | .version => 0x8C
  | .state => 0x8C
  | _ => 0xA3

/-- The CoAP response of a completion: its code, then the completion and the result bytes, or the count of missing
sherds (R407, R446). -/
def coapResponse (img : Bool) (turn : Nat) (c : Cpl) : List Byte :=
  if img then BitVec.ofNat 8 (coapImgCode c.status c.result.toNat) :: leBytes 4 c.result.toNat
  else 0x44 :: (completionBytes true turn c ++ c.out)

/-- One block of a stored response goes out: the code, then at most 1,024 bytes (R408). -/
def coapBlock (resp : List Byte) (block : Nat) : List Byte := resp.take 1 ++ ((resp.drop 1).drop (1024 * block)).take 1024

/-- A CoAP response is stored with its session, the last 32 by Message ID, and its first block is sent (R408). -/
def Dev.coapReply (d : Dev) (k mid : Nat) (resp : List Byte) : Dev :=
  match d.net.sessions.find? fun p => p.1 == k with
  | some (_, s) =>
    let kept := (s.stored.filter fun m => m.1 != mid) ++ [(mid, resp)]
    let d := { d with net := { d.net with
      sessions := d.net.sessions.map fun p => if p.1 == k then (p.1, { s with stored := kept.drop (kept.length - 32) }) else p } }
    if s.isOpen then
      Dev.tally (Dev.tally { d with net := { d.net with
        sent := d.net.sent ++ [(s.port, coapBlock resp 0)]
        ports := tmod {} d.net.ports s.port fun p => { p with tx := p.tx + 1 } } } (35 + s.port) 6 1) (35 + s.port) 3
        (coapBlock resp 0).length
    else d
  | none => d

/-- The management plane is halted: it does not run, no recovery service stands in for it, and no start has come as far as to
end or take over what was being executed (R18, R67, R453, R456). -/
def Dev.planeHalted (d : Dev) : Bool :=
  !d.plane.mgmtRunning && !d.img.safeHold && (match d.img.start with
    | some st => st.phase != .started && (st.cold || st.phase != .handedOver)
    | none => true)

/-- Deliver a completion to where its descriptor came from. -/
def Dev.deliver (d : Dev) (src : Option Src) (c : Cpl) : Dev :=
  match src with
  | some (.ring n) => { d with host := d.host.finishRing n c }
  | some (.mailbox peer) =>
    let d := d.modBox peer fun b =>
      { b with st := .response, pos := 0, resp := mboxFrame 0x81 (completionBytes true d.wheel.turn.toNat c ++ c.out) }
    if peer then d.noteAttn true 0 else d.attend 0
  | some (.coap k mid img) => d.coapReply k mid (coapResponse img d.wheel.turn.toNat c)
  | none => d

/-- A completion without output bytes. -/
def plainCpl (st : Status) (h : Word) (result : Nat) : Cpl := ⟨st, h, BitVec.ofNat 64 result, [], 0⟩

/-- What a waiting command waited for has come: it completes, or, while the plane is halted, is left for the restart to end with
ABORTED (R67). -/
def Dev.answerWait (d : Dev) (w : Wait) (c : Cpl) : Dev :=
  if d.planeHalted then { d with waits := d.waits ++ [{ w with kind := .lost }] } else d.deliver w.src c

/-- End every wait that satisfies `p`, each with the status and result that `f` gives it. -/
def Dev.endWaits (d : Dev) (p : Wait → Bool) (f : Wait → Cpl) : Dev :=
  (d.waits.filter p).foldl (fun d w => d.answerWait w (f w)) { d with waits := d.waits.filter fun w => !p w }

/-- End the waits of one kind on one handle with a status. -/
def Dev.endKind (d : Dev) (k : WaitKind) (h : Word) (st : Status) : Dev :=
  d.endWaits (fun w => w.kind == k && w.handle == h) fun w => plainCpl st w.handle 0

/-- Whether a command waits on a handle. -/
def Dev.hasWait (d : Dev) (k : WaitKind) (h : Word) : Bool := d.waits.any fun w => w.kind == k && w.handle == h

/-- Whether every command descriptor waits: from tick 49,152 before T (R452). -/
def Dev.holdsCommands (d : Dev) : Bool :=
  match d.img.start with | some s => s.phase == .holding | none => false

/-- Whether command descriptors are served now: a management image or the recovery service runs, and no handover holds them
(R67, R452, R461). -/
def Dev.serves (d : Dev) : Bool := (d.plane.mgmtRunning || d.img.safeHold) && !d.holdsCommands

/-- Whether a mailbox is served: in safe hold, that of Port B alone (R461). -/
def Dev.boxServes (d : Dev) (peer : Bool) : Bool := d.serves && (d.plane.mgmtRunning || !peer)

/-- Whether a ring's descriptors may begin. -/
def Dev.ringServes (d : Dev) (r : Ring) : Bool := r.state == .active && (r.cls != 0 || d.serves)

/-! ### The free values -/

/-- Take a free value below `2 ^ n` and advance the counter (log entry 4). -/
def Dev.freeBits (d : Dev) (n : Nat) : Nat × Dev :=
  (Config.freeNat d.fresh % 2 ^ n, { d with fresh := d.fresh + 1 })

/-! ### The wheel tick of a record (log entry 87) -/

/-- Run what a command does that stands at wheel tick `t`. -/
def Dev.atTick (t : Nat) (f : Dev → Dev) (d : Dev) : Dev := { f { d with tickNow := some (t % 65536) } with tickNow := none }

/-- The tick that a record takes: that of its command, or a free value where the command brings none. -/
def Dev.recordTick (d : Dev) : Nat × Dev :=
  match d.tickNow with
  | some t => (t, d)
  | none => d.freeBits 16

/-! ### Straps (Table 20.2) -/

/-- ADDR of SYS_STRAP. -/
def Power.strapAddr (p : Power) : Nat := p.straps.toNat % 8

/-! ### Profiles (Table 1.7) -/

/-- The code of a profile in SYS_PROFILE. -/
def Profile.code : Profile → Nat
  | .bisque => 0 | .glaze => 1 | .raku => 2

/-- The profile of a code. -/
def Profile.ofCode : Nat → Option Profile
  | 0 => some .bisque | 1 => some .glaze | 2 => some .raku | _ => none

/-- Throw lane admission ceiling, in percent of cycles. -/
def Profile.ceiling : Profile → Nat
  | .bisque => 95 | .glaze => 90 | .raku => 80

/-- Tally gather interval in turns. -/
def Profile.gather : Profile → Nat
  | .bisque => 100 | .glaze => 10 | .raku => 1

/-- String hibernation entry in turns; none = never. -/
def Profile.hibernate : Profile → Option Nat
  | .bisque => some 25 | .glaze => some 100 | .raku => none

/-- Ledger residual bound: parts in 10,000 of turn throughput, and the fixed term in mJ. -/
def Profile.ledgerBound : Profile → Nat × Nat
  | .bisque => (20, 40) | .glaze => (25, 50) | .raku => (40, 80)

/-- PD default sinc order. -/
def Profile.pdK : Profile → Nat
  | .bisque => 5 | .glaze => 4 | .raku => 3

/-- PD default oversampling ratio. -/
def Profile.pdOsr : Profile → Nat
  | .bisque => 1024 | .glaze => 512 | .raku => 256

/-- PD default notch. -/
def Profile.pdNotch : Profile → Bool
  | .bisque => true | .glaze => true | .raku => false

/-- Surge deviation window in percent of the rail's set point. -/
def Profile.surgeWindow : Profile → Nat
  | .bisque => 6 | .glaze => 4 | .raku => 2

/-- Surge slope threshold in tenths of a percent of the set point per µs. -/
def Profile.surgeSlope : Profile → Nat
  | .bisque => 15 | .glaze => 10 | .raku => 5

/-- The ceiling a creation is admitted against: the stricter of the active and the pending profile (R27). -/
def Plane.ceiling (p : Plane) : Nat := min p.profile.ceiling p.profilePending.ceiling

end Sys2Proof.Machine
end

