-- ==== Sys2Proof/Machine/Rings.lean ====
section
/-! DEFINITION. The host interface (spec 03): link, doorbells, ring states, fetched descriptors, completions, interrupt
messages, the credit audit and the host-interface reset. -/

namespace Sys2Proof.Machine

/-! ### Doorbells (R55, R56, R64, R66) -/

/-- The submitted limit after a write of T: T itself, or the end of the credit window H + N, and never back from what
was submitted before (R56). -/
def Ring.submit (r : Ring) (t : BitVec 16) : Ring :=
  let lim := if (t - r.h).toNat ≤ r.n then t else r.h + BitVec.ofNat 16 r.n
  { r with t := t, u := if (r.u - r.f).toNat < (lim - r.f).toNat ∧ (lim - r.f).toNat ≤ r.n then lim else r.u }

/-- Descriptors submitted to a FENCED ring end with FENCED and handle 0, unread (R66). -/
def Ring.fenceNew (r : Ring) : Ring :=
  if r.state = .fenced then
    { r with q := r.q ++ List.replicate (r.u - r.f).toNat (unreadEntry .fenced) }
  else r

/-- Count a discarded doorbell write (R55). -/
def HostIf.dropDoorbell (h : HostIf) : HostIf := { h with droppedDb := satAdd 8 h.droppedDb 1 }

/-- A submission doorbell write (R55, R56, R66). Bits [31:16], which the host must write 0, are not looked at (log entry 80). -/
def submitDoorbell (n : Nat) (value : Word) (d : Dev) : Dev :=
  let r := d.host.ring n
  let t : BitVec 16 := value.setWidth 16
  let d := d.tally 32 5 1
  if r.state = .disabled ∨ r.state = .resetting then Dev.tally { d with host := d.host.dropDoorbell } 32 6 1
  else if r.n < (t - r.f).toNat then d.fenceRing n 2
  else { d with host := (d.host.modRing n fun r => (r.submit t).fenceNew).notePeak }

/-- A completion doorbell write (R55). -/
def consumeDoorbell (n : Nat) (value : Word) (d : Dev) : Dev :=
  if (d.host.ring n).state = .disabled then Dev.tally { d with host := d.host.dropDoorbell } 32 6 1
  else Dev.tally { d with host := d.host.modRing n fun r => { r with h := value.setWidth 16 } } 32 5 1

/-- HOST_DB_SQ. -/
def execHostDbSq (ring : Nat) (value : Word) (s : State) : Out :=
  s.onHostAt 128 ring fun _ d => submitDoorbell ring value d

/-- HOST_DB_CQ. -/
def execHostDbCq (ring : Nat) (value : Word) (s : State) : Out :=
  s.onHostAt 128 ring fun _ d => consumeDoorbell ring value d

/-! ### Ring states (Table 3.15) -/

/-- Whether the submission and completion areas overlap (R54). -/
def Ring.overlap (r : Ring) : Bool :=
  decide (r.sqb.toNat < r.cqb.toNat + 16 * r.n ∧ r.cqb.toNat < r.sqb.toNat + 64 * r.n)

/-- Whether the configuration lets the ring be enabled (R63). -/
def Ring.configValid (r : Ring) : Bool :=
  decide (4 ≤ r.size.toNat) && decide (r.size.toNat ≤ 12) && r.cls != 3 && !r.overlap

/-- EN written 1 (Table 3.15). -/
def Ring.enable (r : Ring) : Ring :=
  match r.state with
  | .disabled =>
    if r.configValid then
      { r with en := true, state := .active, t := 0, u := 0, c := 0, h := 0, q := [], evq := [], discarded := 0 }
    else { r with en := true, reason := 6 }
  | .paused => { r with en := true, state := .active }
  | _ => { r with en := true }

/-- EN written 0 (Table 3.15). -/
def Ring.pause (r : Ring) : Ring :=
  if r.state = .active then { r with en := false, state := .paused } else { r with en := false }

/-- The ring enters DISABLED with its counts at 0 and EN at 0 (R65); completions that no message has signalled yet still wait
for TIME (R62). -/
def Ring.disable (r : Ring) : Ring :=
  { r with en := false, state := .disabled, t := 0, u := 0, c := 0, h := 0, q := [], evq := [], discarded := 0 }

/-- A RESETTING ring whose last completion has been posted is DISABLED (R65). -/
def Ring.settle (r : Ring) : Ring := if r.state = .resetting ∧ r.q = [] then r.disable else r

/-- The waits that a ring reset takes back: a bank swap before its boundary (R65). -/
def Wait.resetTakes (n : Nat) (w : Wait) : Bool := w.src == some (.ring n) && w.kind == .swap

/-- Whether a ring's waiting command is a bank swap. -/
def Dev.ringWaitsSwap (d : Dev) (n : Nat) : Bool := d.waits.any (Wait.resetTakes n)

/-- What RESET does to one entry: begun and waiting on an event, a buffer or a swap boundary, or not begun: ABORTED;
any other that is being executed keeps its own status (R65). -/
def Entry.reset (swap : Bool) (e : Entry) : Entry :=
  match e.st with
  | .held => { e with st := .done ⟨.aborted, e.raw.d.handle, 0, [], 0⟩ }
  | .running =>
    if swap || e.raw.op == 0x0403 || e.raw.op == 0x0502 then { e with st := .done ⟨.aborted, e.raw.d.handle, 0, [], 0⟩ }
    else e
  | .done _ => e

/-- RESET written 1: every submitted descriptor ends, and what was written into a buffer that ends with ABORTED is forgotten
(R65). -/
def ringReset (n : Nat) (d : Dev) : Dev :=
  if (d.host.ring n).state = .disabled ∨ (d.host.ring n).state = .resetting then d
  else
    let swap := d.ringWaitsSwap n
    let d := { d with
      slots := tmapAll {} d.slots fun k s =>
        if d.waits.any (fun w => Wait.resetTakes n w && slotKey (hType w.handle) (hIndex w.handle) == k)
        then { s with swap := false } else s
      waits := d.waits.filter fun w => !Wait.resetTakes n w
      net := { d.net with fill := tdrop d.net.fill n } }
    { d with host := HostIf.notePeak (d.host.modRing n fun r => Ring.settle
      { r with
        state := .resetting
        q := r.q.map (Entry.reset swap) ++ List.replicate (r.u - r.f).toNat (unreadEntry .aborted) }) }

/-- RING_ENABLE. -/
def execRingEnable (ring : Nat) (s : State) : Out :=
  s.onHostAt 128 ring fun _ d => { d with host := d.host.modRing ring Ring.enable }

/-- RING_PAUSE. -/
def execRingPause (ring : Nat) (s : State) : Out :=
  s.onHostAt 128 ring fun _ d => { d with host := d.host.modRing ring Ring.pause }

/-- RING_RESET. -/
def execRingReset (ring : Nat) (s : State) : Out := s.onHostAt 128 ring fun _ d => ringReset ring d

/-! ### Fetched descriptors (R57, R61, R66) -/

/-- Whether the device may fetch from a ring: it is ACTIVE, and the management plane or the recovery service runs where
it is a command ring (R63, R67, R461). -/
def Dev.mayFetch (d : Dev) (r : Ring) : Bool :=
  r.state == .active && (r.cls != 0 || d.plane.mgmtRunning || d.img.safeHold)

/-- How many descriptors one read may bring: up to 8, up to the submitted limit, and on a command ring up to 16 held
(R57). -/
def Ring.fetchRoom (r : Ring) : Nat :=
  let room := min 8 (r.u - r.f).toNat
  if r.cls = 0 then min room (16 - r.q.length) else room

/-- The descriptors of a read join the ring, fetched and not begun; `stamp` numbers the first of them. -/
def Ring.append (r : Ring) (n stamp : Nat) (ds : List RawDesc) : Ring :=
  { r with q := r.q ++ (ds.take r.fetchRoom).mapIdx fun k x => ⟨{ x with d := { x.d with src := .ring n } }, .held, stamp + k⟩ }

/-- A read's descriptors join ring `n`, numbered among all fetches of the device (R81). -/
def HostIf.fetchInto (h : HostIf) (n : Nat) (ds : List RawDesc) : HostIf :=
  { h.modRing n fun r => r.append n h.fetched ds with
    fetched := h.fetched + min ds.length (h.ring n).fetchRoom, served := n }

/-- Descriptors whose opcode the catalogue does not hold end with RANGE: on a command ring each as its turn comes, on another
ring at once (R53, R57, R76). -/
def sweepEntries (all : Bool) : List Entry → List Entry
  | [] => []
  | e :: es =>
    if e.isDone then e :: sweepEntries all es
    else if e.st == .held && !catalogue.contains e.raw.op then
      { e with st := .done ⟨.range, e.raw.d.handle, 0, [], 0⟩ } :: sweepEntries all es
    else e :: (if all then sweepEntries all es else es)

/-- What a ring that serves does with unknown opcodes. -/
def sweepRing (n : Nat) (d : Dev) : Dev :=
  if d.ringServes (d.host.ring n) then
    { d with host := HostIf.notePeak (d.host.modRing n fun r => { r with q := sweepEntries (r.cls != 0) r.q }) }
  else d

/-- A read of descriptors returns: they join the ring, or a failed read fences it (R57, R66); a poisoned completion is an
uncorrectable error of AER (R47, log entry 81). -/
def fetchReturns (n : Nat) (res : FetchResult) (d : Dev) : Dev :=
  if d.mayFetch (d.host.ring n) then
    let d := d.tally 32 2 1
    match res with
    | .ok ds => sweepRing n (Dev.tally { d with host := (d.host.fetchInto n ds).notePeak } 32 0
        (min ds.length (d.host.ring n).fetchRoom))
    | .poisoned => ({ d with host := { d.host with aerUncor := d.host.aerUncor ||| 0x1000, served := n } } : Dev).fenceRing n 3
    | _ => ({ d with host := { d.host with served := n } } : Dev).fenceRing n 3
  else d

/-! ### Posting completions (R59, R60, R62) -/

/-- The phase bit of the completion with count `k`: 1 when floor(k / N) is even (R59). -/
def phaseOf (k n : Nat) : Bool := k / n % 2 == 0

/-- Whether the oldest descriptor has ended and its entry in host memory has been consumed (R59, R68). -/
def Ring.postable (r : Ring) : Option (Entry × Cpl) :=
  match r.q with
  | [] => none
  | e :: _ =>
    match e.st with
    | .done c => if (r.c - r.h).toNat < r.n ∧ r.state ≠ .disabled then some (e, c) else none
    | _ => none

/-- One completion is written: the result buffer first, then the entry; the vector is signalled on INTR or when COUNT
completions are unsignalled (R59, R62). -/
def postCompletion (n : Nat) (d : Dev) : Dev :=
  let d := sweepRing n d
  let r := d.host.ring n
  match r.postable with
  | none => d
  | some (e, c) =>
    let writes := (if c.out.isEmpty then [] else [DmaWrite.mk c.outAddr c.out]) ++
      [⟨r.cqb + BitVec.ofNat 64 (16 * (r.c.toNat % r.n)), completionBytes (phaseOf r.c.toNat r.n) d.wheel.turn.toNat c⟩]
    let uns := r.unsignalled + 1
    let h := { d.host with dma := d.host.dma ++ writes, served := n }
    let h := h.modRing n fun r => Ring.settle { r with c := r.c + 1, q := r.q.drop 1, unsignalled := uns }
    let intr := e.raw.d.flags.toNat % 2 == 1
    let d := d.tally 32 1 1
    { d with host := if intr || max 1 r.irqCount.toNat ≤ uns then h.signal r.vec.toNat else h }

/-- IRQ_COALESCE_TIMEOUT: TIME has passed since the first completion not signalled (R62). -/
def execIrqCoalesceTimeout (ring : Nat) (s : State) : Out :=
  s.onDevAt 128 ring fun _ d =>
    let r := d.host.ring ring
    if r.irqTime ≠ 0 ∧ r.unsignalled ≠ 0 then { d with host := d.host.signal r.vec.toNat } else d

/-! ### The credit audit (R68) -/

/-- The credit fault of R68: the host over its credits, or ahead of the completions posted. -/
def Ring.creditFault (r : Ring) : Bool :=
  decide (r.n < (r.t - r.h).toNat) || decide (r.n < (r.c - r.h).toNat)

/-- The device's own counts are in order and a command ring holds at most 16 (R68). -/
def Ring.countsOk (r : Ring) : Bool :=
  decide ((r.c - r.h).toNat ≤ (r.f - r.h).toNat) && decide ((r.f - r.h).toNat ≤ (r.t - r.h).toNat) &&
    (r.cls != 0 || decide (r.q.length ≤ 16))

/-- The audit of one ring. -/
def auditRing (d : Dev) (n : Nat) : Dev :=
  let r := d.host.ring n
  if r.state = .disabled then d
  else if r.creditFault then
    let d := { d with host := { d.host with faults := satAdd 16 d.host.faults 1, lastRing := BitVec.ofNat 7 n,
                                            auditValid := true } }
    (d.raise 0x0001 n 0).fenceRing n 1
  else if (r.state = .active ∨ r.state = .paused) ∧ r.countsOk = false then (d.raise 0x0C08 (128 + n) 0).fenceRing n 5
  else d

/-- The audit of every ring at a turn close (R42 step 2). -/
def auditRings (d : Dev) : Dev := (d.host.rings.map (·.1)).foldl auditRing d

/-! ### Link and host-interface reset (R48, R545) -/

/-- A source without its ring: a host-interface reset has taken it. -/
def unringed : Option Src → Option Src
  | some (.ring _) => none
  | src => src

/-- A conventional or Function Level Reset: rings, ring registers, the MSI-X table and the configuration space return to reset;
nothing is posted for what was pending, and what was being executed goes on without a ring (R48). Descriptors fetched and not
begun are not executed, and HOST_AUDIT, HOST_INFLIGHT and HOST_EVENTS keep their counts (log entry 80). -/
def hostInterfaceReset (conventional : Bool) (d : Dev) : Dev :=
  { d with
    host := { d.host with
      rings := [], msix := [], served := 127, mps := 0, mrrs := 2, aerUncor := 0, aerCor := 0
      link := if conventional then .down else d.host.link
      speed := if conventional then 0 else d.host.speed
      width := if conventional then 0 else d.host.width }
    net := { d.net with fill := [] }
    img := { d.img with writes := d.img.writes.map fun w => { w with src := unringed w.src } }
    waits := d.waits.map fun w => { w with src := unringed w.src } }

/-- HOST_INTERFACE_RESET; `perstN` is the level of PCIE_PERST_N, which only a conventional reset pulls low. -/
def execHostInterfaceReset (conventional perstN : Bool) (s : State) : Out :=
  s.onDev fun _ d =>
    let d := hostInterfaceReset conventional d
    if conventional then { d with host := { d.host with perstN := perstN } } else d

/-- CONFIG_SPACE_READY: at most 1 ms after training, requests are served (R545). -/
def execConfigSpaceReady (s : State) : Out :=
  s.onDev fun _ d =>
    if d.host.link = .trained then { d with host := { d.host with link := .ready } } else d

/-! ### HOST_ registers with a read or write of their own -/

/-- HOST_AUDIT (Table 3.5). -/
def HostIf.auditWord (h : HostIf) : Nat :=
  h.lastRing.toNat + b2n h.auditValid * 2 ^ 7 + h.faults * 2 ^ 8 + h.droppedDb * 2 ^ 24

/-- HOST_INFLIGHT (Table 3.6). -/
def HostIf.inflightWord (h : HostIf) : Nat := h.inflight + h.peak * 2 ^ 8 + h.bar4Wr * 2 ^ 16

/-- HOST_AUDIT_READ: returns HOST_AUDIT and clears FAULTS and DROPPED_DB (Table 3.5). -/
def execHostAuditRead (s : State) : Out :=
  s.onHost fun _ d =>
    let h := d.host
    { d with host := { h with rdData := BitVec.ofNat 32 h.auditWord, faults := 0, droppedDb := 0 } }

/-- HOST_INFLIGHT_READ: returns HOST_INFLIGHT and clears PEAK and BAR4_WR (Table 3.6). -/
def execHostInflightRead (s : State) : Out :=
  s.onHost fun _ d =>
    let h := d.host
    { d with host := { h with rdData := BitVec.ofNat 32 h.inflightWord, peak := 0, bar4Wr := 0 } }

/-- BAR4_WRITE: discarded and counted (R51). -/
def execBar4Write (_offset : Nat) (_value : Word) (s : State) : Out :=
  s.onHost fun _ d => { d with host := { d.host with bar4Wr := satAdd 16 d.host.bar4Wr 1 } }

end Sys2Proof.Machine
end

