-- ==== Sys2Proof/Machine/Witness.lean ====
section
/-! DEFINITION. The Witness recorder (spec 16): offering, binning, extremes and rounds, and the publication of blocks in
the snapshot areas. -/

namespace Sys2Proof.Machine

/-! ### Access -/

/-- The recording state of the handle in a slot. -/
def Dev.witRt (d : Dev) (key : Nat) : WitRt := tget {} d.wit.sets key
/-- Change it. -/
def Dev.modWit (d : Dev) (key : Nat) (f : WitRt → WitRt) : Dev :=
  { d with wit := { d.wit with sets := tmod {} d.wit.sets key f } }
/-- Slots of live HISTOGRAMs and EXTREMEs, in order. -/
def Dev.witKeys (d : Dev) : List Nat :=
  (d.slots.filter fun p => p.2.live && (p.1 / 4096 == tHist || p.1 / 4096 == tExtr)).map (·.1)
/-- The configuration words of a slot. -/
def Dev.cfgAt (d : Dev) (key : Nat) : List Word := (tget ({} : Slot) d.slots key).cfg
/-- QUANTITY. -/
def wtQuantity (ws : List Word) : Nat := field ws 1 0 8
/-- SUB. -/
def wtSub (ws : List Word) : Nat := field ws 1 8 4
/-- MODE 1: once per turn. -/
def wtTurn (ws : List Word) : Bool := field ws 1 12 1 == 1
/-- BB. -/
def wtBb (ws : List Word) : Bool := field ws 1 13 1 == 1
/-- NBINS. -/
def wtBins (ws : List Word) : Nat := field ws 2 0 9
/-- LO. -/
def wtLo (ws : List Word) : Int := sx 32 (word ws 3).toNat
/-- WIDTH. -/
def wtWidth (ws : List Word) : Nat := max 1 (word ws 4).toNat
/-- Whether the Witness is fenced (unit 5 of Table 14.1). -/
def Dev.witFenced (d : Dev) : Bool := d.sag.fenced.contains 5

/-! ### Offering (R423 to R425) -/

/-- The bin of a value (R424). -/
def binOf (ws : List Word) (v : Int) : Nat :=
  let lo := wtLo ws
  let n := wtBins ws
  if v < lo then 0
  else if lo + ((n - 2) * wtWidth ws : Nat) ≤ v then n - 1
  else 1 + ((v - lo) / wtWidth ws).toNat

/-- A set with one more offered value. -/
def WitSet.offer (s : WitSet) (hist : Bool) (ws : List Word) (turn : BitVec 48) (v : Int) : WitSet :=
  let s := { s with offered := s.offered + 1 }
  if hist then { s with bins := tmod 0 s.bins (binOf ws v) (· + 1) }
  else
    let lower := s.offered == 1 || decide (v < s.mn)
    let upper := s.offered == 1 || decide (s.mx < v)
    { s with mn := if lower then v else s.mn, mnTurn := if lower then turn else s.mnTurn
             mx := if upper then v else s.mx, mxTurn := if upper then turn else s.mxTurn }

/-- Quantities whose MODE 1 value is a turn mean, and those whose MODE 1 value is a turn maximum (Table 16.2). -/
def turnMean (q : Nat) : Bool := [0x01, 0x02, 0x03, 0x10, 0x11, 0x18, 0x20, 0x38].contains q
/-- The turn-maximum quantities. -/
def turnMax (q : Nat) : Bool := q == 0x40 || q == 0x41

/-- A value `num / den` of a quantity of `src`, of turn `turn`, reaches the handle in slot `key`. -/
def witTake (turn : BitVec 48) (q sub : Nat) (src : Word) (num : Int) (den : Nat) (dflt : Bool) (d : Dev) (key : Nat) : Dev :=
  let ws := d.cfgAt key
  let s := tget ({} : Slot) d.slots key
  if word ws 0 == src && wtQuantity ws == q && (q != 0x03 || wtSub ws == sub) && s.hstate == .enabled && !(d.witRt key).gone then
    let v := satSigned 32 (roundOpen num (max 1 den))
    let part := wtTurn ws && (turnMean q || turnMax q)
    let d := if part then d else d.tally 42 (b2n dflt) 1
    d.modWit key fun r =>
      if wtTurn ws && turnMean q then
        if dflt then { r with nDflt := r.nDflt + 1 } else { r with sum := r.sum + num, den := max 1 den, n := r.n + 1 }
      else if wtTurn ws && turnMax q then
        if dflt then { r with nDflt := r.nDflt + 1 } else { r with top := some (max (r.top.getD v) v), n := r.n + 1 }
      else if dflt then { r with run := { r.run with skipped := r.run.skipped + 1 } }
      else { r with run := r.run.offer (key / 4096 == tHist) ws turn v }
  else d

/-- A value of a quantity that belongs to turn `turn` is offered to every handle that records it (R423). -/
def witValueAt (turn : BitVec 48) (src : Word) (q sub : Nat) (num : Int) (den : Nat) (dflt : Bool) (d : Dev) : Dev :=
  if d.witFenced then d else d.witKeys.foldl (witTake turn q sub src num den dflt) d

/-- A value of the running turn. -/
def witValue (src : Word) (q sub : Nat) (num : Int) (den : Nat) (dflt : Bool) (d : Dev) : Dev :=
  witValueAt d.wheel.turn src q sub num den dflt d

/-- The turn closes for a recording handle: its turn mean or maximum is offered; `turn` is the ended turn. -/
def witTurnOne (turn : BitVec 48) (d : Dev) (key : Nat) : Dev :=
  let ws := d.cfgAt key
  let x := d.witRt key
  let d := if x.n != 0 then d.tally 42 0 1 else if x.nDflt != 0 then d.tally 42 1 1 else d
  d.modWit key fun r =>
    let v := match r.top with
      | some v => v
      | none => satSigned 32 (roundOpen r.sum (max 1 (r.den * r.n)))
    let run := if r.n != 0 then r.run.offer (key / 4096 == tHist) ws turn v
      else if r.nDflt != 0 then { r.run with skipped := r.run.skipped + 1 } else r.run
    { r with run := { run with coast := run.coast || (r.used && d.wheel.coastEnded), slew := run.slew || (r.used && d.wheel.slewEnded) }
             sum := 0, den := 1, n := 0, nDflt := 0, top := none }

/-- The turn closes for the Witness. -/
def witTurn (turn : BitVec 48) (d : Dev) : Dev :=
  if d.witFenced then { d with wit := { d.wit with sets := tmapAll {} d.wit.sets fun _ r => { r with sum := 0, den := 1, n := 0, nDflt := 0, top := none } } }
  else d.witKeys.foldl (witTurnOne turn) d

/-! ### Blocks (R429, R430) -/

/-- The FLAGS byte of a set. -/
def witFlags (s : WitSet) (part gone dflt running : Bool) : Byte :=
  BitVec.ofNat 8 (b2n s.coast + b2n s.slew * 2 + b2n part * 4 + b2n gone * 8 + b2n dflt * 16 + b2n running * 32)

/-- The block of a set: WIT_HIST or WIT_EXT. -/
def witBlock (d : Dev) (key : Nat) (s : WitSet) (flags : Byte) (latch : BitVec 48) : List Byte :=
  let ws := d.cfgAt key
  let h := d.handleOf (key / 4096) (key % 4096)
  let mid := leBytes 4 h.toNat ++ leBytes 6 latch.toNat ++ leBytes 6 s.first.toNat ++ leBytes 4 (latch - s.first).toNat
  if key / 4096 = tHist then
    [0x01, flags] ++ leBytes 2 (wtBins ws) ++ mid ++ leBytes 8 s.offered ++ leBytes 8 s.skipped ++
      (List.range (wtBins ws)).flatMap fun b => leBytes 8 (tget 0 s.bins b)
  else
    [0x01, flags, BitVec.ofNat 8 (wtQuantity ws), BitVec.ofNat 8 (wtSub ws)] ++ mid ++ leBytes 4 (twos 32 s.mn) ++
      leBytes 4 (twos 32 s.mx) ++ leBytes 6 s.mnTurn.toNat ++ leBytes 6 s.mxTurn.toNat ++ zeros 4 ++ leBytes 8 s.offered

/-- Whether a running set is to carry PARTIAL (R426). -/
def WitRt.part (r : WitRt) : Bool := !r.whole || r.run.cleared

/-- The running set as it reads (selector 1), copied in the present turn, whose flags it carries too (R39). -/
def witRunning (d : Dev) (key : Nat) : List Byte :=
  let r := d.witRt key
  let s := { r.run with
    coast := r.run.coast || (r.used && d.wheel.coastFlag), slew := r.run.slew || (r.used && d.wheel.slewFlag) }
  witBlock d key s (witFlags s r.part r.gone d.witFenced true) d.wheel.turn

/-- The latched set as it reads (selector 0). -/
def witLatched (d : Dev) (key : Nat) : List Byte :=
  let r := d.witRt key
  if r.latched.isEmpty then witBlock d key {} (witFlags {} false r.gone d.witFenced false) 0
  else if d.witFenced then splice r.latched [BitVec.ofNat 8 (byteField r.latched 1 1 % 16 + 16)] 1
  else r.latched

/-! ### Snapshot areas (R432 to R434) -/

/-- Publish a block in its area, with the present turn; nothing is published in turn 0, nor before the directory lists the
area (R433, R434). -/
def Dev.publish (d : Dev) (h : Word) (sel : Nat) (block : List Byte) : Dev :=
  if d.wheel.turn = 0 || !(d.wit.dir.any fun e => e.handle == h && e.sel == sel) then d
  else
    Dev.tally { d with wit := { d.wit with areas :=
      (d.wit.areas.filter fun a => a.1 != (h, sel)) ++ [((h, sel), ⟨d.wheel.turn, block⟩)] } } 42 3 1

/-- Publish a block again outside its own time: at once, or at the next turn boundary where its area has been published in
this turn (R428, R432). -/
def Dev.republish (d : Dev) (h : Word) (sel : Nat) (block : List Byte) : Dev :=
  if d.wit.areas.any fun a => a.1 == (h, sel) && a.2.turn == d.wheel.turn then
    { d with wit := { d.wit with late := (d.wit.late.filter fun l => l.1 != (h, sel)) ++ [((h, sel), block)] } }
  else d.publish h sel block

/-- What waited for a new turn is published, where nothing newer has been. -/
def publishLate (d : Dev) : Dev :=
  d.wit.late.foldl (fun d l =>
    if d.wit.areas.any fun a => a.1 == l.1 && a.2.turn == d.wheel.turn then d else d.publish l.1.1 l.1.2 l.2)
    { d with wit := { d.wit with late := [] } }

/-- The blocks that have an area, in handle order, device blocks last: those of live handles and of the device. -/
def Dev.dirWanted (d : Dev) : List DirEntry :=
  let ofType (t : Nat) (sels : List Nat) (round : Bool) (len : Nat → Nat) : List DirEntry :=
    (d.liveIndices t).flatMap fun i => sels.map fun s => ⟨d.handleOf t i, s, round, len i⟩
  ofType tFeed [0] false (fun _ => 32) ++ ofType tBranch [0, 2] false (fun _ => 32) ++ ofType tString [0] false (fun _ => 64) ++
    ofType tHist [0] true (fun i => 40 + 8 * wtBins (d.cfgAt (slotKey tHist i))) ++ ofType tExtr [0] true (fun _ => 56) ++
    [⟨0, 0x0800, false, 64⟩, ⟨0, 0x0801, false, 2496⟩, ⟨0, 0x0802, true, 96⟩, ⟨0, 0x0803, true, 2496⟩, ⟨0, 0x0C00, false, 64⟩,
     ⟨0, 0x0C01, false, 32⟩, ⟨0, 0x0F00, true, 32⟩]

/-- A turn boundary: the directory is republished where areas were added or removed, and areas of gone blocks are freed. -/
def witDirectory (d : Dev) : Dev :=
  let want := d.dirWanted
  if want == d.wit.dir then d
  else
    Dev.tally { d with wit := { d.wit with
      dir := want, dirTurn := d.wheel.turn
      areas := d.wit.areas.filter fun a => want.any fun e => e.handle == a.1.1 && e.sel == a.1.2 } } 42 3 1

/-- The block of WIT_DIR; the places of the areas are the implementation's. -/
def witDirBlock (d : Dev) : List Byte :=
  leBytes 2 d.wit.dir.length ++ zeros 6 ++ d.wit.dir.flatMap fun e =>
    leBytes 4 e.handle.toNat ++ leBytes 2 e.sel ++ leBytes 2 (b2n e.round) ++
      leBytes 4 (Config.snapOffset e.handle.toNat e.sel) ++ leBytes 4 e.length

/-! ### Rounds (R426 to R428) -/

/-- The round boundary for one handle: its running set is latched, and the next one begins; answers whether it did. -/
def witLatchOne (d : Dev) (key : Nat) : Dev × Bool :=
  let r := d.witRt key
  let on := (tget ({} : Slot) d.slots key).hstate == .enabled
  let next : WitSet := { first := d.wheel.turn }
  if r.goneDone || !r.used then (d.modWit key fun r => { r with whole := on, used := on, run := next }, false)
  else
    let block := witBlock d key r.run (witFlags r.run r.part r.gone false false) d.wheel.turn
    let d := d.modWit key fun r =>
      { r with latched := block, lastLatch := d.wheel.turn, whole := on, used := on && !r.gone, goneDone := r.gone, run := next }
    (d.publish (d.handleOf (key / 4096) (key % 4096)) 0 block, true)

/-- The residual of the ended turn belongs to the ended round and comes with the close that still waits: a handle that
records it is latched by that close (R42, R423). -/
def witDelayed (d : Dev) (key : Nat) : Bool :=
  wtQuantity (d.cfgAt key) == 0x48 && (match d.led.waiting with | some t => t.latch.isSome | none => false)

/-- The close of a round's last turn latches the handles that waited for its residual. -/
def witLatchLate (d : Dev) : Dev :=
  if d.witFenced then d
  else (d.witKeys.filter fun key => wtQuantity (d.cfgAt key) == 0x48).foldl (fun d key => (witLatchOne d key).1) d

/-- COMMITS, COMMIT_TURN and IGNORED of WIT_STATUS as they stand (Table 16.7). -/
def commitCounts (d : Dev) : List Byte :=
  leBytes 4 (byteField d.kiln.blackBox.newer 4 4) ++ leBytes 6 (byteField d.kiln.blackBox.newer 8 6) ++ leBytes 2 d.wit.ignored

/-- The round boundary for the Witness (R42, step 4); `d.wheel.turn` is the latch. -/
def witRound (d : Dev) : Dev :=
  if d.witFenced then d
  else
    let (d, n) := d.witKeys.foldl (fun (acc : Dev × Nat) key =>
      if witDelayed acc.1 key then (acc.1, acc.2 + b2n ((acc.1.witRt key).used && !(acc.1.witRt key).goneDone))
      else
        let (d, on) := witLatchOne acc.1 key
        (d, acc.2 + b2n on)) (d, 0)
    let d := { d with wit := { d.wit with
      nSets := n, latch := d.wheel.turn, turns := (d.wheel.turn - d.wit.lastBoundary).toNat, held := d.seq.fn.heldTurns - d.wit.heldBase
      commits := commitCounts d
      heldBase := d.seq.fn.heldTurns, lastBoundary := d.wheel.turn } }
    (d.tally 42 2 n).raise 0x0F01 n 0

/-- The Witness restarts (R428): the running sets begin at zero, and the next latched set carries PARTIAL. -/
def witRestart (d : Dev) : Dev :=
  { d with wit := { d.wit with sets := tmapAll {} d.wit.sets fun _ r =>
    { r with run := { first := d.wheel.turn, cleared := true }, whole := false } } }

/-- The fence of the Witness: its areas are republished with their contents unchanged and DEFAULTED set (R428). -/
def witFence (d : Dev) : Dev :=
  d.witKeys.foldl (fun d key =>
    let h := d.handleOf (key / 4096) (key % 4096)
    if d.wit.areas.any fun a => a.1 == (h, 0) then d.republish h 0 (witLatched d key) else d) d

/-! ### Handles (R427, R431) -/

/-- A source handle goes: every handle that records it becomes SOURCE_GONE (R427). -/
def witGone (src : Word) (d : Dev) : Dev :=
  if src = 0 then d
  else d.witKeys.foldl (fun d key =>
    if word (d.cfgAt key) 0 == src && !(d.witRt key).gone then
      Dev.raise (d.modWit key fun r => { r with gone := true, sum := 0, den := 1, n := 0, nDflt := 0, top := none }) 0x0F02 0 (d.handleOf (key / 4096) (key % 4096))
    else d) d

/-- A handle as CREATE or CONFIGURE leaves it: its running set is zero (R431); a latched set stays readable. -/
def witLoad (d : Dev) (key : Nat) : Dev :=
  d.modWit key fun r =>
    { run := { first := d.wheel.turn, cleared := r.used }, latched := r.latched, lastLatch := r.lastLatch, used := r.used }

/-- ENABLE: offers begin with the next value. -/
def witEnable (d : Dev) (key : Nat) : Dev :=
  let d := { d with slots := tmod {} d.slots key fun s => { s with hstate := .enabled } }
  d.modWit key fun r => { r with used := true, run := if r.used then r.run else { r.run with first := d.wheel.turn } }

/-- DISABLE: offers stop; the running set is latched at the next boundary with PARTIAL. -/
def witDisable (d : Dev) (key : Nat) : Dev :=
  let d := { d with slots := tmod {} d.slots key fun s => { s with hstate := .disabled } }
  d.modWit key fun r => { r with whole := false, sum := 0, den := 1, n := 0, nDflt := 0, top := none }

/-- CLEAR bit 0. -/
def witClear (d : Dev) (key : Nat) (v : Word) : Dev :=
  if bit v 0 then d.modWit key fun r => { r with run := { first := d.wheel.turn, cleared := true }, sum := 0, den := 1, n := 0, nDflt := 0, top := none }
  else d

/-- The state word of a HISTOGRAM or EXTREME (Table 16.5). -/
def witState (d : Dev) (key : Nat) : Nat :=
  let s := tget ({} : Slot) d.slots key
  let r := d.witRt key
  (match s.hstate with | .disabled => 0 | .enabled => 1 | .fenced => 2) + b2n r.gone * 4 + b2n (wtBb (d.cfgAt key)) * 8
    + r.lastLatch.toNat * 65536

/-! ### The start of a black-box commit (R435) -/

/-- A trigger: VIN_HV low, or the start of a hold-up bleed. One that falls in a commit is ignored and counted. -/
def blackBoxStart (bleed : Bool) (d : Dev) : Dev :=
  if !bleed && !d.wit.armed then d
  else if d.wit.commit.isSome then
    { d with wit := { d.wit with ignored := satAdd 16 d.wit.ignored 1, armed := d.wit.armed && bleed } }
  else
    let cause := if bleed then 2 else 1
    let (tick, d) := d.recordTick
    Dev.raise { d with wit := { d.wit with commit := some cause, trigTurn := d.wheel.turn, trigTick := tick, lastOk := false
                                           armed := d.wit.armed && bleed } } 0x0F03 (cause + 256) 0

end Sys2Proof.Machine
end

