-- ==== Sys2Proof/Machine/Math.lean ====
section
/-! DEFINITION. Exponential, logarithm and square root in fixed point, with error far below any unit the spec reports
(R212, R215, R295, R305; log entry 15). -/

namespace Sys2Proof.Machine

/-- One, in the fixed point of this file: 96 fraction bits. -/
def fixOne : Nat := 2 ^ 96

/-- The terms of e^y from term `k` on, `y` and the term in fixed point. -/
def expTerms (y : Nat) : Nat → Nat → Nat → Nat
  | 0, _, _ => 0
  | fuel + 1, k, t => t + expTerms y fuel (k + 1) (t * y / (fixOne * (k + 1)))

/-- Square `n` times. -/
def sqTimes : Nat → Nat → Nat
  | 0, z => z
  | n + 1, z => sqTimes n (z * z / fixOne)

/-- e^(−num / den) in fixed point: the reciprocal of e^(num / (1024 den)), raised to the power 1024. -/
def expNeg (num den : Nat) : Nat :=
  if 66 * den < num then 0
  else
    let y := num * fixOne / (1024 * max 1 den)
    sqTimes 10 (fixOne * fixOne / expTerms y 20 0 fixOne)

/-- The odd terms of artanh z from power 2k + 1 on, `p` = z^(2k+1) in fixed point. -/
def artanhTerms (z2 : Nat) : Nat → Nat → Nat → Nat
  | 0, _, _ => 0
  | fuel + 1, k, p => p / (2 * k + 1) + artanhTerms z2 fuel (k + 1) (p * z2 / fixOne)

/-- ln(num / den) for den ≤ num ≤ 2 den in fixed point. -/
def lnSmall (num den : Nat) : Nat :=
  let z := (num - den) * fixOne / (num + den)
  2 * artanhTerms (z * z / fixOne) 40 0 z

/-- ln(num / den) for den ≤ num in fixed point: powers of two first. -/
def lnFix (num den : Nat) : Nat :=
  let k := Nat.log2 (num / max 1 den)
  k * lnSmall 2 1 + lnSmall num (max 1 den * 2 ^ k)

/-- The integer square root by bisection of `[lo, lo + 2 ^ n)`. -/
def sqrtFrom (v : Nat) : Nat → Nat → Nat
  | 0, lo => lo
  | n + 1, lo => if (lo + 2 ^ n) * (lo + 2 ^ n) ≤ v then sqrtFrom v n (lo + 2 ^ n) else sqrtFrom v n lo

/-- The integer square root. -/
def isqrt (v : Nat) : Nat := sqrtFrom v (Nat.log2 v / 2 + 1) 0

end Sys2Proof.Machine
end

