-- ==== Sys2Proof/Machine/Ripple.lean ====
section
/-! DEFINITION. The ripple demodulator (R241, R303): phasors at twice and six times the tracked mains frequency, one turn at a
time, and their corrections. -/

namespace Sys2Proof.Machine

/-! ### Sine and cosine (log entry 88) -/

/-- 2π with 96 fraction bits. -/
def twoPi : Nat := 497805226624462170461043889244

/-- The alternating sum t/1 − t·y/((k+1)(k+2)) + …, from the term `t` with power `k` on; `y` is the square of the angle. -/
def trigTerms (y : Nat) : Nat → Nat → Nat → Int
  | 0, _, _ => 0
  | fuel + 1, k, t => (t : Int) - trigTerms y fuel (k + 2) (t * y / (fixOne * ((k + 1) * (k + 2))))

/-- cos and sin of 2π · `p` / 2^32, in units of 2^-30. -/
def cosSin (p : Nat) : Int × Int :=
  let phi := p % 2 ^ 32 * twoPi / 2 ^ 32
  let y := phi * phi / fixOne
  (roundHalfUp (trigTerms y 30 0 fixOne) (2 ^ 66), roundHalfUp (trigTerms y 30 1 phi) (2 ^ 66))

/-! ### Phasors -/

/-- A complex number: real and imaginary part. -/
abbrev Cx := Int × Int

/-- The squared magnitude. -/
def Cx.sq (z : Cx) : Nat := z.1.natAbs ^ 2 + z.2.natAbs ^ 2

/-- z · w*. -/
def Cx.mulConj (z w : Cx) : Cx := (z.1 * w.1 + z.2 * w.2, z.2 * w.1 - z.1 * w.2)

/-- One more sample `x`, taken at `pos` in units of 2^-32 turn. -/
def Ripple.add (r : Ripple) (pos : Nat) (x : Int) : Ripple :=
  let a := cosSin (2 * pos)
  let b := cosSin (6 * pos)
  { n := r.n + 1, re2 := r.re2 + x * a.1, im2 := r.im2 - x * a.2, re6 := r.re6 + x * b.1, im6 := r.im6 - x * b.2 }

/-- A phasor in the unit of `num / den` per unit of a sample: 2/N of the sum (log entry 88). -/
def phasorOf (n : Nat) (re im : Int) (num den : Nat) : Cx :=
  let d := n * 2 ^ 29 * den
  if d = 0 then (0, 0) else (roundHalfUp (re * num) d, roundHalfUp (im * num) d)

/-- The phasors at h = 2 and h = 6. -/
def Ripple.phasors (r : Ripple) (num den : Nat) : Cx × Cx :=
  (phasorOf r.n r.re2 r.im2 num den, phasorOf r.n r.re6 r.im6 num den)

/-- A phasor turned forward by `p` / 2^32 of a turn of its own harmonic. -/
def Cx.turn (z : Cx) (p : Nat) : Cx :=
  let a := cosSin p
  (roundHalfUp (z.1 * a.1 - z.2 * a.2) (2 ^ 30), roundHalfUp (z.1 * a.2 + z.2 * a.1) (2 ^ 30))

/-- The decimation delay of a precision channel of order `k`, half its settling time k × OSR / 8.192 MHz, as a part of a
turn of length `dur` (10 ns units) in units of 2^-32 (log entry 88). -/
def pdDelay (k osr dur : Nat) : Nat := k * osr * 100000000 * 2 ^ 32 / (16384000 * max 1 dur)

/-- The phasor of harmonic `h` with the response of a first-order high-pass of corner `mHz` taken out: × (1 − j·f_c/(h·f)). -/
def Cx.unHighPass (z : Cx) (h mHz dur : Nat) : Cx :=
  let q : Nat := mHz * dur
  let den := 100000000000 * h
  (z.1 + roundHalfUp (z.2 * q) den, z.2 - roundHalfUp (z.1 * q) den)

/-- The phasors that a precision channel's sums give, corrected for its delay and for a high-pass. -/
def Ripple.corrected (r : Ripple) (num den delay mHz dur : Nat) : Cx × Cx :=
  let z := r.phasors num den
  ((z.1.turn (2 * delay)).unHighPass 2 mHz dur, (z.2.turn (6 * delay)).unHighPass 6 mHz dur)

end Sys2Proof.Machine
end

