-- ==== Sys2Proof/Machine/Acq.lean ====
section
/-! DEFINITION. Acquisition (spec 04): generators, slots and starts of the fast converters, injected sequences, the
supervisor scan, precision channels, result words and self-calibration. -/

namespace Sys2Proof.Machine

/-! ### Fractions -/

/-- The sum of two fractions of naturals. -/
def fracAdd (x y : Nat × Nat) : Nat × Nat := (x.1 * y.2 + y.1 * x.2, x.2 * y.2)

/-- The sum of a list of fractions. -/
def fracSum (l : List (Nat × Nat)) : Nat × Nat := l.foldl fracAdd (0, 1)

/-! ### Sample-trigger generators (Table 6.2) -/

/-- The period of a defined generator as a fraction, in units of 250 ps / 256: PERIOD_Q8 for FREE, the carrier period
over M + 1 for CARRIER (R156). -/
def genPeriodOf (w : Word) (carrier : Nat) : Nat × Nat :=
  if bit w 5 then (carrier * 256, bits w 8 3 + 1) else (bits w 8 24, 1)

/-- Generator `g`. -/
def Dev.gen (d : Dev) (g : Nat) : Gen := tget {} d.pwm.gens g

/-- Whether a generator is defined (R157). -/
def Dev.genDefined (d : Dev) (g : Nat) : Bool := !(d.gen g).definers.isEmpty

/-- The period of a generator. -/
def Dev.genPeriod (d : Dev) (g : Nat) : Nat × Nat := genPeriodOf (d.gen g).word (d.gen g).carrier

/-! ### Slot requests (Table 4.4) -/

/-- INPUT of a slot request. -/
def rqInput (w : Word) : Nat := bits w 0 8
/-- MODE. -/
def rqMode (w : Word) : Nat := bits w 8 2
/-- SPAN; ignored for SE. -/
def rqSpan (w : Word) : Nat := if rqMode w = 0 then 0 else bits w 10 2
/-- TRIG. -/
def rqTrig (w : Word) : Nat := bits w 12 5
/-- DIV. -/
def rqDiv (w : Word) : Nat := bits w 17 3
/-- INJ. -/
def rqInj (w : Word) : Bool := bit w 20
/-- REL. -/
def rqRel (w : Word) : Nat := bits w 21 2

/-- Whether a slot request's fields are in range and its mode is allowed on its converter (R88, R90). A REL request names
no INPUT of its own: it stands for the triggering channel, whose converter is one of FS6 to FS11 (R95). -/
def rqOk (w : Word) : Bool :=
  rqMode w != 3 && (rqMode w == 0 || bits w 10 2 != 3) && rqDiv w != 7 && rqRel w != 3 && bits w 23 9 == 0 &&
    (if rqInj w && rqRel w != 0 then rqMode w != 1
     else decide (rqInput w < 192) &&
      (if rqMode w = 1 then decide (rqInput w < 96) else if rqMode w = 2 then decide (96 ≤ rqInput w) else true))

/-- Whether an input is one of the dedicated inputs of FS6 to FS11 (R87). -/
def dedicated (input : Nat) : Bool := decide (96 ≤ input)

/-- Whether a dedicated input is a current input (Table 4.2). -/
def isCurrentInput (input : Nat) : Bool :=
  if input < 176 then input % 2 == 0 else decide (input < 180) || decide (188 ≤ input)

/-- Whether a LOOP may name an input with this request (R87). -/
def rqLoopOk (w : Word) : Bool :=
  rqOk w && !rqInj w && (!dedicated (rqInput w) || rqMode w == (if isCurrentInput (rqInput w) then 2 else 0))

/-! ### Placement of slots (R91, R92) -/

/-- Converter `c`. -/
def Dev.conv (d : Dev) (c : Nat) : Conv := tget {} d.acq.convs c

/-- Change converter `c`. -/
def Dev.modConv (d : Dev) (c : Nat) (f : Conv → Conv) : Dev :=
  { d with acq := { d.acq with convs := tmod {} d.acq.convs c f } }

/-- How many slots of generator `g` run on the start with count `k`. -/
def slotsOn (ss : List FsSlot) (g k : Nat) : Nat :=
  (ss.filter fun s => s.trig == g && k % 2 ^ s.divLog == s.offset).length

/-- The largest number of slots that a generator runs on any one start (M of R92). -/
def maxOnStart (ss : List FsSlot) (g : Nat) : Nat :=
  (List.range 64).foldl (fun m k => max m (slotsOn ss g k)) 0

/-- The offset of a new slot: the lowest of those that minimise the largest start (R91). -/
def chooseOffset (ss : List FsSlot) (s : FsSlot) : Nat :=
  ((List.range (2 ^ s.divLog)).foldl (fun best o =>
    let m := maxOnStart ({ s with offset := o } :: ss) s.trig
    match best with
    | some (bm, bo) => if m < bm then some (m, o) else some (bm, bo)
    | none => some (m, o)) (none : Option (Nat × Nat))).elim 0 (·.2)

/-- The generators that a converter's slots use. -/
def gensOf (ss : List FsSlot) : List Nat := (ss.map (·.trig)).eraseDups

/-- Conditions 1 to 4 of R92 on a converter's regular slots. A conversion takes exactly 1/6 µs, of which the 166.7 ns of
Table 4.1 are the rounding (log entry 83). -/
def slotsFit (d : Dev) (ss : List FsSlot) : Bool :=
  let gs := gensOf ss
  let load := fracSum (ss.map fun s => ((d.genPeriod s.trig).2, (d.genPeriod s.trig).1 * 2 ^ s.divLog))
  let total := (gs.map (maxOnStart ss)).foldl (· + ·) 0
  decide (ss.length ≤ 16) &&
  decide (load.1 * 1024000000000 ≤ 5400000 * load.2) &&
  decide (gs.length ≤ 4) &&
  gs.all fun g => decide (total * (d.genPeriod g).2 * 1024000 ≤ 6 * (d.genPeriod g).1)

/-- Place one regular request on its converter: share the slot of the same input, or add a slot (R91, R92). -/
def placeRegular (d : Dev) (key : Nat) (w : Word) : Option Dev :=
  let c := rqInput w / 16
  let cv := d.conv c
  match cv.slots.find? fun s => s.input == rqInput w with
  | some s =>
    if s.mode = rqMode w ∧ s.span = rqSpan w ∧ s.trig = rqTrig w ∧ s.divLog = rqDiv w then
      some (d.modConv c fun cv => { cv with slots := cv.slots.map fun x => (
        if x.input == rqInput w then { x with owners := if x.owners.contains key then x.owners else x.owners ++ [key] }
        else x) })
    else none
  | none =>
    let s0 : FsSlot := ⟨rqInput w, rqMode w, rqSpan w, rqTrig w, rqDiv w, 0, [key]⟩
    let s := { s0 with offset := chooseOffset cv.slots s0 }
    if slotsFit d (cv.slots ++ [s]) then some (d.modConv c fun cv => { cv with slots := cv.slots ++ [s] }) else none

/-- Place one injected request: a REL slot serves every channel of its converter (R95). -/
def placeInjected (d : Dev) (key c : Nat) (w : Word) : Option Dev :=
  let cv := d.conv c
  let same (s : InjSlot) : Bool := s.rel == rqRel w && (rqRel w != 0 || (s.input == rqInput w && s.mode == rqMode w))
  if cv.inj.any same = true then
    some (d.modConv c fun cv => { cv with inj := cv.inj.map fun s => (
      if same s then { s with owners := if s.owners.contains key then s.owners else s.owners ++ [key] } else s) })
  else if cv.inj.length < 4 then
    some (d.modConv c fun cv => { cv with inj := cv.inj ++ [⟨rqRel w, if rqRel w = 0 then rqInput w else 0, [key], if rqRel w = 0 then rqMode w else 0⟩] })
  else none

/-- Place a handle's requests, each with the converter of its channel; the number that could not be placed (R92). -/
def placeSlots (d : Dev) (key : Nat) (rqs : List (Nat × Word)) : Dev × Nat :=
  rqs.foldl (fun (acc : Dev × Nat) r =>
    let w := r.2
    match (if rqInj w then placeInjected acc.1 key (if rqRel w = 0 then rqInput w / 16 else r.1) w
           else placeRegular acc.1 key w) with
    | some d' => (d', acc.2)
    | none => (acc.1, acc.2 + 1)) (d, 0)

/-- Take a handle's slots off every converter (R94). -/
def releaseSlots (d : Dev) (key : Nat) : Dev :=
  { d with acq := { d.acq with convs := tmapAll {} d.acq.convs fun _ cv =>
    { cv with
      slots := (cv.slots.map fun s => { s with owners := s.owners.filter (· != key) }).filter fun s => !s.owners.isEmpty
      inj := (cv.inj.map fun s => { s with owners := s.owners.filter (· != key) }).filter fun s => !s.owners.isEmpty } } }

/-! ### Starts and conversions (R93 to R97) -/

/-- Whether one of the owners of a slot is ENABLED (R94). -/
def ownersRun (d : Dev) (owners : List Nat) : Bool :=
  owners.any fun k => (tget ({} : Slot) d.slots k).live && (tget ({} : Slot) d.slots k).hstate == .enabled

/-- Whether a regular slot converts. -/
def slotRuns (d : Dev) (s : FsSlot) : Bool := ownersRun d s.owners

/-- The slots that converter `c` converts on the start of generator `g` with count `k` (R91). -/
def startSlots (d : Dev) (c g k : Nat) : List FsSlot :=
  (d.conv c).slots.filter fun s => s.trig == g && k % 2 ^ s.divLog == s.offset && slotRuns d s

/-- Their inputs, in input order (R93). -/
def startInputs (d : Dev) (c g k : Nat) : List Nat := sortNat ((startSlots d c g k).map (·.input))

/-- The factors of fast converter `c`. -/
def Dev.fsFactors (d : Dev) (c : Nat) : Factors := tget {} d.acq.calFs c

/-- A start as its trigger finds it: its slots, and the factors in force (R94, R112). -/
def newStart (d : Dev) (c g k : Nat) : FsStart :=
  { gen := g, inputs := startInputs d c g k, factors := d.fsFactors c
    se := ((startSlots d c g k).filter fun s => s.mode == 0).map (·.input) }

/-- Whether a converter works on a start, or on an injected sequence that runs or is about to (R93, R96). -/
def Conv.busy (cv : Conv) : Bool := cv.current.isSome || !cv.injRunning.isEmpty || !cv.injPending.isEmpty

/-- A start on one converter: it begins, waits, or is dropped (R93); true = dropped. -/
def startOn (d : Dev) (c g k : Nat) : Dev × Bool :=
  let st := newStart d c g k
  let cv := d.conv c
  if st.inputs.isEmpty then (d, false)
  else if !cv.busy then ((d.modConv c fun cv => { cv with current := some st }).tally (8 + c) 0 1, false)
  else if (cv.waiting.any fun s => s.gen == g) = true then
    let d := d.modConv c fun cv => { cv with dropped := satAdd 8 cv.dropped 1 }
    ((d.raiseOnceTurn (0x0204 * 4096 + c) 0x0204 c 0).tally (8 + c) 5 1, true)
  else ((d.modConv c fun cv => { cv with waiting := cv.waiting ++ [st] }).tally (8 + c) 0 1, false)

/-- The converters FS0 to FS11. -/
def fsConvs : List Nat := List.range 12

/-- A start of generator `g` on every converter; the converters that dropped it. -/
def startAll (d : Dev) (g k : Nat) : Dev × List Nat :=
  fsConvs.foldl (fun (acc : Dev × List Nat) c =>
    let r := startOn acc.1 c g k
    (r.1, if r.2 then acc.2 ++ [c] else acc.2)) (d, [])

/-- A start without inputs left ends, and the next waiting one begins once the converter is idle (R93, R97). -/
def Conv.advance (cv : Conv) : Conv :=
  let cv := match cv.current with
    | some s => if s.inputs.isEmpty then { cv with current := none } else cv
    | none => cv
  if cv.busy then cv else { cv with current := cv.waiting.head?, waiting := cv.waiting.drop 1 }

/-- The segment correction at `u` above the bottom of the range, times the segments' width: interpolated linearly between
the corrections of the two segment ends around it (Self-calibration). Segment `i` begins at `i` widths with the correction
SEGi; above the last of them SEG stays the same (log entry 12). -/
def segCorrection (segs : List Int) (width : Nat) (u : Int) : Int :=
  let i := u.toNat / width
  let r := u.toNat % width
  let lo := segs.getD i 0
  lo * ((width - r : Nat) : Int) + segs.getD (i + 1) lo * (r : Int)

/-- The Q1.15 value of a 14-bit code, corrected where the converter has factors (Table 4.10, Self-calibration): 16
segments over the span. -/
def fsValue (f : Factors) (code : Int) : Int :=
  let x := code * 4
  if f.valid then
    satSigned 16 (roundOpen ((x - f.offset) * (2 ^ 18 + f.gain) * 4096 + segCorrection f.segs 4096 (x + 32768) * 2 ^ 16)
      (2 ^ 18 * 4096))
  else satSigned 16 x

/-- The FS result word of Table 4.10. In SE mode only the codes 0 to 8,191 occur (R107), so nothing lies beyond its lower
end. -/
def fsResult (f : Factors) (code : Int) (isOver inj late se : Bool) (input : Nat) : Word :=
  let code := if se then max 0 code else code
  let v := if isOver then (if 0 ≤ code then 32767 else -32768) else fsValue f (clampInt (-8192) 8191 code)
  BitVec.ofNat 32 (twos 16 v + b2n isOver * 2 ^ 16 + b2n (!f.valid) * 2 ^ 17 + b2n inj * 2 ^ 18 + b2n late * 2 ^ 19
    + input * 2 ^ 21)

/-- VALUE of an FS result word, as an integer in units of 2^-15. -/
def fsVal (w : Word) : Int := sx 16 (bits w 0 16)

/-- The last result of an FS input. -/
def Dev.fsLast (d : Dev) (input : Nat) : Word := tget 0 d.acq.fsWord input

/-- The inputs of an injected sequence for a triggering channel of a converter (R95, Table 4.2), each with the channel; a
slot converts while one of its owners is ENABLED (R94). Channels: feeds 0 to 39, branches 40 to 43, source inputs 44 to 47,
rails 48 to 71; a rail has fixed inputs alone. -/
def injInputs (d : Dev) (cv : Conv) (chan : Nat) : List (Nat × Nat) :=
  let cur := if chan < 40 then 96 + 16 * (chan / 8) + 2 * (chan % 8) else if chan < 44 then 176 + (chan - 40)
    else 188 + (chan - 44)
  let vol := if chan < 40 then 96 + 16 * (chan / 8) + 2 * (chan % 8) + 1 else if chan < 44 then 180 + (chan - 40)
    else 184 + (chan - 44)
  (cv.inj.filter fun s => ownersRun d s.owners && (s.rel == 0 || decide (chan < 48))).map fun s =>
    (chan, if s.rel = 1 then cur else if s.rel = 2 then vol else s.input)

/-- Whether an injected conversion of an input is in SE mode: a dedicated input as its channel requires it (R87), any other
as its slot names it. -/
def injSe (cv : Conv) (input : Nat) : Bool :=
  if dedicated input then !isCurrentInput input else cv.inj.any fun s => s.rel == 0 && s.input == input && s.mode == 0

/-- What a conversion gives: its input and result word, and the channel whose trigger it serves where it is injected. -/
structure Converted where
  input : Nat
  word : Word
  chan : Option Nat
  deriving DecidableEq, Repr

/-- An FS conversion ends (R93, R97): the injected sequence's conversions first, else the next input of the current
start. -/
def convEnds (d : Dev) (c : Nat) (code : Int) (isOver late : Bool) : Dev × Option Converted :=
  let cv := d.conv c
  match cv.injRunning with
  | (chan, input) :: rest =>
    let w := fsResult (d.fsFactors c) code isOver true false (injSe cv input) input
    let d := (d.modConv c fun cv => Conv.advance { cv with injRunning := rest }).tally (8 + c) 3 1
    ({ d with acq := { d.acq with fsWord := tset 0 d.acq.fsWord input w } }, some ⟨input, w, some chan⟩)
  | [] =>
    match cv.current with
    | none => (d, none)
    | some s =>
      match s.inputs with
      | [] => (d, none)
      | input :: rest =>
        let isLate := if s.begun then s.late else late
        let w := fsResult s.factors code isOver false isLate (s.se.contains input) input
        let d := (d.tally (8 + c) 1 1).tally (8 + c) 4 (b2n (!s.begun && late))
        let d := d.modConv c fun cv => Conv.advance
          { cv with
            late := if !s.begun && late then satAdd 8 cv.late 1 else cv.late
            current := some { s with inputs := rest, late := isLate, begun := true } }
        ({ d with acq := { d.acq with fsWord := tset 0 d.acq.fsWord input w } }, some ⟨input, w, none⟩)

/-- URGENT_TRIGGER: a pending injected start per channel; a second is merged and counted (R96). -/
def urgentTrigger (c chan : Nat) (d : Dev) : Dev :=
  let cv := d.conv c
  if cv.inj.isEmpty then d
  else if cv.injPending.contains chan then (d.modConv c fun cv => { cv with injMerged := satAdd 8 cv.injMerged 1 }).tally (8 + c) 6 1
  else d.modConv c fun cv => { cv with injPending := sortNat (chan :: cv.injPending) }

/-- INJECTED_START: after the conversion in progress, the sequence runs once for the lowest pending channel (R96). -/
def injectedStart (c : Nat) (d : Dev) : Dev :=
  let cv := d.conv c
  match cv.injRunning, cv.injPending with
  | [], chan :: rest =>
    (d.modConv c fun cv => Conv.advance { cv with injPending := rest, injRunning := injInputs d cv chan }).tally (8 + c) 2 1
  | _, _ => d

/-! ### Supervisor converter (R98, R108) -/

/-- The SV value of a 12-bit code in units of 2^-16, corrected where factors are valid: 4 segments over the span. -/
def svValue (f : Factors) (code : Nat) : Int :=
  let x : Int := code * 16
  if f.valid then
    clampInt 0 65535
      (roundOpen ((x - 2 * f.offset) * (2 ^ 18 + f.gain) * 16384 + segCorrection f.segs 16384 x * 2 ^ 16) (2 ^ 18 * 16384))
  else x

/-- The SV result word of Table 4.10. -/
def svResult (f : Factors) (code : Nat) (isOver under uncal defaulted : Bool) (input : Nat) : Word :=
  let v : Int := if isOver then 65535 else if under then 0
    else svValue { f with valid := f.valid && !uncal } (min code 4095)
  BitVec.ofNat 32 (v.toNat + b2n (isOver || under) * 2 ^ 16 + b2n uncal * 2 ^ 17 + b2n defaulted * 2 ^ 18 + input * 2 ^ 19)

/-- The last result of a MON input. -/
def Dev.svLast (d : Dev) (input : Nat) : Word := tget 0 d.acq.svWord input

/-! ### Precision converters (R100 to R105) -/

/-- Channel `n`. -/
def Dev.pdChan (d : Dev) (n : Nat) : PdChan := tget {} d.acq.pd n

/-- Change channel `n`. -/
def Dev.modPd (d : Dev) (n : Nat) (f : PdChan → PdChan) : Dev :=
  { d with acq := { d.acq with pd := tmod {} d.acq.pd n f } }

/-- Whether a PD request is in range (Table 4.6). -/
def pdRqOk (w : Word) : Bool :=
  bits w 5 2 != 3 && decide (bits w 7 3 ≤ 5) && (bits w 10 4 == 0 || (decide (6 ≤ bits w 10 4) && decide (bits w 10 4 ≤ 12))) &&
    bits w 14 2 != 3 && bits w 16 16 == 0

/-- The channel of a PD request. -/
def pdRqChan (w : Word) : Nat := bits w 0 5

/-- The settings K, OSR and NOTCH in force: explicit, or the profile's default (R24, R101). -/
def pdSettings (p : Profile) (w : Word) : Nat × Nat × Bool :=
  (if bits w 7 3 = 0 then p.pdK else bits w 7 3,
   if bits w 10 4 = 0 then p.pdOsr else 2 ^ bits w 10 4,
   if bits w 14 2 = 0 then p.pdNotch else bits w 14 2 == 2)

/-- Whether requests lie in one group with equal K, OSR and NOTCH fields (R101). -/
def pdSameGroup (ws : List Word) : Bool :=
  match ws with
  | [] => true
  | w :: rest => rest.all fun x => pdRqChan x / 4 == pdRqChan w / 4 && bits x 7 9 == bits w 7 9

/-- Whether a group stops: every channel is unassigned or owned by a hibernating string (R105), or by one that samples at
a reduced rate (R318). -/
def groupIdle (d : Dev) (g : Nat) : Bool :=
  (List.range 4).all fun k =>
    match (d.pdChan (4 * g + k)).owner with
    | none => true
    | some key =>
      let p := (tget ({} : StrRt) d.strs (key % 4096)).power
      key / 4096 == tString && (p == .hibernating || p == .stopped)

/-- Group `g` stops. -/
def pdStop (d : Dev) (g : Nat) : Dev :=
  if d.acq.pdStopped.contains g then d
  else Dev.tally { d with acq := { d.acq with pdStopped := sortNat (g :: d.acq.pdStopped) } } (22 + g) 4 1

/-- A stopped group restarts, and all its channels settle afresh (R105). -/
def pdRestart (d : Dev) (g : Nat) : Dev :=
  if d.acq.pdStopped.contains g then
    let d := Dev.tally { d with acq := { d.acq with pdStopped := d.acq.pdStopped.filter fun x => x != g } } (22 + g) 5 1
    (List.range 4).foldl (fun d k => d.modPd (4 * g + k) fun c => { c with settling := true, hist := [] }) d
  else d

/-- Give PD channels to a handle; the number of requests that find their channel taken, be it by an earlier request of the
same handle (R101). A stopped group restarts (R105). -/
def placePd (d : Dev) (key : Nat) (ws : List Word) : Dev × Nat :=
  ws.foldl (fun (acc : Dev × Nat) w =>
    let n := pdRqChan w
    if (acc.1.pdChan n).owner.isSome then (acc.1, acc.2 + 1)
    else (pdRestart (acc.1.modPd n fun c => { c with owner := some key, req := w, settling := true }) (n / 4), acc.2)) (d, 0)

/-- Take a handle's PD channels back; a group that this leaves idle stops (R105). -/
def releasePd (d : Dev) (key : Nat) : Dev :=
  let gs := ((d.acq.pd.filter fun p => p.2.owner == some key).map fun p => p.1 / 4).eraseDups
  let d := { d with acq := { d.acq with pd := tmapAll {} d.acq.pd fun _ c => (
    if c.owner = some key then { c with owner := none, req := 0, hist := [], settling := false, calHold := false } else c) } }
  gs.foldl (fun d g => if groupIdle d g then pdStop d g else d) d

/-- The mean of the direct outputs over the preceding turn: each output weighted by the part of its window that lies in
the turn (R103). Entries are latest first; `top` is the end of the turn looked back over. -/
def notchSum (top : Nat) : List (Nat × Int) → Int
  | (t, x) :: (u, y) :: rest =>
    let lo := max u (top - 2 ^ 32)
    if t ≤ lo then 0 else x * (t - lo : Nat) + notchSum top ((u, y) :: rest)
  | _ => 0

/-- A corrected PD value in units of 2^-23. -/
def pdValue (f : Factors) (raw : Int) : Int :=
  if f.valid then satSigned 24 (roundOpen ((raw - f.offset) * (2 ^ 24 + f.gain)) (2 ^ 24)) else satSigned 24 raw

/-- The PD result word of Table 4.10. -/
def pdResult (v : Int) (isOver uncal notched settling defaulted : Bool) : Word :=
  BitVec.ofNat 32 (twos 24 v + b2n isOver * 2 ^ 24 + b2n uncal * 2 ^ 25 + b2n notched * 2 ^ 26 + b2n settling * 2 ^ 27
    + b2n defaulted * 2 ^ 28)

/-- VALUE of a PD word in units of 2^-23. -/
def pdVal (w : Word) : Int := sx 24 (bits w 0 24)

/-- Whether a PD word carries SETTLING or DEFAULTED. -/
def pdFlagged (w : Word) : Bool := bit w 27 || bit w 28

/-- A group that a calibration restarted stops again once no owned channel settles any more from it (R105, R112). -/
def pdAfterCal (d : Dev) (g : Nat) : Dev :=
  if groupIdle d g && !((List.range 4).any fun k => (d.pdChan (4 * g + k)).calHold && (d.pdChan (4 * g + k)).owner.isSome)
  then pdStop d g else d

/-- A PD window ends (R104): the direct output, and the notched output while the notch is on; nothing while the group
is stopped, or holds its last output from a calibration until it has settled again (R105, R112). -/
def pdOutput (n : Nat) (raw : Int) (isOver : Bool) (pos : Nat) (settled defaulted : Bool) (d : Dev) : Dev :=
  let c := d.pdChan n
  if d.acq.pdStopped.contains (n / 4) || (d.acq.calBusy && d.acq.calFamilies.toNat / 4 % 2 == 1) || (c.calHold && !settled) then d
  else
    let f := tget ({} : Factors) d.acq.calPd n
    let v := if isOver then (if 0 ≤ raw then 2 ^ 23 - 1 else -(2 ^ 23)) else pdValue f raw
    let settling := (c.settling || c.calHold) && !settled
    let notch := (pdSettings d.plane.profile c.req).2.2
    let hist := ((pos, v) :: c.hist).filter fun p => decide (pos < p.1 + 2 ^ 32 + 2 ^ 29)
    let mean := roundOpen (notchSum pos hist) (2 ^ 32)
    let b := 22 + n / 4
    let d := (((d.tally b 0 1).tally b 1 (b2n notch)).tally b 2 (b2n settling)).tally b 3 (b2n isOver)
    let after (d : Dev) : Dev := if c.calHold then pdAfterCal d (n / 4) else d
    after <| d.modPd n fun c =>
      { c with
        direct := pdResult v isOver (!f.valid) false settling defaulted
        notched := if notch then pdResult mean isOver (!f.valid) true settling defaulted else c.notched
        hist := hist
        settling := settling
        calHold := c.calHold && settling }

/-! ### Self-calibration (R109 to R113) -/

/-- Whether some owner of a slot of converter `c`, regular or injected, is ENABLED (R112). -/
def convInUse (d : Dev) (c : Nat) : Bool :=
  (d.conv c).slots.any (slotRuns d) || (d.conv c).inj.any fun s => ownersRun d s.owners

/-- A write of ACQ_CAL_START (Table 4.13, R109). -/
def calStart (value : Word) (d : Dev) : Dev :=
  if !bit value 0 || d.acq.calBusy then d
  else
    let fam : BitVec 3 := if bits value 1 3 = 0 then 7 else BitVec.ofNat 3 (bits value 1 3)
    let sel (i : Nat) : Bool := fam.toNat / 2 ^ i % 2 == 1
    let skipped := if sel 1 then (fsConvs.filter (convInUse d)).foldl (fun n c => n + 2 ^ c) 0 else 0
    let d := { d with acq := { d.acq with
      calBusy := true, calLeft := fam, calFamilies := fam, svFail := false, fsFail := false, pdFail := false
      fsSkipped := BitVec.ofNat 12 skipped, svPaused := sel 0, firstFail := none, firstDrift := none, pdYield := [] } }
    let d := d.tally 20 4 (b2n (sel 0))
    if sel 2 then
      let d := (List.range 8).foldl pdRestart d
      { d with acq := { d.acq with
        pdCalTurn := true
        pd := (List.range 32).foldl (fun t n => tmod {} t n fun c =>
          { c with calHold := true, direct := c.direct ||| 0x08000000, notched := c.notched ||| 0x08000000 }) d.acq.pd } }
    else d

/-- Milli-degrees to the nearest degree, halves away from zero (R113). -/
def roundDegrees (m : Int) : Int := if 0 ≤ m then (m + 500) / 1000 else -((-m + 500) / 1000)

/-- Whether a signed value fits `n` bits. -/
def fitsSigned (n : Nat) (v : Int) : Bool := decide (-(2 ^ (n - 1) : Int) ≤ v ∧ v < 2 ^ (n - 1))

/-- Whether a yield is within the fields of an FS or SV converter. -/
def yieldFitsFs (y : CalYield) : Bool :=
  y.ok && fitsSigned 16 y.offset && fitsSigned 16 y.gain && y.segs.all (fitsSigned 8)

/-- Whether a yield is within the fields of a PD channel. -/
def yieldFitsPd (y : CalYield) : Bool := y.ok && fitsSigned 24 y.offset && fitsSigned 24 y.gain

/-- New factors from a yield. -/
def yieldFactors (y : CalYield) (nseg : Nat) (temp : Int) (turn : BitVec 48) : Factors :=
  ⟨y.offset, y.gain, y.segs.take nseg ++ List.replicate (nseg - y.segs.length) 0, temp, turn, true⟩

/-- Whether new factors drifted from the copy: gain by more than 0.2 %, or offset by more than 8 LSB (R113). -/
def drifted (offA gainA offB gainB : Int) (gainBits : Nat) (lsb : Nat) : Bool :=
  decide (2 * 2 ^ gainBits < 1000 * (gainA - gainB).natAbs) || decide (8 * lsb < (offA - offB).natAbs)

/-- The 32 bytes of ACQ_CALF_FS or ACQ_CALF_SV (Table 4.16). -/
def Factors.bytes (f : Factors) : List Byte :=
  leBytes 2 (twos 16 f.offset) ++ leBytes 2 (twos 16 f.gain)
    ++ ((List.range 16).map fun i => BitVec.ofNat 8 (twos 8 (f.segs.getD i 0)))
    ++ [BitVec.ofNat 8 (twos 8 f.temp)] ++ zeros 3 ++ leBytes 6 f.turn.toNat ++ [BitVec.ofNat 8 (b2n f.valid)] ++ zeros 1

/-- The 8 bytes of ACQ_CALF_PD (Table 4.17). -/
def Factors.bytesPd (f : Factors) : List Byte :=
  leBytes 3 (twos 24 f.offset) ++ leBytes 3 (twos 24 f.gain) ++
    [BitVec.ofNat 8 (twos 8 f.temp), BitVec.ofNat 8 (b2n f.valid * 128)]

/-- The 672-byte copy of R113. -/
def calCopy (a : Acq) : List Byte :=
  (fsConvs.flatMap fun c => (tget ({} : Factors) a.calFs c).bytes) ++ a.calSv.bytes ++
    (List.range 32).flatMap fun n => (tget ({} : Factors) a.calPd n).bytesPd

/-- A signed 16-bit field of the Kiln copy. -/
def kilnS16 (k : List Byte) (off : Nat) : Int := sx 16 (byteField k off 2)

/-- Note the first failed converter. -/
def noteFail (d : Dev) (n : Nat) : Dev :=
  { d with acq := { d.acq with firstFail := some (d.acq.firstFail.getD n) } }

/-- Note the first drifted converter. -/
def noteDrift (d : Dev) (n : Nat) : Dev :=
  { d with acq := { d.acq with firstDrift := some (d.acq.firstDrift.getD n) } }

/-- One fast converter's yield (R112, R113). -/
def applyFs (temp : Int) (d : Dev) (cy : Nat × CalYield) : Dev :=
  let c := cy.1
  let y := cy.2
  if d.acq.fsSkipped.toNat / 2 ^ c % 2 = 1 then d
  else if yieldFitsFs y then
    let f := yieldFactors y 16 temp d.wheel.turn
    let k := d.kiln.cal
    let d := { d with acq := { d.acq with calFs := tset {} d.acq.calFs c f } }
    if !k.isEmpty && drifted f.offset f.gain (kilnS16 k (32 * c)) (kilnS16 k (32 * c + 2)) 18 4 then noteDrift d c else d
  else noteFail { d with acq := { d.acq with fsFail := true } } c

/-- The supervisor converter's yield (R109, R113). -/
def applySv (temp : Int) (d : Dev) (y : CalYield) : Dev :=
  if yieldFitsFs y then
    let f := yieldFactors y 4 temp d.wheel.turn
    let k := d.kiln.cal
    let d := { d with acq := { d.acq with calSv := f } }
    if !k.isEmpty && drifted f.offset f.gain (kilnS16 k 384) (kilnS16 k 386) 18 8 then noteDrift d 12 else d
  else noteFail { d with acq := { d.acq with svFail := true } } 12

/-- One precision channel's yield, applied in step 5 (R109, R113). -/
def applyPd (d : Dev) (cy : Nat × CalYield) : Dev :=
  let n := cy.1
  let y := cy.2
  if yieldFitsPd y then
    let f : Factors := ⟨y.offset, y.gain, [], d.acq.calTemp, 0, true⟩
    let k := d.kiln.cal
    let d := { d with acq := { d.acq with calPd := tset {} d.acq.calPd n f } }
    if !k.isEmpty && drifted f.offset f.gain (sx 24 (byteField k (416 + 8 * n) 3)) (sx 24 (byteField k (419 + 8 * n) 3)) 24 1
    then noteDrift d (16 + n) else d
  else noteFail { d with acq := { d.acq with pdFail := true } } (16 + n)

/-- A family's calibration ends: CAL_FAILED names its first failed converter, and DRIFT and CAL_DRIFT its first drifted
factor (R113, log entry 54). -/
def raiseCal (d : Dev) : Dev :=
  let d := match d.acq.firstFail with | some n => d.raise 0x0202 n 0 | none => d
  match d.acq.firstDrift with
  | some n => Dev.raise { d with acq := { d.acq with drift := true } } 0x0203 n 0
  | none => d

/-- Neither a failure nor a drift is noted of the family that finishes. -/
def calFresh (d : Dev) : Dev := { d with acq := { d.acq with firstFail := none, firstDrift := none } }

/-- A selected family finishes: SV and FS factors apply at once, PD factors in step 5 (R109). CAL_TURN is the turn in which
the family finishes (log entry 84). -/
def calFamilyDone (family : Nat) (ys : List CalYield) (milliC : Int) (d : Dev) : Dev :=
  if !d.acq.calBusy || d.acq.calLeft.toNat / 2 ^ family % 2 == 0 then d
  else
    let temp := roundDegrees milliC
    let d := calFresh { d with acq := { d.acq with
      calLeft := d.acq.calLeft &&& ~~~(BitVec.ofNat 3 (2 ^ family)), calTemp := temp } }
    raiseCal (
      if family = 0 then applySv temp { d with acq := { d.acq with svPaused := false } } (ys.getD 0 ⟨false, 0, 0, []⟩)
      else if family = 1 then (fsConvs.map fun c => (c, ys.getD c ⟨false, 0, 0, []⟩)).foldl (applyFs temp) d
      else { d with acq := { d.acq with pdYield := ys } })

/-- Step 5: PD factors apply when PD is selected, the Kiln copy is written, BUSY clears, CAL_DONE is raised
(R109, R113); a group without an owner stops again (R105). -/
def calDone (d : Dev) : Dev :=
  if d.acq.calBusy && d.acq.calLeft == 0 then
    let first := d.kiln.cal.isEmpty
    let d := calFresh d
    let d := raiseCal (if d.acq.calFamilies.toNat / 4 % 2 = 1 then
        ((List.range 32).map fun n => (n, d.acq.pdYield.getD n ⟨false, 0, 0, []⟩)).foldl applyPd d else d)
    let d := { d with
      acq := { d.acq with calBusy := false, first := first, pdYield := [] }
      kiln := { d.kiln with cal := calCopy d.acq } }
    let d := if d.acq.calFamilies.toNat / 4 % 2 = 1 then (List.range 8).foldl pdAfterCal d else d
    d.raise 0x0201 d.acq.calFamilies.toNat 0
  else d

/-- Whether every fast converter holds valid factors. -/
def Acq.fsDone (a : Acq) : Bool := fsConvs.all fun c => (tget ({} : Factors) a.calFs c).valid

/-- Whether every precision channel holds valid factors. -/
def Acq.pdDone (a : Acq) : Bool := (List.range 32).all fun n => (tget ({} : Factors) a.calPd n).valid

/-- ACQ_CAL_STATUS (Table 4.14). -/
def Acq.calStatus (a : Acq) : Word :=
  BitVec.ofNat 32 (b2n a.calBusy + b2n a.calSv.valid * 2 + b2n a.fsDone * 4 + b2n a.pdDone * 8 + b2n a.svFail * 16
    + b2n a.fsFail * 32 + b2n a.pdFail * 64 + b2n a.drift * 128 + b2n a.first * 256 + a.fsSkipped.toNat * 512)

/-! ### Feed and branch channels: a number below 40 is a feed, 40 to 43 a branch -/

/-- The handle type of a channel. -/
def chanType (c : Nat) : Nat := if c < 40 then tFeed else tBranch
/-- The handle index of a channel. -/
def chanIndex (c : Nat) : Nat := if c < 40 then c else c - 40
/-- Channel `c`. -/
def Dev.chan (d : Dev) (c : Nat) : Chan := if c < 40 then tget {} d.feeds c else tget {} d.branches (c - 40)
/-- Change channel `c`. -/
def Dev.modChan (d : Dev) (c : Nat) (f : Chan → Chan) : Dev :=
  if c < 40 then { d with feeds := tmod {} d.feeds c f } else { d with branches := tmod {} d.branches (c - 40) f }
/-- The slot of a channel. -/
def Dev.chanSlot (d : Dev) (c : Nat) : Slot := d.slot (chanType c) (chanIndex c)
/-- The handle of a channel. -/
def Dev.chanHandle (d : Dev) (c : Nat) : Word := d.handleOf (chanType c) (chanIndex c)
/-- Configuration word `n` of a channel. -/
def Dev.chanW (d : Dev) (c n : Nat) : Word := (d.chanSlot c).w n
/-- The live channels, feeds first. -/
def Dev.liveChans (d : Dev) : List Nat := d.liveIndices tFeed ++ (d.liveIndices tBranch).map (· + 40)

/-- The present configuration of a channel. -/
def Dev.chanCfg (d : Dev) (c : Nat) : List Word := (d.chanSlot c).cfg

/-- REF_LOOP of a channel's configuration. -/
def chRefLoop (c : Nat) (ws : List Word) : Word := word ws (if c < 40 then 10 else 12)

/-! ### Commands of this chapter that touch acquisition alone -/

/-- ACQ_CAL_START. -/
def execAcqCalStart (value : Word) (s : State) : Out := s.onHost fun _ d => calStart value d

/-- ACQ_FS_COUNT (Table 4.15). -/
def Conv.countWord (cv : Conv) : Nat := cv.late + cv.dropped * 2 ^ 8 + cv.injMerged * 2 ^ 16

/-- ACQ_FS_COUNT_READ: returns and clears LATE, DROPPED and INJ_MERGED (Table 4.15). -/
def execAcqFsCountRead (conv : Nat) (s : State) : Out :=
  s.onHostAt 12 conv fun _ d =>
    let cv := d.conv conv
    let d := d.modConv conv fun cv => { cv with late := 0, dropped := 0, injMerged := 0 }
    { d with host := { d.host with rdData := BitVec.ofNat 32 cv.countWord } }

/-- Writing 1 to DRIFT clears it (Table 4.14). -/
def calStatusWrite (v : Word) (d : Dev) : Dev := if bit v 7 then { d with acq := { d.acq with drift := false } } else d

/-- ACQ_CAL_STATUS_WRITE. -/
def execAcqCalStatusWrite (value : Word) (s : State) : Out := s.onHost fun _ d => calStatusWrite value d

/-- URGENT_TRIGGER. -/
def execUrgentTrigger (conv channel : Nat) (s : State) : Out := s.onDevAt 12 conv fun _ d => urgentTrigger conv channel d

/-- INJECTED_START. -/
def execInjectedStart (conv : Nat) (s : State) : Out := s.onDevAt 12 conv fun _ d => injectedStart conv d

/-- CAL_FAMILY_DONE. -/
def execCalFamilyDone (family : Nat) (ys : List CalYield) (milliC : Int) (s : State) : Out :=
  s.onDevAt 3 family fun _ d => calFamilyDone family ys milliC d

/-- CAL_DONE. -/
def execCalDone (s : State) : Out := s.onDev fun _ d => calDone d

end Sys2Proof.Machine
end

