-- ==== Sys2Proof/Machine/Admission.lean ====
section
/-! DEFINITION. Admission control (R13, R77, R78) and the lane placement of Throw loops (R136 to R139). -/

namespace Sys2Proof.Machine

/-! ### Lanes -/

/-- ceil(T_i / T_j) for two trigger periods. -/
def periodRatio (i j : Placed) : Nat := (i.num * j.den + i.den * j.num - 1) / (i.den * j.num)

/-- The trigger window of a loop in cycles: floor(c × 400 MHz × T) (R137). -/
def triggerWindow (ceiling : Nat) (p : Placed) : Nat := ceiling * p.num / (256000 * p.den)

/-- The cycles that the loops of a lane take in the window of `i`. -/
def windowUse (lane : List Placed) (i : Placed) : Nat :=
  (lane.map fun j => j.c * periodRatio i j).foldl (· + ·) 0

/-- The window test of a lane (R137). -/
def windowTest (ceiling : Nat) (lane : List Placed) : Bool :=
  lane.all fun i => decide (windowUse lane i ≤ triggerWindow ceiling i)

/-- The largest excess among a lane's window tests. -/
def windowExcess (ceiling : Nat) (lane : List Placed) : Nat :=
  lane.foldl (fun m i => max m (windowUse lane i - triggerWindow ceiling i)) 0

/-- The loops on a lane. -/
def onLane (ps : List Placed) (l : Nat) : List Placed := ps.filter fun p => p.lane == l

/-- The lanes 0 to 7. -/
def lanes : List Nat := List.range 8

/-- Time a Throw lane has been ungated, in 10 ns units: a lane on which a loop is placed runs (R139). -/
def Dev.laneTime (d : Dev) (l : Nat) : Nat :=
  let on := tget 0 d.tal.laneOn l
  tget 0 d.tal.laneTime l + (if on = 0 then 0 else d.now - (on - 1))

/-- The lanes' gating follows the placement. -/
def laneSync (d : Dev) : Dev :=
  lanes.foldl (fun d l =>
    let run := !(onLane d.thr.placed l).isEmpty
    let on := tget 0 d.tal.laneOn l
    if run && on == 0 then { d with tal := { d.tal with laneOn := tset 0 d.tal.laneOn l (d.now + 1) } }
    else if !run && on != 0 then
      { d with tal := { d.tal with laneTime := tset 0 d.tal.laneTime l (d.laneTime l), laneOn := tset 0 d.tal.laneOn l 0 } }
    else d) d

/-- Place one loop on the lowest-numbered lane that passes, or answer the shortfall of R138. -/
def placeLoop (ceiling : Nat) (ps : List Placed) (p : Placed) : List Placed × Option Nat :=
  match lanes.find? fun l => windowTest ceiling (onLane ps l ++ [p]) with
  | some l => (ps ++ [{ p with lane := l }], none)
  | none =>
    (ps, some (lanes.foldl (fun m l => min m (windowExcess ceiling (onLane ps l ++ [p])))
      (windowExcess ceiling (onLane ps 0 ++ [p]))))

/-- The order key of a loop's owner (R138). -/
def ownerKey : LoopId → Nat
  | .user i => slotKey tLoop i
  | .balance r _ => slotKey tRail r
  | .limit c => if c < 40 then slotKey tFeed c else slotKey tBranch (c - 40)

/-- The order of R138: trigger rate, then C, then the owner's handle. -/
def placedBefore (a b : Placed) : Bool :=
  let x := a.num * b.den
  let y := b.num * a.den
  decide (x < y) || (x == y && (decide (b.c < a.c) || (b.c == a.c && decide (ownerKey a.id < ownerKey b.id))))

/-- Place loops one after another in R138 order; the first that fits no lane gives the shortfall. -/
def placeLoops (ceiling : Nat) (ps : List Placed) (news : List Placed) : List Placed × Option Nat :=
  (isort placedBefore news).foldl (fun (acc : List Placed × Option Nat) p =>
    match acc.2 with
    | some _ => acc
    | none => placeLoop ceiling acc.1 p) (ps, none)

/-- Every loop placed again under a ceiling (R139); none where some loop fits no lane. -/
def replaceAll (ceiling : Nat) (ps : List Placed) : Option (List Placed) :=
  match placeLoops ceiling [] ps with
  | (qs, none) => some qs
  | _ => none

/-! ### What a handle needs -/

/-- The resources that a configuration asks for (Table 3.18): slot requests with the converter of their channel, PD
requests, memory, phases, drive (phases and carrier period), built-in and user loops, the shortfall of the energy
envelope, and slots already taken elsewhere. -/
structure Needs where
  fs : List (Nat × Word) := []
  pd : List Word := []
  instr : Nat := 0
  coef : Nat := 0
  sram : Nat := 0
  phases : List Nat := []
  drive : Option (Nat × Nat) := none
  loops : List Placed := []
  energy : Option Nat := none
  taken : Nat := 0
  /-- Bytes by which the black-box image would be too large (R436). -/
  imageOver : Nat := 0
  deriving DecidableEq, Repr

/-- What the checks before admission decide (R549). -/
inductive Check where
  | pass
  | fail (st : Status) (result : BitVec 64)
  deriving DecidableEq, Repr

/-- The first failing check of a list decides. -/
def Check.first : List Check → Check
  | [] => .pass
  | .pass :: rest => Check.first rest
  | c :: _ => c

/-- RANGE unless a condition holds. -/
def Check.range (ok : Bool) : Check := if ok then .pass else .fail .range 0

/-- STATE with the holder's handle as the result. -/
def Check.conflict (holder : Option Word) : Check :=
  match holder with
  | some h => .fail .state (h.setWidth 64)
  | none => .pass

/-- Capacity of the memories of check 3: instruction, coefficient and shared memory (R115, R393; log entry 14). -/
def memCapacity : Nat × Nat × Nat := (262144, 131072, 8388608)

/-- The sum of a field over live slots. -/
def slotSum (d : Dev) (f : Slot → Nat) : Nat :=
  (d.slots.map fun p => if p.2.live then f p.2 else 0).foldl (· + ·) 0

/-- The drive of live rails as a fraction: the sum of NPH / PERIOD (R158). -/
def driveUse (d : Dev) : Nat × Nat :=
  fracSum ((d.slots.filter fun p => p.2.live && p.1 / 4096 == tRail).map fun p =>
    (bits (p.2.w 0) 0 4, max 1 (bits (p.2.w 0) 16 16)))

/-- Whether an FS converter holds valid factors. -/
def Dev.fsValid (d : Dev) (c : Nat) : Bool := (d.fsFactors c).valid

/-- Check 2: every converter used holds valid factors (R110). -/
def calibratedFor (d : Dev) (n : Needs) : Bool :=
  (n.fs.all fun r => d.fsValid (if rqInj r.2 && rqRel r.2 != 0 then r.1 else rqInput r.2 / 16)) &&
    n.pd.all fun w => (tget ({} : Factors) d.acq.calPd (pdRqChan w)).valid

/-- The refusal of a failed admission check (R78). -/
def shortfall (st : Status) (code amount : Nat) : Check := .fail st (BitVec.ofNat 64 (code + amount % 2 ^ 32 * 2 ^ 32))

/-- The phases of a list that another rail owns. -/
def phasesTaken (d : Dev) (ps : List Nat) : Nat :=
  (ps.filter fun p => (tget ({} : Phase) d.pwm.phases p).owner.isSome).length

/-- The excess of the drive budget in kHz·phase, rounded up, where a rail of NPH phases and PERIOD is added (R158, log
entry 85). -/
def driveExcess (d : Dev) (add : Option (Nat × Nat)) : Nat :=
  match add with
  | none => 0
  | some r =>
    let s := fracAdd (driveUse d) r
    if s.1 * 4000000 ≤ 48000 * s.2 then 0
    else (s.1 * 4000000 - 48000 * s.2 + (s.2 - 1)) / s.2

/-- The memory excess of check 3. -/
def memExcess (d : Dev) (n : Needs) : Nat :=
  (slotSum d (·.instr) + n.instr - memCapacity.1) + (slotSum d (·.coef) + n.coef - memCapacity.2.1)
    + (slotSum d (·.sram) + n.sram - memCapacity.2.2) + n.imageOver

/-- Checks 2 to 8 of Table 3.18 in order, and the device with the resources taken (R77). `key` is the slot. -/
def admission (d : Dev) (key : Nat) (n : Needs) : Check × Dev :=
  let (d1, unplaced) := placeSlots d key n.fs
  let (d2, pdTaken) := placePd d1 key n.pd
  let (ps, lane) := placeLoops d.plane.ceiling d.thr.placed n.loops
  let d3 := { d2 with
    thr := { d2.thr with placed := ps }
    pwm := { d2.pwm with phases := n.phases.foldl (fun t p => tmod {} t p fun x => { x with owner := some key }) d2.pwm.phases }
    slots := tmod {} d2.slots key fun s => { s with instr := n.instr, coef := n.coef, sram := n.sram } }
  (Check.first [
    if calibratedFor d n then .pass else shortfall .uncalibrated 2 0,
    if memExcess d n = 0 then .pass else shortfall .noResource 3 (memExcess d n),
    if unplaced + pdTaken + n.taken = 0 then .pass else shortfall .noResource 4 (unplaced + pdTaken + n.taken),
    if phasesTaken d n.phases = 0 then .pass else shortfall .noResource 5 (phasesTaken d n.phases),
    if driveExcess d n.drive = 0 then .pass else shortfall .budget 6 (driveExcess d n.drive),
    match lane with | none => .pass | some x => shortfall .budget 7 x,
    match n.energy with | none => .pass | some x => shortfall .energyLimit 8 x], d3)

/-- Take back every resource of a slot: slots, PD channels, phases, lanes, memory, generators it defines (R80). -/
def releaseResources (d : Dev) (key : Nat) : Dev :=
  let d := releasePd (releaseSlots d key) key
  let d := laneSync { d with thr := { d.thr with
    placed := d.thr.placed.filter fun p => ownerKey p.id != key
    ready := d.thr.ready.filter fun i => ownerKey i != key } }
  { d with
    pwm := { d.pwm with
      phases := tmapAll {} d.pwm.phases fun _ p => (
        if p.owner = some key then { p with owner := none, state := .off, trim := 0, kind1 := none, duty := 0 } else p)
      gens := tmapAll {} d.pwm.gens fun _ g => (
        let ds := g.definers.filter (· != key)
        if ds.isEmpty then {} else { g with definers := ds }) }
    slots := tmod {} d.slots key fun s => { s with instr := 0, coef := 0, sram := 0 } }

/-! ### Generators that a configuration defines (R157) -/

/-- GEN of a definition word. -/
def genOf (w : Word) : Nat := bits w 0 5

/-- Whether a PWM_TRIG_DEF is in range; only a RAIL, with its carrier period, may define a CARRIER generator (R156). -/
def genDefOk (rail : Option Nat) (w : Word) : Bool :=
  w == 0 ||
  (bits w 6 2 == 0 &&
    (if bit w 5 then
      match rail with
      | some period => bits w 11 5 == 0 && decide (bits w 16 16 < period)
      | none => false
     else decide (170667 ≤ bits w 8 24)))

/-- The handle of the first definer of a generator that is defined with another word (R157). -/
def genConflict (d : Dev) (w : Word) : Option Word :=
  if w = 0 then none
  else
    match (d.gen (genOf w)).definers with
    | [] => none
    | k :: _ => if (d.gen (genOf w)).word = w then none else some (d.handleOf (k / 4096) (k % 4096))

/-- Define a generator for a slot. -/
def defineGen (key carrier : Nat) (d : Dev) (w : Word) : Dev :=
  if w = 0 then d
  else { d with pwm := { d.pwm with gens := tmod {} d.pwm.gens (genOf w) fun g =>
    { word := w, carrier := if g.definers.isEmpty then carrier else g.carrier
      definers := if g.definers.contains key then g.definers else g.definers ++ [key] } } }

/-! ### Sequences as holders of elements (R80, R201, R338) -/

/-- The four words of each step of a SEQ_CFG (Tables 12.4, 12.5). -/
def seqSteps (ws : List Word) : List (List Word) :=
  (List.range (field ws 0 0 6)).map fun s => (ws.drop (4 + 4 * s)).take 4

/-- The first live SEQUENCE with a step that satisfies `p`. -/
def Dev.seqWith (d : Dev) (p : List Word → Bool) : Option Nat :=
  (d.liveIndices tSeq).find? fun q => (seqSteps (d.slot tSeq q).cfg).any p

/-- The SEQUENCE that names an element or MONITOR in a step. -/
def Dev.seqNaming (d : Dev) (h : Word) : Option Nat :=
  if h = 0 then none else d.seqWith fun st => word st 1 == h || word st 2 == h

/-- The SEQUENCE other than `q` that holds a discharge switch. -/
def Dev.seqOfSwitch (d : Dev) (q : Option Nat) (n : Nat) : Option Nat :=
  (d.liveIndices tSeq).find? fun x =>
    some x != q && (seqSteps (d.slot tSeq x).cfg).any fun st => field st 0 0 3 == 4 && field st 0 4 5 == n

/-! ### The end of a handle (R75, R80) -/

/-- The run-time state of an object goes with its handle. -/
def dropRuntime (d : Dev) (t i : Nat) : Dev :=
  match t with
  | 1 => { d with thr := { d.thr with loops := tdrop d.thr.loops i } }
  | 2 =>
    let on := (tget ({} : Rail) d.pwm.rails i).discharge
    { d with pwm := { d.pwm with
      rails := tdrop d.pwm.rails i
      discharge := if on then d.pwm.discharge.filter (· != field (d.slot tRail i).cfg 0 8 5) else d.pwm.discharge } }
  | 3 => { d with feeds := tdrop d.feeds i }
  | 4 => { d with branches := tdrop d.branches i }
  | 5 =>
    { d with src := tdrop d.src i, twb := { d.twb with mods := if (d.slot tSource i).schema == 3 then [] else d.twb.mods } }
  | 6 => { d with seq := { d.seq with seqs := tdrop d.seq.seqs i } }
  | 7 => { d with seq := { d.seq with mons := tdrop d.seq.mons i } }
  | 8 => { d with strs := tdrop d.strs i }
  | 10 => { d with net := { d.net with streams := tdrop d.net.streams i } }
  | 11 => { d with wit := { d.wit with sets := tdrop d.wit.sets (slotKey tHist i) } }
  | 12 => { d with wit := { d.wit with sets := tdrop d.wit.sets (slotKey tExtr i) } }
  | 9 => { d with heat := { d.heat with sens := tdrop d.heat.sens i } }
  | _ => d

/-- The generation after `g`: 16,383 advances to 1 (R75). -/
def nextGen (g : BitVec 14) : BitVec 14 := if g = 16383 then 1 else g + 1

/-- The resources are released, the slot is free and its generation advances; what still waits on the handle, but the
DESTROY itself, ends with ABORTED (R75, R80). -/
def finishDestroy (d : Dev) (t i : Nat) : Dev :=
  let d := d.endWaits (fun w => w.handle == d.handleOf t i && w.kind != WaitKind.destroyForce) fun w => plainCpl .aborted w.handle 0
  let d := dropRuntime (releaseResources (witGone (d.handleOf t i) d) (slotKey t i)) t i
  d.modSlot t i fun s => { gen := nextGen s.gen }

/-- The stop of an element has ended: its handle is DISABLED, a waiting DISABLE completes with `result`, and a waiting
DESTROY with FORCE releases the handle (R80). -/
def elementOff (d : Dev) (t i result : Nat) : Dev :=
  let h := d.handleOf t i
  let d := d.modSlot t i fun s => if s.hstate = .fenced then s else { s with hstate := .disabled }
  let d := d.endWaits (fun w => w.kind == WaitKind.disable && w.handle == h) fun w => plainCpl .ok w.handle result
  if d.hasWait .destroyForce h then
    (finishDestroy d t i).endWaits (fun w => w.kind == WaitKind.destroyForce && w.handle == h)
      fun w => plainCpl .ok w.handle 0
  else d

/-- Every command that waits on a handle ends with a status. -/
def Dev.endAll (d : Dev) (h : Word) (st : Status) : Dev :=
  d.endWaits (fun w => w.handle == h) fun w => plainCpl st w.handle 0

/-- The waiting ENABLEs of an element end. -/
def Dev.endEnables (d : Dev) (h : Word) (st : Status) : Dev :=
  d.endWaits (fun w => (w.kind == WaitKind.enable || w.kind == WaitKind.enableStart) && w.handle == h)
    fun w => plainCpl st w.handle 0

end Sys2Proof.Machine
end

