-- ==== Sys2Proof/Machine/Program.lean ====
section
/-! DEFINITION. Throw Engine programs (spec 05): instruction fields, the checks of CREATE, the static cycle count and
what one run computes. Q1.15 values, Q9.31 accumulators and state words are integers. -/

namespace Sys2Proof.Machine

/-! ### Instruction fields (Table 5.3) -/

/-- Opcode. -/
def iOp (w : Word) : Nat := bits w 27 5
/-- PRED. -/
def iPred (w : Word) : Nat := bits w 25 2
/-- ACC. -/
def iAcc (w : Word) : Nat := bits w 23 2
/-- DST. -/
def iDst (w : Word) : Nat := bits w 18 5
/-- SRCA. -/
def iA (w : Word) : Nat := bits w 9 9
/-- SRCB. -/
def iB (w : Word) : Nat := bits w 0 9
/-- IMM. -/
def iImm (w : Word) : Nat := bits w 0 16

/-- Whether an opcode has format I (Table 5.4): LDI, SKP, ASH, RND. -/
def isFormatI (op : Nat) : Bool := op == 0x02 || op == 0x0D || op == 0x14 || op == 0x16

/-- The operand classes of Table 5.2. -/
inductive Opd where
  | d (n : Nat) | inp (n : Nat) | s (n : Nat) | k (n : Nat) | bad
  deriving DecidableEq, Repr

/-- Decode an operand code against SCOUNT and KCOUNT (R119). -/
def opd (sc kc code : Nat) : Opd :=
  if code < 0x10 then .d code
  else if code < 0x18 then .inp (code - 0x10)
  else if 0x40 ≤ code ∧ code < 0x80 then (if code - 0x40 < sc then .s (code - 0x40) else .bad)
  else if 0x100 ≤ code ∧ code - 0x100 < kc then .k (code - 0x100)
  else .bad

/-- A state operand. -/
def Opd.isS : Opd → Bool | .s _ => true | _ => false
/-- A coefficient operand. -/
def Opd.isK : Opd → Bool | .k _ => true | _ => false
/-- The number of an operand. -/
def Opd.num : Opd → Nat | .d n => n | .inp n => n | .s n => n | .k n => n | .bad => 0

/-- Issue cycles (Table 5.4). -/
def issueCycles (w : Word) : Nat :=
  if iOp w = 0x17 then 2 else if iOp w = 0x18 then (if iDst w / 16 % 2 = 1 then 8 else 5) else 1

/-- Opcodes that use the ACC field. -/
def usesAcc (op : Nat) : Bool := decide (0x0E ≤ op ∧ op ≤ 0x18)
/-- Opcodes whose SRCA is a source operand. -/
def readsA (op : Nat) : Bool :=
  [0x01, 0x04, 0x05, 0x06, 0x07, 0x08, 0x09, 0x0A, 0x0B, 0x0C, 0x0E, 0x11, 0x12, 0x13, 0x17, 0x18, 0x19].contains op
/-- Opcodes whose SRCB is a source operand. -/
def readsB (op : Nat) : Bool :=
  [0x05, 0x06, 0x08, 0x09, 0x0B, 0x0C, 0x11, 0x12, 0x13, 0x19].contains op
/-- Opcodes whose SRCB names a coefficient block: LIM, INTC, BIQ. -/
def blockB (op : Nat) : Bool := op == 0x0A || op == 0x17 || op == 0x18
/-- Opcodes whose SRCA names a state word: ST, LDS, STA. -/
def stateA (op : Nat) : Bool := op == 0x03 || op == 0x0F || op == 0x10
/-- Opcodes that write D[DST]. -/
def writesD (op : Nat) : Bool :=
  [0x01, 0x02, 0x05, 0x06, 0x07, 0x08, 0x09, 0x0A, 0x0B, 0x16].contains op

/-- How many words a coefficient block at SRCB takes: LIM 2, INTC 4, BIQ 6 or 8 with EXT (R126, R127). -/
def blockWords (w : Word) : Nat :=
  if iOp w = 0x0A then 2 else if iOp w = 0x17 then 4 else if iDst w / 16 % 2 = 1 then 8 else 6

/-! ### Checks of CREATE (R119, R121, R123, R130) -/

/-- Whether the DST field of an instruction is as Table 5.4 allows it; `kinds` are the KINDs of OUT0 to OUT3. -/
def dstOk (kinds : List Nat) (w : Word) : Bool :=
  let op := iOp w
  let x := iDst w
  if writesD op || op == 0x03 then decide (x < 16)
  else if op = 0x04 then decide (16 ≤ x ∧ x < 20) && kinds.getD (x - 16) 0 != 0
  else if op = 0x0C then decide (x < 6)
  else if op = 0x0D then decide (x < 2)
  else if op = 0x17 then decide (x < 16)
  else if op = 0x18 then x / 8 % 2 == 0
  else x == 0

/-- Whether the immediate of a format I instruction uses only the bits its opcode gives it. -/
def immOk (w : Word) : Bool :=
  bits w 16 2 == 0 &&
    (if iOp w = 0x0D then decide (1 ≤ iImm w ∧ iImm w < 32)
     else if iOp w = 0x14 then decide (iImm w < 32)
     else if iOp w = 0x16 then decide (iImm w < 8)
     else true)

/-- Whether one instruction is valid (R119, R121, R130), apart from skip ranges and state overlaps. -/
def instrOk (sc kc : Nat) (kinds : List Nat) (w : Word) : Bool :=
  let op := iOp w
  let a := opd sc kc (iA w)
  let b := opd sc kc (iB w)
  decide (op ≤ 0x19) && iPred w != 3 && (usesAcc op || iAcc w == 0) && dstOk kinds w &&
  (if isFormatI op then immOk w
   else
    (if readsA op then a != .bad
     else if stateA op then a.isS && (op == 0x03 || (a.num % 2 == 0 && decide (a.num + 1 < sc)))
     else iA w == 0) &&
    (if readsB op then b != .bad
     else if blockB op then b.isK && decide (b.num + blockWords w ≤ kc)
     else iB w == 0) &&
    (if op = 0x17 then decide (2 * iDst w + 1 < sc)
     else if op = 0x18 then decide (32 + 4 * (iDst w % 8) + 3 < sc)
     else true))

/-- The state words that the INTC and BIQ of a program use (R126, R127). -/
def ownedState (prog : List Word) : List Nat :=
  prog.flatMap fun w =>
    if iOp w = 0x17 then [2 * iDst w, 2 * iDst w + 1]
    else if iOp w = 0x18 then [0, 1, 2, 3].map (fun j => 32 + 4 * (iDst w % 8) + j)
    else []

/-- The state words an instruction names directly: ST, STA and LDS operands and state source operands. -/
def directState (sc kc : Nat) (w : Word) : List Nat :=
  let op := iOp w
  let a := opd sc kc (iA w)
  let b := opd sc kc (iB w)
  if isFormatI op then []
  else
    (if op = 0x0F ∨ op = 0x10 then [a.num, a.num + 1]
     else if (readsA op || op == 0x03) && a.isS then [a.num] else []) ++
    (if readsB op && b.isS then [b.num] else [])

/-- Whether no skip range passes the end of the program (R123). -/
def skipsOk (prog : List Word) : Bool :=
  (List.range prog.length).all fun i =>
    let w := word prog i
    if iOp w = 0x0D then decide (i + iImm w % 32 < prog.length) else true

/-- The program checks of R130. -/
def programOk (sc kc : Nat) (kinds : List Nat) (prog : List Word) : Bool :=
  prog.all (instrOk sc kc kinds) && skipsOk prog &&
  (prog.all fun w => (directState sc kc w).all fun n => !(ownedState prog).contains n) &&
  decide ((prog.filter fun w => iOp w == 0x19).length ≤ 1)

/-! ### The static cycle count (R124, R125) -/

/-- What a hazard can wait for. -/
inductive Res where
  | d (n : Nat) | a (n : Nat) | p | s (n : Nat)
  deriving DecidableEq, Repr

/-- The results an instruction reads and waits for. -/
def reads (sc kc : Nat) (w : Word) : List Res :=
  let op := iOp w
  let src (o : Opd) : List Res := match o with | .d n => [.d n] | .s n => [.s n] | _ => []
  (if iPred w ≠ 0 ∨ op = 0x0B ∨ op = 0x0D then [.p] else []) ++
  (if readsA op then src (opd sc kc (iA w)) else []) ++
  (if readsB op then src (opd sc kc (iB w)) else []) ++
  (if op = 0x03 then [.d (iDst w % 16)] else []) ++
  (if op = 0x0F then [.s (iA w - 0x40), .s (iA w - 0x40 + 1)] else []) ++
  (if op = 0x10 ∨ op = 0x14 ∨ op = 0x15 ∨ op = 0x16 then [.a (iAcc w)] else [])

/-- The results an instruction produces, with the stage at whose end each is ready (Table 5.4). -/
def produces (w : Word) : List (Res × Nat) :=
  let op := iOp w
  if op = 0x16 then [(.d (iDst w), 5)]
  else if writesD op then [(.d (iDst w), 4)]
  else if op = 0x0C then [(.p, 4)]
  else if op = 0x03 then [(.s (iA w - 0x40), 6)]
  else if op = 0x10 then [(.s (iA w - 0x40), 6), (.s (iA w - 0x40 + 1), 6)]
  else if op = 0x17 then [(.a (iAcc w), 5), (.p, 5)]
  else if usesAcc op then [(.a (iAcc w), 5)]
  else []

/-- The first cycle at which a consumer may read `r`, from the latest producers (latest first). -/
def availableAt (prods : List (Res × Nat)) (r : Res) : Nat :=
  match prods with
  | [] => 0
  | (x, c) :: rest => if x = r then c else availableAt rest r

/-- The cycle after the last issue cycle of a program that begins at cycle `t` (R124). -/
def cycleCount (sc kc : Nat) (prods : List (Res × Nat)) (t : Nat) : List Word → Nat
  | [] => t
  | w :: rest =>
    let start := (reads sc kc w).foldl (fun m r => max m (availableAt prods r)) t
    let last := start + issueCycles w - 1
    cycleCount sc kc ((produces w).map (fun (r, rdy) => (r, last + rdy - 2)) ++ prods) (last + 1) rest

/-- W of a program (R125). -/
def staticW (sc kc : Nat) (prog : List Word) : Nat := cycleCount sc kc [] 0 prog

/-! ### One run (R118, R120, R122 to R128) -/

/-- The context of a run. -/
structure RunCtx where
  d : List Int := List.replicate 16 0
  a : List Int := [0, 0, 0, 0]
  p : Bool := false
  ins : List Int
  s : List Int
  k : List Int
  outs : List (Option Int) := [none, none, none, none]
  skip : Nat := 0
  ferr : Option Nat := none
  dSat : Nat := 0
  accSat : Nat := 0
  deriving DecidableEq, Repr

/-- The value of an operand. -/
def RunCtx.val (c : RunCtx) (code : Nat) : Int :=
  match opd c.s.length c.k.length code with
  | .d n => c.d.getD n 0
  | .inp n => c.ins.getD n 0
  | .s n => c.s.getD n 0
  | .k n => c.k.getD n 0
  | .bad => 0

/-- Write a D register with saturation (R120). -/
def RunCtx.putD (c : RunCtx) (n : Nat) (v : Int) : RunCtx :=
  let x := satSigned 16 v
  { c with d := c.d.set n x, dSat := c.dSat + b2n (x != v) }

/-- Write a state word with saturation (R120). -/
def RunCtx.putS (c : RunCtx) (n : Nat) (v : Int) : RunCtx :=
  let x := satSigned 16 v
  { c with s := c.s.set n x, dSat := c.dSat + b2n (x != v) }

/-- Write an accumulator with saturation to Q9.31 (R120). -/
def RunCtx.putA (c : RunCtx) (n : Nat) (v : Int) : RunCtx :=
  let x := satSigned 40 v
  { c with a := c.a.set n x, accSat := c.accSat + b2n (x != v) }

/-- A state pair as Q1.31. -/
def RunCtx.pair (c : RunCtx) (n : Nat) : Int :=
  c.s.getD (n + 1) 0 * 65536 + (twos 16 (c.s.getD n 0) : Int)

/-- Write a state pair from a Q1.31 value. -/
def RunCtx.putPair (c : RunCtx) (n : Nat) (v : Int) : RunCtx :=
  { c with s := (c.s.set n (sx 16 (twos 32 v))).set (n + 1) (sx 16 (twos 32 v / 65536)) }

/-- Floor of `v × 2 ^ n` for a signed shift. -/
def shiftInt (v : Int) (n : Int) : Int := if 0 ≤ n then v * 2 ^ n.toNat else v / 2 ^ (-n).toNat

/-- CMP's conditions (Table 5.4). -/
def cmpCond (cond : Nat) (a b : Int) : Bool :=
  match cond with
  | 0 => decide (a < b) | 1 => decide (a ≤ b) | 2 => decide (a = b)
  | 3 => decide (a ≠ b) | 4 => decide (b ≤ a) | _ => decide (b < a)

/-- INTC (R126): v = S + (a × g) × 2^−m in Q1.31, clamped to [lo, hi]. -/
def RunCtx.intc (c : RunCtx) (i n acc : Nat) (a : Int) : RunCtx :=
  let g := c.k.getD n 0
  let m := min 15 (twos 16 (c.k.getD (n + 1) 0))
  let lo := c.k.getD (n + 2) 0 * 65536
  let hi := c.k.getD (n + 3) 0 * 65536
  let v := c.pair (2 * i) + a * g * 2 / 2 ^ m
  let r := max (min v hi) lo
  { (c.putPair (2 * i) r).putA acc r with p := r != v }

/-- BIQ (R127): direct form I; with EXT the coefficients b1, a1, a2 are Q1.23. -/
def RunCtx.biq (c : RunCtx) (q n acc : Nat) (ext : Bool) (x : Int) : RunCtx :=
  let k (j : Nat) : Int := c.k.getD (n + j) 0
  let sh := twos 16 (k 5)
  let sb := min 8 (sh % 16)
  let sa := min 8 (sh / 16 % 16)
  let e (word byte : Nat) : Int := if ext then (twos 16 (k word) / 256 ^ byte % 256 : Nat) else 0
  let b0 := k 0 * 256
  let b1 := k 1 * 256 + e 6 0
  let b2 := k 2 * 256
  let a1 := k 3 * 256 + e 6 1
  let a2 := k 4 * 256 + e 7 0
  let st := 32 + 4 * q
  let x1 := c.s.getD st 0
  let x2 := c.s.getD (st + 1) 0
  let y1 := c.s.getD (st + 2) 0
  let y2 := c.s.getD (st + 3) 0
  -- products are Q2.38; the accumulator holds Q9.31, shifted toward −∞ (R120)
  let y := (2 ^ sb * (b0 * x + b1 * x1 + b2 * x2) - 2 ^ sa * (a1 * y1 + a2 * y2)) / 128
  let c := c.putA acc y
  let c := { c with s := ((c.s.set (st + 1) x1).set st x).set (st + 3) y1 }
  c.putS (st + 2) (roundHalfUp (c.a.getD acc 0) 65536)

/-- One instruction that is not predicated off. -/
def RunCtx.exec (c : RunCtx) (w : Word) : RunCtx :=
  let op := iOp w
  let dst := iDst w
  let acc := iAcc w
  let a := c.val (iA w)
  let b := c.val (iB w)
  let av := c.a.getD acc 0
  match op with
  | 0x01 => c.putD dst a
  | 0x02 => c.putD dst (sx 16 (iImm w))
  | 0x03 => { c with s := c.s.set (iA w - 0x40) (c.d.getD dst 0) }
  | 0x04 => { c with outs := c.outs.set (dst - 16) (some a) }
  | 0x05 => c.putD dst (a + b)
  | 0x06 => c.putD dst (a - b)
  | 0x07 => c.putD dst a.natAbs
  | 0x08 => c.putD dst (min a b)
  | 0x09 => c.putD dst (max a b)
  | 0x0A => c.putD dst (max (min a (c.k.getD (iB w - 0x100 + 1) 0)) (c.k.getD (iB w - 0x100) 0))
  | 0x0B => c.putD dst (if c.p then a else b)
  | 0x0C => { c with p := cmpCond (dst % 8) a b }
  | 0x0D => if c.p == (dst % 2 == 0) then { c with skip := max c.skip (iImm w % 32) } else c
  | 0x0E => c.putA acc (a * 65536)
  | 0x0F => c.putA acc (c.pair (iA w - 0x40))
  | 0x10 =>
    let x := satSigned 32 av
    { c.putPair (iA w - 0x40) x with dSat := c.dSat + b2n (x != av) }
  | 0x11 => c.putA acc (a * b * 2)
  | 0x12 => c.putA acc (av + a * b * 2)
  | 0x13 => c.putA acc (av - a * b * 2)
  | 0x14 => c.putA acc (shiftInt av (sx 5 (iImm w)))
  | 0x15 => { c with a := c.a.set acc (satSigned 32 av) }
  | 0x16 => c.putD dst (roundHalfUp (av * 2 ^ (iImm w % 8)) 65536)
  | 0x17 => c.intc (dst % 16) (iB w - 0x100) acc a
  | 0x18 => c.biq (dst % 8) (iB w - 0x100) acc (dst / 16 % 2 == 1) a
  | 0x19 => { c with ferr := some (a - b).natAbs }
  | _ => c

/-- One instruction: off by a covering SKP or by its own PRED, it changes nothing (R123). -/
def RunCtx.step (c : RunCtx) (w : Word) : RunCtx :=
  let off := decide (c.skip ≠ 0) || (iPred w == 1 && !c.p) || (iPred w == 2 && c.p)
  let c' := { c with skip := c.skip - 1 }
  if off then c' else c'.exec w

/-- A run of a whole program. -/
def RunCtx.run (c : RunCtx) (prog : List Word) : RunCtx := prog.foldl RunCtx.step c

/-! ### THROW_LOOP_CFG (Table 5.6) -/

/-- PROG_LEN. -/
def lcProgLen (ws : List Word) : Nat := field ws 0 0 13
/-- KCOUNT. -/
def lcKcount (ws : List Word) : Nat := field ws 1 0 9
/-- SCOUNT. -/
def lcScount (ws : List Word) : Nat := field ws 1 16 7
/-- TRIG. -/
def lcTrig (ws : List Word) : Nat := field ws 2 0 5
/-- MISS_LIMIT; 0 acts as 8. -/
def lcMissLimit (ws : List Word) : Nat := if field ws 2 8 8 = 0 then 8 else field ws 2 8 8
/-- FERR_K. -/
def lcFerrK (ws : List Word) : Nat := field ws 3 0 9
/-- FERR_EN. -/
def lcFerrEn (ws : List Word) : Bool := field ws 3 9 1 == 1
/-- ACTION: 0 HOLD, 1 FORCE, 2 FENCE. -/
def lcAction (ws : List Word) : Nat := field ws 3 10 2
/-- TIMER. -/
def lcTimer (ws : List Word) : Nat := field ws 3 12 20
/-- PRELOAD_I. -/
def lcPreloadI (ws : List Word) : Nat := field ws 4 0 4
/-- PRELOAD_EN. -/
def lcPreloadEn (ws : List Word) : Bool := field ws 4 4 1 == 1
/-- The slot request of input `i`, 0 = unbound. -/
def lcIn (ws : List Word) (i : Nat) : Word := word ws (5 + i)
/-- KIND of output `i`. -/
def lcKind (ws : List Word) (i : Nat) : Nat := field ws (13 + i) 0 4
/-- TARGET of output `i`. -/
def lcTarget (ws : List Word) (i : Nat) : Nat := field ws (13 + i) 4 8
/-- SAFE value of output `i`. -/
def lcSafe (ws : List Word) (i : Nat) : Int := sx 16 (field ws (17 + i / 2) (16 * (i % 2)) 16)
/-- The program. -/
def lcProgram (ws : List Word) : List Word := (ws.drop 19).take (lcProgLen ws)
/-- The initial bank, two coefficients a word. -/
def lcBank (ws : List Word) : List Byte :=
  (bytesOfWords (ws.drop (19 + lcProgLen ws))).take (2 * lcKcount ws)
/-- The initial state words. -/
def lcState (ws : List Word) : List Int :=
  let bs := bytesOfWords (ws.drop (19 + lcProgLen ws + (lcKcount ws + 1) / 2))
  (List.range (lcScount ws)).map fun i => sx 16 (byteField bs (2 * i) 2)
/-- The number of words that Table 5.6 requires. -/
def lcWords (ws : List Word) : Nat := 19 + lcProgLen ws + (lcKcount ws + 1) / 2 + (lcScount ws + 1) / 2

/-- Coefficient `k` of a bank. -/
def bankCoef (b : List Byte) (k : Nat) : Int := sx 16 (byteField b (2 * k) 2)
/-- A bank with coefficient `k` replaced. -/
def setCoef (b : List Byte) (k : Nat) (v : Int) : List Byte := splice b (leBytes 2 (twos 16 v)) (2 * k)

/-! ### LOOPs at run time -/

/-- LOOP `i` at run time. -/
def Dev.loop (d : Dev) (i : Nat) : LoopRt := tget {} d.thr.loops i

/-- Change LOOP `i`. -/
def Dev.modLoop (d : Dev) (i : Nat) (f : LoopRt → LoopRt) : Dev :=
  { d with thr := { d.thr with loops := tmod {} d.thr.loops i f } }

/-- The values at a LOOP's ports while it is DISABLED, FENCED or forced (R133). -/
def safeOuts (ws : List Word) : List Int := [lcSafe ws 0, lcSafe ws 1, lcSafe ws 2, lcSafe ws 3]

end Sys2Proof.Machine
end

