-- ==== Sys2Proof/Machine/Pwm.lean ====
section
/-! DEFINITION. Regulators and phase drivers (spec 06): RAIL configuration, phases, Surge, start and stop, faults and the
last-fault record. -/

namespace Sys2Proof.Machine

/-! ### CRC-16 (R190) -/

/-- One bit of the CRC register: shift left, polynomial 0x1021. -/
def crcShift (c : Nat) : Nat := if c / 32768 % 2 = 1 then (c * 2 % 65536) ^^^ 0x1021 else c * 2 % 65536

/-- One byte, most significant bit first. -/
def crcByte (c : Nat) (b : Byte) : Nat :=
  crcShift (crcShift (crcShift (crcShift (crcShift (crcShift (crcShift (crcShift (c ^^^ (b.toNat * 256)))))))))

/-- CRC-16 with initial value 0xFFFF, unreflected, no final XOR (R190). -/
def crc16 (bs : List Byte) : Nat := bs.foldl crcByte 0xFFFF

/-- Bytes followed by their CRC, low byte first. -/
def withCrc (bs : List Byte) : List Byte := bs ++ leBytes 2 (crc16 bs)

/-- A new record written over the older of two copies (R189). -/
def Copies.write (c : Copies) (bs : List Byte) : Copies := ⟨bs, c.newer, satAdd 8 c.count 1⟩

/-! ### Access -/

/-- Rail `i`. -/
def Dev.rail (d : Dev) (i : Nat) : Rail := tget {} d.pwm.rails i

/-- Change rail `i`. -/
def Dev.modRail (d : Dev) (i : Nat) (f : Rail → Rail) : Dev :=
  { d with pwm := { d.pwm with rails := tmod {} d.pwm.rails i f } }

/-- Phase `p`. -/
def Dev.phase (d : Dev) (p : Nat) : Phase := tget {} d.pwm.phases p

/-- Change phase `p`. -/
def Dev.modPhase (d : Dev) (p : Nat) (f : Phase → Phase) : Dev :=
  { d with pwm := { d.pwm with phases := tmod {} d.pwm.phases p f } }

/-- Configuration word `n` of rail `i`. -/
def Dev.railW (d : Dev) (i n : Nat) : Word := (d.slot tRail i).w n

/-- Field of the active RAIL_BANK. -/
def Dev.railB (d : Dev) (i n lo len : Nat) : Nat := bits ((d.slot tRail i).bankW n) lo len

/-- NPH. -/
def rcNph (ws : List Word) : Nat := field ws 0 0 4
/-- The phases of a rail by position (words 1 to 3). -/
def rcPhases (ws : List Word) : List Nat :=
  (List.range (rcNph ws)).map fun k => field ws (1 + k / 4) (8 * (k % 4)) 8
/-- PERIOD. -/
def rcPeriod (ws : List Word) : Nat := field ws 0 16 16

/-- The phases of rail `i` by position. -/
def Dev.railPhases (d : Dev) (i : Nat) : List Nat := rcPhases (d.slot tRail i).cfg
/-- DSCH: the discharge switch, none for 31. -/
def Dev.railDsch (d : Dev) (i : Nat) : Option Nat :=
  if bits (d.railW i 0) 8 5 = 31 then none else some (bits (d.railW i 0) 8 5)
/-- A rail of 5 to 12 phases is large (R175). -/
def Dev.railLarge (d : Dev) (i : Nat) : Bool := decide (5 ≤ (d.railPhases i).length)

/-- The indices of the LOOPs that rail `i` names: PRIMARY, and LIGHT where there is one. -/
def Dev.railLoops (d : Dev) (i : Nat) : List Nat :=
  hIndex (d.railW i 4) :: (if d.railW i 5 = 0 then [] else [hIndex (d.railW i 5)])

/-- The rail that names LOOP `l` (R161). -/
def Dev.railOfLoop (d : Dev) (l : Nat) : Option Nat :=
  (d.liveIndices tRail).find? fun r => (d.railLoops r).contains l

/-- The index of the selected loop. -/
def Dev.selectedLoop (d : Dev) (i : Nat) : Nat :=
  if (d.rail i).light then hIndex (d.railW i 5) else hIndex (d.railW i 4)

/-- Whether a phase state counts as active (Table 6.6). -/
def PhaseState.isActive : PhaseState → Bool
  | .active => true | .shedding => true | .firing => true | _ => false

/-- The active phases of a rail. -/
def Dev.activePhases (d : Dev) (i : Nat) : List Nat := (d.railPhases i).filter fun p => (d.phase p).state.isActive
/-- The non-fenced phases of a rail (n_ok of R187). -/
def Dev.okPhases (d : Dev) (i : Nat) : List Nat := (d.railPhases i).filter fun p => (d.phase p).state != .fenced
/-- Whether some phase is FIRING. -/
def Dev.railFiring (d : Dev) (i : Nat) : Bool := (d.railPhases i).any fun p => (d.phase p).state == .firing

/-- A value of full scale `fs` at an FS result: fs × VALUE, in the unit of fs. -/
def scaled (fs : Nat) (w : Word) : Int := roundOpen ((fs : Int) * fsVal w) 32768

/-- The output voltage of a rail in mV, from the latest sample. -/
def Dev.railVout (d : Dev) (i : Nat) : Int := scaled (bits (d.railW i 7) 16 16) (d.fsLast (rqInput (d.railW i 8)))
/-- The bus voltage in 10 mV units. -/
def Dev.railVbus (d : Dev) (i : Nat) : Int := scaled (bits (d.railW i 10) 0 16) (d.fsLast (rqInput (d.railW i 9)))
/-- The phase current at position `k` in 10 mA units. -/
def Dev.railIph (d : Dev) (i k : Nat) : Int :=
  scaled (bits (d.railW i 23) 0 16) (d.fsLast (rqInput (d.railW i (11 + k))))
/-- I_PH in 10 mA units. -/
def Dev.railIrated (d : Dev) (i : Nat) : Nat := bits (d.railW i 23) 16 16
/-- The positions of a rail whose phase satisfies `p`. -/
def Dev.positions (d : Dev) (i : Nat) (p : Phase → Bool) : List Nat :=
  (List.range (d.railPhases i).length).filter fun k => p (d.phase ((d.railPhases i).getD k 0))
/-- The summed current of the non-fenced active phases, in 10 mA units (R167). -/
def Dev.railIsum (d : Dev) (i : Nat) : Int :=
  sumInt ((d.positions i fun p => p.state.isActive).map (d.railIph i))

/-- The reference in mV: the ramped fraction of VFS. -/
def Dev.railRefMv (d : Dev) (i : Nat) : Int := (d.rail i).ref * (bits (d.railW i 7) 16 16 : Nat) / 2 ^ 31

/-- The reference of a set point, VSET / VFS in Q1.31 (R165). -/
def refOf (vset vfs : Nat) : Int := min (2 ^ 31 - 1) (roundOpen ((vset : Int) * 2 ^ 31) (max 1 vfs))

/-- The reference in Q1.15 as it is written into REF_K. -/
def Rail.ref15 (r : Rail) : Int := r.ref / 65536

/-- The step of a ramp per run of the PRIMARY loop in Q1.31: the slope times the loop's trigger period (R165). The ramp
spans `mv` in `time` units of 0.1 ms. -/
def Dev.rampStep (d : Dev) (i mv time : Nat) : Int :=
  let p := d.genPeriod (lcTrig (d.slot tLoop (hIndex (d.railW i 4))).cfg)
  roundOpen ((mv : Int) * 2 ^ 31 * p.1)
    (max 1 (bits (d.railW i 7) 16 16) * max 1 time * max 1 p.2 * 102400000)

/-! ### CREATE and CONFIGURE (R160, R161) -/

/-- Whether a RAIL_BANK is in range: reserved fields 0, REFRESH_T 100 to 1,000 (Table 6.5). -/
def railBankOk (b : List Word) : Bool :=
  field b 6 20 12 == 0 && field b 10 8 8 == 0 && decide (100 ≤ field b 10 16 16) && decide (field b 10 16 16 ≤ 1000) &&
    ((List.range 5).all fun k => word b (11 + k) == 0)

/-- The order of a bank's thresholds that a swap demands (R162). -/
def railBankOrder (b : List Word) : Bool :=
  decide (field b 0 0 16 < field b 0 16 16) && decide (field b 1 0 16 < field b 0 0 16) &&
    decide (field b 0 16 16 < field b 1 16 16) && decide (field b 4 16 16 ≤ field b 4 0 16)

/-- The slot requests of a RAIL: VOUT, VBUS and the phase currents. -/
def railRequests (ws : List Word) : List Word :=
  [word ws 8, word ws 9] ++ (List.range (rcNph ws)).map fun k => word ws (11 + k)

/-- The fields of a RAIL_CFG in range (Table 6.4). -/
def railFieldsOk (ws : List Word) : Bool :=
  let nph := rcNph ws
  ws.length == 47 && decide (1 ≤ nph) && decide (nph ≤ 12) && field ws 0 4 2 != 3 &&
  (decide (field ws 0 8 5 < 24) || field ws 0 8 5 == 31) && field ws 0 13 3 == 0 &&
  decide (2667 ≤ rcPeriod ws) && decide (rcPeriod ws ≤ 40000) &&
  ((rcPhases ws).all fun p => decide (p < 48)) &&
  ((List.range 12).all fun k => decide (k < nph) || field ws (1 + k / 4) (8 * (k % 4)) 8 == 0xFF) &&
  decide (field ws 6 9 4 ≤ 11) && field ws 6 13 3 == 0 && decide (1 ≤ field ws 6 16 4) &&
  decide (field ws 6 16 4 ≤ nph) && field ws 6 20 12 == 0 && decide (1 ≤ field ws 7 16 16) &&
  ([word ws 8, word ws 9].all fun w => rqOk w && !dedicated (rqInput w)) &&
  decide (field ws 10 16 16 < rcPeriod ws) &&
  ((List.range 12).all fun k =>
    if k < nph then rqOk (word ws (11 + k)) && rqMode (word ws (11 + k)) == 1 else word ws (11 + k) == 0) &&
  field ws 24 16 16 == 0 &&
  (decide (nph < 5) || (decide (2 ≤ field ws 25 0 16) && decide (field ws 25 0 16 ≤ 2000)
    && decide (2 ≤ field ws 25 16 16) && decide (field ws 25 16 16 ≤ 2000))) &&
  decide (1 ≤ field ws 26 0 16) && genDefOk (some (rcPeriod ws)) (word ws 28) && genDefOk (some (rcPeriod ws)) (word ws 29) &&
  decide (1 ≤ field ws 30 0 16) && field ws 30 16 16 == 0 && railBankOk (ws.drop 31) && railBankOrder (ws.drop 31)

/-- Whether a generator is defined, by a live handle or by the configuration being checked. -/
def genKnown (d : Dev) (defs : List Word) (g : Nat) : Bool :=
  d.genDefined g || defs.any fun w => w != 0 && genOf w == g

/-- Whether a named LOOP suits a RAIL of index `i` with this configuration (R161). -/
def railLoopOk (d : Dev) (i : Nat) (ws : List Word) (h : Word) : Bool :=
  d.namesLive tLoop h &&
  (let s := d.slot tLoop (hIndex h)
   s.hstate == .disabled && decide (field ws 6 0 9 < lcKcount s.cfg) &&
   (List.range 4).all fun o =>
     match lcKind s.cfg o with
     | 1 => (rcPhases ws).contains (lcTarget s.cfg o)
     | 2 => lcTarget s.cfg o == i
     | 3 => false
     | _ => true)

/-- The RAIL other than `i` that names a loop. -/
def namingRail (d : Dev) (i : Nat) (h : Word) : Option Word :=
  match d.railOfLoop (hIndex h) with
  | some r => if h = 0 ∨ r = i then none else some (d.handleOf tRail r)
  | none => none

/-- The RANGE conditions of a RAIL's configuration, in order (R161, R549). -/
def railRange (d : Dev) (i : Nat) (ws : List Word) : Check :=
  let vset := field ws 7 0 16
  let vfs := field ws 7 16 16
  Check.first [
    Check.range (railFieldsOk ws),
    Check.range ((railRequests ws).all fun w => genKnown d [word ws 28, word ws 29] (rqTrig w)),
    Check.range ((rcPhases ws).eraseDups.length == (rcPhases ws).length),
    Check.range (railLoopOk d i ws (word ws 4)),
    Check.range (word ws 5 == 0 || railLoopOk d i ws (word ws 5)),
    Check.range (decide (5 * vfs ≤ 100 * vset) && decide (100 * vset ≤ 95 * vfs))]

/-- The STATE conflicts of a RAIL's configuration (R157, R161). -/
def railConflicts (d : Dev) (i : Nat) (ws : List Word) : Check :=
  Check.first [
    Check.conflict (namingRail d i (word ws 4)), Check.conflict (namingRail d i (word ws 5)),
    Check.conflict (genConflict d (word ws 28)), Check.conflict (genConflict d (word ws 29)),
    Check.conflict (if field ws 0 8 5 = 31 then none else (d.seqOfSwitch none (field ws 0 8 5)).map (d.handleOf tSeq))]

/-- What a RAIL asks of admission (R73, R116, R135). -/
def railNeeds (ws : List Word) (gens : Nat → Nat × Nat) (i : Nat) : Needs :=
  let nph := rcNph ws
  { fs := (railRequests ws).map fun w => (rqInput w / 16, w)
    coef := if 2 ≤ nph then 64 * nph else 0
    phases := rcPhases ws
    drive := some (nph, rcPeriod ws)
    loops := if nph < 2 then [] else (List.range nph).map fun k =>
      let g := rqTrig (word ws (11 + k))
      ⟨.balance i k, 0, 13, g, (gens g).1, (gens g).2⟩ }

/-- A RAIL as CREATE or CONFIGURE leaves it. -/
def railLoad (d : Dev) (i : Nat) (ws : List Word) : Dev :=
  { d with pwm := { d.pwm with rails := tset {} d.pwm.rails i { vset := field ws 7 0 16 } } }

/-! ### The last-fault record (Table 6.12) -/

/-- Codes of the run states (Table 6.12 byte 14). -/
def RailRun.code : RailRun → Nat
  | .off => 0 | .starting => 1 | .on => 2 | .stopping => 3 | .faulted => 4

/-- The set of positions of a rail whose phase is FENCED, as bits. -/
def Dev.fencedMask (d : Dev) (i : Nat) : Nat := (d.positions i fun p => p.state == .fenced).foldl (fun n k => n + 2 ^ k) 0

/-- The latest temperature of the SENSOR that a handle word names, Q9.7 bits, 0x8000 if none. -/
def Dev.sensorTemp (d : Dev) (h : Word) : Nat :=
  if d.namesLive tSensor h ∧ (tget {} d.heat.sens (hIndex h)).age.isSome = true then bits (tget 0 d.acq.tdWord (hIndex h)) 0 16 else 0x8000

/-- The record of rail `i` for a cause (Table 6.12). -/
def railRecord (d : Dev) (i cause pos : Nat) (before : RailRun) (count tick : Nat) : List Byte :=
  let r := d.rail i
  let nph := (d.railPhases i).length
  let defaulted := ([8, 9] ++ (List.range nph).map (11 + ·)).any fun n => bit (d.fsLast (rqInput (d.railW i n))) 20
  withCrc (
    [0x01, BitVec.ofNat 8 i] ++ leBytes 2 cause ++ leBytes 6 d.wheel.turn.toNat ++ leBytes 2 tick ++
    [BitVec.ofNat 8 (b2n d.wheel.coastFlag + b2n d.wheel.slewFlag * 2 + b2n r.surge.isSome * 4 + b2n r.limited * 8
      + b2n r.prebiased * 16 + b2n r.dem * 32 + b2n (defaulted || r.demandDefaulted) * 64 + 128),
     BitVec.ofNat 8 (nph + (d.activePhases i).length * 16),
     BitVec.ofNat 8 (b2n (d.slot tRail i).activeB + b2n (d.slot tLoop (hIndex (d.railW i 4))).activeB * 2
      + b2n (d.railW i 5 != 0 && (d.slot tLoop (hIndex (d.railW i 5))).activeB) * 4 + b2n r.light * 8 + before.code * 16),
     BitVec.ofNat 8 (min 255 count)] ++
    leBytes 2 (twos 16 (d.railVout i)) ++ leBytes 2 (twos 16 (d.railVbus i)) ++ leBytes 2 (twos 16 r.demand) ++
    leBytes 2 (d.sensorTemp (d.railW i 27)) ++
    ((List.range 12).flatMap fun k => leBytes 2 (if k < nph then twos 16 (d.railIph i k) else 0)) ++
    leBytes 2 (twos 16 (roundOpen (d.railIsum i) 10)) ++ leBytes 2 (d.fencedMask i) ++ [BitVec.ofNat 8 pos, 0] ++
    leBytes 2 r.vset ++ leBytes 4 (d.handleOf tRail i).toNat ++ zeros 2)

/-- Write the record: during FAULTED only COUNT advances (R189). -/
def writeRailRecord (d : Dev) (i cause pos : Nat) (before : RailRun) : Dev :=
  if before = .faulted then
    { d with kiln := { d.kiln with rails := tmod {} d.kiln.rails i fun c => { c with count := satAdd 8 c.count 1 } } }
  else
    let (tick, d) := d.recordTick
    { d with kiln := { d.kiln with rails := tmod {} d.kiln.rails i fun c => (
        c.write (railRecord d i cause pos before (satAdd 8 c.count 1) tick)) } }

/-! ### Gates, loops, completion of waiting commands -/

/-- Every non-fenced phase of a rail goes OFF, both gates low. -/
def gatesLow (d : Dev) (i : Nat) : Dev :=
  (d.railPhases i).foldl (fun d p => d.modPhase p fun x => (
    if x.state = .fenced then x
    else { x with state := .off, periods := 0, adding := false, duty := 0, onTime := 0, edges := none })) d

/-- Turn the discharge switch of a rail on, where it has one (R180). -/
def dischargeOn (d : Dev) (i : Nat) : Dev :=
  match d.railDsch i with
  | some n => { d.modRail i (fun r => { r with discharge := true }) with
      pwm := { (d.modRail i fun r => { r with discharge := true }).pwm with
        discharge := if d.pwm.discharge.contains n then d.pwm.discharge else sortNat (n :: d.pwm.discharge) } }
  | none => d

/-- Turn the discharge switch of a rail off. -/
def dischargeOff (d : Dev) (i : Nat) : Dev :=
  match d.railDsch i with
  | some n => { d.modRail i (fun r => { r with discharge := false }) with
      pwm := { (d.modRail i fun r => { r with discharge := false }).pwm with
        discharge := d.pwm.discharge.filter (· != n) } }
  | none => d

/-! ### A LOOP's ports (R133, R163, R164, R217) -/

/-- A KIND 1 output of loop `l` replaces the duty of a phase of the rail that names the loop; the unselected loop's is
discarded, and so is any while a phase fires (R163, R164, R172). -/
def phaseOut (d : Dev) (l p : Nat) (v : Int) : Dev :=
  match d.railOfLoop l with
  | some i =>
    if (d.railPhases i).contains p && !d.railFiring i && d.selectedLoop i == l then
      d.modPhase p fun x => { x with kind1 := some v }
    else d
  | none => d

/-- A KIND 2 output of loop `l` reaches rail `i`: from the selected loop it is the demand, discarded while a phase fires
(R163, R164, R172). -/
def demandOut (d : Dev) (i l : Nat) (v : Int) : Dev :=
  if d.live tRail i && (d.railLoops i).contains l && d.selectedLoop i == l && !d.railFiring i then
    d.modRail i fun r => { r with demand := v, lastDemand := v, demandDefaulted := false }
  else d

/-- The value at port `k` of LOOP `l`, without DEFAULTED, reaches the port's target: a phase, the demand of a rail, or the
reference of a channel that names the loop. -/
def portSet (l : Nat) (d : Dev) (k : Nat) : Dev :=
  let ws := (d.slot tLoop l).cfg
  let v := (d.loop l).outs.getD k 0
  let x := lcTarget ws k
  match lcKind ws k with
  | 1 => phaseOut d l x v
  | 2 => demandOut d x l v
  | 3 =>
    if d.live (chanType x) (chanIndex x) && chRefLoop x (d.chanCfg x) == d.handleOf tLoop l then
      d.modChan x fun c => { c with ref := some v }
    else d
  | _ => d

/-- All four ports of LOOP `l` reach their targets. -/
def portsSet (d : Dev) (l : Nat) : Dev := (List.range 4).foldl (portSet l) d

/-- What a LOOP gathers for runs to come is given up: those runs are not performed. -/
def LoopRt.drop (r : LoopRt) : LoopRt :=
  { r with ready := none, awaiting := r.awaiting.map fun s => { s with dead := true } }

/-- A LOOP's state and ports at a start of its owner: the state words are reloaded, its handle is ENABLED (R163). -/
def enableLoop (d : Dev) (l : Nat) (reload : Bool) : Dev :=
  if (d.slot tLoop l).hstate = .fenced then d
  else
    let d := d.modSlot tLoop l fun s => { s with hstate := .enabled }
    d.modLoop l fun r => { r.drop with s := if reload then lcState (d.slot tLoop l).cfg else r.s }

/-- SET_POINTs that wait at a LOOP take effect in both banks and complete (R134). -/
def applySetPoints (d : Dev) (l : Nat) : Dev :=
  let sp := (d.loop l).setPoints
  let d := d.modSlot tLoop l fun s => sp.foldl (fun s p => { s with bankA := setCoef s.bankA p.1 p.2, bankB := setCoef s.bankB p.1 p.2 }) s
  (d.modLoop l fun r => { r with setPoints := [] }).endWaits
    (fun w => w.handle == d.handleOf tLoop l && (match w.kind with | .setPoint _ => true | _ => false))
    fun w => plainCpl .ok w.handle (match w.kind with | .setPoint v => twos 16 v | _ => 0)

/-- A pending swap of a LOOP takes effect; `run` is the first run on the new bank (R142). -/
def swapLoop (d : Dev) (l : Nat) (run : BitVec 32) : Dev :=
  if (d.slot tLoop l).swap then
    let d := d.modSlot tLoop l fun s => { s with activeB := !s.activeB, swap := false }
    (d.modLoop l fun r => { r with lastSwapRun := run }).endWaits
      (fun w => w.kind == WaitKind.swap && w.handle == d.handleOf tLoop l) fun w => plainCpl .ok w.handle run.toNat
  else d

/-- A LOOP is disabled: no run is dispatched, the ports' SAFE values reach their targets, a pending swap takes effect (R133,
R134, R143). -/
def disableLoop (d : Dev) (l : Nat) : Dev :=
  if (d.slot tLoop l).hstate = .fenced then d
  else
    let d := applySetPoints (swapLoop d l ((d.loop l).runs + 1)) l
    let d := d.modSlot tLoop l fun s => { s with hstate := .disabled }
    let d := { d with thr := { d.thr with ready := d.thr.ready.filter (· != LoopId.user l) } }
    portsSet (d.modLoop l fun r => { r.drop with outs := safeOuts (d.slot tLoop l).cfg, outDefaulted := false }) l

/-- The rail's loops are disabled at the end of its stop (R163). -/
def disableRailLoops (d : Dev) (i : Nat) : Dev := (d.railLoops i).foldl disableLoop d

/-- The handle of rail `i`. -/
def Dev.railHandle (d : Dev) (i : Nat) : Word := d.handleOf tRail i

/-- Power-good deasserts (R179). -/
def railPgOff (d : Dev) (i : Nat) : Dev :=
  if (d.rail i).pg then Dev.raise (d.modRail i fun r => { r with pg := false }) 0x0401 0 (d.railHandle i) else d

/-- Whether a rail's gates may switch: STARTING, ON or STOPPING. -/
def RailRun.running : RailRun → Bool
  | .starting => true | .on => true | .stopping => true | _ => false

/-- Entry to FAULTED (R184): gates low, discharge on, power-good deasserts, RAIL_FAULT, the record; a waiting ENABLE
completes with STATE (R193), a waiting set point with ABORTED. -/
def railFault (d : Dev) (i cause pos : Nat) : Dev :=
  let before := (d.rail i).run
  if before.running then
    let d := writeRailRecord d i cause pos before
    let d := railPgOff (dischargeOn (disableRailLoops (gatesLow d i) i) i) i
    let d := d.modRail i fun r =>
      { r with run := .faulted, surge := none, ramping := false, preLeft := 0, limited := false }
    let d := d.raise 0x0402 cause (d.railHandle i)
    let d := d.endKind .enable (d.railHandle i) .state
    d.endWaits (fun w => w.handle == d.railHandle i && (match w.kind with | .setPoint _ => true | _ => false))
      fun w => plainCpl .aborted w.handle 0
  else d

/-! ### Start (R175 to R178) -/

/-- ENABLE of a rail that is OFF: STARTING, its loops enabled with their state reloaded, V_pre to be measured; until its
first run the selected loop's ports hold the values that they last had, SAFE after a stop (R133, R163). -/
def railStart (d : Dev) (i : Nat) : Dev :=
  if (d.rail i).run = .off then
    let d := (d.railLoops i).foldl (fun d l => enableLoop d l true) d
    let d := d.modSlot tRail i fun s => { s with hstate := .enabled }
    let d := d.modRail i fun r =>
      { r with run := .starting, pg := false, light := false, dem := false, demCount := 0, prebiased := false,
               preLeft := 2, preSum := 0, surge := none, surgeEnd := none, dmaxEff := sx 16 (d.railB i 7 16 16),
               limited := false, failAge := none, shedHold := false, fallExpired := false, openLoop := none, isum := [], overOff := 0,
               ref := 0, ramping := false }
    let d := (d.railPhases i).foldl (fun d p => d.modPhase p fun x => { x with kind1 := none }) d
    portsSet d (d.selectedLoop i)
  else d

/-- The preload of R172 in Q1.31: (V + I × R_PATH) / VBUS, between 0 and DMAX; `v` in mV, `iTotal` in 10 mA. -/
def preloadValue (d : Dev) (i : Nat) (v iTotal : Int) : Int :=
  let rpath : Int := bits (d.railW i 24) 0 16
  let vbus := d.railVbus i
  let dmax : Int := sx 16 (d.railB i 7 16 16) * 65536
  -- mV × 100000 + 10 mA × µΩ over 10 mV × 1000000
  if vbus ≤ 0 then dmax
  else min (max (roundOpen ((v * 100000 + iTotal * rpath) * 2 ^ 31) (vbus * 1000000).toNat) 0) dmax

/-- Ask a LOOP for a preload before its next dispatch, where its configuration allows it. -/
def preloadLoop (d : Dev) (l : Nat) (v : Int) : Dev :=
  if lcPreloadEn (d.slot tLoop l).cfg then d.modLoop l fun r => { r with preload := some (lcPreloadI (d.slot tLoop l).cfg, v) }
  else d

/-- V_pre is known: PREBIAS_HIGH, or the reference step or ramp begins and the phases take their refresh (R176 to R178). -/
def railBegin (d : Dev) (i : Nat) (vpre : Int) : Dev :=
  let vset := (d.rail i).vset
  let vfs := bits (d.railW i 7) 16 16
  let ov : Int := d.railB i 1 16 16
  if (vset : Int) * ov < 1000 * vpre then railFault d i 0x0008 0xFF
  else
    let pre := decide ((2 * vset : Int) ≤ 100 * vpre)
    let target := refOf vset vfs
    let start := if pre then refOf vpre.toNat vfs else 0
    let large := d.railLarge i
    let d := d.modRail i fun r =>
      { r with prebiased := pre, dem := large || pre, target := target, ref := if large then start else target,
               ramping := large, step := d.rampStep i vset (bits (d.railW i 25) 0 16) }
    let d := if pre then
        preloadLoop (d.raise 0x0409 (roundOpen vpre 10).toNat (d.railHandle i)) (d.selectedLoop i) (preloadValue d i vpre 0)
      else d
    (d.okPhases i).foldl (fun d p => d.modPhase p fun x => { x with state := .refresh, periods := 0 }) d

/-! ### Stop (R180 to R183) -/

/-- A phase that would enter ACTIVE or FIRING, at `at_` in its own carrier period: with a low bootstrap it takes a refresh
and BOOT_LOW is raised (R169). In FIRING the high side is held on, or off in an overshoot (R171). -/
def enterPhase (d : Dev) (i p : Nat) (st : PhaseState) (at_ : Nat) : Dev :=
  if (d.phase p).bootLow then
    Dev.raiseOnceTurn (((d.tally 43 7 1).tally 43 5 1).modPhase p fun x =>
      { x with state := .refresh, periods := 0, adding := false, duty := 0, onTime := 0, edges := none, entered := at_ })
      (0x0408 * 4096 + p) 0x0408 p (d.railHandle i)
  else if st = .firing then
    d.modPhase p fun x => { x with
      state := .firing, periods := 0, adding := false, duty := 0, edges := none, entered := at_
      onTime := if (d.rail i).surge = some true then 0 else rcPeriod (d.slot tRail i).cfg }
  else d.modPhase p fun x => { x with state := st, periods := 0, adding := false, duty := 0, onTime := 0, edges := none }

/-- The carrier periods of an open-loop stop: RAMP_DOWN × V / VSET, V the output at takeover (R182). -/
def openLoopPeriods (d : Dev) (i : Nat) : Nat :=
  bits (d.railW i 25) 16 16 * 400000 * (d.rail i).vTake.toNat / (max 1 (rcPeriod (d.slot tRail i).cfg) * max 1 (d.rail i).vset)

/-- The Flue falls silent: a running rail keeps its output at the takeover, and a large rail that already stops goes on
open-loop (R182). -/
def railTaken (d : Dev) (i : Nat) : Dev :=
  let d := d.modRail i fun r => { r with vTake := d.railVout i }
  if (d.rail i).run == .stopping && d.railLarge i && !(d.rail i).fallExpired then
    d.modRail i fun r => { r with ramping := false, openLoop := some (0, openLoopPeriods d i) }
  else d

/-- A stop by the rail's own method, from outside or by DISABLE; a waiting ENABLE completes with ABORTED (R547). -/
def railStop (d : Dev) (i : Nat) : Dev :=
  let r := d.rail i
  if r.run = .starting ∨ r.run = .on then
    let d := railPgOff d i
    let d := d.endKind .enable (d.railHandle i) .aborted
    let d := d.endWaits (fun w => w.handle == d.railHandle i && (match w.kind with | .setPoint _ => true | _ => false))
      fun w => plainCpl .aborted w.handle 0
    if d.railLarge i then
      let d := d.modRail i fun r =>
        { r with run := .stopping, surge := none, preLeft := 0, dem := false, target := 0, ramping := !d.plane.takeover
                 openLoop := if d.plane.takeover then some (0, openLoopPeriods d i) else none
                 step := d.rampStep i r.vset (bits (d.railW i 25) 16 16) }
      (d.railPhases i).foldl (fun d p => if (d.phase p).state = .firing then enterPhase d i p .active 0 else d) d
    else
      dischargeOn ((gatesLow d i).modRail i fun r => { r with run := .stopping, surge := none, preLeft := 0 }) i
  else d

/-- The stop has ended: OFF, gates low, the switch off, the loops disabled; what waits for it completes (R180, R181). -/
def railOff (d : Dev) (i : Nat) : Dev :=
  let d := disableRailLoops (dischargeOff (gatesLow d i) i) i
  let d := d.modRail i fun r => { r with run := .off, ramping := false, surge := none, ref := 0, light := false, dem := false }
  elementOff d tRail i 0

/-- RAIL_OFF_REACHED: the output falls below OFF_V. -/
def railOffReached (i : Nat) (d : Dev) : Dev :=
  match (d.rail i).run with
  | .stopping => railOff d i
  | .faulted => dischargeOff d i
  | _ => if (d.rail i).discharge then dischargeOff d i else d

/-- RAIL_STOP_LATE: FALL_TO expires with the output above OFF_V (R183). -/
def railStopLate (i : Nat) (d : Dev) : Dev :=
  let r := d.rail i
  if r.run = .stopping ∧ r.fallExpired = false then
    let d := d.raise 0x0406 (roundOpen (d.railVout i) 10).toNat (d.railHandle i)
    let d := writeRailRecord d i 0x0009 0xFF r.run
    let d := dischargeOn (gatesLow d i) i
    let d := d.modRail i fun r => { r with fallExpired := true, ramping := false }
    let d := d.modSlot tRail i fun s =>
      if s.hstate = .enabled ∧ d.hasWait .disable (d.railHandle i) then { s with hstate := .disabled } else s
    d.endKind .disable (d.railHandle i) .ok
  else d

/-! ### Shedding and adding (R167, R168) -/

/-- The highest or lowest position of a list. -/
def lastPos (ks : List Nat) : Option Nat := ks.getLast?

/-- Shed the highest active position. -/
def shedOne (d : Dev) (i : Nat) : Dev :=
  match lastPos (d.positions i fun p => p.state == .active) with
  | some k => (d.modPhase ((d.railPhases i).getD k 0) fun x => { x with state := .shedding, periods := 0 }).tally 43 3 1
  | none => d

/-- Whether a SHED phase has been so for less than 50 µs: its carrier periods at 250 ps a step (R168). -/
def youngShed (d : Dev) (i : Nat) (x : Phase) : Bool :=
  decide (x.periods * rcPeriod (d.slot tRail i).cfg < 200000)

/-- Add the lowest `n` SHED positions. Where in its carrier period a REFRESH begins is not known here: `entered` 1 makes the
phase wait for its second carrier start, should a Surge come meanwhile (R169). -/
def addPhases (d : Dev) (i n : Nat) : Dev :=
  ((d.positions i fun p => p.state == .shed && !p.adding).take n).foldl (fun d k =>
    let p := (d.railPhases i).getD k 0
    let young := youngShed d i (d.phase p)
    ((d.modPhase p fun x => (
      if young then { x with adding := true } else { x with state := .refresh, periods := 0, entered := 1 })).tally 43 4 1).tally 43 5
        (b2n (!young))) d

/-- The shed and add decision on the averaged current: `isum` is the sum of `len` samples in 10 mA units. A rail that
stops its large ramp sheds on |I| without hold (R167, R181). -/
def shedAdd (d : Dev) (i : Nat) (mayShed : Bool) : Dev :=
  let r := d.rail i
  let n := (d.activePhases i).length
  let coming := (d.positions i fun p => p.adding || p.state == .refresh).length
  let len : Int := max 1 r.isum.length
  let total := sumInt r.isum
  let ip : Int := d.railIrated i
  let add : Int := d.railB i 5 0 8
  let shed : Int := d.railB i 5 8 8
  let minPh := min (bits (d.railW i 6) 16 4) (d.okPhases i).length
  if r.run = .on ∧ r.surge = none then
    let room := (d.okPhases i).length - (n + coming)
    let want := ((List.range (room + 1)).find? fun m =>
      decide (100 * total ≤ add * ((n + coming + m : Nat) : Int) * ip * len)).getD room
    if 0 < want then (addPhases d i want).modRail i fun r => { r with shedHold := true }
    else if mayShed && !r.shedHold && decide (minPh < n) && decide (100 * total < shed * ((n : Int) - 1) * ip * len) then
      (shedOne d i).modRail i fun r => { r with shedHold := true }
    else d
  else if r.run = .stopping && d.railLarge i && decide (minPh < n) &&
      decide (100 * (total.natAbs : Int) < shed * ((n : Int) - 1) * ip * len) then shedOne d i
  else d

/-- A start of the balance generator: the summed current joins the last 8 samples, and phases are shed or added
(R167). -/
def railCurrentSample (d : Dev) (i : Nat) : Dev :=
  let d := d.modRail i fun r => { r with isum := (d.railIsum i :: r.isum).take 8 }
  shedAdd d i true

/-- SHED_HOLD_END. -/
def shedHoldEnd (i : Nat) (d : Dev) : Dev :=
  if (d.rail i).shedHold then shedAdd (d.modRail i fun r => { r with shedHold := false }) i true else d

/-! ### Surge (R170 to R174) -/

/-- The deviation window in 0.1 % of the reference: the bank's, or the profile's (R170). -/
def surgeWindowOf (d : Dev) (i : Nat) : Nat :=
  if d.railB i 9 0 16 = 0 then d.plane.profile.surgeWindow * 10 else d.railB i 9 0 16

/-- The slope threshold in 0.01 % of the reference per µs: the bank's, or the profile's (R170). -/
def surgeSlopeOf (d : Dev) (i : Nat) : Nat :=
  if d.railB i 9 16 16 = 0 then d.plane.profile.surgeSlope * 10 else d.railB i 9 16 16

/-- What the Surge comparator makes of an output in mV and its rate of change in mV/µs: an overshoot (true), an undershoot
(false) or neither; where the output has left the window, that decides (R170). -/
def surgeKind (d : Dev) (i : Nat) (mv slope : Int) : Option Bool :=
  let ref := d.railRefMv i
  let win : Int := surgeWindowOf d i
  let thr : Int := surgeSlopeOf d i
  if 1000 * mv < ref * (1000 - win) then some false
  else if ref * (1000 + win) < 1000 * mv then some true
  else if 10000 * slope < -(ref * thr) then some false
  else if ref * thr < 10000 * slope then some true
  else none

/-- Whether a Surge may be detected at place `pos` of the rail's carrier period: ON, not derated, and one carrier period
after the last Surge has ended (R170, R187). -/
def surgeArmed (d : Dev) (i pos : Nat) : Bool :=
  let r := d.rail i
  r.run == .on && r.surge.isNone && !r.limited && (d.okPhases i).length == (d.railPhases i).length && !d.pwm.vdrvLow &&
    (match r.surgeEnd with
     | none => true
     | some (n, e) => decide (2 ≤ n) || (n == 1 && decide (e ≤ pos)))

/-- The place of phase `p` in its own carrier period when the rail's period stands at `pos` (R154). -/
def ownPlace (d : Dev) (i p pos : Nat) : Nat :=
  let period := max 1 (rcPeriod (d.slot tRail i).cfg)
  (pos + (period - (d.phase p).place % period)) % period

/-- The Surge triggers the injected sequences on the converters where the rail has injected slots (R95). -/
def railUrgent (d : Dev) (i : Nat) : Dev :=
  (List.range 6).foldl (fun d c =>
    if (d.conv c).inj.any fun s => s.owners.contains (slotKey tRail i) then urgentTrigger c (48 + i) d else d) d

/-- SURGE_DETECT: every ready phase fires; a phase SHED for longer takes one refresh pulse and joins (R171, R173). -/
def surgeDetect (i : Nat) (mv slope : Int) (pos : Nat) (d : Dev) : Dev :=
  match surgeKind d i mv slope with
  | none => d
  | some isOver =>
    if surgeArmed d i pos then
      let d := d.modRail i fun r =>
        { r with surge := some isOver, surgeWin := surgeWindowOf d i, surgesTurn := r.surgesTurn + 1, dem := false, demCount := 0 }
      let d := (d.railPhases i).foldl (fun d p =>
        let own := ownPlace d i p pos
        match (d.phase p).state with
        | .active => enterPhase d i p .firing own
        | .shedding => enterPhase d i p .firing own
        | .shed => if youngShed d i (d.phase p) then enterPhase d i p .firing own
                   else d.modPhase p fun x => { x with state := .refresh, periods := 0, adding := false, entered := own }
        | _ => d) d
      railUrgent (d.tally 43 1 1) i
    else d

/-- A phase's firing ends: ACTIVE on its carrier. When none fires the Surge ends at place `pos` of the rail's period, the
selected loop is preloaded and phases are added without hold (R170, R172). -/
def phaseFireEnd (d : Dev) (i p pos : Nat) : Dev :=
  let d := enterPhase d i p .active 0
  if d.railFiring i then d
  else
    let d := d.modRail i fun r => { r with surge := none, surgeEnd := some (0, pos) }
    let d := preloadLoop d (d.selectedLoop i) (preloadValue d i (d.rail i).vset (d.railIsum i))
    shedAdd d i false

/-- Whether a phase has fired, or waited in REFRESH, for `n` carrier periods when it stands at `own` in its period: its
carrier starts since the entry are counted (R171, R173). -/
def Phase.lasted (x : Phase) (n own : Nat) : Bool := decide (n < x.periods) || (x.periods == n && decide (x.entered ≤ own))

/-- FIRING_END: the output is back inside half the window, or the phase's bound of 2 carrier periods has come (R172). -/
def firingEnd (p : Nat) (mv : Int) (pos : Nat) (d : Dev) : Dev :=
  match (d.phase p).state, (d.phase p).owner with
  | .firing, some key =>
    let i := key % 4096
    if 2000 * ((mv - d.railRefMv i).natAbs : Int) ≤ d.railRefMv i * ((d.rail i).surgeWin : Int) ||
        (d.phase p).lasted 2 (ownPlace d i p pos) then
      phaseFireEnd d i p pos
    else d
  | _, _ => d

/-! ### Carrier periods (R150 to R155, R163, R168, R169, R187) -/

/-- The duty of an active phase (R163). -/
def phaseDuty (d : Dev) (i p : Nat) : Int :=
  let r := d.rail i
  let x := d.phase p
  let raw := match x.kind1 with | some v => v | none => r.demand + x.trim / 65536
  let duty := min (max raw 0) r.dmaxEff
  let duty := match r.openLoop with
    | some (k, n) => duty * (n - min k n : Nat) / max 1 n
    | none => duty
  if x.state = .shedding then duty * (4 - (min 4 x.periods : Nat)) / 4 else duty

/-- The on-time of a duty in 250 ps steps: rounded, omitted below 20 ns, in FCCM at most the period minus 40 ns; none while
the bootstrap is low (R151, R153). -/
def onTimeOf (d : Dev) (i p : Nat) (duty : Int) : Nat :=
  let period := rcPeriod (d.slot tRail i).cfg
  let t := (roundHalfUp (max 0 duty * period) 32768).toNat
  let t := if (d.rail i).dem then t else min t (period - 160)
  if t < 80 ∨ (d.phase p).bootLow = true then 0 else t

/-- EDGE (Table 6.1). -/
def Dev.railEdge (d : Dev) (i : Nat) : Nat := bits (d.railW i 0) 4 2

/-- A dead time in 250 ps steps: values below 5 ns act as 5 ns (R150). -/
def deadTime (v : Nat) : Nat := max 20 v

/-- The gate edges of an on-time (R150, Table 6.1): the low side turns on DT_HL after the high side is off, and off DT_LH
before the high side is on. -/
def gateEdges (d : Dev) (i onTime : Nat) : Option GateEdges :=
  let period := max 1 (rcPeriod (d.slot tRail i).cfg)
  let on := match d.railEdge i with
    | 0 => 0
    | 1 => period - onTime
    | _ => period / 2 - onTime / 2
  if onTime = 0 then none
  else some
    { hiOn := on, hiOff := on + onTime
      loOn := (on + onTime + deadTime (bits (d.railW i 26) 16 8)) % period
      loOff := (on + period - deadTime (bits (d.railW i 26) 24 8) % period) % period }

/-- The on-time that stands once a duty word arrives at `own` of the carrier period, where `cur` was loaded and the word
gives `new` (Table 6.1): the word counts if it comes at least 10 ns (40 steps) before the edge that it defines; where that
edge has already passed, a trailing-edge phase turns off at once and a leading-edge pulse is omitted. A phase makes one
pulse a period, so one that has ended, or in LE has begun, is not changed. -/
def wordTaken (edge period own cur new : Nat) : Nat :=
  match edge with
  | 0 => if cur ≤ own then cur else if own + 40 ≤ new then new else if new ≤ own then own else cur
  | 1 => if period ≤ own + cur then cur else if own + 40 + new ≤ period then new
         else if period ≤ own + new then 0 else cur
  | _ => cur

/-- The duty words of rail `i`'s phases change at place `pos` of its carrier period (R153). -/
def wordsArrive (d : Dev) (i pos : Nat) : Dev :=
  (d.railPhases i).foldl (fun d p =>
    let x := d.phase p
    if x.state = .active ∨ x.state = .shedding then
      let duty := phaseDuty d i p
      let new := onTimeOf d i p duty
      let t := wordTaken (d.railEdge i) (rcPeriod (d.slot tRail i).cfg) (ownPlace d i p pos) x.onTime new
      if t = x.onTime then d
      else d.modPhase p fun x => { x with duty := if t = new then duty else x.duty, onTime := t, edges := gateEdges d i t }
    else d) d

/-- The carrier place of a position (R154): evenly spaced, or with RESPACE over the non-fenced active phases. A carrier in
use moves at most PERIOD / 16 a period; `joins` says that the phase was not switching, and takes its place at once. -/
def nextPlace (d : Dev) (i k : Nat) (joins : Bool) : Nat :=
  let ws := (d.slot tRail i).cfg
  let period := max 1 (rcPeriod ws)
  let off := field ws 10 16 16
  let p := (d.railPhases i).getD k 0
  let target := if bit (word ws 0) 7 then
      let act := d.positions i fun x => x.state.isActive
      let rank := (act.filter fun j => decide (j < k)).length
      (off + (roundHalfUp ((rank * period : Nat) : Int) (max 1 act.length)).toNat) % period
    else (off + (roundHalfUp ((k * period : Nat) : Int) (max 1 (rcNph ws))).toNat) % period
  let cur := (d.phase p).place
  if joins then target
  else if cur ≤ target then min target (cur + period / 16) else max target (cur - period / 16)

/-- A hundred times the current above which a rail is current-limited, in 10 mA units: n_ok × I_PH, or
NPH × THR_PCT / 100 × I_PH where that is less under a Kiln throttle (R187, R372). -/
def railLimit (d : Dev) (i : Nat) : Int :=
  (min ((d.okPhases i).length * 100) ((d.railPhases i).length * (d.rail i).throttlePct) * d.railIrated i : Nat)

/-- Whether START_ILIM stands for ILIM_PK: a small rail before power-good (R177). -/
def startLimited (d : Dev) (i : Nat) : Bool := (d.rail i).run == .starting && !d.railLarge i

/-- The peak current limit in force, in 10 mA units: ILIM_PK or START_ILIM (R171, R177). -/
def peakLimit (d : Dev) (i : Nat) : Nat := if startLimited d i then d.railB i 4 16 16 else d.railB i 4 0 16

/-- Whether the low sides turn off at -I_NEG: in the ramp down of a large rail, and in an overshoot Surge (R171, R181). -/
def negLimited (d : Dev) (i : Nat) : Bool :=
  (d.rail i).surge == some true || ((d.rail i).run == .stopping && d.railLarge i)

/-- Whether the conditions of an open phase hold in this period (R185). -/
def openNow (d : Dev) (i k : Nat) : Bool :=
  let x := d.phase ((d.railPhases i).getD k 0)
  (d.rail i).run == .on && x.state == .active && decide (65536 ≤ 100 * x.duty) &&
    decide (25 * (d.railIrated i : Int) * (d.activePhases i).length ≤ 100 * d.railIsum i) &&
    decide (100 * (d.railIph i k).natAbs < d.railB i 8 0 8 * d.railIrated i)

/-- Whether the conditions of a failed current sense hold in this period (R186). -/
def senseNow (d : Dev) (i k : Nat) : Bool :=
  let x := d.phase ((d.railPhases i).getD k 0)
  let ks := d.positions i fun y => y.state == .active || y.state == .firing
  let sum := sumInt (ks.map (d.railIph i))
  x.state == .active && (bit (d.fsLast (rqInput (d.railW i (11 + k)))) 16 ||
    (x.trim.natAbs == (sx 16 (d.railB i 7 0 16)).natAbs * 65536 &&
      decide (d.railB i 8 8 8 * d.railIrated i * ks.length < 100 * (d.railIph i k * (ks.length : Int) - sum).natAbs)))

/-- What the comparators and the latest samples say of the carrier period that ended: `iMax` and `iMin` are the extremes of
the phase's current in 10 mA units (R171, R177, R181, R184 to R186). -/
def phaseWatch (d : Dev) (i k p : Nat) (iMax iMin : Int) : Dev :=
  let neg := negLimited d i && decide (iMin ≤ -(d.railB i 8 16 16 : Int))
  let peak := decide ((peakLimit d i : Int) ≤ iMax) && (d.phase p).onTime != 0
  let ocp := peak && (d.rail i).surge.isNone && !startLimited d i
  let opn := openNow d i k
  let sense := senseNow d i k
  d.modPhase p fun x => { x with
    atPeak := peak, atNeg := neg, peaks := if ocp then x.peaks + 1 else 0
    openCount := if opn then x.openCount + 1 else 0, senseCount := if sense then x.senseCount + 1 else 0 }

/-- The selected loop of a running rail is fenced, so its demand is DEFAULTED (R188). -/
def loopLost (d : Dev) (i : Nat) : Bool :=
  (d.rail i).run.running && (d.slot tLoop (d.selectedLoop i)).hstate == .fenced

/-- One carrier period of a rail, at position 0: diode emulation, DMAX_eff, the time since a Surge, an open-loop stop
(R155, R170, R182, R187). -/
def railPeriod (d : Dev) (i : Nat) : Dev :=
  let r := d.rail i
  let n := (d.activePhases i).length
  let minPh := min (bits (d.railW i 6) 16 4) (d.okPhases i).length
  let isum := d.railIsum i
  let entry : Int := d.railB i 10 0 8 * d.railIrated i * minPh
  let auto := bit (d.railW i 0) 6
  let low := auto && n == minPh && decide (100 * isum < entry) && r.run == .on && !r.dem
  let dem := if r.run = .on ∧ r.prebiased = false then
      (if r.dem then auto && decide (100 * isum ≤ 2 * entry) else low && decide (7 ≤ r.demCount)) else r.dem
  let dmax : Int := sx 16 (d.railB i 7 16 16)
  let derated := decide ((d.okPhases i).length < (d.railPhases i).length) || decide (r.throttlePct < 100)
  let lim := railLimit d i
  let eff := if r.run.running && (derated || r.limited) then
      (if lim < 100 * isum then max 0 (min dmax r.dmaxEff - 64)
       else if 10000 * isum < 98 * lim then min dmax (r.dmaxEff + 64) else min dmax r.dmaxEff)
    else dmax
  let entered := !r.limited && decide (eff < dmax)
  let young := match r.failAge with
    | some a => decide (a * rcPeriod (d.slot tRail i).cfg < 4000000) | none => false
  let d := d.modRail i fun r =>
    { r with dem := dem, demCount := if low && !dem then r.demCount + 1 else 0, dmaxEff := eff, limited := decide (eff < dmax)
             surgeEnd := match r.surgeEnd with | some (m, e) => if 2 ≤ m then none else some (m + 1, e) | none => none
             failAge := r.failAge.map (· + 1)
             openLoop := r.openLoop.map fun p => (p.1 + 1, p.2) }
  if entered && !young then writeRailRecord d i 0x0006 0xFF r.run else d

/-- A phase at its carrier start: what its state waits for comes (Table 6.6). -/
def phaseStep (d : Dev) (i p : Nat) : Dev :=
  let d := d.modPhase p fun x => { x with periods := x.periods + 1 }
  match (d.phase p).state with
  | .refresh =>
    if (d.rail i).surge.isNone then enterPhase d i p .active 0
    else if (d.phase p).lasted 1 0 then enterPhase d i p .firing 0 else d
  | .shed => if (d.phase p).adding then enterPhase d i p .active 0 else d
  | .firing => if (d.phase p).lasted 2 0 then phaseFireEnd d i p (d.phase p).place else d
  | _ => d

/-- A phase that switches loads its duty word and its edges (R153, R163). -/
def phaseLoad (d : Dev) (i p : Nat) : Dev :=
  if (d.phase p).state = .active ∨ (d.phase p).state = .shedding then
    let duty := phaseDuty d i p
    let t := onTimeOf d i p duty
    d.modPhase p fun x => { x with duty := duty, onTime := t, edges := gateEdges d i t }
  else d

/-- CARRIER_START of a phase. -/
def carrierStart (p : Nat) (iMax iMin : Int) (d : Dev) : Dev :=
  match (d.phase p).owner with
  | none => d
  | some key =>
    let i := key % 4096
    let k := (d.railPhases i).idxOf p
    let d := (d.tally 43 0 1).tally 43 2 (b2n ((d.phase p).state == .firing))
    let d := phaseWatch d i k p iMax iMin
    let d := if k = 0 then railPeriod d i else d
    if loopLost d i then railFault (d.modRail i fun r => { r with demandDefaulted := true }) i 0x0007 0xFF
    else if (d.rail i).run.running = false ∨ d.pwm.vdrvLow = true then d
    else
      let joins := match (d.phase p).state with | .off => true | .refresh => true | .shed => true | _ => false
      let d := phaseStep d i p
      let place := nextPlace d i k joins
      phaseLoad (d.modPhase p fun x => { x with place := place }) i p

/-- SHEDDING_END: after 4 carrier periods, SHED (R168). -/
def sheddingEnd (p : Nat) (d : Dev) : Dev :=
  if (d.phase p).state = .shedding ∧ 4 ≤ (d.phase p).periods then
    d.modPhase p fun x => { x with state := .shed, periods := 0, duty := 0, onTime := 0, edges := none }
  else d

/-- VDRV_UV: every gate low, running rails fault with DRIVE_SUPPLY (R151). -/
def vdrvUv (d : Dev) : Dev :=
  let d := { d with pwm := { d.pwm with vdrvLow := true } }
  (d.liveIndices tRail).foldl (fun d i => railFault d i 0x000C 0xFF) d

/-- PHASE_FAILURE: the conditions of R185, or of R186, have held for 8 carrier periods; the phase is fenced and the rail
derated (R187). -/
def phaseFailure (i pos : Nat) (sense : Bool) (d : Dev) : Dev :=
  let p := (d.railPhases i).getD pos 0
  let x := d.phase p
  if x.state = .active ∧ pos < (d.railPhases i).length ∧ 8 ≤ (if sense then x.senseCount else x.openCount) ∧
      (sense = true ∨ (d.rail i).run = .on) then
    let cause := if sense then 0x0005 else 0x0004
    let d := d.modPhase p fun x => { x with state := .fenced, duty := 0, onTime := 0, edges := none, adding := false }
    let d := { d with thr := { d.thr with ready := d.thr.ready.filter (· != LoopId.balance i pos) } }
    let nok := (d.okPhases i).length
    let d := d.raise 0x0404 (p + cause * 256) (d.railHandle i)
    let d := d.raise 0x0403 nok (d.railHandle i)
    let d := writeRailRecord d i cause pos (d.rail i).run
    let d := d.modRail i fun r => { r with failAge := some 0 }
    if nok = 0 then railFault d i cause pos else d
  else d

/-! ### Power-good (R179) -/

/-- Whether the output lies in the power-good window of the present reference. -/
def inPgWindow (d : Dev) (i : Nat) : Bool :=
  let v := 1000 * d.railVout i
  let ref := d.railRefMv i
  decide ((d.railB i 0 0 16 : Int) * ref ≤ v) && decide (v ≤ (d.railB i 0 16 16 : Int) * ref)

/-- RAIL_PG_CONFIRM: the window was kept for PG_CONFIRM, and the latest sample lies in it. -/
def railPgConfirm (i : Nat) (d : Dev) : Dev :=
  let r := d.rail i
  if !inPgWindow d i then d
  else if r.run = .starting ∧ r.preLeft = 0 ∧ r.ramping = false then
    let d := d.modRail i fun r => { r with run := .on, pg := true, dem := false, prebiased := false }
    let d := d.raise 0x0401 1 (d.railHandle i)
    d.endKind .enable (d.railHandle i) .ok
  else if r.run = .on ∧ r.pg = false then
    Dev.raise (d.modRail i fun r => { r with pg := true }) 0x0401 1 (d.railHandle i)
  else d

/-- A sample of the output of rail `i` (R176, R179, R181, R183): V_pre, the end of the pre-bias hold, power-good lost,
backfeed of an OFF rail. -/
def railVoutSample (d : Dev) (i : Nat) : Dev :=
  let r := d.rail i
  let v := d.railVout i
  match r.run with
  | .starting =>
    if r.preLeft = 0 then
      if r.prebiased ∧ d.railRefMv i * (d.railB i 0 0 16 : Int) ≤ 1000 * v then
        d.modRail i fun r => { r with prebiased := false, dem := d.railLarge i }
      else d
    else
      let d := d.modRail i fun r => { r with preLeft := r.preLeft - 1, preSum := r.preSum + v }
      if (d.rail i).preLeft = 0 then railBegin d i (roundOpen (d.rail i).preSum 2) else d
  | .on => if r.pg && !inPgWindow d i then railPgOff d i else d
  | .off =>
    let level : Int := ((d.railB i 2 0 16 + 20) * r.vset : Nat)
    let isOver := decide (level < 1000 * v)
    let d := d.modRail i fun r => { r with overOff := if isOver then r.overOff + 1 else 0 }
    if 2 ≤ (d.rail i).overOff then
      d.raiseOnceTurn (0x0407 * 4096 + i) 0x0407 (roundOpen v 10).toNat (d.railHandle i)
    else d
  | _ => d

/-! ### The demand of a rail's loops (R163 to R165, R188) -/

/-- Whether the LIGHT loop is wanted (R164). -/
def lightWanted (d : Dev) (i : Nat) : Bool :=
  d.railW i 5 != 0 && (decide ((d.activePhases i).length ≤ bits (d.railW i 6) 9 4) || (d.rail i).dem)

/-- Of the phases' KIND 1 values only those stay that the incoming loop `l` writes too (R163, R164). -/
def keepKind1 (d : Dev) (i l : Nat) : Dev :=
  let ws := (d.slot tLoop l).cfg
  (d.railPhases i).foldl (fun d p =>
    if (List.range 4).any fun k => lcKind ws k == 1 && lcTarget ws k == p then d
    else d.modPhase p fun x => { x with kind1 := none }) d

/-- At a dispatch of loop `l` of rail `i`: the selection may pass to it, with the outgoing demand as its preload
(R164), and the ramp and the reference advance (R165, R181). -/
def railAtDispatch (d : Dev) (i l : Nat) : Dev :=
  let isLight := d.railW i 5 != 0 && l == hIndex (d.railW i 5)
  let d := if lightWanted d i == isLight && (d.rail i).light != isLight && (d.slot tLoop l).hstate != .fenced then
      (keepKind1 (preloadLoop d l ((d.rail i).lastDemand * 65536)) i l).modRail i fun r => { r with light := isLight }
    else d
  let r := d.rail i
  if l == hIndex (d.railW i 4) && r.ramping then
    let lag := r.run == .stopping && decide ((5 * r.vset : Int) < 100 * (d.railVout i - d.railRefMv i))
    let next := if r.ref ≤ r.target then min r.target (r.ref + r.step) else max r.target (r.ref - r.step)
    let ref := if lag then r.ref else next
    let d := d.modRail i fun r => { r with ref := ref, ramping := ref != r.target }
    if ref = r.target ∧ r.run = .on then
      d.endWaits (fun w => w.handle == d.railHandle i && (match w.kind with | .setPoint _ => true | _ => false))
        fun w => plainCpl .ok w.handle (match w.kind with | .setPoint v => v.toNat | _ => 0)
    else d
  else d

/-- The reference is written into REF_K of both banks of a named loop, between runs (R165). -/
def writeReference (d : Dev) (i l : Nat) : Dev :=
  let k := bits (d.railW i 6) 0 9
  let v := (d.rail i).ref15
  d.modSlot tLoop l fun s => { s with bankA := setCoef s.bankA k v, bankB := setCoef s.bankB k v }

/-- A KIND 2 output of loop `l` reaches rail `i`; a DEFAULTED demand of the selected loop faults the rail with LOOP_LOST
(R163, R164, R188). -/
def railDemand (d : Dev) (i l : Nat) (v : Int) (defaulted : Bool) : Dev :=
  if !defaulted then demandOut d i l v
  else if d.live tRail i && (d.railLoops i).contains l && d.selectedLoop i == l then
    railFault (d.modRail i fun r => { r with demandDefaulted := true }) i 0x0007 0xFF
  else d

/-- One run of the balance loop of position `k` (R166). -/
def balanceRun (d : Dev) (i k : Nat) : Dev :=
  let p := (d.railPhases i).getD k 0
  let x := d.phase p
  if x.state = .active then
    let pos := d.positions i fun y => y.state == .active || y.state == .firing
    let val (j : Nat) : Int := fsVal (d.fsLast (rqInput (d.railW i (11 + j))))
    let mean := roundOpen (sumInt (pos.map val)) (max 1 pos.length)
    let g := sx 16 (d.railB i 6 0 16)
    let m := d.railB i 6 16 4
    let lim := sx 16 (d.railB i 7 0 16) * 65536
    d.modPhase p fun x => { x with trim := clampInt (-lim) lim (x.trim + g * (mean - val k) * 2 / 2 ^ m) }
  else d

/-! ### Commands of this chapter -/

/-- CARRIER_START, with the extremes of the phase's current in the period that ended. -/
def execCarrierStart (phase : Nat) (iMax iMin : Int) (s : State) : Out :=
  s.onDevAt 48 phase fun _ d => carrierStart phase iMax iMin d
/-- SHEDDING_END. -/
def execSheddingEnd (phase : Nat) (s : State) : Out := s.onDevAt 48 phase fun _ d => sheddingEnd phase d
/-- SHED_HOLD_END. -/
def execShedHoldEnd (rail : Nat) (s : State) : Out := s.onDevAt 24 rail fun _ d => shedHoldEnd rail d
/-- BOOTSTRAP_UV: the bootstrap crosses 7.0 V falling or 7.5 V rising (R151). -/
def execBootstrapUv (phase : Nat) (low : Bool) (s : State) : Out :=
  s.onDevAt 48 phase fun _ d => d.modPhase phase fun x => { x with bootLow := low }
/-- VDRV_UV. -/
def execVdrvUv (s : State) : Out := s.onDev fun _ d => vdrvUv d
/-- VDRV_UV_RELEASE. -/
def execVdrvUvRelease (s : State) : Out := s.onDev fun _ d => { d with pwm := { d.pwm with vdrvLow := false } }
/-- SURGE_DETECT: what the comparator sees, and where the rail's carrier period stands. -/
def execSurgeDetect (rail : Nat) (mv slope : Int) (pos : Nat) (s : State) : Out :=
  s.onDevAt 24 rail fun _ d => surgeDetect rail mv slope pos d
/-- FIRING_END. -/
def execFiringEnd (phase : Nat) (mv : Int) (pos : Nat) (s : State) : Out :=
  s.onDevAt 48 phase fun _ d => firingEnd phase mv pos d
/-- RAIL_PG_CONFIRM. -/
def execRailPgConfirm (rail : Nat) (s : State) : Out := s.onDevAt 24 rail fun _ d => railPgConfirm rail d
/-- RAIL_START_TIMEOUT: no power-good within the bound (R179). -/
def execRailStartTimeout (rail tick : Nat) (s : State) : Out :=
  s.onDevAt 24 rail fun _ d => d.atTick tick fun d =>
    if (d.rail rail).run = .starting then railFault d rail 0x0002 0xFF else d
/-- RAIL_OV: the comparator trips on a running rail (R184). -/
def execRailOv (rail tick : Nat) (s : State) : Out :=
  s.onDevAt 24 rail fun _ d => d.atTick tick fun d => railFault d rail 0x0001 0xFF
/-- Whether the latest sample of an ON rail lies below reference × UV_TRIP (Table 6.11). -/
def railUnder (d : Dev) (i : Nat) : Bool :=
  (d.rail i).run == .on && decide (1000 * d.railVout i < d.railRefMv i * (d.railB i 1 0 16 : Int))
/-- RAIL_UV_TIME: below UV_TRIP for UV_TIME while ON (R184). -/
def execRailUvTime (rail tick : Nat) (s : State) : Out :=
  s.onDevAt 24 rail fun _ d => d.atTick tick fun d => if railUnder d rail then railFault d rail 0x0002 0xFF else d
/-- Whether the phase at position `pos` has ended OCP_CYCLES consecutive periods at ILIM_PK, outside a Surge (Table 6.11). -/
def phaseOcp (d : Dev) (i pos : Nat) : Bool :=
  (d.rail i).surge.isNone && decide (pos < (d.railPhases i).length) &&
    decide (max 1 (d.railB i 3 16 16) ≤ (d.phase ((d.railPhases i).getD pos 0)).peaks)
/-- RAIL_OCP (R184). -/
def execRailOcp (rail pos tick : Nat) (s : State) : Out :=
  s.onDevAt 24 rail fun _ d => d.atTick tick fun d => if phaseOcp d rail pos then railFault d rail 0x0003 pos else d
/-- PHASE_FAILURE. -/
def execPhaseFailure (rail pos : Nat) (sense : Bool) (tick : Nat) (s : State) : Out :=
  s.onDevAt 24 rail fun _ d => d.atTick tick (phaseFailure rail pos sense)

end Sys2Proof.Machine
end

