-- ==== Sys2Proof/Machine/Chan.lean ====
section
/-! DEFINITION. What feeds and prime branches share (R209 to R213, R217, R218, R231, R232, R239): access, measured values,
attempts, faults, stops, metering. A channel number below 40 is a feed, 40 to 43 a branch. -/

namespace Sys2Proof.Machine

/-- The current input of a channel (Tables 4.2, 7.1, 8.1). -/
def curInput (c : Nat) : Nat := if c < 40 then 96 + 16 * (c / 8) + 2 * (c % 8) else 176 + (c - 40)
/-- The voltage input of a channel. -/
def volInput (c : Nat) : Nat := if c < 40 then 97 + 16 * (c / 8) + 2 * (c % 8) else 180 + (c - 40)
/-- The converter of a channel. -/
def chanConv (c : Nat) : Nat := if c < 40 then 6 + c / 8 else 11

/-- The channel of a current input. -/
def chanOfCurrent (input : Nat) : Option Nat :=
  if 96 ≤ input ∧ input < 176 ∧ input % 2 = 0 then some ((input - 96) / 16 * 8 + (input - 96) % 16 / 2)
  else if 176 ≤ input ∧ input < 180 then some (input - 176 + 40) else none
/-- The channel of a voltage input. -/
def chanOfVoltage (input : Nat) : Option Nat :=
  if 96 ≤ input ∧ input < 176 ∧ input % 2 = 1 then some ((input - 96) / 16 * 8 + (input - 96) % 16 / 2)
  else if 180 ≤ input ∧ input < 184 then some (input - 180 + 40) else none

/-- IMEAS of a configuration. -/
def chImeas (c : Nat) (ws : List Word) : Word := word ws (if c < 40 then 5 else 4)
/-- VMEAS. -/
def chVmeas (c : Nat) (ws : List Word) : Word := word ws (if c < 40 then 6 else 5)
/-- INJ_I. -/
def chInjI (c : Nat) (ws : List Word) : Word := word ws (if c < 40 then 7 else 6)
/-- INJ_V. -/
def chInjV (c : Nat) (ws : List Word) : Word := word ws (if c < 40 then 8 else 7)
/-- GEN. -/
def chGenDef (c : Nat) (ws : List Word) : Word := word ws (if c < 40 then 9 else 8)
/-- R_SHUNT in µΩ. -/
def chShunt (ws : List Word) : Nat := field ws 1 0 16
/-- V_FS in 10 mV units. -/
def chVfs (ws : List Word) : Nat := field ws 1 16 16
/-- The span of a differential mode in µV (Table 4.4). -/
def spanUv (w : Word) : Nat := [100000, 50000, 25000].getD (rqSpan w) 100000
/-- Whether a current in mA is at most a percentage of the sense span. -/
def spanAtMost (c : Nat) (ws : List Word) (mA pct : Nat) : Bool :=
  decide (mA * chShunt ws * 100 ≤ spanUv (chImeas c ws) * 1000 * pct)
/-- Whether a current in mA is at least a percentage of the sense span. -/
def spanAtLeast (c : Nat) (ws : List Word) (mA pct : Nat) : Bool :=
  decide (spanUv (chImeas c ws) * 1000 * pct ≤ mA * chShunt ws * 100)

/-! ### Measured values -/

/-- A current result in units of 1/`perAmp` A. -/
def currentOf (d : Dev) (c perAmp : Nat) (val : Int) : Int :=
  let ws := d.chanCfg c
  roundOpen (val * spanUv (chImeas c ws) * perAmp) (32768 * max 1 (chShunt ws))

/-- The unit of a channel's current fields: mA for a feed, 10 mA for a branch (R219, R246). -/
def perAmp (c : Nat) : Nat := if c < 40 then 1000 else 100

/-- A voltage result in 10 mV units. -/
def voltageOf (d : Dev) (c : Nat) (val : Int) : Int := roundOpen (val * chVfs (d.chanCfg c)) 32768

/-- The latest voltage in 10 mV units, as a 16-bit field. -/
def Dev.chanVolt16 (d : Dev) (c : Nat) : Nat := fitU 16 (voltageOf d c (fsVal (d.fsLast (volInput c))))

/-- Whether a current result exceeds a current in mA given as a fraction. -/
def currentAbove (d : Dev) (c : Nat) (val : Int) (mA : Nat × Nat) : Bool :=
  let ws := d.chanCfg c
  decide ((mA.1 * 32768 * chShunt ws : Int) < val * spanUv (chImeas c ws) * 1000 * mA.2)

/-- The limit ILIM_eff in mA as a fraction: a reference loop and a Kiln throttle can only lower it, and the lower of the
two applies (R217, R232, R372). -/
def ilimEff (d : Dev) (c ilimMa : Nat) : Nat × Nat :=
  let x := d.chan c
  let ref := match x.ref with | some v => (clampInt 0 32768 v).toNat | none => 32768
  (ilimMa * min (x.throttlePct * 32768) (ref * 100), 3276800)

/-- The bank's current limit in mA: ILIM of a feed (default 2,000), ILIM_START of a branch (default 200 × 100 mA). -/
def Dev.chanIlim (d : Dev) (c : Nat) : Nat :=
  let s := d.chanSlot c
  if c < 40 then (if bits (s.bankW 0) 0 16 = 0 then 2000 else bits (s.bankW 0) 0 16)
  else (if bits (s.bankW 2) 0 16 = 0 then 200 else bits (s.bankW 2) 0 16) * 100

/-- RETRIES of the active bank, taken as written. -/
def Dev.chanRetries (d : Dev) (c : Nat) : Nat :=
  let s := d.chanSlot c
  if c < 40 then bits (s.bankW 5) 0 4 else bits (s.bankW 4) 0 4

/-- RETRY_DELAY in turns, default 50 for a feed and 500 for a branch. -/
def Dev.chanRetryTurns (d : Dev) (c : Nat) : Nat :=
  let v := bits ((d.chanSlot c).bankW (if c < 40 then 5 else 4)) 16 16
  if v = 0 then (if c < 40 then 50 else 500) else v

/-- RETRY_CLEAR in turns, default 3,000. -/
def Dev.chanRetryClear (d : Dev) (c : Nat) : Nat :=
  let s := d.chanSlot c
  let v := if c < 40 then bits (s.bankW 6) 0 16 else bits (s.bankW 5) 16 16
  if v = 0 then 3000 else v

/-- The energy of one current sample in 2^-16 µJ: I × V × Δt, Δt in starts of the IMEAS generator (R218). -/
def sampleEnergy (d : Dev) (c : Nat) (i v : Int) (starts : Nat) : Int :=
  let ws := d.chanCfg c
  let p := d.genPeriod (rqTrig (chImeas c ws))
  roundOpen (i * spanUv (chImeas c ws) * v * chVfs ws * starts * p.1 * 64)
    (100000 * max 1 (chShunt ws) * 2 ^ 30 * max 1 p.2)

/-- Whether `n` starts of the IMEAS generator last at least `us` µs. -/
def startsReach (d : Dev) (c n us : Nat) : Bool :=
  let p := d.genPeriod (rqTrig (chImeas c (d.chanCfg c)))
  decide (us * 1024000 * p.2 ≤ n * p.1)

/-! ### Run states -/

/-- Whether a gate is on. -/
def ChanRun.gateOn : ChanRun → Bool
  | .precharge => true | .ramp => true | .on => true | .limiting => true | _ => false

/-- Codes of Tables 7.4 and 8.4. -/
def ChanRun.code : ChanRun → Nat
  | .off => 0 | .precharge => 1 | .ramp => 2 | .on => 3 | .limiting => 4 | .bleed => 5 | .opening => 5 | .wait => 6
  | .lockout => 7

/-- The run state in which a condition is found: that before a fault whose record is not complete, else the present
one (R210). -/
def Chan.effRun (x : Chan) : ChanRun := if x.causes.isEmpty then x.run else x.before

/-- The FENCED cause of a channel. -/
def causeFenced (c : Nat) : Nat := if c < 40 then 0x000A else 0x0009
/-- The SITTER cause. -/
def causeSitter (c : Nat) : Nat := if c < 40 then 0x000B else 0x000A
/-- Event codes of a channel: PG, fault and lockout. -/
def chanEvent (c k : Nat) : Nat := (if c < 40 then 0x0500 else 0x0600) + k

/-- Power-good deasserts (R203, R232). -/
def chanPgOff (d : Dev) (c : Nat) : Dev :=
  if (d.chan c).pg then
    Dev.raise (d.modChan c fun x => { x with pg := false, pgWhole := false }) (chanEvent c 1) 0 (d.chanHandle c)
  else d

/-- Power-good asserts. -/
def chanPgOn (d : Dev) (c : Nat) : Dev :=
  if (d.chan c).pg then d
  else (Dev.raise (d.modChan c fun x => { x with pg := true }) (chanEvent c 1) 1 (d.chanHandle c)).endEnables
    (d.chanHandle c) .ok

/-- HSTATE codes (Tables 7.15, 8.14). -/
def HState.code : HState → Nat
  | .disabled => 0 | .enabled => 1 | .fenced => 2

/-! ### Attempts (R201, R211, R213, R231) -/

/-- An attempt begins: a feed pre-charges, a branch ramps. -/
def chanAttempt (d : Dev) (c : Nat) : Dev :=
  let d := d.modChan c fun x =>
    { x with run := if c < 40 then .precharge else .ramp, wantStart := false, waitSitter := false, stopping := false
             attemptPeak := none, retryDue := false, onsets := { power := x.onsets.power } }
  d.endKind .enableStart (d.chanHandle c) .ok

/-- A wanted attempt begins as soon as no backfeed, no tripped Sitter and, from WAIT, no takeover stands against it
(R213, Tables 7.13, 8.12). -/
def chanTry (d : Dev) (c : Nat) : Dev :=
  let x := d.chan c
  if x.wantStart && !x.backfeed && !d.sitter && !(d.plane.takeover && x.run == .wait) &&
      (x.run == .off || x.run == .wait || x.run == .lockout) then chanAttempt d c
  else d

/-- Ask for an attempt. -/
def chanWant (d : Dev) (c : Nat) : Dev := chanTry (d.modChan c fun x => { x with wantStart := true }) c

/-- FEED_REF_LOST, once per feed per turn; branches have no such event (R217, Table 8.15). -/
def chanRefLost (d : Dev) (c : Nat) : Dev :=
  if c < 40 then d.raiseOnceTurn (0x0506 * 4096 + c) 0x0506 0 (d.chanHandle c) else d

/-- ENABLE of a channel, or its start by a sequence: a retry count of 0, the REF_LOOP enabled with its state
reloaded (R211, R217). -/
def chanEnable (d : Dev) (c : Nat) : Dev :=
  let ref := chRefLoop c (d.chanCfg c)
  let d := d.modSlot (chanType c) (chanIndex c) fun s => { s with hstate := .enabled }
  let d := d.modChan c fun x => { x with retry := 0, stopping := false, ref := none, sampled := false, starts := 0, ripI := {}, ripOut := {}, ripRet := {}, win := {}, windows := 0, healthValid := false }
  let d := if ref = 0 then d else chanRefLost (enableLoop d (hIndex ref) true) c
  chanWant d c

/-- The stop has ended: OFF, the REF_LOOP disabled, the handle DISABLED; a DISABLE completes, for a feed with the load
voltage (R212, R217, R223). -/
def chanOff (d : Dev) (c : Nat) : Dev :=
  let ref := chRefLoop c (d.chanCfg c)
  let d := d.modChan c fun x =>
    { x with run := .off, bleedOn := false, wantStart := false, waitSitter := false, stopping := false, ref := none }
  let d := if ref = 0 then d else disableLoop d (hIndex ref)
  elementOff (d.endEnables (d.chanHandle c) .aborted) (chanType c) (chanIndex c) (if c < 40 then d.chanVolt16 c else 0)

/-! ### Faults (R209 to R211, R239) -/

/-- The fault block without its last bytes: Tables 7.12 and 8.9 up to STATE; I_INJ, V_INJ and E_LET are filled in when
the block is read. -/
def faultHead (d : Dev) (c cause peak : Nat) : List Byte :=
  let x := d.chan c
  [0x01, BitVec.ofNat 8 (chanIndex c)] ++ leBytes 2 cause ++ leBytes 6 x.faultTurn.toNat ++ leBytes 2 x.faultTick ++
    zeros 4 ++ leBytes 2 peak ++
    [BitVec.ofNat 8 x.attempt, BitVec.ofNat 8 x.before.code]

/-- A fault block as it reads: the injected samples, the let-through energy and, for a branch, the CRC in place. Until a new
fault's block is complete, the block before it is the most recent one (R210). -/
def faultBlock (d : Dev) (c : Nat) : List Byte :=
  let x := d.chan c
  let body := if x.fault.isEmpty then [0x01, BitVec.ofNat 8 (chanIndex c)] ++ zeros 30
    else
      let iInj := match x.iInj with | some w => fitS 16 (currentOf d c (perAmp c) (fsVal w)) | none => 0x8000
      let vInj := match x.vInj with | some w => fitU 16 (voltageOf d c (fsVal w)) | none => 0x8000
      x.fault.take 12 ++ leBytes 2 iInj ++ leBytes 2 vInj ++ (x.fault.drop 16).take 4 ++
        leBytes 4 (fitU 32 (roundOpen (x.eBase + x.eLet) 65536)) ++ x.fault.drop 24
  match x.shown with
  | some b => b
  | none => if c < 40 then body else withCrc (body.take 30)

/-- What a fault notes as it is found, beside its cause: the turn, the tick and the retry count; the injected samples and the
let-through energy after the trip are still to come. -/
def chanNote (d : Dev) (c : Nat) : Dev :=
  let (tick, d) := d.recordTick
  let b := faultBlock d c
  d.modChan c fun x =>
    { x with before := x.run, attempt := x.retry, faultTurn := d.wheel.turn, faultTick := tick, shown := some b
             iInj := none, vInj := none, eLet := 0, wantStart := false }

/-- The first cause found acts at once: gates off, the injected sequence, BLEED or OPENING (R209, R210). `base` is the energy
since the onset of its condition (R221). -/
def chanTrip (d : Dev) (c cause : Nat) (base : Int) : Dev :=
  let d := chanNote (chanPgOff (urgentTrigger (chanConv c) c d) c) c
  d.modChan c fun x =>
    { x with run := if c < 40 then .bleed else .opening, after := .off, causes := [(cause, base)], bleedOn := false
             resLate := false, waitSitter := false, retryDue := false, eLetRunning := true }

/-- A cause is found: with a gate on it trips the channel, in the sample interval of a fault it joins that fault, else
it is no fault (R210). -/
def chanFound (d : Dev) (c cause : Nat) (base : Int) : Dev :=
  let x := d.chan c
  if !x.causes.isEmpty then d.modChan c fun x => { x with causes := (cause, base) :: x.causes }
  else if x.run.gateOn then chanTrip d c cause base
  else d

/-- Whether a cause is retried (Tables 7.7, 8.8). -/
def causeRetried (c cause : Nat) : Bool := if c < 40 then decide (cause < 0x000A) else decide (cause < 0x0008)

/-- Whether a SEQUENCE names the channel. -/
def Dev.chanInSeq (d : Dev) (c : Nat) : Bool := (d.seqNaming (d.chanHandle c)).isSome

/-- The block is completed with the recorded cause, and the event raised. `tail` is what bytes 24 to 27 of the block hold. -/
def chanComplete (d : Dev) (c cause : Nat) (base : Int) (tail : Nat) : Dev :=
  let x := d.chan c
  let (peak, d) := match x.attemptPeak with
    | some i => (fitS 16 (currentOf d c (perAmp c) i), d)
    | none => d.freeBits 16
  let d := d.modChan c fun x =>
    { x with fault := faultHead d c cause peak ++ zeros 4 ++ leBytes 4 tail ++ zeros 4, lastCause := cause, causes := []
             eBase := base, shown := none }
  (d.raise (chanEvent c 2) (cause % 256 + x.attempt % 16 * 256) (d.chanHandle c)).tally 44 (if c < 40 then 5 else 6) 1

/-- The retry decision that follows the recorded cause (R211, Tables 7.13, 8.12). -/
def chanDecide (d : Dev) (c cause : Nat) : Dev :=
  let x := d.chan c
  if x.stopping || d.isFenced (chanType c) (chanIndex c) then d
  else if cause = causeSitter c then
    let d := d.endEnables (d.chanHandle c) .aborted
    if d.chanInSeq c then d else d.modChan c fun x => { x with after := .wait, waitSitter := true }
  else if !causeRetried c cause then d
  else if x.retry < d.chanRetries c then d.modChan c fun x => { x with after := .wait, retry := x.retry + 1 }
  else d.modChan c fun x => { x with after := .lockout }

/-- The lowest code among causes found together, and the energy since its onset (R210). -/
def lowestCause (first : Nat × Int) (rest : List (Nat × Int)) : Nat × Int :=
  rest.foldl (fun a b => if b.1 < a.1 then b else a) first

/-- The end of the sample interval of a fault: the lowest code is recorded, the event raised, the retry decided
(R210, R211). -/
def chanRecord (d : Dev) (c tail : Nat) : Dev :=
  match (d.chan c).causes with
  | [] => d
  | first :: rest =>
    let k := lowestCause first rest
    chanDecide (chanComplete d c k.1 k.2 tail) c k.1

/-- A fault found with no gate on and no record open: it is recorded, and the run state stays (R226, R239). -/
def chanIdleFault (d : Dev) (c cause tail : Nat) : Dev := chanComplete (chanNote d c) c cause 0 tail

/-- BLEED or OPENING ends (Tables 7.4, 8.4); an attempt whose delay has passed during the stop begins at once (R211). -/
def chanStopEnds (d : Dev) (c : Nat) : Dev :=
  match (d.chan c).after with
  | .off => chanOff d c
  | .wait =>
    let d := d.modChan c fun x => { x with run := .wait, bleedOn := false }
    let x := d.chan c
    if (x.waitSitter && !d.sitter) || (!x.waitSitter && x.retryDue) then chanWant d c else d
  | .lockout =>
    let d := d.modChan c fun x => { x with run := .lockout, bleedOn := false }
    (d.raise (chanEvent c 3) (d.chan c).retry (d.chanHandle c)).endEnables (d.chanHandle c) .state

/-- A stop from outside: by DISABLE, a sequence or DESTROY with FORCE (R222, Table 8.12). -/
def chanStop (d : Dev) (c : Nat) : Dev :=
  let d := d.endEnables (d.chanHandle c) .aborted
  let d := d.modChan c fun x => { x with wantStart := false, retryDue := false }
  match (d.chan c).run with
  | .off => chanOff d c
  | .wait => chanOff (d.modChan c fun x => { x with retry := 0 }) c
  | .lockout => chanOff (d.modChan c fun x => { x with retry := 0 }) c
  | .bleed => d.modChan c fun x => { x with after := .off, stopping := true }
  | .opening => d.modChan c fun x => { x with after := .off, stopping := true }
  | r =>
    (chanPgOff d c).modChan c fun x =>
      { x with run := if c < 40 then .bleed else .opening, after := .off, stopping := true, bleedOn := false
               resLate := false, retry := if r == .precharge || r == .ramp then 0 else x.retry }

/-- CLEAR bit 0: from LOCKOUT, an attempt with a retry count of 0 (R223, R248). -/
def chanClearLockout (d : Dev) (c : Nat) : Dev :=
  if (d.chan c).run = .lockout then chanWant (d.modChan c fun x => { x with retry := 0 }) c else d

/-- RETRY_DELAY turns have passed since the fault: from WAIT an attempt begins, during the stop it is due at its end
(R211). -/
def chanRetryDelay (d : Dev) (c : Nat) : Dev :=
  let x := d.chan c
  if x.waitSitter || decide ((d.wheel.turn - x.faultTurn).toNat < d.chanRetryTurns c) then d
  else match x.run with
    | .wait => chanWant d c
    | .bleed => if x.after = .wait then d.modChan c fun x => { x with retryDue := true } else d
    | .opening => if x.after = .wait then d.modChan c fun x => { x with retryDue := true } else d
    | _ => d

/-- Power-good has held for RETRY_CLEAR turns (R211, R239). -/
def chanRetryClear (d : Dev) (c : Nat) : Dev :=
  if d.chanRetryClear c ≤ (d.chan c).pgTurns then d.modChan c fun x => { x with retry := 0 } else d

/-- The channel's own fence (R226, R250): recorded at once where nothing is on, else a fault with cause FENCED. -/
def chanFence (d : Dev) (c tail : Nat) : Dev :=
  let x := d.chan c
  if !x.causes.isEmpty then d.modChan c fun x => { x with causes := (causeFenced c, 0) :: x.causes, after := .off }
  else if x.run = .off then chanIdleFault d c (causeFenced c) tail
  else chanTrip d c (causeFenced c) 0

/-- The Sitter trips: a channel with a gate on faults with SITTER. With no gate on a feed records nothing (Table 7.13), and
a branch records the fault where it stands (R239). -/
def chanSitterTrip (d : Dev) (c tail : Nat) : Dev :=
  if (d.chan c).run.gateOn || !(d.chan c).causes.isEmpty then chanFound d c (causeSitter c) 0
  else if c < 40 then d
  else chanIdleFault d c (causeSitter c) tail

/-- The Sitter releases: what waits for it starts. -/
def chanSitterRelease (d : Dev) (c : Nat) : Dev :=
  let x := d.chan c
  if x.run = .wait ∧ x.waitSitter = true then chanWant d c else chanTry d c

/-! ### Samples (R218, R221) -/

/-- The gathered samples of the running turn with one current sample more. -/
def TurnAcc.addCurrent (a : TurnAcc) (i v e : Int) (w : Word) : TurnAcc :=
  { a with n := a.n + 1, sumI := a.sumI + i, sumP := a.sumP + i * v, energy := a.energy + e, peak := max a.peak i
           late := a.late || bit w 19, defaulted := a.defaulted || bit w 20 }

/-- The energy since the onset of one fault condition with one sample interval of energy `e` more: it begins where the
condition is found, and goes on while it holds or its accumulator keeps it (R207, R221). -/
def onsetStep (holds keeps : Bool) (e : Int) (o : Option Int) : Option Int :=
  match o with
  | some v => if holds || keeps then some (v + e) else none
  | none => if holds then some e else none

/-- The let-through energy with one current sample more: while a gate is on the onsets run on, after a trip the energy adds up
until the current falls below `floorMa` (R221, R240). -/
def letThrough (d : Dev) (c : Nat) (f : Onsets → Onsets) (i e : Int) (floorMa : Nat) : Dev :=
  let x := d.chan c
  if x.run.gateOn then d.modChan c fun x => { x with onsets := f x.onsets }
  else if x.eLetRunning then
    if currentAbove d c i (floorMa, 1) then d.modChan c fun x => { x with eLet := x.eLet + e }
    else d.modChan c fun x => { x with eLetRunning := false }
  else d

/-- A current sample is metered; answers its length in starts and its energy (R218). From a fence of its owner on it counts 0
with DEFAULTED (R226). -/
def meterCurrent (d : Dev) (c : Nat) (w : Word) : Dev × Nat × Int :=
  let x := d.chan c
  let i := fsVal w
  let v := fsVal (d.fsLast (volInput c))
  let n := if x.sampled then x.starts else 2 ^ rqDiv (chImeas c (d.chanCfg c))
  let fenced := d.isFenced (chanType c) (chanIndex c)
  let e := if fenced then 0 else sampleEnergy d c i v n
  (d.modChan c fun x =>
    { x with starts := 0, sampled := true, energy := x.energy + e, acc := x.acc.addCurrent i v e (if fenced then w ||| 0x00100000 else w)
             attemptPeak := some (max (x.attemptPeak.getD i) i) }, n, e)

/-- A start of generator `g`: the channels that measure on it count it (R218). -/
def chanStarts (g : Nat) (d : Dev) : Dev :=
  d.liveChans.foldl (fun d c =>
    if rqTrig (chImeas c (d.chanCfg c)) = g then d.modChan c fun x => { x with starts := x.starts + 1 } else d) d

/-- An injected conversion for a channel: the first current and the first voltage sample after a fault (R209). -/
def chanInjected (d : Dev) (c input : Nat) (w : Word) : Dev :=
  if input = curInput c then d.modChan c fun x => { x with iInj := some (x.iInj.getD w) }
  else if input = volInput c then d.modChan c fun x => { x with vInj := some (x.vInj.getD w) }
  else d

/-! ### Turn close (R208, R211, R213, R219) -/

/-- The mean of `n` values, or a free value of `k` bits where the turn has no sample (log entry 4). -/
def meanOr (d : Dev) (k n : Nat) (v : Nat) : Nat × Dev := if n = 0 then d.freeBits k else (v, d)

/-- FEED_TELEM or BRANCH_TELEM of the ended turn (Table 7.11, R246). -/
def chanTelem (d : Dev) (c : Nat) (turn : BitVec 48) : Dev :=
  let x := d.chan c
  let a := x.ended
  let ws := d.chanCfg c
  let r := max 1 (chShunt ws)
  let sp := spanUv (chImeas c ws)
  let (cur, d) := meanOr d 16 a.n (fitS 16 (roundOpen (a.sumI * sp * perAmp c) (32768 * r * max 1 a.n)))
  let (vol, d) := meanOr d 16 a.nv (fitU 16 (roundOpen (a.sumV * chVfs ws) (32768 * max 1 a.nv)))
  let (pow, d) := meanOr d 32 a.n (fitS 32 (roundOpen (a.sumP * sp * chVfs ws * 10) (2 ^ 30 * r * max 1 a.n)))
  let (pk, d) := meanOr d 16 a.n (fitS 16 (currentOf d c (perAmp c) a.peak))
  let dflt := a.defaulted || d.isFenced (chanType c) (chanIndex c)
  let bytes := leBytes 2 cur ++ leBytes 2 vol ++ leBytes 4 pow ++ leBytes 8 (fitS 64 (roundOpen x.energy 65536)) ++
    leBytes 4 (fitS 32 (roundOpen a.energy 65536)) ++ leBytes 2 pk ++ [BitVec.ofNat 8 x.run.code,
      BitVec.ofNat 8 (b2n x.pg + b2n (x.run == .lockout) * 2 + b2n d.wheel.coastEnded * 4 + b2n d.wheel.slewEnded * 8
        + b2n dflt * 16 + b2n a.limited * 32 + b2n a.late * 64)] ++
    leBytes 6 turn.toNat ++ [BitVec.ofNat 8 x.retry, 0]
  d.modChan c fun x => { x with telem := bytes }

/-- The turn closes for a channel: the samples gathered become those of the ended turn, power-good turns are counted,
backfeed ends after one whole turn without it, telemetry is published. -/
def chanTurn (d : Dev) (c : Nat) (ended : BitVec 48) : Dev :=
  let d := d.modChan c fun x =>
    { x with
      ended := x.acc, acc := { limited := x.run == .limiting }
      pgTurns := if x.pg && x.pgWhole then x.pgTurns + 1 else 0
      pgWhole := x.pg
      backfeed := x.backfeed && x.overThisTurn
      overThisTurn := false }
  let d := if chRefLoop c (d.chanCfg c) != 0 && (d.chan c).ref.isNone && d.enabled (chanType c) (chanIndex c)
    then chanRefLost d c else d
  chanTry (chanTelem d c ended) c

end Sys2Proof.Machine
end

