-- ==== Sys2Proof/Machine/Feed.lean ====
section
/-! DEFINITION. Riser feeds (spec 07): configuration and its checks, the energy envelope, pre-charge and enhancement,
protection, bleed, backfeed, the built-in current-limit loop, FEED blocks. -/

namespace Sys2Proof.Machine

/-! ### FEED_BANK (Table 7.3) -/

/-- The fields of a FEED_BANK with their defaults in place (R200). -/
structure FeedBank where
  ilim : Nat
  isc : Nat
  tflt : Nat
  pmax : Nat
  tpwr : Nat
  vov : Nat
  vdsPg : Nat
  preDv : Nat
  tpre : Nat
  tgate : Nat
  retryDelay : Nat
  irev : Nat
  eenv : Nat
  eres : Nat
  tres : Nat
  limG : Int
  limM : Nat
  deriving DecidableEq, Repr

/-- A field, or its default where it is written 0. -/
def orDefault (dflt v : Nat) : Nat := if v = 0 then dflt else v

/-- The fields of a bank given as words. -/
def feedBankOf (b : List Word) : FeedBank :=
  { ilim := orDefault 2000 (field b 0 0 16), isc := orDefault 6000 (field b 0 16 16),
    tflt := orDefault 1000 (field b 1 0 16), pmax := orDefault 1000 (field b 1 16 16),
    tpwr := orDefault 50 (field b 2 0 16), vov := orDefault 5950 (field b 2 16 16),
    vdsPg := orDefault 300 (field b 3 0 16), preDv := orDefault 2000 (field b 3 16 16),
    tpre := orDefault 400 (field b 4 0 16), tgate := orDefault 50 (field b 4 16 16),
    retryDelay := orDefault 50 (field b 5 16 16), irev := orDefault 500 (field b 6 16 16),
    eenv := orDefault 500 (field b 7 0 16), eres := orDefault 100 (field b 7 16 16),
    tres := orDefault 500 (field b 8 0 16), limG := sx 16 (field b 9 0 16), limM := field b 9 16 4 }

/-- The active bank of feed `n`. -/
def Dev.feedBank (d : Dev) (n : Nat) : FeedBank := feedBankOf (wordsOfBytes (d.slot tFeed n).active)

/-! ### Configuration checks (R197, R199, R216) -/

/-- C_LOAD × VMAX² / 2 ≤ E_RES, in the units of Tables 7.2 and 7.3. -/
def residualSmall (ws : List Word) (b : FeedBank) : Bool :=
  decide (field ws 3 0 16 * field ws 4 0 16 ^ 2 ≤ 2000000 * b.eres)

/-- BLEED of a configuration. -/
def fcBleed (ws : List Word) : Bool := field ws 0 1 1 == 1

/-- The limits of a limited-power feed (R197). -/
def feedLpOk (ws : List Word) (b : FeedBank) : Bool :=
  field ws 0 0 1 == 0 ||
    (decide (b.vov ≤ 6000) && decide (b.pmax ≤ 1000) && decide (b.tpwr ≤ 210) && (fcBleed ws || residualSmall ws b))

/-- Whether a bank passes its ranges and the checks of R216. -/
def feedBankOk (c : Nat) (ws bw : List Word) : Bool :=
  let b := feedBankOf bw
  field bw 5 4 12 == 0 && field bw 8 16 16 == 0 && field bw 9 20 12 == 0 && word bw 10 == 0 && word bw 11 == 0 &&
  decide (10 ≤ b.tflt) && decide (b.tflt ≤ 10000) && decide (50 ≤ b.vdsPg) && decide (b.vdsPg ≤ 2000) &&
  decide (100 ≤ b.preDv) && decide (b.preDv ≤ 10000) && decide (b.tpre ≤ 10000) && decide (b.tgate ≤ 1000) &&
  decide (b.eenv ≤ 5000) && decide (b.tres ≤ 10000) &&
  decide (b.ilim < b.isc) && spanAtMost c ws b.isc 100 && spanAtLeast c ws b.isc 10 && feedLpOk ws b

/-- Whether a request is an injected one with the given REL, or 0 = none. -/
def injOk (w : Word) (rel : Nat) : Bool := w == 0 || (rqOk w && rqInj w && rqRel w == rel)

/-- The period of a generator as a configuration that defines `w` would see it. -/
def periodWith (d : Dev) (w : Word) (g : Nat) : Option (Nat × Nat) :=
  if d.genDefined g then some (d.genPeriod g) else if w ≠ 0 ∧ genOf w = g then some (genPeriodOf w 0) else none

/-- Whether the generator of IMEAS is defined and starts between `loHz` / 1000 and 2,000 kHz. -/
def measureRateOk (d : Dev) (def_ imeas : Word) (loKhz : Nat) : Bool :=
  match periodWith d def_ (rqTrig imeas) with
  | some p => decide (512000 * p.2 ≤ p.1) && decide (p.1 * loKhz ≤ 1024000000 * p.2)
  | none => false

/-- The REF_LOOP conditions of R199 for target `c`. -/
def refLoopOk (d : Dev) (c : Nat) (h : Word) : Bool :=
  h == 0 ||
  (d.namesLive tLoop h &&
    (let s := d.slot tLoop (hIndex h)
     s.hstate == .disabled && (List.range 4).all fun o =>
       match lcKind s.cfg o with
       | 1 => false
       | 2 => false
       | 3 => lcTarget s.cfg o == c
       | _ => true))

/-- The channel other than `c` that names a REF_LOOP. -/
def refLoopHolder (d : Dev) (c : Nat) (h : Word) : Option Word :=
  if h = 0 then none
  else (d.liveChans.find? fun x => x != c && chRefLoop x (d.chanCfg x) == h).map d.chanHandle

/-- The fields of a FEED_CFG in range (Table 7.2). -/
def feedFieldsOk (c : Nat) (ws : List Word) : Bool :=
  ws.length == 23 && field ws 0 2 30 == 0 && decide (100 ≤ chShunt ws) && decide (1 ≤ chVfs ws) &&
  decide (10 ≤ field ws 2 0 16) && (fcBleed ws || field ws 2 16 16 == 0) && decide (1 ≤ field ws 3 0 16) &&
  decide (1 ≤ field ws 3 16 16) && decide (3600 ≤ field ws 4 0 16) && decide (field ws 4 0 16 ≤ 7500) &&
  decide (10 ≤ field ws 4 16 16) && decide (field ws 4 16 16 ≤ 10000) &&
  rqOk (chImeas c ws) && rqInput (chImeas c ws) == curInput c && rqMode (chImeas c ws) == 2 && !rqInj (chImeas c ws) &&
  rqOk (chVmeas c ws) && rqInput (chVmeas c ws) == volInput c && rqMode (chVmeas c ws) == 0 && !rqInj (chVmeas c ws) &&
  rqTrig (chVmeas c ws) == rqTrig (chImeas c ws) && injOk (chInjI c ws) 1 && injOk (chInjV c ws) 2 &&
  genDefOk none (chGenDef c ws)

/-- The RANGE conditions of a FEED's configuration (R197, R199). -/
def feedRange (d : Dev) (n : Nat) (ws : List Word) : Check :=
  Check.first [
    Check.range (feedFieldsOk n ws),
    Check.range (measureRateOk d (chGenDef n ws) (chImeas n ws) 100),
    Check.range (!fcBleed ws || (decide (1 ≤ field ws 2 16 16) && decide (field ws 4 0 16 ≤ 6 * field ws 2 16 16))),
    Check.range (refLoopOk d n (chRefLoop n ws)),
    Check.range (feedBankOk n ws (ws.drop 11))]

/-- The STATE conflicts (R157, R199). -/
def feedConflicts (d : Dev) (n : Nat) (ws : List Word) : Check :=
  Check.first [
    Check.conflict (genConflict d (chGenDef n ws)), Check.conflict (refLoopHolder d n (chRefLoop n ws))]

/-! ### The energy envelope (R214, R215) -/

/-- E_ATT in µJ as a fraction; `ts` is the IMEAS sample interval in units of 250 ps / 256 (R214). -/
def feedEatt (ws : List Word) (b : FeedBank) (ts : Nat × Nat) : Int × Nat :=
  let vmax := field ws 4 0 16
  let rpre := max 1 (field ws 2 0 16)
  let l := max 1 (field ws 3 16 16)
  let t := 180 + field ws 4 16 16
  let p := b.isc * l + vmax * t
  let isOver (us : Nat) : Int := us * 1024000 * ts.2 + ts.1
  let lim : Int := vmax * (5 * b.ilim * isOver b.tflt + (4 * (b.isc : Int) - 5 * b.ilim) * isOver 20)
  let d1 := 40 * rpre
  let d2 := 409600000000 * max 1 ts.2
  let d3 := 200000000 * l
  ((vmax ^ 2 * b.tpre : Nat) * (d2 * d3 : Nat) + lim * (d1 * d3 : Nat) + (p * (2 * vmax * t + p) : Nat) * (d1 * d2 : Nat),
   d1 * d2 * d3)

/-- The smallest integer at or above a fraction. -/
def ceilDiv (num : Int) (den : Nat) : Int := -((-num) / den)

/-- The energy left on C_LOAD at T_RES less E_RES, in 2^-96 units of 5 × 10^-12 J; not positive when the residual test
passes (R215). -/
def residualExcess (ws : List Word) (b : FeedBank) : Int :=
  let e0 := field ws 3 0 16 * field ws 4 0 16 ^ 2
  let left := if fcBleed ws then e0 * expNeg (20000 * b.tres) (max 1 (field ws 2 16 16) * field ws 3 0 16) else e0 * fixOne
  (left : Int) - (2000000 * b.eres * fixOne : Nat)

/-- Check 8 of a feed: the shortfall in mJ, if it fails (R214, R215). -/
def feedEnergy (ws : List Word) (b : FeedBank) (ts : Nat × Nat) : Option Nat :=
  let e := feedEatt ws b ts
  if ((1000 * b.eenv * e.2 : Nat) : Int) < e.1 then
    some (ceilDiv (e.1 - (1000 * b.eenv * e.2 : Nat)) (1000 * e.2)).toNat
  else
    let x := residualExcess ws b
    if x ≤ 0 then none else some (max 1 (ceilDiv x (200000000 * fixOne)).toNat)

/-- The IMEAS sample interval: the generator's period times 2^DIV. -/
def sampleInterval (c : Nat) (ws : List Word) (p : Nat × Nat) : Nat × Nat := (p.1 * 2 ^ rqDiv (chImeas c ws), p.2)

/-- The sample interval of a live channel. -/
def Dev.chanTs (d : Dev) (c : Nat) : Nat × Nat :=
  sampleInterval c (d.chanCfg c) (d.genPeriod (rqTrig (chImeas c (d.chanCfg c))))

/-- E_ATT of the active bank of feed `n` in µJ. -/
def Dev.feedEattUj (d : Dev) (n : Nat) : Nat :=
  let e := feedEatt (d.chanCfg n) (d.feedBank n) (d.chanTs n)
  fitU 32 (roundOpen e.1 e.2)

/-- The regular and injected requests of a channel. -/
def chanRequests (c : Nat) (ws : List Word) : List (Nat × Word) :=
  (([chImeas c ws, chVmeas c ws, chInjI c ws, chInjV c ws]).filter (· != 0)).map fun w => (chanConv c, w)

/-- What a channel's built-in loop and slots ask of admission (R73, R116, R135). -/
def chanNeeds (c : Nat) (ws : List Word) (p : Nat × Nat) : Needs :=
  { fs := chanRequests c ws, coef := 64, loops := [⟨.limit c, 0, 21, rqTrig (chImeas c ws), p.1, p.2⟩] }

/-- What a FEED asks of admission. -/
def feedNeeds (d : Dev) (n : Nat) (ws : List Word) : Needs :=
  let p := (periodWith d (chGenDef n ws) (rqTrig (chImeas n ws))).getD (1, 1)
  { chanNeeds n ws p with energy := feedEnergy ws (feedBankOf (ws.drop 11)) (sampleInterval n ws p) }

/-- The checks of a shadow bank at BANK_SWAP: energy with ENERGY_LIMIT, any other with RANGE (R216). -/
def feedSwapCheck (d : Dev) (n : Nat) (bw : List Word) : Check :=
  let ws := d.chanCfg n
  if feedBankOk n ws bw then
    match feedEnergy ws (feedBankOf bw) (d.chanTs n) with
    | some x => shortfall .energyLimit 8 x
    | none => .pass
  else .fail .range 0

/-! ### Faults -/

/-- A cause is found on feed `n`, whose condition's onset is `o` (R221). -/
def feedFound (d : Dev) (n cause : Nat) (o : Option Int) : Dev := chanFound d n cause (o.getD 0)

/-- FEED_FAULT_RECORD (R210, R221). -/
def feedRecord (n : Nat) (d : Dev) : Dev := chanRecord d n (d.feedEattUj n)

/-- The run states in which the fault timer and the enhancement conditions hold. -/
def ChanRun.enhanced : ChanRun → Bool
  | .ramp => true | .on => true | .limiting => true | _ => false

/-- GATE_LOW or VDS_HIGH (R203). -/
def feedGateCause (vgsLow : Bool) : Nat := if vgsLow then 0x0008 else 0x0009

/-- The fault timer has reached T_FLT: LIMIT if the loop was limiting, else GATE_LOW or VDS_HIGH (R207). -/
def feedFaultTimer (n : Nat) (vgsLow : Bool) (d : Dev) : Dev :=
  let x := d.chan n
  if x.effRun.enhanced && startsReach d n x.timer (d.feedBank n).tflt then
    feedFound d n (if x.effRun == .limiting || decide (x.level < 2147483647) then 0x0004 else feedGateCause vgsLow) x.onsets.timer
  else d

/-- The backstop has reached 20 µs (R207). -/
def feedBackstop (n : Nat) (d : Dev) : Dev :=
  let x := d.chan n
  if x.effRun.gateOn && startsReach d n x.backstop 20 then feedFound d n 0x0003 x.onsets.slow else d

/-- Turns above P_MAX have reached T_PWR (R208). -/
def feedPowerLimit (n : Nat) (d : Dev) : Dev :=
  let x := d.chan n
  if x.effRun.gateOn && decide ((d.feedBank n).tpwr ≤ x.powerTurns) then
    feedFound d n 0x0006 (some (x.onsets.power.getD 0 + x.acc.energy))
  else d

/-! ### Pre-charge, power-good, bleed (R202, R203, R212, R213) -/

/-- Pre-charge completes: RAMP. -/
def feedPrechargeDone (n : Nat) (d : Dev) : Dev :=
  if (d.chan n).run = .precharge then d.modChan n fun x => { x with run := .ramp } else d

/-- VGS and VDS have held for 32 µs: RAMP leads to ON, ON and LIMITING regain power-good. -/
def feedPgConfirm (n : Nat) (d : Dev) : Dev :=
  match (d.chan n).run with
  | .ramp => chanPgOn (d.modChan n fun x => { x with run := .on }) n
  | .on => chanPgOn d n
  | .limiting => chanPgOn d n
  | _ => d

/-- Power-good is lost in ON or LIMITING. -/
def feedPgLoss (n : Nat) (d : Dev) : Dev :=
  match (d.chan n).run with
  | .on => chanPgOff d n
  | .limiting => chanPgOff d n
  | _ => d

/-- The bleed switch turns on, where a resistor is fitted. -/
def feedBleedStart (n : Nat) (d : Dev) : Dev :=
  if (d.chan n).run = .bleed ∧ fcBleed (d.chanCfg n) = true then d.modChan n fun x => { x with bleedOn := true } else d

/-- BLEED ends. -/
def feedBleedEnd (n : Nat) (d : Dev) : Dev :=
  if (d.chan n).run = .bleed then chanStopEnds (feedRecord n d) n else d

/-- T_RES has passed without V_RES. -/
def feedResLate (n : Nat) (d : Dev) : Dev :=
  if (d.chan n).run = .bleed ∧ (d.chan n).resLate = false then
    Dev.raise (d.modChan n fun x => { x with resLate := true }) 0x0504 (d.chanVolt16 n) (d.chanHandle n)
  else d

/-- The states in which a load voltage is backfeed. -/
def ChanRun.idle : ChanRun → Bool
  | .off => true | .wait => true | .lockout => true | _ => false

/-- Backfeed is seen (R213). -/
def feedBackfeed (n : Nat) (d : Dev) : Dev :=
  if (d.chan n).run.idle then
    Dev.raiseOnceTurn (d.modChan n fun x => { x with backfeed := true, overThisTurn := true })
      (0x0505 * 4096 + n) 0x0505 (d.chanVolt16 n) (d.chanHandle n)
  else d

/-- Whether a voltage result lies above V_RES + 2.0 V (R212, R213). -/
def aboveResidual (d : Dev) (n : Nat) (val : Int) : Bool :=
  let ws := d.chanCfg n
  let x : Int := val * chVfs ws - 200 * 32768
  decide (0 < x) && decide ((200 * (d.feedBank n).eres * 10000 * 32768 ^ 2 : Int) < x * x * (field ws 3 0 16 : Nat))

/-! ### Samples (R206, R207, R218) -/

/-- One accumulator of R207: it counts `n` more starts while its condition holds, and clears after the condition has
been absent for `us` µs. -/
def accumulate (d : Dev) (c : Nat) (cond : Bool) (n us count idle : Nat) : Nat × Nat :=
  if cond then (count + n, 0)
  else if startsReach d c (idle + n) us then (0, 0)
  else (count, idle + n)

/-- Whether a load voltage result exceeds a threshold in 10 mV units. -/
def voltageAbove (d : Dev) (c : Nat) (val : Int) (v : Nat) : Bool := decide ((v * 32768 : Int) < val * chVfs (d.chanCfg c))

/-- A current sample of a feed crosses the Flue: metering, the two accumulators, the let-through energy. -/
def feedCurrent (n : Nat) (w : Word) (d : Dev) : Dev :=
  let (d, starts, e) := meterCurrent d n w
  let x := d.chan n
  let i := fsVal w
  let lim := ilimEff d n (d.chanIlim n)
  let b := d.feedBank n
  let isOver := currentAbove d n i lim
  let slow := currentAbove d n i (5 * lim.1, 4 * lim.2)
  let cond := x.run.enhanced && (isOver || ((x.run == .on || x.run == .limiting) && !x.pg))
  let t := accumulate d n cond starts (8 * b.tflt) x.timer x.timerIdle
  let s := accumulate d n slow starts (8 * b.tflt) x.backstop x.backstopIdle
  let d := d.modChan n fun x => { x with timer := t.1, timerIdle := t.2, backstop := s.1, backstopIdle := s.2 }
  letThrough d n (fun o =>
    { o with
      timer := onsetStep cond (t.1 != 0) e o.timer, slow := onsetStep slow (s.1 != 0) e o.slow
      ov := onsetStep (voltageAbove d n (fsVal (d.fsLast (volInput n))) b.vov) false e o.ov
      rev := onsetStep (currentAbove d n (-i) (b.irev, 1)) false e o.rev
      start := onsetStep (x.run == .precharge) false e o.start
      ramp := onsetStep (x.run == .ramp) false e o.ramp }) i e 50

/-- A voltage sample of a feed. -/
def feedVoltage (n : Nat) (w : Word) (d : Dev) : Dev :=
  let d := d.modChan n fun x => { x with acc := { x.acc with
    nv := x.acc.nv + 1, sumV := x.acc.sumV + fsVal w, defaulted := x.acc.defaulted || bit w 20 } }
  if (d.chan n).run.idle && aboveResidual d n (fsVal w) then d.modChan n fun x => { x with overThisTurn := true } else d

/-- One run of the built-in current-limit loop: the level integrates G × 2^−M × (ILIM_eff − I) between 0 and full drive
(R206). -/
def limitLevel (level g : Int) (m : Nat) (err : Int) : Int := clampInt 0 2147483647 (level + g * err * 2 / 2 ^ m)

/-- ILIM_eff as a Q1.15 fraction of the sense span. -/
def limitFraction (d : Dev) (c : Nat) (lim : Nat × Nat) : Int :=
  let ws := d.chanCfg c
  roundOpen ((lim.1 : Int) * chShunt ws * 32768) (max 1 lim.2 * spanUv (chImeas c ws) * 1000)

/-- The current-limit loop of a feed runs: ON and LIMITING follow the level. -/
def feedLimitRun (d : Dev) (n : Nat) : Dev :=
  let x := d.chan n
  if x.run.enhanced && !d.plane.takeover then
    let b := d.feedBank n
    let err := limitFraction d n (ilimEff d n (d.chanIlim n)) - fsVal (d.fsLast (curInput n))
    let level := limitLevel x.level b.limG b.limM err
    let full := decide (level = 2147483647)
    let run := match x.run with
      | .on => if full then ChanRun.on else .limiting
      | .limiting => if full then .on else .limiting
      | r => r
    d.modChan n fun x =>
      { x with level := level, run := run, acc := { x.acc with limited := x.acc.limited || run == .limiting } }
  else d

/-- The mean power of the ended turn against P_MAX (R208): Σ I·V × span × V_FS × 10 / (2^30 × R × n) mW. -/
def feedOverPower (d : Dev) (n : Nat) : Bool :=
  let a := (d.chan n).ended
  let ws := d.chanCfg n
  decide (((d.feedBank n).pmax * 100 * 2 ^ 30 * chShunt ws * a.n : Int) < a.sumP * spanUv (chImeas n ws) * chVfs ws * 10)

/-- The turns above P_MAX, with the ended turn counted after `powerPrev` (R208). -/
def feedPowerTurn (d : Dev) (n : Nat) : Dev :=
  let isOver := feedOverPower d n
  d.modChan n fun x => { x with powerTurns := if isOver then x.powerPrev + 1 else 0 }

/-- The turn closes for a feed. -/
def feedTurn (ended : BitVec 48) (d : Dev) (n : Nat) : Dev :=
  let d := chanTurn d n ended
  let d := feedPowerTurn (d.modChan n fun x => { x with powerPrev := x.powerTurns }) n
  d.modChan n fun x => { x with onsets := { x.onsets with
    power := if x.powerTurns = 0 then none else some (x.onsets.power.getD 0 + x.ended.energy) } }

/-! ### Blocks and commands (R219, R221, R223, R224) -/

/-- FEED_STATE (Table 7.15). -/
def feedState (d : Dev) (n : Nat) : Nat :=
  let s := d.slot tFeed n
  let x := d.chan n
  let e := feedEatt (d.chanCfg n) (d.feedBank n) (d.chanTs n)
  s.hstate.code + x.run.code * 4 + b2n x.pg * 32 + b2n s.activeB * 64 + b2n s.swap * 128 + x.retry % 16 * 256
    + x.lastCause % 16 * 4096 + fitS 16 (currentOf d n 1000 (fsVal (d.fsLast (curInput n)))) * 65536
    + d.chanVolt16 n * 2 ^ 32
    + fitU 16 (((1000 * (d.feedBank n).eenv * e.2 : Nat) - e.1) / (1000 * e.2 : Nat)) * 2 ^ 48

/-- A bank swap has taken effect: a count already at or past its new limit expires at the boundary (R216). Which gate cause a
fault timer without limiting records then is left free. -/
def feedSwapped (d : Dev) (n : Nat) : Dev :=
  let (b, d) := d.freeBits 1
  feedPowerLimit n (feedBackstop n (feedFaultTimer n (b == 1) d))

/-- CLEAR of a feed (Table 7.14). -/
def feedClear (d : Dev) (n : Nat) (bits : Word) : Dev :=
  let d := if bit bits 0 then chanClearLockout d n else d
  if bit bits 1 then d.modChan n fun x => { x with energy := 0, fault := [] } else d

/-- FEED_PRECHARGE_DONE. -/
def execFeedPrechargeDone (feed : Nat) (s : State) : Out := s.onDevAt 40 feed fun _ d => feedPrechargeDone feed d
/-- Pre-charge has not completed T_PRE after it began (R202). -/
def feedPrechargeLate (n : Nat) (d : Dev) : Dev :=
  if (d.chan n).effRun = .precharge then feedFound d n 0x0007 (d.chan n).onsets.start else d

/-- Power-good has not asserted T_GATE after RAMP began (R203). -/
def feedGateLate (n : Nat) (vgsLow : Bool) (d : Dev) : Dev :=
  if (d.chan n).effRun = .ramp then feedFound d n (feedGateCause vgsLow) (d.chan n).onsets.ramp else d

/-- Overvoltage or reverse current for 32 µs (Table 7.7). -/
def feedOvReverse (n : Nat) (reverse : Bool) (d : Dev) : Dev :=
  if reverse then feedFound d n 0x0005 (d.chan n).onsets.rev else feedFound d n 0x0002 (d.chan n).onsets.ov

/-- FEED_PRECHARGE_TIMEOUT. -/
def execFeedPrechargeTimeout (feed tick : Nat) (s : State) : Out :=
  s.onDevAt 40 feed fun _ d => d.atTick tick (feedPrechargeLate feed)
/-- FEED_PG_CONFIRM. -/
def execFeedPgConfirm (feed : Nat) (s : State) : Out := s.onDevAt 40 feed fun _ d => feedPgConfirm feed d
/-- FEED_PG_LOSS. -/
def execFeedPgLoss (feed : Nat) (s : State) : Out := s.onDevAt 40 feed fun _ d => feedPgLoss feed d
/-- FEED_GATE_TIMEOUT. -/
def execFeedGateTimeout (feed : Nat) (vgsLow : Bool) (tick : Nat) (s : State) : Out :=
  s.onDevAt 40 feed fun _ d => d.atTick tick (feedGateLate feed vgsLow)
/-- FEED_SHORT: the comparator is armed in every state with a gate on (R205). -/
def execFeedShort (feed tick : Nat) (s : State) : Out :=
  s.onDevAt 40 feed fun _ d => d.atTick tick fun d => feedFound d feed 0x0001 none
/-- FEED_FAULT_TIMER. -/
def execFeedFaultTimer (feed : Nat) (vgsLow : Bool) (tick : Nat) (s : State) : Out :=
  s.onDevAt 40 feed fun _ d => d.atTick tick (feedFaultTimer feed vgsLow)
/-- FEED_BACKSTOP. -/
def execFeedBackstop (feed tick : Nat) (s : State) : Out := s.onDevAt 40 feed fun _ d => d.atTick tick (feedBackstop feed)
/-- FEED_POWER_LIMIT. -/
def execFeedPowerLimit (feed tick : Nat) (s : State) : Out :=
  s.onDevAt 40 feed fun _ d => d.atTick tick (feedPowerLimit feed)
/-- FEED_OV_REVERSE. -/
def execFeedOvReverse (feed : Nat) (reverse : Bool) (tick : Nat) (s : State) : Out :=
  s.onDevAt 40 feed fun _ d => d.atTick tick (feedOvReverse feed reverse)
/-- FEED_FAULT_RECORD. -/
def execFeedFaultRecord (feed : Nat) (s : State) : Out := s.onDevAt 40 feed fun _ d => feedRecord feed d
/-- FEED_BLEED_START. -/
def execFeedBleedStart (feed : Nat) (s : State) : Out := s.onDevAt 40 feed fun _ d => feedBleedStart feed d
/-- FEED_RES_LATE. -/
def execFeedResLate (feed : Nat) (s : State) : Out := s.onDevAt 40 feed fun _ d => feedResLate feed d
/-- FEED_RETRY_DELAY. -/
def execFeedRetryDelay (feed : Nat) (s : State) : Out := s.onDevAt 40 feed fun _ d => chanRetryDelay d feed
/-- FEED_RETRY_CLEAR. -/
def execFeedRetryClear (feed : Nat) (s : State) : Out := s.onDevAt 40 feed fun _ d => chanRetryClear d feed

end Sys2Proof.Machine
end

