-- ==== Sys2Proof/Machine/Branch.lean ====
section
/-! DEFINITION. Prime branches (spec 08): configuration and bound, ramp, energy-bounded interruption, connection health,
BRANCH blocks. Branch `n` is channel 40 + n. -/

namespace Sys2Proof.Machine

/-! ### BRANCH_BANK (Table 8.3) -/

/-- The fields of a BRANCH_BANK with their defaults in place (R230). Currents in 100 mA units where the table has
them so; I_HARD in mA as a fraction. -/
structure BranchBank where
  onset : Nat
  hard : Nat × Nat
  bound : Nat
  treset : Nat
  start : Nat
  tramp : Nat
  vdsPg : Nat
  vov : Nat
  irev : Nat
  limG : Int
  limM : Nat
  avg : Nat
  ripMin : Nat
  risePct : Nat
  alarmPct : Nat
  riseAbs : Nat
  confirm : Nat
  baseWindows : Nat
  deriving DecidableEq, Repr

/-- The fields of a bank given as words, under a configuration. -/
def branchBankOf (ws b : List Word) : BranchBank :=
  { onset := orDefault 1200 (field b 0 0 16),
    hard := if field b 0 16 16 = 0 then (95 * spanUv (word ws 4) * 1000, 100 * max 1 (chShunt ws)) else (field b 0 16 16 * 100, 1),
    bound := orDefault 20000 (field b 1 0 16), treset := orDefault 5 (field b 1 16 16),
    start := orDefault 200 (field b 2 0 16), tramp := orDefault 1000 (field b 2 16 16),
    vdsPg := orDefault 150 (field b 3 0 16), vov := orDefault 5950 (field b 3 16 16),
    irev := orDefault 50 (field b 5 0 16), limG := sx 16 (field b 6 0 16), limM := field b 6 16 4,
    avg := orDefault 250 (field b 7 0 16), ripMin := orDefault 50 (field b 7 16 16),
    risePct := orDefault 10 (field b 8 0 8), alarmPct := orDefault 25 (field b 8 8 8),
    riseAbs := orDefault 500 (field b 8 16 16), confirm := orDefault 3 (field b 9 0 8),
    baseWindows := orDefault 4 (field b 9 8 8) }

/-- The active bank of branch `n`. -/
def Dev.branchBank (d : Dev) (n : Nat) : BranchBank :=
  branchBankOf (d.slot tBranch n).cfg (wordsOfBytes (d.slot tBranch n).active)

/-- HEALTH_EN. -/
def bcHealth (ws : List Word) : Bool := field ws 0 0 1 == 1
/-- RET_EN. -/
def bcRet (ws : List Word) : Bool := field ws 0 1 1 == 1
/-- HEALTH_STOP. -/
def bcStop (ws : List Word) : Bool := field ws 0 2 1 == 1

/-! ### The bound (R237) -/

/-- E_HARD in µJ as a fraction: VMAX × (I_HARD + VMAX × t_sc / L_MIN) × t_sc. -/
def branchEhard (ws : List Word) (b : BranchBank) : Nat × Nat :=
  let t := 180 + field ws 2 16 16
  let v := field ws 3 0 16
  let l := max 1 (field ws 2 0 16)
  (v * (b.hard.1 * l + v * t * b.hard.2) * t, b.hard.2 * l * 100000000)

/-- E_TRIP in µJ as a fraction: (E_BOUND − E_HARD − 20 mJ) / 1.03. -/
def branchEtrip (ws : List Word) (b : BranchBank) : Int × Nat :=
  let e := branchEhard ws b
  (100 * (((b.bound * 1000 * e.2 : Nat) : Int) - (20000 * e.2 : Nat) - (e.1 : Nat)), 103 * e.2)

/-- Check 8 of a branch: E_HARD + 20 mJ > 0.25 × E_BOUND fails with the excess in mJ, rounded up. -/
def branchEnergy (ws : List Word) (b : BranchBank) : Option Nat :=
  let e := branchEhard ws b
  let x : Int := 4 * ((e.1 : Int) + (20000 * e.2 : Nat)) - (b.bound * 1000 * e.2 : Nat)
  if x ≤ 0 then none else some (ceilDiv x (4000 * e.2)).toNat

/-- E_TRIP of the active bank in µJ. -/
def Dev.branchEtripUj (d : Dev) (n : Nat) : Nat :=
  let e := branchEtrip (d.slot tBranch n).cfg (d.branchBank n)
  fitU 32 (roundOpen e.1 e.2)

/-! ### Configuration checks (R229, R232) -/

/-- Whether a bank passes its ranges and the order ILIM_START < I_ONSET < I_HARD within the span (R232). -/
def branchBankOk (ws bw : List Word) : Bool :=
  let b := branchBankOf ws bw
  field bw 4 4 12 == 0 && field bw 6 20 12 == 0 && field bw 9 16 16 == 0 && word bw 10 == 0 && word bw 11 == 0 &&
  decide (2000 ≤ b.bound) && decide (b.bound ≤ 50000) && decide (b.tramp ≤ 10000) && decide (50 ≤ b.vdsPg) &&
  decide (b.vdsPg ≤ 2000) && decide (10 ≤ b.avg) && decide (b.start < b.onset) &&
  decide (b.onset * 100 * b.hard.2 < b.hard.1) &&
  decide (b.hard.1 * chShunt ws ≤ spanUv (word ws 4) * 1000 * b.hard.2) &&
  decide (spanUv (word ws 4) * 1000 * b.hard.2 ≤ 2 * b.hard.1 * chShunt ws)

/-- The PD requests of a branch's drop senses. -/
def branchDrops (ws : List Word) : List Word :=
  (if bcHealth ws then [word ws 9] else []) ++ (if bcRet ws then [word ws 10] else [])

/-- The fields of a BRANCH_CFG in range (Table 8.2). -/
def branchFieldsOk (c : Nat) (ws : List Word) : Bool :=
  ws.length == 25 && field ws 0 3 29 == 0 && decide (10 ≤ chShunt ws) && decide (1 ≤ chVfs ws) &&
  decide (1 ≤ field ws 2 0 16) && decide (10 ≤ field ws 2 16 16) && decide (field ws 2 16 16 ≤ 10000) &&
  decide (3600 ≤ field ws 3 0 16) && decide (field ws 3 0 16 ≤ 7500) && decide (field ws 3 16 16 ≤ 10000) &&
  rqOk (word ws 4) && rqInput (word ws 4) == curInput c && rqMode (word ws 4) == 2 && !rqInj (word ws 4) &&
  rqOk (word ws 5) && rqInput (word ws 5) == volInput c && rqMode (word ws 5) == 0 && !rqInj (word ws 5) &&
  rqTrig (word ws 5) == rqTrig (word ws 4) && injOk (word ws 6) 1 && injOk (word ws 7) 2 && genDefOk none (word ws 8) &&
  (branchDrops ws).all fun w => pdRqOk w && bits w 5 2 == 0

/-- The RANGE conditions of a BRANCH's configuration (R229). -/
def branchRange (d : Dev) (n : Nat) (ws : List Word) : Check :=
  Check.first [
    Check.range (branchFieldsOk (40 + n) ws),
    Check.range (measureRateOk d (word ws 8) (word ws 4) 500),
    Check.range (!bcRet ws || bcHealth ws),
    Check.range (pdSameGroup (branchDrops ws)),
    Check.range (refLoopOk d (40 + n) (word ws 12)),
    Check.range (branchBankOk ws (ws.drop 13))]

/-- The STATE conflicts (R157, R199). -/
def branchConflicts (d : Dev) (n : Nat) (ws : List Word) : Check :=
  Check.first [
    Check.conflict (genConflict d (word ws 8)), Check.conflict (refLoopHolder d (40 + n) (word ws 12))]

/-- What a BRANCH asks of admission. -/
def branchNeeds (d : Dev) (n : Nat) (ws : List Word) : Needs :=
  let p := (periodWith d (word ws 8) (rqTrig (word ws 4))).getD (1, 1)
  { chanNeeds (40 + n) ws p with
    pd := branchDrops ws, energy := branchEnergy ws (branchBankOf ws (ws.drop 13)) }

/-- The checks of a shadow bank at BANK_SWAP (R232, R237). -/
def branchSwapCheck (d : Dev) (n : Nat) (bw : List Word) : Check :=
  let ws := (d.slot tBranch n).cfg
  if branchBankOk ws bw then
    match branchEnergy ws (branchBankOf ws bw) with
    | some x => shortfall .energyLimit 8 x
    | none => .pass
  else .fail .range 0

/-! ### Faults, start and stop (R231, R232, R234 to R240) -/

/-- The BRANCH_FAULT block as it stands is written to the Kiln log store (R240). -/
def branchStore (n : Nat) (d : Dev) : Dev :=
  { d with kiln := { d.kiln with branches := tmod {} d.kiln.branches n fun c => c.write (faultBlock d (40 + n)) } }

/-- The fault's sample interval has ended: the block is completed and written to the Kiln log store (R239, R240). -/
def branchRecord (n : Nat) (d : Dev) : Dev :=
  if (d.chan (40 + n)).causes.isEmpty then d
  else branchStore n (chanRecord d (40 + n) (d.branchEtripUj n))

/-- What `f` does, the Kiln copy following a completed block that `f` changes: E_LET until the current falls below 1 A, and
injected samples that come later (R240). -/
def branchFollow (n : Nat) (f : Dev → Dev) (d : Dev) : Dev :=
  let x := d.chan (40 + n)
  let d' := f d
  if x.causes.isEmpty && !x.fault.isEmpty && (d'.chan (40 + n)).causes.isEmpty && faultBlock d (40 + n) != faultBlock d' (40 + n)
  then branchStore n d' else d'

/-- Whether the estimator is armed. -/
def ChanRun.armed : ChanRun → Bool
  | .ramp => true | .on => true | _ => false

/-- A trip of the estimator or of the hard comparator. -/
def branchTrip (n cause : Nat) (d : Dev) : Dev :=
  let x := d.chan (40 + n)
  if x.effRun.armed then
    chanFound (d.modChan (40 + n) fun x =>
      { x with onsetTrip := true, acc := { x.acc with limited := true } }) (40 + n) cause (x.onsets.timer.getD 0)
  else d

/-- Whether the predicted let-through E_pred = E + v × t_sc × max(i + ½ × (di/dt) × t_sc, 0) has reached E_TRIP of the active
bank (R235): `uj` µJ have passed since the sample that E stands at, `mv` and `ma` are the voltage and current in mV and mA,
`slope` is di/dt in mA per µs. -/
def branchPredicts (d : Dev) (n uj mv : Nat) (ma slope : Int) : Bool :=
  let ws := (d.slot tBranch n).cfg
  let t := 180 + field ws 2 16 16
  let e := branchEtrip ws (d.branchBank n)
  let pred : Int := ((d.chan (40 + n)).e + (uj * 65536 : Nat)) * 2000000000000 +
    ((65536 * mv * t : Nat) : Int) * max (2000 * ma + slope * (t : Int)) 0
  decide (e.1 * 2000000000000 * 65536 ≤ pred * (e.2 : Int))

/-- BRANCH_ENERGY_TRIP: the estimator opens the branch where its prediction has reached E_TRIP (R235). -/
def branchEnergyTrip (n uj mv : Nat) (ma slope : Int) (d : Dev) : Dev :=
  if branchPredicts d n uj mv ma slope then branchTrip n 0x0002 d else d

/-- A bank swap has taken effect: E is kept, and where E_pred already exceeds the new E_TRIP the branch opens at the boundary
with ENERGY (R247). Voltage, current and di/dt are those of the latest samples. -/
def branchSwapped (d : Dev) (n : Nat) : Dev :=
  let c := 40 + n
  let x := d.chan c
  if x.e ≠ 0 ∧ branchPredicts d n 0 (10 * (voltageOf d c (fsVal (d.fsLast (volInput c)))).toNat)
      (currentOf d c 1000 (fsVal (d.fsLast (curInput c)))) x.slope = true
  then branchTrip n 0x0002 d else d

/-- T_RESET turns at or below I_ONSET: E returns to 0, and without a trip BRANCH_ONSET is raised, whatever the run state
(R234, Table 8.15). -/
def branchOnsetReset (n : Nat) (d : Dev) : Dev :=
  let x := d.chan (40 + n)
  let (peak, d) := if x.onset then (fitU 16 (currentOf d (40 + n) 1 x.onsetPeak), d) else d.freeBits 16
  let d := d.modChan (40 + n) fun x => { x with onset := false, onsetTrip := false, e := 0, onsetPeak := 0 }
  if !x.onsetTrip then
    d.raiseOnceTurn (0x0604 * 4096 + n) 0x0604 peak (d.chanHandle (40 + n))
  else d

/-- VGS and VDS have held for 32 µs: RAMP leads to ON, with the loop's level held at full drive (R232, R233). -/
def branchPgConfirm (n : Nat) (d : Dev) : Dev :=
  match (d.chan (40 + n)).run with
  | .ramp => chanPgOn (d.modChan (40 + n) fun x =>
      { x with run := .on, level := 2147483647, acc := { x.acc with notOn := true } }) (40 + n)
  | .on => chanPgOn d (40 + n)
  | _ => d

/-- OPENING ends (Table 8.4). -/
def branchOpeningEnd (n : Nat) (d : Dev) : Dev :=
  if (d.chan (40 + n)).run = .opening then chanStopEnds (branchRecord n d) (40 + n) else d

/-- The RAMP backstop has reached 20 µs (R232). -/
def branchBackstop (n : Nat) (d : Dev) : Dev :=
  let x := d.chan (40 + n)
  if x.effRun == .ramp && startsReach d (40 + n) x.backstop 20 then chanFound d (40 + n) 0x0005 (x.onsets.slow.getD 0) else d

/-- What bytes 24 to 27 of a channel's fault block hold: E_ATT, or E_TRIP, of the active bank. -/
def Dev.chanTail (d : Dev) (c : Nat) : Nat := if c < 40 then d.feedEattUj c else d.branchEtripUj (c - 40)

/-- The Sitter trips, or the saggar of a channel is fenced: a branch's block that this completes is stored (R240). -/
def chanStored (f : Dev → Nat → Nat → Dev) (d : Dev) (c : Nat) : Dev :=
  let x := d.chan c
  let d' := f d c (d.chanTail c)
  if 40 ≤ c ∧ x.causes.isEmpty = true ∧ (d'.chan c).causes.isEmpty = true ∧ (d'.chan c).fault ≠ x.fault then branchStore (c - 40) d' else d'

/-- The Sitter trips at a channel. -/
def chanSitter (d : Dev) (c : Nat) : Dev := chanStored chanSitterTrip d c

/-- The saggar of a channel is fenced. -/
def chanFenced (d : Dev) (c : Nat) : Dev := chanStored chanFence d c

/-! ### Samples (R232, R234, R246) -/

/-- The change of the current since the sample before, `n` starts earlier, in mA per µs. -/
def currentSlope (d : Dev) (c n : Nat) (diff : Int) : Int :=
  let ws := d.chanCfg c
  let p := d.genPeriod (rqTrig (chImeas c ws))
  roundOpen (diff * (spanUv (chImeas c ws) * 1000 * 1024000 * p.2 : Nat)) (32768 * max 1 (chShunt ws) * max 1 (n * p.1))

/-- A current sample of a branch, taken at `pos`: metering, the demodulator, the estimator's onset, the RAMP backstop, the end
of a fault's sample interval. -/
def branchCurrent (n : Nat) (w : Word) (pos : Nat) (d : Dev) : Dev :=
  let c := 40 + n
  let (d, starts, e) := meterCurrent d c w
  let x := d.chan c
  let i := fsVal w
  let b := d.branchBank n
  let lim := ilimEff d c (d.chanIlim c)
  let isOver := currentAbove d c i (b.onset * 100, 1)
  let slow := x.run == .ramp && currentAbove d c i (5 * lim.1, 4 * lim.2)
  let s := accumulate d c slow starts Config.branchBackstopClear x.backstop x.backstopIdle
  let onset := x.run.armed && isOver
  let d := d.modChan c fun x =>
    { x with backstop := s.1, backstopIdle := s.2, onset := x.onset || onset
             e := if onset then x.e + e else x.e
             onsetPeak := if onset then max x.onsetPeak i else x.onsetPeak
             slope := currentSlope d c starts (i - x.iPrev), iPrev := i
             ripI := if bcHealth (d.chanCfg c) then x.ripI.add pos i else x.ripI
             acc := { x.acc with limited := x.acc.limited || onset } }
  branchRecord n (branchFollow n (fun d => letThrough d c (fun o =>
    { o with
      timer := onsetStep onset x.onset e o.timer, slow := onsetStep slow (s.1 != 0) e o.slow
      ov := onsetStep (voltageAbove d c (fsVal (d.fsLast (volInput c))) b.vov) false e o.ov
      rev := onsetStep (currentAbove d c (-i) (b.irev * 100, 1)) false e o.rev
      ramp := onsetStep (x.run == .ramp) false e o.ramp }) i e 1000) d)

/-- A voltage sample of a branch. -/
def branchVoltage (n : Nat) (w : Word) (d : Dev) : Dev :=
  d.modChan (40 + n) fun x => { x with acc := { x.acc with
    nv := x.acc.nv + 1, sumV := x.acc.sumV + fsVal w, defaulted := x.acc.defaulted || bit w 20 } }

/-- The current-limit loop of a branch runs in RAMP alone (R232, R233). -/
def branchLimitRun (d : Dev) (n : Nat) : Dev :=
  let c := 40 + n
  if (d.chan c).run == .ramp && !d.plane.takeover then
    let b := d.branchBank n
    let err := limitFraction d c (ilimEff d c (d.chanIlim c)) - fsVal (d.fsLast (curInput c))
    d.modChan c fun x => { x with level := limitLevel x.level b.limG b.limM err }
  else d

/-! ### Connection health (R241 to R243, R245) -/

/-- Whether the ended turn can contribute to a window, ripple apart (R242): the Wheel LOCKED, the branch ON throughout, no
input with DEFAULTED or SETTLING at any sample. -/
def healthEligible (d : Dev) (n : Nat) : Bool :=
  let x := d.chan (40 + n)
  !d.wheel.coastEnded && !d.wheel.slewEnded && x.run == .on && !x.ended.notOn && !x.ended.defaulted && !x.ended.badDrop &&
    x.ripI.n != 0 && x.ripOut.n != 0 && (!bcRet (d.slot tBranch n).cfg || x.ripRet.n != 0)

/-- A direct output of a drop channel, ending at `pos`, reaches its branch's demodulator. -/
def branchDrop (chan pos : Nat) (d : Dev) : Dev :=
  let p := d.pdChan chan
  match p.owner with
  | none => d
  | some key =>
    if key / 4096 != tBranch then d
    else
      let n := key % 4096
      let ws := (d.slot tBranch n).cfg
      let v := pdVal p.direct
      d.modChan (40 + n) fun x =>
        { x with acc := { x.acc with badDrop := x.acc.badDrop || pdFlagged p.direct }
                 ripOut := if bcHealth ws && pdRqChan (word ws 9) == chan then x.ripOut.add pos v else x.ripOut
                 ripRet := if bcRet ws && pdRqChan (word ws 10) == chan then x.ripRet.add pos v else x.ripRet }

/-- The phasors of the ended turn: the current in nA, the drops in pV, corrected for the decimation delay and HP_CORNER
(R241). -/
def branchPhasors (d : Dev) (n : Nat) : (Cx × Cx) × (Cx × Cx) × (Cx × Cx) :=
  let ws := (d.slot tBranch n).cfg
  let x := d.chan (40 + n)
  let s := pdSettings d.plane.profile (word ws 9)
  let delay := pdDelay s.1 s.2.1 d.turnDur
  let drop (r : Ripple) := r.corrected 50000000000 (2 ^ 23) delay (field ws 3 16 16) d.turnDur
  (x.ripI.phasors (spanUv (word ws 4) * 1000000000) (32768 * max 1 (chShunt ws)), drop x.ripOut, drop x.ripRet)

/-- A window with one turn more, whose phasors are given (R241, R242). -/
def RippleWin.add (w : RippleWin) (ok : Bool) (ripMin dur : Nat) (i o r : Cx × Cx) : RippleWin :=
  let w := { w with turns := w.turns + 1 }
  let lim := (ripMin * 1000000) ^ 2
  if ok && (decide (lim ≤ i.1.sq) || decide (lim ≤ i.2.sq)) then
    let zo := (o.1.mulConj i.1, o.2.mulConj i.2)
    let zr := (r.1.mulConj i.1, r.2.mulConj i.2)
    { w with used := w.used + 1, amp := w.amp + isqrt i.1.sq, w := w.w + i.1.sq + i.2.sq
             out := w.out + zo.1.1 + zo.2.1, ret := w.ret + zr.1.1 + zr.2.1
             ind := w.ind + (3 * (zo.1.2 + zr.1.2) + (zo.2.2 + zr.2.2)) * (dur : Int) }
  else w

/-- The turn closes for a branch. -/
def branchTurn (ended : BitVec 48) (d : Dev) (n : Nat) : Dev :=
  let d := chanTurn d (40 + n) ended
  if bcHealth (d.slot tBranch n).cfg && d.enabled tBranch n then
    let ok := healthEligible d n
    let p := branchPhasors d n
    let b := d.branchBank n
    d.modChan (40 + n) fun x =>
      { x with win := x.win.add ok b.ripMin d.turnDur p.1 p.2.1 p.2.2, ripI := {}, ripOut := {}, ripRet := {} }
  else d

/-- A resistance referred to the baseline temperature: R / (1 + 0.00393 × (T − T_BASE)), temperatures in Q9.7. -/
def tempRefer (r t tBase : Int) : Int :=
  let den := 12800000 + 393 * (t - tBase)
  if 0 < den then roundOpen (r * 12800000) den.toNat else r

/-- R_BASE and T_BASE (16 bits) of the Kiln baseline of a branch, none before it is set. -/
def Dev.baseline (d : Dev) (n : Nat) : Option (Nat × Nat) :=
  let b := tget [] d.kiln.baselines n
  if b.isEmpty then none else some (byteField b 0 4, byteField b 4 2)

/-- One level after a valid window: its counts above and below, and whether it is declared. -/
def levelStep (confirm : Nat) (above below : Bool) (o u : Nat) (on : Bool) : Nat × Nat × Bool :=
  let o := if above then o + 1 else 0
  let u := if below then u + 1 else 0
  (o, u, if on then !decide (confirm ≤ u) else decide (confirm ≤ o))

/-- The 32 bytes of BRANCH_HEALTH (Table 8.10). -/
def healthBytes (flags ripple rOut rRet rBase loop tBase : Nat) (turn : BitVec 48) (windows : Nat) : List Byte :=
  [0x01, BitVec.ofNat 8 flags] ++ leBytes 2 ripple ++ leBytes 4 rOut ++ leBytes 4 rRet ++ leBytes 4 rBase ++
    leBytes 2 loop ++ leBytes 2 tBase ++ leBytes 6 turn.toNat ++ leBytes 2 windows ++ zeros 4

/-- The levels after a valid window with resistance sum `r`: WARN and ALARM declared or withdrawn, one BRANCH_HEALTH a
window, the stop of HEALTH_STOP (R243). -/
def healthLevels (d : Dev) (n : Nat) (r : Int) : Dev :=
  match d.baseline n with
  | none => d
  | some (base, _) =>
    let c := 40 + n
    let b := d.branchBank n
    let x := d.chan c
    let lvl (pct : Nat) : Int := base * (100 + pct) + 100 * b.riseAbs
    let cmp (pct : Nat) : Bool × Bool := (decide (lvl pct < 100 * r), decide (100 * r < lvl pct))
    let w := levelStep b.confirm (cmp b.risePct).1 (cmp b.risePct).2 x.overWarn x.underWarn x.warn
    let a := levelStep b.confirm (cmp b.alarmPct).1 (cmp b.alarmPct).2 x.overAlarm x.underAlarm x.alarm
    let d := d.modChan c fun x =>
      { x with overWarn := w.1, underWarn := w.2.1, warn := w.2.2, overAlarm := a.1, underAlarm := a.2.1, alarm := a.2.2 }
    let ev (k : Nat) (d : Dev) : Dev := d.raise 0x0605 k (d.chanHandle c)
    let d := if a.2.2 && !x.alarm then ev 2 d
      else if w.2.2 && !x.warn then ev 1 d
      else if (!a.2.2 && x.alarm) || (!w.2.2 && x.warn) then ev 0 d else d
    if a.2.2 && !x.alarm && bcStop (d.slot tBranch n).cfg then chanFound d c 0x0008 0 else d

/-- The baseline gathers a valid window; with the last one it is set, kept in the Kiln log store and reported (R243). -/
def baselineStep (d : Dev) (n : Nat) (r t : Int) : Dev :=
  let c := 40 + n
  if (d.baseline n).isSome then d
  else
    let sums := (d.chan c).baseSum ++ [(r, t)]
    if sums.length < (d.branchBank n).baseWindows then d.modChan c fun x => { x with baseSum := sums }
    else
      let base := roundOpen (sumInt (sums.map (·.1))) sums.length
      let tb := (sums.getD 0 (0, 0)).2
      let d := { d.modChan c fun x => { x with baseSum := [] } with
        kiln := { d.kiln with baselines := tset [] d.kiln.baselines n (leBytes 4 (fitU 32 base) ++ leBytes 2 (twos 16 tb)) } }
      d.raise 0x0606 (fitU 16 (roundOpen base 10)) (d.chanHandle c)

/-- The mean resistance of a window in 0.1 µΩ, from Σ Re(V·I*) in nA·pV and Σ|I|² in nA². -/
def RippleWin.ohms (w : RippleWin) (sum : Int) : Int := roundOpen (sum * 10000) (max 1 w.w.toNat)

/-- The mean inductance in 10 nH: the harmonics stand in `ind` as 6/h, so Σ Im(V·I*) × T / (2π·h), with π = 355/113. -/
def RippleWin.henries (w : RippleWin) : Int := roundOpen (w.ind * 113) (6 * 2000 * 355 * max 1 w.w.toNat)

/-- BRANCH_HEALTH_WINDOW: a window of AVG_TURNS turns closes; it is valid if at least half of them contributed. -/
def healthWindow (n : Nat) (d : Dev) : Dev :=
  let c := 40 + n
  let ws := (d.slot tBranch n).cfg
  let b := d.branchBank n
  let x := d.chan c
  let w := x.win
  if !bcHealth ws || decide (w.turns < b.avg) then d
  else
    let last := d.wheel.turn - 1
    let d := d.modChan c fun x => { x with win := {} }
    if 2 * w.used < w.turns then
      let old := if x.health.isEmpty then healthBytes 0 0 0 0 0 0 0 0 0 else x.health
      let fl := 2 + b2n x.warn * 4 + b2n x.alarm * 8 + byteField old 1 1 / 32 % 4 * 32
      let d := d.modChan c fun x =>
        { x with health := splice (splice old [BitVec.ofNat 8 fl] 1) (leBytes 6 last.toNat) 20 }
      d.raise 0x0605 3 (d.chanHandle c)
    else
      let temp := d.sensorTemp (word ws 11)
      let tBase : Nat := match d.baseline n with
        | some (_, t) => t
        | none => match x.baseSum with | (_, t) :: _ => twos 16 t | [] => temp
      let comp := word ws 11 != 0 && temp != 0x8000 && tBase != 0x8000
      let ref (r : Int) : Int := if comp then tempRefer r (sx 16 temp) (sx 16 tBase) else r
      let rOut := ref (w.ohms w.out)
      let rRet := if bcRet ws then ref (w.ohms w.ret) else 0
      let rip := roundOpen (w.amp : Int) (1000000 * max 1 w.used)
      let d := d.modChan c fun x => { x with windows := satAdd 16 x.windows 1, healthValid := true }
      let d := baselineStep d n (rOut + rRet) (sx 16 temp)
      let d := witValue (d.chanHandle c) 0x19 0 (rOut + rRet) 1 false (healthLevels d n (rOut + rRet))
      let y := d.chan c
      let fl := 1 + b2n y.warn * 4 + b2n y.alarm * 8 + b2n comp * 32 + b2n (bcRet ws) * 64
      d.modChan c fun x =>
        { x with health := healthBytes fl (fitU 16 rip) (fitU 32 rOut) (fitU 32 rRet) 0 (fitU 16 w.henries) 0 last 0 }

/-! ### Blocks and commands (R245, R248, R249) -/

/-- BRANCH_HEALTH as it reads: what the last window left, with the baseline and the number of valid windows as they stand. -/
def branchHealthBlock (d : Dev) (n : Nat) : List Byte :=
  let x := d.chan (40 + n)
  let old := if x.health.isEmpty then healthBytes 0 0 0 0 0 0 0 0 0 else x.health
  let base := (d.baseline n).getD (0, 0x8000)
  let fl := byteField old 1 1 + b2n (d.baseline n).isSome * 16
  splice (splice (splice (splice old [BitVec.ofNat 8 fl] 1) (leBytes 4 base.1) 12) (leBytes 2 base.2) 18) (leBytes 2 x.windows) 26

/-- BRANCH_STATE (Table 8.14). -/
def branchState (d : Dev) (n : Nat) : Nat :=
  let c := 40 + n
  let s := d.slot tBranch n
  let x := d.chan c
  let e := branchEtrip s.cfg (d.branchBank n)
  s.hstate.code + x.run.code * 4 + b2n x.pg * 32 + b2n s.activeB * 64 + b2n s.swap * 128 + x.retry % 16 * 256
    + x.lastCause % 16 * 4096 + fitS 16 (currentOf d c 100 (fsVal (d.fsLast (curInput c)))) * 65536
    + d.chanVolt16 c * 2 ^ 32
    + (if !x.healthValid then 3 else if x.alarm then 2 else if x.warn then 1 else 0) * 2 ^ 48
    + fitU 14 (e.1 / (10000 * e.2 : Nat)) * 2 ^ 50

/-- CLEAR of a branch (Table 8.13). -/
def branchClear (d : Dev) (n : Nat) (bits : Word) : Dev :=
  let c := 40 + n
  let d := if bit bits 0 then chanClearLockout d c else d
  let d := if bit bits 1 then d.modChan c fun x => { x with energy := 0, fault := [] } else d
  if bit bits 2 then
    { d.modChan c fun x => { x with baseSum := [] } with kiln := { d.kiln with baselines := tdrop d.kiln.baselines n } }
  else d

/-- A branch without power-good T_RAMP after RAMP began (R232). -/
def branchRampLate (n : Nat) (vgsLow : Bool) (d : Dev) : Dev :=
  let x := d.chan (40 + n)
  if x.effRun = .ramp then chanFound d (40 + n) (if vgsLow then 0x0006 else 0x0007) (x.onsets.ramp.getD 0) else d

/-- Output overvoltage or reverse current for 32 µs (Table 8.8). -/
def branchOvReverse (n : Nat) (reverse : Bool) (d : Dev) : Dev :=
  let x := d.chan (40 + n)
  if !x.effRun.armed then d
  else if reverse then chanFound d (40 + n) 0x0004 (x.onsets.rev.getD 0) else chanFound d (40 + n) 0x0003 (x.onsets.ov.getD 0)

/-- A window closes, and BRANCH_HEALTH is published where there has been one (R245). -/
def branchWindow (n : Nat) (d : Dev) : Dev :=
  let d := healthWindow n d
  if (d.chan (40 + n)).health.isEmpty then d else d.publish (d.chanHandle (40 + n)) 2 (branchHealthBlock d n)

/-- BRANCH_ENERGY_TRIP. -/
def execBranchEnergyTrip (branch uj mv : Nat) (ma slope : Int) (tick : Nat) (s : State) : Out :=
  s.onDevAt 4 branch fun _ d => d.atTick tick (branchEnergyTrip branch uj mv ma slope)
/-- BRANCH_HARD_TRIP. -/
def execBranchHardTrip (branch tick : Nat) (s : State) : Out :=
  s.onDevAt 4 branch fun _ d => d.atTick tick (branchTrip branch 0x0001)
/-- BRANCH_ONSET_RESET. -/
def execBranchOnsetReset (branch : Nat) (s : State) : Out := s.onDevAt 4 branch fun _ d => branchOnsetReset branch d
/-- BRANCH_RAMP_TIMEOUT. -/
def execBranchRampTimeout (branch : Nat) (vgsLow : Bool) (tick : Nat) (s : State) : Out :=
  s.onDevAt 4 branch fun _ d => d.atTick tick (branchRampLate branch vgsLow)
/-- BRANCH_HEALTH_WINDOW. -/
def execBranchHealthWindow (branch : Nat) (s : State) : Out := s.onDevAt 4 branch fun _ d => branchWindow branch d
/-- BRANCH_PG_CONFIRM. -/
def execBranchPgConfirm (branch : Nat) (s : State) : Out := s.onDevAt 4 branch fun _ d => branchPgConfirm branch d
/-- BRANCH_PG_LOSS. -/
def execBranchPgLoss (branch : Nat) (s : State) : Out :=
  s.onDevAt 4 branch fun _ d => if (d.chan (40 + branch)).run = .on then chanPgOff d (40 + branch) else d
/-- BRANCH_BACKSTOP. -/
def execBranchBackstop (branch tick : Nat) (s : State) : Out :=
  s.onDevAt 4 branch fun _ d => d.atTick tick (branchBackstop branch)
/-- BRANCH_OV_REVERSE. -/
def execBranchOvReverse (branch : Nat) (reverse : Bool) (tick : Nat) (s : State) : Out :=
  s.onDevAt 4 branch fun _ d => d.atTick tick (branchOvReverse branch reverse)
/-- BRANCH_RETRY_DELAY. -/
def execBranchRetryDelay (branch : Nat) (s : State) : Out := s.onDevAt 4 branch fun _ d => chanRetryDelay d (40 + branch)
/-- BRANCH_RETRY_CLEAR. -/
def execBranchRetryClear (branch : Nat) (s : State) : Out := s.onDevAt 4 branch fun _ d => chanRetryClear d (40 + branch)

end Sys2Proof.Machine
end

