-- ==== Sys2Proof/Machine/Seq.lean ====
section
/-! DEFINITION. Rail supervision and sequencing (spec 12): MONITORs on the supervisor scan, SEQUENCEs, FAULT_N, and the
chain of down orders of a takeover or a management timeout (R10, R19). -/

namespace Sys2Proof.Machine

/-! ### Answers of a command on a handle -/

/-- What a command on a handle answers: a completion, or that it waits. -/
inductive Answer where
  | done (st : Status) (result : Nat)
  | waits
  deriving DecidableEq, Repr

/-- A command joins those that wait. -/
def Dev.addWait (d : Dev) (src : Src) (k : WaitKind) (h : Word) : Dev :=
  { d with waits := d.waits ++ [⟨some src, k, h⟩] }

/-! ### MONITORs (R330 to R333) -/

/-- MONITOR `m`. -/
def Dev.mon (d : Dev) (m : Nat) : MonRt := tget {} d.seq.mons m
/-- Change MONITOR `m`. -/
def Dev.modMon (d : Dev) (m : Nat) (f : MonRt → MonRt) : Dev :=
  { d with seq := { d.seq with mons := tmod {} d.seq.mons m f } }

/-- INPUT of a MON_CFG. -/
def mcInput (ws : List Word) : Nat := field ws 0 0 6
/-- RATIO. -/
def mcRatio (ws : List Word) : Nat := field ws 1 0 16

/-- A MON_BANK that R332 does not refuse. -/
def monBankOk (ratio : Nat) (b : List Word) : Bool :=
  let on : Int := field b 0 0 16
  let hys : Int := field b 0 16 16
  let off : Int := field b 1 0 16
  let uv : Int := field b 2 0 16
  let ov : Int := field b 2 16 16
  decide (off < on - hys) && (uv == 0 || decide (uv ≤ on - hys)) && (ov == 0 || decide (on < ov)) &&
    ([on, off, uv, ov].all fun t => decide (1000 * t ≤ 1250 * ratio)) && field b 1 16 16 == 0 && word b 3 == 0

/-- The RANGE conditions of a MON_CFG (Table 12.1, R332). -/
def monRange (ws : List Word) : Check :=
  Check.range (ws.length == 6 && field ws 0 6 2 == 0 && field ws 0 12 20 == 0 && decide (1000 ≤ mcRatio ws) &&
    field ws 1 16 16 == 0 && monBankOk (mcRatio ws) (ws.drop 2))

/-- The live MONITOR that names an input. -/
def Dev.monOfInput (d : Dev) (input : Nat) : Option Nat :=
  (d.liveIndices tMon).find? fun m => mcInput (d.slot tMon m).cfg == input

/-- What a MONITOR asks of admission: its input, which no other live MONITOR may name (R331). -/
def monNeeds (d : Dev) (ws : List Word) : Needs :=
  { taken := if (d.monOfInput (mcInput ws)).isSome then 1 else 0 }

/-- A threshold of `mV` as an SV code (R332). -/
def monCode (ratio : Nat) (mV : Int) : Int := roundHalfUp (mV * 262144) (5 * max 1 ratio)

/-- Whether an SV result lies above a threshold code moved by `g`/25 codes; 32,768/25 codes are the 25 mV of R99. -/
def svAbove (w : Word) (th g : Int) : Bool :=
  if bit w 16 then bits w 0 16 == 65535 else decide (25 * th + g < 25 * (bits w 0 16 : Int))

/-- Whether it lies below one. -/
def svBelow (w : Word) (th g : Int) : Bool :=
  if bit w 16 then bits w 0 16 == 0 else decide (25 * (bits w 0 16 : Int) < 25 * th + g)

/-- A confirmation count after a result, and whether the condition is confirmed: `n` results in a row (R333). -/
def confirmCount (n c : Nat) (sat : Bool) : Nat × Bool :=
  if sat then (if n ≤ c + 1 then (0, true) else (c + 1, false)) else (0, false)

/-- The handle of MONITOR `m`. -/
def Dev.monHandle (d : Dev) (m : Nat) : Word := d.handleOf tMon m

/-- A MONITOR's conditions start clear (R333). -/
def monEnable (d : Dev) (m : Nat) : Dev :=
  if d.isFenced tMon m then d
  else Dev.modMon (d.modSlot tMon m fun s => { s with hstate := .enabled }) m fun _ => {}

/-- A MONITOR's comparisons stop, UV is disarmed. -/
def monDisable (d : Dev) (m : Nat) : Dev :=
  if d.isFenced tMon m then d
  else Dev.modMon (d.modSlot tMon m fun s => { s with hstate := .disabled }) m fun r => { r with uvArmed := false, cUv := 0 }

/-- A bank swap restarts every confirmation count (R332). -/
def monSwapped (d : Dev) (m : Nat) : Dev := d.modMon m fun r => { r with cPg := 0, cOff := 0, cUv := 0, cOv := 0 }

/-- CLEAR of a MONITOR (Table 12.13). -/
def monClear (d : Dev) (m : Nat) (v : Word) : Dev :=
  if bit v 0 then d.modMon m fun r => { r with uv := false, ov := false, cUv := 0, cOv := 0 } else d

/-- ENABLE of a MONITOR. -/
def monEnableCmd (d : Dev) (m : Nat) : Dev × Answer :=
  if (d.seqNaming (d.monHandle m)).isSome || (d.slot tMon m).hstate != .disabled then (d, .done .state 0)
  else (monEnable d m, .done .ok 0)

/-- DISABLE of a MONITOR. -/
def monDisableCmd (d : Dev) (m : Nat) : Dev × Answer :=
  if (d.seqNaming (d.monHandle m)).isSome || (d.slot tMon m).hstate != .enabled then (d, .done .state 0)
  else (monDisable d m, .done .ok 0)

/-- The latest result of a MONITOR in mV at the rail. -/
def Dev.monMv (d : Dev) (m : Nat) : Int :=
  let ws := (d.slot tMon m).cfg
  roundOpen ((bits (d.svLast (mcInput ws)) 0 16 : Int) * 1250 * mcRatio ws) 65536000

/-- Whether the guard band is in force on a MONITOR: its latest result is uncalibrated, or it has none and the
converter holds no valid factors. -/
def Dev.monUncal (d : Dev) (m : Nat) : Bool :=
  let w := d.svLast (mcInput (d.slot tMon m).cfg)
  if w = 0 then !d.acq.calSv.valid else bit w 17

/-- QUERY_STATE of a MONITOR (R362). -/
def monState (d : Dev) (m : Nat) : Nat :=
  let s := d.slot tMon m
  let r := d.mon m
  s.hstate.code + b2n r.pg * 4 + b2n r.off * 8 + b2n r.uv * 16 + b2n r.ov * 32 + b2n (d.monUncal m) * 64
    + b2n s.activeB * 128 + b2n s.swap * 256 + fitU 16 (d.monMv m) * 65536

/-! ### SEQUENCEs: configuration (R335, R336) -/

/-- SEQUENCE `q`. -/
def Dev.sq (d : Dev) (q : Nat) : SeqRt := tget {} d.seq.seqs q
/-- Change SEQUENCE `q`. -/
def Dev.modSeq (d : Dev) (q : Nat) (f : SeqRt → SeqRt) : Dev :=
  { d with seq := { d.seq with seqs := tmod {} d.seq.seqs q f } }
/-- Step `s` at run time. -/
def Dev.step (d : Dev) (q s : Nat) : StepRt := tget {} (d.sq q).steps s
/-- Change a step. -/
def Dev.modStep (d : Dev) (q s : Nat) (f : StepRt → StepRt) : Dev :=
  d.modSeq q fun r => { r with steps := tmod {} r.steps s f }
/-- The configuration of SEQUENCE `q`. -/
def Dev.seqCfg (d : Dev) (q : Nat) : List Word := (d.slot tSeq q).cfg
/-- The four words of step `s`. -/
def Dev.stepCfg (d : Dev) (q s : Nat) : List Word := ((d.seqCfg q).drop (4 + 4 * s)).take 4
/-- The handle of SEQUENCE `q`. -/
def Dev.seqHandle (d : Dev) (q : Nat) : Word := d.handleOf tSeq q

/-- NSTEP. -/
def scNstep (ws : List Word) : Nat := field ws 0 0 6
/-- MODE: true = STRICT. -/
def scStrict (ws : List Word) : Bool := field ws 0 6 1 == 1
/-- FAULTN_JOIN. -/
def scJoin (ws : List Word) : Bool := field ws 0 7 1 == 1
/-- AUTO_RESTART. -/
def scAuto (ws : List Word) : Bool := field ws 0 8 1 == 1
/-- QUIET in ms. -/
def scQuiet (ws : List Word) : Nat := orDefault 50 (field ws 1 16 16)
/-- KIND of a step. -/
def stKind (st : List Word) : Nat := field st 0 0 3
/-- FATAL. -/
def stFatal (st : List Word) : Bool := field st 0 3 1 == 1
/-- DSCH, none for 31. -/
def stDsch (st : List Word) : Option Nat := if field st 0 4 5 = 31 then none else some (field st 0 4 5)
/-- EN. -/
def stEn (st : List Word) : Nat := field st 0 9 4
/-- EN_POL: true = active low. -/
def stPol (st : List Word) : Bool := field st 0 13 1 == 1
/-- DELAY_UP. -/
def stDelayUp (st : List Word) : Nat := field st 0 16 8
/-- DELAY_DOWN. -/
def stDelayDown (st : List Word) : Nat := field st 0 24 8
/-- HANDLE. -/
def stHandle (st : List Word) : Word := word st 1
/-- The index of the MONITOR, none where the field is 0. -/
def stMon (st : List Word) : Option Nat := if word st 2 = 0 then none else some (hIndex (word st 2))
/-- RISE_TO. -/
def stRise (st : List Word) : Nat := field st 3 0 16
/-- FALL_TO. -/
def stFall (st : List Word) : Nat := field st 3 16 16
/-- EXTERNAL steps. -/
def stExt (st : List Word) : Bool := stKind st == 4

/-- The handle type of an element step. -/
def stType (st : List Word) : Nat := [0, tRail, tFeed, tBranch].getD (stKind st) 0

/-- The fields of a SEQ_CFG in range (Tables 12.4, 12.5). -/
def seqFieldsOk (ws : List Word) : Bool :=
  decide (1 ≤ scNstep ws) && decide (scNstep ws ≤ 32) && ws.length == 4 + 4 * scNstep ws && field ws 0 9 23 == 0 &&
    field ws 2 16 16 == 0 && word ws 3 == 0 &&
    (seqSteps ws).all fun st =>
      decide (1 ≤ stKind st) && decide (stKind st ≤ 4) && field st 0 14 2 == 0 &&
        (field st 0 4 5 == 31 || (stExt st && decide (field st 0 4 5 < 24)))

/-- Whether a list names nothing twice. -/
def noRepeat (l : List Word) : Bool := l.eraseDups.length == l.length

/-- The RANGE conditions of a SEQUENCE's configuration (R336). -/
def seqRange (d : Dev) (ws : List Word) : Check :=
  let sts := seqSteps ws
  let els := sts.filter fun st => !stExt st
  Check.first [
    Check.range (seqFieldsOk ws),
    Check.range (els.all fun st => d.namesLive (stType st) (stHandle st)),
    Check.range ((sts.filter stExt).all fun st => stHandle st == 0 && word st 2 != 0 && stRise st != 0 && stFall st != 0),
    Check.range (sts.all fun st => word st 2 == 0 || d.namesLive tMon (word st 2)),
    Check.range (noRepeat (els.map stHandle) && noRepeat ((sts.map fun st => word st 2).filter (· != 0))
      && noRepeat ((sts.filter stExt).map fun st => BitVec.ofNat 32 (stEn st))),
    Check.range (els.all fun st => (d.slot (hType (stHandle st)) (hIndex (stHandle st))).hstate == .disabled)]

/-- The live SEQUENCE that drives an enable pin. -/
def Dev.seqOfPin (d : Dev) (pin : Nat) : Option Nat := d.seqWith fun st => stExt st && stEn st == pin

/-- The live RAIL whose DSCH names a switch. -/
def Dev.railOfSwitch (d : Dev) (n : Nat) : Option Nat := (d.liveIndices tRail).find? fun i => d.railDsch i == some n

/-- The first holder that a list of steps meets. -/
def firstHolder (sts : List (List Word)) (f : List Word → Option Word) : Check := Check.conflict (sts.findSome? f)

/-- The STATE conflicts of a SEQUENCE's configuration, in the order of R336. -/
def seqConflicts (d : Dev) (ws : List Word) : Check :=
  let sts := seqSteps ws
  let ext := sts.filter stExt
  Check.first [
    firstHolder sts fun st =>
      ((d.seqNaming (stHandle st)) <|> (d.seqNaming (word st 2)) <|> (if stExt st then d.seqOfPin (stEn st) else none)
        <|> ((stDsch st).bind (d.seqOfSwitch none))).map (d.handleOf tSeq),
    firstHolder ext fun st => ((stDsch st).bind d.railOfSwitch).map (d.handleOf tRail)]

/-! ### Pins and switches (R337, R340, R347) -/

/-- Drive the enable pin of an EXTERNAL step. -/
def drivePin (d : Dev) (st : List Word) (active : Bool) : Dev :=
  if stExt st then
    let level := if active != stPol st then EnPin.high else .low
    { d with seq := { d.seq with pins := tset .hiZ d.seq.pins (stEn st) level } }
  else d

/-- Turn the discharge switch of an EXTERNAL step on or off. -/
def stepSwitch (d : Dev) (st : List Word) (on : Bool) : Dev :=
  match stDsch st with
  | some n =>
    let l := d.pwm.discharge
    let l' := if on then (if l.contains n then l else sortNat (n :: l)) else l.filter fun k => k != n
    { d with pwm := { d.pwm with discharge := l' } }
  | none => d

/-- A SEQUENCE as CREATE or CONFIGURE leaves it: its MONITORs enabled, its pins inactive (R337, R338). -/
def seqLoad (d : Dev) (q : Nat) (ws : List Word) : Dev :=
  let d := { d with seq := { d.seq with seqs := tset {} d.seq.seqs q {} } }
  (seqSteps ws).foldl (fun d st =>
    let d := match stMon st with
      | some m => if (d.slot tMon m).hstate = .disabled then monEnable d m else d
      | none => d
    drivePin d st false) d

/-- A SEQUENCE leaves its MONITORs, pins and switches (R337, R338, Table 12.13). -/
def seqUnload (d : Dev) (q : Nat) : Dev :=
  let d := (seqSteps (d.seqCfg q)).foldl (fun d st =>
    let d := match stMon st with
      | some m => if (d.slot tMon m).hstate = .enabled then monDisable d m else d
      | none => d
    let d := stepSwitch d st false
    if stExt st then { d with seq := { d.seq with pins := tset .hiZ d.seq.pins (stEn st) .hiZ } } else d) d
  { d with seq := { d.seq with seqs := tdrop d.seq.seqs q } }

/-- A SEQUENCE as CONFIGURE leaves it (R546). What outlives a down order is kept: the cause, MIN_OFF since CREATE (R341), the
quiet time, LOCKED until CLEAR bit 0 (R356). A MONITOR that the new steps still name goes on as it was (R338). -/
def seqReload (old d : Dev) (q : Nat) (ws : List Word) : Dev :=
  let mons (ws : List Word) : List Nat := (seqSteps ws).filterMap stMon
  let d := ((mons ws).filter (mons (old.seqCfg q)).contains).foldl (fun d m => d.modMon m fun _ => old.mon m) (seqLoad d q ws)
  let o := old.sq q
  d.modSeq q fun r =>
    { r with cause := o.cause, minOff := o.minOff, quiet := o.quiet, lock := o.lock
             run := if o.run = .locked then .locked else r.run }

/-! ### Elements of steps (R340, R342) -/

/-- What a step sees of its element or MONITOR. -/
inductive ElState where
  | up | off | faulted | fenced | between
  deriving DecidableEq, Repr

/-- The channel of a FEED or BRANCH handle. -/
def chanOfHandle (h : Word) : Nat := if hType h = tFeed then hIndex h else 40 + hIndex h

/-- The state of an element. -/
def Dev.elem (d : Dev) (h : Word) : ElState :=
  if d.isFenced (hType h) (hIndex h) then .fenced
  else if hType h = tRail then
    let r := d.rail (hIndex h)
    match r.run with
    | .on => if r.pg then .up else .between
    | .off => .off
    | .faulted => .faulted
    | _ => .between
  else
    let x := d.chan (chanOfHandle h)
    match x.run with
    | .on => if x.pg then .up else .between
    | .off => .off
    | .lockout => .faulted
    | _ => .between

/-- Whether a rail's output lies below OFF_V. -/
def railBelowOff (d : Dev) (i : Nat) : Bool :=
  decide (1000 * d.railVout i < ((d.railB i 2 0 16 * (d.rail i).vset : Nat) : Int)) ||
    ((d.railDsch i).isSome && !(d.rail i).discharge)

/-- Whether a step is up (R340). -/
def stepIsUp (d : Dev) (st : List Word) : Bool :=
  if stExt st then match stMon st with | some m => d.enabled tMon m && (d.mon m).pg | none => false
  else d.elem (stHandle st) == .up

/-- Whether a step is off (R342); while the Flue is silent a rail shows it through its MONITOR alone (Table 12.8). -/
def stepIsOff (d : Dev) (st : List Word) : Bool :=
  let mon := match stMon st with | some m => d.enabled tMon m && (d.mon m).off | none => false
  if stExt st then mon
  else
    match d.elem (stHandle st) with
    | .fenced => true
    | e =>
      if d.plane.takeover && (word st 2 != 0 || stKind st == 1) then mon
      else e == .off || (e == .faulted && stKind st == 1 && railBelowOff d (hIndex (stHandle st)))

/-- The reason of a member fault that stands (R349): 2 element, 3 fence, 4 UV or OV; 0 = none. -/
def stepFaultReason (d : Dev) (st : List Word) : Nat :=
  let e := if stExt st then ElState.between else d.elem (stHandle st)
  if e = .fenced then 3
  else if e = .faulted then 2
  else match stMon st with
    | some m => if d.isFenced tMon m then 3 else if (d.mon m).uv || (d.mon m).ov then 4 else 0
    | none => 0

/-- Start an element as an ENABLE would. -/
def elemStart (d : Dev) (h : Word) : Dev :=
  if hType h = tRail then railStart d (hIndex h) else chanEnable d (chanOfHandle h)

/-- Stop an element by its own method. -/
def elemStop (d : Dev) (h : Word) : Dev :=
  if hType h = tRail then railStop d (hIndex h) else chanStop d (chanOfHandle h)

/-! ### Marks and sources -/

/-- The marks of a step as a byte (R360). -/
def StepRt.marks (r : StepRt) : Nat :=
  b2n r.stuck + b2n r.backfeed * 2 + b2n r.late * 4 + b2n r.failed * 8 + b2n r.member * 16

/-- Put a mark on a step, with the turn. -/
def markStep (d : Dev) (q s : Nat) (f : StepRt → StepRt) : Dev :=
  d.modStep q s fun r => { f r with markTurn := d.wheel.turn.setWidth 16 }

/-- Write a rail's last-fault record for a step of KIND RAIL (R347, R348). -/
def stepRailRecord (d : Dev) (st : List Word) (cause : Nat) : Dev :=
  if stKind st = 1 then
    writeRailRecord d (hIndex (stHandle st)) cause 0xFF (d.rail (hIndex (stHandle st))).run
  else d

/-! ### The handle's state (R339) -/

/-- The handle of a sequence is ENABLED or DISABLED, unless fenced. -/
def seqHstate (d : Dev) (q : Nat) (on : Bool) : Dev :=
  d.modSlot tSeq q fun s => if s.hstate = .fenced then s else { s with hstate := if on then .enabled else .disabled }

/-- The ENABLEs that wait on a sequence end. -/
def endSeqEnables (d : Dev) (q : Nat) (st : Status) : Dev := d.endKind .enable (d.seqHandle q) st

/-! ### The down order (R342, R344, R347) -/

/-- A step stops: by its element's own method or its enable pin; its MONITOR's UV is disarmed (R333, R342). -/
def stopStep (d : Dev) (q s : Nat) : Dev :=
  let st := d.stepCfg q s
  let d := d.modStep q s fun r => { r with st := .stopping }
  let d := match stMon st with
    | some m => d.modMon m fun r => { r with uvArmed := false, cUv := 0 }
    | none => d
  if stExt st then drivePin d st false else elemStop d (stHandle st)

/-- A step is off: its discharge ends; a rail that is off in FAULTED is left OFF. -/
def stepEnds (d : Dev) (q s : Nat) : Dev :=
  let st := d.stepCfg q s
  let d := d.modStep q s fun r => { r with st := .off, begun := false }
  let d := if stExt st && !(d.step q s).stuckSrc then stepSwitch d st false else d
  if stKind st == 1 && (d.rail (hIndex (stHandle st))).run == .faulted then railOff d (hIndex (stHandle st)) else d

/-- The steps below `below` that have begun, rising. -/
def Dev.begunBelow (d : Dev) (q below : Nat) : List Nat :=
  (List.range (min below 32)).filter fun s => (d.step q s).begun

/-- FAULT_N has been high without a break for QUIET (R341). -/
def quietPassed (d : Dev) (q : Nat) : Bool :=
  !d.seq.fn.low && ((d.sq q).quiet || decide (d.seq.fn.highSince + scQuiet (d.seqCfg q) * 100000 ≤ d.now))

/-- The down order has completed (R339, R341, R345, R346, R352, R356, R358). -/
def downDone (d : Dev) (q : Nat) : Dev :=
  let r := d.sq q
  let h := d.seqHandle q
  let hold := if r.cause = 3 ∧ scAuto (d.seqCfg q) = true ∧ r.lock = false then r.brown else none
  let d := d.modSeq q fun r =>
    { r with ownFault := false, minOff := true, run := if r.lock then .locked else .off, resume := false
             pending := !r.lock && (r.pending || hold.isSome), brownHold := hold, brown := none }
  let d := if r.lock then endSeqEnables d q .aborted else d
  let d := d.raise 0x0A02 r.cause h
  let d := d.endKind .disable h .ok
  let d := seqHstate d q (d.sq q).pending
  if d.hasWait .destroyForce h then
    (finishDestroy (seqUnload d q) tSeq q).endWaits (fun w => w.kind == WaitKind.destroyForce && w.handle == h)
      fun w => plainCpl .ok w.handle 0
  else d

/-- Stop the highest begun step below `below`, and go on while each is off at once; `first` = without DELAY_DOWN
(R342, R353). -/
def downFrom : Nat → Dev → Nat → Nat → Bool → Dev
  | 0, d, _, _, _ => d
  | fuel + 1, d, q, below, first =>
    match (d.begunBelow q below).getLast? with
    | none => downDone d q
    | some s =>
      let d := d.modSeq q fun r => { r with cur := s }
      if first || stDelayDown (d.stepCfg q s) == 0 then
        let d := stopStep d q s
        if stepIsOff d (d.stepCfg q s) then downFrom fuel (stepEnds d q s) q s false else d
      else d

/-- The down order goes on below a step. -/
def seqAdvance (d : Dev) (q below : Nat) (first : Bool) : Dev := downFrom 33 d q below first

/-- An off request (R344): nothing but RISING and ON is changed by it. `brown` names the set of a brown-out. The first step to
stop has no step off before it, and no DELAY_DOWN (R342, R353, log entry 60). -/
def seqOff (d : Dev) (q cause : Nat) (brown : Option Nat) : Dev :=
  let r := d.sq q
  if r.run = .rising ∨ r.run = .on then
    let d := endSeqEnables d q .aborted
    let d := d.modSeq q fun r =>
      { r with run := .falling, cause := cause, brown := brown, resume := false
               pending := cause == 2 && scAuto (d.seqCfg q) && !r.lock
               steps := tmapAll {} r.steps fun _ x => (if x.st = .delay then { x with st := .off } else x) }
    seqAdvance (seqHstate d q (d.sq q).pending) q 32 true
  else d

/-! ### The chain of down orders (R10, R19) -/

/-- Whether an element no longer holds back the next stop: OFF, past its fall timeout, or without gates. -/
def elemGone (d : Dev) (t i : Nat) : Bool :=
  !d.live t i || d.isFenced t i ||
    (if t = tRail then
      (d.rail i).run == .off || (d.rail i).run == .faulted || (d.rail i).fallExpired
     else (d.chan (chanOfHandle (mkHandle t i 0))).run == .off)

/-- The elements of step 6, in its order: branches, feeds, rails, each from the highest index. -/
def stopOrder : List (Nat × Nat) :=
  ((List.range 4).reverse.map fun i => (tBranch, i)) ++ ((List.range 40).reverse.map fun i => (tFeed, i)) ++
    (List.range 24).reverse.map fun i => (tRail, i)

/-- Stop the elements of step 6 until one is not gone at once. -/
def stopNext : List (Nat × Nat) → Dev → Dev
  | [], d => { d with plane := { d.plane with stopList := [], stopping := none } }
  | (t, i) :: rest, d =>
    if elemGone d t i || (d.seqNaming (d.handleOf t i)).isSome then stopNext rest d
    else
      let d := elemStop d (d.handleOf t i)
      if elemGone d t i then stopNext rest d
      else { d with plane := { d.plane with stopList := rest, stopping := some (t, i) } }

/-- Run the down orders of a list until one takes time; then the stops of step 6. -/
def orderNext : List Nat → Dev → Dev
  | [], d =>
    let d := { d with plane := { d.plane with downOrders := [], downRunning := none } }
    stopNext d.plane.stopList d
  | q :: rest, d =>
    let d := if d.live tSeq q then seqOff d q (if d.plane.takeover then 4 else 5) none else d
    if (d.sq q).run = .falling ∧ d.live tSeq q = true then
      { d with plane := { d.plane with downOrders := rest, downRunning := some q } }
    else orderNext rest d

/-- The chain goes on when what it waits for has ended (R10). -/
def chainCheck (d : Dev) : Dev :=
  match d.plane.downRunning with
  | some q => if (d.sq q).run = .falling ∧ d.live tSeq q = true then d else orderNext d.plane.downOrders d
  | none =>
    match d.plane.stopping with
    | some (t, i) => if elemGone d t i then stopNext d.plane.stopList d else d
    | none => d

/-- The STUCK_HIGH sources whose element is below its off threshold end, and discharges that outlived their order
(R347, R350, R352). -/
def releaseStuck (d : Dev) : Dev :=
  (d.liveIndices tSeq).foldl (fun d q =>
    (List.range 32).foldl (fun d s =>
      let x := d.step q s
      if (x.stuckSrc || x.drain) && stepIsOff d (d.stepCfg q s) then
        stepSwitch (d.modStep q s fun x => { x with stuckSrc := false, drain := false
                                                    st := if x.st = .discharging then .off else x.st }) (d.stepCfg q s) false
      else d) d) d

/-- The watchdog's source of FAULT_N ends when its down order has completed and a heartbeat has arrived (Table 12.11). -/
def wdRelease (d : Dev) : Dev :=
  if d.plane.wdFaultN && !d.plane.mgmtLost && d.plane.downRunning.isNone && d.plane.downOrders.isEmpty then
    { d with plane := { d.plane with wdFaultN := false } }
  else d

/-- What every change of an element or a sequence may set going. -/
def settle (d : Dev) : Dev := wdRelease (chainCheck (releaseStuck d))

/-- Start the chain: the sequence at `first`, then, with `others`, every other live one in index order. -/
def startChain (d : Dev) (first : Nat) (others : Bool) (stops : List (Nat × Nat)) : Dev :=
  let live := d.liveIndices tSeq
  let order := (if live.contains first then [first] else []) ++ (if others then live.filter (· != first) else [])
  orderNext order { d with plane := { d.plane with stopList := stops, stopping := none } }

/-! ### The up order (R340, R349) -/

/-- An own fault (R349): the event, FAULT_N, the ENABLEs end with STATE, and an off request. -/
def ownFault (d : Dev) (q s reason : Nat) : Dev :=
  let d := d.raise 0x0A03 (s + reason * 256) (d.seqHandle q)
  let d := d.modSeq q fun r => { r with ownFault := scJoin (d.seqCfg q) }
  seqOff (endSeqEnables d q .state) q 1 none

/-- A step fails (R340). -/
def failStep (d : Dev) (q s reason : Nat) : Dev :=
  ownFault (markStep d q s fun x => { x with st := .failed, failed := true }) q s reason

/-- A step begins (R340, R349). -/
def beginStep (d : Dev) (q s : Nat) : Dev :=
  let st := d.stepCfg q s
  let d := (d.modStep q s fun x => { x with st := .starting, begun := true, drain := false }).tally 44 0 1
  let reason := stepFaultReason d st
  if reason ≠ 0 then failStep d q s reason
  else if stExt st then drivePin (stepSwitch d st false) st true
  else elemStart d (stHandle st)

/-- Step `s` waits for its DELAY_UP, or begins. A step that is still up stays up when an order resumes (R346). -/
def delayUp : Nat → Dev → Nat → Nat → Dev
  | 0, d, _, _ => d
  | fuel + 1, d, q, s =>
    let d := d.modSeq q fun r => { r with cur := s }
    if scNstep (d.seqCfg q) ≤ s then
      let d := d.modSeq q fun r => { r with run := .on, cur := s - 1 }
      (d.raise 0x0A01 (scNstep (d.seqCfg q)) (d.seqHandle q)).endKind .enable (d.seqHandle q) .ok
    else if (d.step q s).st = .up then delayUp fuel d q (s + 1)
    else
      let d := d.modStep q s fun x => { x with st := .delay }
      if stDelayUp (d.stepCfg q s) = 0 then beginStep d q s else d

/-- Whether a SOURCE_SET has an input other than BAT, which is input 2, SELECTED (R346). -/
def Dev.setOnMains (d : Dev) (n : Nat) : Bool :=
  match (tget {} d.src n).selected with
  | some x => x != 2
  | none => false

/-- A start request whose conditions hold moves OFF to RISING (R341, R346). -/
def tryStart (d : Dev) (q : Nat) : Dev :=
  let r := d.sq q
  if r.pending && r.run == .off && !d.isFenced tSeq q && quietPassed d q && !r.minOff && r.brownHold.all (Dev.setOnMains d) && !d.sitter then
    let d := d.modSeq q fun r =>
      { r with run := .rising, pending := false
               steps := tmapAll {} r.steps fun _ x => { x with st := .off, begun := false } }
    delayUp 33 (seqHstate d q true) q 0
  else d

/-- Every sequence whose request may proceed. -/
def tryStarts (d : Dev) : Dev := (d.liveIndices tSeq).foldl tryStart d

/-! ### Events of the orders -/

/-- Run an event on a live sequence, then let what it ended go on. -/
def onSeq (q : Nat) (f : Dev → Dev) (d : Dev) : Dev := if d.live tSeq q then settle (f d) else d

/-- SEQ_DELAY_UP_END. -/
def seqDelayUpEnd (q : Nat) (d : Dev) : Dev :=
  let r := d.sq q
  if r.run = .rising ∧ (d.step q r.cur).st = .delay then beginStep d q r.cur else d

/-- SEQ_STEP_UP. -/
def seqStepUp (q : Nat) (d : Dev) : Dev :=
  let r := d.sq q
  if r.run = .rising ∧ (d.step q r.cur).st = .starting ∧ stepIsUp d (d.stepCfg q r.cur) = true then
    delayUp 33 (d.modStep q r.cur fun x => { x with st := .up }) q (r.cur + 1)
  else d

/-- Whether a step is on its way down. -/
def StepState.leaving : StepState → Bool
  | .stopping => true | .discharging => true | .held => true | _ => false

/-- SEQ_DELAY_DOWN_END. -/
def seqDelayDownEnd (q : Nat) (d : Dev) : Dev :=
  let r := d.sq q
  let x := d.step q r.cur
  if r.run = .falling ∧ x.begun = true ∧ x.st.leaving = false then
    let d := stopStep d q r.cur
    if stepIsOff d (d.stepCfg q r.cur) then seqAdvance (stepEnds d q r.cur) q r.cur false else d
  else d

/-- A step of a down order is off: the order goes on below it, or, under R346, the up order resumes from it. -/
def stepOffGoesOn (d : Dev) (q s : Nat) : Dev :=
  let d := (stepEnds d q s).modSeq q fun r => { r with run := .falling }
  if (d.sq q).resume then
    let d := d.modSeq q fun r => { r with run := .rising, resume := false, brown := none, pending := false }
    delayUp 33 (seqHstate d q true) q s
  else seqAdvance d q s false

/-- SEQ_STEP_OFF. -/
def seqStepOff (q : Nat) (d : Dev) : Dev :=
  let r := d.sq q
  if (r.run = .falling ∨ r.run = .held) ∧ (d.step q r.cur).begun = true ∧ (d.step q r.cur).st.leaving = true ∧
      stepIsOff d (d.stepCfg q r.cur) = true then stepOffGoesOn d q r.cur
  else d

/-- SEQ_RISE_TIMEOUT: RISE_TO of a starting step has passed. -/
def seqRiseTimeout (q : Nat) (d : Dev) : Dev :=
  let r := d.sq q
  if r.run = .rising ∧ (d.step q r.cur).st = .starting ∧ stRise (d.stepCfg q r.cur) ≠ 0 then failStep d q r.cur 1 else d

/-- SEQ_FALL_TIMEOUT: the fall timeout of a RAIL or EXTERNAL step has passed; the discharge is applied, or the step is
off where no MONITOR can show it (R347, Table 12.8). -/
def seqFallTimeout (q : Nat) (d : Dev) : Dev :=
  let r := d.sq q
  let st := d.stepCfg q r.cur
  let blind := match stMon st with
    | some m => d.isFenced tMon m && (stExt st || d.plane.takeover)
    | none => d.plane.takeover
  if r.run = .falling ∧ (d.step q r.cur).st = .stopping ∧ (stKind st = 1 ∨ stExt st = true) then
    let d := markStep d q r.cur fun x => { x with late := true }
    let d := if stExt st then d else railStopLate (hIndex (stHandle st)) d
    if blind then stepOffGoesOn d q r.cur
    else
      let d := d.modStep q r.cur fun x => { x with st := .discharging }
      if stExt st then stepSwitch d st true else d
  else d

/-- The step is marked STUCK_HIGH and the order continues (R347). -/
def markStuck (d : Dev) (q s : Nat) : Dev :=
  let d := markStep d q s fun x => { x with stuck := true, stuckSrc := true, begun := false, st := .discharging }
  let d := stepRailRecord (d.raise 0x0A04 s (d.seqHandle q)) (d.stepCfg q s) 0x000D
  seqAdvance (d.modSeq q fun r => { r with run := .falling }) q s false

/-- SEQ_DSCH_WIN_END: STUCK_HIGH in ADVANCE, HELD in STRICT (R347). -/
def seqDschWinEnd (q : Nat) (d : Dev) : Dev :=
  let r := d.sq q
  if r.run = .falling ∧ (d.step q r.cur).begun = true ∧ (d.step q r.cur).st = .discharging then
    if scStrict (d.seqCfg q) then
      let d := (d.modStep q r.cur fun x => { x with st := .held }).modSeq q fun r => { r with run := .held }
      let d := d.raise 0x0A05 r.cur (d.seqHandle q)
      d.endWaits (fun w => w.kind == WaitKind.disable && w.handle == d.seqHandle q) fun w => plainCpl .state w.handle r.cur
    else markStuck d q r.cur
  else d

/-- SEQ_MEMBER_FAULT: a fault that stands on a step's element or MONITOR (R349). -/
def seqMemberFault (q s : Nat) (d : Dev) : Dev :=
  let r := d.sq q
  let st := d.stepCfg q s
  let reason := stepFaultReason d st
  if (r.run = .rising ∨ r.run = .on) ∧ s < scNstep (d.seqCfg q) ∧ reason ≠ 0 then
    if (d.step q s).st = .starting then failStep d q s reason
    else if stFatal st then ownFault d q s reason
    else markStep d q s fun x => { x with member := true }
  else d

/-- SEQ_MIN_OFF_END. -/
def seqMinOffEnd (q : Nat) (d : Dev) : Dev := tryStart (d.modSeq q fun r => { r with minOff := false }) q

/-- A step that is already off is reported rising again (R348). -/
def seqBackfeedStep (d : Dev) (q s : Nat) : Dev :=
  let r := d.sq q
  if (r.run = .falling ∨ r.run = .held) ∧ (d.step q s).st = .off then
    let d := markStep d q s fun x => { x with backfeed := true }
    let d := stepRailRecord d (d.stepCfg q s) 0x000E
    d.raiseOnceTurn ((0x0A06 * 8 + q) * 32 + s) 0x0A06 s (d.seqHandle q)
  else d

/-- The element or MONITOR `h` reports its rail rising again (R348). -/
def seqBackfeed (d : Dev) (h : Word) : Dev :=
  match d.seqNaming h with
  | none => d
  | some q =>
    match (seqSteps (d.seqCfg q)).findIdx? fun st => stHandle st == h || word st 2 == h with
    | some s => seqBackfeedStep d q s
    | none => d

/-- A brown-out sequence's set selects an input other than BAT while FAULT_N is high: the order stops advancing after
the step being stopped, and a request that waited may proceed (R346). -/
def seqSourceBack (d : Dev) (q set : Nat) : Dev :=
  let r := d.sq q
  let d := if r.brownHold = some set then tryStart (d.modSeq q fun r => { r with brownHold := none }) q else d
  if r.run = .falling ∧ r.cause = 3 ∧ r.brown = some set ∧ scAuto (d.seqCfg q) = true ∧ d.seq.fn.low = false then
    if (d.step q r.cur).st.leaving then d.modSeq q fun r => { r with resume := true }
    else
      let d := d.modSeq q fun r => { r with run := .rising, resume := false, brown := none, pending := false }
      delayUp 33 (seqHstate d q true) q r.cur
  else d

/-- The Sitter trips (Table 12.8). -/
def seqSitter (d : Dev) (q : Nat) : Dev :=
  let r := d.sq q
  if r.run = .locked then d
  else
    let live := r.run == .rising || r.run == .on
    let d := (List.range (scNstep (d.seqCfg q))).foldl (fun d s =>
      let st := d.stepCfg q s
      let x := d.step q s
      let d := match stMon st with
        | some m => if x.begun then d.modMon m fun y => { y with uvArmed := false, cUv := 0 } else d
        | none => d
      let d := drivePin d st false
      d.modStep q s fun x =>
        { x with st := .off, begun := false, drain := x.drain || (stExt st && !x.stuckSrc && (x.st == .discharging || x.st == .held)) }) d
    let d := d.modSeq q fun r =>
      { r with run := .off, cause := 6, ownFault := false, resume := false, brown := none
               pending := r.pending || (live && scAuto (d.seqCfg q)) }
    let d := if live then endSeqEnables d q .aborted else d
    let d := d.endKind .disable (d.seqHandle q) .ok
    let d := if r.run = .off then d else d.raise 0x0A02 6 (d.seqHandle q)
    seqHstate d q (d.sq q).pending

/-- The own fence of a SEQUENCE: its down order with CAUSE OWN, without FAULT_N (Table 12.8). -/
def seqFence (d : Dev) (q : Nat) : Dev :=
  let d := d.endAll (d.seqHandle q) .fenced
  settle (seqOff (d.modSeq q fun r => { r with pending := false, brownHold := none }) q 1 none)

/-! ### Commands on a SEQUENCE (R345, R356, R358) -/

/-- ENABLE. -/
def seqEnable (src : Src) (d : Dev) (q : Nat) : Dev × Answer :=
  let r := d.sq q
  let h := d.seqHandle q
  match r.run with
  | .locked => (d, .done .state 0)
  | .on => (d, .done .ok 0)
  | .rising => (d.addWait src .enable h, .waits)
  | _ =>
    let d := (endSeqEnables d q .aborted).addWait src .enable h
    let d := seqHstate (d.modSeq q fun r => { r with pending := true }) q true
    (tryStart d q, .waits)

/-- DISABLE. A sequence that is OFF with no request pending is DISABLED already (Table 3.19). -/
def seqDisable (src : Src) (d : Dev) (q : Nat) : Dev × Answer :=
  let r := d.sq q
  let h := d.seqHandle q
  let d := if r.pending then
      endSeqEnables (d.modSeq q fun r => { r with pending := false, brownHold := none }) q .aborted else d
  let atRest : Status := if r.pending then .ok else .state
  match r.run with
  | .held => (seqHstate d q false, .done .state r.cur)
  | .off => (seqHstate d q false, .done atRest 0)
  | .locked => (seqHstate d q false, .done atRest 0)
  | .falling => (seqHstate (d.addWait src .disable h) q false, .waits)
  | _ => (settle (seqOff (d.addWait src .disable h) q 0 none), .waits)

/-- CLEAR. -/
def seqClear (d : Dev) (q : Nat) (v : Word) : Dev :=
  let d := if bit v 0 && (d.sq q).run == .locked then d.modSeq q fun r => { r with run := .off, lock := false } else d
  let d := if bit v 1 && (d.sq q).run == .held then markStuck d q (d.sq q).cur else d
  settle (if bit v 2 then d.modSeq q fun r =>
    { r with steps := tmapAll {} r.steps fun _ x =>
        { x with stuck := false, backfeed := false, late := false, failed := false, member := false } }
    else d)

/-- DESTROY with FORCE: a down order first, where one is needed. -/
def seqDestroy (src : Src) (d : Dev) (q : Nat) : Dev × Answer :=
  let h := d.seqHandle q
  let d := endSeqEnables (d.modSeq q fun r => { r with pending := false, brownHold := none }) q .aborted
  match (d.sq q).run with
  | .off => (settle (finishDestroy (seqUnload d q) tSeq q), .done .ok 0)
  | .locked => (settle (finishDestroy (seqUnload d q) tSeq q), .done .ok 0)
  | _ => (settle (seqOff (d.addWait src .destroyForce h) q 0 none), .waits)

/-! ### FAULT_N (R351 to R356) -/

/-- Whether some step of a live sequence holds a STUCK_HIGH source. -/
def Dev.stuckSource (d : Dev) : Bool :=
  (d.liveIndices tSeq).any fun q => (d.sq q).steps.any fun p => p.2.stuckSrc

/-- The active sources of Table 12.11, in its order, without SRC_STUCK (bit 2), which the selectors add. -/
def Dev.faultSources (d : Dev) (srcStuck : Bool) : Nat :=
  b2n ((d.liveIndices tSeq).any fun q => (d.sq q).ownFault) + b2n d.stuckSource * 2 + b2n srcStuck * 4 + b2n d.sitter * 8
    + b2n d.plane.takeover * 16 + b2n d.plane.wdFaultN * 32

/-- Fault cycles in the last 1.000 s. -/
def Dev.cycles1s (d : Dev) : Nat := (d.seq.fn.cycles.filter fun t => decide (d.now < t + 100000000)).length

/-- Five fault cycles within a second lock every joined sequence (R356). -/
def chatterLock (d : Dev) (q : Nat) : Dev :=
  let r := d.sq q
  if scJoin (d.seqCfg q) = false ∨ r.lock = true ∨ r.run = .locked then d
  else
    let d := d.raise 0x0A09 d.cycles1s (d.seqHandle q)
    let d := d.modSeq q fun r => { r with lock := true, pending := false, brownHold := none }
    let d := if r.pending || r.run == .off then endSeqEnables d q .aborted else d
    let d := seqOff d q 2 none
    if (d.sq q).run = .off then seqHstate (d.modSeq q fun r => { r with run := .locked }) q false
    else if (d.sq q).run = .falling ∨ (d.sq q).run = .held then seqHstate d q false
    else d

/-- A low on FAULT_N is accepted (R353, R356). `own` says that the device was asserting the line. -/
def faultnLow (own : Bool) (time : Nat) (d : Dev) : Dev :=
  let d := { d with now := max d.now time }
  if d.seq.fn.low then d
  else
    let d := { d with seq := { d.seq with
      fn := { d.seq.fn with low := true, edges := d.seq.fn.edges + 1
                            cycles := (d.now :: d.seq.fn.cycles).filter fun t => decide (d.now < t + 100000000) }
      seqs := tmapAll {} d.seq.seqs fun _ r => { r with quiet := false } } }
    let d := d.raise 0x0A07 (b2n own) 0
    let d := (d.liveIndices tSeq).foldl (fun d q =>
      if scJoin (d.seqCfg q) then seqOff d q (if own then 1 else 2) none else d) d
    settle (if 5 ≤ d.cycles1s then (d.liveIndices tSeq).foldl chatterLock d else d)

/-- The line rises high: the quiet time starts. -/
def faultnHigh (time : Nat) (d : Dev) : Dev :=
  let d := { d with now := max d.now time }
  if d.seq.fn.low then
    { d with seq := { d.seq with fn := { d.seq.fn with low := false, lowTurn := false, highSince := d.now } } }
  else d

/-- QUIET has passed for a sequence. -/
def faultnQuiet (q : Nat) (d : Dev) : Dev :=
  if d.seq.fn.low = false ∧ (d.sq q).quiet = false then
    tryStart (Dev.raise (d.modSeq q fun r => { r with quiet := true }) 0x0A08 (scQuiet (d.seqCfg q)) 0) q
  else d

/-- A turn ends: HELD_TURNS counts it if the line was low at every tick (R355). -/
def faultnTurn (d : Dev) : Dev :=
  { d with seq := { d.seq with fn := { d.seq.fn with
    heldTurns := if d.seq.fn.low && d.seq.fn.lowTurn then satAdd 32 d.seq.fn.heldTurns 1 else d.seq.fn.heldTurns
    lowTurn := d.seq.fn.low } } }

/-! ### Blocks (R359 to R361) -/

/-- Codes of the run states. -/
def SeqRun.code : SeqRun → Nat
  | .off => 0 | .rising => 1 | .on => 2 | .falling => 3 | .held => 4 | .locked => 5

/-- Codes of the step states. -/
def StepState.code : StepState → Nat
  | .off => 0 | .delay => 1 | .starting => 2 | .up => 3 | .stopping => 4 | .discharging => 5 | .held => 6 | .failed => 7

/-- SEQ_STATE (Table 12.14). -/
def seqState (d : Dev) (q : Nat) : Nat :=
  let r := d.sq q
  let any (p : StepRt → Bool) : Bool := r.steps.any fun e => p e.2
  (d.slot tSeq q).hstate.code + r.run.code * 4 + r.cur * 32 + r.cause * 1024 + b2n r.pending * 8192
    + b2n (r.pending && !quietPassed d q) * 16384 + b2n (r.pending && r.minOff) * 32768
    + (r.steps.foldl (fun n e => n + if e.2.st = .up then 2 ^ e.1 else 0) 0) * 65536
    + b2n (any (·.stuck)) * 2 ^ 48 + b2n (any (·.backfeed)) * 2 ^ 49 + b2n (r.ownFault || any (·.stuckSrc)) * 2 ^ 50

/-- SEQ_STEPS (R360). -/
def seqStepsBlock (d : Dev) (q : Nat) : List Byte :=
  (List.range 32).flatMap fun s =>
    let x := d.step q s
    [BitVec.ofNat 8 x.st.code, BitVec.ofNat 8 x.marks] ++ leBytes 2 x.markTurn.toNat

/-- SEQ_FAULTN (Table 12.15). -/
def faultnBlock (d : Dev) (srcStuck : Bool) : List Byte :=
  let f := d.seq.fn
  let src := d.faultSources srcStuck
  [0x01, BitVec.ofNat 8 (b2n f.low + b2n (src != 0) * 2)] ++ leBytes 2 src ++ leBytes 4 f.edges.toNat ++
    leBytes 4 f.heldTurns ++ leBytes 2 (if f.low then 0 else min 65535 ((d.now - f.highSince) / 100000)) ++
    [BitVec.ofNat 8 d.cycles1s, 0]

/-! ### The supervisor scan (R98, R333) -/

/-- A result reaches the MONITOR that names its input. -/
def monResult (d : Dev) (m : Nat) (w : Word) : Dev :=
  if d.enabled tMon m then
    let ws := (d.slot tMon m).cfg
    let b := (d.slot tMon m)
    let n := 2 + field ws 0 8 4
    let th (mV : Int) : Int := monCode (mcRatio ws) mV
    let on : Int := bits (b.bankW 0) 0 16
    let hys : Int := bits (b.bankW 0) 16 16
    let off : Int := bits (b.bankW 1) 0 16
    let uv : Int := bits (b.bankW 2) 0 16
    let ov : Int := bits (b.bankW 2) 16 16
    let g : Int := if bit w 17 then 32768 else 0
    let r := d.mon m
    let pg := confirmCount n r.cPg (if r.pg then svBelow w (th (on - hys)) 0 else svAbove w (th on) g)
    let of := confirmCount n r.cOff (if r.off then svAbove w (th (off + hys)) 0 else svBelow w (th off) (-g))
    let pgNow := r.pg != pg.2
    let offNow := r.off != of.2
    let armed := r.uvArmed || (pg.2 && pgNow)
    let u := confirmCount n r.cUv (r.uvArmed && !r.uv && uv != 0 && svBelow w (th uv) g)
    let o := confirmCount n r.cOv (!r.ov && ov != 0 && svAbove w (th ov) (-g))
    let d := witValue (d.monHandle m) 0x38 0 ((bits w 0 16 : Int) * 1250 * mcRatio ws) 65536000 false d
    let d := d.modMon m fun _ => ⟨pgNow, offNow, r.uv || u.2, r.ov || o.2, armed, pg.1, of.1, u.1, o.1⟩
    let h := d.monHandle m
    let d := if pg.2 then d.raise 0x0A0A (b2n pgNow) h else d
    let d := if u.2 then d.raise 0x0A0B 1 h else d
    let d := if o.2 then d.raise 0x0A0B 2 h else d
    settle (if of.2 && !offNow then seqBackfeed d h else d)
  else d

/-- The MON inputs that a scan converts: those of ENABLED MONITORs, in input order (R98, R358). -/
def scanInputs (d : Dev) : List Nat :=
  sortNat (((d.liveIndices tMon).filter fun m => d.enabled tMon m).map fun m => mcInput (d.slot tMon m).cfg)

/-- SV_SCAN_START: the previous scan has ended. -/
def svScanStart (d : Dev) : Dev :=
  if d.acq.svPaused || !d.acq.svScan.isEmpty then d
  else Dev.tally { d with acq := { d.acq with svScan := scanInputs d, svScanUncal := !d.acq.calSv.valid } } 20 0 1

/-- The result of the next input of a scan is stored and counted. -/
def svStore (input : Nat) (rest : List Nat) (w : Word) (isOver under : Bool) (d : Dev) : Dev :=
  (Dev.tally { d with acq := { d.acq with svScan := rest, svWord := tset 0 d.acq.svWord input w } } 20 1 1).tally
    20 2 (b2n (isOver || under))

/-- SV_CONVERSION_DONE: the next input of the scan; DEFAULTED while the Flue is fenced (R391). -/
def svConversionDone (code : Nat) (isOver under : Bool) (d : Dev) : Dev :=
  if d.acq.svPaused then d
  else
    match d.acq.svScan with
    | [] => d
    | input :: rest =>
      let w := svResult d.acq.calSv code isOver under d.acq.svScanUncal (d.sag.fenced.contains 9) input
      let d := svStore input rest w isOver under d
      match d.monOfInput input with
      | some m => monResult (d.tally 20 3 (b2n d.acq.svScanUncal)) m w
      | none => d

/-! ### Commands -/

/-- SV_SCAN_START. -/
def execSvScanStart (s : State) : Out := s.onDev fun _ d => svScanStart d
/-- SV_CONVERSION_DONE. -/
def execSvConversionDone (code : Nat) (isOver under : Bool) (s : State) : Out :=
  s.onDev fun _ d => svConversionDone code isOver under d
/-- SEQ_DELAY_UP_END. -/
def execSeqDelayUpEnd (seq : Nat) (s : State) : Out := s.onDevAt 8 seq fun _ d => onSeq seq (seqDelayUpEnd seq) d
/-- SEQ_DELAY_DOWN_END. -/
def execSeqDelayDownEnd (seq : Nat) (s : State) : Out := s.onDevAt 8 seq fun _ d => onSeq seq (seqDelayDownEnd seq) d
/-- SEQ_STEP_UP. -/
def execSeqStepUp (seq : Nat) (s : State) : Out := s.onDevAt 8 seq fun _ d => onSeq seq (seqStepUp seq) d
/-- SEQ_STEP_OFF. -/
def execSeqStepOff (seq : Nat) (s : State) : Out := s.onDevAt 8 seq fun _ d => onSeq seq (seqStepOff seq) d
/-- SEQ_RISE_TIMEOUT. -/
def execSeqRiseTimeout (seq : Nat) (s : State) : Out := s.onDevAt 8 seq fun _ d => onSeq seq (seqRiseTimeout seq) d
/-- SEQ_FALL_TIMEOUT. -/
def execSeqFallTimeout (seq : Nat) (s : State) : Out := s.onDevAt 8 seq fun _ d => onSeq seq (seqFallTimeout seq) d
/-- SEQ_DSCH_WIN_END. -/
def execSeqDschWinEnd (seq : Nat) (s : State) : Out := s.onDevAt 8 seq fun _ d => onSeq seq (seqDschWinEnd seq) d
/-- SEQ_MEMBER_FAULT. -/
def execSeqMemberFault (seq step : Nat) (s : State) : Out :=
  s.onDevAt 8 seq fun _ d => onSeq seq (seqMemberFault seq step) d
/-- SEQ_MIN_OFF_END. -/
def execSeqMinOffEnd (seq : Nat) (s : State) : Out := s.onDevAt 8 seq fun _ d => onSeq seq (seqMinOffEnd seq) d
/-- FAULTN_QUIET. -/
def execFaultnQuiet (seq : Nat) (s : State) : Out := s.onDevAt 8 seq fun _ d => onSeq seq (faultnQuiet seq) d
/-- FAULTN_HIGH. -/
def execFaultnHigh (time : Nat) (s : State) : Out := s.onDev fun _ d => faultnHigh time d
/-- RAIL_OFF_REACHED. -/
def execRailOffReached (rail : Nat) (s : State) : Out := s.onDevAt 24 rail fun _ d => settle (railOffReached rail d)
/-- RAIL_STOP_LATE. -/
def execRailStopLate (rail tick : Nat) (s : State) : Out :=
  s.onDevAt 24 rail fun _ d => d.atTick tick fun d => settle (railStopLate rail d)
/-- FEED_BLEED_END. -/
def execFeedBleedEnd (feed : Nat) (s : State) : Out := s.onDevAt 40 feed fun _ d => settle (feedBleedEnd feed d)
/-- FEED_BACKFEED: it also marks the step of a sequence that is off (R348). -/
def execFeedBackfeed (feed : Nat) (s : State) : Out :=
  s.onDevAt 40 feed fun _ d =>
    if (d.chan feed).run.idle then seqBackfeed (feedBackfeed feed d) (d.handleOf tFeed feed) else d
/-- BRANCH_OPENING_END. -/
def execBranchOpeningEnd (branch : Nat) (s : State) : Out := s.onDevAt 4 branch fun _ d => settle (branchOpeningEnd branch d)

end Sys2Proof.Machine
end

