-- ==== Sys2Proof/Machine/Source.lean ====
section
/-! DEFINITION. Source selection and hold-up (spec 09): input states, transfers, NONE and brown-out, the hold-up bank. -/

namespace Sys2Proof.Machine

/-! ### Access -/

/-- SOURCE_SET `n`. -/
def Dev.srcSet (d : Dev) (n : Nat) : SrcRt := tget {} d.src n
/-- Change SOURCE_SET `n`. -/
def Dev.modSrc (d : Dev) (n : Nat) (f : SrcRt → SrcRt) : Dev := { d with src := tmod {} d.src n f }
/-- Input `x` of a set. -/
def SrcRt.input (r : SrcRt) (x : Nat) : SrcInput := tget {} r.ins x
/-- Change input `x` of set `n`. -/
def Dev.modIn (d : Dev) (n x : Nat) (f : SrcInput → SrcInput) : Dev :=
  d.modSrc n fun r => { r with ins := tmod {} r.ins x f }
/-- The configuration of set `n`. -/
def Dev.srcCfg (d : Dev) (n : Nat) : List Word := (d.slot tSource n).cfg
/-- A field of the active SRC_BANK. -/
def Dev.srcB (d : Dev) (n w lo len : Nat) : Nat := bits ((d.slot tSource n).bankW w) lo len
/-- The handle of set `n`. -/
def Dev.srcHandle (d : Dev) (n : Nat) : Word := d.handleOf tSource n

/-- BAT is input 2. -/
def inBat := 2
/-- Whether input `x` is a member. -/
def sfMember (ws : List Word) (x : Nat) : Bool := bit (word ws 0) x && decide (x < 4)
/-- The members, rising. -/
def sfMembers (ws : List Word) : List Nat := (List.range 4).filter (sfMember ws)
/-- HOLDUP_EN. -/
def sfHoldup (ws : List Word) : Bool := bit (word ws 0) 4
/-- FLOAT_BAT. -/
def sfFloat (ws : List Word) : Bool := bit (word ws 0) 5
/-- AUTO_RETURN. -/
def sfReturn (ws : List Word) : Bool := bit (word ws 0) 6
/-- The priority of an input; 0 is highest. -/
def sfPrio (ws : List Word) (x : Nat) : Nat := field ws 1 (4 * x) 4
/-- Word `k` of the block of input `x`: VMEAS, IMEAS, PD_V, PD_I, R_SHUNT and V_FS, T_GOFF and T_GON. -/
def sfIn (ws : List Word) (x k : Nat) : Word := word ws (6 + 6 * x + k)
/-- Whether input `x` is a floating BAT. -/
def sfFloating (ws : List Word) (x : Nat) : Bool := sfFloat ws && x == inBat

/-- The live set that holds input `x`. -/
def Dev.setOfInput (d : Dev) (x : Nat) : Option Nat := (d.liveIndices tSource).find? fun n => sfMember (d.srcCfg n) x
/-- The live set that holds the bank. -/
def Dev.holdupSet (d : Dev) : Option Nat := (d.liveIndices tSource).find? fun n => sfHoldup (d.srcCfg n)

/-! ### Checks (R254, R256) -/

/-- The order of a bank's thresholds and its ranges (R256, Table 9.2). -/
def srcBankOk (b : List Word) : Bool :=
  decide (field b 1 0 16 < field b 0 0 16) && decide (field b 0 0 16 < field b 0 16 16) &&
    decide ((field b 6 0 16 : Int) < field b 5 0 16 - field b 5 16 16) &&
    decide (1 ≤ field b 1 16 16) && decide (field b 1 16 16 ≤ 1000) && (List.range 5).all fun k => word b (7 + k) == 0

/-- The block of one member input. -/
def srcInputOk (d : Dev) (ws : List Word) (x : Nat) : Bool :=
  let v := sfIn ws x 0
  let i := sfIn ws x 1
  let pv := sfIn ws x 2
  let pi := sfIn ws x 3
  rqOk v && rqInput v == 184 + x && rqMode v == 0 && !rqInj v && genKnown d [] (rqTrig v) &&
  rqOk i && rqInput i == 188 + x && rqMode i == 2 && !rqInj i && genKnown d [] (rqTrig i) &&
  (pv == 0 || pdRqOk pv) && (pi == 0 || pdRqOk pi) && decide (10 ≤ bits (sfIn ws x 4) 0 16) &&
  decide (1 ≤ bits (sfIn ws x 4) 16 16) && decide (100 ≤ bits (sfIn ws x 5) 0 16) && decide (bits (sfIn ws x 5) 0 16 ≤ 20000) &&
  decide (100 ≤ bits (sfIn ws x 5) 16 16) && decide (bits (sfIn ws x 5) 16 16 ≤ 30000)

/-- The fields of words 0 to 35 in range (Table 9.1). -/
def srcFieldsOk (d : Dev) (ws : List Word) : Bool :=
  let ms := sfMembers ws
  field ws 0 7 25 == 0 && (ms.all fun x => decide (sfPrio ws x ≤ 3)) &&
  ((ms.map (sfPrio ws)).eraseDups.length == ms.length) && field ws 1 16 16 == 0 &&
  (word ws 2 == 0 || d.namesLive tSeq (word ws 2)) && decide (1 ≤ field ws 3 0 16) && pdRqOk (word ws 4) &&
  field ws 5 16 16 == 0 &&
  ((List.range 4).all fun x => if sfMember ws x then srcInputOk d ws x else (List.range 6).all fun k => sfIn ws x k == 0) &&
  (if sfHoldup ws then pdRqOk (word ws 31) && field ws 33 16 16 == 0 && word ws 34 == 0 && word ws 35 == 0
   else (List.range 6).all fun k => word ws (30 + k) == 0)

/-- The PD channels of an input lie in one group with equal settings (R256). -/
def srcPdOk (ws : List Word) : Bool :=
  (sfMembers ws).all fun x => sfIn ws x 2 == 0 || sfIn ws x 3 == 0 || pdSameGroup [sfIn ws x 2, sfIn ws x 3]

/-- t_gap of every ordered pair of members but a floating BAT is at most 40 µs (R256). -/
def srcGapOk (ws : List Word) : Bool :=
  let ms := (sfMembers ws).filter fun x => !sfFloating ws x
  ms.all fun o => ms.all fun n =>
    o == n || decide (200 + bits (sfIn ws o 5) 0 16 + 2000 + bits (sfIn ws n 5) 16 16 + 500 ≤ 40000)

/-- The RANGE conditions of words 0 to 47. -/
def srcBaseRange (d : Dev) (ws : List Word) : Check :=
  Check.first [
    Check.range (srcFieldsOk d ws), Check.range (srcBankOk (ws.drop 36)), Check.range (srcPdOk ws),
    Check.range (srcGapOk ws)]

/-- The STATE conflicts: inputs and the bank held by another set (R254). -/
def srcConflicts (d : Dev) (ws : List Word) : Check :=
  Check.first (((sfMembers ws).map fun x => Check.conflict ((d.setOfInput x).map d.srcHandle)) ++
    [Check.conflict (if sfHoldup ws then d.holdupSet.map d.srcHandle else none)])

/-- Check 8: E_USE against P_HOLD × 40 µs, with the bank words `b`; the shortfall in mJ (R256). -/
def srcEnergy (ws b : List Word) : Option Nat :=
  if sfHoldup ws then
    let x : Int := 80000 * field ws 3 0 16 - 20000000 * field b 5 0 16 + field ws 30 0 16 * field ws 3 16 16 ^ 2
    if 0 < x then some (ceilDiv x 2000000).toNat else none
  else none

/-- What a SOURCE_SET asks of admission (R73). -/
def srcNeeds (ws : List Word) : Needs :=
  let ms := sfMembers ws
  { fs := ms.flatMap fun x => [(11, sfIn ws x 0), (11, sfIn ws x 1)]
    pd := [word ws 4] ++ (ms.flatMap fun x => [sfIn ws x 2, sfIn ws x 3].filter (· != 0)) ++
      (if sfHoldup ws then [word ws 31] else [])
    energy := srcEnergy ws (ws.drop 36) }

/-- A SOURCE_SET as CREATE or CONFIGURE leaves it. -/
def srcLoad (d : Dev) (n : Nat) : Dev := { d with src := tset {} d.src n {} }

/-! ### Bank energy (R261) -/

/-- Whether a set works: ENABLED, with no stop going on (R266). -/
def Dev.srcRuns (d : Dev) (n : Nat) : Bool := d.enabled tSource n && !(d.srcSet n).stopping

/-- The value of the latest HU_PD output. -/
def Dev.bankVal (d : Dev) (n : Nat) : Int := pdVal (d.pdChan (pdRqChan (word (d.srcCfg n) 31))).direct

/-- The bank voltage in 10 mV units, from the latest HU_PD output. -/
def Dev.bankMv10 (d : Dev) (n : Nat) : Int := roundOpen ((Config.bankFullScale : Int) * d.bankVal n) (2 ^ 23)

/-- C_HU × V² in units of 0.5 nJ × 2^-46. -/
def Dev.bankCv2 (d : Dev) (n : Nat) : Int :=
  ((field (d.srcCfg n) 30 0 16 * Config.bankFullScale ^ 2 : Nat) : Int) * d.bankVal n ^ 2

/-- Whether the bank energy lies below a limit in 10 mJ units. -/
def Dev.bankBelow (d : Dev) (n : Nat) (e : Int) : Bool := decide (d.bankCv2 n < e * 20000000 * 2 ^ 46)

/-- E_HU in 10 mJ units. -/
def Dev.bankE (d : Dev) (n : Nat) : Nat :=
  if sfHoldup (d.srcCfg n) then fitU 16 (roundOpen (d.bankCv2 n) (20000000 * 2 ^ 46)) else 0

/-- The charge path after a HU_PD output (R261), and the measurement of the charge that runs (R262). -/
def srcCharge (d : Dev) (n : Nat) : Dev :=
  let ws := d.srcCfg n
  let r := d.srcSet n
  let may := d.srcRuns n && !r.inNone && !r.huRel && !r.bleeding && !r.bleedDue && !d.sitter
  let ceil : Int := d.srcB n 5 0 16
  let on := may && (if r.huChg then d.bankBelow n ceil else d.bankBelow n (ceil - d.srcB n 5 16 16))
  let v := d.bankVal n
  let bus := pdVal (d.pdChan (pdRqChan (word ws 4))).direct
  let flow := (bus * (Config.busFullScale : Int) - v * (Config.bankFullScale : Int)) *
    ((pdSettings d.plane.profile (word ws 31)).2.1 : Int)
  d.modSrc n fun r =>
    { r with huChg := on, charge := (
      if r.huChg then r.charge.map fun c => { c with last := v, sum := c.sum + flow }
      else if on then some { start := v, last := v } else r.charge) }

/-! ### Selection and transfers (R257 to R260) -/

/-- The input of highest priority among some. -/
def highestPrio (ws : List Word) (xs : List Nat) : Option Nat :=
  xs.foldl (fun best x =>
    match best with
    | some b => if sfPrio ws x < sfPrio ws b then some x else some b
    | none => some x) none

/-- The AVAILABLE members. -/
def Dev.srcAvailable (d : Dev) (n : Nat) : List Nat :=
  (sfMembers (d.srcCfg n)).filter fun x => ((d.srcSet n).input x).st == .available

/-- The input to select: a forced one where it is AVAILABLE, else the AVAILABLE input of highest priority; none unless the set
works (R257, R265, R266). -/
def Dev.srcPick (d : Dev) (n : Nat) : Option Nat :=
  let xs := d.srcAvailable n
  if !d.srcRuns n then none
  else match (d.srcSet n).forced with
    | some v => if xs.contains v then some v else highestPrio (d.srcCfg n) xs
    | none => highestPrio (d.srcCfg n) xs

/-- Whether every non-floating member but `x` is confirmed blocking. -/
def Dev.srcBlocked (d : Dev) (n x : Nat) : Bool :=
  let ws := d.srcCfg n
  (sfMembers ws).all fun m => m == x || sfFloating ws m || ((d.srcSet n).input m).blocked

/-- Whether a floating BAT carries the bus. -/
def Dev.srcFloats (d : Dev) (n : Nat) : Bool := ((d.srcSet n).input inBat).st == .floating

/-- SRC_XFER of an attempt that ends with `outcome` (Table 9.10); what no completed gap measures is left free. -/
def srcBlock (d : Dev) (n outcome : Nat) (gap vbus : Option Nat) : Dev :=
  let r := d.srcSet n
  let nib (o : Option Nat) : Nat := o.getD 15
  let (cause, d) := match r.cause with | some c => (c, d) | none => d.freeBits 8
  let (g, d) := match gap with | some g => (g, d) | none => d.freeBits 32
  let (v, d) := match vbus with | some v => (v, d) | none => d.freeBits 16
  let (e, d) := match gap with | some _ => (d.bankE n, d) | none => d.freeBits 16
  let bytes := [0x01, BitVec.ofNat 8 (nib r.old + 16 * nib r.target), BitVec.ofNat 8 cause, BitVec.ofNat 8 outcome] ++
    leBytes 6 r.turn.toNat ++ leBytes 2 r.tick ++ leBytes 4 g ++ leBytes 2 v ++ leBytes 2 r.eBefore ++ leBytes 2 e ++ zeros 10
  d.modSrc n fun r => { r with block := bytes }

/-- The SEQUENCE that a set names as BROWNOUT, where it is live. -/
def Dev.brownoutSeq (d : Dev) (n : Nat) : Option Nat :=
  let h := word (d.srcCfg n) 2
  if d.namesLive tSeq h then some (hIndex h) else none

/-- BROWNOUT starts in down order, once (R260, R311). -/
def srcBrownout (d : Dev) (n : Nat) : Dev :=
  if (d.srcSet n).brownStarted then d
  else
    let d := d.modSrc n fun r => { r with brownStarted := true }
    match d.brownoutSeq n with
    | some q => settle (seqOff d q 3 (some n))
    | none => d

/-- In NONE the bank energy below E_LOW starts BROWNOUT (R260). -/
def srcBankLow (d : Dev) (n : Nat) : Dev :=
  if (d.srcSet n).inNone && sfHoldup (d.srcCfg n) && d.bankBelow n (d.srcB n 6 0 16) then srcBrownout d n else d

/-- The set enters NONE, unless a floating BAT carries the bus. -/
def srcEnterNone (d : Dev) (n : Nat) : Dev :=
  if d.srcFloats n then d
  else srcBankLow (Dev.raise (d.modSrc n fun r => { r with inNone := true, huChg := false }) 0x0702 0 (d.srcHandle n)) n

/-- The transfer ends with no input selected. -/
def srcIdle (d : Dev) (n : Nat) : Dev := d.modSrc n fun r => { r with xfer := .idle, target := none, selected := none }

/-- Drive the next AVAILABLE input from step 5, or end without one (R258); a set that does not work drives none (R265). -/
def srcDriveNext (d : Dev) (n : Nat) (next : Bool) : Dev :=
  match d.srcPick n with
  | some x => d.modSrc n fun r => { r with xfer := .making, target := some x, next := r.next || next }
  | none => srcEnterNone (srcIdle (srcBlock d n 2 none none) n) n

/-- Step 1 of a transfer from `o` to `x` (R258), noted for SRC_XFER. -/
def srcNote (d : Dev) (n : Nat) (o x cause : Option Nat) : Dev :=
  let (tick, d) := d.recordTick
  d.modSrc n fun r =>
    { r with old := o, target := x, cause := cause, next := false, turn := d.wheel.turn, tick := tick
             eBefore := d.bankE n, selected := none, gapTurn := true, returnDue := false }

/-- Step 1 of a transfer from `o` to `x` (R258): it breaks first, unless everything already blocks. -/
def srcStart (d : Dev) (n : Nat) (o : Option Nat) (x : Nat) (cause : Option Nat) : Dev :=
  let making := d.srcBlocked n x
  (srcNote d n o (some x) cause).modSrc n fun r => { r with xfer := if making then .making else .breaking }

/-- With no input selected and no transfer, an AVAILABLE input is chosen, once every other path blocks (R257, R258). -/
def srcSelect (d : Dev) (n : Nat) : Dev :=
  let r := d.srcSet n
  if r.selected.isNone && r.xfer == .idle && !d.sitter then
    match d.srcPick n with
    | some x => if d.srcBlocked n x then srcStart d n none x none else d
    | none => d
  else d

/-- An input enters a state. -/
def SrcInput.enter (i : SrcInput) (st : SrcState) : SrcInput := { i with st := st, turns := 0, whole := false }

/-- A planned transfer away from the selected input (R257, R266). -/
def srcPlanned (d : Dev) (n o x cause : Nat) : Dev :=
  let d := d.modIn n o fun i => { i.enter .available with blocked := sfFloating (d.srcCfg n) o }
  srcStart d n (some o) x (some cause)

/-- The ENABLEs that wait on a set complete (R266). -/
def srcUp (d : Dev) (n : Nat) : Dev := d.endKind .enable (d.srcHandle n) .ok

/-- SET_POINT of a set that is idle (R266). -/
def srcForce (d : Dev) (n v : Nat) : Dev × Status :=
  let r := d.srcSet n
  if v = 15 then (d.modSrc n fun r => { r with forced := none }, .ok)
  else if v < 4 ∧ (r.input v).st = .available then
    let d := d.modSrc n fun r => { r with forced := some v }
    match r.selected with
    | some o => (srcPlanned d n o v 5, .ok)
    | none => if d.srcBlocked n v then (srcStart d n none v (some 5), .ok) else (d, .ok)
  else (d, .state)

/-- The SET_POINTs that waited for a transfer are applied, oldest first, until one starts a transfer (R258). -/
def srcApply : Nat → Dev → Nat → Dev
  | 0, d, _ => d
  | fuel + 1, d, n =>
    let h := d.srcHandle n
    if (d.srcSet n).xfer != .idle then d
    else
      match d.waits.find? fun w => w.handle == h && (match w.kind with | .setPoint _ => true | _ => false) with
      | none => d
      | some w =>
        let v := match w.kind with | .setPoint v => v.toNat | _ => 0
        let d := { d with waits := d.waits.erase w }
        let (d, st) := srcForce d n v
        srcApply fuel (d.answerWait w (plainCpl st h (if st = .ok then v else 0))) n

/-- A transfer has ended, however it ended: what waited for it is applied (R258). -/
def srcDeferred (d : Dev) (n : Nat) : Dev := srcApply (d.waits.length + 1) d n

/-- The selected input is lost (R257, R258): its gate is pulled down, and the channel's injected sequence starts (R95). With
none to take over, the set enters NONE; where a floating BAT carries the bus no transfer occurs (R259). -/
def srcLost (d : Dev) (n x cause : Nat) : Dev :=
  let d := urgentTrigger 11 (44 + x) (d.modIn n x fun i => { i.enter .down with blocked := false })
  match d.srcPick n with
  | some y => srcStart d n (some x) y (some cause)
  | none =>
    if !d.srcRuns n then d.modSrc n fun r => { r with selected := none }
    else if d.srcFloats n then d.modSrc n fun r => { r with selected := none }
    else srcDeferred (srcEnterNone (srcIdle (srcBlock (srcNote d n (some x) none (some cause)) n 2 none none) n) n) n

/-- The gate of the input being made is pulled down, it goes to `st`, and the next input is driven from step 5
(R258). -/
def srcMakeFails (d : Dev) (n x : Nat) (st : SrcState) : Dev :=
  srcDeferred (srcDriveNext (d.modIn n x fun i => { i.enter st with blocked := true }) n true) n

/-- SRC_LOSS. -/
def srcLoss (n x cause : Nat) (d : Dev) : Dev :=
  let r := d.srcSet n
  if (r.input x).st = .selected then srcLost d n x cause
  else if r.xfer = .making ∧ r.target = some x then srcMakeFails d n x .down
  else d

/-- SRC_WINDOW_LOSS: an AVAILABLE input goes to DOWN; a transfer to it takes the next. -/
def srcWindowLoss (n x : Nat) (d : Dev) : Dev :=
  let r := d.srcSet n
  if (r.input x).st = .available then
    if r.xfer = .making ∧ r.target = some x then srcMakeFails d n x .down
    else
      let d := d.modIn n x fun i => i.enter .down
      if r.xfer = .breaking ∧ r.target = some x then
        match d.srcPick n with
        | some y => d.modSrc n fun r => { r with target := some y, next := true }
        | none => srcDeferred (srcEnterNone (srcIdle (srcBlock d n 2 none none) n) n) n
      else d
  else d

/-- SRC_BLOCKING_CONFIRMED: an input that is off blocks; the new input is driven. -/
def srcBlocking (n x : Nat) (d : Dev) : Dev :=
  if ((d.srcSet n).input x).st = .selected ∨ ((d.srcSet n).input x).st = .floating then d
  else
    let d := d.modIn n x fun i => { i with blocked := true }
    let r := d.srcSet n
    match r.xfer, r.target with
    | .breaking, some y =>
      if d.srcBlocked n y && d.srcRuns n then d.modSrc n fun r => { r with xfer := .making } else d
    | _, _ => srcSelect d n

/-- SRC_STUCK: the old input did not block in time (R258). The bus runs on the bank, whose charge path is off in NONE (R261),
and on a floating BAT. -/
def srcStuck (n : Nat) (d : Dev) : Dev :=
  let r := d.srcSet n
  match r.xfer, r.old with
  | .breaking, some o =>
    let d := srcBlock (d.modIn n o fun i => { i.enter .stuckOn with blocked := false }) n 3 none none
    let d := d.modSrc n fun r =>
      { r with xfer := .idle, selected := none, inNone := !d.srcFloats n, huChg := r.huChg && d.srcFloats n }
    srcDeferred (srcBankLow (d.raise 0x0703 o (d.srcHandle n)) n) n
  | _, _ => d

/-- SRC_FAILED: the new input did not conduct in time (R258). -/
def srcFailed (n : Nat) (d : Dev) : Dev :=
  let r := d.srcSet n
  match r.xfer, r.target with
  | .making, some x =>
    srcMakeFails (d.raise 0x0704 x (d.srcHandle n)) n x .failed
  | _, _ => d

/-- An input other than BAT is selected: a brown-out order may turn back, or restart (R346). -/
def srcBack (d : Dev) (n x : Nat) : Dev :=
  if x = inBat then d
  else match d.brownoutSeq n with
    | some q => settle (seqSourceBack d q n)
    | none => d

/-- A PD output that is some set's HU_PD. -/
def srcPdOutput (chan : Nat) (d : Dev) : Dev :=
  match d.holdupSet with
  | some n => if pdRqChan (word (d.srcCfg n) 31) = chan then srcBankLow (srcCharge d n) n else d
  | none => d

/-- SRC_CONDUCTION_CONFIRMED: the transfer completes (R258, R268). -/
def srcConducts (n gapNs vbusMin : Nat) (d : Dev) : Dev :=
  let r := d.srcSet n
  match r.xfer, r.target with
  | .making, some x =>
    let d := d.modIn n x fun i => { i.enter .selected with blocked := false }
    let d := srcBlock d n (b2n r.next) (some gapNs) (some vbusMin)
    let cause := byteField (d.srcSet n).block 2 1
    let d := d.tally 44 4 1
    let d := d.modSrc n fun r => { r with xfer := .idle, selected := some x, inNone := false, brownStarted := false }
    let d := witValue (d.srcHandle n) 0x21 0 gapNs 1 false d
    let d := d.raise 0x0701 (r.old.getD 15 + 16 * x + 256 * cause) (d.srcHandle n)
    srcDeferred (srcBack (srcUp d n) n x) n
  | _, _ => d

/-- SRC_QUALIFIED: T_QUAL turns in the window (R257). -/
def srcQualified (n x : Nat) (d : Dev) : Dev :=
  let i := (d.srcSet n).input x
  if i.st = .qualifying ∧ d.srcB n 2 0 16 ≤ i.turns then srcSelect (d.modIn n x fun i => i.enter .available) n else d

/-- The input to return to: the highest of those AVAILABLE for T_RETURN turns, where it stands above the selected one (R257). -/
def Dev.returnInput (d : Dev) (n : Nat) : Option Nat :=
  let r := d.srcSet n
  let ws := d.srcCfg n
  match r.selected, highestPrio ws ((d.srcAvailable n).filter fun x => d.srcB n 2 16 16 ≤ (r.input x).turns) with
  | some o, some x =>
    if sfReturn ws && r.forced.isNone && r.xfer == .idle && d.srcRuns n && decide (sfPrio ws x < sfPrio ws o) then some x
    else none
  | _, _ => none

/-- SRC_AUTO_RETURN: a higher priority input has been AVAILABLE for T_RETURN turns; the transfer takes place at the next turn
boundary (R257). -/
def srcAutoReturn (n : Nat) (d : Dev) : Dev :=
  if (d.returnInput n).isSome then d.modSrc n fun r => { r with returnDue := true } else d

/-- The turn boundary of a return. -/
def srcReturn (d : Dev) (n : Nat) : Dev :=
  let r := d.srcSet n
  let d := d.modSrc n fun r => { r with returnDue := false }
  match r.returnDue, r.selected, d.returnInput n with
  | true, some o, some x => srcPlanned d n o x 4
  | _, _, _ => d

/-- SRC_NONE_TIMEOUT. -/
def srcNoneTimeout (n : Nat) (d : Dev) : Dev := if (d.srcSet n).inNone then srcBrownout d n else d

/-- BAT is held off while any string's cut-off latch is set (R309). -/
def Dev.batCut (d : Dev) : Bool := d.strs.any fun p => p.2.cut

/-- Whether a voltage result of input `x` lies within the window [V_MIN, V_MAX]. -/
def Dev.srcInside (d : Dev) (n x : Nat) (w : Word) : Bool :=
  let v := fsVal w * bits (sfIn (d.srcCfg n) x 4) 16 16
  decide ((d.srcB n 0 0 16 : Int) * 32768 ≤ v) && decide (v ≤ (d.srcB n 0 16 16 : Int) * 32768)

/-- A voltage sample of input `x` (Table 9.3, R259): DOWN and QUALIFYING follow the window, BAT floats in it. -/
def srcVoltage (x : Nat) (w : Word) (d : Dev) : Dev :=
  match d.setOfInput x with
  | none => d
  | some n =>
    let ws := d.srcCfg n
    let r := d.srcSet n
    let inside := d.srcInside n x w
    if !d.srcRuns n || d.sitter || (x == inBat && d.batCut) then d
    else if sfFloating ws x then
      if inside && (r.input x).st == .down then
        srcUp (Dev.modSrc (d.modIn n x fun i => i.enter .floating) n fun r =>
          { r with inNone := false, brownStarted := false }) n
      else d
    else
      match (r.input x).st with
      | .down => if inside then d.modIn n x fun i => i.enter .qualifying else d
      | .qualifying => if inside then d else d.modIn n x fun i => i.enter .down
      | _ => d

/-- A floating BAT opens (R259). -/
def srcBatOpens (d : Dev) (n : Nat) : Dev :=
  if d.srcFloats n then
    let d := d.modIn n inBat fun i => i.enter .down
    if (d.srcSet n).selected.isNone && (d.srcSet n).xfer == .idle then srcEnterNone d n else d
  else d

/-- BAT is held off by a cut-off latch: its gate is pulled down (R309). -/
def srcBatHold (d : Dev) (n : Nat) : Dev :=
  match ((d.srcSet n).input inBat).st with
  | .selected => srcLost d n inBat 1
  | .floating => srcBatOpens d n
  | .available => srcWindowLoss n inBat d
  | .qualifying => d.modIn n inBat fun i => i.enter .down
  | _ => d

/-! ### Hold-up (R252, R262, R263) -/

/-- HOLDUP_RELEASE. -/
def holdupRelease (on : Bool) (d : Dev) : Dev :=
  match d.holdupSet with
  | some n =>
    let r := d.srcSet n
    if (d.slot tSource n).hstate = .disabled ∨ r.bleeding = true ∨ d.sitter = true then d
    else d.modSrc n fun r => { r with huRel := on, huChg := r.huChg && !on }
  | none => d

/-- C_MEAS of a measured charge in 10 µF units: the integral of (V_BUS − V_HU) / R_CHG over the rise of V_HU (R262); none where
the bank did not rise. -/
def chargeMeasure (ws : List Word) (c : HuCharge) : Option Nat :=
  let rise := (c.last - c.start) * (Config.bankFullScale : Int)
  if 0 < rise then
    some (fitU 16 (roundOpen (c.sum * 1000) (8192 * max 1 (field ws 30 16 16) * rise.toNat)))
  else none

/-- HOLDUP_CHARGE_END: a charge ends, and C_MEAS is measured against C_MIN (R262). -/
def holdupChargeEnd (d : Dev) : Dev :=
  match d.holdupSet with
  | some n =>
    let ws := d.srcCfg n
    let r := d.srcSet n
    let d := d.modSrc n fun r => { r with huChg := false, charge := none }
    match r.charge.bind (chargeMeasure ws) with
    | some cMeas =>
      let chu := field ws 30 0 16
      let d := d.modSrc n fun r => { r with cMeas := cMeas }
      let uncovered := decide ((cMeas : Int) * (20000000 * d.srcB n 5 0 16 - field ws 3 16 16 ^ 2 * chu)
        < 80000 * field ws 3 0 16 * chu)
      if cMeas < d.srcB n 6 16 16 then
        d.raiseOnceRound (0x0705 * 4096 + n) 0x0705 (b2n uncovered) (d.srcHandle n)
      else d
    | none => d
  | none => d

/-- A bleed is due on DISABLE, a Sitter trip, or once the brown-out sequence has completed (R263). -/
def Dev.bleedIsDue (d : Dev) (n : Nat) : Bool :=
  let r := d.srcSet n
  r.bleedDue || (r.brownStarted && match d.brownoutSeq n with
    | some q => (d.sq q).cause == 3 && ((d.sq q).run == .off || (d.sq q).run == .locked)
    | none => false)

/-- HOLDUP_BLEED_START: both other paths turn off, and the black-box commit starts (R263, R435). -/
def holdupBleedStart (time : Nat) (d : Dev) : Dev :=
  match d.holdupSet with
  | some n =>
    if d.bleedIsDue n && !(d.srcSet n).bleeding then
      let now := max d.now time
      blackBoxStart true (Dev.modSrc { d with now := now } n fun r =>
        { r with bleeding := true, bleedDue := false, bleedLate := false, huChg := false, huRel := false, bleedAt := now })
    else d
  | none => d

/-- HU_BLG turns on where the bank bleeds. -/
def holdupBlgOn (d : Dev) : Dev :=
  match d.holdupSet with
  | some n => if (d.srcSet n).bleeding then d.modSrc n fun r => { r with huBlg := true } else d
  | none => d

/-- HOLDUP_BLEED_GATE: the black-box commit has finished, or 10 ms have passed since the bleed started (R263). -/
def holdupBleedGate (time : Nat) (d : Dev) : Dev :=
  match d.holdupSet with
  | some n => if d.wit.commit.isNone || decide ((d.srcSet n).bleedAt + 1000000 ≤ time) then holdupBlgOn d else d
  | none => d

/-- Change the Ledger. -/
def Dev.modLed (d : Dev) (f : Led → Led) : Dev := { d with led := f d.led }

/-- Whether some SOURCE_SET is ENABLED. -/
def Dev.anySet (d : Dev) : Bool := (List.range 2).any fun n => d.enabled tSource n

/-- The two conditions of R280 as they stand: run wherever either may have changed. -/
def ledNote (d : Dev) : Dev :=
  d.modLed fun l => { l with pdAll := l.pdAll && d.acq.pdDone, srcAll := l.srcAll && d.anySet }

/-- The stop of a set has ended: what waits for it completes. -/
def srcOff (d : Dev) (n : Nat) : Dev :=
  if d.hasWait .disable (d.srcHandle n) || d.hasWait .destroyForce (d.srcHandle n) then
    ledNote (elementOff (d.modSrc n fun r => { r with stopping := false }) tSource n 0)
  else d

/-- HOLDUP_BLEED_END: V_HU is below V_SAFE, or T_BLEED has passed first (R263). -/
def holdupBleedEnd (late : Bool) (time : Nat) (d : Dev) : Dev :=
  match d.holdupSet with
  | some n =>
    let ws := d.srcCfg n
    let r := d.srcSet n
    if !r.bleeding then d
    else if late then
      if r.bleedLate || decide (time < r.bleedAt + field ws 33 0 16 * 100000) then d
      else Dev.raise (d.modSrc n fun r => { r with bleedLate := true }) 0x0706 (fitU 16 (d.bankMv10 n)) (d.srcHandle n)
    else if (Config.bankFullScale : Int) * d.bankVal n < field ws 32 16 16 * 2 ^ 23 then
      srcOff (d.modSrc n fun r => { r with bleeding := false, huBlg := false }) n
    else d
  | none => d

/-! ### Gates off (R265, R266) -/

/-- Every source gate of a set goes off: what is not FAILED or STUCK_ON goes to DOWN. An input whose gate was driven is not
confirmed blocking any more (R258). -/
def srcGatesOff (d : Dev) (n : Nat) : Dev :=
  let r := d.srcSet n
  let d := match r.xfer, r.target with
    | .making, some x => d.modIn n x fun i => { i with blocked := false }
    | _, _ => d
  d.modSrc n fun r =>
    { r with
      ins := tmapAll {} r.ins fun _ i => (
        match i.st with
        | .failed => i
        | .stuckOn => i
        | .selected => { i.enter .down with blocked := false }
        | _ => i.enter .down)
      selected := none, inNone := false, xfer := .idle, target := none, huChg := false, huRel := false, forced := none
      brownStarted := false, returnDue := false }

/-- The Sitter trips (Table 9.7). -/
def srcSitter (d : Dev) (n : Nat) : Dev :=
  if (d.slot tSource n).hstate = .disabled then d
  else (srcGatesOff d n).modSrc n fun r => { r with bleedDue := sfHoldup (d.srcCfg n) && !r.bleeding }

/-- ENABLE (R266). -/
def srcEnable (src : Src) (d : Dev) (n : Nat) : Dev × Answer :=
  let h := d.srcHandle n
  let d := d.modSlot tSource n fun s => { s with hstate := .enabled }
  (d.addWait src .enable h, .waits)

/-- Whether every RAIL, FEED and BRANCH is OFF. -/
def Dev.allOff (d : Dev) : Bool :=
  ((d.liveIndices tRail).all fun i => (d.rail i).run == .off) && d.liveChans.all fun c => (d.chan c).run == .off

/-- The gates go off and the bank bleeds; `k` is what waits for the end. -/
def srcShut (src : Src) (k : WaitKind) (d : Dev) (n : Nat) : Dev × Answer :=
  let h := d.srcHandle n
  let d := d.endKind .enable h .aborted
  let d := d.endWaits (fun w => w.handle == h && (match w.kind with | .setPoint _ => true | _ => false))
    fun w => plainCpl .aborted w.handle 0
  let d := ((srcGatesOff d n).modSrc n fun r => { r with stopping := true }).addWait src k h
  if sfHoldup (d.srcCfg n) then (d.modSrc n fun r => { r with bleedDue := !r.bleeding }, .waits)
  else (srcOff d n, .waits)

/-- DISABLE: STATE while any RAIL, FEED or BRANCH is not OFF (R266). -/
def srcDisable (src : Src) (d : Dev) (n : Nat) : Dev × Answer :=
  if d.allOff then srcShut src .disable d n else (d, .done .state 0)

/-- SET_POINT (R258, R266): a value that is neither an input nor 0xF is out of range (Table 9.8). -/
def srcSetPoint (src : Src) (d : Dev) (n v : Nat) : Dev × Answer :=
  if 4 ≤ v ∧ v ≠ 15 then (d, .done .range 0)
  else if (d.srcSet n).xfer != .idle then (d.addWait src (.setPoint v) (d.srcHandle n), .waits)
  else
    let (d, st) := srcForce d n v
    (d, .done st (if st = .ok then v else 0))

/-- CLEAR bits 0 and 1 (Table 9.8). -/
def srcClear (d : Dev) (n : Nat) (v : Word) : Dev :=
  let d := if bit v 0 then d.modSrc n fun r => { r with ins := tmapAll {} r.ins fun _ i => (
      if i.st = .failed ∨ (i.st = .stuckOn ∧ i.blocked = true) then i.enter .down else i) } else d
  if bit v 1 then d.modSrc n fun r => { r with block := [] } else d

/-- A fence of the set: the gates are held, but a floating BAT opens (R259); the charge path is off (Table 9.7). -/
def srcFence (d : Dev) (n : Nat) : Dev := srcBatOpens (d.modSrc n fun r => { r with huChg := false }) n

/-- Whether some input holds FAULT_N: STUCK_ON and not yet blocking (Table 12.11). -/
def Dev.srcStuckSource (d : Dev) : Bool :=
  (d.liveIndices tSource).any fun n => (d.srcSet n).ins.any fun p => p.2.st == .stuckOn && !p.2.blocked

/-- A turn boundary for an input: a whole turn in its state counts (R257). -/
def SrcInput.turn (i : SrcInput) : SrcInput := { i with turns := if i.whole then i.turns + 1 else i.turns, whole := true }

/-- A turn ends for the sets: the inputs count it, a gap that goes on falls in the next turn too (R264), and a return that is
due takes place (R257). -/
def srcTurn (d : Dev) : Dev :=
  let d : Dev := { d with src := tmapAll {} d.src fun _ (r : SrcRt) =>
    { r with ins := tmapAll {} r.ins (fun _ i => i.turn), gapEnded := r.gapTurn, gapTurn := r.xfer != Xfer.idle } }
  (d.liveIndices tSource).foldl srcReturn d

/-! ### Blocks (R267, R268) -/

/-- Codes of the input states. -/
def SrcState.code : SrcState → Nat
  | .down => 0 | .qualifying => 1 | .available => 2 | .selected => 3 | .floating => 4 | .failed => 5 | .stuckOn => 6

/-- Whether a floating BAT is reported as SELECTED: no other member is selected, or within the window by its latest sample
(R259). -/
def Dev.batAlone (d : Dev) (n : Nat) : Bool :=
  d.srcFloats n && (d.srcSet n).selected.isNone && (sfMembers (d.srcCfg n)).all fun x =>
    x == inBat || !d.srcInside n x (d.fsLast (184 + x))

/-- XFER of Table 9.9: until the old input is confirmed blocking the transfer is breaking or confirming, which of the two left
free (log entry 59). -/
def xferCode (d : Dev) (x : Xfer) : Nat :=
  match x with
  | .idle => 0
  | .breaking => 1 + Config.freeNat d.fresh % 2
  | .making => 3

/-- SRC_STATE (Table 9.9). -/
def srcState (d : Dev) (n : Nat) : Nat :=
  let s := d.slot tSource n
  let r := d.srcSet n
  let ws := d.srcCfg n
  let alone := d.batAlone n
  let code (x : Nat) : Nat :=
    if !sfMember ws x then 7 else if alone && x == inBat then 3 else (r.input x).st.code
  s.hstate.code + (if alone then 2 else r.selected.getD 0) * 4 + b2n (r.selected.isNone && !alone) * 16
    + xferCode d r.xfer * 32 + b2n r.forced.isSome * 128
    + (code 0 + code 1 * 8 + code 2 * 64 + code 3 * 512) * 256 + b2n r.huRel * 2 ^ 20 + b2n r.huChg * 2 ^ 21
    + b2n r.huBlg * 2 ^ 22 + b2n s.activeB * 2 ^ 23 + b2n s.swap * 2 ^ 24 + d.bankE n * 2 ^ 32 + r.cMeas * 2 ^ 48

/-- SRC_XFER (Table 9.10). -/
def srcXferBlock (d : Dev) (n : Nat) : List Byte :=
  if (d.srcSet n).block.isEmpty then 0x01 :: zeros 31 else (d.srcSet n).block

/-! ### Commands -/

/-- Run an event on a live set. -/
def onSet (n : Nat) (f : Dev → Dev) (d : Dev) : Dev := if d.live tSource n then f d else d

/-- SRC_QUALIFIED. -/
def execSrcQualified (set input : Nat) (s : State) : Out := s.onDevAt 2 set fun _ d => onSet set (srcQualified set input) d
/-- SRC_LOSS. -/
def execSrcLoss (set input cause tick : Nat) (s : State) : Out :=
  s.onDevAt 2 set fun _ d => d.atTick tick (onSet set (srcLoss set input cause))
/-- SRC_BLOCKING_CONFIRMED. -/
def execSrcBlockingConfirmed (set input : Nat) (s : State) : Out :=
  s.onDevAt 2 set fun _ d => onSet set (srcBlocking set input) d
/-- SRC_CONDUCTION_CONFIRMED. -/
def execSrcConductionConfirmed (set gapNs vbusMin : Nat) (s : State) : Out :=
  s.onDevAt 2 set fun _ d => onSet set (srcConducts set gapNs vbusMin) d
/-- SRC_STUCK. -/
def execSrcStuck (set : Nat) (s : State) : Out := s.onDevAt 2 set fun _ d => onSet set (srcStuck set) d
/-- SRC_FAILED. -/
def execSrcFailed (set : Nat) (s : State) : Out := s.onDevAt 2 set fun _ d => onSet set (srcFailed set) d
/-- SRC_AUTO_RETURN. -/
def execSrcAutoReturn (set : Nat) (s : State) : Out := s.onDevAt 2 set fun _ d => onSet set (srcAutoReturn set) d
/-- SRC_NONE_TIMEOUT. -/
def execSrcNoneTimeout (set : Nat) (s : State) : Out := s.onDevAt 2 set fun _ d => onSet set (srcNoneTimeout set) d
/-- SRC_WINDOW_LOSS. -/
def execSrcWindowLoss (set input tick : Nat) (s : State) : Out :=
  s.onDevAt 2 set fun _ d => d.atTick tick (onSet set (srcWindowLoss set input))
/-- HOLDUP_RELEASE. -/
def execHoldupRelease (on : Bool) (s : State) : Out := s.onDev fun _ d => holdupRelease on d
/-- HOLDUP_CHARGE_END. -/
def execHoldupChargeEnd (s : State) : Out := s.onDev fun _ d => holdupChargeEnd d
/-- HOLDUP_BLEED_START. -/
def execHoldupBleedStart (time tick : Nat) (s : State) : Out := s.onDev fun _ d => d.atTick tick (holdupBleedStart time)
/-- HOLDUP_BLEED_GATE. -/
def execHoldupBleedGate (time : Nat) (s : State) : Out := s.onDev fun _ d => holdupBleedGate time d
/-- HOLDUP_BLEED_END. -/
def execHoldupBleedEnd (late : Bool) (time : Nat) (s : State) : Out := s.onDev fun _ d => holdupBleedEnd late time d

end Sys2Proof.Machine
end

