-- ==== Sys2Proof/Machine/Battery.lean ====
section
/-! DEFINITION. Battery strings (spec 11): configuration and tables, the charge accumulator, hibernation and wake, the
voltage cut-off, and the estimator's step. -/

namespace Sys2Proof.Machine

/-! ### Access and configuration (R293, R294) -/

/-- STRING `i`. -/
def Dev.str (d : Dev) (i : Nat) : StrRt := tget {} d.strs i
/-- Change STRING `i`. -/
def Dev.modStr (d : Dev) (i : Nat) (f : StrRt → StrRt) : Dev := { d with strs := tmod {} d.strs i f }
/-- The configuration of STRING `i`. -/
def Dev.strCfg (d : Dev) (i : Nat) : List Word := (d.slot tString i).cfg
/-- The handle of STRING `i`. -/
def Dev.strHandle (d : Dev) (i : Nat) : Word := d.handleOf tString i

/-- CELLS. -/
def bsCells (ws : List Word) : Nat := field ws 0 0 6
/-- MID_EN. -/
def bsMid (ws : List Word) : Bool := field ws 0 6 1 == 1
/-- C_NOM in 10 mAh. -/
def bsCnom (ws : List Word) : Nat := field ws 2 0 16
/-- R_SHUNT in µΩ. -/
def bsShunt (ws : List Word) : Nat := max 1 (field ws 2 16 16)
/-- V_RATIO in 0.01 units. -/
def bsVratio (ws : List Word) : Nat := field ws 3 0 16
/-- The four channel requests: VMEAS, IMEAS, TMEAS and, where present, MMEAS. -/
def bsReqs (ws : List Word) : List Word := [word ws 4, word ws 5, word ws 6] ++ (if bsMid ws then [word ws 7] else [])

/-- MODE of a PD request. -/
def pdRqMode (w : Word) : Nat := bits w 5 2

/-- The tables of a BATT_BANK in their ranges and orders (R297, Table 11.3). -/
def battTablesOk (b : List Byte) : Bool :=
  let s16 (o : Nat) : Int := sx 16 (byteField b o 2)
  let u16 (o : Nat) : Nat := byteField b o 2
  ((List.range 12).all fun k => decide (-5120 ≤ s16 (64 + 2 * k)) && decide (s16 (64 + 2 * k) ≤ 10880)) &&
  ((List.range 11).all fun k => decide (s16 (64 + 2 * k) < s16 (66 + 2 * k))) &&
  ((List.range 10).all fun k => decide (1 ≤ u16 (88 + 2 * k)) && decide (u16 (88 + 2 * k) ≤ 5000)) &&
  ((List.range 9).all fun k => decide (u16 (88 + 2 * k) < u16 (90 + 2 * k))) &&
  ((List.range 120).all fun k => decide (1638 ≤ u16 (108 + 2 * k)) && decide (u16 (108 + 2 * k) ≤ 32767)) &&
  ((List.range 252).all fun k => decide (20000 ≤ u16 (348 + 2 * k)) && decide (u16 (348 + 2 * k) ≤ 45000)) &&
  (List.range 252).all fun k => k % 21 == 20 || decide (u16 (348 + 2 * k) ≤ u16 (350 + 2 * k))

/-- A BATT_BANK in range: parameters with their stated ranges, reserved bits, tables. -/
def battBankOk (b : List Byte) : Bool :=
  let ws := wordsOfBytes (b.take 64)
  decide (orDefault 60 (field ws 4 16 16) ≤ 3600) && decide (10 ≤ orDefault 50 (field ws 5 0 16)) && field ws 3 24 8 == 0 &&
    field ws 7 17 15 == 0 && ((List.range 7).all fun k => word ws (9 + k) == 0) && battTablesOk b

/-- The RANGE conditions of a STRING's configuration (R294). -/
def battRange (ws : List Word) : Check :=
  let rs := bsReqs ws
  Check.first [
    Check.range (ws.length == 225 && decide (4 ≤ bsCells ws) && decide (bsCells ws ≤ 32) && field ws 0 7 25 == 0 &&
      decide (100 ≤ bsCnom ws) && decide (10 ≤ field ws 2 16 16) && decide (100 ≤ bsVratio ws) && decide (bsVratio ws ≤ 20000) &&
      (if bsMid ws then decide (100 ≤ field ws 3 16 16) && decide (field ws 3 16 16 ≤ 20000) else field ws 3 16 16 == 0) &&
      decide (1000 ≤ field ws 8 16 16) && decide (field ws 8 16 16 ≤ 10000) && field ws 9 16 16 == 0 &&
      decide (15000 ≤ field ws 10 0 16) && decide (field ws 10 0 16 ≤ 40000) && decide (1 ≤ field ws 10 16 16) &&
      decide (field ws 10 16 16 ≤ 10000) && decide (1 ≤ field ws 11 0 16) && field ws 11 16 16 == 0 && rs.all pdRqOk),
    Check.range (pdRqMode (word ws 4) == 1 && pdRqMode (word ws 5) == 0 && pdRqMode (word ws 6) == 2 &&
      (!bsMid ws || pdRqMode (word ws 7) == 1)),
    Check.range (pdSameGroup rs),
    Check.range (bsMid ws || word ws 7 == 0),
    Check.range (battBankOk ((bytesOfWords (ws.drop 12)).take 852))]

/-- What a STRING asks of admission. -/
def battNeeds (ws : List Word) : Needs := { pd := bsReqs ws }

/-- A STRING as CREATE or CONFIGURE leaves it: its accumulator starts at 0 (R299). -/
def battLoad (d : Dev) (i : Nat) : Dev := { d with strs := tset {} d.strs i {} }

/-! ### BATT_BANK (Table 11.2) -/

/-- A parameter of the active bank, with its default where it is written 0 (R296). -/
def Dev.battP (d : Dev) (i w lo len dflt : Nat) : Nat := orDefault dflt (bits ((d.slot tString i).bankW w) lo len)

/-- ANCHOR_MAX in steps: 0 is 48 h at the nominal frequency. -/
def Dev.anchorMax (d : Dev) (i : Nat) : Nat :=
  d.battP i 1 0 16 (if d.wheel.nominal60 then 10368 else 8640) * 1000

/-- Entry of an axis or table of the active bank. -/
def Dev.battT (d : Dev) (i off : Nat) : Nat := byteField (d.slot tString i).active off 2

/-! ### Lookups (R298) -/

/-- Where a value lies on an axis: the lower point, the distance from it, the step, and whether it lies beyond an
end. -/
def axisPos (axis : List Int) (x : Int) : Nat × Int × Nat × Bool :=
  let n := axis.length
  let a (k : Nat) : Int := axis.getD k 0
  if x < a 0 then (0, 0, 1, true)
  else if a (n - 1) ≤ x then (n - 2, a (n - 1) - a (n - 2), (a (n - 1) - a (n - 2)).toNat, decide (a (n - 1) < x))
  else
    let k := ((List.range (n - 1)).find? fun k => decide (x < a (k + 1))).getD 0
    (k, x - a k, (a (k + 1) - a k).toNat, false)

/-- The TEMP axis in 2^-16 °C. -/
def Dev.tempAxis (d : Dev) (i : Nat) : List Int := (List.range 12).map fun k => sx 16 (d.battT i (64 + 2 * k)) * 512
/-- The RATE axis in 10^-6 C. -/
def Dev.rateAxis (d : Dev) (i : Nat) : List Int := (List.range 10).map fun k => (d.battT i (88 + 2 * k) : Int) * 1000

/-- CAP at a temperature and a rate, in 2^-30 units, and whether an axis was left. -/
def Dev.capAt (d : Dev) (i : Nat) (t rate : Int) : Int × Bool :=
  let (k, x, dx, ox) := axisPos (d.tempAxis i) t
  let (m, y, dy, oy) := axisPos (d.rateAxis i) rate
  let c (a b : Nat) : Int := d.battT i (108 + 2 * (10 * a + b))
  let lo := c k m * (dy - y) + c k (m + 1) * y
  let hi := c (k + 1) m * (dy - y) + c (k + 1) (m + 1) * y
  (roundOpen ((lo * (dx - x) + hi * x) * 65536) (max 1 (dx * dy)), ox || oy)

/-- The 21-point OCV curve at a temperature, in 2^-16 × 0.1 mV, and whether the axis was left. -/
def Dev.ocvCurve (d : Dev) (i : Nat) (t : Int) : List Int × Bool :=
  let (k, x, dx, o) := axisPos (d.tempAxis i) t
  let c (a s : Nat) : Int := d.battT i (348 + 2 * (21 * a + s))
  ((List.range 21).map fun s => roundOpen ((c k s * (dx - x) + c (k + 1) s * x) * 65536) (max 1 dx), o)

/-- The curve inverted at a cell voltage: the SoC in 2^-48, and the rise of its segment in 2^-16 × 0.1 mV per 5 %. -/
def invertOcv (curve : List Int) (v : Int) : Int × Int :=
  let c (k : Nat) : Int := curve.getD k 0
  if v < c 0 then (0, c 1 - c 0)
  else if c 20 < v then (2 ^ 48, c 20 - c 19)
  else
    let k := ((List.range 20).find? fun k => decide (c k ≤ v) && decide (v ≤ c (k + 1))).getD 0
    let dv := c (k + 1) - c k
    if dv ≤ 0 then ((k : Int) * 2 ^ 48 / 20, 0)
    else (roundOpen (((k : Int) * dv + (v - c k)) * 2 ^ 48) (20 * dv).toNat, dv)

/-- C_EFF in 2^-16 µC (R300). -/
def Dev.ceff (d : Dev) (i : Nat) (t rate : Int) : Int :=
  max 1 (roundOpen ((bsCnom (d.strCfg i) : Int) * 36000000 * 65536 * (d.str i).soh * (d.capAt i t rate).1) (2 ^ 44))

/-! ### Groups and wake (R105, R317, R318) -/

/-- The PD group of a string. -/
def Dev.strGroup (d : Dev) (i : Nat) : Nat := pdRqChan (word (d.strCfg i) 4) / 4

/-- Whether a string may stop its group: every channel is unassigned, its own, or a hibernating string's (R105). -/
def groupOwn (d : Dev) (i : Nat) : Bool :=
  let g := d.strGroup i
  (List.range 4).all fun k =>
    match (d.pdChan (4 * g + k)).owner with
    | none => true
    | some key => key == slotKey tString i ||
        (key / 4096 == tString && ((d.str (key % 4096)).power == .hibernating || (d.str (key % 4096)).power == .stopped))

/-- Stop the group of a string. -/
def groupStop (d : Dev) (i : Nat) : Dev := pdStop d (d.strGroup i)

/-- Start the group of a string: its channels settle afresh. -/
def groupStart (d : Dev) (i : Nat) : Dev := pdRestart d (d.strGroup i)

/-- BATT_HIBERNATE events are limited to one a turn. -/
def hibEvent (d : Dev) (i v : Nat) : Dev := d.raiseOnceTurn (0x0906 * 16 + i) 0x0906 v (d.strHandle i)

/-- A hibernating or stopped string wakes (R317, R318). -/
def battWake (d : Dev) (i : Nat) : Dev :=
  let start (k : Nat) : Dev := (groupStart d i).modStr i fun r =>
    { r with power := .settling, wakeCharge := k, reduced := false, lowTurns := 0
             run := { r.run with awake := false, settling := true } }
  match (d.str i).power with
  | .hibernating => hibEvent ((start 2).modStr i fun r => { r with vpol := 0 }) i 0
  | .stopped => start 1
  | _ => d

/-- A string samples at its full rate again: a stopped group starts, a sampled turn is not followed by a stop (R318). -/
def battFullRate (d : Dev) (i : Nat) : Dev :=
  if (d.str i).power = .stopped then battWake d i else d.modStr i fun r => { r with reduced := false, sampling := false }

/-! ### Records (R320, R321) -/

/-- Codes of Table 11.8. -/
def Service.code : Service → Nat
  | .start => 0 | .normal => 1 | .test => 2 | .recovery => 3

/-- A fraction in 2^-48 in units of `1 / n`. -/
def frac48 (n : Nat) (v : Int) : Int := roundOpen (v * n) (2 ^ 48)

/-- The reported SoC in 2^-48 (R302). -/
def StrRt.socOut (r : StrRt) : Int := clampInt 0 (2 ^ 48) r.soc

/-- A charge in µC. -/
def microC (q : Int) : Int := roundOpen q 65536

/-- The state record BATT_KILN (Table 11.10). -/
def battRecord (d : Dev) (i : Nat) : List Byte :=
  let r := d.str i
  withCrc (
    [0x01, BitVec.ofNat 8 i] ++ leBytes 4 (word (d.strCfg i) 1).toNat ++ leBytes 2 r.soh ++ leBytes 2 r.cycles ++
    [BitVec.ofNat 8 r.hund, BitVec.ofNat 8 r.learned] ++ leBytes 4 (fitU 32 (roundOpen (microC r.rem) 1000)) ++
    leBytes 2 (fitU 16 (frac48 10000 r.socOut)) ++ leBytes 2 (fitU 16 (frac48 10000 r.u)) ++
    leBytes 4 (fitS 32 (frac48 1000000 r.soc)) ++ leBytes 8 (fitS 64 (microC r.q)) ++ leBytes 4 (min (2 ^ 32 - 1) r.age) ++
    leBytes 2 r.jumps ++ leBytes 2 (fitS 16 r.maxJump) ++
    [BitVec.ofNat 8 r.service.code, BitVec.ofNat 8 (b2n r.unanchored + b2n r.disagree * 2 + b2n r.cut * 4)] ++
    leBytes 6 d.wheel.turn.toNat ++ leBytes 2 (fitS 16 (roundOpen r.vpol 1000000)) ++ zeros 12)

/-- Write the state record by the two-copy method; a string that was never enabled has none of its own (log entry 90). -/
def battSave (d : Dev) (i : Nat) : Dev :=
  if !(d.str i).known then d
  else { d.modStr i (fun r => { r with bSave := r.b }) with kiln := { d.kiln with strings := tmod {} d.kiln.strings i fun c => c.write (battRecord d i) } }

/-- The event of a string. -/
def battEvent (d : Dev) (i code detail : Nat) : Dev := d.raise code detail (d.strHandle i)

/-- Enter a service state: reported and recorded (R316, R320). NORMAL samples at the full rate (R318). -/
def battEnter (d : Dev) (i : Nat) (s : Service) : Dev :=
  let d := if s = .normal then battFullRate d i else d
  battSave (battEvent (d.modStr i fun r => { r with service := s, serviceTurns := 0, zValid := false }) i 0x0909 s.code) i

/-- Change the service state (R316). -/
def battService (d : Dev) (i : Nat) (s : Service) : Dev := if (d.str i).service = s then d else battEnter d i s

/-- DISAGREE follows SOC_RAW, or is cleared (R302). -/
def battDisagree (d : Dev) (i : Nat) (on : Bool) : Dev :=
  if (d.str i).disagree = on then d
  else battEvent (d.modStr i fun r =>
    { r with disagree := on, learn := { r.learn with disagree := r.learn.disagree || (on && r.learn.st == .running) } }) i 0x0904 (b2n on)

/-- UNANCHORED is set or cleared (R308). -/
def battUnanchor (d : Dev) (i : Nat) (on : Bool) : Dev :=
  if (d.str i).unanchored = on then d
  else battEvent (d.modStr i fun r => { r with unanchored := on, unSteps := 0 }) i 0x0903 (b2n on)

/-- A RUNNING learning cycle is disqualified (R313). -/
def learnFails (d : Dev) (i code : Nat) : Dev :=
  if (d.str i).learn.st = .running then
    battEvent (d.modStr i fun r => { r with learn := { r.learn with st := .idle, last := code } }) i 0x0905 code
  else d

/-- A shown jump of SOC_RAW (R307). -/
def battJump (d : Dev) (i : Nat) (soc u : Int) : Dev :=
  d.modStr i fun r =>
    let j := frac48 10000 (soc - r.soc)
    { r with soc := soc, u := u, lastJump := j, jumps := satAdd 16 r.jumps 1
             maxJump := if r.maxJump.natAbs < j.natAbs then j else r.maxJump, runN := 0, runSum := 0 }

/-! ### The impedance table (R304, R322) -/

/-- A table with every cell unmeasured. -/
def zFresh (d : Dev) (i : Nat) : List Byte :=
  let body := leBytes 4 (word (d.strCfg i) 1).toNat ++ ((d.slot tString i).active.drop 64).take 24 ++
    (List.range 264).flatMap fun _ => [0xFF, 0xFF, 0, 0] ++ ([] : List Byte)
  [0x01, BitVec.ofNat 8 i] ++ leBytes 2 (crc16 body) ++ body

/-- Seal a table with its CRC. -/
def zSeal (b : List Byte) : List Byte := b.take 2 ++ leBytes 2 (crc16 (b.drop 4)) ++ b.drop 4

/-- The table of a string. -/
def Dev.zTable (d : Dev) (i : Nat) : List Byte :=
  let b := (tget ({} : Copies) d.kiln.impedance i).newer
  if b.isEmpty then zFresh d i else b

/-- Store a table by the two-copy method (R322). -/
def zStore (d : Dev) (i : Nat) (b : List Byte) : Dev :=
  { d with kiln := { d.kiln with impedance := tmod {} d.kiln.impedance i fun c => c.write b } }

/-- The nearest of rising points, the lower one of a tie. -/
def nearest (pts : List Int) (x : Int) : Nat :=
  ((List.range pts.length).foldl (fun best k =>
    if ((pts.getD k 0) - x).natAbs < ((pts.getD best 0) - x).natAbs then k else best) 0)

/-- The offset of the cell of a temperature and a reported SoC. -/
def zCell (d : Dev) (i : Nat) (t soc : Int) (h : Nat) : Nat :=
  let k := nearest (d.tempAxis i) t
  let s := nearest ((List.range 11).map fun (s : Nat) => (s : Int) * 2 ^ 48 / 10) soc
  32 + 4 * (22 * k + 2 * s + h)

/-- R_EFF of the step in µΩ, and whether it is live (R304). -/
def battReff (d : Dev) (i : Nat) : Option Int × Bool :=
  let r := d.str i
  let window := d.battP i 5 0 16 50
  match r.zLast with
  | some (turn, re) =>
    if (d.wheel.turn - turn).toNat ≤ 4 * window then (some re, true)
    else table r
  | none => table r
where
  /-- The cell's real part, where it is measured. -/
  table (r : StrRt) : Option Int × Bool :=
    let v := byteField (d.zTable i) (zCell d i r.t r.socOut 0) 2
    (if v = 0xFFFF then none else some v, false)

/-- A bank swap: a TEMP axis that differs from the stored one resets the table (R304). -/
def battSwapped (d : Dev) (i : Nat) : Dev :=
  let b := (tget ({} : Copies) d.kiln.impedance i).newer
  if b.isEmpty || (b.drop 8).take 24 == ((d.slot tString i).active.drop 64).take 24 then d
  else battEvent (zStore d i (zFresh d i)) i 0x0908 0

/-- The phasors of the ended turn, current in nA and voltage in nV (R303): both channels carry the same decimation delay,
which their quotient does not see. -/
def battPhasors (d : Dev) (i : Nat) : (Cx × Cx) × (Cx × Cx) :=
  let ws := d.strCfg i
  let r := d.str i
  (r.ripI.phasors 50000000000000 (2 ^ 23 * bsShunt ws), r.ripV.phasors (12500000 * bsVratio ws) (2 ^ 23))

/-- A window with one turn more: `ok` whether it may contribute, `ripMin` the smallest current amplitude in mA (R303). -/
def ZWin.add (w : ZWin) (ok : Bool) (ripMin : Nat) (c v : Cx × Cx) : ZWin :=
  let lim := (ripMin * 1000000) ^ 2
  let w := { w with turns := w.turns + 1 }
  let w := if ok && decide (lim ≤ c.1.sq) then
      let z := v.1.mulConj c.1
      { w with used2 := w.used2 + 1, w2 := w.w2 + c.1.sq, re2 := w.re2 + z.1, im2 := w.im2 + z.2 }
    else w
  if ok && decide (lim ≤ c.2.sq) then
    let z := v.2.mulConj c.2
    { w with used6 := w.used6 + 1, w6 := w.w6 + c.2.sq, re6 := w.re6 + z.1, im6 := w.im6 + z.2 }
  else w

/-- Z_h in µΩ from Σ V·I* and Σ|I|², where at least half of the window's turns contributed (R303). -/
def zMean (turns used w : Nat) (re im : Int) : Option (Int × Int) :=
  if 2 * used < turns ∨ w = 0 then none else some (roundOpen (re * 1000000) w, roundOpen (im * 1000000) w)

/-- Update one cell of the table (R304). -/
def zUpdate (d : Dev) (i h : Nat) (z : Int × Int) : Dev :=
  let r := d.str i
  let o := zCell d i r.t r.socOut h
  let b := d.zTable i
  let re := byteField b o 2
  let im := sx 16 (byteField b (o + 2) 2)
  let z' := if re = 0xFFFF then z else ((re : Int) + roundOpen (z.1 - re) 8, im + roundOpen (z.2 - im) 8)
  zStore d i (zSeal (splice b (leBytes 2 (min 0xFFFE (fitU 16 z'.1)) ++ leBytes 2 (fitS 16 z'.2)) o))

/-- START has lasted STARTUP_TURNS and a valid window has closed: NORMAL (Table 11.8). -/
def battStarted (d : Dev) (i : Nat) : Dev :=
  let r := d.str i
  if r.service = .start ∧ r.zValid = true ∧ d.battP i 8 0 16 3000 ≤ r.serviceTurns then battService d i .normal else d

/-- IMPEDANCE_WINDOW_CLOSE: Z_WINDOW turns have gathered (R303, R304). -/
def zWindowClose (i : Nat) (d : Dev) : Dev :=
  let r := d.str i
  let w := r.zWin
  if d.enabled tString i && d.plane.mgmtRunning && decide (d.battP i 5 0 16 50 ≤ w.turns) then
    let z2 := zMean w.turns w.used2 w.w2 w.re2 w.im2
    let z6 := zMean w.turns w.used6 w.w6 w.re6 w.im6
    let d := d.modStr i fun r => { r with zWin := {}, zValid := r.zValid || z2.isSome || z6.isSome
                                          zLast := match z2 with | some z => some (d.wheel.turn, z.1) | none => r.zLast }
    let d := if r.u ≤ 2 ^ 48 / 10 then
        let d := match z2 with | some z => zUpdate d i 0 z | none => d
        match z6 with | some z => zUpdate d i 1 z | none => d
      else d
    battStarted d i
  else d

/-! ### Hibernation and reduced sampling (R317, R318) -/

/-- BATT_HIBERNATE (R317). -/
def battHibernate (i : Nat) (d : Dev) : Dev :=
  let r := d.str i
  match d.plane.profile.hibernate with
  | none => d
  | some n =>
    if d.enabled tString i && r.service == .normal && r.power == .awake && decide (n ≤ r.lowTurns) && groupOwn d i && r.cutTime == (0, 0, 0) then
      let d := learnFails (groupStop d i) i 5
      hibEvent (d.modStr i fun r =>
        { r with power := .hibernating, run := { r.run with awake := false, hibernated := true, estimated := true } }) i 1
    else d

/-- REDUCED_SAMPLING (R318). -/
def reducedSampling (i : Nat) (d : Dev) : Dev :=
  let r := d.str i
  if d.enabled tString i && r.service != .normal && r.power == .awake && !r.reduced && decide (16 ≤ r.lowTurns) &&
      d.plane.profile != .raku && groupOwn d i then
    (groupStop d i).modStr i fun r => 
      { r with reduced := true, power := .stopped, run := { r.run with awake := false, stopped := true, estimated := true } }
  else d

/-- REDUCED_SAMPLING_TURN: the group starts ahead of the assigned turn (R318). -/
def reducedTurn (i : Nat) (d : Dev) : Dev :=
  let r := d.str i
  if r.reduced && r.power == .stopped && (d.wheel.turn.toNat + 1) % 16 == i then
    (groupStart d i).modStr i fun r => { r with power := .settling, wakeCharge := 0 }
  else d

/-! ### The charge accumulator (R299, Table 11.4) -/

/-- OSR of a channel in force. -/
def Dev.pdOsr (d : Dev) (w : Word) : Nat := (pdSettings d.plane.profile w).2.1

/-- The charge of one current output in 2^-16 µC. -/
def outCharge (d : Dev) (i : Nat) (val : Int) : Int :=
  let ws := d.strCfg i
  roundOpen (val * d.pdOsr (word ws 5) * 400000000) (2 ^ 23 * bsShunt ws)

/-- The charge of a current output's value over a time in 10 ns units. -/
def timeCharge (d : Dev) (i : Nat) (val : Int) (t : Nat) : Int :=
  roundOpen (val * t * 32768000) (2 ^ 23 * bsShunt (d.strCfg i))

/-- The charge of a current in nA over a time. -/
def nanoCharge (i : Int) (t : Nat) : Int := roundOpen (i * t * 65536) 100000000000

/-- I_W over a time: the wake threshold with the comparator's error (R317); `k` = 2 hibernating, 1 reduced. -/
def wakeCharge (d : Dev) (i k t : Nat) : Int :=
  let ws := d.strCfg i
  roundOpen (((bsCnom ws * 21 * k * bsShunt ws + 10000000 : Nat) : Int) * t * 65536) (200000 * bsShunt ws * 100)

/-- Advance Q, with Q_DIS, and B. -/
def StrRt.count (r : StrRt) (dq db : Int) : StrRt :=
  { r with q := r.q + dq, qDis := r.qDis + max 0 (-dq), b := r.b + db }

/-- Whether a string's channels have all settled. -/
def battSettled (d : Dev) (i : Nat) : Bool :=
  (bsReqs (d.strCfg i)).all fun w => !(d.pdChan (pdRqChan w)).settling && !(d.pdChan (pdRqChan w)).calHold

/-- Whether a string's outputs count: it is awake, and, sampling at a reduced rate, in its assigned turn. -/
def StrRt.counts (r : StrRt) : Bool := r.power == .awake && (!r.reduced || r.sampling)

/-- A voltage and a current output of one sampling instant give their energy (R271). -/
def battPair (d : Dev) (i : Nat) : Dev :=
  let r := d.str i
  let ws := d.strCfg i
  match r.vPend, r.iPend with
  | some (p, v), some (q, c) =>
    if p = q then
      let e := roundOpen (v * bsVratio ws * c * d.pdOsr (word ws 5) * 5000000) (2 ^ 46 * bsShunt ws)
      d.modStr i fun r => { r with vPend := none, iPend := none, run := { r.run with energy := r.run.energy + e } }
    else d
  | _, _ => d

/-- An input with DEFAULTED: the turn is not an awake one (R272, R303, R306). -/
def StrTurn.input (t : StrTurn) (dflt : Bool) : StrTurn := { t with defaulted := t.defaulted || dflt, awake := t.awake && !dflt }

/-- An IMEAS output taken at `pos`. `held` = under a recalibration (R112). A DEFAULTED one gives no energy (R284). -/
def battCurrent (d : Dev) (i : Nat) (w : Word) (held : Bool) (pos : Nat) : Dev :=
  let r := d.str i
  let ws := d.strCfg i
  let val := pdVal w
  let dflt := bit w 28
  let span := outCharge d i (2 ^ 23)
  match r.power with
  | .settling =>
    if bit w 27 then d
    else
      let (extra, d) := d.freeBits 16
      let k := pdSettings d.plane.profile (word ws 5)
      let tw := k.1 * k.2.1 * 12500 / 1024 + 100 + extra % 1401
      let woke := r.wakeCharge != 0
      let q := if woke then timeCharge d i val tw else 0
      let b := if woke then timeCharge d i val.natAbs tw + wakeCharge d i r.wakeCharge tw else 0
      d.modStr i fun r => { r.count q b with
        power := .awake, wakeCharge := 0, run := { r.run with estimated := r.run.estimated || woke } }
  | .awake =>
    if r.counts then
      let small := decide (val.natAbs * 500000000 < bsCnom ws * 2 ^ 23 * bsShunt ws)
      let d := d.modStr i fun r =>
        let r := if dflt then r.count 0 span else r.count (outCharge d i val) 0
        { r with iPend := if dflt then none else some (pos, val)
                 ripI := r.ripI.add pos val
                 run := { r.run.input dflt with
                   nI := r.run.nI + b2n (!dflt && !held), low := r.run.low && small, estimated := r.run.estimated || dflt } }
      battPair d i
    else d
  | _ => d

/-- A VMEAS output taken at `pos`. -/
def battVoltage (d : Dev) (i : Nat) (w : Word) (pos : Nat) : Dev :=
  let dflt := bit w 28
  if (d.str i).counts then
    battPair (d.modStr i fun r =>
      { r with vPend := if dflt then none else some (pos, pdVal w)
               ripV := r.ripV.add pos (pdVal w)
               run := { r.run.input dflt with nV := r.run.nV + 1, sumV := r.run.sumV + pdVal w } }) i
  else d

/-- The temperature of a TMEAS output in 2^-16 °C (R295). -/
def ntcTemp (ws : List Word) (val : Int) : Int :=
  let x := val.toNat
  let num := field ws 9 0 16 * x
  let den := field ws 8 0 16 * (2 ^ 23 - x)
  let l : Int := if num = 0 ∨ den = 0 then 0 else if den ≤ num then lnFix num den else -(lnFix den num : Nat)
  let b : Int := max 1 (field ws 8 16 16) * fixOne
  -- T in K is 29815 b / (100 b + 29815 l)
  let dn := 100 * b + 29815 * l
  if dn ≤ 0 then 0 else roundOpen ((2981500 * b - 27315 * dn) * 65536) (100 * dn).toNat

/-- A TMEAS output: a thermistor open or shorted, and a DEFAULTED output, hold the last good value (R295, log entry 90). -/
def battTemp (d : Dev) (i : Nat) (w : Word) : Dev :=
  let val := pdVal w
  let d := d.modStr i fun r => { r with run := r.run.input (bit w 28) }
  if bit w 28 then d
  else if val * 100 ≤ 2 ^ 23 ∨ 99 * 2 ^ 23 ≤ val * 100 then
    d.modStr i fun r => { r with tFault := true, tGood := 0, run := { r.run with badT := true } }
  else
    let t := ntcTemp (d.strCfg i) val
    d.modStr i fun r => { r with t := t, run := { r.run with nT := r.run.nT + 1, sumT := r.run.sumT + t } }

/-- The latest string voltage as `val × V_RATIO`, of which 2^23 are 12.5 mV. -/
def Dev.strVolt (d : Dev) (i : Nat) : Int :=
  pdVal (d.pdChan (pdRqChan (word (d.strCfg i) 4))).direct * bsVratio (d.strCfg i)

/-- The latest voltage of the lower half, as `val × MID_RATIO`. -/
def Dev.midVolt (d : Dev) (i : Nat) : Int :=
  pdVal (d.pdChan (pdRqChan (word (d.strCfg i) 7))).direct * field (d.strCfg i) 3 16 16

/-- MID − V/2 in mV (R309). -/
def Dev.midDev (d : Dev) (i : Nat) : Int :=
  let ws := d.strCfg i
  let m := d.midVolt i
  if bsMid ws then roundOpen ((2 * m - d.strVolt i) * 25) (2 ^ 24 * 2) else 0

/-- An MMEAS output: an imbalance is reported once a round (R309). -/
def battMid (d : Dev) (i : Nat) : Dev :=
  if d.battP i 8 16 16 100 < (d.midDev i).natAbs then
    d.raiseOnceRound (0x090A * 16 + i) 0x090A (twos 16 (d.midDev i)) (d.strHandle i)
  else d

/-- Whether a voltage, as `val` × ratio, lies below the cut-off voltage of `n` cells. -/
def belowCut (ws : List Word) (v : Int) (n : Nat) : Bool := decide (v * 125 < (n * field ws 10 0 16 * 2 ^ 23 : Nat))

/-- The cut-off comparisons of R309, each with the time it has been below its limit without a break, in cycles of 8.192 MHz:
the whole string at a VMEAS output, the halves at an MMEAS output. Armed while ENABLED or FENCED. -/
def battCompare (d : Dev) (i : Nat) (chan : Nat) : Dev :=
  let ws := d.strCfg i
  let n := bsCells ws
  let osr := d.pdOsr (word ws 4)
  let next (on : Bool) (t : Nat) : Nat := if on then t + osr else 0
  if (d.slot tString i).hstate = .disabled ∨ bit (d.pdChan chan).direct 27 = true then d
  else if pdRqChan (word ws 4) = chan then
    d.modStr i fun r => { r with cutTime := (next (belowCut ws (d.strVolt i) n) r.cutTime.1, r.cutTime.2) }
  else if bsMid ws && pdRqChan (word ws 7) == chan then
    d.modStr i fun r => { r with cutTime := (r.cutTime.1,
      next (belowCut ws (d.midVolt i) (n / 2)) r.cutTime.2.1,
      next (belowCut ws (d.strVolt i - d.midVolt i) (n - n / 2)) r.cutTime.2.2) }
  else d

/-- A PD output taken at `pos` reaches the string that owns its channel. -/
def battOutput (chan : Nat) (held : Bool) (pos : Nat) (d : Dev) : Dev :=
  match (d.pdChan chan).owner with
  | none => d
  | some key =>
    if key / 4096 = tString then
      let i := key % 4096
      let ws := d.strCfg i
      let w := (d.pdChan chan).direct
      let d := battCompare d i chan
      let d :=
        if d.isFenced tString i then d
        else if pdRqChan (word ws 4) = chan then battVoltage d i w pos
        else if pdRqChan (word ws 5) = chan then battCurrent d i w held pos
        else if pdRqChan (word ws 6) = chan then battTemp d i w
        else battMid (d.modStr i fun r => { r with run := r.run.input (bit w 28) }) i
      if battSettled d i && !d.acq.pdStopped.contains (d.strGroup i) then d.endKind .enable (d.strHandle i) .ok else d
    else d

/-- LOW acts: BAT is the only conducting input of its set, and EARLY_DOWN is set (R311). -/
def lowActs (d : Dev) (i : Nat) : Dev :=
  match d.setOfInput inBat with
  | some n =>
    let r := d.srcSet n
    let only := r.selected == some inBat || (r.selected.isNone && d.srcFloats n)
    if (d.str i).low && only && bit ((d.slot tString i).bankW 7) 16 && !d.plane.takeover then srcBrownout d n else d
  | none => d

/-! ### Turn close (R299, R303, R318, R319) -/

/-- What the accumulator adds at the close of a turn without outputs (Table 11.4). -/
def battIdle (d : Dev) (i : Nat) : StrRt :=
  let r := d.str i
  let dur := d.turnDur
  if r.run.hibernated then r.count 0 (wakeCharge d i 2 dur)
  else if r.reduced && !r.sampling then
    r.count (nanoCharge r.iLast dur) (nanoCharge r.iLast.natAbs dur + wakeCharge d i 1 dur)
  else r

/-- Whether the ended turn can contribute to an impedance window, amplitudes apart (R303). -/
def zEligible (d : Dev) (r : StrRt) : Bool :=
  d.wheel.state == .locked && !d.wheel.coastEnded && !d.wheel.slewEnded && r.ended.awake && !r.ended.defaulted &&
    r.ripI.n != 0 && r.ripV.n != 0

/-- The turn's flags begin afresh. -/
def StrTurn.begin (live : Bool) (power : StrPower) (reduced sampling : Bool) : StrTurn :=
  { awake := live && power == .awake && (!reduced || sampling), hibernated := power == .hibernating
    settling := power == .settling, stopped := power == .stopped, estimated := power == .hibernating || power == .stopped }

/-- The turn closes for string `i`; `turn` is the new turn. A fenced or DISABLED string's accumulator stands. -/
def battTurn (turn : BitVec 48) (d : Dev) (i : Nat) : Dev :=
  let r := d.str i
  let ws := d.strCfg i
  let live := d.enabled tString i
  let r1 := if live then battIdle d i else r
  let mean := if d.turnDur = 0 then 0 else roundOpen ((r1.q - r.qEnd) * 100000000000) (65536 * d.turnDur)
  let backToFull := r.sampling && decide ((bsCnom ws : Int) * 100000 ≤ mean.natAbs)
  let good := decide (0 < r.run.nT) && !r.run.badT
  let tGood := if good then r.tGood + 1 else 0
  let stops := live && r.sampling && !backToFull
  let power := if stops then StrPower.stopped else r.power
  let reduced := r.reduced && !backToFull
  let sampling := reduced && turn.toNat % 16 == i && (power == .awake || power == .settling)
  let r2 : StrRt := { r1 with
    ended := r.run, qEnd := r1.q, disEnd := r1.qDis, bEnd := r1.b, stepDue := true
    gap := if r.run.nI = 0 then r.gap + 1 else 0
    lowTurns := if r.run.low && decide (0 < r.run.nI) then r.lowTurns + 1 else 0
    tFault := r.tFault && decide (tGood < 50), tGood := tGood
    iLast := if r.sampling || !r.reduced then mean else r.iLast
    power := power, reduced := reduced, sampling := sampling
    serviceTurns := r.serviceTurns + 1
    run := StrTurn.begin live power reduced sampling }
  let d := { d with strs := tset {} d.strs i r2 }
  let d := if stops then groupStop d i else d
  if live then
    let p := battPhasors d i
    lowActs (d.modStr i fun r =>
      { r with zWin := r.zWin.add (zEligible d r) (d.battP i 5 16 16 200) p.1 p.2, ripI := {}, ripV := {} }) i
  else d

/-! ### Cut-off (R309 to R311) -/

/-- BATT_CUTOFF: a comparison has been below its limit for T_CUT without a break. -/
def battCutoff (i : Nat) (d : Dev) : Dev :=
  let r := d.str i
  let t := max r.cutTime.1 (max r.cutTime.2.1 r.cutTime.2.2)
  if (d.slot tString i).hstate != .disabled && !r.cut && decide (field (d.strCfg i) 10 16 16 * 8192 ≤ t) then
    let d := d.modStr i fun r => { r with cut := true, cutStep := true }
    let d := battEvent d i 0x0901 (fitU 16 (roundOpen (d.strVolt i * 125) (2 ^ 23 * 100)))
    match d.setOfInput inBat with
    | some n => srcBatHold d n
    | none => d
  else d

/-- CUTOFF_RELEASE: a non-BAT input has been SELECTED for CUT_REL turns. -/
def cutoffRelease (i : Nat) (d : Dev) : Dev :=
  let other := match d.setOfInput inBat with
    | some n =>
      (match (d.srcSet n).selected with
        | some x => x != inBat && decide (field (d.strCfg i) 11 0 16 ≤ ((d.srcSet n).input x).turns)
        | none => false)
    | none => false
  if (d.str i).cut && other then d.modStr i fun r => { r with cut := false } else d

/-- The hints clear (R311). -/
def battHintsClear (d : Dev) : Dev := { d with strs := tmapAll {} d.strs fun _ r => { r with low := false } }

/-! ### Anchors and learning (R306, R307, R312 to R314) -/

/-- An ending anchor of a learning cycle at SoC `a`: the outcome, C_MEAS and SOH after it. -/
def learnResult (d : Dev) (i : Nat) (a : Int) : Nat × Nat × Nat :=
  let r := d.str i
  let l := r.learn
  let cn : Int := bsCnom (d.strCfg i)
  -- mean rate in 10^-6 C: |dq| / (duration × C_NOM)
  let rate := if l.dur = 0 then 0 else roundOpen (l.dq.natAbs * 10000000000) (65536 * l.dur * cn.toNat)
  let tMean := if l.steps = 0 then r.t else roundOpen l.sumT l.steps
  let full : Int := 65536 * l.dur * cn
  if l.disagree then (7, 0, r.soh)
  else if (l.dq.natAbs : Int) * 200000 < full ∨ full < (l.dq.natAbs : Int) * 20000 then (2, 0, r.soh)
  else
    let span := (a - l.startSoc).natAbs
    let num : Int := l.dq.natAbs * 2 ^ 48
    let cMeas := roundOpen num (max 1 span * 65536 * 36000000)
    -- SOH_MEAS in 1/16,384 is num / span over C_NOM × CAP / 16,384
    let cap := (d.capAt i tMean rate).1
    let mn := num * 2 ^ 44
    let md := max 1 (span * 65536 * 36000000 * cn.toNat * cap.toNat)
    if mn * 2 < 16384 * (md : Int) ∨ 11 * 16384 * (md : Int) < mn * 10 then (11, cMeas.toNat, r.soh)
    else (0, cMeas.toNat, (roundHalfUp (3 * r.soh * md + mn) (4 * md)).toNat)

/-- Arm the learning cycle from an anchor. -/
def LearnRt.arm (l : LearnRt) (turn : BitVec 48) (soc : Int) : LearnRt :=
  { l with st := .armed, startTurn := turn, startSoc := soc, dq := 0, dur := 0, steps := 0, sumT := 0, tMin := 0, tMax := 0
           extreme := 0, disagree := false }

/-- What an anchor at SoC `a` does to the learning cycle (R312 to R314, R302). -/
def learnAnchor (d : Dev) (i : Nat) (a : Int) (turn : BitVec 48) : Dev :=
  let r := d.str i
  let l := r.learn
  match l.st with
  | .idle => d.modStr i fun r => { r with learn := r.learn.arm turn a }
  | .armed => d.modStr i fun r => { r with learn := r.learn.arm turn a }
  | .running =>
    let span := if l.charge then a - l.startSoc else l.startSoc - a
    if l.disagree then learnFails d i 7
    else if span * 10 < 6 * 2 ^ 48 then d
    else
      let (code, c, soh) := learnResult d i a
      if code ≠ 0 then
        learnFails (if code = 11 then d.modStr i fun r => { r with learn := { r.learn with cMeas := c } } else d) i code
      else
        let d := d.modStr i fun r =>
          { r with soh := soh, learned := satAdd 8 r.learned 1
                   learn := { (r.learn.arm turn a) with last := 0, cMeas := c, sohBefore := r.soh, sohAfter := soh } }
        battEvent (battSave d i) i 0x0905 0

/-- An anchor is taken (R307). -/
def takeAnchor (d : Dev) (i : Nat) (soc sigma : Int) (turn : BitVec 48) : Dev :=
  let d := battJump d i soc sigma
  let j := (d.str i).lastJump
  let d := battUnanchor d i false
  let d := learnAnchor d i soc turn
  let d := battDisagree d i false
  let d := d.modStr i fun r => { r with age := 0, anchorTurn := turn, learn := { r.learn with disagree := false } }
  let d := battEvent (battSave d i) i 0x0902 (twos 16 j)
  if (d.str i).service = .recovery then battService d i .normal else d

/-- The candidate of a step, its SoC and σ_A, where one forms (R306). -/
def anchorCandidate (d : Dev) (i : Nat) (t : Int) : Option (Int × Int) :=
  let r := d.str i
  let cells : Int := max 1 (bsCells (d.strCfg i))
  match r.rEff, r.vSyn with
  | some re, some vs =>
    let v := roundOpen (vs * 65536) (100000 * cells).toNat
    let (soc, dv) := invertOcv (d.ocvCurve i t).1 v
    let imp : Int := if r.rLive then d.battP i 3 0 8 10 else d.battP i 3 8 8 20
    let e := roundOpen ((r.iMean.natAbs * re * imp + r.vpol.natAbs * (d.battP i 3 16 8 20 : Int) * 1000000) * 65536)
        (100000000 * 100000 * cells).toNat + d.battP i 2 0 16 10 * 65536
    if r.tFault = false ∧ r.ended.awake = true ∧ r.ended.defaulted = false ∧ 0 < dv ∧
        (d.battP i 2 16 16 50 : Int) * 65536 ≤ 2 * dv then
      some (soc, roundOpen (e * 2 ^ 48) (20 * dv).toNat)
    else none
  | _, _ => none

/-- The run of candidate steps, and the anchor at its end (R307). -/
def anchorStep (d : Dev) (i : Nat) (t : Int) (turn : BitVec 48) : Dev :=
  let r := d.str i
  match anchorCandidate d i t with
  | none => d.modStr i fun r => { r with runN := 0, runSum := 0 }
  | some (soc, sg) =>
    if sg * 10000 ≤ d.battP i 0 0 16 300 * 2 ^ 48 ∧ sg < r.u then
      let start := if r.runN = 0 then r.soc else r.runSoc
      let val := soc - (r.soc - start)
      let n := r.runN + 1
      let sum := (if r.runN = 0 then 0 else r.runSum) + val
      let mean := roundOpen sum n
      if (val - mean).natAbs ≤ sg.natAbs then
        let d := d.modStr i fun r => { r with runN := n, runSum := sum, runSoc := start }
        if d.battP i 0 16 16 50 ≤ n then takeAnchor d i (mean + (r.soc - start)) sg turn else d
      else d.modStr i fun r => { r with runN := 0, runSum := 0 }
    else d.modStr i fun r => { r with runN := 0, runSum := 0 }

/-- The learning cycle counts a step and may begin or be disqualified (R312, R313). -/
def learnStep (d : Dev) (i : Nat) (dq t ceff : Int) : Dev :=
  let l := (d.str i).learn
  if l.st = .idle then d
  else
    let dq' := l.dq + dq
    let l1 := { l with
      dq := dq', dur := l.dur + d.turnDur, steps := l.steps + 1, sumT := l.sumT + t
      tMin := if l.steps = 0 then t else min l.tMin t, tMax := if l.steps = 0 then t else max l.tMax t }
    if l.st = .armed then
      if ceff ≤ 100 * dq'.natAbs then
        d.modStr i fun r => { r with learn := { l1 with
          st := .running, charge := decide (0 < dq'), extreme := dq', disagree := r.disagree } }
      else d.modStr i fun r => { r with learn := l1 }
    else
      let ext := if l.charge then max l.extreme dq' else min l.extreme dq'
      let d := d.modStr i fun r => { r with learn := { l1 with extreme := ext } }
      if t < 10 * 65536 ∨ 35 * 65536 < t ∨ (d.str i).tFault = true then learnFails d i 1
      else if ceff < 100 * (dq' - ext).natAbs then learnFails d i 3
      else if 2 < (d.str i).gap then learnFails d i 4
      else d

/-! ### The step (R300 to R311, R315) -/

/-- Cycle counting (R315). -/
def cycleStep (d : Dev) (i : Nat) (dis : Int) : Dev :=
  let r := d.str i
  let unit := max 1 (roundOpen ((bsCnom (d.strCfg i) : Int) * 360000 * 65536 * r.soh) 16384)
  let rem := r.rem + dis
  let k := (rem / unit).toNat
  let total := r.hund + k
  let d := d.modStr i fun r =>
    { r with rem := rem - k * unit, hund := total % 100, cycles := satAdd 16 r.cycles (total / 100) }
  if k = 0 then d else battSave d i

/-- FLAGS of BATT_TELEM for the step. -/
def stepFlagsOf (d : Dev) (r : StrRt) : Nat :=
  b2n d.wheel.coastEnded + b2n d.wheel.slewEnded * 2 + b2n r.ended.defaulted * 4 + b2n r.ended.estimated * 8
    + b2n r.ended.hibernated * 16 + b2n r.ended.settling * 32 + b2n r.rLive * 64

/-- Codes of Table 11.5. -/
def Learn.code : Learn → Nat
  | .idle => 0 | .armed => 1 | .running => 2

/-- BATT_TELEM of the step just made (Table 11.14). -/
def battTelem (d : Dev) (i : Nat) : Dev :=
  let r := d.str i
  let (vs, d) := match r.vSyn with | some v => (fitU 16 (roundOpen v 1000000), d) | none => d.freeBits 16
  let bytes :=
    [0x01, BitVec.ofNat 8 (stepFlagsOf d r)] ++ leBytes 2 (fitU 16 (frac48 10000 r.socOut)) ++
    leBytes 2 (fitU 16 (frac48 10000 r.u)) ++ leBytes 2 (fitU 16 (roundOpen r.vMean 1000000)) ++
    leBytes 2 (fitS 16 (roundOpen r.iMean 10000000)) ++ leBytes 2 (fitS 16 (roundOpen r.t 512)) ++ leBytes 2 vs ++
    leBytes 2 (match r.sigma with | some s => fitU 16 (frac48 10000 s) | none => 0xFFFF) ++
    leBytes 8 (fitS 64 (microC r.qEnd)) ++ leBytes 2 (match r.rEff with | some x => fitU 16 x | none => 0xFFFF) ++
    leBytes 2 r.soh ++ leBytes 2 r.cycles ++ [BitVec.ofNat 8 r.hund, BitVec.ofNat 8 r.learn.st.code] ++
    leBytes 6 r.stepTurn.toNat ++ leBytes 6 r.anchorTurn.toNat ++ leBytes 2 r.jumps ++ leBytes 2 (fitS 16 r.lastJump) ++
    leBytes 2 (fitS 16 r.maxJump) ++ leBytes 2 (fitS 16 (d.midDev i)) ++
    leBytes 4 (match r.tte with | some t => fitU 32 t | none => 0xFFFFFFFF) ++ zeros 8
  d.modStr i fun r => { r with telem := bytes }

/-- What R310 does at the step after a cut-off. -/
def cutoffStep (d : Dev) (i : Nat) : Dev :=
  let d := battJump (d.modStr i fun r => { r with cutStep := false }) i 0 (2 ^ 48 / 100)
  battService (learnFails (battDisagree d i false) i 8) i .recovery

/-- V_POL and V_SYN of a step (R305); with no R_EFF both are left free. -/
def restStep (d : Dev) (i : Nat) : Dev :=
  let r := d.str i
  let (re, live) := battReff d i
  match re with
  | some x =>
    let target := roundOpen (r.iMean * d.battP i 4 0 16 1500 * x) 1000000000
    let f : Int := fixOne - (expNeg d.turnDur (d.battP i 4 16 16 60 * 100000000) : Nat)
    let vpol := r.vpol + roundOpen ((target - r.vpol) * f) fixOne
    d.modStr i fun r =>
      { r with rEff := re, rLive := live, vpol := vpol, vSyn := some (r.vMean - roundOpen (r.iMean * x) 1000000 - vpol) }
  | none =>
    let (v, d) := d.freeBits 32
    d.modStr i fun r => { r with rEff := none, rLive := false, vpol := sx 32 v, vSyn := none }

/-- The means of the ended turn: current, voltage and temperature. -/
def meanStep (d : Dev) (i : Nat) : Dev :=
  let r := d.str i
  let e := r.ended
  d.modStr i fun r =>
    { r with
      iMean := if d.turnDur = 0 then 0 else roundOpen ((r.qEnd - r.qStep) * 100000000000) (65536 * d.turnDur)
      vMean := if e.nV = 0 then r.vMean else roundOpen (e.sumV * bsVratio (d.strCfg i) * 12500000) (2 ^ 23 * e.nV) }

/-- A step's values are offered to the Witness and its block is published (Table 16.2, R432). -/
def battShow (d : Dev) (i : Nat) : Dev :=
  let r := d.str i
  let h := d.strHandle i
  let dflt := r.ended.defaulted
  let d := witValue h 0x28 0 r.iMean 10000000 dflt d
  let d := witValue h 0x29 0 r.t 512 dflt d
  let d := witValue h 0x2A 0 (r.socOut * 10000) (2 ^ 48) dflt d
  d.publish h 0 r.telem

/-- What a charge `dq` over a time adds to U, in 2^-16 µC: gain, offset, capacity and the growth of B (R301). -/
def battGrowth (d : Dev) (i : Nat) (dq : Int) (time : Nat) (db : Int) : Int :=
  roundOpen (2 * dq.natAbs) 1000 + roundOpen ((5 * time * 65536 : Nat) : Int) (100 * bsShunt (d.strCfg i)) +
    roundOpen (dq.natAbs * (d.battP i 6 0 16 200 : Int)) 10000 + db

/-- The count of a step: SOC_RAW, U and the accumulators of the last step (R300 to R303, R308). -/
def battCounted (d : Dev) (i : Nat) (t : Int) (rate ceff dq db : Int) : Dev :=
  let r := d.str i
  let out := (d.capAt i t rate).2
  let grow := battGrowth d i dq d.turnDur db
  let unSteps := if r.unanchored then r.unSteps + 1 else 0
  let drift : Int := if r.unanchored && unSteps % 1000 == 0 then d.battP i 1 16 16 5 * 2 ^ 48 / 10000 else 0
  d.modStr i fun r =>
    { r with
      soc := r.soc + roundOpen (dq * 2 ^ 48) ceff.toNat
      u := min (2 ^ 48) (r.u + roundOpen (grow * 2 ^ 48) ceff.toNat + drift)
      unSteps := unSteps, age := r.age + 1, outOfTable := out || (d.ocvCurve i t).2
      qStep := r.qEnd, disStep := r.disEnd, bStep := r.bEnd, stepTurn := d.wheel.turn - 1 }

/-- What follows the count: DISAGREE, learning, cycles, rest, and the anchor or the cut-off (R304 to R316). -/
def battAnchored (d : Dev) (i : Nat) (t ceff dq dis : Int) : Dev :=
  let d := battDisagree d i (decide ((d.str i).soc < 0) || decide (2 ^ 48 < (d.str i).soc))
  let d := cycleStep (learnStep d i dq t ceff) i dis
  let d := restStep d i
  let d := d.modStr i fun r => { r with sigma := (anchorCandidate d i t).map (·.2) }
  if (d.str i).cutStep then cutoffStep d i else anchorStep d i t (d.wheel.turn - 1)

/-- The end of a step: LOW, the time to empty, the telemetry and the shown values. -/
def battEnded (d : Dev) (i : Nat) (ceff dq : Int) : Dev :=
  let r := d.str i
  let neg := decide (dq < 0)
  let low := neg && decide (r.socOut * 10000 ≤ d.battP i 7 0 16 1000 * 2 ^ 48)
  let d := d.modStr i fun r =>
    { r with low := low, tte := if neg then some (roundOpen (r.soc * ceff) (2 ^ 48 * dq.natAbs)) else none }
  let d := if low && !r.low then battEvent d i 0x0907 (fitU 16 (frac48 10000 r.socOut)) else d
  battShow (battTelem (battStarted (lowActs d i) i) i) i

/-- One step of the estimator for a string (R300 to R311). -/
def battStep (d : Dev) (i : Nat) : Dev :=
  let r0 := d.str i
  let dq := r0.qEnd - r0.qStep
  let d := meanStep d i
  let r := d.str i
  let t := if r.ended.nT = 0 then r.t else roundOpen r.ended.sumT r.ended.nT
  let rate := roundOpen (r.iMean.natAbs : Int) (10 * max 1 (bsCnom (d.strCfg i)))
  let ceff := d.ceff i t rate
  let d := d.modStr i fun r => { r with t := t, stepDue := false }
  battEnded (battAnchored (battCounted d i t rate ceff dq (r0.bEnd - r0.bStep)) i t ceff dq (r0.disEnd - r0.disStep)) i ceff dq

/-- ESTIMATOR_STEP: each ENABLED string steps once a turn, while the management plane runs (R300, R323). -/
def estimatorStep (d : Dev) : Dev :=
  if d.plane.mgmtRunning then
    ((d.liveIndices tString).filter fun i => d.enabled tString i && (d.str i).stepDue).foldl battStep d
  else d

/-- BATT_UNANCHORED: ANCHOR_MAX × 1,000 steps without an anchor (R308). -/
def battUnanchored (i : Nat) (d : Dev) : Dev :=
  if d.enabled tString i && d.plane.mgmtRunning && decide (d.anchorMax i ≤ (d.str i).age) then battUnanchor d i true else d

/-! ### Persistence and starts (R321) -/

/-- Restore SoC, U, V_POL and the counts from a state record. -/
def StrRt.restore (r : StrRt) (b : List Byte) : StrRt :=
  { r with
    soh := byteField b 6 2, cycles := byteField b 8 2, hund := byteField b 10 1, learned := byteField b 11 1
    rem := byteField b 12 4 * 1000 * 65536, soc := sx 32 (byteField b 20 4) * 2 ^ 48 / 1000000
    u := byteField b 18 2 * 2 ^ 48 / 10000, vpol := sx 16 (byteField b 48 2) * 1000000, age := byteField b 32 4
    jumps := byteField b 36 2, maxJump := sx 16 (byteField b 38 2), cut := r.cut || byteField b 41 1 / 4 % 2 == 1
    unanchored := byteField b 41 1 % 2 == 1, disagree := byteField b 41 1 / 2 % 2 == 1 }

/-- The state after no valid record: 50 % with an uncertainty of 50 %. -/
def StrRt.unknown (r : StrRt) : StrRt := { r with soc := 2 ^ 47, u := 2 ^ 47, vpol := 0 }

/-- The first ENABLE of an index after a device power-on adds U_POWER to the record's uncertainty (R321, log entry 58). -/
def battPowerOn (d : Dev) (i : Nat) : Dev :=
  if d.strSeen.contains i then d
  else d.modStr i fun r => { r with u := min (2 ^ 48) (r.u + d.battP i 6 16 16 500 * 2 ^ 48 / 10000) }

/-- ENABLE (R321, R324): the group starts, the estimator restores its record, and the string enters START. -/
def battEnable (src : Src) (d : Dev) (i : Nat) : Dev × Answer :=
  let h := d.strHandle i
  let id := word (d.strCfg i) 1
  let rec_ := (tget ({} : Copies) d.kiln.strings i).newer
  let d := d.modSlot tString i fun s => { s with hstate := .enabled }
  let d := groupStart d i
  let fresh : StrRt := { ({} : StrRt) with known := true, q := (d.str i).q, qDis := (d.str i).qDis, b := (d.str i).b }
  let fresh := { fresh with
    qEnd := fresh.q, disEnd := fresh.qDis, bEnd := fresh.b, qStep := fresh.q, disStep := fresh.qDis, bStep := fresh.b
    t := (d.str i).t, tFault := (d.str i).tFault
    power := if battSettled d i then .awake else .settling, run := { awake := false, settling := true } }
  let d :=
    if rec_.isEmpty then { d with strs := tset {} d.strs i fresh.unknown }
    else if id = 0 ∨ byteField rec_ 2 4 = id.toNat then battPowerOn { d with strs := tset {} d.strs i (fresh.restore rec_) } i
    else
      let d := { d with strs := tset {} d.strs i fresh.unknown
                        kiln := { d.kiln with strings := tdrop d.kiln.strings i, impedance := tdrop d.kiln.impedance i } }
      battEvent d i 0x0908 1
  let d := battEnter { d with strSeen := sortNat (i :: d.strSeen.filter fun k => k != i) } i .start
  let d := if (d.str i).cut then (match d.setOfInput inBat with | some n => srcBatHold d n | none => d) else d
  if battSettled d i then (d, .done .ok 0) else (d.addWait src .enable h, .waits)

/-- DISABLE: a checkpoint, the latch released, the group stopped unless another owner holds it (R324). -/
def battDisable (d : Dev) (i : Nat) : Dev :=
  let d := battSave d i
  let d := d.endKind .enable (d.strHandle i) .aborted
  let d := d.modStr i fun r =>
    { r with
      cut := false, cutStep := false, low := false, power := .awake, reduced := false, sampling := false, wakeCharge := 0
      cutTime := (0, 0, 0), run := { r.run with awake := false } }
  let d := d.modSlot tString i fun s => { s with hstate := .disabled }
  if groupOwn d i then groupStop d i else d

/-- SET_POINT (R324). -/
def battSetPoint (d : Dev) (i : Nat) (p0 p1 p2 : Nat) : Dev × Answer :=
  let r := d.str i
  match p0 % 16 with
  | 1 => if r.service = .normal then (battService d i .test, .done .ok 1) else (d, .done .state 0)
  | 2 => if r.service = .test then (battService d i .normal, .done .ok 2) else (d, .done .state 0)
  | 3 =>
    let d := battJump (learnFails d i 9) i (p1 * 2 ^ 48 / 10000) (min (2 ^ 48) (p2 * 2 ^ 48 / 10000 : Nat))
    (d, .done .ok 3)
  | _ => (d, .done .range 0)

/-- A state record with SOH at 16,384 and the cycles at 0. -/
def recCleared (b : List Byte) : List Byte :=
  withCrc (splice (splice (b.take 62) (leBytes 2 16384 ++ zeros 3) 6) (zeros 4) 12)

/-- CLEAR (R324): bit 1 only while DISABLED. -/
def battClear (d : Dev) (i : Nat) (v : Word) : Dev × Answer :=
  if bit v 1 && (d.slot tString i).hstate != .disabled then (d, .done .state 0)
  else
    let d := if bit v 0 then d.modStr i fun r => { r with jumps := 0, maxJump := 0 } else d
    let d := if bit v 1 then
        let d := d.modStr i fun r => { r with soh := 16384, cycles := 0, hund := 0, rem := 0 }
        let d := zStore d i (zFresh d i)
        if (tget ({} : Copies) d.kiln.strings i).newer.isEmpty then d
        else { d with kiln := { d.kiln with strings := tmod {} d.kiln.strings i fun c => c.write (recCleared c.newer) } }
      else d
    (d, .done .ok 0)

/-- A string is fenced (R323). -/
def battFence (d : Dev) (i : Nat) : Dev := learnFails d i 10

/-- The Sitter trips: RECOVERY (Table 11.8). -/
def battSitter (d : Dev) (i : Nat) : Dev := if d.enabled tString i then battService d i .recovery else d

/-- RAKU begins: a hibernating string wakes at the boundary, and a stopped one samples at full rate (R318, R323). -/
def battRaku (d : Dev) : Dev := (d.liveIndices tString).foldl (fun d i => battFullRate (battWake d i) i) d

/-- A cold management start restores the record and adds the charge counted since, with its growth of U under R301; the learning
cycle, which the record does not hold, is idle (R313, R321). Without a valid record nothing is known. -/
def battColdStart (d : Dev) (i : Nat) : Dev :=
  let rec_ := (tget ({} : Copies) d.kiln.strings i).newer
  let d := learnFails d i 6
  if !d.enabled tString i then d
  else
    let r := d.str i
    let d := d.modStr i fun r =>
      { r with qStep := r.q, disStep := r.qDis, bStep := r.b, runN := 0, runSum := 0, low := false, learn := { r.learn with st := .idle } }
    if rec_.isEmpty then d.modStr i StrRt.unknown
    else
      let ceff := d.ceff i r.t (roundOpen (r.iMean.natAbs : Int) (10 * max 1 (bsCnom (d.strCfg i))))
      let dq := r.q - sx 64 (byteField rec_ 24 8) * 65536
      let time := (d.wheel.turn - BitVec.ofNat 48 (byteField rec_ 42 6)).toNat * d.turnDur
      let grow := battGrowth d i dq time (r.b - r.bSave)
      d.modStr i fun r =>
        let r1 := r.restore rec_
        { r1 with
          cut := r.cut
          soc := r1.soc + roundOpen (dq * 2 ^ 48) ceff.toNat
          u := min (2 ^ 48) (r1.u + roundOpen (grow * 2 ^ 48) ceff.toNat) }

/-! ### Blocks (R325 to R327) -/

/-- BATT_STATE (Table 11.13). -/
def battState (d : Dev) (i : Nat) : Nat :=
  let s := d.slot tString i
  let r := d.str i
  s.hstate.code + r.service.code * 4
    + (match r.power with | .awake => 0 | .hibernating => 1 | .stopped => 2 | .settling => 3) * 16
    + b2n r.unanchored * 64 + b2n r.disagree * 128 + b2n r.cut * 256 + b2n s.activeB * 512 + b2n s.swap * 1024
    + r.learn.st.code * 2048 + b2n r.low * 8192 + b2n r.outOfTable * 16384 + b2n r.tFault * 32768
    + fitU 14 (frac48 10000 r.socOut) * 65536 + fitS 16 (roundOpen r.iMean 10000000) * 2 ^ 32
    + fitU 14 (frac48 10000 r.u) * 2 ^ 48

/-- BATT_TELEM as it reads; a fenced string's carries DEFAULTED. -/
def battTelemBlock (d : Dev) (i : Nat) : List Byte :=
  let b := (d.str i).telem
  if b.isEmpty then 0x01 :: zeros 63
  else if d.isFenced tString i then splice b [BitVec.ofNat 8 (byteField b 1 1 ||| 4)] 1 else b

/-- BATT_LEARN (Table 11.15). -/
def battLearnBlock (d : Dev) (i : Nat) : List Byte :=
  let l := (d.str i).learn
  [0x01, BitVec.ofNat 8 l.st.code, BitVec.ofNat 8 l.last, BitVec.ofNat 8 (b2n l.charge)] ++ leBytes 6 l.startTurn.toNat ++
    leBytes 2 (fitU 16 (frac48 10000 l.startSoc)) ++ leBytes 8 (fitS 64 (microC l.dq)) ++
    leBytes 2 (fitS 16 (roundOpen l.tMin 512)) ++ leBytes 2 (fitS 16 (roundOpen l.tMax 512)) ++ leBytes 2 (fitU 16 l.cMeas) ++
    leBytes 2 l.sohBefore ++ leBytes 2 l.sohAfter ++ zeros 2

/-! ### Commands -/

/-- Run an event on a live string. -/
def onStr (i : Nat) (f : Dev → Dev) (d : Dev) : Dev := if d.live tString i then f d else d

/-- ESTIMATOR_STEP. -/
def execEstimatorStep (s : State) : Out := s.onDev fun _ d => estimatorStep d
/-- BATT_UNANCHORED. -/
def execBattUnanchored (string : Nat) (s : State) : Out := s.onDevAt 8 string fun _ d => onStr string (battUnanchored string) d
/-- IMPEDANCE_WINDOW_CLOSE. -/
def execImpedanceWindowClose (string : Nat) (s : State) : Out :=
  s.onDevAt 8 string fun _ d => onStr string (zWindowClose string) d
/-- BATT_CUTOFF. -/
def execBattCutoff (string : Nat) (s : State) : Out := s.onDevAt 8 string fun _ d => onStr string (battCutoff string) d
/-- CUTOFF_RELEASE. -/
def execCutoffRelease (string : Nat) (s : State) : Out := s.onDevAt 8 string fun _ d => onStr string (cutoffRelease string) d
/-- BATT_HIBERNATE. -/
def execBattHibernate (string : Nat) (s : State) : Out := s.onDevAt 8 string fun _ d => onStr string (battHibernate string) d
/-- REDUCED_SAMPLING. -/
def execReducedSampling (string : Nat) (s : State) : Out :=
  s.onDevAt 8 string fun _ d => onStr string (reducedSampling string) d
/-- REDUCED_SAMPLING_TURN. -/
def execReducedSamplingTurn (string : Nat) (s : State) : Out :=
  s.onDevAt 8 string fun _ d => onStr string (reducedTurn string) d

end Sys2Proof.Machine
end

