-- ==== Sys2Proof/Machine/Ledger.lean ====
section
/-! DEFINITION. The Energy Ledger (spec 10): metering of the accounts, the close of a turn, the unmetered-path alarm, the
round totals and the Ledger's blocks. -/

namespace Sys2Proof.Machine

/-- Change a metered account. -/
def Dev.modAcc (d : Dev) (kind i : Nat) (f : LedAcc → LedAcc) : Dev :=
  d.modLed fun l => { l with acc := tmod {} l.acc (kind * 256 + i) f }

/-- A metered account. -/
def Dev.ledAcc (d : Dev) (kind i : Nat) : LedAcc := tget {} d.led.acc (kind * 256 + i)

/-- Add energy to an account; a DEFAULTED sample adds none (R284). -/
def ledAdd (d : Dev) (kind i : Nat) (e : Int) (dflt late : Bool) : Dev :=
  d.modAcc kind i fun a => { a with e := if dflt then a.e else a.e + e, dflt := a.dflt || dflt, late := a.late || late }

/-! ### LEDG_PATH (Table 10.2) -/

/-- Word `w` of the table in force, numbered as in the SOURCE_SET bank. -/
def Dev.pathW (d : Dev) (w : Nat) : Word := BitVec.ofNat 32 (byteField d.led.path (4 * (w - 12)) 4)
/-- UNMET_TURNS; 50 while no set carries the table. -/
def Dev.unmetTurns (d : Dev) : Nat := if d.led.path.isEmpty then 50 else bits (d.pathW 12) 0 16
/-- KIND of entry `e`. -/
def Dev.pathKind (d : Dev) (e : Nat) : Nat := bits (d.pathW (16 + 2 * e)) 0 4
/-- INDEX of entry `e`. -/
def Dev.pathIndex (d : Dev) (e : Nat) : Nat := bits (d.pathW (16 + 2 * e)) 4 6
/-- R of entry `e` in µΩ. -/
def Dev.pathR (d : Dev) (e : Nat) : Nat := (d.pathW (17 + 2 * e)).toNat
/-- The entries that apply to an object of a kind. -/
def Dev.pathEntries (d : Dev) (kind i : Nat) : List Nat :=
  (List.range 32).filter fun e =>
    (d.pathKind e == kind && d.pathIndex e == i) || (kind == 2 && d.pathKind e == 5)

/-- A bank's LEDG_PATH in range: kinds and efficiencies (R278). -/
def pathBankOk (bw : List Word) : Bool :=
  let eff (v : Nat) := v == 0 || (decide (500 ≤ v) && decide (v ≤ 1000))
  eff (field bw 13 0 16) && eff (field bw 13 16 16) && (List.range 32).all fun e => decide (field bw (16 + 2 * e) 0 4 ≤ 5)

/-- UNMET_TURNS and the reserved bits of LEDG_PATH, checked where a SOURCE_SET's block is checked (R277, R546). -/
def pathReservedOk (bw : List Word) : Bool :=
  decide (1 ≤ field bw 12 0 16) && field bw 12 16 16 == 0 && word bw 14 == 0 && word bw 15 == 0 &&
    ((List.range 32).all fun e => field bw (16 + 2 * e) 10 22 == 0) &&
    (List.range 8).all fun k => field bw (128 + k) 16 16 == 0

/-! ### Metering (R271 to R275) -/

/-- Energy over the PATH entries of an object: i² × span² × R over the sample time, `num / den` of which turns the
product into 2^-16 µJ. -/
def pathEnergy (d : Dev) (kind i : Nat) (val : Int) (span num den : Nat) (dflt late : Bool) : Dev :=
  (d.pathEntries kind i).foldl (fun d e =>
    ledAdd d 0x08 e (roundOpen (val * val * (span * span * d.pathR e * num : Nat)) (max 1 den)) dflt late) d

/-- Span in µV of a PD request's mode. -/
def pdSpan (w : Word) : Nat := if pdRqMode w = 1 then 1250000 else 50000

/-- The set and member that use PD channel `chan` as word `k` of their block. -/
def Dev.srcOfPd (d : Dev) (k chan : Nat) : Option (Nat × Nat) :=
  (d.liveIndices tSource).findSome? fun n =>
    ((sfMembers (d.srcCfg n)).find? fun x => sfIn (d.srcCfg n) x k != 0 && pdRqChan (sfIn (d.srcCfg n) x k) == chan).map
      fun x => (n, x)

/-- A member is metered by its PD channels if both are given (R271). -/
def pdMetered (ws : List Word) (x : Nat) : Bool := sfIn ws x 2 != 0 && sfIn ws x 3 != 0

/-- A pair of direct outputs of a source member with one sampling instant: V × I over one output period (R271). -/
def srcPair (d : Dev) (n x : Nat) : Dev :=
  let ws := d.srcCfg n
  let a := d.ledAcc 0x01 x
  match a.vPend, a.iPend with
  | some (p, v), some (q, i) =>
    if p ≠ q then d
    else
    let dflt := bit (d.pdChan (pdRqChan (sfIn ws x 2))).direct 28 || bit (d.pdChan (pdRqChan (sfIn ws x 3))).direct 28
    let e := roundOpen (v * i * ((bits (sfIn ws x 4) 16 16) * pdSpan (sfIn ws x 3) * d.pdOsr (sfIn ws x 3) * 80 : Nat))
      (2 ^ 46 * max 1 (bits (sfIn ws x 4) 0 16))
    ledAdd (d.modAcc 0x01 x fun a => { a with vPend := none, iPend := none }) 0x01 x e
      (dflt || d.isFenced tSource n) false
  | _, _ => d

/-- A PD output taken at `pos` reaches the Ledger: source voltages and currents, and the path losses of strings. An output
that settles counts for nothing. -/
def ledPd (chan pos : Nat) (d : Dev) : Dev :=
  let w := (d.pdChan chan).direct
  let val := pdVal w
  if bit w 27 && !(d.pdChan chan).calHold then d
  else
  let d := match d.srcOfPd 2 chan with
    | some (n, x) =>
      if pdMetered (d.srcCfg n) x then srcPair (d.modAcc 0x01 x fun a => { a with vPend := some (pos, val) }) n x else d
    | none => d
  let d := match d.srcOfPd 3 chan with
    | some (n, x) =>
      let rq := sfIn (d.srcCfg n) x 3
      let sh := max 1 (bits (sfIn (d.srcCfg n) x 4) 0 16)
      let d := if pdMetered (d.srcCfg n) x then srcPair (d.modAcc 0x01 x fun a => { a with iPend := some (pos, val) }) n x else d
      pathEnergy d 1 x val (pdSpan rq) (d.pdOsr rq) (2 ^ 46 * sh * sh * 125) (bit w 28 || d.isFenced tSource n) false
    | none => d
  match (d.pdChan chan).owner with
  | some key =>
    let i := key % 4096
    let rq := word (d.strCfg i) 5
    if key / 4096 = tString ∧ pdRqChan rq = chan ∧ (d.str i).counts = true then
      pathEnergy d 4 i val 50000 (d.pdOsr rq) (2 ^ 46 * bsShunt (d.strCfg i) ^ 2 * 125) (bit w 28 || d.isFenced tString i) false
    else d
  | none => d

/-- The loss of one phase over one start, in 2^-16 µJ (R274). -/
def phaseLoss (d : Dev) (i k : Nat) (t : Nat × Nat) : Int :=
  let ifs := bits (d.railW i 23) 0 16
  let v : Int := fsVal (d.fsLast (rqInput (d.railW i (11 + k))))
  let b : Int := fsVal (d.fsLast (rqInput (d.railW i 9))) * bits (d.railW i 10) 0 16
  let p0 := bits (d.pathW (80 + 2 * i)) 0 16
  let tsw := bits (d.pathW (80 + 2 * i)) 16 16
  let r := (d.pathW (81 + 2 * i)).toNat
  roundOpen ((p0 * t.1 * 64 : Nat) : Int) (max 1 t.2 * 1000000) +
    roundOpen (v * v * (r * ifs * ifs * 64 * t.1 : Nat)) (2 ^ 30 * max 1 t.2 * 10000000000000) +
    roundOpen (b * v.natAbs * (ifs * tsw * 256 * t.1 : Nat)) (2 ^ 30 * max 1 (rcPeriod (d.slot tRail i).cfg) * max 1 t.2 * 100000000)

/-- A start of generator `g` for rail `i`: output energy and modelled loss since the previous start (R274). -/
def ledRail (d : Dev) (g i : Nat) : Dev :=
  if rqTrig (d.railW i 11) = g then
    let t := d.genPeriod g
    let vw := d.fsLast (rqInput (d.railW i 8))
    let ks := d.positions i fun p => p.state != .fenced
    let ws := ks.map fun k => d.fsLast (rqInput (d.railW i (11 + k)))
    let sum := sumInt (ws.map fsVal)
    let dflt := bit vw 20 || (ws.any fun w => bit w 20) || d.isFenced tRail i
    let late := bit vw 19 || ws.any fun w => bit w 19
    let out := roundOpen (fsVal vw * sum * ((bits (d.railW i 7) 16 16) * (bits (d.railW i 23) 0 16) * t.1 : Nat))
      (2 ^ 30 * max 1 t.2 * 1562500)
    let on := d.positions i fun p => p.state.isActive || p.state == .firing
    let loss := sumInt (on.map fun k => phaseLoss d i k t)
    ledAdd (ledAdd d 0x07 i out dflt late) 0x06 i (out + loss) dflt late
  else d

/-- A start of generator `g` (R218, R274): rails are metered, source members count the time. -/
def ledStart (g : Nat) (d : Dev) : Dev :=
  let d := (d.liveIndices tRail).foldl (fun d i => ledRail d g i) d
  (d.liveIndices tSource).foldl (fun d n =>
    (sfMembers (d.srcCfg n)).foldl (fun d x =>
      if rqTrig (sfIn (d.srcCfg n) x 1) = g then d.modAcc 0x01 x fun a => { a with starts := a.starts + 1 } else d) d) d

/-- A current sample of source input `x` (R218, R271, R275). -/
def ledSource (x : Nat) (w : Word) (d : Dev) : Dev :=
  match d.setOfInput x with
  | none => d
  | some n =>
    let ws := d.srcCfg n
    let rq := sfIn ws x 1
    let a := d.ledAcc 0x01 x
    let starts := if a.sampled then a.starts else 2 ^ rqDiv rq
    let t := d.genPeriod (rqTrig rq)
    let sh := max 1 (bits (sfIn ws x 4) 0 16)
    let dflt := bit w 20 || d.isFenced tSource n
    let v := fsVal (d.fsLast (184 + x))
    let e := roundOpen (fsVal w * v * (spanUv rq * bits (sfIn ws x 4) 16 16 * starts * t.1 * 64 : Nat))
      (100000 * sh * 2 ^ 30 * max 1 t.2)
    let d := d.modAcc 0x01 x fun a => { a with starts := 0, sampled := true }
    let d := if pdMetered ws x then d else ledAdd d 0x01 x e dflt (bit w 19)
    if sfIn ws x 3 = 0 then
      pathEnergy d 1 x (fsVal w) (spanUv rq) (starts * t.1 * 64) (2 ^ 30 * sh * sh * max 1 t.2 * 1000000000) dflt (bit w 19)
    else d

/-- A current sample of a feed or branch: its path losses (R275). Runs before the channel meters the sample. -/
def ledCurrent (c : Nat) (w : Word) (d : Dev) : Dev :=
  let x := d.chan c
  let ws := d.chanCfg c
  let rq := chImeas c ws
  let n := if x.sampled then x.starts else 2 ^ rqDiv rq
  let t := d.genPeriod (rqTrig rq)
  let sh := max 1 (chShunt ws)
  pathEnergy d (if c < 40 then 2 else 3) (chanIndex c) (fsVal w) (spanUv rq) (n * t.1 * 64)
    (2 ^ 30 * sh * sh * max 1 t.2 * 1000000000) (bit w 20 || d.isFenced (chanType c) (chanIndex c)) (bit w 19)

/-! ### The ended turn (R42, R280) -/

/-- The accounts of the source members. -/
def ledSources (d : Dev) (mode : Nat) : List Account :=
  (List.range 4).filterMap fun x => (d.setOfInput x).map fun n =>
    let a := d.ledAcc 0x01 x
    let f := d.isFenced tSource n
    { kind := 0x01, index := x, value := a.e, handle := d.srcHandle n, est := a.dflt || f
      used := x != inBat || mode == 2, fsMet := !pdMetered (d.srcCfg n) x, late := a.late : Account }

/-- Whether a string hibernated, settled, had its group stopped or had a DEFAULTED input in a turn (R319). -/
def StrTurn.notAwake (t : StrTurn) : Bool := t.hibernated || t.settling || t.stopped || t.defaulted

/-- The accounts of the strings (R271, R273). -/
def ledStrings (d : Dev) (mode : Nat) : List Account :=
  let is := d.liveIndices tString
  (is.map fun i =>
    let r := (d.str i).ended
    { kind := 0x02, index := i, value := r.energy, handle := d.strHandle i
      est := r.defaulted || d.isFenced tString i, used := mode == 1, hib := r.notAwake : Account }) ++
  is.map fun i =>
    let r := d.str i
    { kind := 0x03, index := i, value := r.qEnd - tget 0 d.led.q0 i, handle := d.strHandle i
      est := r.ended.estimated, hib := r.ended.notAwake : Account }

/-- The accounts of feeds and branches (R218, R246): what was sampled before a fence keeps its value (R226). -/
def ledChans (d : Dev) (t kind base : Nat) : List Account :=
  (d.liveIndices t).map fun i =>
    let c := base + i
    let a := (d.chan c).ended
    let f := d.isFenced t i
    { kind := kind, index := i, value := a.energy, handle := d.chanHandle c, est := a.defaulted || f
      used := true, late := a.late : Account }

/-- The accounts of the rails. -/
def ledRails (d : Dev) (kind : Nat) : List Account :=
  (d.liveIndices tRail).map fun i =>
    let a := d.ledAcc kind i
    { kind := kind, index := i, value := a.e, handle := d.railHandle i, est := a.dflt || d.isFenced tRail i
      used := kind == 0x06, late := a.late : Account }

/-- Whether the object of a PATH entry is live, with its handle. -/
def Dev.pathOwner (d : Dev) (e : Nat) : Option Word :=
  let i := d.pathIndex e
  let own (t : Nat) := if d.live t i then some (d.handleOf t i) else none
  match d.pathKind e with
  | 1 => (d.setOfInput i).map d.srcHandle
  | 2 => own tFeed
  | 3 => own tBranch
  | 4 => own tString
  | 5 => if (d.liveIndices tFeed).isEmpty then none else some 0
  | _ => none

/-- Whether a PATH entry draws on a fenced handle. -/
def Dev.pathFenced (d : Dev) (e : Nat) : Bool :=
  let i := d.pathIndex e
  match d.pathKind e with
  | 1 => match d.setOfInput i with | some n => d.isFenced tSource n | none => false
  | 2 => d.isFenced tFeed i
  | 3 => d.isFenced tBranch i
  | 4 => d.isFenced tString i
  | _ => (d.liveIndices tFeed).any fun j => d.isFenced tFeed j

/-- The PATH accounts. -/
def ledPaths (d : Dev) (mode : Nat) : List Account :=
  (List.range 32).filterMap fun e => (d.pathOwner e).map fun h =>
    let a := d.ledAcc 0x08 e
    { kind := 0x08, index := e, value := a.e, handle := h, est := a.dflt || d.pathFenced e
      used := d.pathKind e != 4 || mode == 1, late := a.late : Account }

/-- The FIXED accounts: P_FIX over the turn. -/
def ledFixed (d : Dev) : List Account :=
  (List.range 8).filterMap fun k =>
    let p := bits (d.pathW (128 + k)) 0 16
    if p = 0 then none
    else some { kind := 0x09, index := k, value := roundOpen ((p * 100 * d.turnDur * 65536 : Nat) : Int) 100000, used := true }

/-- The present bus and bank voltage words. -/
def Dev.busNow (d : Dev) : Word × Word :=
  ((match d.liveIndices tSource with | n :: _ => (d.pdChan (pdRqChan (word (d.srcCfg n) 4))).direct | [] => 0),
   (match d.holdupSet with | some n => (d.pdChan (pdRqChan (word (d.srcCfg n) 31))).direct | none => 0))

/-- C × (V_1² − V_0²) / 2 in 2^-16 µJ. -/
def storedEnergy (c fs : Nat) (v0 v1 : Int) : Int :=
  roundOpen ((v1 * v1 - v0 * v0) * (c * fs * fs * 32768 : Nat)) (1000 * 2 ^ 46)

/-- The STORED accounts (R276): the words at the start of the turn are given, those at its end are held. One that a DEFAULTED
output feeds is ESTIMATED (R284). -/
def ledStored (d : Dev) (bus0 bank0 : Word) : List Account :=
  let one (n k c fs : Nat) (v0 v1 : Word) : Account :=
    { kind := 0x0B, index := k, handle := d.srcHandle n, used := true, est := d.isFenced tSource n || bit v0 28 || bit v1 28
      value := storedEnergy c fs (pdVal v0) (pdVal v1) }
  (match d.liveIndices tSource with
    | n :: _ => [one n 0 (field (d.srcCfg n) 5 0 16) Config.busFullScale bus0 d.led.vBus]
    | [] => []) ++
  match d.holdupSet with
  | some n => [one n 1 (field (d.srcCfg n) 30 0 16) Config.bankFullScale bank0 d.led.vBank]
  | none => []

/-- The battery mode of a turn that is not in strings mode (R272). -/
def ledOther (d : Dev) : Nat :=
  match d.setOfInput inBat with
  | some n => if pdMetered (d.srcCfg n) inBat then 2 else 3
  | none => 3

/-- The battery mode of the ended turn (R272). -/
def ledMode (d : Dev) : Nat :=
  let is := d.liveIndices tString
  if !is.isEmpty && is.all fun i => (d.str i).ended.awake && !(d.str i).ended.defaulted && !d.isFenced tString i then 1
  else ledOther d

/-- Whether part of a transfer gap fell in the ended turn. -/
def Dev.gapEnded (d : Dev) : Bool := d.src.any fun p => p.2.gapEnded

/-- The new turn's table: that of the live set of schema version 2 or later (R277). -/
def Dev.newPath (d : Dev) : List Byte :=
  match (d.liveIndices tSource).find? fun n => 2 ≤ (d.slot tSource n).schema with
  | some n => ((d.slot tSource n).active.drop 48).take 496
  | none => []

/-- Tick 0 of a turn (R42, step 2): the ended turn waits for its close, and the accounts of the new turn begin. -/
def ledEnd (turn : BitVec 48) (latch : Bool) (d : Dev) : Dev :=
  let mode := ledMode d
  let bus0 := d.led.vBus
  let bank0 := d.led.vBank
  let d := d.modLed fun l => { l with vBus := d.busNow.1, vBank := d.busNow.2 }
  let reason := if !d.led.pdAll then 1 else if !d.led.srcAll then 2 else 0
  let accounts := ledSources d mode ++ ledStrings d mode ++ ledChans d tFeed 0x04 0 ++ ledChans d tBranch 0x05 40 ++
    ledRails d 0x06 ++ ledRails d 0x07 ++ ledPaths d mode ++ ledFixed d
  let flue := d.plane.takeover || d.sag.fenced.contains 9
  let accounts := accounts.map fun a => if flue then { a with est := a.est || a.kind != 0x09 } else a
  let w := d.wheel
  let excuse := b2n d.gapEnded * 2 + b2n d.led.handover * 4 + b2n d.acq.pdCalEnded * 8 + b2n w.slewEnded * 16
  let lt : LedTurn :=
    { turn := turn, profile := d.plane.profile, coast := w.coastEnded, slew := w.slewEnded, reason := reason, mode := mode
      excuse := excuse, accounts := accounts ++ [{ kind := 0x0A, index := 0, value := 0, used := true }] ++ ledStored d bus0 bank0
      effHk := bits (d.pathW 13) 0 16, effDrv := bits (d.pathW 13) 16 16, dur := d.turnDur, unmet := d.unmetTurns
      other := ledOther d, bus0 := bus0, bank0 := bank0
      latch := if latch then some (turn + 1) else none }
  let q0 := (d.liveIndices tString).foldl (fun t i => tset 0 t i (d.str i).qEnd) []
  d.modLed fun l =>
    { l with waiting := some lt, q0 := q0, pdAll := d.acq.pdDone, srcAll := d.anySet, handover := false
             acc := tmapAll {} l.acc fun _ a => { a with e := 0, late := false, dflt := false }, accEnded := l.acc }

/-- Step 3 of the boundary has made swaps active: the new turn runs on the new table (R278). -/
def ledNewTable (d : Dev) : Dev := d.modLed fun l => { l with path := d.newPath }

/-! ### The close (R281 to R286) -/

/-- A value in µJ: the nearest integer. -/
def microJ (e : Int) : Int := roundHalfUp e 65536

/-- OWN in 2^-16 µJ from the three measured powers in mW (R275). -/
def ownEnergy (t : LedTurn) (pFb pHk pDrv : Nat) : Int :=
  let part (p eff : Nat) : Int := if eff = 0 then 0 else roundOpen ((p * 1000 * t.dur * 65536 : Nat) : Int) (eff * 100000)
  roundOpen ((pFb * t.dur * 65536 : Nat) : Int) 100000 + part pHk t.effHk + part pDrv t.effDrv

/-- The sum of the used accounts of some kinds. -/
def usedSum (as : List Account) (p : Account → Bool) : Int :=
  sumInt ((as.filter fun a => a.used && p a).map (·.value))

/-- One entry of Table 10.7. -/
def Account.bytes (a : Account) : List Byte :=
  [BitVec.ofNat 8 a.kind, BitVec.ofNat 8 a.index,
   BitVec.ofNat 8 (b2n a.est + b2n a.used * 2 + b2n a.hib * 4 + b2n a.fsMet * 8 + b2n a.late * 16), 0] ++
    leBytes 4 a.handle.toNat ++ leBytes 8 (fitS 64 (microJ a.value))

/-- LEDG_ACCOUNTS (R287). -/
def accountsBlock (turn : BitVec 48) (as : List Account) : List Byte :=
  [0x01, 0] ++ leBytes 2 as.length ++ leBytes 6 turn.toNat ++ zeros 6 ++ as.flatMap Account.bytes

/-- Add a turn's account to the round's. -/
def addAccount (t : List (Nat × Account)) (a : Account) : List (Nat × Account) :=
  let k := a.kind * 256 + a.index
  match t.find? fun p => p.1 == k with
  | some (_, b) =>
    tinsert t k { a with value := a.value + b.value, est := a.est || b.est, used := a.used || b.used, hib := a.hib || b.hib
                         fsMet := a.fsMet || b.fsMet, late := a.late || b.late }
  | none => tinsert t k a

/-- LEDG_ROUND (Table 10.8). -/
def roundBytes (r : LedRound) (profile : Profile) (alarm : Bool) (latch : BitVec 48) : List Byte :=
  let s64 (v : Int) := leBytes 8 (fitS 64 (microJ v))
  [0x01, BitVec.ofNat 8 profile.code] ++
    leBytes 2 (b2n r.coast + b2n r.slew * 2 + b2n r.declared * 4 + b2n alarm * 8) ++ leBytes 2 r.excuse ++
    leBytes 6 latch.toNat ++ leBytes 4 r.turns ++ leBytes 4 r.closed ++ leBytes 4 r.excused ++ leBytes 4 r.isOver ++
    s64 r.inp ++ s64 r.out ++ s64 r.loss ++ s64 r.stored ++ s64 r.residual ++ s64 r.resAudited ++
    leBytes 8 (fitU 64 (microJ r.thrAudited)) ++ leBytes 4 (fitU 32 (roundOpen ((r.maxNum * 65536 : Nat) : Int) r.maxDen)) ++
    leBytes 6 r.maxTurn.toNat ++ zeros 2

/-- The round is latched and its sums restart at zero (R288). -/
def ledLatch (l : Led) (t : LedTurn) : Led :=
  match t.latch with
  | none => { l with latched := false }
  | some n =>
    { l with latched := true, round := {}, roundBlock := roundBytes l.round t.profile l.alarm n
             roundAccBlock := accountsBlock n (l.round.accounts.map (·.2)) }

/-- An unclosed turn (R280); its accounts are listed, OWN's value with them, and none is used. -/
def ledUnclosed (t : LedTurn) (own : Int) (d : Dev) : Dev :=
  let l := d.led
  let d := if l.lastClosed then d.raise 0x0802 t.reason 0 else d
  let d := d.tally 41 3 1
  d.modLed fun l =>
    ledLatch { l with
      lastClosed := false
      turnBlock := [0x01, BitVec.ofNat 8 (t.profile.code + t.reason * 16)] ++
        leBytes 2 (b2n l.alarm * 4 + b2n t.coast * 8 + b2n t.slew * 16) ++ leBytes 2 0 ++ leBytes 6 t.turn.toNat ++ zeros 52
      accBlock := accountsBlock t.turn (t.accounts.map fun a =>
        { a with used := false, value := if a.kind = 0x0A then own else a.value })
      round := { l.round with turns := l.round.turns + 1, coast := l.round.coast || t.coast, slew := l.round.slew || t.slew } } t

/-- A closed turn (R281 to R285). -/
def ledClosed (t : LedTurn) (own : Int) (d : Dev) : Dev :=
  let as := t.accounts.map fun a => if a.kind = 0x0A then { a with value := own } else a
  let src := usedSum as fun a => a.kind == 1 && a.index != inBat
  let bat := usedSum as (fun a => a.kind == 1 && a.index == inBat) - usedSum as fun a => a.kind == 2
  let inp := src + bat
  let out := usedSum as fun a => a.kind == 4 || a.kind == 5 || a.kind == 6
  let loss := usedSum as fun a => a.kind == 8 || a.kind == 9 || a.kind == 0x0A
  let stored := usedSum as fun a => a.kind == 0x0B
  let res := inp - out - loss - stored
  let thr := sumInt ((as.filter fun a => a.used && a.kind == 1 && a.index != inBat).map fun a => max a.value 0) +
    max bat 0 + max (-stored) 0
  let pf := t.profile.ledgerBound
  -- 10,000 × BOUND in 2^-16 µJ
  let bound : Nat := (pf.1 * thr + pf.2 * 1000 * 65536 * 10000).toNat
  let fenced := as.any fun a => a.used && a.est
  let excuse := b2n fenced + t.excuse
  let excused := excuse != 0
  let isOver := !excused && decide (bound < res.natAbs * 10000)
  let within := !excused && !isOver
  let count := if isOver then d.led.count + 1 else if within then 0 else d.led.count
  let good := if isOver then 0 else if within then d.led.good + 1 else d.led.good
  let r := d.led.round
  let bigger := !excused && (r.maxTurn == 0 && r.maxNum == 0 || decide (r.maxNum * bound < res.natAbs * 10000 * r.maxDen))
  let round : LedRound :=
    { r with
      coast := r.coast || t.coast, slew := r.slew || t.slew, excuse := r.excuse ||| excuse, turns := r.turns + 1
      closed := r.closed + 1, excused := r.excused + b2n excused, isOver := r.isOver + b2n isOver
      inp := r.inp + inp, out := r.out + out, loss := r.loss + loss, stored := r.stored + stored
      residual := r.residual + res, resAudited := if excused then r.resAudited else r.resAudited + res
      thrAudited := if excused then r.thrAudited else r.thrAudited + thr
      maxNum := if bigger then res.natAbs * 10000 else r.maxNum, maxDen := if bigger then bound else r.maxDen
      maxTurn := if bigger then t.turn else r.maxTurn, accounts := as.foldl addAccount r.accounts }
  let d := if isOver && r.isOver == 0 then d.raise 0x0803 1 0 else d
  let d := ((d.tally 41 0 1).tally 41 1 (b2n excused)).tally 41 2 (b2n isOver)
  let d := if excused then d else witValueAt t.turn 0 0x48 0 ((res.natAbs * 10000 * 65536 : Nat) : Int) bound false d
  let s64 (v : Int) := leBytes 8 (fitS 64 (microJ v))
  d.modLed fun l =>
    ledLatch { l with
      lastClosed := true, count := count, good := good, lastNegative := decide (res < 0), round := round
      turnBlock := [0x01, BitVec.ofNat 8 (t.profile.code + t.mode * 4)] ++
        leBytes 2 (b2n excused + b2n isOver * 2 + b2n l.alarm * 4 + b2n t.coast * 8 + b2n t.slew * 16 + b2n fenced * 32) ++
        leBytes 2 excuse ++ leBytes 6 t.turn.toNat ++ s64 inp ++ s64 out ++ s64 loss ++ s64 stored ++ s64 res ++
        leBytes 8 (fitU 64 (microJ thr)) ++ leBytes 4 (fitU 32 (roundHalfUp (bound : Int) 655360000))
      accBlock := accountsBlock t.turn as } t

/-! ### Samples that come after their turn has ended (R42) -/

/-- The running and the ended turn exchanged in what gathers samples: the accounts, the channels and the strings. -/
def Dev.otherTurn (d : Dev) : Dev :=
  { d with
    led := { d.led with acc := d.led.accEnded, accEnded := d.led.acc }
    feeds := tmapAll {} d.feeds fun _ x => { x with acc := x.ended, ended := x.acc }
    branches := tmapAll {} d.branches fun _ x => { x with acc := x.ended, ended := x.acc }
    strs := tmapAll {} d.strs fun _ r => { r with run := r.ended, ended := r.run } }

/-- An account of the waiting turn with what the samples `d` has since gathered for it; `q` is the charge that each string's
accumulator gained. A handle that is gone keeps what it had. -/
def Account.again (d : Dev) (bus0 bank0 : Word) (q : Nat → Int) (a : Account) : Account :=
  let metered : Account :=
    let m := tget ({} : LedAcc) d.led.accEnded (a.kind * 256 + a.index)
    { a with value := m.e, est := a.est || m.dflt, late := m.late }
  let channel (c : Nat) : Account :=
    let m := (d.chan c).ended
    if d.chanHandle c = a.handle then { a with value := m.energy, est := a.est || m.defaulted, late := m.late } else a
  let r := (d.str a.index).ended
  let own := d.strHandle a.index == a.handle
  match a.kind with
  | 0x01 => metered
  | 0x02 => if own then { a with value := r.energy, est := a.est || r.defaulted, hib := r.notAwake } else a
  | 0x03 => if own then { a with value := a.value + q a.index, est := a.est || r.estimated, hib := r.notAwake } else a
  | 0x04 => channel a.index
  | 0x05 => channel (40 + a.index)
  | 0x08 => metered
  | 0x0B => ((ledStored d bus0 bank0).find? fun b => b.index == a.index && b.handle == a.handle).getD a
  | _ => a

/-- Strings mode ends for a turn in which a string proves not to have been awake (R272). -/
def LedTurn.settleMode (t : LedTurn) : LedTurn :=
  if t.mode == 1 && t.accounts.any fun a => a.kind == 2 && (a.est || a.hib) then
    { t with
      mode := t.other
      accounts := t.accounts.map fun a =>
        if a.kind = 2 ∨ (a.kind = 8 ∧ hType a.handle = tString) then { a with used := false }
        else if a.kind = 1 ∧ a.index = inBat then { a with used := t.other == 2 }
        else a }
  else t

/-- What a late sample left in the ended turn goes on to the channel's telemetry and to the turn that waits for its close. -/
def lateSettle (d0 d : Dev) : Dev :=
  let ended := d.wheel.turn - 1
  let d := d.liveChans.foldl (fun d c =>
    if (d.chan c).ended == (d0.chan c).ended then d
    else
      let gain := (d.chan c).ended.energy - (d0.chan c).ended.energy
      let d := if c < 40 then
          (feedPowerTurn d c).modChan c fun x => { x with onsets := { x.onsets with power := x.onsets.power.map (· + gain) } }
        else d
      let d := chanTelem d c ended
      d.publish (d.chanHandle c) 0 (d.chan c).telem) d
  let q (i : Nat) : Int := (d.str i).qEnd - (d0.str i).qEnd
  let again (t : LedTurn) : LedTurn :=
    LedTurn.settleMode { t with accounts := t.accounts.map (Account.again d t.bus0 t.bank0 q) }
  d.modLed fun l => { l with waiting := l.waiting.map again }

/-- A sample taken at `pos` (in units of 2^-32 turn) is delivered by `f`. One whose instant precedes tick 0 of the running turn
belongs to the ended turn, and counts there (R42). -/
def Dev.inTurn (pos : Nat) (f : Dev → Dev) (d : Dev) : Dev :=
  if BitVec.ofNat 48 (pos / 2 ^ 32) + 1 = d.wheel.turn then
    let e := (f d.otherTurn).otherTurn
    lateSettle d { e with strs := tmapAll {} e.strs fun i r =>
      let p := d.str i
      { r with qEnd := r.qEnd + (r.q - p.q), disEnd := r.disEnd + (r.qDis - p.qDis), bEnd := r.bEnd + (r.b - p.b) } }
  else f d

/-- An output of BUS_PD or HU_PD whose instant precedes tick 0 is the last of the ended turn: V_1 of that turn and V_0 of the
next (R276). -/
def ledBusEnds (chan pos : Nat) (d : Dev) : Dev :=
  if BitVec.ofNat 48 (pos / 2 ^ 32) + 1 ≠ d.wheel.turn then d
  else
  let w := (d.pdChan chan).direct
  let bus := match d.liveIndices tSource with | n :: _ => pdRqChan (word (d.srcCfg n) 4) == chan | [] => false
  let bank := match d.holdupSet with | some n => pdRqChan (word (d.srcCfg n) 31) == chan | none => false
  d.modLed fun l => { l with vBus := if bus then w else l.vBus, vBank := if bank then w else l.vBank }

/-- LEDGER_CLOSE: the turn that waits is closed, or published unclosed; a fenced Ledger does neither (R290). -/
def ledgerClose (pFb pHk pDrv : Nat) (d : Dev) : Dev :=
  match d.led.waiting with
  | none => d
  | some t =>
    let d := d.modLed fun l => { l with waiting := none, unmet := t.unmet }
    let late (d : Dev) : Dev := if t.latch.isSome then witLatchLate d else d
    if d.led.fenced then late d
    else
      let d := late ((if t.reason = 0 then ledClosed else ledUnclosed) t (ownEnergy t pFb pHk pDrv) d)
      let d := (d.publish 0 0x0800 d.led.turnBlock).publish 0 0x0801 d.led.accBlock
      if d.led.latched then (d.publish 0 0x0802 d.led.roundBlock).publish 0 0x0803 d.led.roundAccBlock else d

/-- Bit `n` of the 16-bit FLAGS at offset 2 of a block set or cleared. -/
def setFlag (b : List Byte) (n : Nat) (on : Bool) : List Byte :=
  let v := byteField b 2 2
  splice b (leBytes 2 (v - bitsN v n 1 * 2 ^ n + b2n on * 2 ^ n)) 2

/-- The alarm as it is published: in LEDG_TURN, and in the round blocks that the same close latched or will latch. -/
def ledAlarm (l : Led) (on : Bool) : Led :=
  let l := { l with alarm := on, turnBlock := setFlag l.turnBlock 2 on, count := if on then l.count else 0, good := 0 }
  if l.latched then
    { l with roundBlock := setFlag (if on then setFlag l.roundBlock 2 true else l.roundBlock) 3 on }
  else { l with round := { l.round with declared := l.round.declared || on } }

/-- LEDG_UNMETERED: the count has reached UNMET_TURNS, or as many turns in a row were within the bound (R285). -/
def ledgUnmetered (d : Dev) : Dev :=
  let l := d.led
  let act (on : Bool) : Dev :=
    let d := Dev.raise (d.modLed fun l => ledAlarm l on) 0x0801 (b2n on + b2n l.lastNegative * 2) 0
    let d := d.publish 0 0x0800 d.led.turnBlock
    if l.latched then d.publish 0 0x0802 d.led.roundBlock else d
  if l.fenced then d
  else if !l.alarm && decide (l.unmet ≤ l.count) then act true
  else if l.alarm && decide (l.unmet ≤ l.good) then act false
  else d

/-- LEDG_TURN as it reads; zeros before the first turn was processed. -/
def ledTurnBlock (d : Dev) : List Byte :=
  let b := if d.led.turnBlock.isEmpty then zeros 64 else d.led.turnBlock
  if d.led.fenced then setFlag b 6 true else b

/-- The Ledger is fenced, which LEDG_TURN and its mirror show; or runs again with a count of 0 and a new round (R290, R389). -/
def ledFence (on : Bool) (d : Dev) : Dev :=
  let d := d.modLed fun l =>
    if on then { l with fenced := true }
    else { l with fenced := false, count := 0, good := 0, round := {}, waiting := none }
  d.republish 0 0x0800 (ledTurnBlock d)

/-- A Ledger block by its selector (R289). -/
def ledBlock (d : Dev) (sel : Nat) : List Byte :=
  match sel with
  | 0x0800 => ledTurnBlock d
  | 0x0801 => if d.led.accBlock.isEmpty then accountsBlock 0 [] else d.led.accBlock
  | 0x0802 => if d.led.roundBlock.isEmpty then zeros 96 else d.led.roundBlock
  | _ => if d.led.roundAccBlock.isEmpty then accountsBlock 0 [] else d.led.roundAccBlock

/-- LEDGER_CLOSE. -/
def execLedgerClose (pFb pHk pDrv : Nat) (s : State) : Out := s.onDev fun _ d => ledgerClose pFb pHk pDrv d
/-- LEDG_UNMETERED. -/
def execLedgUnmetered (s : State) : Out := s.onDev fun _ d => ledgUnmetered d

end Sys2Proof.Machine
end

