-- ==== Sys2Proof/Machine/Kiln.lean ====
section
/-! DEFINITION. Kiln (spec 13): Cones, SENSOR handles, zones and throttling, broken sensors, the Sitter. -/

namespace Sys2Proof.Machine

/-! ### Access -/

/-- SENSOR `n` at run time. -/
def Dev.sens (d : Dev) (n : Nat) : SensorRt := tget {} d.heat.sens n
/-- Change SENSOR `n`. -/
def Dev.modSens (d : Dev) (n : Nat) (f : SensorRt → SensorRt) : Dev :=
  { d with heat := { d.heat with sens := tmod {} d.heat.sens n f } }
/-- The Cones of sensor `n`. -/
def Dev.cones (d : Dev) (n : Nat) : Cones := tget {} d.heat.cones n
/-- Change the Cones of sensor `n`. -/
def Dev.modCones (d : Dev) (n : Nat) (f : Cones → Cones) : Dev :=
  { d with heat := { d.heat with cones := tmod {} d.heat.cones n f } }
/-- The handle of a live SENSOR, or 0. -/
def Dev.sensHandle (d : Dev) (n : Nat) : Word := if d.live tSensor n then d.handleOf tSensor n else 0
/-- Sensors 16 to 19 are on the die. -/
def onDie (n : Nat) : Bool := decide (16 ≤ n)
/-- ZONE. -/
def Dev.sensZone (d : Dev) (n : Nat) : Nat := bits ((d.slot tSensor n).w 0) 0 3
/-- A field of the active KILN_BANK. -/
def Dev.sensB (d : Dev) (n w lo len : Nat) : Nat := bits ((d.slot tSensor n).bankW w) lo len
/-- The fused threshold of Cone `c` in Q9.7 (Table 13.1). -/
def fusedCone (c : Nat) : Int := ((if Config.gradeXa then [125, 130, 140] else [115, 120, 130]).getD c 130) * 128
/-- The bank's threshold of Cone `c` in Q9.7. -/
def bankCone (b : List Word) (c : Nat) : Int := sx 16 (field b (c / 2) (16 * (c % 2)) 16)

/-- Whether Cone confirmations of a sensor count: on the die always, else while armed (R367). -/
def Dev.coneArmed (d : Dev) (n : Nat) : Bool := onDie n || (d.sens n).armed

/-- The threshold of Cone `c` in force (R367). -/
def Dev.coneThreshold (d : Dev) (n c : Nat) : Int :=
  let own := bankCone (wordsOfBytes (d.slot tSensor n).active) c
  if onDie n then (if (d.sens n).armed then min own (fusedCone c) else fusedCone c) else own

/-- The hysteresis of Cone `c` in force, in °C (Table 13.1, R370). -/
def Dev.coneHyst (d : Dev) (n c : Nat) : Nat :=
  if onDie n && !(d.sens n).armed then 10 else d.sensB n 2 (8 * c) 8

/-- The voltage level of a Cone's comparator in 1/128 µV: V10 − SLOPE × (T − T_m) of the last good conversion, T being the
threshold, or the threshold less the hysteresis for the release level (R365, R366). On the die it comes from factory trim
(R367). A remote sensor without a good conversion has none. -/
def Dev.coneLevel (d : Dev) (n c : Nat) (release : Bool) : Option Int :=
  let t := d.coneThreshold n c - (if release then 128 * (d.coneHyst n c : Int) else 0)
  if onDie n then some (Config.trimVbe n t)
  else (d.sens n).base.map fun b => 128 * (b.1 : Int) - (bits ((d.slot tSensor n).w 2) 0 16 : Nat) * (t - b.2)

/-! ### Checks (R369, R370) -/

/-- A KILN_BANK that passes the checks of R370. -/
def kilnBankOk (n : Nat) (b : List Word) : Bool :=
  let c := bankCone b
  decide (c 0 ≤ c 1) && decide (c 1 ≤ c 2) && decide (c 2 ≤ 150 * 128) &&
    (!onDie n || (List.range 3).all fun k => decide (c k ≤ fusedCone k)) &&
    ([(0, 1), (8, 1), (16, 5)].all fun p => decide (p.2 ≤ field b 2 p.1 8) && decide (field b 2 p.1 8 ≤ 50)) &&
    decide (1 ≤ field b 3 0 16) && decide (field b 3 0 16 ≤ 600) &&
    decide (10 ≤ field b 3 16 16) && decide (field b 3 16 16 ≤ 100)

/-- The RANGE conditions of a KILN_SENSOR_CFG (R369). -/
def sensRange (d : Dev) (n : Nat) (ws : List Word) : Check :=
  let b := ws.drop 8
  Check.range (
    field ws 0 3 29 == 0 &&
    (onDie n || (decide (9000 ≤ field ws 1 0 16) && decide (field ws 1 0 16 ≤ 11000) && decide (field ws 1 16 16 ≤ 100))) &&
    decide (1000 ≤ field ws 2 0 16) && decide (field ws 2 0 16 ≤ 3000) && field ws 2 16 16 == 0 && field ws 3 16 16 == 0 &&
    ((List.range 4).all fun k => word ws (4 + k) == 0 || d.namesLive tRail (word ws (4 + k)) || d.namesLive tFeed (word ws (4 + k))) &&
    kilnBankOk n b && field b 1 16 16 == 0 && field b 2 24 8 == 0 && word b 4 == 0 && word b 5 == 0)

/-! ### Zones (R372, R374) -/

/-- The live SENSORs of a zone. -/
def Dev.zoneSensors (d : Dev) (z : Nat) : List Nat := (d.liveIndices tSensor).filter fun n => d.sensZone n == z

/-- Whether a zone is BLIND. -/
def zoneBlind (d : Dev) (z : Nat) : Bool :=
  let ns := d.zoneSensors z
  (ns.any fun n => !onDie n) && ns.all fun n => !onDie n && ((d.sens n).broken || d.isFenced tSensor n)

/-- The SENSORs of a zone that throttle it: those with C2 confirmed, or all while it is BLIND. -/
def zoneCauses (d : Dev) (z : Nat) : List Nat :=
  if zoneBlind d z then d.zoneSensors z else (d.zoneSensors z).filter fun n => (d.cones n).conf.toNat / 2 % 2 == 1

/-- The targets of a SENSOR. -/
def Dev.sensTargets (d : Dev) (n : Nat) : List Word :=
  (((d.slot tSensor n).cfg.drop 4).take 4).filter (· != 0)

/-- The percentage that Kiln allows a RAIL or FEED: the lowest over the throttled zones that name it. -/
def kilnPct (d : Dev) (h : Word) : Nat :=
  (List.range 8).foldl (fun p z =>
    let cs := zoneCauses d z
    if cs.isEmpty || !((d.zoneSensors z).any fun n => (d.sensTargets n).contains h) then p
    else cs.foldl (fun p n => min p (d.sensB n 3 16 16)) p) 100

/-- One zone's BLIND and throttle follow its sensors; `cause` is the SENSOR whose change may have moved them. -/
def zoneUpdate (cause : Word) (d : Dev) (z : Nat) : Dev :=
  let blind := zoneBlind d z
  let thr := !(zoneCauses d z).isEmpty
  let d := if blind == d.heat.blind.contains z then d else
    Dev.raise { d with heat := { d.heat with blind := if blind then sortNat (z :: d.heat.blind) else d.heat.blind.filter (· != z) } }
      0x0B05 (z + b2n blind * 256) 0
  if thr == d.heat.throttled.contains z then d else
    Dev.raise { d with heat := { d.heat with
        throttled := if thr then sortNat (z :: d.heat.throttled) else d.heat.throttled.filter (· != z) } }
      0x0B02 (z + b2n thr * 256) cause

/-- Zones and throttles after any change of a SENSOR. -/
def kilnApply (cause : Word) (d : Dev) : Dev :=
  let d := (List.range 8).foldl (zoneUpdate cause) d
  let d := (d.liveIndices tRail).foldl (fun d i => d.modRail i fun r => { r with throttlePct := kilnPct d (d.railHandle i) }) d
  (d.liveIndices tFeed).foldl (fun d i => d.modChan i fun x => { x with throttlePct := kilnPct d (d.chanHandle i) }) d

/-! ### Confirmations (R366, R380) -/

/-- Confirm or release Cone `c`. -/
def setCone (d : Dev) (n c : Nat) (on : Bool) : Dev :=
  d.modCones n fun x => { x with conf := if on then x.conf ||| BitVec.ofNat 3 (2 ^ c) else x.conf &&& ~~~ BitVec.ofNat 3 (2 ^ c) }

/-- Disarm the Cones of a remote sensor: every confirmed Cone is cleared (R380). -/
def disarm (d : Dev) (n : Nat) : Dev :=
  let d := d.modSens n fun s => { s with armed := false }
  if onDie n then d
  else
    let c1 := (d.cones n).conf.toNat % 2 == 1
    let d := d.modCones n fun x => { x with conf := 0 }
    if c1 then d.raise 0x0B01 0 (d.sensHandle n) else d

/-! ### Conversions (R106, R371, R373) -/

/-- Request a conversion: merged with one already queued; none while the Flue is silent (R377). -/
def requestTd (n : Nat) (d : Dev) : Dev :=
  if d.plane.takeover then d
  else if d.acq.tdQueue.contains n then d.tally 21 1 1
  else { d with acq := { d.acq with tdQueue := d.acq.tdQueue ++ [n] } }

/-- A sensor becomes BROKEN, for a reason of Table 13.6 (R373). -/
def sensBreak (d : Dev) (n why : Nat) : Dev :=
  if onDie n then d
  else
    let was := (d.sens n).broken
    let d := (disarm d n).modSens n fun s => { s with broken := true, good := 0 }
    let d := if was then d else (d.raiseOnceTurn (0x0B04 * 32 + n) 0x0B04 why (d.sensHandle n)).tally 44 3 1
    kilnApply (d.sensHandle n) d

/-- A good conversion: a waiting ENABLE completes and the Cones arm; a BROKEN sensor re-arms at the third in a row. -/
def sensGood (d : Dev) (n : Nat) (biasOk : Bool) : Dev :=
  let h := d.sensHandle n
  if d.enabled tSensor n then
    if (d.sens n).broken then
      let good := if biasOk then (d.sens n).good + 1 else 0
      if 3 ≤ good then
        let d := d.modSens n fun s => { s with broken := false, armed := true, good := 0 }
        kilnApply h (d.raiseOnceTurn (0x0B04 * 32 + n) 0x0B04 0 h)
      else d.modSens n fun s => { s with good := good }
    else (d.modSens n fun s => { s with armed := true }).endKind .enable h .ok
  else d

/-- The word of a result (Table 4.10): a value with a fault flag reads 0. -/
def tdResult (n : Nat) (value : Int) (opn short exc : Bool) : Word :=
  BitVec.ofNat 32 ((if opn || short || exc then 0 else twos 16 (satSigned 16 value)) + b2n opn * 2 ^ 16 + b2n short * 2 ^ 17
    + b2n exc * 2 ^ 18 + n * 2 ^ 19)

/-- The result of input `n` is stored and counted, and the next request begins. -/
def tdStore (n : Nat) (rest : List Nat) (w : Word) (opn short exc : Bool) (d : Dev) : Dev :=
  (((Dev.tally { d with acq := { d.acq with tdQueue := rest, tdWord := tset 0 d.acq.tdWord n w } } 21 0 1).tally 21 2 (b2n opn)).tally
    21 3 (b2n short)).tally 21 4 (b2n exc)

/-- The live SENSOR of the input takes the result: a fault breaks it, a good value is recorded, and moves the thresholds of its
Cones (R365, R373). -/
def tdSensor (n : Nat) (value : Int) (uv : Nat) (opn short exc biasOk : Bool) (d : Dev) : Dev :=
  let d := d.modSens n fun s => { s with age := some 0 }
  if opn || short || exc then
    (sensBreak d n (if opn then 1 else if short then 2 else 3)).endKind .enable (d.sensHandle n) .state
  else sensGood (witValue (d.sensHandle n) 0x30 0 value 1 false
    (d.modSens n fun s => { s with base := some (uv, satSigned 16 value) })) n biasOk

/-- What waits for a conversion of a SENSOR reads its word. -/
def tdAnswer (h w : Word) (d : Dev) : Dev :=
  d.endWaits (fun x => x.handle == h && (match x.kind with | .convert _ _ => true | _ => false)) fun x =>
    match x.kind with
    | .convert a len => ⟨.ok, x.handle, BitVec.ofNat 64 (min 4 len), (leBytes 4 w.toNat).take len, a⟩
    | _ => plainCpl .ok x.handle 0

/-- TD_CONVERSION_DONE: the result of the sensor at the head of the queue, with its voltage `uv` at 10 µA; the next request
begins (R106). -/
def tdConversionDone (value : Int) (uv : Nat) (opn short exc biasOk : Bool) (d : Dev) : Dev :=
  match d.acq.tdQueue with
  | [] => d
  | n :: rest =>
    let w := tdResult n value opn short exc
    let d := tdStore n rest w opn short exc d
    if d.live tSensor n then tdAnswer (d.sensHandle n) w (tdSensor n value uv opn short exc biasOk d) else d

/-- SENSOR_PERIOD: PERIOD turns have passed since the last periodic request. -/
def sensorPeriod (n : Nat) (d : Dev) : Dev :=
  let p := bits ((d.slot tSensor n).w 3) 0 16
  if d.enabled tSensor n && p != 0 && decide (p ≤ (d.sens n).turns) then
    requestTd n (d.modSens n fun s => { s with turns := 0 })
  else d

/-! ### The Sitter (R375, R376) -/

/-- The KILN_SITTER record (Table 13.4). -/
def sitterBytes (first trips : Nat) (turn tick temp c3 tripped release flags dwell : Nat) : List Byte :=
  withCrc ([0x01, BitVec.ofNat 8 first] ++ leBytes 2 trips ++ leBytes 6 turn ++ leBytes 2 tick ++ leBytes 2 temp ++
    leBytes 2 c3 ++ leBytes 4 tripped ++ leBytes 6 release ++ [BitVec.ofNat 8 flags, 0] ++ leBytes 2 dwell)

/-- The sensors of the episode as a mask. -/
def maskOf (ns : List Nat) : Nat := ns.foldl (fun m n => m + 2 ^ n) 0

/-- Note a C3 confirmation: the sensor and its DWELL count for the episode. -/
def noteC3 (d : Dev) (n : Nat) : Dev :=
  let dwell := if d.live tSensor n then d.sensB n 3 0 16 else 60
  { d with heat := { d.heat with
    episode := if d.heat.episode.contains n then d.heat.episode else sortNat (n :: d.heat.episode)
    dwell := max d.heat.dwell dwell } }

/-- A Sitter trip at a rail: a running one faults; one already FAULTED counts the event (R189). -/
def railSitter (d : Dev) (i : Nat) : Dev :=
  if (d.rail i).run == .faulted then writeRailRecord d i 0x000B 0xFF .faulted
  else railFault (d.endKind .enable (d.railHandle i) .aborted) i 0x000B 0xFF

/-- The Sitter trips on sensor `n`: every driver off, the record, the event; elements answer as their chapters say. -/
def sitterTrip (n : Nat) (d : Dev) : Dev :=
  let d := noteC3 { d with sitter := true, heat := { d.heat with episode := [], dwell := 0 } } n
  let d := (d.liveIndices tRail).foldl railSitter d
  let d := d.liveChans.foldl chanSitter d
  let d := (d.liveIndices tSource).foldl (fun d i => srcSitter (d.endKind .enable (d.srcHandle i) .aborted) i) d
  let d := (d.liveIndices tString).foldl battSitter d
  let d := (d.liveIndices tSeq).foldl seqSitter d
  let temp := if (d.sens n).age.isSome then bits (tget 0 d.acq.tdWord n) 0 16 else 0x8000
  let trips := satAdd 16 (byteField d.kiln.sitter.newer 2 2) 1
  let (tick, d) := d.recordTick
  let rec_ := sitterBytes n trips d.wheel.turn.toNat tick temp (twos 16 (d.coneThreshold n 2)) (maskOf d.heat.episode) 0
    (b2n d.wheel.coastFlag + b2n d.wheel.slewFlag * 2) d.heat.dwell
  let d := { d with kiln := { d.kiln with sitter := d.kiln.sitter.write rec_ } }
  settle (d.raise 0x0B03 1 (d.sensHandle n))

/-- Whether an armed C3 is confirmed. -/
def Dev.c3Confirmed (d : Dev) : Bool := (List.range 20).any fun n => d.coneArmed n && decide (4 ≤ (d.cones n).conf.toNat)

/-- SITTER_RELEASE: the dwell has passed and no armed C3 is confirmed (R376). -/
def sitterRelease (d : Dev) : Dev :=
  if d.sitter && !d.c3Confirmed then
    let b := d.kiln.sitter.newer
    let first := byteField b 1 1
    let rec_ := sitterBytes first (byteField b 2 2) (byteField b 4 6) (byteField b 10 2) (byteField b 12 2) (byteField b 14 2)
      (maskOf d.heat.episode) d.wheel.turn.toNat (byteField b 26 1 % 4 + 4) d.heat.dwell
    let d := { d with sitter := false, kiln := { d.kiln with sitter := d.kiln.sitter.write rec_ } }
    let d := d.raise 0x0B03 0 (d.sensHandle first)
    tryStarts (d.liveChans.foldl chanSitterRelease d)
  else d

/-- CONE_TRIP: the comparator of Cone `c` sees a diode voltage of `uv` µV. It trips below its level; the comparator of the second
level, `release`, above it (R364 to R366). A confirmation starts or breaks. -/
def coneTrip (n c : Nat) (release : Bool) (uv : Nat) (d : Dev) : Dev :=
  let m := BitVec.ofNat 3 (2 ^ c)
  let state := match d.coneLevel n c release with
    | some v => if release then decide (v < 128 * (uv : Int)) else decide (128 * (uv : Int) < v)
    | none => false
  let put (v : BitVec 3) := if state then v ||| m else v &&& ~~~ m
  d.modCones n fun x => if release then { x with rel := put x.rel } else { x with trip := put x.trip }

/-- CONE_CONFIRM: a trip of an armed Cone, or a release of a confirmed one, has stayed unbroken (R366). -/
def coneConfirm (n c : Nat) (d : Dev) : Dev :=
  let x := d.cones n
  let at_ (v : BitVec 3) := v.toNat / 2 ^ c % 2 == 1
  let h := d.sensHandle n
  if d.coneArmed n && !at_ x.conf && at_ x.trip then
    let d := (setCone d n c true).tally 44 2 1
    if c = 0 then d.raise 0x0B01 1 h
    else if c = 1 then kilnApply h d
    else if d.sitter then noteC3 d n
    else sitterTrip n d
  else if at_ x.conf && at_ x.rel then
    let d := setCone d n c false
    if c = 0 then d.raise 0x0B01 0 h
    else if c = 1 then kilnApply h d
    else d
  else d

/-! ### Commands on a SENSOR (R371) -/

/-- A SENSOR as CREATE or CONFIGURE leaves it. -/
def sensLoad (d : Dev) (n : Nat) : Dev :=
  kilnApply (d.handleOf tSensor n) { d with heat := { d.heat with sens := tset {} d.heat.sens n {} } }

/-- ENABLE: a conversion is requested at once, and the first result answers. -/
def sensEnable (src : Src) (d : Dev) (n : Nat) : Dev × Answer :=
  let h := d.handleOf tSensor n
  let d := d.modSlot tSensor n fun s => { s with hstate := .enabled }
  let d := d.modSens n fun s => { s with turns := 0, broken := false, good := 0, armed := false }
  (requestTd n (kilnApply h (d.addWait src .enable h)), .waits)

/-- DISABLE: the remote Cones disarm at once, an on-die sensor returns to its fused thresholds; a waiting ENABLE ends. -/
def sensDisable (d : Dev) (n : Nat) : Dev :=
  let h := d.handleOf tSensor n
  let d := (disarm d n).endKind .enable h .aborted
  let d := d.modSens n fun s => { s with broken := false, good := 0 }
  kilnApply h (elementOff d tSensor n 0)

/-- A SENSOR is fenced (R374). -/
def sensFence (d : Dev) (n : Nat) : Dev := kilnApply (d.sensHandle n) (disarm d n)

/-- A turn ends for the SENSORs. -/
def kilnTurn (d : Dev) : Dev :=
  { d with heat := { d.heat with sens := tmapAll {} d.heat.sens fun _ s =>
    { s with age := s.age.map fun a => satAdd 24 a 1, turns := s.turns + 1 } } }

/-! ### Blocks (R378, R379) -/

/-- KILN_SENSOR_STATE (Table 13.5). -/
def sensState (d : Dev) (n : Nat) : Nat :=
  let s := d.slot tSensor n
  let x := d.sens n
  let w := if x.age.isSome then tget 0 d.acq.tdWord n else 0
  let z := d.sensZone n
  s.hstate.code + (d.cones n).conf.toNat * 4 + b2n x.broken * 32 + b2n (d.coneArmed n) * 64 + b2n s.activeB * 128
    + b2n s.swap * 256 + z * 512 + b2n (d.heat.blind.contains z) * 4096 + b2n d.sitter * 8192 + bits w 0 16 * 2 ^ 16
    + bits w 16 3 * 2 ^ 32 + x.age.getD (2 ^ 24 - 1) * 2 ^ 40

/-- The 16 bytes of selector 0x0B00. -/
def kilnBlock (d : Dev) : List Byte :=
  ((List.range 8).map fun z => BitVec.ofNat 8 (b2n (d.heat.throttled.contains z) + b2n (d.heat.blind.contains z) * 2)) ++
    leBytes 4 (maskOf ((List.range 20).filter fun n => decide (4 ≤ (d.cones n).conf.toNat))) ++
    [BitVec.ofNat 8 (b2n d.sitter)] ++ zeros 3

/-- The KILN_SITTER record as KILN_READ returns it. -/
def sitterRecord (d : Dev) : List Byte := if d.kiln.sitter.newer.isEmpty then zeros 32 else d.kiln.sitter.newer

/-- CONE_TRIP. -/
def execConeTrip (sensor cone : Nat) (release : Bool) (uv : Nat) (s : State) : Out :=
  if cone < 3 then s.onDevAt 20 sensor fun _ d => coneTrip sensor cone release uv d else .fault .noSuchInstance
/-- TD_CONVERSION_DONE. -/
def execTdConversionDone (value : Int) (uv : Nat) (opn short exc biasOk : Bool) (s : State) : Out :=
  s.onDev fun _ d => tdConversionDone value uv opn short exc biasOk d
/-- SENSOR_PERIOD. -/
def execSensorPeriod (sensor : Nat) (s : State) : Out := s.onDevAt 20 sensor fun _ d => sensorPeriod sensor d
/-- SENSOR_BIAS_FAULT. -/
def execSensorBiasFault (sensor : Nat) (s : State) : Out :=
  s.onDevAt 16 sensor fun _ d => if d.enabled tSensor sensor then sensBreak d sensor 4 else d

end Sys2Proof.Machine
end

