-- ==== Sys2Proof/Machine/Recorder.lean ====
section
/-! DEFINITION. The checks of HISTOGRAMs and EXTREMEs, WIT_STATUS and the black box (spec 16). -/

namespace Sys2Proof.Machine

/-! ### Checks (R420, R421) -/

/-- The type of a quantity's source; 0 = the null handle; none = no such quantity (Table 16.2). -/
def quantityType (q : Nat) : Option Nat :=
  if 0x01 ≤ q ∧ q ≤ 0x05 then some tRail
  else if 0x10 ≤ q ∧ q ≤ 0x12 then some tFeed
  else if q = 0x18 ∨ q = 0x19 then some tBranch
  else if q = 0x20 ∨ q = 0x21 then some tSource
  else if 0x28 ≤ q ∧ q ≤ 0x2A then some tString
  else if q = 0x30 then some tSensor
  else if q = 0x38 then some tMon
  else if q = 0x40 ∨ q = 0x41 then some tLoop
  else if q = 0x48 ∨ q = 0x49 then some 0
  else none

/-- The quantities that offer each value in MODE 0. -/
def modeZeroOk (q : Nat) : Bool := [0x01, 0x02, 0x03, 0x10, 0x11, 0x18, 0x38, 0x40, 0x41].contains q

/-- The RANGE conditions of a WIT_CFG for a handle of type `t`. -/
def witRange (d : Dev) (t : Nat) (ws : List Word) : Check :=
  let q := wtQuantity ws
  let src := word ws 0
  Check.range (
    field ws 1 14 18 == 0 && word ws 5 == 0 &&
    (match quantityType q with
      | none => false
      | some 0 => src == 0
      | some ty => d.namesLive ty src) &&
    (wtTurn ws || modeZeroOk q) &&
    (if q = 0x03 then decide (wtSub ws < (d.railPhases (hIndex src)).length) else wtSub ws == 0) &&
    (if t = tExtr then word ws 2 == 0 && word ws 3 == 0 && word ws 4 == 0
     else field ws 2 9 23 == 0 && decide (16 ≤ wtBins ws) && decide (wtBins ws ≤ 256) && decide (1 ≤ (word ws 4).toNat) &&
       decide ((word ws 4).toNat < 2 ^ 31) && decide (wtLo ws + ((wtBins ws - 1) * wtWidth ws : Nat) ≤ 2 ^ 31 - 1)))

/-- The FS inputs, SV inputs (from 1,000) and LOOPs (from 2,000) that feed a MODE 0 handle. -/
def witTaps (d : Dev) (ws : List Word) : List Nat :=
  let i := hIndex (word ws 0)
  if wtTurn ws then []
  else match wtQuantity ws with
    | 0x01 => [rqInput (d.railW i 8)]
    | 0x02 => (List.range (d.railPhases i).length).map fun k => rqInput (d.railW i (11 + k))
    | 0x03 => [rqInput (d.railW i (11 + wtSub ws))]
    | 0x10 => [curInput i]
    | 0x11 => [volInput i]
    | 0x18 => [curInput (40 + i)]
    | 0x38 => [1000 + mcInput (d.slot tMon i).cfg]
    | 0x40 => [2000 + i]
    | 0x41 => [2000 + i]
    | _ => []

/-- Whether a source's taps are all taken by four other handles (R421). -/
def witTapsFull (d : Dev) (key : Nat) (ws : List Word) : Bool :=
  (witTaps d ws).any fun tap =>
    decide (4 ≤ (d.witKeys.filter fun k => k != key && !(d.witRt k).gone && (witTaps d (d.cfgAt k)).contains tap).length)

/-- Bytes of a BB handle's section entry. -/
def bbBytes (t : Nat) (ws : List Word) : Nat :=
  if !wtBb ws then 0 else if t = tExtr then 56 else 40 + 8 * wtBins ws

/-- The size of the black-box image of the live handles but the one in slot `key` (R436). -/
def bbImageSize (d : Dev) (key : Nat) : Nat :=
  ((d.witKeys.filter (· != key)).map fun k => bbBytes (k / 4096) (d.cfgAt k)).foldl (· + ·) 640

/-- What a HISTOGRAM or EXTREME asks of admission. -/
def witNeeds (d : Dev) (t key : Nat) (ws : List Word) : Needs :=
  { sram := if t = tExtr then 112 else 16 * wtBins ws
    taken := b2n (witTapsFull d key ws)
    imageOver := if wtBb ws then bbImageSize d key + bbBytes t ws - 98304 else 0 }

/-! ### WIT_STATUS (R439) -/

/-- WIT_STATUS: latched at the round boundary but for its first two bytes. -/
def witStatus (d : Dev) : List Byte :=
  let w := d.wit
  [0x01, BitVec.ofNat 8 (b2n d.witFenced + b2n w.commit.isSome * 2 + b2n w.lastOk * 4)] ++ leBytes 2 w.nSets ++
    leBytes 6 w.latch.toNat ++ leBytes 4 w.turns ++ leBytes 4 w.held ++
    (w.commits ++ zeros 12).take 12 ++ zeros 2

/-! ### The black box (R435 to R438) -/

/-- A section of the image. -/
def bbSection (kind : Nat) (payload : List Byte) : List Byte :=
  [BitVec.ofNat 8 kind, 0] ++ leBytes 2 (crc16 payload) ++ leBytes 4 payload.length ++ payload

/-- The running blocks of the BB handles of a type, in index order. -/
def bbBlocks (d : Dev) (t : Nat) : List Byte :=
  (d.witKeys.filter fun k => k / 4096 == t && wtBb (d.cfgAt k)).flatMap (witRunning d)

/-- The state record in a live STRING's place: zeros where none was ever written (log entry 90). -/
def heldRecord (d : Dev) (i : Nat) : List Byte := ((tget ({} : Copies) d.kiln.strings i).newer ++ zeros 64).take 64

/-- The image. -/
def bbImage (d : Dev) (cause : Nat) : List Byte :=
  let body := bbSection 1 ((d.liveIndices tString).flatMap (heldRecord d)) ++ bbSection 2 (bbBlocks d tExtr) ++
    bbSection 3 (bbBlocks d tHist) ++ bbSection 4 (witStatus d)
  let tail := leBytes 4 (min (byteField d.kiln.blackBox.newer 4 4 + 1) (2 ^ 32 - 1)) ++ leBytes 6 d.wit.trigTurn.toNat ++
    leBytes 2 d.wit.trigTick ++ leBytes 4 (64 + body.length) ++ zeros 44
  [0x01, BitVec.ofNat 8 cause] ++ leBytes 2 (crc16 tail) ++ tail ++ body

/-- BLACK_BOX_COMMIT_DONE: the string records, then the image in the older region; a bank that bleeds turns HU_BLG on (R263). -/
def blackBoxDone (d : Dev) : Dev :=
  match d.wit.commit with
  | none => d
  | some cause =>
    let d := (d.liveIndices tString).foldl battSave d
    let img := bbImage d cause
    let d := d.tally 42 4 1
    holdupBlgOn (Dev.raise { d with kiln := { d.kiln with blackBox := d.kiln.blackBox.write img }
                                    wit := { d.wit with commit := none, lastOk := true } } 0x0F03 cause 0)

/-- The image that KILN_READ returns (R438). -/
def bbRecord (d : Dev) (older : Bool) : List Byte :=
  let b := if older then d.kiln.blackBox.older else d.kiln.blackBox.newer
  if b.isEmpty then zeros 64 else b

/-- BLACK_BOX_TRIGGER: VIN_HV has been below 34.0 V for 5 µs; a bleed starts its commit by itself. -/
def execBlackBoxTrigger (tick : Nat) (s : State) : Out := s.onDev fun _ d => d.atTick tick (blackBoxStart false)
/-- BLACK_BOX_COMMIT_DONE. -/
def execBlackBoxCommitDone (s : State) : Out := s.onDev fun _ d => blackBoxDone d
/-- BLACK_BOX_REARM: VIN_HV has been at or above 36.0 V for 1 ms. -/
def execBlackBoxRearm (s : State) : Out := s.onDev fun _ d => { d with wit := { d.wit with armed := true } }

end Sys2Proof.Machine
end

