-- ==== Sys2Proof/Machine/Net.lean ====
section
/-! DEFINITION. The network plane (spec 15): ports, NETIF and STREAM handles, DTLS sessions, KSF frames. -/

namespace Sys2Proof.Machine

/-! ### Access -/

/-- STREAM `n` at run time. -/
def Dev.strm (d : Dev) (n : Nat) : StreamRt := tget {} d.net.streams n
/-- Change STREAM `n`. -/
def Dev.modStrm (d : Dev) (n : Nat) (f : StreamRt → StreamRt) : Dev :=
  { d with net := { d.net with streams := tmod {} d.net.streams n f } }
/-- Port `p`. -/
def Dev.port (d : Dev) (p : Nat) : Port := tget {} d.net.ports p
/-- Change port `p`. -/
def Dev.modPort (d : Dev) (p : Nat) (f : Port → Port) : Dev :=
  { d with net := { d.net with ports := tmod {} d.net.ports p f } }
/-- The configuration of STREAM `n`. -/
def Dev.strmCfg (d : Dev) (n : Nat) : List Word := (d.slot tStream n).cfg
/-- KIND: 0 RING, 1 UDP, 2 NETIF. -/
def nkKind (ws : List Word) : Nat := field ws 0 0 2
/-- PORT of a NETIF. -/
def nkPort (ws : List Word) : Nat := field ws 0 2 1
/-- V4 of a NETIF. -/
def nkV4 (ws : List Word) : Bool := field ws 0 6 1 == 1
/-- V6 of a NETIF. -/
def nkV6 (ws : List Word) : Bool := field ws 0 7 1 == 1
/-- NPEER of a NETIF. -/
def nkPeers (ws : List Word) : Nat := field ws 3 24 4
/-- Peer key `k`: 64 bytes as the block holds them. -/
def nkPeer (ws : List Word) (k : Nat) : List Byte := bytesOfWords ((ws.drop (12 + 16 * k)).take 16)
/-- BIND of a RING or UDP stream. -/
def nkBind (ws : List Word) : Word := word ws 1
/-- EVERY. -/
def nkEvery (ws : List Word) : Nat := field ws 7 0 16
/-- NSRC. -/
def nkSources (ws : List Word) : Nat := field ws 8 0 8
/-- The live NETIF of a port. -/
def Dev.netif (d : Dev) (p : Nat) : Option Nat :=
  (d.liveIndices tStream).find? fun n => nkKind (d.strmCfg n) == 2 && nkPort (d.strmCfg n) == p
/-- The length of a STREAM block in bytes (R409). -/
def nkLength (ws : List Word) : Nat := if nkKind ws = 2 then 48 + 64 * nkPeers ws else 40 + 8 * nkSources ws

/-! ### Selectors (R83) -/

/-- The QUERY_READ selectors of each type; type 0 is the null handle. -/
def selectorsOf (t : Nat) : List Nat :=
  match t with
  | 0 => [0x0300, 0x0800, 0x0801, 0x0802, 0x0803, 0x0A00, 0x0B00, 0x0C00, 0x0C01, 0x0D00, 0x0F00, 0x1000, 0x1001, 0x1100, 0x1101]
  | 1 => [0, 1]
  | 3 => [0, 1]
  | 4 => [0, 1, 2]
  | 5 => [1]
  | 6 => [0]
  | 8 => [0, 1]
  | 9 => [0]
  | 11 => [0, 1]
  | 12 => [0, 1]
  | _ => []

/-! ### Checks (R409, R410) -/

/-- One source of a STREAM_CFG. -/
def sourceOk (ws : List Word) (j : Nat) : Bool :=
  field ws (11 + 2 * j) 16 16 == 0 && (selectorsOf (if word ws (10 + 2 * j) = 0 then 0 else hType (word ws (10 + 2 * j)))).contains
    (field ws (11 + 2 * j) 0 16) && (word ws (10 + 2 * j) == 0 || hType (word ws (10 + 2 * j)) != 0)

/-- The fields of a STREAM_CFG or NETIF_CFG in range. -/
def strmFieldsOk (d : Dev) (ws : List Word) : Bool :=
  match nkKind ws with
  | 2 =>
    field ws 0 9 23 == 0 && decide (field ws 0 3 2 ≤ 2) && field ws 3 8 6 == 0 && field ws 3 14 2 == 0 && field ws 3 28 4 == 0 &&
      field ws 3 6 2 == 0 && decide (1 ≤ field ws 3 0 6) && decide (field ws 3 0 6 ≤ 30) && decide (1 ≤ field ws 3 16 8) &&
      decide (field ws 3 16 8 ≤ 128) && decide (nkPeers ws ≤ 8)
  | 3 => false
  | k =>
    field ws 0 2 30 == 0 && decide (1 ≤ nkEvery ws) && decide (4352 ≤ field ws 7 16 16) && field ws 8 8 24 == 0 &&
      decide (1 ≤ nkSources ws) && decide (nkSources ws ≤ 128) && word ws 9 == 0 &&
      (List.range (nkSources ws)).all (sourceOk ws) &&
      (if k = 0 then ((List.range 4).all fun i => word ws (2 + i) == 0) && decide ((nkBind ws).toNat < 128) &&
          (d.host.ring (nkBind ws).toNat).cls == 1
       else decide (49152 ≤ field ws 6 16 16) && d.namesLive tStream (nkBind ws) && nkKind (d.strmCfg (hIndex (nkBind ws))) == 2)

/-- The RANGE conditions of a STREAM. -/
def strmRange (d : Dev) (ws : List Word) : Check := Check.range (strmFieldsOk d ws)

/-- A port held by another NETIF. -/
def strmConflicts (d : Dev) (n : Nat) (ws : List Word) : Check :=
  if nkKind ws = 2 then
    match d.netif (nkPort ws) with
    | some m => if m = n then .pass else Check.conflict (some (d.handleOf tStream m))
    | none => .pass
  else .pass

/-- What a STREAM asks of admission. -/
def strmNeeds : Needs := { sram := 4096 }

/-- A STREAM as CREATE or CONFIGURE leaves it. -/
def strmLoad (d : Dev) (n : Nat) : Dev := { d with net := { d.net with streams := tset {} d.net.streams n {} } }

/-! ### Commands (R411, R412) -/

/-- ENABLE or STREAM_START. -/
def strmEnable (src : Src) (d : Dev) (n : Nat) : Dev × Answer :=
  let h := d.handleOf tStream n
  let d := d.modSlot tStream n fun s => { s with hstate := .enabled }
  let d := d.modStrm n fun _ => {}
  if nkKind (d.strmCfg n) = 2 then (d.addWait src .enable h, .waits) else (d, .done .ok 0)

/-- The link of a NETIF goes down. -/
def netifDown (d : Dev) (n : Nat) : Dev :=
  let p := nkPort (d.strmCfg n)
  let was := (d.strm n).link
  let d := (d.modStrm n fun s => { s with link := false, addr := false }).modPort p fun x => { x with link := false }
  if was then d.raise 0x0D01 p (d.handleOf tStream n) else d

/-- Whether an ENABLED UDP stream is bound to a NETIF. -/
def Dev.netifUsed (d : Dev) (n : Nat) : Bool :=
  (d.liveIndices tStream).any fun m =>
    nkKind (d.strmCfg m) == 1 && nkBind (d.strmCfg m) == d.handleOf tStream n && d.enabled tStream m

/-- The stop of a STREAM. -/
def strmStop (d : Dev) (n : Nat) : Dev :=
  let d := d.endKind .enable (d.handleOf tStream n) .aborted
  elementOff (if nkKind (d.strmCfg n) = 2 then netifDown d n else d) tStream n 0

/-- DISABLE or STREAM_STOP: STATE for a NETIF with an ENABLED UDP stream. -/
def strmDisable (d : Dev) (n : Nat) : Dev × Answer :=
  if nkKind (d.strmCfg n) = 2 && d.netifUsed n then (d, .done .state 0) else (strmStop d n, .done .ok 0)

/-- QUERY_STATE of a STREAM (R418). -/
def strmState (d : Dev) (n : Nat) : Nat :=
  let s := d.slot tStream n
  let x := d.strm n
  s.hstate.code + nkKind s.cfg * 4 +
    (if nkKind s.cfg = 2 then b2n x.link + b2n x.addr * 2 else x.seq.toNat) * 2 ^ 32

/-! ### Link, addresses and sessions (R405, R406) -/

/-- An address of a NETIF becomes usable. -/
def netifUsable (d : Dev) (n : Nat) : Dev :=
  let h := d.handleOf tStream n
  let d := d.modStrm n fun s => { s with addr := true }
  (d.raise 0x0D04 (nkPort (d.strmCfg n) + 256) h).endKind .enable h .ok

/-- NET_LINK: a static IPv4 address is usable as soon as the link is up. -/
def netLink (p : Nat) (up : Bool) (speed : Nat) (d : Dev) : Dev :=
  match d.netif p with
  | some n =>
    if d.enabled tStream n && (d.strm n).link != up then
      if up then
        let d := (d.modStrm n fun s => { s with link := true }).modPort p fun x => { x with link := true, speed := speed % 4, dad := false }
        let d := d.raise 0x0D01 (p + 256) (d.handleOf tStream n)
        if nkV4 (d.strmCfg n) then netifUsable d n else d
      else netifDown d n
    else d
  | none => d

/-- DAD_COMPLETE, with IPv6 enabled: the IPv6 address is usable, or a conflict was found. -/
def dadComplete (p : Nat) (conflict : Bool) (d : Dev) : Dev :=
  match d.netif p with
  | some n =>
    if d.enabled tStream n && (d.strm n).link && nkV6 (d.strmCfg n) then
      if conflict then Dev.raise (d.modPort p fun x => { x with dad := true }) 0x0D04 p (d.handleOf tStream n)
      else netifUsable d n
    else d
  | none => d

/-- NETIF_LINK_TIMEOUT: 10 s without link. -/
def linkTimeout (p : Nat) (d : Dev) : Dev :=
  match d.netif p with
  | some n => if (d.strm n).link then d else d.endKind .enable (d.handleOf tStream n) .state
  | none => d

/-- Whether a port takes and sends frames: its NETIF is ENABLED and its saggar is not fenced. -/
def Dev.portRuns (d : Dev) (p : Nat) : Bool :=
  !d.sag.fenced.contains (7 + p) && (match d.netif p with | some n => d.enabled tStream n && (d.strm n).link | none => false)

/-- Sessions that are open. -/
def Dev.openSessions (d : Dev) : Nat := (d.net.sessions.filter fun s => s.2.isOpen).length

/-- A ClientHello: at most 4 handshakes are in progress, and no more than 8 sessions can come of them (R406). -/
def dtlsHello (p : Nat) (key : List Byte) (d : Dev) : Dev :=
  if d.portRuns p && d.plane.mgmtRunning && decide (d.net.shaking.length < 4) &&
      decide (d.openSessions + d.net.shaking.length < 8) then
    { d with net := { d.net with shaking := d.net.shaking ++ [(p, key)] } }
  else d

/-- DTLS_HANDSHAKE: a ClientHello begins a handshake; one in progress opens a session where it completes and the NETIF of its
port lists the peer's key, and has failed otherwise (R406). -/
def dtlsHandshake (p : Nat) (key : List Byte) (stage : Handshake) (d : Dev) : Dev :=
  match d.netif p with
  | some n =>
    if stage = .hello then dtlsHello p key d
    else if !d.net.shaking.contains (p, key) then d
    else
      let ws := d.strmCfg n
      let d := { d with net := { d.net with shaking := d.net.shaking.erase (p, key) } }
      if stage == .completes && (List.range (nkPeers ws)).any fun k => nkPeer ws k == key then
        let old := d.net.sessions.find? fun s => s.2.peer == key && !s.2.isOpen
        let free := match old with
          | some s => s.1
          | none => ((List.range 8).find? fun k => !(d.net.sessions.any fun s => s.1 == k)).getD
              (((d.net.sessions.find? fun s => !s.2.isOpen).map (·.1)).getD 0)
        let kept := match old with | some s => s.2.stored | none => []
        { d with net := { d.net with sessions := tinsert d.net.sessions free ⟨p, key, kept, true⟩ } }
      else
        (d.modPort p fun x => { x with dtlsFail := satAdd 32 x.dtlsFail 1 }).raiseOnceTurn (0x0D03 * 2 + p) 0x0D03 p (d.handleOf tStream n)
  | none => d

/-- A frame leaves a port. -/
def Dev.sendOn (d : Dev) (p : Nat) (payload : List Byte) : Dev :=
  let d := (d.modPort p fun x => { x with tx := x.tx + 1 }).tally (35 + p) 3 payload.length
  { d with net := { d.net with sent := d.net.sent ++ [(p, payload)] } }

/-- The firmware answers a frame whose bytes the command does not give: the answer's length is a free value. -/
def answerUnheard (p : Nat) (d : Dev) : Dev :=
  let (n, d) := d.freeBits 11
  (d.modPort p fun x => { x with tx := x.tx + 1 }).tally (35 + p) 3 n

/-- ETH_FRAME_RECEIVED (R404, R405): what falls outside is discarded and counted; the firmware answers what
asks for it, at most ten Destination Unreachables a second and 4.01 on the plain CoAP port, while it runs (R405, R407). -/
def ethFrame (p length : Nat) (kind : EthKind) (time : Nat) (d : Dev) : Dev :=
  let d := { d with now := max d.now time }
  if !d.portRuns p then d
  else
    let d := (d.modPort p fun x => { x with rx := x.rx + 1 }).tally (35 + p) 2 length
    let drop (d : Dev) := d.modPort p fun x => { x with discarded := satAdd 32 x.discarded 1 }
    if 1518 < length then drop d
    else match kind with
      | .asks => if d.plane.mgmtRunning then answerUnheard p d else d
      | .plain => if d.plane.mgmtRunning then (d.tally (35 + p) 5 1).sendOn p [0x81] else d
      | .closedPort =>
        if !d.plane.mgmtRunning then d else
        let last := (d.port p).unreach.filter fun t => decide (d.now < t + 100000000)
        if last.length < 10 then answerUnheard p (d.modPort p fun x => { x with unreach := d.now :: last }) else d
      | .other => d
      | _ => drop d

/-! ### KSF frames (R413 to R415) -/

/-- A record before framing: handle, selector, its block (none = GONE) and HELD. -/
structure KsfRecord where
  handle : Word
  sel : Nat
  block : Option (List Byte)
  held : Bool

/-- A record's bytes: its header and its padded block; `more` marks a part. -/
def KsfRecord.bytes (r : KsfRecord) (part : List Byte) (more : Bool) : List Byte :=
  leBytes 4 r.handle.toNat ++ leBytes 2 r.sel ++
    leBytes 2 (part.length % 4096 + b2n r.block.isNone * 4096 + b2n r.held * 8192 + b2n more * 16384) ++
    part ++ zeros ((4 - part.length % 4) % 4)

/-- The parts of one record: one where its block fits an empty frame, else pieces of the largest size. -/
def splitBlock (limit : Nat) : Nat → List Byte → List (List Byte)
  | 0, b => [b]
  | fuel + 1, b => if b.length + 32 ≤ limit then [b] else b.take (limit - 32) :: splitBlock limit fuel (b.drop (limit - 32))

/-- Records packed into frames: each frame is its number of records and their bytes. -/
def packFrames (limit : Nat) (rs : List KsfRecord) : List (Nat × List Byte) :=
  let pieces := rs.flatMap fun r =>
    let parts := splitBlock limit 16 (r.block.getD [])
    (List.range parts.length).map fun k => (r.bytes (parts.getD k []) (decide (k + 1 < parts.length)), decide (1 < parts.length && k == 0))
  let out := pieces.foldl (fun (acc : List (Nat × List Byte) × Nat × List Byte) pc =>
    if acc.2.1 != 0 && (decide (limit < 24 + acc.2.2.length + pc.1.length) || pc.2) then
      (acc.1 ++ [(acc.2.1, acc.2.2)], 1, pc.1)
    else (acc.1, acc.2.1 + 1, acc.2.2 ++ pc.1)) ([], 0, [])
  out.1 ++ [(out.2.1, out.2.2)]

/-- The 24-byte frame header (Table 15.6). -/
def ksfHeader (d : Dev) (n count len : Nat) (last : Bool) : List Byte :=
  let s := d.strm n
  leBytes 2 0x534B ++ [0x01, BitVec.ofNat 8 (b2n d.wheel.coastFlag + b2n d.wheel.slewFlag * 2 + b2n s.gap * 4
    + b2n (d.plane.takeover || d.sag.fenced.contains 9) * 8 + b2n last * 16)] ++ leBytes 2 n ++ leBytes 2 count ++ leBytes 4 s.seq.toNat ++
    leBytes 6 d.wheel.turn.toNat ++ leBytes 2 (24 + len) ++ leBytes 4 s.dropped

/-- The oldest waiting STREAM_BUF of a ring, with its place. -/
def Ring.oldestBuf (r : Ring) : Option RawDesc :=
  (r.q.find? fun e => e.raw.op == 0x0502 && e.st == .running).map (·.raw)

/-- The oldest buffer of a stream ring completes with the bytes filled. -/
def bufEnds (d : Dev) (ring : Nat) (addr : BitVec 64) : Dev :=
  let b := tget [] d.net.fill ring
  let d := { d with net := { d.net with fill := tdrop d.net.fill ring } }
  { d with host := d.host.finishRing ring ⟨.ok, 0, BitVec.ofNat 64 b.length, b, addr⟩ }

/-- A 64-bit address in two parameters. -/
def paramAddr (ps : List Word) (i : Nat) : BitVec 64 := BitVec.ofNat 64 ((word ps i).toNat + (word ps (i + 1)).toNat * 2 ^ 32)

/-- Write a frame to the oldest waiting buffer of a ring that has room; a full one completes first. False = dropped. -/
def ringFrame : Nat → Dev → Nat → List Byte → Bool → Dev × Bool
  | 0, d, _, _, _ => (d, false)
  | fuel + 1, d, ring, frame, last =>
    match (d.host.ring ring).oldestBuf with
    | none => (d, false)
    | some raw =>
      let len := (word raw.d.params 2).toNat
      let addr := paramAddr raw.d.params 0
      let b := tget [] d.net.fill ring
      if b.length + frame.length ≤ len then
        let d := { d with net := { d.net with fill := tset [] d.net.fill ring (b ++ frame) } }
        (if last then bufEnds d ring addr else d, true)
      else ringFrame fuel (bufEnds d ring addr) ring frame last

/-- One frame of a STREAM: delivered, or dropped and counted (R415). -/
def emitFrame (resolved : Bool) (n : Nat) (d : Dev) (f : Nat × List Byte) (last : Bool) : Dev × Nat :=
  let ws := d.strmCfg n
  let frame := ksfHeader d n f.1 f.2.length last ++ f.2
  let netif := hIndex (nkBind ws)
  let p := nkPort (d.strmCfg netif)
  let (d, ok) :=
    if nkKind ws = 0 then ringFrame 64 d (nkBind ws).toNat frame last
    else if resolved && d.namesLive tStream (nkBind ws) && d.portRuns p then (d.sendOn p frame, true)
    else ((d.modPort p fun x => { x with drops := satAdd 32 x.drops 1 }).tally (35 + p) 7 1, false)
  let d := ((d.tally 33 1 (b2n ok)).tally 33 2 (if ok then frame.length else 0)).tally 33 3 (b2n (!ok))
  (d.modStrm n fun s => { s with seq := s.seq + 1, gap := if ok then false else true
                                 dropped := if ok then s.dropped else satAdd 32 s.dropped 1 }, b2n (!ok))

/-- The frames of an emission in order; the number dropped. -/
def emitFrames (resolved : Bool) (n : Nat) : Dev → List (Nat × List Byte) → Dev × Nat
  | d, [] => (d, 0)
  | d, f :: fs =>
    let (d, k) := emitFrame resolved n d f fs.isEmpty
    let (d, m) := emitFrames resolved n d fs
    (d, k + m)

/-- The records of a source (R411, R413): the latest published copy of a block that has an area, else what `block` reads of a
live handle or of the device. -/
def sourceRecords (d : Dev) (block : Dev → Word → Nat → List Byte) (n j : Nat) : List KsfRecord :=
  let ws := d.strmCfg n
  let h := word ws (10 + 2 * j)
  let sel := field ws (11 + 2 * j) 0 16
  let record (x : Word) : KsfRecord :=
    match d.wit.areas.find? fun a => a.1 == (x, sel) with
    | some a => ⟨x, sel, some a.2.block, match (d.strm n).lastEmit with | some t => decide (a.2.turn.toNat ≤ t.toNat) | none => false⟩
    | none => ⟨x, sel, some (block d x sel), false⟩
  if h = 0 then [record 0]
  else if hIndex h = 0xFFF ∧ hGen h = 0 then (d.liveIndices (hType h)).map fun i => record (d.handleOf (hType h) i)
  else if d.namesLive (hType h) h then [record h]
  else [⟨h, sel, none, false⟩]

/-- STREAM_EMISSION: in a turn that is a multiple of EVERY, once, while ENABLED (R412 to R415). -/
def streamEmission (block : Dev → Word → Nat → List Byte) (n : Nat) (resolved : Bool) (d : Dev) : Dev :=
  let ws := d.strmCfg n
  if d.enabled tStream n && nkKind ws != 2 && d.wheel.turn.toNat % max 1 (nkEvery ws) == 0 &&
      (d.strm n).lastEmit != some d.wheel.turn && !d.sag.fenced.contains 10 then
    let rs := (List.range (nkSources ws)).flatMap (sourceRecords d block n)
    let (d, k) := emitFrames resolved n (d.tally 33 0 rs.length) (packFrames (if nkKind ws = 0 then 4096 else 1452) rs)
    let d := d.modStrm n fun s => { s with lastEmit := some d.wheel.turn }
    if k = 0 then d else d.raise 0x0D02 k (d.handleOf tStream n)
  else d

/-! ### NET_STATUS (R418) -/

/-- The MAC address of a port as bytes in transmission order. -/
def macBytes (p : Nat) : List Byte := (leBytes 6 (Config.macBase.toNat + p)).reverse

/-- NET_STATUS. -/
def netStatus (d : Dev) : List Byte :=
  (Config.identityKey ++ zeros 64).take 64 ++ (List.range 2).flatMap fun p =>
    let x := d.port p
    let mode := match d.netif p with | some n => field (d.strmCfg n) 0 3 2 | none => 0
    macBytes p ++ [BitVec.ofNat 8 (b2n x.link + mode * 2 + x.speed * 8 + b2n x.dad * 32),
      BitVec.ofNat 8 (d.net.sessions.filter fun s => s.2.isOpen && s.2.port == p).length] ++ leBytes 4 x.rx.toNat ++ leBytes 4 x.tx.toNat ++
      leBytes 4 x.discarded ++ leBytes 4 x.dtlsFail ++ leBytes 4 x.drops ++ zeros 4

/-- ETH_FRAME_RECEIVED. -/
def execEthFrameReceived (port length : Nat) (kind : EthKind) (time : Nat) (s : State) : Out :=
  s.onDevAt 2 port fun _ d => ethFrame port length kind time d
/-- NET_LINK. -/
def execNetLink (port : Nat) (up : Bool) (speed : Nat) (s : State) : Out := s.onDevAt 2 port fun _ d => netLink port up speed d
/-- DTLS_HANDSHAKE. -/
def execDtlsHandshake (port : Nat) (key : List Byte) (stage : Handshake) (s : State) : Out :=
  s.onDevAt 2 port fun _ d => dtlsHandshake port key stage d
/-- DTLS_IDLE_CLOSE: 600 s without a record. -/
def execDtlsIdleClose (session : Nat) (s : State) : Out :=
  s.onDevAt 8 session fun _ d => { d with net := { d.net with sessions := tdrop d.net.sessions session } }
/-- NETIF_LINK_TIMEOUT. -/
def execNetifLinkTimeout (port : Nat) (s : State) : Out := s.onDevAt 2 port fun _ d => linkTimeout port d
/-- DAD_COMPLETE. -/
def execDadComplete (port : Nat) (conflict : Bool) (s : State) : Out := s.onDevAt 2 port fun _ d => dadComplete port conflict d

end Sys2Proof.Machine
end

