-- ==== Sys2Proof/Machine/Sram.lean ====
section
/-! DEFINITION. The two codes of the shared SRAM (R394): the SEC-DED code of a 64-bit word, the CRC-32 of a line, the XOR of
a stripe, and what steps 1 and 2 of a read find in a stored line (R395). Functions of bits alone. -/

namespace Sys2Proof.Machine

/-! ### The inner code: an extended Hamming code of 72 places (log entry 92) -/

/-- The XOR of the places of the bits that are set. -/
def hammingSum (c : Nat) : Nat := (List.range 72).foldl (fun s p => if c.testBit p then s ^^^ p else s) 0

/-- Whether an odd number of bits is set. -/
def oddParity (c : Nat) : Bool := (List.range 72).foldl (fun s p => s != c.testBit p) false

/-- The places of the 64 data bits: those that are neither 0 nor a power of two. -/
def dataPlaces : List Nat := (List.range 72).filter fun p => !([0, 1, 2, 4, 8, 16, 32, 64].contains p)

/-- The bits of a number laid out at the listed places. -/
def spreadBits : List Nat → Nat → Nat
  | [], _ => 0
  | p :: ps, w => (w % 2) * 2 ^ p + spreadBits ps (w / 2)

/-- The bits at the listed places as a number. -/
def gatherBits : List Nat → Nat → Nat
  | [], _ => 0
  | p :: ps, c => b2n (c.testBit p) + 2 * gatherBits ps c

/-- The codeword of a word: its data bits, seven check bits at the powers of two, and the overall parity at place 0. -/
def encodeWord (w : BitVec 64) : BitVec 72 :=
  let c := spreadBits dataPlaces w.toNat
  let s := hammingSum c
  let c := c + ((List.range 7).foldl (fun a j => a + b2n (s.testBit j) * 2 ^ (2 ^ j)) 0)
  BitVec.ofNat 72 (c + b2n (oddParity c))

/-- A word as the inner code reads it: its value, whether a single-bit error was corrected, and whether an error was
detected that it cannot correct. -/
structure WordRead where
  value : BitVec 64
  fixed : Bool
  double : Bool
  deriving DecidableEq, Repr

/-- Decode a codeword: an odd number of errors is corrected as a single one where its place exists, an even number is
detected. -/
def decodeWord (c : BitVec 72) : WordRead :=
  let n := c.toNat
  let s := hammingSum n
  let value (n : Nat) : BitVec 64 := BitVec.ofNat 64 (gatherBits dataPlaces n)
  if oddParity n then (if s < 72 then ⟨value (n ^^^ 2 ^ s), true, false⟩ else ⟨value n, false, true⟩)
  else ⟨value n, false, s != 0⟩

/-! ### The outer code: CRC-32 of a line, and P (log entry 92) -/

/-- One byte of the CRC-32 with polynomial 0x04C1_1DB7, most significant bit first. -/
def crc32Byte (c : Nat) (b : Byte) : Nat :=
  (List.range 8).foldl (fun c _ => if c.testBit 31 then (2 * c) ^^^ 0x104C11DB7 else 2 * c) (c ^^^ (b.toNat * 2 ^ 24))

/-- The CRC-32 of bytes, from 0. -/
def crc32 (bs : List Byte) : Nat := bs.foldl crc32Byte 0

/-- The 64 bytes of a line's words. -/
def lineBytes (ws : List (BitVec 64)) : List Byte := ws.flatMap fun w => leBytes 8 w.toNat

/-- The eight words of a line's bytes. -/
def lineWords (bs : List Byte) : List (BitVec 64) := (List.range 8).map fun k => BitVec.ofNat 64 (byteField bs (8 * k) 8)

/-- A line of zeros as it is stored. -/
def zeroLine : List (BitVec 72) := List.replicate 9 0

/-- A line as it is stored: its codewords, and that of its CRC-32. -/
def storedWords (ws : List (BitVec 64)) : List (BitVec 72) :=
  ws.map encodeWord ++ [encodeWord (BitVec.ofNat 64 (crc32 (lineBytes ws)))]

/-- The XOR of lines, word by word. -/
def xorLines (ls : List (List (BitVec 64))) : List (BitVec 64) :=
  ls.foldl (fun a l => a.zipWith (· ^^^ ·) l) (List.replicate 8 0)

/-- A stored line as steps 1 and 2 of R395 read it: its words, its CRC where that can be read, how many codewords were
corrected, whether a word holds an error that the inner code cannot correct, and whether the CRC catches a
miscorrection. -/
structure LineData where
  words : List (BitVec 64)
  crc : Option Nat
  fixed : Nat
  double : Bool
  miscorrected : Bool
  deriving DecidableEq, Repr

/-- Nothing is wrong that steps 1 and 2 do not mend. -/
def LineData.good (x : LineData) : Bool := !x.double && !x.miscorrected && x.crc.isSome

/-- Steps 1 and 2 of R395. -/
def readWords (cs : List (BitVec 72)) : LineData :=
  if cs == zeroLine then ⟨List.replicate 8 0, some 0, 0, false, false⟩
  else
    let ds := cs.map decodeWord
    let ws := (ds.take 8).map (·.value)
    let double := (ds.take 8).any (·.double)
    let crc := match ds[8]? with
      | some c => if c.double then none else some c.value.toNat
      | none => none
    ⟨ws, crc, (ds.filter (·.fixed)).length, double,
      !double && (match crc with | some c => crc32 (lineBytes ws) != c | none => false)⟩

/-- Bit `bit` of codeword `word` flips. -/
def flipBit (cs : List (BitVec 72)) (word bit : Nat) : List (BitVec 72) :=
  cs.modify word fun c => c ^^^ BitVec.ofNat 72 (2 ^ (bit % 72))

end Sys2Proof.Machine
end

