-- ==== Sys2Proof/Machine/Saggar.lean ====
section
/-! DEFINITION. Saggars (spec 14): the fence of a handle and of an internal unit, the return to service, the Flue's lanes,
and the codes of the shared SRAM. -/

namespace Sys2Proof.Machine

/-! ### A LOOP's ports (R133, R163, R217) -/

/-- The value at port `k` of LOOP `l` reaches the port's target; with DEFAULTED a rail's demand and a channel's reference are
lost (R188, R217). -/
def portDeliver (l : Nat) (dflt : Bool) (d : Dev) (k : Nat) : Dev :=
  let ws := (d.slot tLoop l).cfg
  let x := lcTarget ws k
  if !dflt then portSet l d k
  else match lcKind ws k with
    | 1 => portSet l d k
    | 2 => railDemand d x l ((d.loop l).outs.getD k 0) true
    | 3 =>
      if d.live (chanType x) (chanIndex x) && chRefLoop x (d.chanCfg x) == d.handleOf tLoop l then
        chanRefLost (d.modChan x fun c => { c with ref := none }) x
      else d
    | _ => d

/-- The fence of a LOOP: its ports take their SAFE values with DEFAULTED (R133, R145). -/
def loopFence (d : Dev) (l : Nat) : Dev :=
  let d := { d with thr := { d.thr with ready := d.thr.ready.filter (· != LoopId.user l) } }
  let d := d.modLoop l fun r =>
    { r.drop with outs := safeOuts (d.slot tLoop l).cfg, outDefaulted := true, setPoints := [], preload := none }
  (List.range 4).foldl (portDeliver l true) d

/-! ### The fence of a handle (R79, R382 to R386) -/

/-- The safe state of a RAIL: OFF with its gates low, discharge on, power-good deasserted (log entry 21). -/
def railFence (d : Dev) (i : Nat) : Dev :=
  if (d.rail i).run.running then
    let d := railPgOff (dischargeOn (disableRailLoops (gatesLow d i) i) i) i
    d.modRail i fun r => { r with run := .off, surge := none, ramping := false, preLeft := 0, limited := false }
  else d

/-- The safe state of each type (Table 3.17). -/
def safeState (d : Dev) (t i : Nat) : Dev :=
  match t with
  | 1 => loopFence d i
  | 2 => railFence d i
  | 3 => chanFenced d i
  | 4 => chanFenced d (40 + i)
  | 5 => ledNote (srcFence d i)
  | 6 => seqFence d i
  | 8 => battFence d i
  | 9 => sensFence d i
  | 10 => if nkKind (d.strmCfg i) = 2 then netifDown d i else d
  | 11 => d.modWit (slotKey tHist i) fun r => { r with whole := false }
  | 12 => d.modWit (slotKey tExtr i) fun r => { r with whole := false }
  | _ => d

/-- Every command that waits on a handle ends with FENCED; a DESTROY with FORCE releases the handle (R385, R547). -/
def fenceWaits (d : Dev) (t i : Nat) : Dev :=
  let h := d.handleOf t i
  let force := d.hasWait .destroyForce h
  let d := d.endWaits (fun w => w.handle == h && w.kind != WaitKind.destroyForce) fun w => plainCpl .fenced w.handle 0
  if force then
    let d := if t = tSeq then seqUnload d i else d
    (finishDestroy d t i).endWaits (fun w => w.handle == h) fun w => plainCpl .ok w.handle 0
  else d

/-- A live handle is fenced with a cause: the first cause stands, a later one is counted (R385). -/
def fenceHandle (t i cause : Nat) (d : Dev) : Dev :=
  if !d.live t i then d
  else if d.isFenced t i then { d with sag := { d.sag with fences := satAdd 32 d.sag.fences 1 } }
  else
    let d := d.modSlot t i fun s => { s with hstate := .fenced, swap := false }
    let d := { d with sag := { d.sag with handleFences := satAdd 32 d.sag.handleFences 1 } }
    let d := d.raise 0x0003 cause (d.handleOf t i)
    settle (fenceWaits (safeState d t i) t i)

/-- The owner of a loop's lane is fenced: a LOOP, or the owner of a built-in loop (R381). -/
def fenceOwner (id : LoopId) (cause : Nat) (d : Dev) : Dev :=
  fenceHandle (ownerKey id / 4096) (ownerKey id % 4096) cause d

/-! ### Stored lines of the shared SRAM (R393, R394, R396) -/

/-- The SRAM address of a line; a line of P has none of its own and is named by its stripe (R393). -/
def lineAddr (bank index : Nat) : Nat := index * 1024 + (if bank < 16 then bank * 64 else 0)

/-- Whether a bank is retired or being rebuilt: every read of it is reconstructed (R400). -/
def Dev.bankDown (d : Dev) (b : Nat) : Bool :=
  d.sram.retired.contains b || d.sram.rebuilding.any fun p => p.1 == b

/-- Whether the line is poisoned at present. -/
def Dev.linePoisoned (d : Dev) (b i : Nat) : Bool := d.sram.poisoned.any fun p => p.bank == b && p.index == i

/-- The key of a line. -/
def lineKey (b i : Nat) : Nat := b * 8192 + i

/-- What the array stores at a line. -/
def Dev.storedLine (d : Dev) (b i : Nat) : SramLine := tget {} d.sram.lines (lineKey b i)

/-- Change what the array stores at a line. -/
def Dev.modLine (d : Dev) (b i : Nat) (f : SramLine → SramLine) : Dev :=
  { d with sram := { d.sram with lines := tmod {} d.sram.lines (lineKey b i) f } }

/-- A line of words is written to the array with its codes, and its poison is cleared (R397); a retired bank stores
nothing (R400). -/
def Dev.putLine (d : Dev) (b i : Nat) (ws : List (BitVec 64)) : Dev :=
  let d := { d with sram := { d.sram with poisoned := d.sram.poisoned.filter fun p => !(p.bank == b && p.index == i) } }
  if d.sram.retired.contains b then d else d.modLine b i fun l => { l with words := storedWords ws }

/-- The words of a stored line as steps 1 and 2 of R395 give them. -/
def Dev.lineWordsAt (d : Dev) (b i : Nat) : List (BitVec 64) := (readWords (d.storedLine b i).words).words

/-- The banks whose lines are XORed to reconstruct a line of bank `b`: P and the other 15, or for P the 16 data banks. -/
def otherBanks (b : Nat) : List Nat := (List.range 17).filter (· != b)

/-- P rewritten from a line's new data and the other 15 lines (R396, R400). -/
def Dev.rewriteP (d : Dev) (b i : Nat) (ws : List (BitVec 64)) : Dev :=
  d.putLine 16 i (xorLines (ws :: ((otherBanks b).filter (· != 16)).map fun k => d.lineWordsAt k i))

/-- A full line is written (R396): P becomes P ⊕ old ⊕ new where the old line is known and P can be read, and else is
rewritten from the other 15 lines and the new data, as for every write to a retired bank (R400). -/
def Dev.writeLine (d : Dev) (b i : Nat) (old : Option (List (BitVec 64))) (ws : List (BitVec 64)) : Dev :=
  if b = 16 then d.putLine 16 i (xorLines ((otherBanks 16).map fun k => d.lineWordsAt k i))
  else
    let p := readWords (d.storedLine 16 i).words
    let d := match old with
      | some o =>
        if d.sram.retired.contains b || d.linePoisoned 16 i || !p.good then d.rewriteP b i ws
        else d.putLine 16 i (xorLines [p.words, o, ws])
      | none => d.rewriteP b i ws
    d.putLine b i ws

/-! ### Internal units (R382, R388 to R391) -/

/-- HOST_STATUS.READY changes, and Port B is told (Table 18.9). -/
def setReady (on : Bool) (d : Dev) : Dev :=
  if d.plane.mgmtRunning = on then d else Dev.attend { d with plane := { d.plane with mgmtRunning := on } } 3

/-- The management plane halts (R18); a start in its first two steps is abandoned (Table 17.5). -/
def mgmtHalt (d : Dev) : Dev :=
  let early : Bool := match d.img.start with | some s => s.phase == .copying | none => false
  setReady false (if early then { d with img := { d.img with start := none } } else d)

/-- Whether a ring is a stream ring. -/
def Entry.waitsBuffer (e : Entry) : Bool := e.raw.op == 0x0502 && !e.isDone

/-- Every waiting STREAM_BUF completes with FENCED (R390). -/
def fenceBuffers (d : Dev) : Dev :=
  { d with
    net := { d.net with fill := [] }
    host := HostIf.notePeak { d.host with rings := tmapAll {} d.host.rings fun _ r =>
      { r with q := r.q.map fun e => (if e.waitsBuffer then { e with st := .done ⟨.fenced, 0, 0, [], 0⟩ } else e) } } }

/-- Whether the commands executed at an instant run on one core: which core executes a command is open, so each command
that has begun ends with ABORTED or not as a free value says (R388, log entry 64). -/
def coreAborts (d : Dev) : Dev :=
  (List.range d.waits.length).foldl (fun (acc : Dev) k =>
    let (hit, acc) := acc.freeBits 1
    match d.waits[k]? with
    | some w => if hit = 1 then acc.endWaits (fun x => x == w) fun x => plainCpl .aborted x.handle 0 else acc
    | none => acc) d

/-- What the fence of a unit sets going (Table 14.1). -/
def unitSafe (u : Nat) (d : Dev) : Dev :=
  if u ≤ 3 then (let d := coreAborts d; if [0, 1, 2, 3].all d.sag.fenced.contains then mgmtHalt d else d)
  else if u = 5 then witFence d
  else if u = 6 then ledFence true d
  else if u = 10 then fenceBuffers d
  else d

/-- Units that the device restarts at a round boundary (R389). -/
def unitRestarts (u : Nat) : Bool := [4, 5, 6, 7, 8, 10].contains u

/-- An internal unit is fenced (R382, R385, R389). -/
def fenceUnit (u cause : Nat) (d : Dev) : Dev :=
  let s := { d.sag with fences := satAdd 32 d.sag.fences 1 }
  if s.fenced.contains u then { d with sag := s }
  else
    let recent := s.recent.filter fun p => s.rounds < p.2 + 16
    let third := unitRestarts u && decide (2 ≤ (recent.filter fun p => p.1 == u).length)
    let d := { d with sag := { s with
      fenced := sortNat (u :: s.fenced), held := if third then sortNat (u :: s.held) else s.held
      cause := tset 0 s.cause u cause, recent := (u, s.rounds) :: recent } }
    unitSafe u (d.raise 0x0C01 (u + cause * 256) 0)

/-- Lines that are written in full, each by one write: poison is cleared and P rewritten (R387, R389, R397, R398); what they
hold is the device's own state elsewhere, so their words stand (log entry 92). -/
def clearPoison (mine : PoisonLine → Bool) (d : Dev) : Dev :=
  (d.sram.poisoned.filter mine).foldl (fun d p =>
    d.writeLine p.bank p.index none (readWords (d.storedLine p.bank p.index).words).words) d

/-- A re-created handle's entry is written in full (R387). -/
def clearHandlePoison (t i : Nat) (d : Dev) : Dev :=
  clearPoison (fun p => match p.owner with | .handle h => slotKey (hType h) (hIndex h) == slotKey t i | _ => false) d

/-- A fresh copy of an image is written to a firmware execution region in full (R398, R452). -/
def clearRegion (r : Nat) (d : Dev) : Dev :=
  clearPoison (fun p => decide (p.bank < 16) && lineAddr p.bank p.index / 0x200000 == r) d

/-- A unit returns to service. -/
def unitRestart (d : Dev) (u : Nat) : Dev :=
  let d := clearPoison (fun p => p.owner == .unit u) { d with sag := { d.sag with fenced := d.sag.fenced.filter (· != u), held := d.sag.held.filter (· != u) } }
  let d := if u = 5 then witRestart d else if u = 6 then ledFence false d
    else if u = 4 then { d with tal := { d.tal with isPartial := true } } else d
  (d.raise 0x0C02 u 0).tally 48 3 1

/-- A round boundary restarts the units that are fenced and not held, and held ones after a WARM_START (R389). -/
def unitRestartsAtRound (d : Dev) : Dev :=
  let us := d.sag.fenced.filter fun u => unitRestarts u && (d.sag.heldRestart || !d.sag.held.contains u)
  let d := { d with sag := { d.sag with rounds := d.sag.rounds + 1, heldRestart := false } }
  us.foldl unitRestart d

/-- The cores start again at a management start (R388). -/
def coresRestart (d : Dev) : Dev :=
  { d with sag := { d.sag with fenced := d.sag.fenced.filter fun u => 3 < u } }

/-- UNIT_WATCHDOG: no progress for 4 turns (Table 14.2). -/
def unitWatchdog (u : Nat) (d : Dev) : Dev := if u = 9 then d else fenceUnit u 9 d

/-! ### The Flue's lanes (R391) -/

/-- How many lanes of a lane's direction are retired, and how many that direction tolerates. -/
def laneLoss (d : Dev) (down : Bool) : Nat :=
  (d.lanes.retired.filter fun n => decide (20 ≤ n) == down).length

/-- A lane is retired; a direction that loses more lanes than it tolerates fences the Flue. -/
def retireLane (n : Nat) (d : Dev) : Dev :=
  if d.lanes.retired.contains n then d
  else
    let d := { d with lanes := { d.lanes with retired := sortNat (n :: d.lanes.retired) } }
    let d := d.raise 0x0C07 n 0
    if 4 < laneLoss d false ∨ 2 < laneLoss d true then fenceUnit 9 8 d else d

/-- FLUE_CRC_FAIL: the flit is retried; 16 failures in a row, or more than 1,024 in a turn, retire the lane. -/
def flueCrcFail (n run : Nat) (d : Dev) : Dev :=
  if d.lanes.retired.contains n then d
  else
    let d := { d with lanes := { d.lanes with retries := d.lanes.retries + 1, fails := tmod 0 d.lanes.fails n (· + 1) } }
    let b := if 20 ≤ n then 31 else 30
    let d := (d.tally b 1 1).tally b 2 1
    if 16 ≤ run ∨ 1024 < tget 0 d.lanes.fails n then retireLane n d else d

/-! ### Reads and writes of the shared SRAM (R395 to R400) -/

/-- The saggar that owns a line is fenced with cause POISON (R397, R398). -/
def fencePoison (o : SramOwner) : Dev → Dev :=
  match o with
  | .core n => fenceUnit (n % 4) 1
  | .handle h => fun d => if d.namesLive (hType h) h then fenceHandle (hType h) (hIndex h) 1 d else d
  | .ring n => fun d => d.fenceRing (n % 128) 4
  | .unit u => if u ≤ 10 then fenceUnit u 1 else id
  | .none_ => id

/-- Whether a line lies in the handle table. -/
def ownerIsHandle (o : SramOwner) : Bool := match o with | .handle _ => true | _ => false

/-- A bank meets a condition of R400: a rebuild, or on a repeat within 1,024 turns of its end, retirement unless a bank
is retired already. -/
def bankTrouble (b : Nat) (d : Dev) : Dev :=
  let s := d.sram
  if d.bankDown b then d
  else
    let again := s.rebuildEnd.any fun p => p.1 == b && decide ((d.wheel.turn - p.2).toNat ≤ 1024)
    if again then
      if s.retired.isEmpty then Dev.raise { d with sram := { s with retired := [b], rebuiltPass := tdrop s.rebuiltPass b } } 0x0C06 b 0
      else d
    else { d with sram := { s with rebuilding := tinsert s.rebuilding b 0, rebuiltPass := tdrop s.rebuiltPass b } }

/-- A line that has been reconstructed is counted, and may bring its bank to a rebuild. -/
def lineRebuilt (b : Nat) (d : Dev) : Dev :=
  let d := { d with sram := { d.sram with rebuilt := satAdd 32 d.sram.rebuilt 1, rebuiltPass := if d.bankDown b then d.sram.rebuiltPass else tmod 0 d.sram.rebuiltPass b (· + 1) } }
  let d := d.raiseOnceTurn (0x0C04 * 32 + b) 0x0C04 b 0
  if 64 < tget 0 d.sram.rebuiltPass b then bankTrouble b d else d

/-- A line is poisoned (R397). -/
def linePoison (b i : Nat) (d : Dev) : Dev :=
  if d.linePoisoned b i then d
  else
    let o := (d.storedLine b i).owner
    let d := { d with sram := { d.sram with
      poisoned := d.sram.poisoned ++ [PoisonLine.mk b i o], poisonCount := satAdd 32 d.sram.poisonCount 1
      lastTurn := d.wheel.turn, lastAddr := lineAddr b i } }
    let d := d.raise 0x0C05 b 0
    if ownerIsHandle o then fencePoison o d else d

/-- What steps 1 and 2 of R395 count for a line of bank `b`. -/
def noteRead (b : Nat) (x : LineData) (d : Dev) : Dev :=
  let d := { d with sram := { d.sram with
    corrected := d.sram.corrected + BitVec.ofNat 64 x.fixed
    miscorrect := if x.miscorrected then satAdd 32 d.sram.miscorrect 1 else d.sram.miscorrect } }
  if x.fixed = 0 then d else d.raiseOnceTurn 0x0C03 0x0C03 b 0

/-- Step 3 of R395: the XOR of the other lines of the stripe, each read through steps 1 and 2, where all of them are good
and it passes the line's CRC; the CRC of a bank that is not in service, or that cannot be read, is the XOR of theirs
(log entry 92). -/
def reconstruct (b i : Nat) (d : Dev) : Option (List (BitVec 64)) × Dev :=
  let reads := (otherBanks b).map fun k => (k, readWords (d.storedLine k i).words)
  let own := if d.bankDown b then none else (readWords (d.storedLine b i).words).crc
  let crc := own.getD (reads.foldl (fun c r => c ^^^ r.2.crc.getD 0) 0)
  let sound := reads.all fun r => r.2.good && !d.linePoisoned r.1 i && !d.sram.retired.contains r.1
  let ws := xorLines (reads.map (·.2.words))
  (if sound && crc32 (lineBytes ws) == crc then some ws else none, reads.foldl (fun d r => noteRead r.1 r.2 d) d)

/-- A line is read through R395; nothing comes of a poisoned line. `back` says that corrected words are written back
(R399). -/
def lineFetch (back : Bool) (b i : Nat) (d : Dev) : Option (List (BitVec 64)) × Dev :=
  if d.linePoisoned b i then (none, d)
  else
    let x := readWords (d.storedLine b i).words
    let d' := if d.bankDown b then d else noteRead b x d
    if x.good && !d.bankDown b then (some x.words, if back && x.fixed != 0 then d'.putLine b i x.words else d')
    else
      let r := reconstruct b i d'
      match r.1 with
      | some ws => (some ws, lineRebuilt b (r.2.putLine b i ws))
      | none => (none, linePoison b i r.2)

/-- A read that returned poison is counted. -/
def countConsumed (d : Dev) : Dev := { d with sram := { d.sram with consumed := satAdd 32 d.sram.consumed 1 } }

/-- Bytes are written to a line (R396): a full line takes its old line's place, a part is merged into it; a write that
would merge into a poisoned line is discarded and its writer fenced. -/
def lineWrite (b i off : Nat) (bytes : List Byte) (writer : SramOwner) (d : Dev) : Dev :=
  let bytes := bytes.take (64 - off)
  if b = 16 then d
  else
    let r := lineFetch false b i d
    if off = 0 ∧ bytes.length = 64 then r.2.writeLine b i r.1 (lineWords bytes)
    else match r.1 with
      | some ws => r.2.writeLine b i r.1 (lineWords (splice (lineBytes ws) bytes off))
      | none => fencePoison writer (countConsumed r.2)

/-- A change that befalls a line between reads. -/
def lineEvent (e : LineEvent) (d : Dev) : Dev :=
  let b := e.bank % 17
  let i := e.index % 8192
  let d := d.modLine b i fun l => { l with owner := e.owner }
  match e.change with
  | .flip w bit => d.modLine b i fun l => { l with words := flipBit l.words w bit }
  | .write off bytes writer => lineWrite b i off bytes writer d

/-- The changes before a read. -/
def lineEvents (es : List LineEvent) (d : Dev) : Dev := es.foldl (fun d e => lineEvent e d) d

/-- A poisoned line is returned to a consumer (R398): the scrubber consumes nothing. `fenced` says that finding the
poison has fenced its handle already. -/
def lineConsumed (r : LineRead) (fenced : Bool) (d : Dev) : Dev :=
  match r.reader with
  | .scrubber => d
  | .bar4 => countConsumed d
  | .owner => (if fenced && ownerIsHandle r.owner then id else fencePoison r.owner) (countConsumed d)

/-- SRAM_LINE_READ: what has befallen the stripe, then steps 1 to 5 of R395. -/
def lineRead (es : List LineEvent) (r : LineRead) (d : Dev) : Dev :=
  let r := { r with bank := r.bank % 17, index := r.index % 8192 }
  let d := (lineEvents es d).modLine r.bank r.index fun l => { l with owner := r.owner }
  let before := d.linePoisoned r.bank r.index
  let f := lineFetch false r.bank r.index d
  match f.1 with
  | some _ => f.2
  | none => lineConsumed r (!before) f.2

/-! ### The scrubber (R399, R400) -/

/-- The first stripe that the scrubber reads in a turn (R399). -/
def scrubStripe (d : Dev) : Nat := 8 * (d.wheel.turn.toNat % 1024)

/-- The scrubber reads one line: one that is stored other than as zeros, or whose bank is not in service, is decoded. -/
def scrubLine (i : Nat) (d : Dev) (b : Nat) : Dev :=
  if d.bankDown b || (d.storedLine b i).words != zeroLine then (lineFetch true b i d).2 else d

/-- The scrubber reads one stripe. -/
def scrubOne (d : Dev) (i : Nat) : Dev := (List.range 17).foldl (scrubLine i) d

/-- A bank's rebuild goes on by 64 stripes, and ends with its last (R400). -/
def rebuildStep (d : Dev) (p : Nat × Nat) : Dev :=
  let d := (List.range 64).foldl (fun d k => scrubLine (p.2 + k) d p.1) d
  let next := p.2 + 64
  { d with sram := { d.sram with
      rebuilding := if next < 8192 then tinsert d.sram.rebuilding p.1 next else tdrop d.sram.rebuilding p.1
      rebuildEnd := if next < 8192 then d.sram.rebuildEnd else tinsert d.sram.rebuildEnd p.1 d.wheel.turn } }

/-- SCRUB: what has befallen the lines, then from tick 8,192 every line of eight stripes is read, and each bank being
rebuilt goes on. -/
def scrub (es : List LineEvent) (d : Dev) : Dev :=
  let s := scrubStripe d
  let d := lineEvents es d
  let d := ((List.range 8).map (s + ·)).foldl scrubOne d
  let d := d.sram.rebuilding.foldl rebuildStep d
  let done := decide (s + 8 = 8192)
  let d := d.tally 34 6 136
  { d with sram := { d.sram with
      stripe := (s + 8) % 8192
      passes := if done then satAdd 32 d.sram.passes 1 else d.sram.passes
      passTurn := if done then d.wheel.turn else d.sram.passTurn
      rebuiltPass := if done then [] else d.sram.rebuiltPass } }

/-- BANK_REBUILD: the macro check of a bank reports a bank-wide fault (R400). -/
def bankRebuild (b : Nat) (d : Dev) : Dev := bankTrouble b d

/-- At a turn boundary the lanes' failures count afresh. -/
def saggarTurn (d : Dev) : Dev := { d with lanes := { d.lanes with fails := [] } }

/-! ### Resets (R401, R514) -/

/-- What a reset of the Hearth keeps of the shared SRAM: the retired banks, whether they have been tested since power-on,
and the counts, which run from power-on (R400, R401). -/
def Sram.kept (s : Sram) : Sram :=
  { s with lines := [], poisoned := [], rebuiltPass := [], rebuilding := [], rebuildEnd := [], stripe := 0 }

/-- What it keeps of the saggars: the counts. -/
def Sag.kept (s : Sag) : Sag := { fences := s.fences, handleFences := s.handleFences }

/-! ### THROW_MEM_ERROR (R117) -/

/-- A corrected error is counted; an uncorrectable one fences the owner of the word. -/
def throwMemError (corrected : Bool) (lane : Nat) (owner : LoopId) (coef : Bool) (d : Dev) : Dev :=
  if corrected then
    Dev.raiseOnceTurn { d with thr := { d.thr with memCorrected := satAdd 32 d.thr.memCorrected 1 } } 0x0304 0x0304 (min lane 8) 0
  else
    let k := ownerKey owner
    if d.live (k / 4096) (k % 4096) then
      fenceOwner owner 2 (d.raise 0x0305 (b2n coef) (d.handleOf (k / 4096) (k % 4096)))
    else d

/-! ### Blocks (R401) -/

/-- MEM_ERRORS (Table 14.4). -/
def memErrorsBlock (d : Dev) : List Byte :=
  let s := d.sram
  [0x01, BitVec.ofNat 8 (b2n (!s.retired.isEmpty) + b2n (!s.rebuilding.isEmpty) * 2)] ++ leBytes 2 s.stripe ++
    leBytes 4 (maskOf s.retired) ++ leBytes 8 s.corrected.toNat ++ leBytes 4 s.miscorrect ++ leBytes 4 s.rebuilt ++
    leBytes 4 s.poisonCount ++ leBytes 4 s.poisoned.length ++ leBytes 4 s.consumed ++ leBytes 4 s.passes ++
    leBytes 6 s.passTurn.toNat ++ leBytes 6 s.lastTurn.toNat ++ leBytes 4 s.lastAddr ++ leBytes 4 (maskOf d.lanes.retired) ++
    leBytes 4 d.lanes.retries.toNat

/-- SAG_STATUS (Table 14.5). -/
def sagStatusBlock (d : Dev) : List Byte :=
  let s := d.sag
  [0x01, 0] ++ leBytes 2 (maskOf s.fenced) ++ leBytes 2 (maskOf s.held) ++
    ((List.range 11).map fun u => BitVec.ofNat 8 (tget 0 s.cause u)) ++ zeros 3 ++ leBytes 4 s.fences ++
    leBytes 4 s.handleFences ++ zeros 4

/-! ### Commands of this chapter -/

/-- BANK_REBUILD. -/
def execBankRebuild (bank : Nat) (s : State) : Out := s.onDevAt 17 bank fun _ d => bankRebuild bank d
/-- UNIT_WATCHDOG. -/
def execUnitWatchdog (unit : Nat) (s : State) : Out := s.onDevAt 11 unit fun _ d => unitWatchdog unit d
/-- THROW_MEM_ERROR. -/
def execThrowMemError (corrected : Bool) (lane : Nat) (owner : LoopId) (coef : Bool) (s : State) : Out :=
  s.onDev fun _ d => throwMemError corrected lane owner coef d

end Sys2Proof.Machine
end

