-- ==== Sys2Proof/Machine/Sha.lean ====
section
/-! DEFINITION. SHA-256 (FIPS 180-4), by which manifests, sherds and tokens are checked (R442, R447, R522). -/

namespace Sys2Proof.Machine

/-- The round constants. -/
def shaK : List Nat :=
  [0x428a2f98, 0x71374491, 0xb5c0fbcf, 0xe9b5dba5, 0x3956c25b, 0x59f111f1, 0x923f82a4, 0xab1c5ed5, 0xd807aa98, 0x12835b01, 0x243185be, 0x550c7dc3, 0x72be5d74, 0x80deb1fe, 0x9bdc06a7, 0xc19bf174] ++
  [0xe49b69c1, 0xefbe4786, 0x0fc19dc6, 0x240ca1cc, 0x2de92c6f, 0x4a7484aa, 0x5cb0a9dc, 0x76f988da, 0x983e5152, 0xa831c66d, 0xb00327c8, 0xbf597fc7, 0xc6e00bf3, 0xd5a79147, 0x06ca6351, 0x14292967] ++
  [0x27b70a85, 0x2e1b2138, 0x4d2c6dfc, 0x53380d13, 0x650a7354, 0x766a0abb, 0x81c2c92e, 0x92722c85, 0xa2bfe8a1, 0xa81a664b, 0xc24b8b70, 0xc76c51a3, 0xd192e819, 0xd6990624, 0xf40e3585, 0x106aa070] ++
  [0x19a4c116, 0x1e376c08, 0x2748774c, 0x34b0bcb5, 0x391c0cb3, 0x4ed8aa4a, 0x5b9cca4f, 0x682e6ff3, 0x748f82ee, 0x78a5636f, 0x84c87814, 0x8cc70208, 0x90befffa, 0xa4506ceb, 0xbef9a3f7, 0xc67178f2]

/-- The initial hash value. -/
def shaH : List Word :=
  [0x6a09e667, 0xbb67ae85, 0x3c6ef372, 0xa54ff53a, 0x510e527f, 0x9b05688c, 0x1f83d9ab, 0x5be0cd19]

/-- A big-endian word of four bytes. -/
def beWord (bs : List Byte) : Word := BitVec.ofNat 32 (bs.foldl (fun n b => n * 256 + b.toNat) 0)

/-- The 16 words of a block. -/
def shaWords (block : List Byte) : List Word := (List.range 16).map fun i => beWord ((block.drop (4 * i)).take 4)

/-- One more word of the schedule, which is held latest first. -/
def shaExtend (w : List Word) : List Word :=
  let a := word w 14
  let b := word w 1
  let s0 := a.rotateRight 7 ^^^ a.rotateRight 18 ^^^ (a >>> 3)
  let s1 := b.rotateRight 17 ^^^ b.rotateRight 19 ^^^ (b >>> 10)
  (word w 15 + s0 + word w 6 + s1) :: w

/-- The schedule of a block, in order. -/
def shaSchedule (block : List Byte) : List Word :=
  ((List.range 48).foldl (fun w _ => shaExtend w) (shaWords block).reverse).reverse

/-- One round on the eight working variables. -/
def shaRound (v : List Word) (kw : Nat × Word) : List Word :=
  let a := word v 0
  let e := word v 4
  let t1 := word v 7 + (e.rotateRight 6 ^^^ e.rotateRight 11 ^^^ e.rotateRight 25) +
    ((e &&& word v 5) ^^^ (~~~ e &&& word v 6)) + BitVec.ofNat 32 kw.1 + kw.2
  let t2 := (a.rotateRight 2 ^^^ a.rotateRight 13 ^^^ a.rotateRight 22) +
    ((a &&& word v 1) ^^^ (a &&& word v 2) ^^^ (word v 1 &&& word v 2))
  [t1 + t2, a, word v 1, word v 2, word v 3 + t1, e, word v 5, word v 6]

/-- One block. -/
def shaBlock (h : List Word) (block : List Byte) : List Word :=
  (List.zip h ((List.zip shaK (shaSchedule block)).foldl shaRound h)).map fun p => p.1 + p.2

/-- The padding of a message of `n` bytes. -/
def shaPad (n : Nat) : List Byte :=
  0x80 :: (zeros ((119 - n % 64) % 64) ++ (leBytes 8 (8 * n)).reverse)

/-- The blocks of a padded message, `k` of them. -/
def shaBlocks : Nat → List Byte → List Word → List Word
  | 0, _, h => h
  | k + 1, bs, h => shaBlocks k (bs.drop 64) (shaBlock h (bs.take 64))

/-- The digest of a message: 32 bytes. -/
def sha256 (msg : List Byte) : List Byte :=
  let bs := msg ++ shaPad msg.length
  (shaBlocks (bs.length / 64) bs shaH).flatMap fun w => (leBytes 4 w.toNat).reverse

end Sys2Proof.Machine
end

