-- ==== Sys2Proof/Machine/Image.lean ====
section
/-! DEFINITION. Firmware update (spec 17): sherds and greenware, management starts and handover, trial, rollback and safe
hold. -/

namespace Sys2Proof.Machine

/-! ### Slots and manifests (R441 to R445) -/

/-- Flash slot `s`. -/
def Dev.imgSlot (d : Dev) (s : Nat) : ImgSlot := tget {} d.img.slots s
/-- Change a slot. -/
def Dev.modImg (d : Dev) (s : Nat) (f : ImgSlot → ImgSlot) : Dev :=
  { d with img := { d.img with slots := tmod {} d.img.slots s f } }
/-- The slot with a role. -/
def Dev.roleSlot (d : Dev) (r : SlotRole) : Option Nat := (List.range 3).find? fun s => (d.imgSlot s).role == r
/-- A sherd of a slot, if it is held. -/
def ImgSlot.sherd (s : ImgSlot) (k : Nat) : Option (List Byte) := (s.sherds.find? fun p => p.1 == k).map (·.2)
/-- Sherd 0, which holds the manifest's fields. -/
def ImgSlot.head (s : ImgSlot) : List Byte := if s.factory then Config.factoryManifest else (s.sherd 0).getD []
/-- A field of the manifest. -/
def ImgSlot.field (s : ImgSlot) (off n : Nat) : Nat := byteField s.head off n
/-- MSHERDS; 0 until sherd 0 is held. -/
def ImgSlot.msherds (s : ImgSlot) : Nat := s.field 6 2
/-- TOTAL; 0 until sherd 0 is held. -/
def ImgSlot.total (s : ImgSlot) : Nat := s.field 8 2
/-- Whether sherd 0 is held. -/
def ImgSlot.hasHead (s : ImgSlot) : Bool := s.factory || (s.sherd 0).isSome
/-- The number of sherds still missing (R446). -/
def ImgSlot.missing (s : ImgSlot) : Nat := if s.hasHead then s.total - s.sherds.length else 4096
/-- The greenware is READY: every bit is set (R448). -/
def ImgSlot.complete (s : ImgSlot) : Bool := s.hasHead && s.verified && s.missing == 0

/-- The manifest's bytes, of a whole number of sherds. -/
def manifestBytes (s : ImgSlot) (extra : List (Nat × List Byte)) : List Byte :=
  (List.range s.msherds).flatMap fun k =>
    match s.sherd k with
    | some b => b
    | none => ((extra.find? fun p => p.1 == k).map (·.2)).getD []

/-- Whether sherd 0's MAGIC, FORMAT, MSHERDS and TOTAL are valid (Table 17.1). -/
def headOk (b : List Byte) : Bool :=
  let m := byteField b 6 2
  let t := byteField b 8 2
  byteField b 0 4 == 0x4E444C4B && byteField b 4 2 == 1 && decide (1 ≤ m) && decide (m ≤ 129) && decide (m < t) && decide (t ≤ 4096)

/-- The three parts of a manifest: first sherd and the sherd after the last. -/
def parts (m : List Byte) : List (Nat × Nat) :=
  [32, 40, 48].map fun o => (byteField m o 4, byteField m o 4 + (byteField m (o + 4) 4 + 1023) / 1024)

/-- Whether two parts share a sherd. -/
def partsMeet (a b : Nat × Nat) : Bool := decide (max a.1 b.1 < min a.2 b.2)

/-- A manifest is well formed (R442). -/
def manifestOk (m : List Byte) : Bool :=
  let ms := byteField m 6 2
  let total := byteField m 8 2
  let p := total - ms
  let ps := parts m
  decide (576 + 32 * p ≤ 1024 * ms) && (m.drop (576 + 32 * p)).all (· == 0) &&
    ps.all (fun x => decide (ms ≤ x.1) && decide (x.2 ≤ total)) &&
    !partsMeet (ps.getD 0 (0, 0)) (ps.getD 1 (0, 0)) && !partsMeet (ps.getD 0 (0, 0)) (ps.getD 2 (0, 0)) &&
    !partsMeet (ps.getD 1 (0, 0)) (ps.getD 2 (0, 0))

/-- The signature of a manifest passes (R442). -/
def manifestSigned (m : List Byte) : Bool :=
  let n := 512 + 32 * (byteField m 8 2 - byteField m 6 2)
  Config.signatureOk (sha256 (m.take n)) ((m.drop n).take 64)

/-- STEPPINGS lists the part's stepping, B0 (R2, R3). -/
def steppingOk (m : List Byte) : Bool :=
  (List.range (min 8 (byteField m 92 1))).any fun i => byteField m (96 + i) 1 == 0xB0

/-- PAIRS lists a Firebox version. -/
def pairsWith (m : List Byte) (v : Nat) : Bool :=
  (List.range (min 32 (byteField m 93 1))).any fun i => byteField m (104 + 4 * i) 4 == v

/-- ACCEPT lists a state schema. -/
def accepts (m : List Byte) (schema : Nat) : Bool :=
  (List.range (min 16 (byteField m 58 2))).any fun i => byteField m (60 + 2 * i) 2 == schema

/-- A payload sherd has the SHA-256 of its HASH. -/
def sherdHashOk (m : List Byte) (k : Nat) (bytes : List Byte) : Bool :=
  sha256 bytes == (m.drop (512 + 32 * (k - byteField m 6 2))).take 32

/-! ### The Firebox banks and the running image -/

/-- Firebox bank `b`. -/
def Dev.fbBank (d : Dev) (b : Nat) : FbBank := tget {} d.img.banks b
/-- The version of the image in a bank. -/
def Dev.fbVersion (d : Dev) (b : Nat) : Nat := (d.fbBank b).version.getD Config.factoryFirebox
/-- The bank that the Firebox does not run from. -/
def Dev.fbOther (d : Dev) : Nat := 1 - d.img.fbRun
/-- The manifest fields of the running image. -/
def Dev.runSlot (d : Dev) : ImgSlot := d.imgSlot d.img.run

/-- Whether an image pairs with a bank marked good (R450, R521); the factory image pairs with the factory Firebox image (log
entry 23). -/
def pairsBank (d : Dev) (s : ImgSlot) (b : Nat) : Bool :=
  (d.fbBank b).good && (s.factory && (d.fbBank b).version.isNone || pairsWith s.head (d.fbVersion b))

/-- Step 1 of R450: signature and the hashes of the management and Firebox parts, read from flash. -/
def imageSound (s : ImgSlot) : Bool :=
  s.factory ||
    (let m := manifestBytes s []
     manifestSigned m && ((parts m).take 2).all fun p =>
       (List.range (p.2 - p.1)).all fun j =>
         match s.sherd (p.1 + j) with
         | some b => sherdHashOk m (p.1 + j) b
         | none => false)

/-- R450 of a candidate: none where it passes, else the status. -/
def imageCheck (d : Dev) (slot : Nat) (green : Bool) : Option Status :=
  let s := d.imgSlot slot
  if !imageSound s then some .auth
  else if !steppingOk s.head then some .version
  else
    let paired := if green then pairsBank d s d.img.fbRun && pairsWith s.head (s.field 24 4)
      else pairsBank d s 0 || pairsBank d s 1
    if paired then none else some .version

/-- A start of a slot would hand over state (R451). -/
def wouldHandOver (d : Dev) (slot : Nat) : Bool :=
  d.plane.mgmtRunning && (slot == d.img.run || accepts (d.imgSlot slot).head (d.runSlot.field 56 2))

/-- The greenware slot, and whether it is READY. -/
def Dev.greenReady (d : Dev) : Option Nat :=
  match d.roleSlot .greenware with
  | some s => if (d.imgSlot s).complete then some s else none
  | none => none

/-- The greenware is TAKING: a start is taking it (Table 17.6). -/
def Dev.taking (d : Dev) : Bool :=
  match d.img.start with
  | some s => s.green && (d.imgSlot s.slot).role == .greenware
  | none => false

/-- Whether the running image is in trial (R457). -/
def Dev.inTrial (d : Dev) : Bool := d.runSlot.role == .trial

/-- A slot becomes REJECTED and is erased in the background (R444). -/
def rejectSlot (s : Nat) (d : Dev) : Dev :=
  d.modImg s fun x => { x with role := .rejected, erased := false, verified := false }

/-- A slot that fails step 1 of R450 as a candidate becomes REJECTED. -/
def rejectUnsound (d : Dev) (s : Nat) : Dev := if imageSound (d.imgSlot s) then d else rejectSlot s d

/-! ### Receiving sherds (R446 to R448) -/

/-- A refusal raises IMG_REFUSED, and an AUTH outcome is counted (Tables 17.6, 17.7). -/
def imgRefused (d : Dev) (st : Status) (result : Nat) : Dev × Answer :=
  let d := if st = .auth then { d with img := { d.img with authFails := satAdd 16 d.img.authFails 1 } } else d
  (d.raiseOnceTurn 0x0E02 0x0E02 st.code 0, .done st result)

/-- The slot to be written: the greenware, else the lowest FREE slot (log entry 24). -/
def Dev.sherdSlot (d : Dev) : Option Nat :=
  match d.roleSlot .greenware with
  | some s => some s
  | none => d.roleSlot .free

/-- The manifest as it would stand with one more sherd, if that completes it (R447 orders 8 and 9). -/
def manifestWith (s : ImgSlot) (n : Nat) (bytes : List Byte) : Option (List Byte) :=
  let s' := { s with sherds := (n, bytes) :: s.sherds }
  if s.verified || (s.sherd n).isSome || !s'.hasHead || decide (s'.msherds ≤ n) then none
  else if (List.range s'.msherds).all fun k => (s'.sherd k).isSome then some (manifestBytes s' []) else none

/-- All manifest sherds are discarded: before the manifest is verified a slot holds no others. -/
def dropManifest (s : ImgSlot) : ImgSlot := { s with sherds := [], verified := false }

/-- Orders 8 and 9 of Table 17.2 for a complete manifest. -/
def manifestRefusal (m : List Byte) : Option Status :=
  if !manifestOk m || !manifestSigned m then some .auth else if !steppingOk m then some .version else none

/-- A sherd is checked in the order of Table 17.2; what passes is written to flash and waits for its read-back. -/
def imgSherd (src : Src) (n : Nat) (restart : Bool) (bytes : List Byte) (d : Dev) : Dev × Answer :=
  let held := (d.roleSlot .greenware).map fun s => d.imgSlot s
  let missing := match held with | some s => s.missing | none => 4096
  let beyond := match held with | some s => s.hasHead && decide (s.total ≤ n) | none => false
  match d.sherdSlot with
  | none => imgRefused d (if 4096 ≤ n then .range else .state) missing
  | some slot =>
    let s := d.imgSlot slot
    let green := s.role == .greenware
    let manifest := s.hasHead && decide (n < s.msherds) || !s.hasHead && decide (n < 129)
    let refusal := (manifestWith s n bytes).bind manifestRefusal
    if 4096 ≤ n ∨ beyond = true then imgRefused d .range missing
    else if d.taking || (d.roleSlot .trial).isSome then imgRefused d .state missing
    else if n = 0 ∧ green = true ∧ restart = false ∧ s.hasHead = true ∧ byteField bytes 12 8 ≠ s.field 12 8 then
      imgRefused d .state missing
    else if n = 0 ∧ green = true ∧ restart = true then imgRefused (rejectSlot slot d) .busy 4096
    else if s.erased = false ∧ green = false then imgRefused d .busy missing
    else if n = 0 ∧ headOk bytes = false then imgRefused d .version missing
    else if manifest = false ∧ s.verified = false then imgRefused d .state missing
    else
      match refusal with
      | some st => imgRefused (d.modImg slot dropManifest) st 4096
      | none =>
        if !manifest && !sherdHashOk (manifestBytes s []) n bytes then imgRefused d .auth missing
        else if (s.sherd n).isSome then (d, .done .ok missing)
        else
          let d := { d with img := { d.img with writes := d.img.writes ++ [SherdWrite.mk (some src) slot n bytes] } }
          (d.addWait src .sherd 0, .waits)

/-- SHERD_WRITE_DONE: the oldest write is read back equal, and its bit is set; sherd 0 tells which sherds are the manifest's,
and those that are not were never checked and are missing again (log entry 24); the first sherd accepted makes the slot the
greenware, and orders 8 and 9 hold again where several manifest sherds were being written at once. -/
def sherdWriteDone (ok : Bool) (d : Dev) : Dev :=
  match d.img.writes with
  | [] => d
  | w :: rest =>
    let d := Dev.tally { d with img := { d.img with writes := rest } } 47 3 (b2n (!ok))
    let answer (d : Dev) (st : Status) : Dev :=
      let miss := if (d.imgSlot w.slot).role = .greenware then (d.imgSlot w.slot).missing else 4096
      d.endWaits (fun x => x.kind == WaitKind.sherd && x.src == w.src) fun _ => plainCpl st 0 miss
    if d.sherdSlot != some w.slot then answer d .noResource
    else if !ok then answer ((imgRefused d .noResource 0).1) .noResource
    else if ((d.imgSlot w.slot).sherd w.num).isSome then answer d .ok
    else match (manifestWith (d.imgSlot w.slot) w.num w.bytes).bind manifestRefusal with
    | some st => answer ((imgRefused (d.modImg w.slot dropManifest) st 0).1) st
    | none =>
      let verified := (manifestWith (d.imgSlot w.slot) w.num w.bytes).isSome
      let d := d.modImg w.slot fun x =>
        let x := { x with role := .greenware, sherds := x.sherds ++ [(w.num, w.bytes)], verified := x.verified || verified, erased := false }
        if w.num = 0 then { x with sherds := x.sherds.filter fun p => decide (p.1 < x.msherds) } else x
      let d := if (d.imgSlot w.slot).complete then d.raise 0x0E01 (d.imgSlot w.slot).total 0 else d
      answer d .ok

/-- SLOT_ERASE_DONE: a REJECTED or released slot is FREE and erased. -/
def slotEraseDone (s : Nat) (d : Dev) : Dev :=
  let x := d.imgSlot s
  if x.role = .rejected ∨ (x.role = .free ∧ x.erased = false) then (d.modImg s fun _ => {}).tally 47 2 1 else d

/-! ### Starts (R449 to R456) -/

/-- A start begins: its checks have passed and the copy runs. -/
def beginStart (st : StartRt) (src : Src) (k : WaitKind) (d : Dev) : Dev × Answer :=
  (({ d with img := { d.img with start := some st } } : Dev).addWait src k 0, .waits)

/-- IMG_ACTIVATE. -/
def imgActivate (src : Src) (p0 : Word) (d : Dev) : Dev × Answer :=
  match d.greenReady with
  | none => imgRefused d .state 0
  | some s =>
    if d.img.start.isSome then imgRefused d .state 0
    else
      match imageCheck d s true with
      | some .auth => imgRefused (rejectSlot s d) .auth 0
      | some st => imgRefused d st 0
      | none =>
        let warm := wouldHandOver d s
        if !warm && !bit p0 0 then imgRefused d .version 0
        else beginStart { slot := s, last := if warm then 1 else 2, cold := !warm, green := true } src .activate d

/-- The target of IMG_ROLLBACK (R459). -/
def Dev.rollbackTarget (d : Dev) : Option Nat :=
  if (d.roleSlot .trial).isSome then d.roleSlot .active else d.roleSlot .previous

/-- Where a target pairs with the other bank alone, the Firebox is to switch (R460). -/
def needsSwitch (d : Dev) (s : Nat) : Bool :=
  !pairsBank d (d.imgSlot s) d.img.fbRun && pairsBank d (d.imgSlot s) d.fbOther

/-- IMG_ROLLBACK. -/
def imgRollback (src : Src) (d : Dev) : Dev × Answer :=
  match d.rollbackTarget with
  | none => imgRefused d .state 0
  | some s =>
    if d.img.start.isSome then imgRefused d .state 0
    else
      match imageCheck d s false with
      | some .auth => imgRefused (rejectSlot s d) .auth 0
      | some st => imgRefused d st 0
      | none =>
        let warm := wouldHandOver d s
        beginStart { slot := s, last := if warm then 4 else 5, cold := !warm, green := false, fbAt := true, fbSwitch := needsSwitch d s }
          src .rollback d

/-- WARM_START: READY greenware that would hand over, else the running image, each only where it passes R450 (Table 17.3, log
entry 95). -/
def warmStart (src : Src) (d : Dev) : Dev × Answer :=
  if d.img.start.isSome then (d, .done .state 0)
  else
    let d' := match d.greenReady with
      | some s => if imageCheck d s true = some .auth then rejectSlot s d else d
      | none => d
    match d'.greenReady.filter fun s => (imageCheck d' s true).isNone && wouldHandOver d' s with
    | some s => beginStart { slot := s, last := 1, cold := false, green := true } src .warmStart d'
    | none =>
      match imageCheck d' d'.img.run false with
      | some st => (d', .done st 0)
      | none => beginStart { slot := d'.img.run, last := 7, cold := false, green := false } src .warmStart d'

/-- HANDOVER_COPY_DONE: T is the first boundary at least 16,384 wt later; the container's Firebox image is in the other
bank (R452). -/
def copyDone (tick : Nat) (d : Dev) : Dev :=
  match d.img.start with
  | some st =>
    if st.phase = .copying then
      let t := d.wheel.turn + (if tick + 16384 ≤ 65536 then 1 else 2)
      let v := (d.imgSlot st.slot).field 24 4
      let other := d.fbOther
      let differs := st.green && v != d.fbVersion d.img.fbRun
      let banks := if st.green then tset {} d.img.banks other { version := some v } else d.img.banks
      let due := if differs then some (other, t + 1) else if st.fbSwitch then some (other, t) else none
      clearRegion (1 - d.img.region)
        { d with img := { d.img with start := some { st with phase := .copied, turn := t }, banks := banks, fbDue := due } }
    else d
  | none => d

/-- HANDOVER_HOLD_COMMANDS: from tick 49,152 before T. -/
def holdCommands (d : Dev) : Dev :=
  match d.img.start with
  | some st => if st.phase = .copied then { d with img := { d.img with start := some { st with phase := .holding } } } else d
  | none => d

/-- A heartbeat reaches the Firebox supervisor: the watchdog is armed, a lost plane is back, and a trial counts (R19, R457). -/
def heartbeat (d : Dev) : Dev :=
  let lost := d.plane.mgmtLost
  let d := { d with plane := { d.plane with wdArmed := true, wdCount := 0, beatThisTurn := true, mgmtLost := false, lostTurns := 0 } }
  let d := { d with img := { d.img with
    noBeat := false
    confirm := if !d.inTrial then d.img.confirm
      else if d.sag.fenced.any fun u => u ≤ 3 then 0 else min 250 (d.img.confirm + 1) } }
  if lost then d.raise 0x1204 0 0 else d

/-- HANDOVER_BOUNDARY: at T the old image sends its heartbeat and writes the records; the turn is a handover turn (R452,
R455, R456). -/
def handoverBoundary (d : Dev) : Dev :=
  match d.img.start with
  | some st =>
    if st.phase = .holding ∧ st.turn = d.wheel.turn then
      let d := if st.cold then d else heartbeat d
      setReady false { d with
        img := { d.img with start := some { st with phase := .handedOver } }, led := { d.led with handover := true } }
    else d
  | none => d

/-- Descriptors on command rings that were fetched and not begun end with ABORTED (R456). -/
def abortHeld (d : Dev) : Dev :=
  { d with host := HostIf.notePeak { d.host with rings := tmapAll {} d.host.rings fun _ r => (
      if r.cls = 0 then
        { r with q := r.q.map fun e => (
            if e.st == .held then { e with st := .done ⟨.aborted, e.raw.d.handle, 0, [], 0⟩ } else e) }
      else r) } }

/-- A command that a mailbox holds unserved ends with ABORTED. -/
def abortHeldBox (peer : Bool) (d : Dev) : Dev :=
  match (d.twb.box peer).held with
  | some raw => (d.modBox peer fun b => { b with held := none }).deliver (some (.mailbox peer)) (plainCpl .aborted raw.d.handle 0)
  | none => d

/-- Whether a wait is that of the command that asked for the start. -/
def WaitKind.isStart (k : WaitKind) : Bool :=
  match k with | .warmStart => true | .activate => true | .rollback => true | _ => false

/-- A cold management start: the commands end, the estimator restores each STRING (R321, R456). -/
def coldStart (all : Bool) (d : Dev) : Dev :=
  let d := d.endWaits (fun w => all || !w.kind.isStart) fun w => plainCpl .aborted w.handle 0
  let d := abortHeldBox true (abortHeldBox false d)
  (d.liveIndices tString).foldl battColdStart (abortHeld { d with img := { d.img with writes := [] } })

/-- The roles change as the image starts (R457 to R459). -/
def startRoles (st : StartRt) (d : Dev) : Dev :=
  if st.green then
    let d := d.modImg st.slot fun s => { s with role := .trial }
    { d with img := { d.img with trialStarts := 1, confirm := 0, missedBeat := false, noBeat := st.last == 0 || st.cold } }
  else if (d.imgSlot st.slot).role = .trial then
    if st.last = 0 then
      { d with img := { d.img with trialStarts := d.img.trialStarts + 1, confirm := 0, missedBeat := false, noBeat := true } }
    else d
  else if st.last = 4 ∨ st.last = 5 then
    let d := match d.roleSlot .trial with
      | some t => rejectSlot t d
      | none =>
        let d := match d.roleSlot .active with | some a => rejectSlot a d | none => d
        d.modImg st.slot fun s => { s with role := .active }
    d.raise 0x0E06 0 0
  else d

/-- NEW_IMAGE_START: the new image starts on all cores and reads the records; a record that fails its CRC makes the start
cold (R453, R456). -/
def newImageStart (recordsOk : Bool) (d : Dev) : Dev :=
  match d.img.start with
  | some st =>
    if st.phase = .handedOver then
      let cold := st.cold || !recordsOk
      let d := startRoles st d
      let d := { d with
        img := { d.img with
          run := st.slot, last := st.last, lastTurn := d.wheel.turn, safeHold := false, noCandidate := false
          region := if st.last = 0 then 0 else 1 - d.img.region
          start := some { st with phase := .started, cold := cold } }
        net := { d.net with
          shaking := []
          sessions := if cold then [] else d.net.sessions.map fun p => (p.1, { p.2 with isOpen := false }) } }
      let d := battHintsClear (coresRestart (clearRegion d.img.region d))
      (if cold then coldStart (st.last == 3 || st.last == 0 || (st.last == 7 && st.cold)) d else d).raise 0x0E03 st.last 0
    else d
  | none => d

/-- MGMT_READY: command rings, mailboxes and network services are served; the command that asked for the start completes;
without a link the plane starts calibration (R111, R389, R452, R465). -/
def mgmtReady (d : Dev) : Dev :=
  let d := newImageStart true d
  match d.img.start with
  | some st =>
    if st.phase = .started then
      let d := if d.hasWait .warmStart 0 then { d with sag := { d.sag with heldRestart := true } } else d
      let d := setReady true { d with img := { d.img with start := none }, pow := { d.pow with phase := .up } }
      let d := d.endWaits (fun w => w.kind.isStart) fun _ => plainCpl .ok 0 0
      let d := if d.pow.hkReport then Dev.raise { d with pow := { d.pow with hkReport := false } } 0x1202 d.pow.hkFails 0 else d
      if d.host.link = .down then calStart 1 d else d
    else d
  | none => d

/-! ### The Firebox image (R454, R460) -/

/-- FIREBOX_IMAGE_SWITCH: at the boundary that is due. -/
def fireboxSwitch (d : Dev) : Dev :=
  match d.img.fbDue with
  | some (b, t) =>
    if t = d.wheel.turn then Dev.raise { d with img := { d.img with fbRun := b, fbDue := none, fbConfirm := some 0 } } 0x0E04 b 0
    else d
  | none => d

/-- FIREBOX_SELF_REVERT: the new Firebox image fails its self-check, and the other bank runs. -/
def fireboxRevert (d : Dev) : Dev :=
  if d.img.fbConfirm.isSome then
    let bad := d.img.fbRun
    Dev.raise { d with img := { d.img with
      banks := tmod {} d.img.banks bad fun b => { b with good := false }
      fbRun := d.fbOther, fbConfirm := none } } 0x0E06 2 0
  else d

/-! ### Trial, confirmation, failed boots, safe hold (R457 to R461) -/

/-- IMAGE_CONFIRMED: 250 boundaries with their heartbeats, or 250 turns since the Firebox switched. -/
def imageConfirmed (firebox : Bool) (d : Dev) : Dev :=
  if firebox then
    match d.img.fbConfirm with
    | some n => if 250 ≤ n then Dev.raise { d with img := { d.img with fbConfirm := none } } 0x0E05 1 0 else d
    | none => d
  else if d.inTrial ∧ 250 ≤ d.img.confirm then
    let d := match d.roleSlot .previous with | some s => d.modImg s fun x => { x with role := .free, erased := false } | none => d
    let d := match d.roleSlot .active with | some s => d.modImg s fun x => { x with role := .previous } | none => d
    let d := d.modImg d.img.run fun x => { x with role := .active }
    Dev.raise { d with img := { d.img with confirm := 0, trialStarts := 0 } } 0x0E05 0 0
  else d

/-- A boot-failure condition of R457 holds. -/
def bootFails (d : Dev) : Bool :=
  d.inTrial && (d.img.missedBeat || [0, 1, 2, 3].all d.sag.fenced.contains ||
    (d.img.noBeat && decide (100 ≤ (d.wheel.turn - d.img.lastTurn).toNat)))

/-- A cold start of a slot that is due at once. -/
def startCold (slot last : Nat) (d : Dev) : Dev :=
  setReady false { d with
    led := { d.led with handover := true }
    img := { d.img with
      start := some { slot := slot, last := last, cold := true, green := (d.imgSlot slot).role == .greenware, phase := .handedOver, turn := d.wheel.turn }
      fbDue := if needsSwitch d slot then some (d.fbOther, d.wheel.turn) else none } }

/-- FAILED_BOOT: the TRIAL slot becomes REJECTED, and ACTIVE starts cold (R458). -/
def failedBoot (d : Dev) : Dev :=
  if bootFails d then
    let d := (rejectSlot d.img.run d).raise 0x0E06 1 0
    match (d.roleSlot .active).filter fun s => (imageCheck d s false).isNone with
    | some s => startCold s 3 d
    | none =>
      let d := match d.roleSlot .active with | some s => rejectUnsound d s | none => d
      mgmtHalt { d with img := { d.img with start := none, noCandidate := true } }
  else d


/-- The candidates of a power-on in their order: greenware that is READY, TRIAL with fewer than 3 starts, ACTIVE, PREVIOUS
(Table 17.3). -/
def powerOnCandidates (d : Dev) : List Nat :=
  let trial := if d.img.trialStarts < 3 then d.roleSlot .trial else none
  [d.greenReady, trial, d.roleSlot .active, d.roleSlot .previous].filterMap id

/-- The image that a power-on starts: the first candidate that passes R450. -/
def powerOnImage (d : Dev) : Option Nat := (powerOnCandidates d).find? fun s => (imageCheck d s false).isNone

/-- The boot ROM chooses the image at power-on; a TRIAL slot passed over after its third start is a failed boot (R457). -/
def chooseImage (d : Dev) : Dev :=
  let d := match d.roleSlot .trial with
    | some t => if 3 ≤ d.img.trialStarts ∧ d.greenReady.isNone = true then (rejectSlot t d).raise 0x0E06 1 0 else d
    | none => d
  let choice := powerOnImage d
  let d := ((powerOnCandidates d).takeWhile fun s => some s != choice).foldl rejectUnsound d
  match choice with
  | some s => startCold s 0 d
  | none => { d with img := { d.img with noCandidate := true } }

/-- The running image starts cold, or where it fails R450 no image runs (R450, R461, R516). -/
def restartCold (d : Dev) : Dev :=
  if (imageCheck d d.img.run false).isNone then startCold d.img.run 7 d
  else mgmtHalt { rejectUnsound d d.img.run with img := { (rejectUnsound d d.img.run).img with noCandidate := true } }

/-- SAFE_HOLD: no candidate passes at a management start (R461). -/
def safeHold (d : Dev) : Dev :=
  if d.plane.mgmtRunning = false ∧ d.img.start.isNone = true ∧ d.img.noCandidate = true ∧ d.img.safeHold = false
      ∧ (d.pow.phase = .image ∨ d.pow.phase = .up) then
    Dev.raise { d with img := { d.img with safeHold := true, last := 6 } } 0x0E07 0 0
  else d

/-- A turn boundary passes for the update: a boundary without a heartbeat breaks a trial's count, and the Firebox image's
confirmation counts (R457, R460). `beat` says that the ended turn had a heartbeat. -/
def imageTurn (beat : Bool) (d : Dev) : Dev :=
  let missed := d.inTrial && !beat && !d.img.noBeat
  { d with img := { d.img with
    confirm := if missed then 0 else d.img.confirm
    missedBeat := d.img.missedBeat || missed
    fbConfirm := d.img.fbConfirm.map fun n => min 250 (n + 1) } }

/-! ### IMG_STATUS and the update record (R463, R464) -/

/-- Code of the greenware state (Table 17.6). -/
def greenCode (d : Dev) : Nat :=
  match d.roleSlot .greenware with
  | none => 0
  | some s => if d.taking then 3 else if (d.imgSlot s).complete then 2 else 1

/-- The lowest missing sherd, 0xFFFF if none. -/
def firstMissing (s : ImgSlot) : Nat :=
  ((List.range (if s.hasHead then s.total else 4096)).find? fun k => (s.sherd k).isNone).getD 0xFFFF

/-- IMG_STATUS (Table 17.6). -/
def imgStatus (d : Dev) : List Byte :=
  let g := d.roleSlot .greenware
  let gt := match g with | some s => some s | none => d.roleSlot .trial
  let gs := match g with | some s => d.imgSlot s | none => {}
  let ts := match gt with | some s => d.imgSlot s | none => {}
  let prev := d.roleSlot .previous
  let cold := match d.greenReady with | some s => !wouldHandOver d s | none => false
  let pair := match d.greenReady with
    | some s => !(pairsBank d (d.imgSlot s) d.img.fbRun && pairsWith (d.imgSlot s).head ((d.imgSlot s).field 24 4)) | none => false
  let erased := match d.sherdSlot with | some s => (d.imgSlot s).erased | none => false
  let run := d.runSlot
  [0x01, BitVec.ofNat 8 (greenCode d),
   BitVec.ofNat 8 (b2n d.inTrial + b2n d.img.safeHold * 2 + b2n d.rollbackTarget.isSome * 4 + b2n erased * 8 + b2n cold * 16
     + b2n pair * 32),
   BitVec.ofNat 8 ((d.roleSlot .active).getD 3 + prev.getD 3 * 4 + gt.getD 3 * 16 + d.img.fbRun * 64)] ++
    leBytes 8 (ts.field 12 8) ++ leBytes 2 gs.total ++ leBytes 2 (if g.isSome then gs.missing else 4096) ++
    leBytes 2 (if g.isSome then firstMissing gs else 0) ++ leBytes 2 d.img.authFails ++ leBytes 4 (gs.field 20 4) ++
    leBytes 4 (gs.field 24 4) ++ leBytes 4 (run.field 20 4) ++ leBytes 4 (d.fbVersion d.img.fbRun) ++
    leBytes 4 (match prev with | some s => (d.imgSlot s).field 20 4 | none => 0) ++ leBytes 2 (run.field 56 2) ++
    [BitVec.ofNat 8 d.img.last, BitVec.ofNat 8 d.img.trialStarts] ++ leBytes 2 d.img.confirm ++ leBytes 6 d.img.lastTurn.toNat ++ zeros 12

/-- Codes of the roles (R464). -/
def SlotRole.code : SlotRole → Nat
  | .free => 0 | .greenware => 1 | .trial => 2 | .active => 3 | .previous => 4 | .rejected => 5

/-- The received-sherd bitmap: 512 bytes. -/
def sherdBitmap (s : ImgSlot) : List Byte :=
  (List.range 512).map fun b =>
    BitVec.ofNat 8 ((s.sherds.filter fun p => p.1 / 8 == b).foldl (fun n p => n + 2 ^ (p.1 % 8)) 0)

/-- The 576-byte update record (R464). -/
def updateRecord (d : Dev) : List Byte :=
  let s := match d.roleSlot .greenware with
    | some s => d.imgSlot s
    | none => match d.roleSlot .trial with | some s => d.imgSlot s | none => {}
  let tail := leBytes 8 (s.field 12 8) ++ leBytes 2 s.total ++ leBytes 2 s.msherds ++ zeros 44 ++ sherdBitmap s
  [0x01] ++ ((List.range 3).map fun i => BitVec.ofNat 8 (d.imgSlot i).role.code) ++
    [BitVec.ofNat 8 (b2n s.verified + b2n (d.fbBank 0).good * 2 + b2n (d.fbBank 1).good * 4 + d.img.fbRun * 8),
     BitVec.ofNat 8 d.img.trialStarts] ++ leBytes 2 (crc16 tail) ++ tail

/-! ### Commands of this chapter -/

/-- SHERD_WRITE_DONE. -/
def execSherdWriteDone (ok : Bool) (s : State) : Out := s.onDev fun _ d => sherdWriteDone ok d
/-- SLOT_ERASE_DONE. -/
def execSlotEraseDone (slot : Nat) (s : State) : Out := s.onDevAt 3 slot fun _ d => slotEraseDone slot d
/-- HANDOVER_COPY_DONE. -/
def execHandoverCopyDone (tick : Nat) (s : State) : Out := s.onDev fun _ d => copyDone tick d
/-- HANDOVER_HOLD_COMMANDS. -/
def execHandoverHoldCommands (s : State) : Out := s.onDev fun _ d => holdCommands d
/-- HANDOVER_BOUNDARY. -/
def execHandoverBoundary (s : State) : Out := s.onDev fun _ d => handoverBoundary d
/-- NEW_IMAGE_START. -/
def execNewImageStart (recordsOk : Bool) (s : State) : Out := s.onDev fun _ d => newImageStart recordsOk d
/-- FIREBOX_IMAGE_SWITCH. -/
def execFireboxImageSwitch (s : State) : Out := s.onDev fun _ d => fireboxSwitch d
/-- FIREBOX_SELF_REVERT. -/
def execFireboxSelfRevert (s : State) : Out := s.onDev fun _ d => fireboxRevert d
/-- IMAGE_CONFIRMED. -/
def execImageConfirmed (firebox : Bool) (s : State) : Out := s.onDev fun _ d => imageConfirmed firebox d
/-- FAILED_BOOT. -/
def execFailedBoot (s : State) : Out := s.onDev fun _ d => failedBoot d

end Sys2Proof.Machine
end

