-- ==== Sys2Proof/Machine/TwoWire.lean ====
section
/-! DEFINITION. The two-wire ports (spec 18): modules on Port A, the mailboxes, attention, timeouts and bus errors; and the
commands of other chapters that request attention. -/

namespace Sys2Proof.Machine

/-! ### Counters (Table 18.14) -/

/-- Count in TWB_STATUS at a byte offset. -/
def Dev.twbCount (d : Dev) (off : Nat) : Dev :=
  let d := match off with
    | 4 => d.tally 45 1 1 | 8 => d.tally 45 3 1 | 10 => d.tally 45 4 1
    | 18 => d.tally 46 2 1 | 20 => d.tally 46 3 1 | 24 => d.tally 46 4 1 | _ => d
  { d with twb := { d.twb with counts := tmod 0 d.twb.counts off fun n => satAdd 16 n 1 } }

/-! ### Modules (R472 to R479) -/

/-- The live set of schema version 3. -/
def Dev.modSet (d : Dev) : Option Nat := (d.liveIndices tSource).find? fun n => (d.slot tSource n).schema == 3
/-- Word `w` of MODBUS_BANK in a bank's words. -/
def mbWord (bw : List Word) (w : Nat) : Word := word bw (136 + w)
/-- Word `w` of the active MODBUS_BANK of set `n`. -/
def Dev.mb (d : Dev) (n w : Nat) : Word := (d.slot tSource n).bankW (136 + w)
/-- COUNT of input `x`. -/
def Dev.modCount (d : Dev) (n x : Nat) : Nat := bits (d.mb n 4) (16 + 4 * x) 4
/-- The module at an address. -/
def Dev.module_ (d : Dev) (a : Nat) : Module := tget {} d.twb.mods a
/-- Change a module. -/
def Dev.modMod (d : Dev) (a : Nat) (f : Module → Module) : Dev :=
  { d with twb := { d.twb with mods := tmod {} d.twb.mods a f } }
/-- Input and number of an address (R472). -/
def modInput (a : Nat) : Nat × Nat := ((a - 0x40) / 8 % 4, (a - 0x40) % 8)
/-- The set whose active COUNTs include an address. -/
def Dev.setOfModule (d : Dev) (a : Nat) : Option Nat :=
  d.modSet.filter fun n => decide (0x40 ≤ a) && decide (a < 0x60) && decide ((modInput a).2 < d.modCount n (modInput a).1)
/-- The addresses of the active COUNTs. -/
def Dev.modAddrs (d : Dev) : List Nat := ((List.range 32).map (0x40 + ·)).filter fun a => (d.setOfModule a).isSome
/-- Whether the input of an address is written (WRITE = 1). -/
def Dev.modWrites (d : Dev) (n a : Nat) : Bool := bit (d.mb n (modInput a).1) 25

/-- MODBUS_BANK of a bank, with SRC_BANK's window, the members and the device's strap address (R474). -/
def modBankOk (addr : Nat) (ws bw : List Word) : Bool :=
  let count (x : Nat) := bits (mbWord bw 4) (16 + 4 * x) 4
  (List.range 4).all (fun x => decide (count x ≤ 8) && (count x == 0 || sfMember ws x)) &&
  (List.range 4).all (fun x =>
    let v := bits (mbWord bw x) 0 16
    v == 0 || (decide (field bw 0 0 16 ≤ v) && decide (v ≤ field bw 0 16 16))) &&
  !(bit (mbWord bw 5) 3 && bits (mbWord bw 5) 0 3 == addr)

/-- The ranges and reserved bits of MODBUS_BANK (Table 18.3), checked where a block is checked (R549). -/
def modReservedOk (bw : List Word) : Bool :=
  (List.range 4).all (fun x => bits (mbWord bw x) 26 6 == 0) && decide (1 ≤ bits (mbWord bw 4) 0 16) &&
    bits (mbWord bw 5) 4 28 == 0 && mbWord bw 6 == 0 && mbWord bw 7 == 0

/-- A quantity times 2^e, in units of 1 / `unit`, as an integer. -/
def scale2 (v : Int) (e : Int) (unit : Nat) : Int :=
  if 0 ≤ e then v * unit * 2 ^ e.toNat else roundOpen (v * unit) (2 ^ (-e).toNat)
/-- A LINEAR11 word in units of 1 / `unit`. -/
def linear11 (w unit : Nat) : Int := scale2 (sx 11 (bitsN w 0 11)) (sx 5 (bitsN w 11 5)) unit
/-- VOUT_COMMAND of a set voltage in 10 mV (R477). -/
def voutCommand (v : Nat) (e : Int) : Nat :=
  (if 0 ≤ e then roundHalfUp v (100 * 2 ^ e.toNat) else roundHalfUp (v * 2 ^ (-e).toNat) 100).toNat % 65536
/-- VOUT_DROOP of a droop in 0.1 mV/A: the finest exponent that keeps the mantissa within 1,023 (R477). -/
def droopWord (v : Nat) : Nat :=
  let mant (e : Int) : Int := if 0 ≤ e then roundHalfUp v (10 * 2 ^ e.toNat) else roundHalfUp (v * 2 ^ (-e).toNat) 10
  let e := (((List.range 32).map (fun (k : Nat) => Int.ofNat k - 16)).find? (fun e => decide (mant e ≤ 1023))).getD 15
  twos 5 e * 2048 + twos 11 (mant e)

/-- A STATUS_WORD that changes from 0 to nonzero is reported (R478). -/
def statusChanges (n a status : Nat) (d : Dev) : Dev :=
  if (d.module_ a).status = 0 ∧ status % 65536 ≠ 0 then
    d.raiseOnceRound (0x1007 * 256 + a) 0x1007 (a + status / 256 % 256 * 256) (d.srcHandle n)
  else d

/-- The bytes of a write transaction, with the PEC over address and bytes (R475). -/
def Dev.sendTo (d : Dev) (a : Nat) (bs : List Byte) : Dev :=
  { d with twb := { d.twb with sends := d.twb.sends ++ [(a, bs ++ [BitVec.ofNat 8 (crc8 (BitVec.ofNat 8 (2 * a) :: bs))])] } }

/-- CLEAR bit 2 of a set of version 3: CLEAR_FAULTS to every PRESENT module (R478). -/
def clearFaults (n : Nat) (d : Dev) : Dev :=
  if d.modSet = some n then
    d.modAddrs.foldl (fun d a => if (d.module_ a).present then d.sendTo a [0x03] else d) d
  else d

/-- MODULE_DISCOVERY of one address, while the firmware runs: `mode` and `status` are the replies, none where one is not valid (R476). -/
def moduleDiscovery (a : Nat) (reply : Option (Nat × Nat)) (d : Dev) : Dev :=
  match (if d.plane.mgmtRunning then d.setOfModule a else none), reply with
  | some n, some (mode, status) =>
    let found := !(d.module_ a).present
    let d := if found then d else statusChanges n a status d
    let d := d.modMod a fun m =>
      { m with present := true, lost := false, streak := if found then 0 else m.streak, vmode := bitsN mode 5 3 != 0
               exp := sx 5 (bitsN mode 0 5), status := status % 65536, pend := d.modWrites n a && bitsN mode 5 3 == 0 }
    if found then d.raise 0x1004 a (d.srcHandle n) else d
  | _, _ => d

/-- A failed poll cycle of a module (R476). -/
def pollFails (n a : Nat) (d : Dev) : Dev :=
  let d := (d.twbCount 26).modMod a fun m => { m with lastFailed := true, streak := m.streak + 1, fails := satAdd 16 m.fails 1 }
  if 3 ≤ (d.module_ a).streak then
    (d.modMod a fun m => { m with present := false, lost := true, streak := 0 }).raise 0x1005 a (d.srcHandle n)
  else d

/-- A write was refused or not read back equal (R477). -/
def writeFails (n a cmd : Nat) (d : Dev) : Dev :=
  (d.modMod a fun m => { m with pend := true }).raiseOnceTurn (0x1006 * 256 + a) 0x1006 (a + cmd % 256 * 256) (d.srcHandle n)

/-- What a poll reads back of a written module: a value other than the one written is written again, and is reported where
no poll has read that write back yet (R477). -/
def pollReadBack (n a : Nat) (r : PollReads) (d : Dev) : Dev :=
  let m := d.module_ a
  let differs (w : Option Nat) (v : Nat) : Bool := w.isSome && w != some v
  let wrong := if differs m.opWritten (r.op % 256) then some 0x01 else if differs m.voutWritten (r.vcmd % 65536) then some 0x21 else none
  if m.pend then d
  else match wrong with
    | none => d.modMod a fun m => { m with proved := true }
    | some c => if m.proved then d.modMod a fun m => { m with pend := true } else writeFails n a c d

/-- The poll of one module: failed where a transaction was abandoned, NACKed or failed PEC (R476). -/
def pollModule (n a : Nat) (r : Option PollReads) (d : Dev) : Dev :=
  let m := d.module_ a
  if !m.present then d
  else match (if d.twb.abandoned.contains a then none else r) with
    | none => pollFails n a d
    | some r =>
      let d := statusChanges n a r.status d
      let d := d.modMod a fun m =>
        { m with
          status := r.status % 65536, vin := fitU 16 (linear11 r.vin 100), vOut := fitU 16 (scale2 (r.vOut % 65536 : Nat) m.exp 100)
          iOut := fitS 16 (linear11 r.iOut 100), temp := fitS 16 (linear11 r.temp 128), age := 0, streak := 0, lastFailed := false }
      if d.modWrites n a && !m.vmode then pollReadBack n a r d else d

/-- Whether a poll cycle is due: none was made yet, or POLL turns have ended since the last one (R476). -/
def Dev.pollDue (d : Dev) (n : Nat) : Bool := d.twb.pollTurn == 0 || decide (bits (d.mb n 4) 0 16 ≤ d.twb.sincePoll)

/-- MODULE_POLL_CYCLE, while the firmware runs: the modules polled, none where a transaction failed, and the peer's status
frame (R476, R481). -/
def pollCycle (polls : List (Nat × Option PollReads)) (peer : Bool) (d : Dev) : Dev :=
  match d.modSet.filter fun n => d.plane.mgmtRunning && d.pollDue n with
  | none => d
  | some n =>
    let d := polls.foldl (fun d p => if (d.setOfModule p.1).isSome then pollModule n p.1 p.2 d else d) d
    let peerOk := peer && !d.twb.abandoned.contains (0x70 + bits (d.mb n 5) 0 3)
    let d := { d with twb := { d.twb with pollTurn := d.wheel.turn, sincePoll := 0, arbRun := 0, busErrRun := 0, abandoned := [] } }
    if !bit (d.mb n 5) 3 then d
    else if peerOk then
      let was := d.twb.peerLost
      let d := { d with twb := { d.twb with peerStreak := 0, peerLost := false } }
      if was then d.raise 0x1008 0 0 else d
    else
      let d := { d with twb := { d.twb with peerStreak := d.twb.peerStreak + 1 } }
      if 3 ≤ d.twb.peerStreak && !d.twb.peerLost then Dev.raise { d with twb := { d.twb with peerLost := true } } 0x1008 1 0 else d

/-- MODULE_WRITE: VOUT_COMMAND, VOUT_DROOP and OPERATION are written in that order; `nack` names a command that was not
acknowledged, at which the write stops. -/
def moduleWrite (a : Nat) (nack : Option Nat) (d : Dev) : Dev :=
  match d.setOfModule a with
  | none => d
  | some n =>
    let m := d.module_ a
    if m.present && !m.vmode && d.modWrites n a && m.pend && d.plane.mgmtRunning then
      let w := d.mb n (modInput a).1
      let v := bits w 0 16
      let vout := voutCommand v m.exp
      let droop := droopWord (bits w 16 8)
      let op := if bit w 24 then 0x80 else 0
      let sendVout (d : Dev) : Dev :=
        if v = 0 then d.modMod a fun m => { m with voutWritten := none }
        else (d.sendTo a (0x21 :: leBytes 2 vout)).modMod a fun m => { m with voutWritten := some vout }
      let sendDroop (d : Dev) : Dev :=
        (d.sendTo a (0x28 :: leBytes 2 droop)).modMod a fun m => { m with droopWritten := some droop }
      let sendOp (d : Dev) : Dev :=
        (d.sendTo a [0x01, BitVec.ofNat 8 op]).modMod a fun m => { m with opWritten := some op, pend := false, proved := false }
      match nack with
      | none => sendOp (sendDroop (sendVout d))
      | some c => writeFails n a c (if c = 0x21 then d else if c = 0x28 then sendVout d else sendDroop (sendVout d))
    else d

/-- Addresses outside the active COUNTs hold no module (R476). -/
def modPrune (d : Dev) : Dev :=
  { d with twb := { d.twb with mods := d.twb.mods.filter fun p => (d.setOfModule p.1).isSome } }

/-- A bank of the set takes effect: the modules of written inputs are written (R477). -/
def modBankTaken (n : Nat) (d : Dev) : Dev :=
  if d.modSet = some n then
    let d := modPrune d
    d.modAddrs.foldl (fun d a => if d.modWrites n a then d.modMod a fun m => { m with pend := m.present && !m.vmode } else d) d
  else d

/-- A turn ends: ages count on. -/
def modTurn (d : Dev) : Dev :=
  { d with twb := { d.twb with
    mods := tmapAll {} d.twb.mods fun _ m => { m with age := satAdd 16 m.age 1 }, sincePoll := d.twb.sincePoll + 1 } }

/-- MOD_TELEM (Table 18.5). -/
def modTelem (d : Dev) : List Byte :=
  let as := d.modAddrs
  [0x01, BitVec.ofNat 8 as.length] ++ leBytes 6 d.twb.pollTurn.toNat ++ as.flatMap fun a =>
    let m := d.module_ a
    [BitVec.ofNat 8 a, BitVec.ofNat 8 (b2n m.present + b2n m.lost * 2 + b2n m.vmode * 4 + b2n m.pend * 8 + b2n m.lastFailed * 16)] ++
      leBytes 2 m.status ++ leBytes 2 m.vin ++ leBytes 2 m.vOut ++ leBytes 2 m.iOut ++ leBytes 2 m.temp ++ leBytes 2 m.age ++
      leBytes 2 m.fails

/-! ### Mailboxes (R480, R482 to R486) -/

/-- A write transaction to Port B's mailbox is counted (Table 19.1). -/
def boxWrite (peer : Bool) (d : Dev) : Dev := if peer then d else d.tally 46 0 1

/-- A frame error is recorded and counted (R486). -/
def frameError (peer : Bool) (code : Nat) (d : Dev) : Dev :=
  let d := (d.modBox peer fun b => { b with lastErr := code, errs := satAdd 8 b.errs 1 }).twbCount (if peer then 16 else 18)
  d.raiseOnceTurn (0x1003 * 2 + b2n peer) 0x1003 (b2n (!peer) + code * 256) 0

/-- SYS_ID (Table 0.2). -/
def sysId : Nat := 0x00B00960 + (if Config.gradeXa then 2 ^ 24 else 0)

/-- Codes of the mailbox states. -/
def MboxState.code : MboxState → Nat
  | .empty => 0 | .executing => 1 | .response => 2

/-- The status frame (Table 18.9). -/
def statusFrame (d : Dev) (peer : Bool) : List Byte :=
  let b := d.twb.box peer
  mboxFrame 0x82 (leBytes 4 sysId ++
    [BitVec.ofNat 8 (b.st.code + b2n d.plane.mgmtRunning * 4 + b2n d.img.safeHold * 8), BitVec.ofNat 8 b.lastErr,
     b.attn.setWidth 8, BitVec.ofNat 8 b.errs] ++ leBytes 4 d.wheel.turn.toNat)

/-- Bytes of a frame, 0xFF past its end. -/
def readBytes (frame : List Byte) (pos count : Nat) : List Byte :=
  (List.range count).map fun i => frame.getD (pos + i) 0xFF

/-- MBOX_READ: the controller starts a read of `count` bytes: the pending response, else a status frame (R485, R487). -/
def mboxRead (peer : Bool) (count : Nat) (d : Dev) : Dev :=
  let b := d.twb.box peer
  let d := if peer then d else Dev.tally { d with twb := { d.twb with alert := false } } 46 1 1
  if b.st = .response then
    let left := b.resp.length - b.pos
    let d := { d with twb := { d.twb with read := readBytes b.resp b.pos count } }
    let d := if left ≤ count then d.modBox peer fun b => { b with st := .empty, resp := [], pos := 0 }
      else d.modBox peer fun b => { b with pos := b.pos + count }
    if left < count then frameError peer 7 d else d
  else
    let f := statusFrame d peer
    let d := { d with twb := { d.twb with read := readBytes f 0 count } }
    let d := d.modBox peer fun b => { b with attn := 0, errs := 0 }
    if f.length < count then frameError peer 7 d else d

/-- MBOX_REREAD: the next read begins the pending response again. -/
def mboxReread (peer : Bool) (d : Dev) : Dev := d.modBox peer fun b => { b with pos := 0 }

/-- MBOX_DISCARD: the pending response is dropped. -/
def mboxDiscard (peer : Bool) (d : Dev) : Dev :=
  d.modBox peer fun b => if b.st = .response then { b with st := .empty, resp := [], pos := 0 } else b

/-- The error of a frame by the bytes that were acknowledged (Table 18.10): a COMMAND's OP byte is refused while the mailbox is
not EMPTY (R484), then the length, the CRC, the OP and the size of its payload. -/
def frameCode (st : MboxState) (bs : List Byte) : Option Nat :=
  let len := byteField bs 0 2
  let op := byteField bs 2 1
  if 3 ≤ bs.length ∧ op = 1 ∧ st ≠ .empty then some 4
  else if len = 0 ∨ 1217 < len ∨ bs.length < 3 + len then some 2
  else if crc8 (bs.take (2 + len)) ≠ byteField bs (2 + len) 1 then some 1
  else if (op = 1 ∧ 65 ≤ len) ∨ ((op = 2 ∨ op = 3) ∧ len = 1) then none
  else some 3

/-- MBOX_FRAME_ERROR: a transaction that breaks a rule of Table 18.10; one that does not is another row's. -/
def mboxFault (peer : Bool) (f : FrameFault) (d : Dev) : Dev :=
  match f with
  | .timeout => frameError peer 5 (boxWrite peer d)
  | .abort => frameError peer 6 (boxWrite peer d)
  | .bytes bs => match frameCode (d.twb.box peer).st bs with
    | some code => frameError peer code (boxWrite peer d)
    | none => d

/-! ### Attention (R487, R488) -/

/-- ALERT_RESPONSE_READ: answered while TWB_ALERT_N is asserted. -/
def alertResponse (d : Dev) : Dev :=
  if d.twb.alert then
    ({ d with twb := { d.twb with alert := false, read := [BitVec.ofNat 8 (0xB0 + 2 * d.pow.strapAddr)] } } : Dev).twbCount 24
  else d

/-- ATTENTION_PULSE: at most one in 10 ms. -/
def attentionPulse (time : Nat) (d : Dev) : Dev :=
  let d := { d with now := max d.now time }
  let free := match d.twb.lastPulse with | some t => decide (t + 1000000 ≤ d.now) | none => true
  if d.twb.pulseDue && free then
    ({ d with twb := { d.twb with pulseDue := false, lastPulse := some d.now } } : Dev).twbCount 20
  else d

/-- ATTENTION_PULSE_COLLISION: the pulse is cut short and sent again once the bus is idle. -/
def pulseCollision (d : Dev) : Dev :=
  if d.twb.pulseDue then ({ d with twb := { d.twb with lastPulse := none } } : Dev).twbCount 22 else d

/-! ### Timeouts and bus errors (R469 to R471, R489) -/

/-- Port A's transaction to an address is abandoned: the poll cycle it belongs to fails (R470, R471, R489). -/
def abandon (a : Nat) (d : Dev) : Dev :=
  { d with twb := { d.twb with arbRun := 0, busErrRun := 0
                               abandoned := if d.twb.abandoned.contains a then d.twb.abandoned else d.twb.abandoned ++ [a] } }

/-- Losses and errors in succession belong to one transaction: another address begins another one. -/
def onTransaction (a : Nat) (d : Dev) : Dev :=
  if d.twb.running = a then d else { d with twb := { d.twb with running := a, arbRun := 0, busErrRun := 0 } }

/-- TWO_WIRE_TIMEOUT: as a target, the partial frame is abandoned and recorded; as Port A's controller, the transaction to
`a` is abandoned. -/
def twbTimeout (peer controller : Bool) (a : Nat) (d : Dev) : Dev :=
  let d := d.twbCount (if peer then 12 else 14)
  let d := d.raiseOnceTurn (0x1002 * 2 + b2n peer) 0x1002 (b2n (!peer)) 0
  if controller && peer then abandon a d else frameError peer 5 d

/-- TWO_WIRE_ABORT: a repeated START or STOP in an acknowledge slot; a controller retries once. -/
def twbAbort (peer controller : Bool) (a : Nat) (d : Dev) : Dev :=
  if controller && peer then
    let d := onTransaction a (d.twbCount 8)
    if d.twb.busErrRun = 0 then { d with twb := { d.twb with busErrRun := 1 } } else abandon a d
  else frameError peer 6 d

/-- BUS_STUCK_CLEAR: where SDA stays low the transaction counts as failed. -/
def busClear (cleared : Bool) (a : Nat) (d : Dev) : Dev :=
  let d := (d.twbCount 10).raiseOnceTurn 0x1001 0x1001 (b2n cleared) 0
  if cleared then d else abandon a d

/-- ARBITRATION_LOST: `served` says that the complete address byte names this device, which serves the transaction; the
eighth loss in succession abandons its own. -/
def arbitrationLost (served : Bool) (a : Nat) (d : Dev) : Dev :=
  let d := onTransaction a (d.twbCount 4)
  let d := if served then d.twbCount 6 else d
  if 7 ≤ d.twb.arbRun then abandon a d else { d with twb := { d.twb with arbRun := d.twb.arbRun + 1 } }

/-- TWB_STATUS (Table 18.14). -/
def twbStatus (d : Dev) : List Byte :=
  [0x01, BitVec.ofNat 8 (d.pow.straps.toNat % 32), BitVec.ofNat 8 d.twb.boxB.st.code,
   BitVec.ofNat 8 d.twb.boxA.st.code] ++ ((List.range 12).flatMap fun i => leBytes 2 (tget 0 d.twb.counts (4 + 2 * i))) ++ zeros 4

/-! ### Commands of other chapters that request attention -/

/-- FAULTN_LOW. -/
def execFaultnLow (time : Nat) (s : State) : Out :=
  s.onDev fun _ d =>
    let was := d.seq.fn.low
    let d := faultnLow (d.faultSources d.srcStuckSource != 0) time d
    if was then d else d.attend 1

/-- Attention where the Sitter has changed. -/
def noteSitter (was : Bool) (d : Dev) : Dev := if d.sitter = was then d else d.attend 2

/-- The Sitter has tripped: what the other chapters let it stop (R376). -/
def execConeConfirm (sensor cone tick : Nat) (s : State) : Out :=
  s.onDevAt 20 sensor fun _ d => d.atTick tick fun d =>
    if cone < 3 then noteSitter d.sitter (coneConfirm sensor cone d) else d
/-- SITTER_RELEASE. -/
def execSitterRelease (s : State) : Out := s.onDev fun _ d => noteSitter d.sitter (sitterRelease d)

/-! ### Commands of this chapter -/

/-- MBOX_REREAD. -/
def execMboxReread (peer : Bool) (s : State) : Out := s.onDev fun _ d => mboxReread peer (boxWrite peer d)
/-- MBOX_DISCARD. -/
def execMboxDiscard (peer : Bool) (s : State) : Out := s.onDev fun _ d => mboxDiscard peer (boxWrite peer d)
/-- MBOX_FRAME_ERROR. -/
def execMboxFrameError (peer : Bool) (fault : FrameFault) (s : State) : Out := s.onDev fun _ d => mboxFault peer fault d
/-- MBOX_READ. -/
def execMboxRead (peer : Bool) (count : Nat) (s : State) : Out := s.onDev fun _ d => mboxRead peer count d
/-- ALERT_RESPONSE_READ. -/
def execAlertResponseRead (s : State) : Out := s.onDev fun _ d => alertResponse d
/-- ATTENTION_PULSE. -/
def execAttentionPulse (time : Nat) (s : State) : Out := s.onDev fun _ d => attentionPulse time d
/-- ATTENTION_PULSE_COLLISION. -/
def execAttentionPulseCollision (s : State) : Out := s.onDev fun _ d => pulseCollision d
/-- TWO_WIRE_TIMEOUT. -/
def execTwoWireTimeout (peer controller : Bool) (address : Nat) (s : State) : Out :=
  s.onDev fun _ d => twbTimeout peer controller address d
/-- TWO_WIRE_ABORT. -/
def execTwoWireAbort (peer controller : Bool) (address : Nat) (s : State) : Out :=
  s.onDev fun _ d => twbAbort peer controller address d
/-- BUS_STUCK_CLEAR. -/
def execBusStuckClear (cleared : Bool) (address : Nat) (s : State) : Out := s.onDev fun _ d => busClear cleared address d
/-- ARBITRATION_LOST. -/
def execArbitrationLost (served : Bool) (address : Nat) (s : State) : Out :=
  s.onDev fun _ d => arbitrationLost served address d
/-- MODULE_DISCOVERY. -/
def execModuleDiscovery (address : Nat) (reply : Option (Nat × Nat)) (s : State) : Out :=
  s.onDev fun _ d => moduleDiscovery address reply d
/-- MODULE_POLL_CYCLE. -/
def execModulePollCycle (polls : List (Nat × Option PollReads)) (peer : Bool) (s : State) : Out :=
  s.onDev fun _ d => pollCycle polls peer d
/-- MODULE_WRITE. -/
def execModuleWrite (address : Nat) (nack : Option Nat) (s : State) : Out := s.onDev fun _ d => moduleWrite address nack d

end Sys2Proof.Machine
end

