-- ==== Sys2Proof/Machine/Tally.lean ====
section
/-! DEFINITION. Tallies (spec 19): the counts of the 49 blocks, gathering and latching, the fallback sets and the random
sampler. A counter whose events no command shows advances by a free value each turn (log entry 25). -/

namespace Sys2Proof.Machine

/-! ### Totals (R493 to R496) -/

/-- What the registers and queues of a unit count for its block (Table 19.1). -/
def Dev.talHeld (d : Dev) (b c : Nat) : Nat :=
  match b, c with
    | 32, 3 => d.host.dma.length
    | 32, 7 => d.host.msgs.length
    | 34, 2 => d.sram.corrected.toNat
    | 34, 3 => d.sram.miscorrect
    | 34, 4 => d.sram.rebuilt
    | 34, 5 => d.sram.poisonCount
    | 44, 1 => d.seq.fn.edges.toNat
    | 48, 0 => d.sag.handleFences
    | 48, 1 => d.sag.fences
    | 35, 0 => (d.port 0).rx.toNat
    | 35, 1 => (d.port 0).tx.toNat
    | 35, 4 => (d.port 0).discarded
    | 36, 0 => (d.port 1).rx.toNat
    | 36, 1 => (d.port 1).tx.toNat
    | 36, 4 => (d.port 1).discarded
    | _, _ => 0

/-- The events that a block's counter has counted (Table 19.1). FRONT is what the other classes leave of the lane's ungated
cycles (R496). -/
def Dev.talTotal (d : Dev) (b c : Nat) : Nat :=
  if b < 8 ∧ c = 2 then
    4 * d.laneTime b - ([0, 1, 3, 4, 5].map fun k => tget 0 d.tal.total (b * 8 + k)).foldl (· + ·) 0
  else tget 0 d.tal.total (b * 8 + c) + d.talHeld b c

/-- A table with one entry for each of the 392 counters. -/
def talTable (f : Nat → Nat → Nat) : List (Nat × Nat) :=
  (List.range 392).foldl (fun t k => tset 0 t k (f (k / 8) (k % 8))) []

/-- Every block counter is zeroed: the round strobe and a device reset (R494). -/
def talZero (d : Dev) : Dev := { d with tal := { d.tal with base := talTable d.talTotal } }

/-- The tallies over a reset of the Hearth, from the device `d` before it: the block counters keep their counts (R494). -/
def talCarried (d x : Dev) : Dev :=
  { x with tal := { x.tal with
      base := d.tal.base, laneTime := d.tal.laneTime, laneOn := d.tal.laneOn
      total := talTable fun b c => tget 0 d.tal.total (b * 8 + c) + (d.talHeld b c - x.talHeld b c) } }

/-- A block's counter: since the last round boundary (R494). -/
def Dev.talCount (d : Dev) (b c : Nat) : Nat := d.talTotal b c - tget 0 d.tal.base (b * 8 + c)

/-- The counters whose events no command shows: converter BUSY, RUN_EDGES, FLITS, FULL, READS and WRITES, what the cores
do, PEAK_LIMITED, transactions and commands on wires, DEFAULTED. -/
def uncounted : List (Nat × Nat) :=
  ((List.range 12).map fun c => (8 + c, 7)) ++ ((List.range 8).map fun g => (22 + g, 6)) ++
    ((List.range 4).flatMap fun n => (List.range 7).map fun c => (37 + n, c)) ++
    [(30, 0), (31, 0), (32, 4), (34, 0), (34, 1), (43, 6), (45, 0), (45, 2), (45, 5), (47, 0), (47, 1), (48, 2)]

/-- A turn passes: the counters that no command shows advance by free values, and the turn's flags are gathered. -/
def tallyTurn (d : Dev) : Dev :=
  let d := uncounted.foldl (fun (d : Dev) bc =>
    let (n, d) := d.freeBits 26
    d.tally bc.1 bc.2 n) (laneSync d)
  { d with tal := { d.tal with coast := d.tal.coast || d.wheel.coastEnded, slew := d.tal.slew || d.wheel.slewEnded } }

/-! ### Gathering and latching (R497 to R500) -/

/-- The Tally reader's saggar is fenced. -/
def Dev.tallyFenced (d : Dev) : Bool := d.sag.fenced.contains 4

/-- The 49 entries: eight 6-byte counters each. -/
def tallyEntries (d : Dev) : List Byte :=
  (List.range 49).flatMap fun b => (List.range 8).flatMap fun c => leBytes 6 (d.talCount b c)

/-- The header of Table 19.2. -/
def tallyHeader (d : Dev) (coast slew part : Bool) (tick skew : Nat) : List Byte :=
  [0x01, BitVec.ofNat 8 (b2n coast + b2n slew * 2 + b2n part * 8), 49, BitVec.ofNat 8 d.plane.profile.gather] ++
    leBytes 6 d.wheel.turn.toNat ++ leBytes 2 tick ++ leBytes 2 skew ++ zeros 2

/-- TALLY_GATHER: in a turn that is a multiple of the profile's gather interval, from tick 12,288 (R497). -/
def tallyGather (d : Dev) : Dev :=
  if d.tallyFenced || d.wheel.turn.toNat % d.plane.profile.gather != 0 then d
  else
    let d := laneSync d
    let b := tallyHeader d (d.tal.coast || d.wheel.coastFlag) (d.tal.slew || d.wheel.slewFlag) false 12288 2400 ++ tallyEntries d
    { d with tal := { d.tal with gather := b } }

/-- The strobe of a round boundary: every counter is latched and zeroed; the reader publishes TALLY_ROUND (R498). -/
def tallyRound (d : Dev) : Dev :=
  let d := laneSync d
  let b := tallyHeader d d.tal.coast d.tal.slew d.tal.isPartial 0 0 ++ tallyEntries d
  let d := talZero d
  let t := { d.tal with coast := false, slew := false }
  if d.tallyFenced then { d with tal := t }
  else Dev.raise { d with tal := { t with round := b, isPartial := false } } 0x1101 49 0

/-- The block of selector 0x1100 or 0x1101; the last contents with DEFAULTED while the reader is fenced (R500). -/
def tallyBlock (d : Dev) (sel : Nat) : List Byte :=
  let b := if sel = 0x1100 then d.tal.gather else d.tal.round
  let b := if b.isEmpty then zeros 2368 else b
  if d.tallyFenced then splice b [BitVec.ofNat 8 (byteField b 1 1 ||| 4)] 1 else b

/-! ### Fallback sets (R501, R502) -/

/-- Set `k`. -/
def Dev.fbSet (d : Dev) (k : Nat) : FbSet := tget {} d.tal.fb k
/-- Change a set. -/
def Dev.modFb (d : Dev) (k : Nat) (f : FbSet → FbSet) : Dev := { d with tal := { d.tal with fb := tmod {} d.tal.fb k f } }

/-- The total of the event that a code of set `k` names; 0 for a code that the set does not accept (Table 19.8). -/
def fbTotal (d : Dev) (k code : Nat) : Nat :=
  if k < 4 then (if code < 16 then d.talTotal (2 * k + code / 8) (code % 8) else 0)
  else if 0x20 ≤ code ∧ code ≤ 0x26 then d.talTotal (33 + k) (code - 0x20) else 0

/-- The totals that a set's codes name now. -/
def fbMarks (d : Dev) (k : Nat) (sel : List Nat) : List Nat := sel.map (fbTotal d k)

/-- A set with everything up to now folded in. -/
def fbFolded (d : Dev) (k : Nat) : FbSet :=
  let s := d.fbSet k
  let marks := fbMarks d k s.sel
  if s.freeze then { s with since := d.now, mark := marks }
  else
    { s with
      cyc := (s.cyc + (d.now - s.since) * (if k < 4 then 4 else 16)) % 2 ^ 64, since := d.now, mark := marks
      cnt := (List.range 6).map fun j => (s.cnt.getD j 0 + (marks.getD j 0 - s.mark.getD j 0)) % 2 ^ 48 }

/-- A set folded, then changed. -/
def fbChange (k : Nat) (f : FbSet → FbSet) (d : Dev) : Dev :=
  let d := laneSync d
  let s := f (fbFolded d k)
  d.modFb k fun _ => { s with mark := fbMarks d k s.sel }

/-- What a host register read returns. -/
def Dev.readsAs (d : Dev) (v : Nat) : Dev := { d with host := { d.host with rdData := BitVec.ofNat 32 v } }

/-- A read of TALLY_FB_CYC_LO captures the high word. -/
def fbCycRead (k : Nat) (d : Dev) : Dev :=
  let d := fbChange k (fun s => { s with hi := BitVec.ofNat 32 (s.cyc / 2 ^ 32) }) d
  d.readsAs (d.fbSet k).cyc

/-- A read of TALLY_FB_CNT captures the high half. -/
def fbCntRead (k j : Nat) (d : Dev) : Dev :=
  let d := fbChange k (fun s => { s with cntHi := s.cntHi.set j (s.cnt.getD j 0 / 2 ^ 32) }) d
  d.readsAs ((d.fbSet k).cnt.getD j 0)

/-- CLEAR zeroes all seven counters. -/
def fbClear (k : Nat) (d : Dev) : Dev := fbChange k (fun s => { s with cyc := 0, cnt := [0, 0, 0, 0, 0, 0] }) d

/-- FREEZE holds all seven counters, or lets them count on. -/
def fbFreeze (k : Nat) (on : Bool) (d : Dev) : Dev := fbChange k (fun s => { s with freeze := on }) d

/-- New event codes: the counters keep their values. -/
def fbSelect (k : Nat) (sel : List Nat) (d : Dev) : Dev := fbChange k (fun s => { s with sel := sel }) d

/-! ### Random tagging (R503, R504) -/

/-- One step of the LFSR with polynomial x^24 + x^23 + x^22 + x^17 + 1 (log entry 26). -/
def lfsrStep (v : BitVec 24) : BitVec 24 :=
  let x := v.toNat
  let t := (bitsN x 23 1 + bitsN x 22 1 + bitsN x 21 1 + bitsN x 16 1) % 2
  BitVec.ofNat 24 (x * 2 + t)

/-- M of TALLY_TAG_CTL as it acts. -/
def Tally.m (t : Tally) : Nat := min 16 (max 8 t.tagM.toNat)

/-- One instruction issues on a lane: the LFSR steps, and a tagged instruction writes its entry. -/
def tagIssue (lane : Nat) (builtin cancelled : Bool) (handle : Word) (d : Dev) (i : Nat × Nat × Bool) : Dev :=
  if !d.tal.tagEn then d
  else
    let v := lfsrStep d.tal.lfsr
    let d := { d with tal := { d.tal with lfsr := v } }
    if v.toNat % 2 ^ d.tal.m != 0 || d.tal.tagFull then d
    else
      let (fetch, d) := d.freeBits 32
      let (deltas, d) := d.freeBits 31
      let e := leBytes 4 (i.1 % 4096 + lane * 2 ^ 12 + b2n i.2.2 * 2 ^ 15 + i.2.1 % 32 * 2 ^ 16 + b2n builtin * 2 ^ 21 +
        b2n cancelled * 2 ^ 22) ++ leBytes 4 handle.toNat ++ leBytes 4 fetch ++ leBytes 4 deltas
      let tags := d.tal.tags ++ [e]
      let d := Dev.tally { d with tal := { d.tal with tags := tags, tagFull := tags.length == 64 } } lane 7 1
      if tags.length = 64 then d.raise 0x1102 64 0 else d

/-- TALLY_TAG_CTL as it reads. -/
def tagCtl (t : Tally) : Nat := b2n t.tagEn + t.tagM.toNat * 2 + t.tags.length * 64 + b2n t.tagFull * 2 ^ 13

/-! ### Commands -/

/-- TALLY_GATHER. -/
def execTallyGather (s : State) : Out := s.onDev fun _ d => tallyGather d
/-- TALLY_FB_CYC_LO_READ. -/
def execTallyFbCycLoRead (set : Nat) (s : State) : Out := s.onHostAt 8 set fun _ d => fbCycRead set d
/-- TALLY_FB_CNT_READ. -/
def execTallyFbCntRead (set counter : Nat) (s : State) : Out :=
  if counter < 6 then s.onHostAt 8 set fun _ d => fbCntRead set counter d else .fault .noSuchInstance
/-- TALLY_FB_CLEAR. -/
def execTallyFbClear (set : Nat) (s : State) : Out := s.onHostAt 8 set fun _ d => fbClear set d
/-- TALLY_FB_FREEZE. -/
def execTallyFbFreeze (set : Nat) (freeze : Bool) (s : State) : Out := s.onHostAt 8 set fun _ d => fbFreeze set freeze d
/-- TALLY_TAG_CLEAR. -/
def execTallyTagClear (s : State) : Out := s.onHost fun _ d => { d with tal := { d.tal with tags := [], tagFull := false } }

end Sys2Proof.Machine
end

