-- ==== Sys2Proof/Machine/Startup.lean ====
section
/-! DEFINITION. Start-up, reset and clocking (spec 20), the Flue watch and the management watchdog (spec 01, R10, R19):
power-up, the resets and their scopes, clocks, locks, debug access, takeover and recovery. -/

namespace Sys2Proof.Machine

/-! ### Handles at a reset (R514) -/

/-- A slot is emptied: resources and run-time state go, and the slot issues generation 1 again (R75). -/
def dropSlot (d : Dev) (t i : Nat) : Dev :=
  let d := dropRuntime (releaseResources d (slotKey t i)) t i
  { d with slots := tdrop d.slots (slotKey t i) }

/-- What the Firebox still holds of an object after a Hearth reset; the others go at once (log entry 27). -/
def fireboxHolds (t : Nat) : Bool := [tRail, tFeed, tBranch, tSource, tSeq, tMon, tSensor].contains t

/-- The handle table is gone: objects on the Firebox stay until the takeover has ended, but their handles do not (R514). -/
def handlesGone (d : Dev) : Dev :=
  let keys := (d.slots.filter fun p => p.2.live && !fireboxHolds (p.1 / 4096)).map (·.1)
  let d := keys.foldl (fun d k => dropSlot d (k / 4096) (k % 4096)) d
  { d with slots := tmapAll {} d.slots fun _ s => if s.live then { s with ghost := true } else {} }

/-- The takeover's down orders and stops have ended (R10). -/
def Dev.chainEnded (d : Dev) : Bool :=
  d.plane.downRunning.isNone && d.plane.downOrders.isEmpty && d.plane.stopping.isNone && d.plane.stopList.isEmpty

/-- A sequence that is held after the takeover keeps its held element and its discharge on (R10). -/
def Dev.heldGhost (d : Dev) (key : Nat) : Bool :=
  let held := (d.liveIndices tSeq).filter fun q => (d.sq q).run == .held
  held.any fun q => key == slotKey tSeq q || (seqSteps (d.seqCfg q)).any fun st =>
    slotKey (hType (word st 1)) (hIndex (word st 1)) == key || slotKey (hType (word st 2)) (hIndex (word st 2)) == key

/-- What the Firebox held goes once the takeover's orders have ended. -/
def purgeGhosts (d : Dev) : Dev :=
  if d.plane.takeover && d.chainEnded then
    let keys := (d.slots.filter fun p => p.2.ghost && !d.heldGhost p.1).map (·.1)
    keys.foldl (fun d k => dropSlot d (k / 4096) (k % 4096)) d
  else d

/-! ### Resets (R506, R509, R514, R515) -/

/-- What is kept by a reset of the whole device: flash and Firebox program banks, the Kiln log store, retired SRAM banks,
the counters that run from power-on, and the comparators that show the outside. -/
def freshDev (d : Dev) : Dev :=
  { kiln := d.kiln, now := d.now, fresh := d.fresh
    img := { slots := d.img.slots, banks := d.img.banks, fbRun := d.img.fbRun, run := d.img.run, trialStarts := d.img.trialStarts }
    sram := { retired := d.sram.retired }
    pwm := { vdrvLow := d.pwm.vdrvLow }
    heat := { cones := tmapAll {} d.heat.cones fun _ c => { c with conf := 0 } }
    host := { dma := d.host.dma, msgs := d.host.msgs }
    tal := { fb := (List.range 8).map fun k => (k, { since := d.now }) } }

/-- FIREBOX_POR: everything but the non-volatile stores is reset; the Wheel restarts in FREE at turn 0 (R506). -/
def fireboxPor (d : Dev) : Dev :=
  talZero { freshDev d with pow := { por := true, pin := d.pow.pin, hearth := d.pow.hearth } }

/-- DEVICE_RESET: RESET_N resets the Firebox's logic and outputs and the Hearth; Wheel, turn and Kiln are kept (R514, R515),
and the straps are sampled as it ends (R511). -/
def deviceReset (straps : BitVec 7) (d : Dev) : Dev :=
  let x := freshDev d
  talZero { x with
    wheel := d.wheel, turnStart := d.turnStart, turnDur := d.turnDur, onceTurn := d.onceTurn, onceRound := d.onceRound
    sram := d.sram.kept, sag := d.sag.kept, lanes := { retries := d.lanes.retries }, strSeen := d.strSeen
    img := { x.img with authFails := d.img.authFails }, seq := { x.seq with fn := { x.seq.fn with edges := d.seq.fn.edges } }
    twb := { counts := d.twb.counts }
    host := { dma := d.host.dma, msgs := d.host.msgs, unselected := d.host.unselected }
    pow := { phase := if d.pow.phase == .rails then .rails else .supervisor, por := d.pow.por, pin := true, hearth := d.pow.hearth
             straps := straps, refOk := d.pow.refOk, refFail := d.pow.refFail, refReturn := d.pow.refReturn, pdLock := d.pow.pdLock } }

/-- HEARTH_SUPPLY_FAULT: the Hearth, its SRAM and the handles are reset; the Firebox runs, and the Hearth boots again from
step 4 (R509, R514). -/
def hearthReset (d : Dev) : Dev :=
  if d.pow.phase = .boot ∨ d.pow.phase = .image ∨ d.pow.phase = .up then
    let before := laneSync d
    let d := handlesGone (setReady false before)
    talCarried before { d with
      host := { dma := d.host.dma, msgs := d.host.msgs, unselected := d.host.unselected }, waits := [], thr := {}, sag := d.sag.kept, led := {}, net := {}
      lanes := { retired := d.lanes.retired, retries := d.lanes.retries }, sram := d.sram.kept
      wit := { commit := d.wit.commit, trigTurn := d.wit.trigTurn, trigTick := d.wit.trigTick, armed := d.wit.armed
               lastOk := d.wit.lastOk, ignored := d.wit.ignored }
      img := { d.img with start := none, writes := [], safeHold := false, noCandidate := false }
      twb := { counts := d.twb.counts, lastPulse := d.twb.lastPulse }
      tal := { fb := (List.range 8).map fun k => (k, { since := d.now }) }
      plane := { d.plane with
        profile := .glaze, profilePending := .glaze, profileChanging := false, wdArmed := false, wdCount := 0 }
      pow := { d.pow with phase := .supplies, hearth := true, coreLock := false, throwLock := false } }
  else d

/-! ### Power-up (R507, R508) -/

/-- FIREBOX_POR_RELEASE: the straps are sampled as the reset ends (R511). -/
def porRelease (straps : BitVec 7) (d : Dev) : Dev :=
  if d.pow.phase = .held then { d with pow := { d.pow with phase := .rails, straps := straps } } else d

/-- FIREBOX_RAILS_GOOD: the reference and the PD modulators run. -/
def railsGood (d : Dev) : Dev :=
  if d.pow.phase = .rails then { d with pow := { d.pow with phase := .supervisor, refOk := true, pdLock := true } } else d

/-- SUPERVISOR_CHECKED: the supervisor runs its last good bank, or the other one where the check fails; HK_EN is asserted. -/
def supervisorChecked (ok : Bool) (d : Dev) : Dev :=
  if d.pow.phase = .supervisor then
    { d with pow := { d.pow with phase := .supplies, hkEn := true }
             img := if ok then d.img else { d.img with fbRun := d.fbOther } }
  else d

/-- HK_SUPPLIES_GOOD: all six supplies are held in window, and the Hearth reset is released. -/
def suppliesGood (d : Dev) : Dev :=
  if d.pow.phase = .supplies ∧ d.pow.hkEn = true then { d with pow := { d.pow with phase := .boot, hkRun := 0 } } else d

/-- HK_START_FAIL: HK_EN is deasserted and the failure counted; the event waits until the Hearth can deliver it (R508). -/
def hkStartFail (d : Dev) : Dev :=
  if d.pow.phase = .supplies ∧ d.pow.hkEn = true then
    { d with pow := { d.pow with hkEn := false, hkRun := d.pow.hkRun + 1, hkFails := satAdd 8 d.pow.hkFails 1, hkReport := true } }
  else d

/-- HK_RETRY: after 1 s, or 10 s from the third consecutive failure. -/
def hkRetry (d : Dev) : Dev :=
  if d.pow.phase = .supplies ∧ d.pow.hkEn = false then { d with pow := { d.pow with hkEn := true } } else d

/-- BOOT_ROM_INIT_DONE: the PLLs are locked, the SRAM initialised, retired banks that pass their test return to service
(R400), the Flue trained; the boot ROM chooses the image. -/
def bootDone (sound : List Nat) (d : Dev) : Dev :=
  if d.pow.phase = .boot then
    let d := { d with
      pow := { d.pow with phase := .image, coreLock := true, throwLock := true }
      sram := if d.sram.untested then { d.sram with retired := d.sram.retired.filter fun b => !sound.contains b, untested := false }
        else d.sram
      plane := { d.plane with hearthRestarted := d.plane.takeover } }
    chooseImage d
  else d

/-! ### Clocks (R513) -/

/-- SYS_CLK_FAIL, once a turn. -/
def clkFail (detail : Nat) (d : Dev) : Dev := d.raiseOnceTurn 0x1201 0x1201 detail 0

/-- REF_CLOCK_LOSS: the PLLs run from the internal oscillator. -/
def refLoss (d : Dev) : Dev :=
  let d := { d with pow := { d.pow with refReturn := false } }
  if d.pow.refOk then clkFail 0 { d with pow := { d.pow with refOk := false, refFail := true } } else d

/-- REF_CLOCK_RESTORE: the reference has run for 10 ms; the return takes place at the next turn boundary. -/
def refRestore (d : Dev) : Dev :=
  if d.pow.refOk || d.pow.phase == .held || d.pow.phase == .rails then d else { d with pow := { d.pow with refReturn := true } }

/-- The return to the reference at a turn boundary. -/
def refTurn (d : Dev) : Dev :=
  if d.pow.refReturn then clkFail 8 { d with pow := { d.pow with refOk := true, refReturn := false } } else d

/-- Whether a PLL is locked: 1 core, 2 Throw, 3 PD. -/
def Power.locked (p : Power) (pll : Nat) : Bool := if pll = 1 then p.coreLock else if pll = 2 then p.throwLock else p.pdLock

/-- A PLL's lock bit. -/
def Power.setLock (p : Power) (pll : Nat) (on : Bool) : Power :=
  if pll = 1 then { p with coreLock := on } else if pll = 2 then { p with throwLock := on } else { p with pdLock := on }

/-- PLL_UNLOCK. -/
def pllUnlock (pll : Nat) (d : Dev) : Dev :=
  if d.pow.locked pll then
    clkFail pll { d with pow := { d.pow.setLock pll false with unlocks := satAdd 8 d.pow.unlocks 1 } }
  else d

/-- PLL_RELOCK. -/
def pllRelock (pll : Nat) (d : Dev) : Dev :=
  if d.pow.phase = .held ∨ d.pow.phase = .rails then d else { d with pow := d.pow.setLock pll true }

/-- PCIE_LINK_DOWN: a conventional reset of the host interface; `refclk` says whether PCIE_REFCLK is present. -/
def linkDown (refclk : Bool) (d : Dev) : Dev :=
  let d := hostInterfaceReset true d
  { d with pow := { d.pow with pcieRef := refclk } }

/-- LINK_TRAINING_DONE: from the end of step 5 and with PCIE_PERST_N high, at the highest rate and widest width that both
partners support (R545). -/
def linkTrained (maxSpeed maxWidth : BitVec 2) (perstN : Bool) (d : Dev) : Dev :=
  let d := { d with host := { d.host with perstN := perstN } }
  if perstN = true ∧ (d.pow.phase = .image ∨ d.pow.phase = .up) then
    { d with
      pow := { d.pow with pcieRef := true }
      host := { d.host with
        link := if d.host.link == .ready then .ready else .trained
        speed := BitVec.ofNat 2 (max 1 maxSpeed.toNat), width := BitVec.ofNat 2 (min 2 (max 1 maxWidth.toNat)) } }
  else d

/-- SYS_CLK as it reads. -/
def sysClk (d : Dev) : Nat :=
  b2n d.pow.refOk + b2n d.pow.refFail * 2 + b2n d.pow.coreLock * 4 + b2n d.pow.throwLock * 8 + b2n d.pow.pdLock * 16
    + b2n d.pow.pcieRef * 32 + d.pow.unlocks * 256

/-- SYS_RST as it reads. -/
def sysRst (d : Dev) : Nat :=
  b2n d.pow.por + b2n d.pow.pin * 2 + b2n d.pow.hearth * 4 + b2n d.pow.wdStart * 8 + d.img.last % 8 * 256 + d.pow.hkFails * 65536

/-! ### Debug access (R521, R522) -/

/-- An 80-byte debug token passes its checks. -/
def tokenOk (t : List Byte) : Bool :=
  t.length == 80 && byteField t 0 8 == Config.uid.toNat && decide (byteField t 8 4 < 8) && byteField t 12 4 == 0 &&
    Config.signatureOk (sha256 (t.take 16)) (t.drop 16)

/-- DEBUG_UNLOCK. -/
def debugUnlock (token : List Byte) (d : Dev) : Dev × Status :=
  if tokenOk token then
    let scope := byteField token 8 4
    (Dev.raise { d with pow := { d.pow with debug := true, scope := BitVec.ofNat 3 scope } } 0x1203 scope 0, .ok)
  else ({ d with pow := { d.pow with tokenFails := d.pow.tokenFails + 1 } }, .auth)

/-- Any RAIL, FEED, BRANCH or SOURCE_SET is ENABLED. -/
def Dev.anyDriving (d : Dev) : Bool :=
  [tRail, tFeed, tBranch, tSource].any fun t => (d.liveIndices t).any fun i => d.enabled t i

/-- The instruction in force: 0 BYPASS, 1 IDCODE, 2 EXTEST, 3 INTEST; BYPASS replaces a boundary scan while a handle drives. -/
def Dev.jtagRuns (d : Dev) : Nat := if 2 ≤ d.pow.jtag ∧ d.anyDriving = true then 0 else d.pow.jtag

/-- JTAG_INSTRUCTION_LOAD: IDCODE and BYPASS, and EXTEST and INTEST under a token whose scope has boundary scan. -/
def jtagLoad (code : Nat) (d : Dev) : Dev :=
  let scan := d.pow.debug && d.pow.scope.toNat % 2 == 1
  { d with pow := { d.pow with jtag := if code = 1 then 1 else if (code = 2 ∨ code = 3) ∧ scan = true then code else 0 } }

/-! ### The Flue watch and takeover (R10, R515) -/

/-- The waiting ENABLEs of elements end: the takeover stops what they wait for. -/
def abortEnables (d : Dev) : Dev :=
  d.endWaits (fun w => (w.kind == WaitKind.enable || w.kind == WaitKind.enableStart) &&
    [tRail, tFeed, tBranch].contains (hType w.handle)) fun w => plainCpl .aborted w.handle 0

/-- FLUE_TAKEOVER: FAULT_N is asserted, the records are written, and the down orders begin (R10); a management start is
abandoned (Table 17.5). -/
def flueTakeover (su : Setup) (d : Dev) : Dev :=
  let trained := d.pow.phase == .image || d.pow.phase == .up || d.pow.hearth
  if d.plane.takeover || !trained then d
  else
    let up := (d.liveIndices tRail).filter fun i => (d.rail i).run.running || (d.rail i).run == .faulted
    let d := { d with
      plane := { d.plane with takeover := true, hearthRestarted := false }
      img := { d.img with start := none, fbDue := none } }
    let d := up.foldl (fun d i => writeRailRecord d i 0x000A 0xFF (d.rail i).run) (abortEnables d)
    let d := (d.liveIndices tRail).foldl railTaken { d with thr := { d.thr with
      loops := tmapAll {} d.thr.loops fun _ r => { r with awaiting := [] } } }
    settle (startChain d su.flueSeq.toNat true stopOrder)

/-- FLUE_KEEPALIVE: a keep-alive of the Hearth arrives (counted, Table 19.1). -/
def flueKeepalive (d : Dev) : Dev := d.tally 31 3 1

/-- RECOVER: ends a takeover once the Hearth has restarted (R515, R548). -/
def recover (d : Dev) : Dev × Status :=
  if d.plane.takeover then
    if d.plane.hearthRestarted then
      let d := purgeGhosts d
      ({ d with plane := { d.plane with takeover := false, hearthRestarted := false } }, .ok)
    else (d, .fenced)
  else if d.sag.fenced.contains 9 then (d, .fenced)
  else (d, .state)

/-! ### The management watchdog (R19, R516) -/

/-- SYS_MGMT_WD.TURNS; 0 acts as 1. -/
def Setup.turns (su : Setup) : Nat := max 1 su.wdTurns.toNat

/-- MGMT_HEARTBEAT. -/
def mgmtHeartbeat (d : Dev) : Dev := if d.plane.mgmtRunning then wdRelease (heartbeat (d.tally 44 7 1)) else d

/-- MGMT_WATCHDOG_TIMEOUT: TURNS boundaries have passed without a heartbeat. In a takeover the down order of every live
sequence runs or has run already, and its steps go on (R10). -/
def wdTimeout (su : Setup) (d : Dev) : Dev :=
  if d.plane.wdArmed && !d.plane.mgmtLost && decide (su.turns ≤ d.plane.wdCount) then
    let d := { d with plane := { d.plane with mgmtLost := true, lostTurns := 0 } }
    if su.wdDown then
      let d := d.raise 0x1204 2 0
      let d := { d with plane := { d.plane with wdFaultN := true } }
      if d.plane.takeover then settle d else settle (startChain d su.wdSeq.toNat (!d.live tSeq su.wdSeq.toNat) [])
    else d.raise 0x1204 1 0
  else d

/-- MGMT_WD_COLD_START: under HOLD, 4 × TURNS turns after MGMT_LOST, the running image starts cold. -/
def wdColdStart (su : Setup) (d : Dev) : Dev :=
  if !su.wdDown && d.plane.mgmtLost && decide (4 * su.turns ≤ d.plane.lostTurns) && d.img.start.isNone then
    restartCold { d with
      plane := { d.plane with lostTurns := 0 }, pow := { d.pow with wdStart := true } }
  else d

/-- A turn boundary passes for the watchdog: once armed, it counts the boundaries since the last heartbeat; the heartbeat
of a boundary follows it. -/
def wdTurn (d : Dev) : Dev :=
  { d with plane := { d.plane with
    wdCount := if d.plane.wdArmed then d.plane.wdCount + 1 else d.plane.wdCount
    lostTurns := if d.plane.mgmtLost then d.plane.lostTurns + 1 else d.plane.lostTurns
    beatThisTurn := false } }

/-! ### Switches at their thermal limit (R183) -/

/-- DISCHARGE_THERMAL_OFF: a discharge switch, or the bleed of a feed, turns itself off. -/
def thermalOff (bleed : Bool) (n : Nat) (d : Dev) : Dev :=
  if bleed then (if n < 40 then d.modChan n fun x => { x with bleedOn := false } else d)
  else
    let d := (d.liveIndices tRail).foldl (fun d i =>
      if d.railDsch i = some n then d.modRail i fun r => { r with discharge := false } else d) d
    { d with pwm := { d.pwm with discharge := d.pwm.discharge.filter (· != n) } }

/-! ### Commands -/

/-- FIREBOX_POR_RELEASE. -/
def execFireboxPorRelease (straps : BitVec 7) (s : State) : Out := s.onDev fun _ d => porRelease straps d
/-- FIREBOX_POR: the setup registers and their lock are reset too. -/
def execFireboxPor (s : State) : Out := .next { s with setup := {}, dev := fireboxPor s.dev }
/-- FIREBOX_RAILS_GOOD. -/
def execFireboxRailsGood (s : State) : Out := s.onDev fun _ d => railsGood d
/-- SUPERVISOR_CHECKED. -/
def execSupervisorChecked (ok : Bool) (s : State) : Out := s.onDev fun _ d => supervisorChecked ok d
/-- HK_SUPPLIES_GOOD. -/
def execHkSuppliesGood (s : State) : Out := s.onDev fun _ d => suppliesGood d
/-- HK_START_FAIL. -/
def execHkStartFail (s : State) : Out := s.onDev fun _ d => hkStartFail d
/-- HK_RETRY. -/
def execHkRetry (s : State) : Out := s.onDev fun _ d => hkRetry d
/-- BOOT_ROM_INIT_DONE. -/
def execBootRomInitDone (sound : List Nat) (s : State) : Out := s.onDev fun _ d => bootDone sound d
/-- HEARTH_SUPPLY_FAULT. -/
def execHearthSupplyFault (s : State) : Out := s.onDev fun _ d => hearthReset d
/-- DEVICE_RESET: nothing while the Firebox power-on reset is asserted. -/
def execDeviceReset (straps : BitVec 7) (s : State) : Out :=
  if s.dev.pow.phase = .held then .next s else .next { s with setup := {}, dev := deviceReset straps s.dev }
/-- REF_CLOCK_LOSS. -/
def execRefClockLoss (s : State) : Out := s.onDev fun _ d => refLoss d
/-- REF_CLOCK_RESTORE. -/
def execRefClockRestore (s : State) : Out := s.onDev fun _ d => refRestore d
/-- PLL_UNLOCK. -/
def execPllUnlock (pll : Nat) (s : State) : Out := s.onDevAt 4 pll fun _ d => if pll = 0 then d else pllUnlock pll d
/-- PLL_RELOCK. -/
def execPllRelock (pll : Nat) (s : State) : Out := s.onDevAt 4 pll fun _ d => if pll = 0 then d else pllRelock pll d
/-- PCIE_LINK_DOWN. -/
def execPcieLinkDown (refclk : Bool) (s : State) : Out := s.onDev fun _ d => linkDown refclk d
/-- LINK_TRAINING_DONE. -/
def execLinkTrainingDone (maxSpeed maxWidth : BitVec 2) (perstN : Bool) (s : State) : Out :=
  s.onDev fun _ d => linkTrained maxSpeed maxWidth perstN d
/-- SYS_LOCK: writing 1 to LOCK locks every RWL field (R520). -/
def execSysLock (value : Word) (s : State) : Out :=
  if s.dev.host.link = .ready ∧ bit value 0 = true then .next { s with setup := { s.setup with lock := true } } else .next s
/-- SYS_CLK_READ: returns SYS_CLK and clears UNLOCKS. -/
def execSysClkRead (s : State) : Out :=
  s.onHost fun _ d => { d.readsAs (sysClk d) with pow := { d.pow with unlocks := 0 } }
/-- Writing 1 to SYS_CLK.REF_FAIL clears it (Table 20.4). -/
def clkWrite (v : Word) (d : Dev) : Dev := { d with pow := { d.pow with refFail := d.pow.refFail && !bit v 1 } }

/-- Writing 1 clears POR, PIN, HEARTH and WD_START of SYS_RST (Table 20.7). -/
def rstWrite (v : Word) (d : Dev) : Dev :=
  { d with pow := { d.pow with
    por := d.pow.por && !bit v 0, pin := d.pow.pin && !bit v 1, hearth := d.pow.hearth && !bit v 2
    wdStart := d.pow.wdStart && !bit v 3 } }

/-- SYS_CLK_WRITE. -/
def execSysClkWrite (value : Word) (s : State) : Out := s.onHost fun _ d => clkWrite value d
/-- SYS_RST_READ: returns SYS_RST and clears HK_FAILS. -/
def execSysRstRead (s : State) : Out :=
  s.onHost fun _ d => { d.readsAs (sysRst d) with pow := { d.pow with hkFails := 0 } }
/-- SYS_RST_WRITE. -/
def execSysRstWrite (value : Word) (s : State) : Out := s.onHost fun _ d => rstWrite value d
/-- JTAG_INSTRUCTION_LOAD. -/
def execJtagInstructionLoad (code : Nat) (s : State) : Out := s.onDev fun _ d => jtagLoad code d
/-- FLUE_TAKEOVER. -/
def execFlueTakeover (s : State) : Out := s.onDev fun su d => flueTakeover su d
/-- FLUE_KEEPALIVE. -/
def execFlueKeepalive (s : State) : Out := s.onDev fun _ d => flueKeepalive d
/-- MGMT_HEARTBEAT. -/
def execMgmtHeartbeat (s : State) : Out := s.onDev fun _ d => mgmtHeartbeat d
/-- MGMT_WATCHDOG_TIMEOUT. -/
def execMgmtWatchdogTimeout (s : State) : Out := s.onDev fun su d => wdTimeout su d
/-- MGMT_WD_COLD_START. -/
def execMgmtWdColdStart (s : State) : Out := s.onDev fun su d => wdColdStart su d
/-- DISCHARGE_THERMAL_OFF. -/
def execDischargeThermalOff (bleed : Bool) (switch : Nat) (s : State) : Out :=
  s.onDevAt (if bleed then 40 else 24) switch fun _ d => thermalOff bleed switch d

end Sys2Proof.Machine
end

