-- ==== Sys2Proof/Machine/Loop.lean ====
section
/-! DEFINITION. Loops at run time (R131 to R145) and the two places where samples arrive: the end of a fast conversion
and the output of a precision channel, each handed to every function that uses it. -/

namespace Sys2Proof.Machine

/-! ### Runs become ready (R131, R132) -/

/-- Whether a LOOP runs: ENABLED, not latched, and the Flue carries samples. -/
def Dev.loopRuns (d : Dev) (l : Nat) : Bool :=
  d.enabled tLoop l && (d.loop l).latch == .running && !d.plane.takeover

/-- A run joins the ready runs; one that still waits is discarded for it. True = overrun. -/
def pushReady (id : LoopId) (d : Dev) : Dev × Bool :=
  if d.thr.ready.contains id then (d, true) else ({ d with thr := { d.thr with ready := d.thr.ready ++ [id] } }, false)

/-- A run of a channel's current-limit loop is not performed (R132, R206). -/
def limitMissed (d : Dev) (c : Nat) : Dev := d.modChan c fun x => { x with limMissed := x.limMissed + 1 }

/-- A run of a built-in loop is ready, where the loop is placed; an overrun raises LOOP_OVERRUN with the owner's handle, once
a turn, and is a missed run of a current-limit loop (R132, R146). -/
def builtinReady (id : LoopId) (d : Dev) : Dev :=
  if d.thr.placed.any fun p => p.id == id then
    let (d, isOver) := pushReady id d
    if isOver then
      let d := { d with thr := { d.thr with overruns := d.thr.overruns ++ [id] } }
      let d := if d.thr.overruns.count id = 1 then d.raise 0x0303 1 (d.handleOf (ownerKey id / 4096) (ownerKey id % 4096)) else d
      match id with | .limit c => limitMissed d c | _ => d
    else d
  else d

/-- The runs that one instant makes ready go in placement order, behind those that were ready before (R136, R138). -/
def orderReady (old : List LoopId) (d : Dev) : Dev :=
  let place (id : LoopId) : Placed := (d.thr.placed.find? fun p => p.id == id).getD ⟨id, 0, 0, 0, 0, 1⟩
  let news := d.thr.ready.filter fun id => !old.contains id
  { d with thr := { d.thr with
    ready := (d.thr.ready.filter fun id => old.contains id) ++ isort (fun a b => placedBefore (place a) (place b)) news } }

/-- A run is not performed. -/
def loopSkipped (l : Nat) (d : Dev) : Dev :=
  d.modLoop l fun r => { r with skipped := satAdd 32 r.skipped 1, missed := r.missed + 1 }

/-- A run of a LOOP is ready with the values at its inputs; one that still waits is discarded (R131, R132). -/
def loopReady (l : Nat) (vals : List Int) (d : Dev) : Dev :=
  let (d, isOver) := pushReady (.user l) (d.modLoop l fun r => { r with ready := some vals })
  if isOver then
    let d := d.modLoop l fun r =>
      { r with overrun := satAdd 32 r.overrun 1, missed := r.missed + 1, overrunsTurn := r.overrunsTurn + 1 }
    d.raiseOnceTurn (0x0303 * 256 + l) 0x0303 (d.loop l).overrunsTurn (d.handleOf tLoop l)
  else d

/-- The inputs of LOOP `l` that convert on the start of its generator `g` with count `k`. -/
def loopInputs (d : Dev) (l g k : Nat) : List Nat :=
  let ws := (d.slot tLoop l).cfg
  (((List.range 8).map (lcIn ws)).filter fun w => w != 0 && (startSlots d (rqInput w / 16) g k).any fun s =>
    s.input == rqInput w).map rqInput |>.eraseDups

/-- A start of a LOOP's generator; `dropped` lists the converters that dropped it. A dropped start's run is not performed,
but what the other converters sample of it still arrives (R131, R132). -/
def loopStart (g k : Nat) (dropped : List Nat) (d : Dev) (l : Nat) : Dev :=
  let ins := loopInputs d l g k
  let come := ins.filter fun x => !dropped.contains (x / 16)
  let runs := d.loopRuns l
  if come.length < ins.length then
    let d := if runs then loopSkipped l d else d
    d.modLoop l fun r => { r with awaiting := r.awaiting ++ [{ missing := come, vals := r.ins, dead := true }] }
  else if ins.isEmpty then (if runs then loopReady l (d.loop l).ins d else d)
  else d.modLoop l fun r => { r with awaiting := r.awaiting ++ [{ missing := ins, vals := r.ins, dead := !runs }] }

/-- The inputs of a LOOP with the sample `v` of `input` (R118). -/
def withSample (ws : List Word) (input : Nat) (v : Int) (vals : List Int) : List Int :=
  (List.range 8).map fun i => if lcIn ws i != 0 && rqInput (lcIn ws i) == input then v else vals.getD i 0

/-- A sample counts for the oldest start that awaits it, and is the last value of its input for every later one. -/
def takeSample (ws : List Word) (input : Nat) (w : Word) : List RunStart → List RunStart
  | [] => []
  | s :: rest =>
    if s.missing.contains input then
      { s with missing := s.missing.filter (· != input), vals := withSample ws input (fsVal w) s.vals, bad := s.bad || bit w 20 } ::
        rest.map fun t => { t with vals := withSample ws input (fsVal w) t.vals }
    else s :: takeSample ws input w rest

/-- The starts whose samples have all come give their runs: ready, or not performed where an input carries DEFAULTED
(R131, R132). -/
def loopComplete (l : Nat) (d : Dev) : Dev :=
  let done := (d.loop l).awaiting.filter fun s => s.missing.isEmpty
  let d := d.modLoop l fun r => { r with awaiting := r.awaiting.filter fun s => !s.missing.isEmpty }
  done.foldl (fun d s => if s.dead then d else if s.bad then loopSkipped l d else loopReady l s.vals d) d

/-- A sample of `input` reaches LOOP `l`, which holds it until the next one (R118). -/
def loopSample (input : Nat) (w : Word) (d : Dev) (l : Nat) : Dev :=
  let ws := (d.slot tLoop l).cfg
  loopComplete l (d.modLoop l fun r =>
    { r with ins := withSample ws input (fsVal w) r.ins, awaiting := takeSample ws input w r.awaiting })

/-! ### Dispatch (R125, R131 to R136, R142) -/

/-- The stall before an instruction, and whether an accumulator is what it waits for (Table 5.5). -/
def stallOf (sc kc : Nat) (prods : List (Res × Nat)) (t : Nat) (w : Word) : Nat × Bool :=
  let waits := (reads sc kc w).map fun r => (availableAt prods r - t, match r with | .a _ => true | _ => false)
  let top := waits.foldl (fun m x => max m x.1) 0
  (top, top != 0 && !(waits.any fun x => x.1 == top && !x.2))

/-- Counts of a run: issue cycles executed and predicated off, stalls on operands and accumulators (R495); `offs` says
which instructions were off. -/
def slotCounts (sc kc : Nat) : List (Res × Nat) → Nat → List (Word × Bool) → Nat × Nat × Nat × Nat
  | _, _, [] => (0, 0, 0, 0)
  | prods, t, (w, off) :: rest =>
    let (stall, acc) := stallOf sc kc prods t w
    let n := issueCycles w
    let last := t + stall + n - 1
    let (a, b, c, e) := slotCounts sc kc ((produces w).map (fun (r, rdy) => (r, last + rdy - 2)) ++ prods) (last + 1) rest
    (a + (if off then 0 else n), b + (if off then n else 0), c + (if acc then 0 else stall), e + (if acc then stall else 0))

/-- Which instructions of a run are off (R123). -/
def runOffs : RunCtx → List Word → List (Word × Bool)
  | _, [] => []
  | c, w :: rest => (w, decide (c.skip ≠ 0) || (iPred w == 1 && !c.p) || (iPred w == 2 && c.p)) :: runOffs (c.step w) rest

/-- A run takes its slots on a lane, and its instructions pass the sampler. -/
def laneRun (lane : Nat) (counts : Nat × Nat × Nat × Nat) (builtin : Bool) (handle : Word) (ops : List (Nat × Nat × Bool))
    (d : Dev) : Dev :=
  let d := ((((d.tally lane 0 counts.1).tally lane 1 counts.2.1).tally lane 3 counts.2.2.1).tally lane 4 counts.2.2.2).tally lane 6 1
  ops.foldl (tagIssue lane builtin false handle) d

/-- The instructions of a ROM program as the sampler sees them: their opcodes are not stated (log entry 26). -/
def romOps (n : Nat) (d : Dev) : List (Nat × Nat × Bool) × Dev :=
  (List.range n).foldl (fun (acc : List (Nat × Nat × Bool) × Dev) k =>
    let (op, d) := acc.2.freeBits 5
    (acc.1 ++ [(k, op, false)], d)) ([], d)

/-- The initial context of a run of LOOP `l`. -/
def loopCtx (d : Dev) (l : Nat) (ins : List Int) : RunCtx :=
  let s := d.slot tLoop l
  { ins := ins, s := (d.loop l).s, k := (List.range (lcKcount s.cfg)).map (bankCoef s.active) }

/-- A preload that the RAIL asked for is written into its integrator (R164, R172, R176). -/
def takePreload (l : Nat) (d : Dev) : Dev :=
  match (d.loop l).preload with
  | some (i, v) => d.modLoop l fun r =>
      { r with preload := none, s := (r.s.set (2 * i) (sx 16 (twos 32 v))).set (2 * i + 1) (sx 16 (twos 32 v / 65536)) }
  | none => d

/-- The following-error observation of a run; none is counted of a muted loop (R133, R145, R164). -/
def observe (l : Nat) (e : Option Nat) (k : Int) (muted : Bool) (d : Dev) : Dev :=
  match e with
  | some e =>
    let d := witValue (d.handleOf tLoop l) 0x40 0 e 1 false d
    if muted || !lcFerrEn (d.slot tLoop l).cfg then d
    else d.modLoop l fun r => { r with ferr := if max k 0 < e then r.ferr + 1 else 0 }
  | none => d

/-- The device as a run of a LOOP finds it: banks swapped, set points and the preload taken, the rail's reference written. -/
def loopFound (l wait : Nat) (d : Dev) : Dev :=
  let d := d.modLoop l fun r => { r with ready := none, runs := r.runs + 1, missed := 0, maxWait := max r.maxWait wait }
  let d := applySetPoints (swapLoop d l (d.loop l).runs) l
  takePreload l (match d.railOfLoop l with
    | some i => writeReference (railAtDispatch d i l) i l
    | none => d)

/-- Whether a LOOP's outputs and observations do not count: a phase of the rail that names it fires, or the rail has selected
its other loop (R133, R164). -/
def loopMuted (l : Nat) (d : Dev) : Bool :=
  match d.railOfLoop l with | some i => d.railFiring i || d.selectedLoop i != l | none => false

/-- What a run leaves: its state words and outputs, its statistics, and its outputs at their ports; the duty words of a rail
that it drives arrive at place `pos` of the rail's carrier period (R153). -/
def loopLeft (l wait pos : Nat) (k0 : Int) (c : RunCtx) (d : Dev) : Dev :=
  let muted := loopMuted l d
  let d := d.modLoop l fun r =>
    { r with
      s := c.s, dSat := satAdd 32 r.dSat c.dSat, accSat := satAdd 32 r.accSat c.accSat, outDefaulted := false
      outs := if muted then r.outs else (List.range 4).map fun k => (c.outs.getD k none).getD (r.outs.getD k 0) }
  let d := witValue (d.handleOf tLoop l) 0x41 0 wait 1 false d
  let d := observe l c.ferr k0 muted d
  if muted then d
  else
    let d := ((List.range 4).filter fun k => (c.outs.getD k none).isSome).foldl (portSet l) d
    match d.railOfLoop l with | some i => wordsArrive d i pos | none => d

/-- A run of LOOP `l` is dispatched on a lane after `wait` cycles and issues its program. -/
def loopRun (l lane wait pos : Nat) (d : Dev) : Dev :=
  match (d.loop l).ready with
  | none => d
  | some ins =>
    let d := loopFound l wait d
    let ws := (d.slot tLoop l).cfg
    let c0 := loopCtx d l ins
    let offs := runOffs c0 (lcProgram ws)
    let d := laneRun lane (slotCounts (lcScount ws) (lcKcount ws) [] 0 offs) false (d.handleOf tLoop l)
      ((List.range offs.length).map fun k => (k, iOp (offs.getD k (0, false)).1, (offs.getD k (0, false)).2)) d
    loopLeft l wait pos (c0.k.getD (lcFerrK ws) 0) (c0.run (lcProgram ws)) d

/-- LOOP_DISPATCH: the lane's first ready run is dispatched; a built-in loop runs its ROM program (R135, R136, R166, R206,
R233). -/
def loopDispatch (lane wait pos : Nat) (d : Dev) : Dev :=
  let mine (id : LoopId) : Bool := d.thr.placed.any fun p => p.id == id && p.lane == lane
  if d.plane.takeover then d
  else match d.thr.ready.find? mine with
    | none => d
    | some id =>
      let d := { d with thr := { d.thr with ready := d.thr.ready.filter (· != id) } }
      let k := ownerKey id
      let h := d.handleOf (k / 4096) (k % 4096)
      match id with
      | .user l => loopRun l lane wait pos d
      | .balance i k =>
        let (ops, d) := romOps 12 d
        wordsArrive (balanceRun (laneRun lane (12, 0, 0, 0) true h ops d) i k) i pos
      | .limit c =>
        let (ops, d) := romOps 16 d
        let d := laneRun lane (16, 0, 2, 2) true h ops (d.modChan c fun x => { x with limMissed := 0 })
        if c < 40 then feedLimitRun d c else branchLimitRun d (c - 40)

/-! ### Supervision (R132, R145) -/

/-- ACTION is applied: HOLD and FORCE latch, and what waits for a run takes effect at the latch (R143); FENCE fences. -/
def applyAction (l cause : Nat) (d : Dev) : Dev :=
  let a := lcAction (d.slot tLoop l).cfg
  let d := d.modLoop l fun r => { r with trips := satAdd 32 r.trips 1 }
  if a = 2 then fenceHandle tLoop l cause d
  else
    let d := applySetPoints (swapLoop d l ((d.loop l).runs + 1)) l
    let d := { d with thr := { d.thr with ready := d.thr.ready.filter (· != LoopId.user l) } }
    let d := d.modLoop l fun r =>
      { r.drop with latch := if a = 1 then .force else .hold
                    outs := if a = 1 then safeOuts (d.slot tLoop l).cfg else r.outs }
    if a = 1 then portsSet d l else d

/-- LOOP_FERR: the counter has reached TIMER. -/
def loopFerr (l : Nat) (d : Dev) : Dev :=
  let ws := (d.slot tLoop l).cfg
  let r := d.loop l
  if d.loopRuns l && lcFerrEn ws && decide (max 1 (lcTimer ws) ≤ r.ferr) then
    applyAction l 3 (d.raise 0x0301 (lcAction ws) (d.handleOf tLoop l))
  else d

/-- LOOP_STARVED: MISS_LIMIT runs in a row were not performed; the current-limit loop of a feed or branch fences its owner
at 8. -/
def loopStarved (id : LoopId) (d : Dev) : Dev :=
  match id with
  | .user l =>
    if d.loopRuns l && decide (lcMissLimit (d.slot tLoop l).cfg ≤ (d.loop l).missed) then
      applyAction l 4 (d.raise 0x0302 (d.loop l).missed (d.handleOf tLoop l))
    else d
  | .balance _ _ => d
  | .limit c =>
    if d.live (chanType c) (chanIndex c) && decide (8 ≤ (d.chan c).limMissed) then
      fenceOwner id 4 (d.raise 0x0302 (d.chan c).limMissed (d.chanHandle c))
    else d

/-- CLEAR on a LOOP (R134): bit 0 releases a latch, bit 1 zeroes the statistics. -/
def loopClear (d : Dev) (l : Nat) (v : Word) : Dev :=
  let d := if bit v 0 && (d.loop l).latch != .running then
      d.modLoop l fun r => { r with latch := .running, ferr := 0, missed := 0 }
    else d
  if bit v 1 then d.modLoop l fun r =>
    { r with runs := 0, skipped := 0, overrun := 0, accSat := 0, dSat := 0, trips := 0, maxWait := 0, lastSwapRun := 0 }
  else d

/-! ### SAMPLE_TRIGGER (R91, R93, R131, R167, R218, R274) -/

/-- The channels whose current input converts on the dropped start miss a run of their limit loop. -/
def limitMisses (g k : Nat) (dropped : List Nat) (d : Dev) : Dev :=
  d.liveChans.foldl (fun d c =>
    let rq := chImeas c (d.chanCfg c)
    if rqTrig rq == g && dropped.contains (rqInput rq / 16) && (d.conv (rqInput rq / 16)).slots.any fun s =>
        s.input == rqInput rq && k % 2 ^ s.divLog == s.offset then
      limitMissed d c
    else d) d

/-- A rail whose phase currents generator `g` samples: shedding and adding, and its summed current for the Witness. -/
def railStarts (g : Nat) (d : Dev) : Dev :=
  (d.liveIndices tRail).foldl (fun d i =>
    if rqTrig (d.railW i 11) = g then
      let d := if (d.rail i).run.running then railCurrentSample d i else d
      let dflt := (d.positions i fun p => p.state.isActive || p.state == .firing).any fun k =>
        bit (d.fsLast (rqInput (d.railW i (11 + k)))) 20
      witValue (d.railHandle i) 0x02 0 (d.railIsum i) 10 dflt d
    else d) d

/-- SAMPLE_TRIGGER of generator `g`: its 6-bit start count advances (R91). -/
def sampleTrigger (g : Nat) (d : Dev) : Dev :=
  if !d.genDefined g then d
  else
    let k := tget 0 d.acq.genCount g
    let d := { d with acq := { d.acq with genCount := tset 0 d.acq.genCount g ((k + 1) % 64) } }
    let (d, dropped) := startAll (railStarts g (chanStarts g (ledStart g d))) g k
    if d.plane.takeover then d
    else
      let old := d.thr.ready
      let d := limitMisses g k dropped d
      orderReady old (((d.liveIndices tLoop).filter fun l => lcTrig (d.slot tLoop l).cfg == g).foldl (loopStart g k dropped) d)

/-! ### FS_CONVERSION_DONE (R93, R97) -/

/-- A sample for rails: the output voltage, then each phase current (R166, R176, R179, R422). -/
def railSample (input : Nat) (w : Word) (d : Dev) (i : Nat) : Dev :=
  let h := d.railHandle i
  let dflt := bit w 20
  let d := if rqInput (d.railW i 8) = input then
      let d := railVoutSample d i
      let d := witValue h 0x01 0 (fsVal w * (bits (d.railW i 7) 16 16 : Nat)) 32768 dflt d
      if (d.rail i).run == .off && decide (2 ≤ (d.rail i).overOff) then seqBackfeed d h else d
    else d
  (List.range (d.railPhases i).length).foldl (fun d k =>
    if rqInput (d.railW i (11 + k)) = input then
      let d := witValue h 0x03 k (fsVal w * (bits (d.railW i 23) 0 16 : Nat)) 32768 dflt d
      if !d.plane.takeover && !dflt then builtinReady (.balance i k) d else d
    else d) d

/-- A sample for a feed or branch, taken at `pos`: metering, protection, its current-limit loop, the Witness. -/
def chanSample (c : Nat) (current : Bool) (w : Word) (pos : Nat) (d : Dev) : Dev :=
  if !d.live (chanType c) (chanIndex c) then d
  else
    let ws := d.chanCfg c
    let h := d.chanHandle c
    let v := fsVal w
    let dflt := bit w 20
    if current then
      let d := ledCurrent c w d
      let d := if c < 40 then feedCurrent c w d else branchCurrent (c - 40) w pos d
      let d := witValue h (if c < 40 then 0x10 else 0x18) 0 (v * spanUv (chImeas c ws) * perAmp c) (32768 * max 1 (chShunt ws)) dflt d
      if d.plane.takeover then d
      else if dflt then limitMissed d c
      else builtinReady (.limit c) d
    else
      let d := if c < 40 then feedVoltage c w d else branchVoltage (c - 40) w d
      if c < 40 then witValue h 0x11 0 (v * chVfs ws) 32768 dflt d else d

/-- A regular result, taken at `pos`, goes to every function that uses its input: its channel, the source inputs, the rails and
the loops. -/
def fsDeliver (input : Nat) (w : Word) (pos : Nat) (d : Dev) : Dev :=
  let old := d.thr.ready
  let d := match chanOfCurrent input with | some c => chanSample c true w pos d | none => d
  let d := match chanOfVoltage input with | some c => chanSample c false w pos d | none => d
  let d := if 184 ≤ input ∧ input < 188 then srcVoltage (input - 184) w d else d
  let d := if 188 ≤ input ∧ input < 192 then ledSource (input - 188) w d else d
  let d := (d.liveIndices tRail).foldl (railSample input w) d
  let d := if d.plane.takeover then d else (d.liveIndices tLoop).foldl (loopSample input w) d
  settle (orderReady old d)

/-- An injected result goes to the owner of its trigger (R96): a feed or branch, a source input, or a rail. -/
def injDeliver (chan input : Nat) (w : Word) (d : Dev) : Dev :=
  if chan < 40 then chanInjected d chan input w
  else if chan < 44 then branchFollow (chan - 40) (fun d => chanInjected d chan input w) d
  else if chan < 48 then (if input = 184 + (chan - 44) then settle (srcVoltage (chan - 44) w d) else d)
  else if d.live tRail (chan - 48) then settle (railSample input w d (chan - 48)) else d

/-- FS_CONVERSION_DONE: the result of the sample taken at `pos` is stored, with DEFAULTED while the Flue is fenced (R391), and
delivered to the turn of that instant. -/
def fsConversionDone (c : Nat) (code : Int) (isOver late : Bool) (pos : Nat) (d : Dev) : Dev :=
  match convEnds d c code isOver late with
  | (d, none) => d
  | (d, some r) =>
    let w : Word := if d.sag.fenced.contains 9 then r.word ||| 0x00100000 else r.word
    let d := { d with acq := { d.acq with fsWord := tset 0 d.acq.fsWord r.input w } }
    match r.chan with
    | some chan => injDeliver chan r.input w d
    | none => d.inTurn pos (fsDeliver r.input w pos)

/-! ### PD_OUTPUT (R104) and PD_WINDOW_CROSSING (R105) -/

/-- The direct output of a channel, taken at `pos`, goes to the hold-up bank, the drop windows, the strings, the Ledger and the
Witness. -/
def pdDeliver (n pos : Nat) (d : Dev) : Dev :=
  let d := d.inTurn pos fun d => ledPd n pos (battOutput n (d.pdChan n).calHold pos (branchDrop n pos (ledBusEnds n pos (srcPdOutput n d))))
  let w := (d.pdChan n).direct
  (d.liveIndices tSource).foldl (fun d s =>
    if pdRqChan (word (d.srcCfg s) 4) = n ∧ word (d.srcCfg s) 4 ≠ 0 then
      witValue (d.srcHandle s) 0x20 0 (pdVal w * Config.busFullScale) (2 ^ 23) (pdFlagged w) d
    else d) d

/-- A PD window ends. An output carries DEFAULTED while the PD PLL is unlocked (R513) or the Flue is fenced (R391); a value held
over a calibration is used unchanged (R112). -/
def pdWindowEnds (n : Nat) (value : Int) (isOver : Bool) (pos : Nat) (settled : Bool) (d : Dev) : Dev :=
  if d.acq.pdStopped.contains (n / 4) then d
  else pdDeliver n pos (pdOutput n value isOver pos settled (!d.pow.pdLock || d.sag.fenced.contains 9) d)

/-- The window comparator of a stopped group is crossed, and its owner wakes. -/
def pdCrossing (n : Nat) (d : Dev) : Dev :=
  if d.acq.pdStopped.contains (n / 4) then
    (((List.range 4).filterMap fun k => (d.pdChan (n / 4 * 4 + k)).owner).eraseDups.filter fun k => k / 4096 == tString).foldl
      (fun d k => battWake d (k % 4096)) d
  else d

/-! ### Commands -/

/-- SAMPLE_TRIGGER. -/
def execSampleTrigger (gen : Nat) (s : State) : Out := s.onDevAt 32 gen fun _ d => sampleTrigger gen d
/-- FS_CONVERSION_DONE. -/
def execFsConversionDone (conv : Nat) (code : Int) (isOver late : Bool) (pos : Nat) (s : State) : Out :=
  s.onDevAt 12 conv fun _ d => fsConversionDone conv code isOver late pos d
/-- LOOP_DISPATCH: after `wait` cycles; `pos` is where the carrier period of the rail that the run drives stands when its
words arrive. -/
def execLoopDispatch (lane wait pos : Nat) (s : State) : Out := s.onDevAt 8 lane fun _ d => loopDispatch lane wait pos d
/-- LOOP_FERR. -/
def execLoopFerr (loop : Nat) (s : State) : Out := s.onDevAt 96 loop fun _ d => loopFerr loop d
/-- LOOP_STARVED. -/
def execLoopStarved (loop : LoopId) (s : State) : Out := s.onDev fun _ d => loopStarved loop d
/-- PD_OUTPUT. -/
def execPdOutput (chan : Nat) (value : Int) (isOver : Bool) (pos : Nat) (settled : Bool) (s : State) : Out :=
  s.onDevAt 32 chan fun _ d => pdWindowEnds chan value isOver pos settled d
/-- PD_WINDOW_CROSSING. -/
def execPdWindowCrossing (chan : Nat) (s : State) : Out := s.onDevAt 32 chan fun _ d => pdCrossing chan d

end Sys2Proof.Machine
end

