-- ==== Sys2Proof/Machine/Operands.lean ====
section
/-! DEFINITION. The operand forms of a descriptor: parameters, source and destination buffers, and the checks of word 0 and
of the handle word (R53, R58, R76, R79, R548). -/

namespace Sys2Proof.Machine

/-! ### What executing a descriptor answers -/

/-- A completion, or that the command waits. -/
inductive Reply where
  | done (c : Cpl)
  | waits
  deriving DecidableEq, Repr

/-- The effect of an opcode on a descriptor that has passed the checks of R76. -/
abbrev OpFn := Dev → Desc → Dev × Reply

/-- A completion with the descriptor's handle and a result. -/
def Dev.ends (d : Dev) (x : Desc) (st : Status) (result : Nat) : Dev × Reply := (d, .done (plainCpl st x.handle result))

/-- A completion with OK that writes bytes to the destination buffer; its result is their number. -/
def Dev.endsWith (d : Dev) (x : Desc) (addr : BitVec 64) (out : List Byte) : Dev × Reply :=
  (d, .done ⟨.ok, x.handle, BitVec.ofNat 64 out.length, out, addr⟩)

/-- The answer of a command on a handle as a completion of its descriptor. -/
def answered (x : Desc) (r : Dev × Answer) : Dev × Reply :=
  match r.2 with
  | .done st n => r.1.ends x st n
  | .waits => (r.1, .waits)

/-! ### Parameters and buffers (R58, R85, R483) -/

/-- PARAM `i`. -/
def par (x : Desc) (i : Nat) : Word := word x.params i

/-- PARAM `i` as a number. -/
def parN (x : Desc) (i : Nat) : Nat := (par x i).toNat

/-- The bytes of a source buffer of `len` bytes whose address stands in PARAM `i`: what the device read from host memory,
or a slice of the data that a mailbox frame or a CoAP request carries; none past that data's end. -/
def sourceBytes (x : Desc) (i len : Nat) : Option (List Byte) :=
  match x.src with
  | .ring _ => some (x.data.take len)
  | _ =>
    let off := (paramAddr x.params i).toNat
    if off + len ≤ x.data.length then some ((x.data.drop off).take len) else none

/-- Whether a destination length can be served: a mailbox or CoAP response holds at most 4,096 output bytes (R483). -/
def destOk (x : Desc) (len : Nat) : Bool :=
  match x.src with
  | .ring _ => true
  | _ => decide (len ≤ 4096)

/-- A block of a read goes to the destination buffer at PARAM `i` and `i + 1`, at most as long as PARAM `i + 2` says. -/
def readOut (d : Dev) (x : Desc) (i : Nat) (block : List Byte) : Dev × Reply :=
  if destOk x (parN x (i + 2)) then d.endsWith x (paramAddr x.params i) (block.take (parN x (i + 2)))
  else d.ends x .range 0

/-! ### Word 0 (R53, R58, R76) -/

/-- The class of a ring. -/
def Dev.ringClass (d : Dev) (n : Nat) : Nat := (d.host.ring n).cls.toNat

/-- Whether the place a descriptor came from accepts an opcode: the classes of R53, the mailboxes and CoAP as a command
ring (R85, R408), the peer's mailbox NOP and the query opcodes alone (R480). -/
def Dev.classTakes (d : Dev) (src : Src) (op : Nat) : Bool :=
  match src with
  | .ring n =>
    match d.ringClass n with
    | 1 => op == 0x0502 || op == 0x0701
    | 2 => op == 0x0403 || op == 0x0701
    | _ => op != 0x0502 && op != 0x0403
  | .mailbox true => [0x0401, 0x0402, 0x0404, 0x0405, 0x0701].contains op
  | _ => op != 0x0502 && op != 0x0403

/-- In safe hold without a management image, the recovery service executes NOP and the firmware opcodes alone (R461). -/
def Dev.recoveryTakes (d : Dev) (op : Nat) : Bool :=
  !(d.img.safeHold && !d.plane.mgmtRunning) || [0x0601, 0x0602, 0x0603, 0x0604, 0x0701].contains op

/-- While the Flue's saggar is fenced: the opcodes that need nothing of the Firebox (R548). -/
def Dev.flueTakes (d : Dev) (op : Nat) : Bool :=
  !d.sag.fenced.contains 9 ||
    [0x0307, 0x0401, 0x0402, 0x0403, 0x0404, 0x0405, 0x0502, 0x0602, 0x0701].contains op

/-- The check of word 0, and what a fenced Flue turns away. -/
def wordCheck (d : Dev) (op : Nat) (x : Desc) : Option Status :=
  if !catalogue.contains op || decide (16 ≤ x.flags.toNat) then some .range
  else if !d.classTakes x.src op || !d.recoveryTakes op then some .state
  else if !d.flueTakes op then some .fenced
  else none

/-! ### The handle word (R72, R76, R79, R548) -/

/-- The opcodes that name the device. -/
def deviceWide : List Nat :=
  [0x0304, 0x0305, 0x0307, 0x0403, 0x0404, 0x0405, 0x0502, 0x0601, 0x0602, 0x0603, 0x0604, 0x0701, 0x0703, 0x0704, 0x0705]

/-- Whether a handle word has a type of Table 3.17 and an index below its limit (R72). -/
def handleValid (h : Word) : Bool := decide (hIndex h < typeLimit (hType h))

/-- Whether an opcode accepts a type. -/
def opTakesType (op t : Nat) : Bool := if op = 0x0501 ∨ op = 0x0503 then t == tStream else true

/-- A slot is live for the host: a handle that went with a Hearth reset is not (R514, log entry 27). -/
def Slot.isLive (s : Slot) : Bool := s.live && !s.ghost

/-- The generation that a slot issues: 1 again after a Hearth reset. -/
def Slot.issues (s : Slot) : Nat := if s.ghost then 1 else s.gen.toNat

/-- What a FENCED handle accepts: the query opcodes and DESTROY (R79). -/
def fencedTakes (op : Nat) : Bool := op == 0x0401 || op == 0x0402 || op == 0x0102

/-- The check of the handle word of every opcode but CREATE. -/
def handleCheck (d : Dev) (op : Nat) (h : Word) : Option Status :=
  let s := d.slot (hType h) (hIndex h)
  if h = 0 then (if deviceWide.contains op || op == 0x0401 || op == 0x0402 then none else some .badHandle)
  else if deviceWide.contains op then some .badHandle
  else if !handleValid h || hGen h == 0 || !opTakesType op (hType h) then some .badHandle
  else if hGen h ≠ s.issues then some .stale
  else if !s.isLive then some .badHandle
  else if s.hstate == .fenced && !fencedTakes op then some .fenced
  else none

/-- The checks of R76 on a descriptor. -/
def descCheck (d : Dev) (op : Nat) (x : Desc) : Option Status :=
  match wordCheck d op x with
  | some st => some st
  | none => if op = 0x0101 then none else handleCheck d op x.handle

/-- A command that names a STRING wakes it (R317). -/
def wakeNamed (d : Dev) (h : Word) : Dev := if hType h = tString then battWake d (hIndex h) else d

/-- A descriptor executes: refused by R76, or its opcode's effect. -/
def runOp (op : Nat) (f : OpFn) : OpFn := fun d x =>
  match descCheck d op x with
  | some st => d.ends x st 0
  | none => f (if op = 0x0101 then d else wakeNamed d x.handle) x

end Sys2Proof.Machine
end

