-- ==== Sys2Proof/Machine/Handles.lean ====
section
/-! DEFINITION. The commands on handles (R74, R77 to R82, R546, R547): CREATE, CONFIGURE, DESTROY, ENABLE, DISABLE, SET_POINT,
CLEAR, FENCE and the bank commands, each over the types of Table 3.17. -/

namespace Sys2Proof.Machine

/-! ### Configuration blocks (R549) -/

/-- The schema versions that a type accepts. -/
def schemaOk (t v : Nat) : Bool := if t = tSource then decide (1 ≤ v) && decide (v ≤ 3) else v == 1

/-- The fields of a THROW_LOOP_CFG in range (Table 5.6, R130); `bytes` is the block's length. -/
def loopFieldsOk (bytes : Nat) (ws : List Word) : Bool :=
  decide (76 ≤ bytes) && decide (1 ≤ lcProgLen ws) && decide (lcProgLen ws ≤ 4096) && field ws 0 13 19 == 0 &&
  decide (1 ≤ lcKcount ws) && decide (lcKcount ws ≤ 256) && field ws 1 9 7 == 0 && decide (lcScount ws ≤ 64) &&
  field ws 1 23 9 == 0 && decide (4 * lcWords ws ≤ bytes) && field ws 2 5 3 == 0 && field ws 2 16 16 == 0 &&
  lcAction ws != 3 && decide (1 ≤ lcTimer ws) && field ws 4 5 27 == 0 &&
  ((List.range 8).all fun i => lcIn ws i == 0 || (rqLoopOk (lcIn ws i) && rqTrig (lcIn ws i) == lcTrig ws)) &&
  ((List.range 4).all fun i =>
    decide (lcKind ws i ≤ 3) && decide (lcTarget ws i < [256, 48, 24, 44].getD (lcKind ws i) 0) && field ws (13 + i) 12 20 == 0)

/-- Whether a program holds an INTC of index `i`. -/
def hasIntc (prog : List Word) (i : Nat) : Bool := (List.range prog.length).any fun n =>
  iOp (word prog n) == 0x17 && iDst (word prog n) % 16 == i

/-- The RANGE conditions of a LOOP (R130, R157). -/
def loopRange (d : Dev) (bytes : Nat) (ws : List Word) : Check :=
  let prog := lcProgram ws
  let p := d.genPeriod (lcTrig ws)
  Check.first [
    Check.range (loopFieldsOk bytes ws),
    Check.range (programOk (lcScount ws) (lcKcount ws) ((List.range 4).map (lcKind ws)) prog),
    Check.range (!lcFerrEn ws || prog.any fun w => iOp w == 0x19),
    Check.range (decide (lcFerrK ws < lcKcount ws)),
    Check.range (!lcPreloadEn ws || hasIntc prog (lcPreloadI ws)),
    Check.range (d.genDefined (lcTrig ws) && decide (512000 * p.2 ≤ p.1))]

/-- What a LOOP asks of admission (R92, R116, R125). -/
def loopNeeds (d : Dev) (i : Nat) (ws : List Word) : Needs :=
  let p := d.genPeriod (lcTrig ws)
  { fs := (((List.range 8).map (lcIn ws)).filter (· != 0)).map fun w => (rqInput w / 16, w)
    instr := (4 * lcProgLen ws + 255) / 256 * 256
    coef := (4 * lcKcount ws + 2 * lcScount ws + 63) / 64 * 64
    loops := [⟨.user i, 0, staticW (lcScount ws) (lcKcount ws) (lcProgram ws) + 1, lcTrig ws, p.1, p.2⟩] }

/-- The RANGE conditions of a SOURCE_SET, by schema version (R256, R277, R278, R473). -/
def sourceRange (d : Dev) (schema : Nat) (ws : List Word) : Check :=
  let bw := ws.drop 36
  Check.first [
    Check.range (ws.length == [0, 48, 172, 180].getD schema 0),
    srcBaseRange d ws,
    Check.range (decide (schema < 2) || (pathReservedOk bw && pathBankOk bw)),
    Check.range (decide (schema < 3) || (modReservedOk bw && modBankOk d.pow.strapAddr ws bw))]

/-- The live set with a schema version of at least `v`. -/
def Dev.schemaHolder (d : Dev) (v : Nat) : Option Word :=
  ((d.liveIndices tSource).find? fun n => decide (v ≤ (d.slot tSource n).schema)).map d.srcHandle

/-- The STATE conflicts of a SOURCE_SET (R254, R277, R473). -/
def sourceConflicts (d : Dev) (schema : Nat) (ws : List Word) : Check :=
  Check.first [
    srcConflicts d ws,
    Check.conflict (if 2 ≤ schema then d.schemaHolder 2 else none),
    Check.conflict (if schema = 3 then d.schemaHolder 3 else none)]

/-- Steps 2 and 3 of R549 for a block of `bytes` bytes that spells `ws`. -/
def blockCheck (d : Dev) (t i schema bytes : Nat) (ws : List Word) : Check :=
  match t with
  | 1 => loopRange d bytes ws
  | 2 => Check.first [railRange d i ws, railConflicts d i ws]
  | 3 => Check.first [feedRange d i ws, feedConflicts d i ws]
  | 4 => Check.first [branchRange d i ws, branchConflicts d i ws]
  | 5 => Check.first [sourceRange d schema ws, sourceConflicts d schema ws]
  | 6 => Check.first [seqRange d ws, seqConflicts d ws]
  | 7 => monRange ws
  | 8 => battRange ws
  | 9 => Check.first [Check.range (ws.length == 14), sensRange d i ws]
  | 10 => Check.first [Check.range (bytes == nkLength ws), strmRange d ws, strmConflicts d i ws]
  | _ => Check.first [Check.range (ws.length == 6), witRange d t ws]

/-- The generators that a block defines. -/
def blockDefs (t : Nat) (ws : List Word) : List Word :=
  match t with
  | 2 => [word ws 28, word ws 29]
  | 3 => [chGenDef 0 ws]
  | 4 => [chGenDef 40 ws]
  | _ => []

/-- The block's generators are defined for a slot (R157). -/
def defineGens (t key : Nat) (ws : List Word) (d : Dev) : Dev :=
  (blockDefs t ws).foldl (defineGen key (if t = tRail then rcPeriod ws else 0)) d

/-- What a block asks of admission; the device holds its generators already. -/
def blockNeeds (d : Dev) (t i : Nat) (ws : List Word) : Needs :=
  match t with
  | 1 => loopNeeds d i ws
  | 2 => railNeeds ws d.genPeriod i
  | 3 => feedNeeds d i ws
  | 4 => branchNeeds d i ws
  | 5 => srcNeeds ws
  | 7 => monNeeds d ws
  | 8 => battNeeds ws
  | 10 => strmNeeds
  | 11 => witNeeds d t (slotKey t i) ws
  | 12 => witNeeds d t (slotKey t i) ws
  | _ => {}

/-- The initial bank of a block; empty for a type without banks. -/
def initialBank (t : Nat) (ws : List Word) : List Byte :=
  match t with
  | 1 => lcBank ws
  | 2 => bytesOfWords (ws.drop 31)
  | 3 => bytesOfWords (ws.drop 11)
  | 4 => bytesOfWords (ws.drop 13)
  | 5 => bytesOfWords (ws.drop 36)
  | 7 => bytesOfWords (ws.drop 2)
  | 8 => (bytesOfWords (ws.drop 12)).take 852
  | 9 => bytesOfWords (ws.drop 8)
  | _ => []

/-- A LOOP's initial state: its state words, its ports at SAFE (R129, R133). -/
def loopLoad (d : Dev) (i : Nat) (ws : List Word) : Dev :=
  d.modLoop i fun r =>
    { r with s := lcState ws, outs := safeOuts ws, outDefaulted := false, w := staticW (lcScount ws) (lcKcount ws) (lcProgram ws)
             setPoints := [], preload := none }

/-- An object as CREATE leaves it. -/
def objLoad (d : Dev) (t i : Nat) (ws : List Word) : Dev :=
  match t with
  | 1 => loopLoad (d.modLoop i fun _ => {}) i ws
  | 2 => railLoad d i ws
  | 5 => srcLoad d i
  | 6 => seqLoad d i ws
  | 8 => battLoad d i
  | 9 => sensLoad d i
  | 10 => strmLoad d i
  | 11 => witLoad d (slotKey t i)
  | 12 => witLoad d (slotKey t i)
  | _ => d

/-- An object as CONFIGURE leaves it: what it counts is kept, but a recorder's running set (R431, R546). `old` is the device
before it. -/
def objReload (old d : Dev) (t i : Nat) (ws : List Word) : Dev :=
  match t with
  | 1 => loopLoad d i ws
  | 2 => d.modRail i fun r => { r with vset := field ws 7 0 16 }
  | 6 => seqReload old d i ws
  | 9 => kilnApply (d.handleOf tSensor i) d
  | 11 => witLoad d (slotKey t i)
  | 12 => witLoad d (slotKey t i)
  | _ => d

/-! ### CREATE (R74, R77, R78) -/

/-- Handles that went with a Hearth reset stand for nothing in a check (log entry 27). -/
def Dev.withoutGhosts (d : Dev) : Dev :=
  { d with slots := tmapAll {} d.slots fun _ s => if s.ghost then {} else s }

/-- A slot as its block configures it. -/
def Slot.configured (s : Slot) (t schema : Nat) (ws : List Word) : Slot :=
  { s with live := true, hstate := .disabled, ghost := false, schema := schema, cfg := ws
           bankA := initialBank t ws, bankB := initialBank t ws, activeB := false, swap := false }

/-- A checked and admitted block, or the refusal: `base` is the device with the slot free. -/
def admitBlock (base : Dev) (t i schema bytes : Nat) (ws : List Word) : Check × Dev :=
  if !schemaOk t schema then (.fail .version 0, base)
  else
    match blockCheck base.withoutGhosts t i schema bytes ws with
    | .fail st r => (.fail st r, base)
    | .pass =>
      let d := defineGens t (slotKey t i) ws base
      let (c, d) := admission d (slotKey t i) (blockNeeds d t i ws)
      (c, laneSync (d.modSlot t i fun s => s.configured t schema ws))

/-- The words that a configuration block of `len` bytes spells; none where its length is no block's. -/
def blockWordsOf (t : Nat) (bytes : List Byte) : Option (List Word) :=
  if t ≠ tLoop ∧ bytes.length % 4 ≠ 0 then none else some (wordsOfBytes (bytes.take 65536))

/-- Whether word 1 of a CREATE binds the index: a channel-bound type, or INDEX set (R74). -/
def indexBound (x : Desc) (t : Nat) : Bool := [tFeed, tBranch, tSensor].contains t || bitsN x.flags.toNat 2 1 == 1

/-- The lowest index of a type that is free for the host. -/
def Dev.freeIndex (d : Dev) (t : Nat) : Option Nat := (List.range (typeLimit t)).find? fun i => !(d.slot t i).isLive

/-- A created object: the slot's own poison is cleared, the object is loaded, and its handle is issued. -/
def created (d : Dev) (t i : Nat) (ws : List Word) : Dev × Reply :=
  let d := ledNote (objLoad (clearHandlePoison t i d) t i ws)
  let h := d.handleOf t i
  (d, .done (plainCpl .ok h h.toNat))

/-- CREATE at an index. -/
def createAt (d : Dev) (x : Desc) (t i : Nat) (bytes : List Byte) : Dev × Reply :=
  match blockWordsOf t bytes with
  | none => (d, .done (plainCpl (if schemaOk t (parN x 3) then .range else .version) x.handle 0))
  | some ws =>
    let base := if (d.slot t i).ghost then dropSlot d t i else d
    match admitBlock base t i (parN x 3) bytes.length ws with
    | (.fail st r, _) => d.ends x st r.toNat
    | (.pass, d') => created d' t i ws

/-- CREATE: with no free index the block is checked all the same, and then check 1 refuses (R549). -/
def opCreate : OpFn := fun d x =>
  let t := hType x.handle
  if typeLimit t = 0 then d.ends x .badHandle 0
  else if indexBound x t && decide (typeLimit t ≤ hIndex x.handle) then d.ends x .badHandle 0
  else if indexBound x t && (d.slot t (hIndex x.handle)).isLive then
    d.ends x .state (d.handleOf t (hIndex x.handle)).toNat
  else
    match sourceBytes x 0 (parN x 2) with
    | none => d.ends x (if schemaOk t (parN x 3) then .range else .version) 0
    | some bytes =>
      if indexBound x t then createAt d x t (hIndex x.handle) bytes
      else
        match d.freeIndex t with
        | some i => createAt d x t i bytes
        | none =>
          match blockWordsOf t bytes with
          | none => d.ends x (if schemaOk t (parN x 3) then .range else .version) 0
          | some ws =>
            if !schemaOk t (parN x 3) then d.ends x .version 0
            else
              match blockCheck d.withoutGhosts t (typeLimit t) (parN x 3) bytes.length ws with
              | .fail st r => d.ends x st r.toNat
              | .pass => d.ends x .noResource (1 + 2 ^ 32)

/-! ### CONFIGURE (R546) -/

/-- The phases that a rail keeps over a CONFIGURE stay in their state. -/
def keepPhases (old d : Dev) (i : Nat) : Dev :=
  ((d.railPhases i).filter (old.railPhases i).contains).foldl (fun d p => d.modPhase p fun _ => old.phase p) d

/-- CONFIGURE of a DISABLED handle. -/
def configure (d : Dev) (x : Desc) (t i : Nat) (ws : List Word) (bytes : Nat) : Dev × Reply :=
  let base := if t = tRail ∧ field ws 0 8 5 ≠ field (d.slot t i).cfg 0 8 5 ∧ (d.rail i).discharge = true then dischargeOff d i else d
  let base := if t = tSeq then seqUnload base i else base
  let base := (releaseResources base (slotKey t i)).modSlot t i fun s => { s with live := false }
  match admitBlock base t i (parN x 3) bytes ws with
  | (.fail st r, _) => d.ends x st r.toNat
  | (.pass, d') =>
    let d' := if t = tRail then keepPhases d d' i else d'
    (ledNote (objReload d d' t i ws)).ends x .ok 0

/-- CONFIGURE. -/
def opConfigure : OpFn := fun d x =>
  let t := hType x.handle
  let s := d.slot t (hIndex x.handle)
  if s.hstate != .disabled then d.ends x .state 0
  else if s.swap then d.ends x .busy 0
  else
    match (sourceBytes x 0 (parN x 2)).bind fun b => (blockWordsOf t b).map fun ws => (ws, b.length) with
    | none => d.ends x (if schemaOk t (parN x 3) then .range else .version) 0
    | some (ws, n) => configure d x t (hIndex x.handle) ws n

/-! ### DESTROY (R80, R157) -/

/-- The handles that a live object's configuration names (R80). A source of a stream and the source of a recorder are no
references (R411, R427). -/
def refsOf (t : Nat) (ws : List Word) : List Word :=
  (match t with
   | 2 => [word ws 4, word ws 5, word ws 27]
   | 3 => [chRefLoop 0 ws]
   | 4 => [chRefLoop 40 ws, word ws 11]
   | 5 => [word ws 2]
   | 6 => (seqSteps ws).flatMap fun st => [word st 1, word st 2]
   | 9 => (ws.drop 4).take 4
   | 10 => if nkKind ws = 1 then [nkBind ws] else []
   | _ => []).filter (· != 0)

/-- The generators that a live object's configuration names and does not define (R157). -/
def gensNamed (t : Nat) (ws : List Word) : List Nat :=
  (match t with
   | 1 => [lcTrig ws]
   | 2 => (railRequests ws).map rqTrig
   | 3 => [rqTrig (chImeas 0 ws), rqTrig (chVmeas 0 ws)]
   | 4 => [rqTrig (chImeas 40 ws), rqTrig (chVmeas 40 ws)]
   | 5 => (sfMembers ws).flatMap fun x => [rqTrig (sfIn ws x 0), rqTrig (sfIn ws x 1)]
   | _ => [])

/-- The first live object, lowest type and index first, other than slot `key`, that satisfies `p`. -/
def Dev.firstLive (d : Dev) (key : Nat) (p : Nat → List Word → Bool) : Option Word :=
  (d.slots.find? fun s => s.1 != key && s.2.isLive && p (s.1 / 4096) s.2.cfg).map fun s =>
    mkHandle (s.1 / 4096) (s.1 % 4096) s.2.gen

/-- The generators whose only definer is a slot. -/
def Dev.soleGens (d : Dev) (key : Nat) : List Nat :=
  (d.pwm.gens.filter fun g => g.2.definers == [key]).map (·.1)

/-- The object that keeps a handle from being destroyed. -/
def Dev.holderOf (d : Dev) (h : Word) : Option Word :=
  let key := slotKey (hType h) (hIndex h)
  (d.firstLive key fun t ws => (refsOf t ws).contains h) <|>
    (if (d.soleGens key).isEmpty then none
     else d.firstLive key fun t ws => (gensNamed t ws).any (d.soleGens key).contains)

/-- The release of a handle that runs nothing. -/
def releaseHandle (d : Dev) (t i : Nat) : Dev :=
  let h := d.handleOf t i
  let d := finishDestroy (if t = tSeq then seqUnload d i else d) t i
  ledNote (settle (if t = tSensor then kilnApply h d else d))

/-- DESTROY with FORCE of an ENABLED handle: the object's own stop first (R80). -/
def forceDestroy (d : Dev) (x : Desc) (t i : Nat) : Dev × Answer :=
  let h := x.handle
  match t with
  | 1 => (releaseHandle (disableLoop d i) t i, .done .ok 0)
  | 2 =>
    if (d.rail i).run = .faulted then (releaseHandle (railOff d i) t i, .done .ok 0)
    else (railStop (d.addWait x.src .destroyForce h) i, .waits)
  | 3 => (chanStop (d.addWait x.src .destroyForce h) i, .waits)
  | 4 => (chanStop (d.addWait x.src .destroyForce h) (40 + i), .waits)
  | 5 => srcShut x.src .destroyForce d i
  | 6 => seqDestroy x.src d i
  | 7 => (releaseHandle (monDisable d i) t i, .done .ok 0)
  | 8 => (releaseHandle (battDisable d i) t i, .done .ok 0)
  | 9 => (releaseHandle (sensDisable d i) t i, .done .ok 0)
  | 10 => (releaseHandle (strmStop d i) t i, .done .ok 0)
  | _ => (releaseHandle (witDisable d (slotKey t i)) t i, .done .ok 0)

/-- DESTROY. -/
def opDestroy : OpFn := fun d x =>
  let t := hType x.handle
  let i := hIndex x.handle
  match d.holderOf x.handle with
  | some h => d.ends x .busy h.toNat
  | none =>
    if (d.slot t i).hstate != .enabled then (releaseHandle d t i).ends x .ok 0
    else if bitsN x.flags.toNat 1 1 = 0 then d.ends x .state 0
    else
      let r := forceDestroy d x t i
      answered x (ledNote r.1, r.2)

/-! ### ENABLE and DISABLE (Tables 5.8, 6.14, 7.14, 8.13, 9.8, 11.12, 12.13, 13.4, 15.8, 16.4) -/

/-- A handle whose element a sequence names, or a LOOP that a RAIL owns, is not enabled or disabled by the host. -/
def Dev.ownedElsewhere (d : Dev) (t i : Nat) : Bool :=
  (d.seqNaming (d.handleOf t i)).isSome || (t == tLoop && (d.railOfLoop i).isSome)

/-- ENABLE of a DISABLED handle. -/
def enableObj (d : Dev) (x : Desc) (t i : Nat) : Dev × Answer :=
  let h := x.handle
  match t with
  | 1 => if bits (par x 0) 1 31 = 0 then (enableLoop d i (!bit (par x 0) 0), .done .ok 0) else (d, .done .range 0)
  | 2 => if (d.rail i).run = .off then (railStart (d.addWait x.src .enable h) i, .waits) else (d, .done .state 0)
  | 3 => (chanEnable (d.addWait x.src (if bit (par x 0) 0 then .enableStart else .enable) h) i, .waits)
  | 4 => (chanEnable (d.addWait x.src .enable h) (40 + i), .waits)
  | 5 => srcEnable x.src d i
  | 7 => monEnableCmd d i
  | 8 => battEnable x.src d i
  | 9 => sensEnable x.src d i
  | 10 => strmEnable x.src d i
  | _ => (witEnable d (slotKey t i), .done .ok 0)

/-- ENABLE. -/
def opEnable : OpFn := fun d x =>
  let t := hType x.handle
  let i := hIndex x.handle
  if t = tSeq then answered x (seqEnable x.src d i)
  else if (d.slot t i).hstate != .disabled || d.ownedElsewhere t i then d.ends x .state 0
  else
    let r := enableObj d x t i
    answered x (ledNote r.1, r.2)

/-- DISABLE of an ENABLED handle. -/
def disableObj (d : Dev) (x : Desc) (t i : Nat) : Dev × Answer :=
  let h := x.handle
  match t with
  | 1 => (disableLoop d i, .done .ok 0)
  | 2 =>
    if (d.rail i).run = .faulted then
      (Dev.modSlot (d.modRail i fun r => { r with run := .off }) tRail i fun s => { s with hstate := .disabled }, .done .ok 0)
    else (railStop (d.addWait x.src .disable h) i, .waits)
  | 3 => (chanStop (d.addWait x.src .disable h) i, .waits)
  | 4 => (chanStop (d.addWait x.src .disable h) (40 + i), .waits)
  | 5 => srcDisable x.src d i
  | 7 => monDisableCmd d i
  | 8 => (battDisable d i, .done .ok 0)
  | 9 => (sensDisable d i, .done .ok 0)
  | 10 => strmDisable d i
  | _ => (witDisable d (slotKey t i), .done .ok 0)

/-- DISABLE. -/
def opDisable : OpFn := fun d x =>
  let t := hType x.handle
  let i := hIndex x.handle
  if t = tSeq then answered x (seqDisable x.src d i)
  else if (d.slot t i).hstate != .enabled || d.ownedElsewhere t i then d.ends x .state 0
  else
    let r := disableObj d x t i
    answered x (ledNote r.1, r.2)

/-- STREAM_START. -/
def opStreamStart : OpFn := fun d x =>
  if (d.slot tStream (hIndex x.handle)).hstate != .disabled then d.ends x .state 0
  else answered x (strmEnable x.src d (hIndex x.handle))

/-- STREAM_STOP. -/
def opStreamStop : OpFn := fun d x =>
  if (d.slot tStream (hIndex x.handle)).hstate != .enabled then d.ends x .state 0
  else answered x (strmDisable d (hIndex x.handle))

/-! ### SET_POINT and CLEAR -/

/-- SET_POINT of a LOOP (R134). -/
def loopSetPoint (d : Dev) (x : Desc) (i : Nat) : Dev × Answer :=
  let s := d.slot tLoop i
  let k := bits (par x 0) 0 9
  let v := sx 16 (bits (par x 1) 0 16)
  if lcKcount s.cfg ≤ k then (d, .done .range 0)
  else if s.swap then (d, .done .busy 0)
  else if s.hstate == .disabled || (d.loop i).latch != .running then
    (d.modSlot tLoop i fun s => { s with bankA := setCoef s.bankA k v, bankB := setCoef s.bankB k v }, .done .ok (twos 16 v))
  else ((d.modLoop i fun r => { r with setPoints := r.setPoints ++ [(k, v)] }).addWait x.src (.setPoint v) x.handle, .waits)

/-- A pending set point of a handle ends with ABORTED, superseded. -/
def abortSetPoint (d : Dev) (h : Word) : Dev :=
  d.endWaits (fun w => w.handle == h && (match w.kind with | .setPoint _ => true | _ => false)) fun w => plainCpl .aborted w.handle 0

/-- SET_POINT of a RAIL, in mV: a ramp at REF_SLEW while it is ON (R165, R193). -/
def railSetPoint (d : Dev) (x : Desc) (i : Nat) : Dev × Answer :=
  let v := bits (par x 0) 0 16
  let vfs := bits (d.railW i 7) 16 16
  if 100 * v < 5 * vfs ∨ 95 * vfs < 100 * v then (d, .done .range 0)
  else
    let d := abortSetPoint d x.handle
    if (d.rail i).run = .on then
      let t := refOf v vfs
      let d := d.modRail i fun r => { r with vset := v, target := t, step := d.rampStep i (bits (d.railW i 30) 0 16) 10, ramping := true }
      if (d.rail i).ref = t then (d.modRail i fun r => { r with ramping := false }, .done .ok v)
      else (d.addWait x.src (.setPoint v) x.handle, .waits)
    else (d.modRail i fun r => { r with vset := v }, .done .ok v)

/-- SET_POINT. -/
def opSetPoint : OpFn := fun d x =>
  let i := hIndex x.handle
  match hType x.handle with
  | 1 => answered x (loopSetPoint d x i)
  | 2 => answered x (railSetPoint d x i)
  | 5 => answered x (srcSetPoint x.src d i (bits (par x 0) 0 4))
  | 8 => answered x (battSetPoint d i (parN x 0) (parN x 1) (parN x 2))
  | _ => d.ends x .state 0

/-- CLEAR bit 1 of a RAIL: its fenced phases are tried again, while DISABLED (R187, R193). -/
def railClear (d : Dev) (i : Nat) (v : Word) : Dev × Answer :=
  if !bit v 1 then (d, .done .ok 0)
  else if (d.slot tRail i).hstate != .disabled then (d, .done .state 0)
  else
    ((d.railPhases i).foldl (fun d p => d.modPhase p fun y => (if y.state = .fenced then { y with state := .off } else y)) d,
     .done .ok 0)

/-- CLEAR. -/
def opClear : OpFn := fun d x =>
  let i := hIndex x.handle
  let v := par x 0
  match hType x.handle with
  | 1 => (loopClear d i v).ends x .ok 0
  | 2 => answered x (railClear d i v)
  | 3 => (feedClear d i v).ends x .ok 0
  | 4 => (branchClear d i v).ends x .ok 0
  | 5 => ((if bit v 2 then clearFaults i else id) (srcClear d i v)).ends x .ok 0
  | 6 => (seqClear d i v).ends x .ok 0
  | 7 => (monClear d i v).ends x .ok 0
  | 8 => answered x (battClear d i v)
  | 11 => (witClear d (slotKey tHist i) v).ends x .ok 0
  | 12 => (witClear d (slotKey tExtr i) v).ends x .ok 0
  | _ => d.ends x .ok 0

/-! ### FENCE (R384) -/

/-- FENCE: the handle is fenced with cause HOST. -/
def opFence : OpFn := fun d x => (ledNote (fenceHandle (hType x.handle) (hIndex x.handle) 5 d)).ends x .ok 0

/-! ### Banks (R14, R15, R16, R82, R141) -/

/-- Whether offset and length lie in a bank; a LOOP's are even (R141). -/
def bankSpanOk (s : Slot) (t off len : Nat) : Bool :=
  decide (off + len ≤ s.bankA.length) && (t != tLoop || (off % 2 == 0 && len % 2 == 0))

/-- BANK_WRITE: into the shadow bank (R14, R15). -/
def opBankWrite : OpFn := fun d x =>
  let t := hType x.handle
  let i := hIndex x.handle
  let s := d.slot t i
  let len := parN x 2
  let off := parN x 3
  if s.bankA.isEmpty then d.ends x .state 0
  else if s.swap then d.ends x .busy 0
  else if !bankSpanOk s t off len then d.ends x .range 0
  else
    match sourceBytes x 0 len with
    | none => d.ends x .range 0
    | some b => (d.modSlot t i fun s => s.setShadow (splice s.shadow (b ++ zeros (len - b.length)) off)).ends x .ok len

/-- BANK_READ: the active bank, or the shadow bank with SHADOW. -/
def opBankRead : OpFn := fun d x =>
  let t := hType x.handle
  let s := d.slot t (hIndex x.handle)
  let len := parN x 2
  let off := parN x 3
  if s.bankA.isEmpty then d.ends x .state 0
  else if !bankSpanOk s t off len || !destOk x len then d.ends x .range 0
  else
    let b := if bitsN x.flags.toNat 3 1 = 1 then s.shadow else s.active
    d.endsWith x (paramAddr x.params 0) ((b.drop off).take len)

/-- BANK_COPY: the active bank into the shadow bank. -/
def opBankCopy : OpFn := fun d x =>
  let s := d.slot (hType x.handle) (hIndex x.handle)
  if s.bankA.isEmpty then d.ends x .state 0
  else if s.swap then d.ends x .busy 0
  else (d.modSlot (hType x.handle) (hIndex x.handle) fun s => s.setShadow s.active).ends x .ok 0

/-- The checks of a shadow bank at BANK_SWAP (R549). -/
def swapCheck (d : Dev) (t i : Nat) : Check :=
  let s := d.slot t i
  let bw := wordsOfBytes s.shadow
  match t with
  | 2 => Check.range (railBankOk bw && railBankOrder bw)
  | 3 => feedSwapCheck d i bw
  | 4 => branchSwapCheck d i bw
  | 5 =>
    Check.first [
      Check.range (srcBankOk bw && (decide (s.schema < 2) || (pathReservedOk bw && pathBankOk bw)) &&
        (decide (s.schema < 3) || (modReservedOk bw && modBankOk d.pow.strapAddr s.cfg bw))),
      match srcEnergy s.cfg bw with | some k => shortfall .energyLimit 8 k | none => .pass]
  | 7 => Check.range (monBankOk (mcRatio s.cfg) bw)
  | 8 => Check.range (battBankOk s.shadow)
  | 9 => Check.range (kilnBankOk i bw && field bw 1 16 16 == 0 && field bw 2 24 8 == 0 && word bw 4 == 0 && word bw 5 == 0)
  | _ => .pass

/-- BANK_SWAP: pending until the handle's boundary; a LOOP that runs nothing swaps at once (R14, R142, R143). -/
def opBankSwap : OpFn := fun d x =>
  let t := hType x.handle
  let i := hIndex x.handle
  let s := d.slot t i
  if s.bankA.isEmpty then d.ends x .state 0
  else if s.swap then d.ends x .busy 0
  else
    match swapCheck d t i with
    | .fail st r => d.ends x st r.toNat
    | .pass =>
      let d := (d.modSlot t i fun s => { s with swap := true }).addWait x.src .swap x.handle
      if t = tLoop && (s.hstate == .disabled || (d.loop i).latch != .running) then (swapLoop d i ((d.loop i).runs + 1), .waits)
      else (d, .waits)

end Sys2Proof.Machine
end

