-- ==== Sys2Proof/Machine/Query.lean ====
section
/-! DEFINITION. What the device tells: state words (QUERY_STATE), blocks (QUERY_READ), what is left of each resource, the live
handles and the Kiln records (R83, R548, R550, R551 and the tables of each chapter). -/

namespace Sys2Proof.Machine

/-! ### State words -/

/-- THROW_LOOP_STATE (Table 5.14). -/
def loopState (d : Dev) (l : Nat) : Nat :=
  let s := d.slot tLoop l
  let r := d.loop l
  let lane := match d.thr.placed.find? fun p => p.id == LoopId.user l with | some p => p.lane | none => 0
  s.hstate.code + b2n s.activeB * 4 + b2n s.swap * 8 + b2n (r.latch != .running) * 16 + lane * 32 + min r.missed 255 * 256
    + r.w % 65536 * 2 ^ 32 + min r.ferr 65535 * 2 ^ 48

/-- RAIL_STATE (Table 6.15). -/
def railState (d : Dev) (i : Nat) : Nat :=
  let s := d.slot tRail i
  let r := d.rail i
  s.hstate.code + r.run.code * 4 + b2n r.pg * 32 + b2n r.limited * 64 + b2n r.light * 128 + b2n s.activeB * 256
    + b2n s.swap * 512 + (d.activePhases i).length * 2 ^ 10 + (d.okPhases i).length * 2 ^ 14 + d.fencedMask i * 2 ^ 18
    + fitU 16 (d.railVout i) * 2 ^ 32 + fitS 16 (roundOpen (d.railIsum i) 10) * 2 ^ 48

/-- The device state word (R551). -/
def deviceState (d : Dev) : Nat :=
  sysId + d.plane.profile.code * 2 ^ 32 + d.plane.profilePending.code * 2 ^ 34 + b2n d.plane.profileChanging * 2 ^ 36

/-- The state word of a live handle. -/
def stateWord (d : Dev) (t i : Nat) : Nat :=
  match t with
  | 1 => loopState d i
  | 2 => railState d i
  | 3 => feedState d i
  | 4 => branchState d i
  | 5 => srcState d i
  | 6 => seqState d i
  | 7 => monState d i
  | 8 => battState d i
  | 9 => sensState d i
  | 10 => strmState d i
  | 11 => witState d (slotKey t i)
  | 12 => witState d (slotKey t i)
  | _ => 0

/-! ### Blocks -/

/-- THROW_LOOP_STATS (Table 5.12). -/
def loopStats (d : Dev) (l : Nat) : List Byte :=
  let r := d.loop l
  let n (v : Nat) := leBytes 4 (min v (2 ^ 32 - 1))
  leBytes 4 r.runs.toNat ++ n r.skipped ++ n r.overrun ++ n r.accSat ++ n r.dSat ++ n r.trips ++ n r.maxWait ++
    leBytes 4 r.lastSwapRun.toNat

/-- Telemetry of a channel; zeros before its first turn. -/
def chanTelemBlock (d : Dev) (c : Nat) : List Byte :=
  if (d.chan c).telem.isEmpty then zeros 32 else (d.chan c).telem

/-- HOST_EVENTS (R70). -/
def hostEvents (d : Dev) : List Byte :=
  0x01 :: zeros 7 ++ (List.range 16).flatMap fun c => leBytes 4 (tget 0 d.host.unselected c)

/-- A block of the device, by its selector. -/
def deviceBlock (d : Dev) (sel : Nat) : List Byte :=
  match sel with
  | 0x0300 => hostEvents d
  | 0x0A00 => faultnBlock d d.srcStuckSource
  | 0x0B00 => kilnBlock d
  | 0x0C00 => memErrorsBlock d
  | 0x0C01 => sagStatusBlock d
  | 0x0D00 => netStatus d
  | 0x0F00 => witStatus d
  | 0x1000 => twbStatus d
  | 0x1001 => modTelem d
  | 0x1100 => tallyBlock d 0
  | 0x1101 => tallyBlock d 1
  | _ => ledBlock d sel

/-- A block of a live handle, by its selector. -/
def handleBlock (d : Dev) (t i sel : Nat) : List Byte :=
  match t, sel with
  | 1, 0 => loopStats d i
  | 1, _ => ((d.loop i).s).flatMap fun v => leBytes 2 (twos 16 v)
  | 3, 0 => chanTelemBlock d i
  | 3, _ => faultBlock d i
  | 4, 0 => chanTelemBlock d (40 + i)
  | 4, 1 => faultBlock d (40 + i)
  | 4, _ => branchHealthBlock d i
  | 5, _ => srcXferBlock d i
  | 6, _ => seqStepsBlock d i
  | 8, 0 => battTelemBlock d i
  | 8, _ => battLearnBlock d i
  | 9, _ => leBytes 4 (tget 0 d.acq.tdWord i).toNat
  | 11, 0 => witLatched d (slotKey t i)
  | 11, _ => witRunning d (slotKey t i)
  | 12, 0 => witLatched d (slotKey t i)
  | 12, _ => witRunning d (slotKey t i)
  | _, _ => []

/-! ### What the Hearth knows while the Flue is fenced (R548) -/

/-- The types whose objects are the Firebox's. -/
def fireboxTypes : List Nat := [tRail, tFeed, tBranch, tSource, tSeq, tMon, tSensor]

/-- The last values known: the state words and blocks of every object of the Firebox, and the Firebox's own blocks. -/
def knownValues (d : Dev) : List ((Word × Nat) × List Byte) :=
  [((0, 0x0A00), deviceBlock d 0x0A00), ((0, 0x0B00), deviceBlock d 0x0B00)] ++
    fireboxTypes.flatMap fun t => (d.liveIndices t).flatMap fun i =>
      ((d.handleOf t i, 65536), leBytes 8 (stateWord d t i)) ::
        (selectorsOf t).map fun sel => ((d.handleOf t i, sel), handleBlock d t i sel)

/-- A change of the device after which, if it fences the Flue, the Hearth keeps what it knew. -/
def keepKnown (f : Dev → Dev) (d : Dev) : Dev :=
  let d' := f d
  if d'.sag.fenced.contains 9 && !d.sag.fenced.contains 9 then { d' with sag := { d'.sag with known := knownValues d } } else d'

/-- What the Hearth keeps of a word or block. -/
def Dev.knownOf (d : Dev) (h : Word) (sel : Nat) : Option (List Byte) :=
  if d.sag.fenced.contains 9 then (d.sag.known.find? fun k => k.1 == (h, sel)).map (·.2) else none

/-- Byte `n` of a block with a bit set. -/
def setBit (b : List Byte) (n k : Nat) : List Byte :=
  if n < b.length then splice b [BitVec.ofNat 8 (byteField b n 1 ||| 2 ^ k)] n else b

/-- DEFAULTED in a block whose format carries it, while the Flue is fenced. -/
def markDefaulted (d : Dev) (h : Word) (sel : Nat) (b : List Byte) : List Byte :=
  if !d.sag.fenced.contains 9 then b
  else if h = 0 then
    (if sel = 0x0800 then setBit b 2 6 else if sel = 0x1100 ∨ sel = 0x1101 then setBit b 1 2 else b)
  else
    match hType h, sel with
    | 3, 0 => setBit b 23 4
    | 4, 0 => setBit b 23 4
    | 8, 0 => setBit b 1 2
    | 11, _ => setBit b 1 4
    | 12, _ => setBit b 1 4
    | _, _ => b

/-- A block as it reads: of the device for the null handle, else of a live handle. -/
def blockOf (d : Dev) (h : Word) (sel : Nat) : List Byte :=
  markDefaulted d h sel ((d.knownOf h sel).getD
    (if h = 0 then deviceBlock d sel else handleBlock d (hType h) (hIndex h) sel))

/-! ### QUERY_STATE and QUERY_READ (R83, R551) -/

/-- QUERY_STATE. -/
def opQueryState : OpFn := fun d x =>
  if x.handle = 0 then d.ends x .ok (deviceState d)
  else
    match d.knownOf x.handle 65536 with
    | some b => d.ends x .ok (ofLe b)
    | none => d.ends x .ok (stateWord d (hType x.handle) (hIndex x.handle))

/-- QUERY_READ of a SENSOR requests a conversion and waits for it; while the Flue is fenced it answers with the last word
(R377, R548). -/
def sensorRead (d : Dev) (x : Desc) : Dev × Reply :=
  if d.sag.fenced.contains 9 then readOut d x 0 (blockOf d x.handle 0)
  else if !destOk x (parN x 2) then d.ends x .range 0
  else (requestTd (hIndex x.handle) (d.addWait x.src (.convert (paramAddr x.params 0) (parN x 2)) x.handle), .waits)

/-- QUERY_READ. -/
def opQueryRead : OpFn := fun d x =>
  let sel := parN x 3
  if !(selectorsOf (if x.handle = 0 then 0 else hType x.handle)).contains sel then d.ends x .range 0
  else if hType x.handle = tSensor then sensorRead d x
  else readOut d x 0 (blockOf d x.handle sel)

/-! ### QUERY_RESOURCES and QUERY_HANDLES (R550, R551) -/

/-- The largest C of a loop with a 1 µs trigger period that a lane would take. -/
def laneRoom (ceiling : Nat) (lane : List Placed) : Nat :=
  let n : Placed := ⟨.user 0, 0, 0, 0, 1024000, 1⟩
  if windowTest ceiling (lane ++ [n]) then
    lane.foldl (fun m j => min m ((triggerWindow ceiling j - windowUse lane j) / max 1 (periodRatio j n)))
      (triggerWindow ceiling n - windowUse lane n)
  else 0

/-- What remains of the drive budget in kHz·phase. -/
def driveLeft (d : Dev) : Nat :=
  let s := driveUse d
  (roundOpen ((48000 * s.2 : Nat) - (s.1 * 4000000 : Nat) : Int) (max 1 s.2)).toNat

/-- The calibration word: FS converters, SV, TD, and the PD groups whose four channels hold valid factors. -/
def calWord (d : Dev) : Nat :=
  maskOf (fsConvs.filter d.fsValid) + b2n d.acq.calSv.valid * 2 ^ 12 + 2 ^ 13 +
    maskOf ((List.range 8).filter fun g => (List.range 4).all fun k => (tget ({} : Factors) d.acq.calPd (4 * g + k)).valid) * 2 ^ 16

/-- The number of handles of all types together. -/
def handleLimit : Nat := ((List.range 13).map typeLimit).foldl (· + ·) 0

/-- QUERY_RESOURCES' eight words. -/
def resourceWords (d : Dev) : List Nat :=
  [handleLimit - (d.slots.filter fun p => p.2.isLive).length,
   calWord d,
   (memCapacity.1 - slotSum d (·.instr)) + (memCapacity.2.1 - slotSum d (·.coef)) + (memCapacity.2.2 - slotSum d (·.sram)),
   192 - (fsConvs.map fun c => (d.conv c).slots.length).foldl (· + ·) 0,
   48 - (d.pwm.phases.filter fun p => p.2.owner.isSome).length,
   driveLeft d,
   lanes.foldl (fun m l => max m (laneRoom d.plane.ceiling (onLane d.thr.placed l))) 0,
   0xFFFFFFFF]

/-- QUERY_RESOURCES. -/
def opQueryResources : OpFn := fun d x => readOut d x 0 ((resourceWords d).flatMap (leBytes 4))

/-- The live handles of a type in index order. -/
def Dev.liveHandles (d : Dev) (t : Nat) : List Word :=
  ((d.liveIndices t).filter fun i => (d.slot t i).isLive).map (d.handleOf t)

/-- QUERY_HANDLES: whole handle words, as many as the buffer holds; the result is how many are live. -/
def opQueryHandles : OpFn := fun d x =>
  let t := parN x 0
  let hs := d.liveHandles t
  if typeLimit t = 0 || !destOk x (parN x 3) then d.ends x .range 0
  else
    (d, .done ⟨.ok, x.handle, BitVec.ofNat 64 hs.length, bytesOfWords (hs.take (parN x 3 / 4)), paramAddr x.params 1⟩)

/-! ### KILN_READ (R83) -/

/-- The newer copy of a record, zeros where there is none. -/
def newerCopy (t : List (Nat × Copies)) (i n : Nat) : List Byte :=
  let b := (tget ({} : Copies) t i).newer
  if b.isEmpty then zeros n else b

/-- The record that a selector names. -/
def kilnRecord (d : Dev) (sel : Nat) : Option (List Byte) :=
  if sel = 0x0010 then some (if d.kiln.cal.isEmpty then zeros 672 else d.kiln.cal)
  else if 0x0100 ≤ sel ∧ sel < 0x0118 then some (newerCopy d.kiln.rails (sel - 0x0100) 64)
  else if 0x0200 ≤ sel ∧ sel < 0x0204 then some (newerCopy d.kiln.branches (sel - 0x0200) 32)
  else if 0x0300 ≤ sel ∧ sel < 0x0308 then some (newerCopy d.kiln.strings (sel - 0x0300) 64)
  else if 0x0310 ≤ sel ∧ sel < 0x0318 then some (d.zTable (sel - 0x0310))
  else if sel = 0x0400 then some (sitterRecord d)
  else if sel = 0x0500 then some (bbRecord d false)
  else if sel = 0x0501 then some (bbRecord d true)
  else if sel = 0x0600 then some (updateRecord d)
  else none

/-- KILN_READ. -/
def opKilnRead : OpFn := fun d x =>
  match kilnRecord d (parN x 0) with
  | some b => readOut d x 1 b
  | none => d.ends x .range 0

/-! ### What fences the Flue (R391, R548) -/

/-- SRAM_LINE_READ. -/
def execSramLineRead (events : List LineEvent) (read : LineRead) (s : State) : Out :=
  s.onDev fun _ d => keepKnown (lineRead events read) d
/-- SCRUB. -/
def execScrub (events : List LineEvent) (s : State) : Out := s.onDev fun _ d => keepKnown (scrub events) d
/-- FLUE_CRC_FAIL. -/
def execFlueCrcFail (lane run : Nat) (s : State) : Out := s.onDevAt 32 lane fun _ d => keepKnown (flueCrcFail lane run) d
/-- FIREBOX_SILENCE: the Hearth sees no Firebox flit for SYS_FLUE_TO.TIME (R391). -/
def execFireboxSilence (s : State) : Out := s.onDev fun _ d => keepKnown (fenceUnit 9 8) d
/-- FLUE_TAKEOVER_REPORT: the Hearth learns of the takeover and fences the Flue, unless it is fenced (R548). -/
def execFlueTakeoverReport (s : State) : Out :=
  s.onDev fun _ d =>
    if d.sag.fenced.contains 9 || !d.plane.takeover || d.plane.hearthRestarted then d else keepKnown (fenceUnit 9 8) d

/-! ### Frames (R412) -/

/-- STREAM_EMISSION. -/
def execStreamEmission (stream : Nat) (resolved : Bool) (s : State) : Out :=
  s.onDevAt 64 stream fun _ d => streamEmission blockOf stream resolved d

end Sys2Proof.Machine
end

