-- ==== Sys2Proof/Machine/Wheel.lean ====
section
/-! DEFINITION. The Wheel (spec 02): mains edges, missed edges, the tick count, turn and round numbers. -/

namespace Sys2Proof.Machine

/-- State codes of Table 2.1. -/
def WheelState.code : WheelState → Nat
  | .free => 0 | .acquire => 1 | .slew => 2 | .locked => 3 | .coast => 4

/-- The input that WHEEL_CFG.SRC selects; with SRC = 2 the one the fall-back chose (R30). -/
def Wheel.selected (w : Wheel) : Bool := if w.src == 1 then true else if w.src == 2 then w.input else false

/-- The phase error of a tick count: −32,768 to +32,767 (R32). -/
def phaseError (tick : Nat) : Int := sx 16 tick

/-- A remaining error one period later: 1,024 wt nearer zero (R33). -/
def slewTowardZero (r : Int) : Int := if r < 0 then min 0 (r + 1024) else max 0 (r - 1024)

/-- The nominal period in 10 ns units (R35). -/
def nominalPeriod (sixty : Bool) : Nat := if sixty then 1666700 else 2000000

/-- The mean of a list of periods (its rounding is open, log entry 3). -/
def meanPeriod (ps : List Nat) (dflt : Nat) : Nat :=
  if ps.isEmpty then dflt else (roundOpen (ps.foldl (· + ·) 0 : Nat) ps.length).toNat

/-- Whether an interval lies in the lock range of 42 to 68 Hz (R29). -/
def intervalValid (dt : Nat) : Bool := 1470600 ≤ dt && dt ≤ 2381000

/-- Whether a phase lies in the edge window of the present state (Table 2.1). A SLEW window that reaches beyond ±32,768 wt is
not wrapped (log entry 79). -/
def Wheel.inWindow (w : Wheel) (e : Int) : Bool :=
  match w.state with
  | .locked => decide (-8192 ≤ e ∧ e ≤ 8192)
  | .slew => decide (-8192 ≤ e - slewTowardZero w.r ∧ e - slewTowardZero w.r ≤ 8192)
  | _ => true

/-- What the Wheel remembers of an input. -/
def Wheel.inputOf (w : Wheel) (ac : Bool) : EdgeInput := if ac then w.acSense else w.mains

/-- Change what the Wheel remembers of an input. -/
def Wheel.setInput (w : Wheel) (ac : Bool) (i : EdgeInput) : Wheel :=
  if ac then { w with acSense := i } else { w with mains := i }

/-- Enter a state: the running turn's flags gather it (R39). -/
def Wheel.enter (w : Wheel) (st : WheelState) : Wheel :=
  { w with
    state := st
    everLocked := w.everLocked || st == .locked
    coastFlag := w.coastFlag || st == .free || st == .acquire || st == .coast
    slewFlag := w.slewFlag || st == .slew }

/-- A valid edge in ACQUIRE advances its run, or breaks it and begins the next (R31); an edge that follows no accepted edge
on its input, after a change of input, is edge 1 of a new run (log entry 79). -/
def Wheel.acquireEdge (w : Wheel) (period : Option Nat) : Wheel :=
  match period, w.runPeriods with
  | none, _ => { w with runEdges := 1, runPeriods := [] }
  | some t, [] => { w with runEdges := 2, runPeriods := [t] }
  | some t, p :: ps =>
    if 1000 * (max p t - min p t) ≤ 5 * p then { w with runEdges := w.runEdges + 1, runPeriods := t :: p :: ps }
    else { w with runEdges := 2, runPeriods := [t] }

/-- A valid edge with phase error `e`, `period` after the accepted edge before it (R29, R31 to R33). -/
def Wheel.validEdge (w : Wheel) (e : Int) (period : Option Nat) : Wheel :=
  let w := { w with missedRow := 0, lastPeriods := ((match period with | some p => [p] | none => []) ++ w.lastPeriods).take 8 }
  match w.state with
  | .free => { (w.enter .acquire) with runEdges := 1, runPeriods := [] }
  | .coast => { (w.enter .acquire) with runEdges := 1, runPeriods := [] }
  | .acquire =>
    let w := w.acquireEdge period
    if w.runEdges = 8 then
      let w := { w with period := meanPeriod w.runPeriods w.period, runEdges := 0, runPeriods := [] }
      if -64 ≤ e ∧ e ≤ 64 then { (w.enter .locked) with r := 0 } else { (w.enter .slew) with r := e }
    else w
  | .slew => if -64 ≤ e ∧ e ≤ 64 then { (w.enter .locked) with r := 0 } else { w with r := e }
  | .locked =>
    let p := w.period
    let w := { w with period := (p + roundOpen ((period.getD p : Int) - p) 8).toNat }
    if -1024 ≤ e ∧ e ≤ 1024 then w else { (w.enter .slew) with r := e }

/-- The second consecutive missed edge: COAST on the held period, the mean of the last 8 valid periods, or of as many as there
are (R31, R35, log entry 79). -/
def Wheel.loseLock (w : Wheel) : Wheel :=
  let held := if w.everLocked then meanPeriod w.lastPeriods w.held else nominalPeriod w.nominal60
  { (w.enter .coast) with held := held, period := held, missedRow := 0, r := 0 }

/-- The event of a state change (Table 2.10). -/
def Dev.raiseWheelState (d : Dev) (old : WheelState) : Dev :=
  if d.wheel.state = old then d
  else d.raise 0x0101 (d.wheel.state.code + old.code * 256) 0

/-- An edge on an input that is high for 2 µs and lies outside the dead time of a quarter of the tracked period, in whole
10 ns units (R28, log entry 79). -/
def Wheel.edgeTaken (w : Wheel) (ac : Bool) (highNs time : Nat) : Bool :=
  decide (2000 ≤ highNs) && (match (w.inputOf ac).lastRaw with | some t => decide (t + w.period / 4 ≤ time) | none => true)

/-- Whether a compensated edge follows the one before it on its input by an interval of R29. -/
def Wheel.edgeInterval (w : Wheel) (ac : Bool) (comp : Nat) : Bool :=
  match (w.inputOf ac).lastComp with | some t => intervalValid (comp - t) | none => true

/-- What an accepted edge leaves in the memory of its input. -/
def Wheel.edgeNoted (w : Wheel) (ac valid : Bool) (time comp : Nat) : Wheel :=
  w.setInput ac { w.inputOf ac with
    lastRaw := some time, lastComp := some comp, lastValid := if valid then some comp else (w.inputOf ac).lastValid }

/-- The condition of a fall-back or of the return from it, at a time: SRC = 2, the input in use has given no valid edge for two
expected periods, and the other one has given one within them (R30). An input that never gave a valid edge counts as silent
(log entry 79). -/
def Wheel.mayFallBack (w : Wheel) (time : Nat) : Bool :=
  w.src == 2 && decide ((w.inputOf w.selected).lastValid.getD 0 + 2 * w.period ≤ time) &&
    (match (w.inputOf (!w.selected)).lastValid with | some t => decide (time ≤ t + 2 * w.period) | none => false)

/-- A rising edge on an input: where it is accepted, compensated by WHEEL_CFG.DELAY, then validated (R28 to R33). An edge of
the input not in use is valid by its interval alone (log entry 79). -/
def mainsEdge (ac : Bool) (highNs time tick : Nat) (d : Dev) : Dev :=
  let w := d.wheel
  if !w.edgeTaken ac highNs time then d
  else
    let comp := time - w.delay.toNat * 10
    let e := phaseError tick
    let valid := w.edgeInterval ac comp && (ac != w.selected || w.inWindow e)
    let w1 := w.edgeNoted ac valid time comp
    if ac = w.selected then
      if valid then
        let w2 := w1.validEdge e ((w.inputOf ac).lastComp.map fun t => comp - t)
        Dev.raiseWheelState { d with wheel := { w2 with tick := tick } } w.state
      else { d with wheel := { w1 with rejected := satAdd 12 w1.rejected 1, tick := tick } }
    else
      { d with wheel := { w1 with switchPending := w1.switchPending || (valid && w1.mayFallBack comp), tick := tick } }

/-- A SLEW or LOCKED window ends without a valid edge (R31). -/
def missedEdge (d : Dev) : Dev :=
  let w := d.wheel
  if w.state = .slew ∨ w.state = .locked then
    let w1 := { w with missed := satAdd 12 w.missed 1, missedRow := w.missedRow + 1, missedTurn := w.missedTurn + 1,
                       r := slewTowardZero w.r }
    let w2 := if w1.missedRow = 2 then w1.loseLock else w1
    let d1 := Dev.raiseOnceTurn { d with wheel := w2 } 0x0103 0x0103 w1.missedTurn 0
    d1.raiseWheelState w.state
  else d

/-- The turn of the next round boundary (R37). -/
def Wheel.nextBoundary (w : Wheel) : BitVec 48 :=
  let l := max 1 w.length.toNat
  w.base + BitVec.ofNat 48 (((w.turn - w.base).toNat / l + 1) * l)

/-- Whether the present turn is the first of a round (R37). -/
def Wheel.atRoundBoundary (w : Wheel) : Bool := (w.turn - w.base).toNat % max 1 w.length.toNat == 0

/-- The Wheel at tick 0: the turn number advances, the flags of the ended turn are kept, WHEEL_CFG and a pending input
switch take effect (R30, R35, R36, R39). -/
def Wheel.advance (su : Setup) (w : Wheel) : Wheel :=
  let w := { w with
    turn := w.turn + 1, tick := 0, missedTurn := 0
    coastEnded := w.coastFlag, slewEnded := w.slewFlag
    coastRound := w.coastRound || w.coastFlag, slewRound := w.slewRound || w.slewFlag
    coastFlag := w.state == .free || w.state == .acquire || w.state == .coast
    slewFlag := w.state == .slew
    nominal60 := su.wheelNominal, delay := su.wheelDelay }
  let w := if su.wheelSrc = w.src then w
    else { w with src := su.wheelSrc, input := su.wheelSrc == 1, switchPending := false }
  if w.everLocked || w.state == .slew then w
  else { w with held := nominalPeriod w.nominal60, period := nominalPeriod w.nominal60 }

/-- The input switch of SRC = 2 at a turn boundary: counted and reported (R30, R46). -/
def switchInput (d : Dev) : Dev :=
  if d.wheel.switchPending || d.wheel.mayFallBack d.now then
    let w := d.wheel
    Dev.raise { d with wheel := { w with input := !w.input, switchPending := false, switches := satAdd 8 w.switches 1 } }
      0x0102 (b2n (!w.input)) 0
  else d

/-- A pending round length takes effect at the boundary that the old length set (R38). -/
def Wheel.applyLength (w : Wheel) : Wheel :=
  if w.lengthChange then { w with length := w.lengthPending, base := w.turn, lengthChange := false } else w

/-- MAINS_EDGE. -/
def execMainsEdge (ac : Bool) (highNs time tick : Nat) (s : State) : Out :=
  s.onDev fun _ d => mainsEdge ac highNs time tick { d with now := max d.now time }

/-- WHEEL_MISSED_EDGE. -/
def execWheelMissedEdge (s : State) : Out := s.onDev fun _ d => missedEdge d

/-- WHEEL_TURN_LO_READ: the read returns bits [31:0] and captures bits [47:32] (R45, Table 2.5). -/
def execWheelTurnLoRead (s : State) : Out :=
  s.onHost fun _ d =>
    { d with
      wheel := { d.wheel with turnHi := (d.wheel.turn >>> 32).setWidth 16 }
      host := { d.host with rdData := d.wheel.turn.setWidth 32 } }

/-- WHEEL_COUNT (Table 2.9). -/
def Wheel.countWord (w : Wheel) : Nat := w.missed + w.rejected * 2 ^ 12 + w.switches * 2 ^ 24

/-- WHEEL_COUNT_READ: returns and clears the three counts (R7, Table 2.9). -/
def execWheelCountRead (s : State) : Out :=
  s.onHost fun _ d =>
    let w := d.wheel
    { d with
      wheel := { w with missed := 0, rejected := 0, switches := 0 }
      host := { d.host with rdData := BitVec.ofNat 32 w.countWord } }

end Sys2Proof.Machine
end

