-- ==== Sys2Proof/Machine/Opcode.lean ====
section
/-! DEFINITION. The opcode rows: how a descriptor begins on its ring, in a mailbox or by CoAP (R57, R67, R85, R408, R484), and
the device-wide opcodes. Each row of the catalogue has a meaning of its own here. -/

namespace Sys2Proof.Machine

/-! ### Device-wide opcodes -/

/-- SET_PROFILE (R25, R26); a refusal with BUDGET has RESULT 0 (log entry 82). -/
def opSetProfile : OpFn := fun d x =>
  match Profile.ofCode (parN x 0) with
  | none => d.ends x .range 0
  | some p =>
    if (replaceAll p.ceiling d.thr.placed).isNone then d.ends x .budget 0
    else
      let was := d.plane.profileChanging
      let d := { d with plane := { d.plane with profilePending := p, profileChanging := p != d.plane.profile } }
      d.ends x .ok (d.wheel.nextBoundary.toNat + b2n was * 2 ^ 63)

/-- SET_ROUND (R38). -/
def opSetRound : OpFn := fun d x =>
  let v := parN x 0
  if v = 0 ∨ 65535 < v then d.ends x .range 0
  else
    let was := d.wheel.lengthChange
    let l := BitVec.ofNat 16 v
    let d := { d with wheel := { d.wheel with lengthPending := l, lengthChange := l != d.wheel.length } }
    d.ends x .ok (d.wheel.nextBoundary.toNat + b2n was * 2 ^ 63)

/-- RECOVER (R515, R548). -/
def opRecover : OpFn := fun d x =>
  let r := recover d
  r.1.ends x r.2 0

/-- EVENT_WAIT: waits for the oldest queued event of its ring (R69). -/
def opEventWait : OpFn := fun d x =>
  match x.src with
  | .ring n => ({ d with host := d.host.modRing n Ring.pump }, .waits)
  | _ => d.ends x .state 0

/-- STREAM_BUF: a host buffer of at least one frame (R412, R415, R390). -/
def opStreamBuf : OpFn := fun d x =>
  if parN x 2 < 4096 then d.ends x .range 0
  else if d.sag.fenced.contains 10 then d.ends x .fenced 0
  else (d, .waits)

/-- IMG_SHERD (R446, R447): data past the end of what a frame carries is no sherd. -/
def opImgSherd : OpFn := fun d x =>
  match sourceBytes x 1 1024 with
  | some b => answered x (imgSherd x.src (bits (par x 0) 0 12) (bit (par x 0) 31) (b ++ zeros (1024 - b.length)) d)
  | none => answered x (imgSherd x.src 4096 false [] d)

/-- IMG_STATUS: its result is the greenware state, byte 1 of the block (R463). -/
def opImgStatus : OpFn := fun d x =>
  if destOk x (parN x 2) then
    (d, .done ⟨.ok, x.handle, BitVec.ofNat 64 (byteField (imgStatus d) 1 1), (imgStatus d).take (parN x 2), paramAddr x.params 0⟩)
  else d.ends x .range 0

/-- IMG_ACTIVATE. -/
def opImgActivate : OpFn := fun d x => answered x (imgActivate x.src (par x 0) d)

/-- IMG_ROLLBACK. -/
def opImgRollback : OpFn := fun d x => answered x (imgRollback x.src d)

/-- NOP. -/
def opNop : OpFn := fun d x => d.ends x .ok 0

/-- WARM_START. -/
def opWarmStart : OpFn := fun d x => answered x (warmStart x.src d)

/-- DEBUG_UNLOCK (R522). -/
def opDebugUnlock : OpFn := fun d x =>
  match sourceBytes x 0 (parN x 2) with
  | none => d.ends x .range 0
  | some b =>
    let r := debugUnlock b d
    r.1.ends x r.2 0

/-- The effect of each opcode of Table 3.19. -/
def opOf (op : Nat) : OpFn :=
  match op with
  | 0x0101 => opCreate
  | 0x0102 => opDestroy
  | 0x0103 => opConfigure
  | 0x0201 => opBankWrite
  | 0x0202 => opBankSwap
  | 0x0203 => opBankRead
  | 0x0204 => opBankCopy
  | 0x0301 => opEnable
  | 0x0302 => opDisable
  | 0x0303 => opSetPoint
  | 0x0304 => opSetProfile
  | 0x0305 => opSetRound
  | 0x0306 => opClear
  | 0x0307 => opRecover
  | 0x0401 => opQueryState
  | 0x0402 => opQueryRead
  | 0x0403 => opEventWait
  | 0x0404 => opQueryResources
  | 0x0405 => opQueryHandles
  | 0x0501 => opStreamStart
  | 0x0502 => opStreamBuf
  | 0x0503 => opStreamStop
  | 0x0601 => opImgSherd
  | 0x0602 => opImgStatus
  | 0x0603 => opImgActivate
  | 0x0604 => opImgRollback
  | 0x0701 => opNop
  | 0x0702 => opFence
  | 0x0703 => opWarmStart
  | 0x0704 => opKilnRead
  | 0x0705 => opDebugUnlock
  | _ => opNop

/-! ### A descriptor begins on its ring (R57, R67) -/

/-- Whether the entry at place `k` may begin: on a command ring, and for a NOP, once every earlier one has ended. -/
def Ring.mayBegin (r : Ring) (op k : Nat) : Bool :=
  (r.cls != 0 && op != 0x0701) || (r.q.take k).all Entry.isDone

/-- Entry `k` of a ring takes a state. -/
def HostIf.setEntry (h : HostIf) (n k : Nat) (st : EntryState) : HostIf :=
  h.modRing n fun r => { r with q := r.q.modify k fun e => { e with st := st } }

/-- Whether a command on a handle, fetched as number `stamp`, has to wait for one on the same handle that another ring fetched
before it and that has not begun (R81). -/
def HostIf.handleBusy (h : HostIf) (n stamp : Nat) (x : Desc) : Bool :=
  x.handle != 0 && h.rings.any fun p => p.1 != n && p.2.cls == 0 && p.2.q.any fun e =>
    e.st == .held && catalogue.contains e.raw.op && e.raw.op != 0x0101 && e.raw.d.handle == x.handle && decide (e.stamp < stamp)

/-- Where a descriptor begins on its ring: the first of the fetched descriptors equal to it that may begin; where none is
fetched, the ring's next descriptor is fetched and is this one (log entry 2). The device as its effect finds it, and its place. -/
def ringBegins (op n : Nat) (x : Desc) (d : Dev) : Option (Dev × Nat) :=
  let d := sweepRing n d
  let r := d.host.ring n
  let waits (stamp : Nat) : Bool := r.cls == 0 && op != 0x0101 && d.host.handleBusy n stamp x
  if !d.ringServes r then none
  else
    match r.q.findIdx? fun e => e.st == .held && e.raw == ⟨op, x⟩ with
    | some k =>
      if r.mayBegin op k && !waits ((r.q.map (·.stamp)).getD k 0) then some ({ d with host := d.host.setEntry n k .running }, k)
      else none
    | none =>
      if r.fetchRoom ≠ 0 ∧ r.mayBegin op r.q.length = true ∧ waits d.host.fetched = false then
        let d := (d.tally 32 2 1).tally 32 0 1
        some ({ d with host := (d.host.fetchInto n [⟨op, x⟩]).setEntry n r.q.length .running }, r.q.length)
      else none

/-! ### A descriptor in a mailbox (R85, R484) -/

/-- A valid COMMAND takes an EMPTY mailbox. -/
def boxTaken (peer : Bool) (d : Dev) : Dev := (boxWrite peer d).modBox peer fun b => { b with st := .executing }

/-- Whether a COMMAND finds its mailbox EMPTY. -/
def boxFree (peer : Bool) (d : Dev) : Bool := ((boxWrite peer d).twb.box peer).st == .empty

/-- A COMMAND that does not begin: BUSY while the mailbox is not EMPTY, else held until the management plane serves it. -/
def boxTurnsAway (peer : Bool) (op : Nat) (x : Desc) (d : Dev) : Dev :=
  if boxFree peer d then (boxTaken peer d).modBox peer fun b => { b with held := some ⟨op, x⟩ }
  else frameError peer 4 (boxWrite peer d)

/-! ### A descriptor by CoAP (R406 to R408, R446) -/

/-- Whether a request of a session with a Message ID is still being executed. -/
def Dev.coapPending (d : Dev) (k mid : Nat) : Bool :=
  d.waits.any fun w => match w.src with | some (.coap j m _) => j == k && m == mid | _ => false

/-- A block of a stored response is sent again. -/
def coapResend (port : Nat) (resp : List Byte) (block : Nat) (d : Dev) : Dev :=
  ((d.sendOn port (coapBlock resp block)).tally (35 + port) 6 1)

/-- The session that a request arrives in: open, on a port that runs. -/
def Dev.coapSession (d : Dev) (k : Nat) : Option Session :=
  match d.net.sessions.find? fun p => p.1 == k with
  | some (_, s) => if s.isOpen && d.portRuns s.port then some s else none
  | none => none

/-- A request has arrived on a port. -/
def coapHeard (port : Nat) (d : Dev) : Dev := (d.tally (35 + port) 5 1).tally (35 + port) 6 1

/-- The response stored under a Message ID. -/
def Session.storedFor (s : Session) (mid : Nat) : Option (List Byte) := (s.stored.find? fun m => m.1 == mid).map (·.2)

/-- A request that begins: of an open session, with a Message ID not executed before, while the management plane serves. -/
def coapBegins (k mid : Nat) (d : Dev) : Option Dev :=
  match d.coapSession k with
  | some s =>
    if (s.storedFor mid).isNone && !d.coapPending k mid && d.plane.mgmtRunning && !d.holdsCommands then some (coapHeard s.port d)
    else none
  | none => none

/-- A request that does not begin: a Message ID already executed receives its stored response (R408). -/
def coapTurnsAway (k mid block : Nat) (d : Dev) : Dev :=
  match d.coapSession k with
  | some s =>
    match s.storedFor mid with
    | some resp => coapResend s.port resp block (coapHeard s.port d)
    | none => coapHeard s.port d
  | none => d

/-- A request whose blocks are not of 1,024 bytes (SZX 6) receives 4.13 (R405). -/
def coapSized (szx k mid block : Nat) (f : Dev → Dev) (d : Dev) : Dev :=
  if szx = 6 then f d
  else match coapBegins k mid d with
    | some d => d.coapReply k mid [0x8D]
    | none => coapTurnsAway k mid block d

/-! ### A descriptor wherever it comes from -/

/-- Where a descriptor begins: the device as its effect finds it, and its place on its ring. -/
def begins (op : Nat) (x : Desc) (d : Dev) : Option (Dev × Nat) :=
  match x.src with
  | .ring n => ringBegins op n x d
  | .mailbox peer => if boxFree peer d && (boxTaken peer d).boxServes peer then some (boxTaken peer d, 0) else none
  | .coap k mid _ => (coapBegins k mid d).map fun d => (d, 0)

/-- A descriptor that does not begin. -/
def turnedAway (op block : Nat) (x : Desc) (d : Dev) : Dev :=
  match x.src with
  | .ring _ => d
  | .mailbox peer => boxTurnsAway peer op x d
  | .coap k mid _ => coapTurnsAway k mid block d

/-- A completion goes to where its descriptor came from: its place on its ring, its mailbox or its session. -/
def completed (x : Desc) (k : Nat) (c : Cpl) (d : Dev) : Dev :=
  match x.src with
  | .ring n => { d with host := (d.host.setEntry n k (.done c)).notePeak }
  | src => d.deliver (some src) c

/-- What executing a descriptor answers: a completion, or nothing yet. -/
def replied (x : Desc) (k : Nat) (r : Dev × Reply) : Dev :=
  match r.2 with
  | .done c => completed x k c r.1
  | .waits => r.1

/-- A descriptor arrives: it begins and is executed, or it is turned away. -/
def descRow (op : Nat) (f : OpFn) (block : Nat) (x : Desc) (d : Dev) : Dev :=
  match begins op x d with
  | some (d', k) => replied x k (runOp op f d' x)
  | none => turnedAway op block x d

/-- The command that a mailbox holds is executed once it is served. -/
def runHeld (peer : Bool) (d : Dev) : Dev :=
  match (d.twb.box peer).held with
  | some raw =>
    if d.boxServes peer then replied raw.d 0 (runOp raw.op (opOf raw.op) (d.modBox peer fun b => { b with held := none }) raw.d) else d
  | none => d

/-! ### The opcode rows -/

/-- A row of the catalogue: its descriptor begins where it came from. -/
def State.onDesc (s : State) (op : Nat) (x : Desc) (f : OpFn) : Out :=
  match x.src with
  | .ring n => s.onDevAt 128 n fun _ d => descRow op f 0 x d
  | _ => s.onDev fun _ d => descRow op f 0 x d

/-- CREATE. -/
def execCreate (x : Desc) (s : State) : Out := s.onDesc 0x0101 x opCreate
/-- DESTROY. -/
def execDestroy (x : Desc) (s : State) : Out := s.onDesc 0x0102 x opDestroy
/-- CONFIGURE. -/
def execConfigure (x : Desc) (s : State) : Out := s.onDesc 0x0103 x opConfigure
/-- BANK_WRITE. -/
def execBankWrite (x : Desc) (s : State) : Out := s.onDesc 0x0201 x opBankWrite
/-- BANK_SWAP. -/
def execBankSwap (x : Desc) (s : State) : Out := s.onDesc 0x0202 x opBankSwap
/-- BANK_READ. -/
def execBankRead (x : Desc) (s : State) : Out := s.onDesc 0x0203 x opBankRead
/-- BANK_COPY. -/
def execBankCopy (x : Desc) (s : State) : Out := s.onDesc 0x0204 x opBankCopy
/-- ENABLE. -/
def execEnable (x : Desc) (s : State) : Out := s.onDesc 0x0301 x opEnable
/-- DISABLE. -/
def execDisable (x : Desc) (s : State) : Out := s.onDesc 0x0302 x opDisable
/-- SET_POINT. -/
def execSetPoint (x : Desc) (s : State) : Out := s.onDesc 0x0303 x opSetPoint
/-- SET_PROFILE. -/
def execSetProfile (x : Desc) (s : State) : Out := s.onDesc 0x0304 x opSetProfile
/-- SET_ROUND. -/
def execSetRound (x : Desc) (s : State) : Out := s.onDesc 0x0305 x opSetRound
/-- CLEAR. -/
def execClear (x : Desc) (s : State) : Out := s.onDesc 0x0306 x opClear
/-- RECOVER. -/
def execRecover (x : Desc) (s : State) : Out := s.onDesc 0x0307 x opRecover
/-- QUERY_STATE. -/
def execQueryState (x : Desc) (s : State) : Out := s.onDesc 0x0401 x opQueryState
/-- QUERY_READ. -/
def execQueryRead (x : Desc) (s : State) : Out := s.onDesc 0x0402 x opQueryRead
/-- EVENT_WAIT. -/
def execEventWait (x : Desc) (s : State) : Out := s.onDesc 0x0403 x opEventWait
/-- QUERY_RESOURCES. -/
def execQueryResources (x : Desc) (s : State) : Out := s.onDesc 0x0404 x opQueryResources
/-- QUERY_HANDLES. -/
def execQueryHandles (x : Desc) (s : State) : Out := s.onDesc 0x0405 x opQueryHandles
/-- STREAM_START. -/
def execStreamStart (x : Desc) (s : State) : Out := s.onDesc 0x0501 x opStreamStart
/-- STREAM_BUF. -/
def execStreamBuf (x : Desc) (s : State) : Out := s.onDesc 0x0502 x opStreamBuf
/-- STREAM_STOP. -/
def execStreamStop (x : Desc) (s : State) : Out := s.onDesc 0x0503 x opStreamStop
/-- IMG_SHERD. -/
def execImgSherd (x : Desc) (s : State) : Out := s.onDesc 0x0601 x opImgSherd
/-- IMG_STATUS. -/
def execImgStatus (x : Desc) (s : State) : Out := s.onDesc 0x0602 x opImgStatus
/-- IMG_ACTIVATE. -/
def execImgActivate (x : Desc) (s : State) : Out := s.onDesc 0x0603 x opImgActivate
/-- IMG_ROLLBACK. -/
def execImgRollback (x : Desc) (s : State) : Out := s.onDesc 0x0604 x opImgRollback
/-- NOP. -/
def execNop (x : Desc) (s : State) : Out := s.onDesc 0x0701 x opNop
/-- FENCE. -/
def execFence (x : Desc) (s : State) : Out := s.onDesc 0x0702 x opFence
/-- WARM_START. -/
def execWarmStart (x : Desc) (s : State) : Out := s.onDesc 0x0703 x opWarmStart
/-- KILN_READ. -/
def execKilnRead (x : Desc) (s : State) : Out := s.onDesc 0x0704 x opKilnRead
/-- DEBUG_UNLOCK. -/
def execDebugUnlock (x : Desc) (s : State) : Out := s.onDesc 0x0705 x opDebugUnlock

/-! ### Arrivals -/

/-- DESCRIPTOR_FETCH_DONE. -/
def execDescriptorFetchDone (ring : Nat) (result : FetchResult) (s : State) : Out :=
  s.onDevAt 128 ring fun _ d => fetchReturns ring result d
/-- COMPLETION_POST. -/
def execCompletionPost (ring : Nat) (s : State) : Out := s.onDevAt 128 ring fun _ d => postCompletion ring d
/-- MBOX_COMMAND. -/
def execMboxCommand (peer : Bool) (desc : RawDesc) (s : State) : Out :=
  s.onDev fun _ d => descRow desc.op (opOf desc.op) 0 { desc.d with src := .mailbox peer } d
/-- COAP_POST_CMD. -/
def execCoapPostCmd (session mid szx block : Nat) (desc : RawDesc) (s : State) : Out :=
  s.onDev fun _ d =>
    coapSized szx session mid block (descRow desc.op (opOf desc.op) block { desc.d with src := .coap session mid false }) d
/-- A sherd of a PUT to /k/img, as an effect. -/
def putSherd (num : Nat) (restart : Bool) (sherd : List Byte) : OpFn := fun d x =>
  answered x (imgSherd x.src num restart ((sherd ++ zeros 1024).take 1024) d)

/-- COAP_PUT_IMG: the block number is the sherd number (R446). -/
def execCoapPutImg (session mid szx num : Nat) (restart : Bool) (sherd : List Byte) (s : State) : Out :=
  s.onDev fun _ d =>
    coapSized szx session mid 0 (descRow 0x0601 (putSherd num restart sherd) 0 ⟨.coap session mid true, 0, 0, [], []⟩) d
/-- COAP_GET_ID: answered on the plain port, without a session (R407). -/
def execCoapGetId (port : Nat) (s : State) : Out :=
  s.onDevAt 2 port fun _ d =>
    if d.portRuns port && d.plane.mgmtRunning then
      (d.tally (35 + port) 5 1).sendOn port (0x45 :: (leBytes 4 sysId ++ macBytes 0 ++ macBytes 1))
    else d
/-- MGMT_READY: what the mailboxes hold is served. -/
def execMgmtReady (s : State) : Out := s.onDev fun _ d => runHeld true (runHeld false (mgmtReady d))
/-- SAFE_HOLD: the recovery service serves what the mailboxes hold. -/
def execSafeHold (s : State) : Out := s.onDev fun _ d => runHeld true (runHeld false (safeHold d))

end Sys2Proof.Machine
end

