-- ==== Sys2Proof/Machine/Regs.lean ====
section
/-! DEFINITION. A write to a register of BAR0 (Table 3.3): access codes (R7), reserved fields and offsets (R6), aligned accesses
(R50), the lock of the RWL fields (R520), ring bases and configuration while DISABLED only (R54), the MSI-X table. -/

namespace Sys2Proof.Machine

/-! ### Setup registers under SYS_LOCK -/

/-- A write to an RWL register, not locked (Tables 1.2, 1.5, 2.3, 20.8). -/
def Setup.write (su : Setup) (offset : Nat) (v : Word) : Setup :=
  if offset = 0x24 then { su with flueTime := v.setWidth 10, flueSeq := BitVec.ofNat 3 (bits v 10 3) }
  else if offset = 0x28 then
    { su with wdTurns := v.setWidth 16, wdDown := bit v 16, wdSeq := BitVec.ofNat 3 (bits v 17 3) }
  else if offset = 0x40 then { su with lock := bit v 0 }
  else if offset = 0x100 then
    { su with wheelNominal := bit v 0, wheelSrc := BitVec.ofNat 2 (bits v 1 2), wheelDelay := BitVec.ofNat 8 (bits v 3 8) }
  else su

/-- A write to a setup register: ignored once locked; SYS_LOCK.LOCK written 0 has no effect. -/
def setupWrite (su : Setup) (offset : Nat) (v : Word) : Setup := if su.lock then su else su.write offset v

/-! ### Ring registers -/

/-- 32 bits of a 64-bit register replaced. -/
def half (old : BitVec 64) (high : Bool) (v : Word) : BitVec 64 :=
  if high then BitVec.ofNat 64 (old.toNat % 2 ^ 32 + v.toNat * 2 ^ 32)
  else BitVec.ofNat 64 (old.toNat / 2 ^ 32 * 2 ^ 32 + v.toNat)

/-- A ring base: bits [11:0] are 0. -/
def baseOf (v : BitVec 64) : BitVec 64 := BitVec.ofNat 64 (v.toNat / 4096 * 4096)

/-- A 32-bit write at offset `o` of a ring's registers; bases and configuration only while DISABLED (R54). -/
def Ring.write (r : Ring) (o : Nat) (v : Word) : Ring :=
  if o = 0x14 then { r with irqCount := v.setWidth 8, irqTime := BitVec.ofNat 16 (bits v 8 16) }
  else if r.state ≠ .disabled then r
  else if o = 0x00 ∨ o = 0x04 then { r with sqb := baseOf (half r.sqb (o == 0x04) v) }
  else if o = 0x08 ∨ o = 0x0C then { r with cqb := baseOf (half r.cqb (o == 0x0C) v) }
  else if o = 0x10 then
    { r with size := v.setWidth 4, cls := BitVec.ofNat 2 (bits v 4 2), vec := BitVec.ofNat 7 (bits v 6 7)
             evmask := BitVec.ofNat 16 (bits v 16 16) }
  else r

/-- A 64-bit write to a ring base (R50). -/
def Ring.writeWide (r : Ring) (o : Nat) (v : BitVec 64) : Ring :=
  if r.state ≠ .disabled then r
  else if o = 0x00 then { r with sqb := baseOf v }
  else if o = 0x08 then { r with cqb := baseOf v }
  else r

/-- HOST_RING_CTL (Table 3.14). -/
def ringCtl (n : Nat) (v : Word) (d : Dev) : Dev :=
  if bit v 1 then ringReset n d
  else { d with host := d.host.modRing n (if bit v 0 then Ring.enable else Ring.pause) }

/-- A 32-bit write to the registers of ring `n`. -/
def ringRegWrite (n o : Nat) (v : Word) (d : Dev) : Dev :=
  if o = 0x18 then ringCtl n v d else { d with host := d.host.modRing n fun r => r.write o v }

/-! ### The MSI-X table (PCIe 3.1) -/

/-- A write to word `w` of an entry. -/
def MsixEntry.write (e : MsixEntry) (w : Nat) (v : Word) : MsixEntry :=
  match w with
  | 0 => { e with addr := half e.addr false v }
  | 1 => { e with addr := half e.addr true v }
  | 2 => { e with data := v }
  | _ => { e with mask := bit v 0 }

/-- A write to the table: a message that was pending is sent as its vector is unmasked. -/
def msixWrite (k w : Nat) (v : Word) (d : Dev) : Dev :=
  let h := { d.host with msix := tmod {} d.host.msix k fun e => e.write w v }
  let e := h.msixEntry k
  if e.pending && !e.mask then
    { d with host := { h with msix := tmod {} h.msix k fun e => { e with pending := false }, msgs := h.msgs ++ [k] } }
  else { d with host := h }

/-! ### Tally registers (Tables 19.5, 19.6, 19.9) -/

/-- SEL0 to SEL3 in the low word, SEL4 and SEL5 in the high one. -/
def selWrite (k : Nat) (high : Bool) (v : Word) (d : Dev) : Dev :=
  let s := (d.fbSet k).sel
  fbSelect k (if high then s.take 4 ++ (List.range 2).map (fun j => bits v (8 * j) 8)
    else (List.range 4).map (fun j => bits v (8 * j) 8) ++ s.drop 4) d

/-- TALLY_FB_CTL. -/
def fbCtl (k : Nat) (v : Word) (d : Dev) : Dev :=
  let d := if bit v 1 then fbClear k d else d
  fbFreeze k (bit v 0) d

/-- TALLY_TAG_CTL. -/
def tagWrite (v : Word) (d : Dev) : Dev :=
  let t := { d.tal with tagEn := bit v 0, tagM := BitVec.ofNat 4 (bits v 1 4) }
  { d with tal := if bit v 5 then { t with tags := [], tagFull := false } else t }

/-- TALLY_TAG_SEED; 0 acts as 1. -/
def seedWrite (v : Word) (d : Dev) : Dev :=
  { d with tal := { d.tal with lfsr := if v.setWidth 24 = (0 : BitVec 24) then 1 else v.setWidth 24 } }

/-- A write to the fallback and tagging registers at 0x4000 to 0x7FFF. -/
def tallyWrite (offset : Nat) (v : Word) (d : Dev) : Dev :=
  if offset = 0x5000 then tagWrite v d
  else if offset = 0x5004 then seedWrite v d
  else if offset < 0x4800 then
    let k := (offset - 0x4000) / 256
    match (offset - 0x4000) % 256 with
    | 0x08 => selWrite k false v d
    | 0x0C => selWrite k true v d
    | 0x10 => fbCtl k v d
    | _ => d
  else d

/-! ### BAR0 -/

/-- A 32-bit write at an aligned offset: registers that take no write and reserved offsets ignore it. -/
def bar0Write (offset : Nat) (v : Word) (d : Dev) : Dev :=
  if offset = 0x48 then rstWrite v d
  else if offset = 0x4C then clkWrite v d
  else if offset = 0x300 then calStart v d
  else if offset = 0x304 then calStatusWrite v d
  else if 0x1000 ≤ offset ∧ offset < 0x2000 then ringRegWrite ((offset - 0x1000) / 32) ((offset - 0x1000) % 32) v d
  else if 0x2000 ≤ offset ∧ offset < 0x2800 then msixWrite ((offset - 0x2000) / 16) ((offset - 0x2000) % 16 / 4) v d
  else if 0x4000 ≤ offset ∧ offset < 0x8000 then tallyWrite offset v d
  else d

/-- A 64-bit write at an aligned offset: only the ring bases take it (R50). -/
def bar0WriteWide (offset : Nat) (v : BitVec 64) (d : Dev) : Dev :=
  if 0x1000 ≤ offset ∧ offset < 0x2000 then
    { d with host := d.host.modRing ((offset - 0x1000) / 32) fun r => r.writeWide ((offset - 0x1000) % 32) v }
  else d

/-- REGISTER_WRITE: a write that is not aligned to its size is ignored. -/
def execRegisterWrite (offset : Nat) (value : BitVec 64) (wide : Bool) (s : State) : Out :=
  if s.dev.host.link ≠ .ready ∨ offset % (if wide then 8 else 4) ≠ 0 then .next s
  else if wide then .next { s with dev := bar0WriteWide offset value s.dev }
  else
    .next { s with setup := setupWrite s.setup offset (value.setWidth 32), dev := bar0Write offset (value.setWidth 32) s.dev }

end Sys2Proof.Machine
end

