-- ==== Sys2Proof/Machine/Turn.lean ====
section
/-! DEFINITION. The turn boundary (R42 to R44): the five steps at tick 0, in their order. -/

namespace Sys2Proof.Machine

/-! ### What the ended turn offers the Witness (Table 16.2, MODE 1 of the quantities that have no samples) -/

/-- Surges and active phases of a rail; RAIL_SURGE counts the turn's Surges (R195, log entry 86). -/
def railOffers (d : Dev) (i : Nat) : Dev :=
  let f := d.isFenced tRail i
  let d := if (d.rail i).surgesTurn = 0 then d else d.raise 0x0405 (d.rail i).surgesTurn (d.railHandle i)
  let d := witValue (d.railHandle i) 0x04 0 (d.rail i).surgesTurn 1 f d
  let d := witValue (d.railHandle i) 0x05 0 (d.activePhases i).length 1 f d
  d.modRail i fun r => { r with surgesTurn := 0 }

/-- TURN_ENERGY of a feed (R219). -/
def feedOffer (d : Dev) (n : Nat) : Dev :=
  let a := (d.chan n).acc
  witValue (d.chanHandle n) 0x12 0 a.energy 65536 (a.defaulted || d.isFenced tFeed n) d

/-- The values that belong to the ended turn as a whole, offered while its number stands. -/
def turnOffers (d : Dev) : Dev :=
  let d := (d.liveIndices tRail).foldl railOffers d
  let d := (d.liveIndices tFeed).foldl feedOffer d
  witValue 0 0x49 0 (b2n (d.seq.fn.low && d.seq.fn.lowTurn)) 1 false d

/-! ### Step 1: the turn number advances (R36) -/

/-- The time and length of the ended turn, the turn number, and an input switch that was pending (R30). -/
def turnAdvance (su : Setup) (time : Nat) (d : Dev) : Dev :=
  let now := max d.now time
  switchInput { d with
    wheel := d.wheel.advance su, turnStart := now, turnDur := now - d.turnStart, now := now, onceTurn := [] }

/-! ### The families' turn ends -/

/-- PD calibration overlaps a turn from its start until every owned channel has settled again (R112). -/
def pdCalTurns (d : Dev) : Dev :=
  let busy := d.acq.calBusy && d.acq.calFamilies.toNat / 4 % 2 == 1
  let held := d.acq.pd.any fun p => p.2.calHold && p.2.owner.isSome
  { d with acq := { d.acq with pdCalEnded := d.acq.pdCalTurn, pdCalTurn := busy || held } }

/-- Every family closes the ended turn `ended`. -/
def familiesTurn (ended : BitVec 48) (d : Dev) : Dev :=
  let d := pdCalTurns (faultnTurn (srcTurn d))
  let d := (d.liveIndices tString).foldl (battTurn d.wheel.turn) d
  let d := (d.liveIndices tFeed).foldl (feedTurn ended) d
  let d := (d.liveIndices tBranch).foldl (branchTurn ended) d
  let d := { d with thr := { d.thr with overruns := [], loops := tmapAll {} d.thr.loops fun _ r => { r with overrunsTurn := 0 } } }
  let d := witTurn ended (kilnTurn d)
  let d := imageTurn d.plane.beatThisTurn (modTurn (saggarTurn d))
  purgeGhosts (refTurn (tallyTurn (wdTurn d)))

/-! ### Step 2: the Ledger and the ring credit audit (R68, R280) -/

/-- Whether the running turn belongs to a cold management start (R456). -/
def Dev.coldStarting (d : Dev) : Bool :=
  match d.img.start with
  | some st => st.cold && (st.phase == .handedOver || st.phase == .started)
  | none => false

/-- Step 2. -/
def closeTurn (ended : BitVec 48) (d : Dev) : Dev :=
  let d := ledEnd ended d.wheel.atRoundBoundary d
  auditRings { d with led := { d.led with
    handover := d.coldStarting, waiting := if d.led.fenced then none else d.led.waiting } }

/-! ### Step 3: shadow-bank swaps (R14) -/

/-- A pending swap of an object that is no LOOP takes effect, and its command completes with the turn number. -/
def swapOne (d : Dev) (key : Nat) : Dev :=
  let t := key / 4096
  let i := key % 4096
  let d := d.modSlot t i fun s => { s with activeB := !s.activeB, swap := false }
  let d := if t = tMon then monSwapped d i
    else if t = tString then battSwapped d i
    else if t = tFeed then feedSwapped d i
    else if t = tBranch then branchSwapped d i
    else if t = tSource then modBankTaken i d
    else if t = tSensor then kilnApply (d.sensHandle i) d
    else d
  d.endWaits (fun w => w.kind == WaitKind.swap && w.handle == d.handleOf t i) fun w => plainCpl .ok w.handle d.wheel.turn.toNat

/-- Step 3. -/
def swapTurn (d : Dev) : Dev :=
  let keys := (d.slots.filter fun p => p.2.live && p.2.swap && p.1 / 4096 != tLoop).map (·.1)
  ledNewTable (keys.foldl swapOne d)

/-! ### Step 4: the round latches (R43) -/

/-- The records of the strings are written at each round boundary (R320). -/
def battRound (d : Dev) : Dev := (d.liveIndices tString).foldl battSave d

/-- The Wheel's flags of the round begin afresh (R39). -/
def wheelRound (d : Dev) : Dev := { d with wheel := { d.wheel with coastRound := false, slewRound := false }, onceRound := [] }

/-- Step 4; the Ledger's part stands in the ended turn that waits for its close (R288). -/
def roundLatches (d : Dev) : Dev := unitRestartsAtRound (tallyRound (battRound (witRound (wheelRound d))))

/-! ### Step 5: profile and round length (R25, R38) -/

/-- A PD channel whose settings follow the profile settles afresh where they change (R24, R102). -/
def pdFollow (old new : Profile) (d : Dev) : Dev :=
  { d with acq := { d.acq with pd := tmapAll {} d.acq.pd fun n c => (
      if c.owner.isSome && pdSettings old c.req != pdSettings new c.req && !d.acq.pdStopped.contains (n / 4)
      then { c with settling := true, hist := [] } else c) } }

/-- The pending profile takes effect: every loop is placed again, or keeps its place where one no longer fits (R139). -/
def profileTurn (d : Dev) : Dev :=
  if d.plane.profileChanging then
    let old := d.plane.profile
    let p := d.plane.profilePending
    let d := { d with
      plane := { d.plane with profile := p, profileChanging := false }
      thr := { d.thr with placed := (replaceAll p.ceiling d.thr.placed).getD d.thr.placed } }
    let d := pdFollow old p d
    laneSync (if p = .raku then battRaku d else d)
  else d

/-- Step 5. -/
def roundChanges (d : Dev) : Dev :=
  let d := profileTurn d
  { d with wheel := d.wheel.applyLength }

/-! ### Publication (R43, R432) -/

/-- The blocks that every turn publishes by tick 2,048: feeds, branches, MEM_ERRORS and SAG_STATUS. -/
def publishTurn (d : Dev) : Dev :=
  let pub (d : Dev) (h : Word) (sel : Nat) : Dev := d.publish h sel (blockOf d h sel)
  let d := (d.liveIndices tFeed).foldl (fun d i => pub d (d.handleOf tFeed i) 0) d
  let d := (d.liveIndices tBranch).foldl (fun d i => pub d (d.handleOf tBranch i) 0) d
  publishLate (pub (pub d 0 0x0C00) 0 0x0C01)

/-- WIT_STATUS, at a round boundary. -/
def publishRound (d : Dev) : Dev := d.publish 0 0x0F00 (blockOf d 0 0x0F00)

/-! ### The boundary -/

/-- Tick 0 of a turn. -/
def turnBoundary (su : Setup) (time : Nat) (d : Dev) : Dev :=
  let ended := d.wheel.turn
  let d := closeTurn ended (familiesTurn ended (turnAdvance su time (turnOffers d)))
  let d := witDirectory (swapTurn d)
  let d := if d.wheel.atRoundBoundary then publishRound (roundChanges (roundLatches d)) else d
  settle (publishTurn d)

/-- TURN_BOUNDARY. -/
def execTurnBoundary (time : Nat) (s : State) : Out := s.onDev fun su d => d.atTick 0 (turnBoundary su time)

end Sys2Proof.Machine
end

