-- ==== Sys2Proof/Machine/Dispatch.lean ====
section
/-! DEFINITION. One arm per command: the meaning of each row of the table of operations and events. -/

namespace Sys2Proof.Machine

/-- The effect of a command on everything but the queue. -/
def exec (i : Instr) (s : State) : Host.Outcome State Fault Refusal :=
  match i with
  | .create descr => Sys2Proof.Machine.execCreate descr s
  | .destroy descr => Sys2Proof.Machine.execDestroy descr s
  | .configure descr => Sys2Proof.Machine.execConfigure descr s
  | .bankWrite descr => Sys2Proof.Machine.execBankWrite descr s
  | .bankSwap descr => Sys2Proof.Machine.execBankSwap descr s
  | .bankRead descr => Sys2Proof.Machine.execBankRead descr s
  | .bankCopy descr => Sys2Proof.Machine.execBankCopy descr s
  | .enable descr => Sys2Proof.Machine.execEnable descr s
  | .disable descr => Sys2Proof.Machine.execDisable descr s
  | .setPoint descr => Sys2Proof.Machine.execSetPoint descr s
  | .setProfile descr => Sys2Proof.Machine.execSetProfile descr s
  | .setRound descr => Sys2Proof.Machine.execSetRound descr s
  | .clear descr => Sys2Proof.Machine.execClear descr s
  | .recover descr => Sys2Proof.Machine.execRecover descr s
  | .queryState descr => Sys2Proof.Machine.execQueryState descr s
  | .queryRead descr => Sys2Proof.Machine.execQueryRead descr s
  | .eventWait descr => Sys2Proof.Machine.execEventWait descr s
  | .queryResources descr => Sys2Proof.Machine.execQueryResources descr s
  | .queryHandles descr => Sys2Proof.Machine.execQueryHandles descr s
  | .streamStart descr => Sys2Proof.Machine.execStreamStart descr s
  | .streamBuf descr => Sys2Proof.Machine.execStreamBuf descr s
  | .streamStop descr => Sys2Proof.Machine.execStreamStop descr s
  | .imgSherd descr => Sys2Proof.Machine.execImgSherd descr s
  | .imgStatus descr => Sys2Proof.Machine.execImgStatus descr s
  | .imgActivate descr => Sys2Proof.Machine.execImgActivate descr s
  | .imgRollback descr => Sys2Proof.Machine.execImgRollback descr s
  | .nop descr => Sys2Proof.Machine.execNop descr s
  | .fence descr => Sys2Proof.Machine.execFence descr s
  | .warmStart descr => Sys2Proof.Machine.execWarmStart descr s
  | .kilnRead descr => Sys2Proof.Machine.execKilnRead descr s
  | .debugUnlock descr => Sys2Proof.Machine.execDebugUnlock descr s
  | .hostDbSq ring value => Sys2Proof.Machine.execHostDbSq ring value s
  | .hostDbCq ring value => Sys2Proof.Machine.execHostDbCq ring value s
  | .ringEnable ring => Sys2Proof.Machine.execRingEnable ring s
  | .ringPause ring => Sys2Proof.Machine.execRingPause ring s
  | .ringReset ring => Sys2Proof.Machine.execRingReset ring s
  | .acqCalStart value => Sys2Proof.Machine.execAcqCalStart value s
  | .sysLock value => Sys2Proof.Machine.execSysLock value s
  | .wheelTurnLoRead => Sys2Proof.Machine.execWheelTurnLoRead s
  | .tallyFbCycLoRead set => Sys2Proof.Machine.execTallyFbCycLoRead set s
  | .tallyFbCntRead set counter => Sys2Proof.Machine.execTallyFbCntRead set counter s
  | .tallyFbClear set => Sys2Proof.Machine.execTallyFbClear set s
  | .tallyFbFreeze set freeze => Sys2Proof.Machine.execTallyFbFreeze set freeze s
  | .tallyTagClear => Sys2Proof.Machine.execTallyTagClear s
  | .hostAuditRead => Sys2Proof.Machine.execHostAuditRead s
  | .hostInflightRead => Sys2Proof.Machine.execHostInflightRead s
  | .wheelCountRead => Sys2Proof.Machine.execWheelCountRead s
  | .acqFsCountRead conv => Sys2Proof.Machine.execAcqFsCountRead conv s
  | .acqCalStatusWrite value => Sys2Proof.Machine.execAcqCalStatusWrite value s
  | .sysClkRead => Sys2Proof.Machine.execSysClkRead s
  | .sysClkWrite value => Sys2Proof.Machine.execSysClkWrite value s
  | .sysRstRead => Sys2Proof.Machine.execSysRstRead s
  | .sysRstWrite value => Sys2Proof.Machine.execSysRstWrite value s
  | .bar4Write offset value => Sys2Proof.Machine.execBar4Write offset value s
  | .registerWrite offset value wide => Sys2Proof.Machine.execRegisterWrite offset value wide s
  | .linkTrainingDone maxSpeed maxWidth perstN => Sys2Proof.Machine.execLinkTrainingDone maxSpeed maxWidth perstN s
  | .configSpaceReady => Sys2Proof.Machine.execConfigSpaceReady s
  | .hostInterfaceReset conventional perstN => Sys2Proof.Machine.execHostInterfaceReset conventional perstN s
  | .descriptorFetchDone ring result => Sys2Proof.Machine.execDescriptorFetchDone ring result s
  | .completionPost ring => Sys2Proof.Machine.execCompletionPost ring s
  | .irqCoalesceTimeout ring => Sys2Proof.Machine.execIrqCoalesceTimeout ring s
  | .mainsEdge acSense highNs time tick => Sys2Proof.Machine.execMainsEdge acSense highNs time tick s
  | .wheelMissedEdge => Sys2Proof.Machine.execWheelMissedEdge s
  | .turnBoundary time => Sys2Proof.Machine.execTurnBoundary time s
  | .mgmtHeartbeat => Sys2Proof.Machine.execMgmtHeartbeat s
  | .mgmtWatchdogTimeout => Sys2Proof.Machine.execMgmtWatchdogTimeout s
  | .mgmtWdColdStart => Sys2Proof.Machine.execMgmtWdColdStart s
  | .ledgerClose pFb pHk pDrv => Sys2Proof.Machine.execLedgerClose pFb pHk pDrv s
  | .ledgUnmetered => Sys2Proof.Machine.execLedgUnmetered s
  | .estimatorStep => Sys2Proof.Machine.execEstimatorStep s
  | .battUnanchored string => Sys2Proof.Machine.execBattUnanchored string s
  | .impedanceWindowClose string => Sys2Proof.Machine.execImpedanceWindowClose string s
  | .tallyGather => Sys2Proof.Machine.execTallyGather s
  | .scrub events => Sys2Proof.Machine.execScrub events s
  | .bankRebuild bank => Sys2Proof.Machine.execBankRebuild bank s
  | .sramLineRead events read => Sys2Proof.Machine.execSramLineRead events read s
  | .sampleTrigger gen => Sys2Proof.Machine.execSampleTrigger gen s
  | .fsConversionDone conv code isOver late pos => Sys2Proof.Machine.execFsConversionDone conv code isOver late pos s
  | .urgentTrigger conv channel => Sys2Proof.Machine.execUrgentTrigger conv channel s
  | .injectedStart conv => Sys2Proof.Machine.execInjectedStart conv s
  | .loopDispatch lane wait pos => Sys2Proof.Machine.execLoopDispatch lane wait pos s
  | .loopFerr loop => Sys2Proof.Machine.execLoopFerr loop s
  | .loopStarved loop => Sys2Proof.Machine.execLoopStarved loop s
  | .throwMemError corrected lane owner coef => Sys2Proof.Machine.execThrowMemError corrected lane owner coef s
  | .svScanStart => Sys2Proof.Machine.execSvScanStart s
  | .svConversionDone code isOver under => Sys2Proof.Machine.execSvConversionDone code isOver under s
  | .pdOutput chan value isOver pos settled => Sys2Proof.Machine.execPdOutput chan value isOver pos settled s
  | .pdWindowCrossing chan => Sys2Proof.Machine.execPdWindowCrossing chan s
  | .tdConversionDone value uv opn short exc biasOk => Sys2Proof.Machine.execTdConversionDone value uv opn short exc biasOk s
  | .sensorPeriod sensor => Sys2Proof.Machine.execSensorPeriod sensor s
  | .calFamilyDone family yields milliC => Sys2Proof.Machine.execCalFamilyDone family yields milliC s
  | .calDone => Sys2Proof.Machine.execCalDone s
  | .flueCrcFail lane run => Sys2Proof.Machine.execFlueCrcFail lane run s
  | .flueKeepalive => Sys2Proof.Machine.execFlueKeepalive s
  | .flueTakeover => Sys2Proof.Machine.execFlueTakeover s
  | .flueTakeoverReport => Sys2Proof.Machine.execFlueTakeoverReport s
  | .fireboxSilence => Sys2Proof.Machine.execFireboxSilence s
  | .unitWatchdog unit => Sys2Proof.Machine.execUnitWatchdog unit s
  | .carrierStart phase iMax iMin => Sys2Proof.Machine.execCarrierStart phase iMax iMin s
  | .sheddingEnd phase => Sys2Proof.Machine.execSheddingEnd phase s
  | .shedHoldEnd rail => Sys2Proof.Machine.execShedHoldEnd rail s
  | .bootstrapUv phase low => Sys2Proof.Machine.execBootstrapUv phase low s
  | .vdrvUv => Sys2Proof.Machine.execVdrvUv s
  | .surgeDetect rail mv slope pos => Sys2Proof.Machine.execSurgeDetect rail mv slope pos s
  | .firingEnd phase mv pos => Sys2Proof.Machine.execFiringEnd phase mv pos s
  | .railPgConfirm rail => Sys2Proof.Machine.execRailPgConfirm rail s
  | .railStartTimeout rail tick => Sys2Proof.Machine.execRailStartTimeout rail tick s
  | .railOffReached rail => Sys2Proof.Machine.execRailOffReached rail s
  | .railStopLate rail tick => Sys2Proof.Machine.execRailStopLate rail tick s
  | .railOv rail tick => Sys2Proof.Machine.execRailOv rail tick s
  | .railUvTime rail tick => Sys2Proof.Machine.execRailUvTime rail tick s
  | .railOcp rail pos tick => Sys2Proof.Machine.execRailOcp rail pos tick s
  | .phaseFailure rail pos sense tick => Sys2Proof.Machine.execPhaseFailure rail pos sense tick s
  | .feedPrechargeDone feed => Sys2Proof.Machine.execFeedPrechargeDone feed s
  | .feedPrechargeTimeout feed tick => Sys2Proof.Machine.execFeedPrechargeTimeout feed tick s
  | .feedPgConfirm feed => Sys2Proof.Machine.execFeedPgConfirm feed s
  | .feedPgLoss feed => Sys2Proof.Machine.execFeedPgLoss feed s
  | .feedGateTimeout feed vgsLow tick => Sys2Proof.Machine.execFeedGateTimeout feed vgsLow tick s
  | .feedShort feed tick => Sys2Proof.Machine.execFeedShort feed tick s
  | .feedFaultTimer feed vgsLow tick => Sys2Proof.Machine.execFeedFaultTimer feed vgsLow tick s
  | .feedBackstop feed tick => Sys2Proof.Machine.execFeedBackstop feed tick s
  | .feedPowerLimit feed tick => Sys2Proof.Machine.execFeedPowerLimit feed tick s
  | .feedOvReverse feed reverse tick => Sys2Proof.Machine.execFeedOvReverse feed reverse tick s
  | .feedFaultRecord feed => Sys2Proof.Machine.execFeedFaultRecord feed s
  | .feedBleedStart feed => Sys2Proof.Machine.execFeedBleedStart feed s
  | .feedBleedEnd feed => Sys2Proof.Machine.execFeedBleedEnd feed s
  | .feedResLate feed => Sys2Proof.Machine.execFeedResLate feed s
  | .feedRetryDelay feed => Sys2Proof.Machine.execFeedRetryDelay feed s
  | .feedRetryClear feed => Sys2Proof.Machine.execFeedRetryClear feed s
  | .feedBackfeed feed => Sys2Proof.Machine.execFeedBackfeed feed s
  | .branchEnergyTrip branch uj mv ma slope tick => Sys2Proof.Machine.execBranchEnergyTrip branch uj mv ma slope tick s
  | .branchHardTrip branch tick => Sys2Proof.Machine.execBranchHardTrip branch tick s
  | .branchOnsetReset branch => Sys2Proof.Machine.execBranchOnsetReset branch s
  | .branchRampTimeout branch vgsLow tick => Sys2Proof.Machine.execBranchRampTimeout branch vgsLow tick s
  | .branchOpeningEnd branch => Sys2Proof.Machine.execBranchOpeningEnd branch s
  | .branchHealthWindow branch => Sys2Proof.Machine.execBranchHealthWindow branch s
  | .srcQualified set input => Sys2Proof.Machine.execSrcQualified set input s
  | .srcLoss set input cause tick => Sys2Proof.Machine.execSrcLoss set input cause tick s
  | .srcBlockingConfirmed set input => Sys2Proof.Machine.execSrcBlockingConfirmed set input s
  | .srcConductionConfirmed set gapNs vbusMin => Sys2Proof.Machine.execSrcConductionConfirmed set gapNs vbusMin s
  | .srcStuck set => Sys2Proof.Machine.execSrcStuck set s
  | .srcFailed set => Sys2Proof.Machine.execSrcFailed set s
  | .srcAutoReturn set => Sys2Proof.Machine.execSrcAutoReturn set s
  | .srcNoneTimeout set => Sys2Proof.Machine.execSrcNoneTimeout set s
  | .holdupRelease on => Sys2Proof.Machine.execHoldupRelease on s
  | .holdupChargeEnd => Sys2Proof.Machine.execHoldupChargeEnd s
  | .holdupBleedStart time tick => Sys2Proof.Machine.execHoldupBleedStart time tick s
  | .holdupBleedGate time => Sys2Proof.Machine.execHoldupBleedGate time s
  | .holdupBleedEnd late time => Sys2Proof.Machine.execHoldupBleedEnd late time s
  | .battCutoff string => Sys2Proof.Machine.execBattCutoff string s
  | .cutoffRelease string => Sys2Proof.Machine.execCutoffRelease string s
  | .battHibernate string => Sys2Proof.Machine.execBattHibernate string s
  | .reducedSampling string => Sys2Proof.Machine.execReducedSampling string s
  | .seqDelayUpEnd seq => Sys2Proof.Machine.execSeqDelayUpEnd seq s
  | .seqDelayDownEnd seq => Sys2Proof.Machine.execSeqDelayDownEnd seq s
  | .seqStepUp seq => Sys2Proof.Machine.execSeqStepUp seq s
  | .seqStepOff seq => Sys2Proof.Machine.execSeqStepOff seq s
  | .seqRiseTimeout seq => Sys2Proof.Machine.execSeqRiseTimeout seq s
  | .seqFallTimeout seq => Sys2Proof.Machine.execSeqFallTimeout seq s
  | .seqDschWinEnd seq => Sys2Proof.Machine.execSeqDschWinEnd seq s
  | .seqMemberFault seq step => Sys2Proof.Machine.execSeqMemberFault seq step s
  | .seqMinOffEnd seq => Sys2Proof.Machine.execSeqMinOffEnd seq s
  | .faultnQuiet seq => Sys2Proof.Machine.execFaultnQuiet seq s
  | .faultnLow time => Sys2Proof.Machine.execFaultnLow time s
  | .faultnHigh time => Sys2Proof.Machine.execFaultnHigh time s
  | .coneTrip sensor cone release uv => Sys2Proof.Machine.execConeTrip sensor cone release uv s
  | .coneConfirm sensor cone tick => Sys2Proof.Machine.execConeConfirm sensor cone tick s
  | .sitterRelease => Sys2Proof.Machine.execSitterRelease s
  | .sensorBiasFault sensor => Sys2Proof.Machine.execSensorBiasFault sensor s
  | .blackBoxTrigger tick => Sys2Proof.Machine.execBlackBoxTrigger tick s
  | .blackBoxCommitDone => Sys2Proof.Machine.execBlackBoxCommitDone s
  | .blackBoxRearm => Sys2Proof.Machine.execBlackBoxRearm s
  | .sherdWriteDone ok => Sys2Proof.Machine.execSherdWriteDone ok s
  | .slotEraseDone slot => Sys2Proof.Machine.execSlotEraseDone slot s
  | .handoverCopyDone tick => Sys2Proof.Machine.execHandoverCopyDone tick s
  | .handoverHoldCommands => Sys2Proof.Machine.execHandoverHoldCommands s
  | .handoverBoundary => Sys2Proof.Machine.execHandoverBoundary s
  | .newImageStart recordsOk => Sys2Proof.Machine.execNewImageStart recordsOk s
  | .fireboxImageSwitch => Sys2Proof.Machine.execFireboxImageSwitch s
  | .fireboxSelfRevert => Sys2Proof.Machine.execFireboxSelfRevert s
  | .imageConfirmed firebox => Sys2Proof.Machine.execImageConfirmed firebox s
  | .failedBoot => Sys2Proof.Machine.execFailedBoot s
  | .safeHold => Sys2Proof.Machine.execSafeHold s
  | .fireboxPorRelease straps => Sys2Proof.Machine.execFireboxPorRelease straps s
  | .fireboxPor => Sys2Proof.Machine.execFireboxPor s
  | .fireboxRailsGood => Sys2Proof.Machine.execFireboxRailsGood s
  | .supervisorChecked ok => Sys2Proof.Machine.execSupervisorChecked ok s
  | .hkSuppliesGood => Sys2Proof.Machine.execHkSuppliesGood s
  | .hkStartFail => Sys2Proof.Machine.execHkStartFail s
  | .hkRetry => Sys2Proof.Machine.execHkRetry s
  | .bootRomInitDone sound => Sys2Proof.Machine.execBootRomInitDone sound s
  | .mgmtReady => Sys2Proof.Machine.execMgmtReady s
  | .hearthSupplyFault => Sys2Proof.Machine.execHearthSupplyFault s
  | .deviceReset straps => Sys2Proof.Machine.execDeviceReset straps s
  | .refClockLoss => Sys2Proof.Machine.execRefClockLoss s
  | .refClockRestore => Sys2Proof.Machine.execRefClockRestore s
  | .pllUnlock pll => Sys2Proof.Machine.execPllUnlock pll s
  | .mboxCommand peer desc => Sys2Proof.Machine.execMboxCommand peer desc s
  | .mboxReread peer => Sys2Proof.Machine.execMboxReread peer s
  | .mboxDiscard peer => Sys2Proof.Machine.execMboxDiscard peer s
  | .mboxFrameError peer fault => Sys2Proof.Machine.execMboxFrameError peer fault s
  | .mboxRead peer count => Sys2Proof.Machine.execMboxRead peer count s
  | .alertResponseRead => Sys2Proof.Machine.execAlertResponseRead s
  | .attentionPulse time => Sys2Proof.Machine.execAttentionPulse time s
  | .twoWireTimeout peer controller address => Sys2Proof.Machine.execTwoWireTimeout peer controller address s
  | .twoWireAbort peer controller address => Sys2Proof.Machine.execTwoWireAbort peer controller address s
  | .busStuckClear cleared address => Sys2Proof.Machine.execBusStuckClear cleared address s
  | .arbitrationLost served address => Sys2Proof.Machine.execArbitrationLost served address s
  | .moduleDiscovery address reply => Sys2Proof.Machine.execModuleDiscovery address reply s
  | .modulePollCycle polls peer => Sys2Proof.Machine.execModulePollCycle polls peer s
  | .moduleWrite address nack => Sys2Proof.Machine.execModuleWrite address nack s
  | .ethFrameReceived port length kind time => Sys2Proof.Machine.execEthFrameReceived port length kind time s
  | .netLink port up speed => Sys2Proof.Machine.execNetLink port up speed s
  | .dtlsHandshake port key stage => Sys2Proof.Machine.execDtlsHandshake port key stage s
  | .dtlsIdleClose session => Sys2Proof.Machine.execDtlsIdleClose session s
  | .coapGetId port => Sys2Proof.Machine.execCoapGetId port s
  | .coapPostCmd session mid szx block desc => Sys2Proof.Machine.execCoapPostCmd session mid szx block desc s
  | .coapPutImg session mid szx num restart sherd => Sys2Proof.Machine.execCoapPutImg session mid szx num restart sherd s
  | .streamEmission stream resolved => Sys2Proof.Machine.execStreamEmission stream resolved s
  | .branchPgConfirm branch => Sys2Proof.Machine.execBranchPgConfirm branch s
  | .branchPgLoss branch => Sys2Proof.Machine.execBranchPgLoss branch s
  | .branchBackstop branch tick => Sys2Proof.Machine.execBranchBackstop branch tick s
  | .branchOvReverse branch reverse tick => Sys2Proof.Machine.execBranchOvReverse branch reverse tick s
  | .branchRetryDelay branch => Sys2Proof.Machine.execBranchRetryDelay branch s
  | .branchRetryClear branch => Sys2Proof.Machine.execBranchRetryClear branch s
  | .srcWindowLoss set input tick => Sys2Proof.Machine.execSrcWindowLoss set input tick s
  | .vdrvUvRelease => Sys2Proof.Machine.execVdrvUvRelease s
  | .pllRelock pll => Sys2Proof.Machine.execPllRelock pll s
  | .pcieLinkDown refclk => Sys2Proof.Machine.execPcieLinkDown refclk s
  | .netifLinkTimeout port => Sys2Proof.Machine.execNetifLinkTimeout port s
  | .dadComplete port conflict => Sys2Proof.Machine.execDadComplete port conflict s
  | .reducedSamplingTurn string => Sys2Proof.Machine.execReducedSamplingTurn string s
  | .attentionPulseCollision => Sys2Proof.Machine.execAttentionPulseCollision s
  | .dischargeThermalOff bleed switch => Sys2Proof.Machine.execDischargeThermalOff bleed switch s
  | .jtagInstructionLoad code => Sys2Proof.Machine.execJtagInstructionLoad code s

end Sys2Proof.Machine
end

