-- ==== Sys2Proof/Machine/Reads.lean ====
section
/-! DEFINITION. What a host read answers (R2, R6, R7, R47, R49 to R51, R55): the registers of BAR0, the doorbell pages of BAR2,
the snapshot areas in BAR4 and the endpoint's identity. The reads that change something (RC fields and captures) are commands
of their own and return the same words. -/

namespace Sys2Proof.Machine

/-! ### The endpoint (R47, R49) -/

/-- Device ID, Revision ID and class code (Table 3.1). -/
def pciDeviceId : BitVec 16 := 0x0960
def pciRevisionId : BitVec 8 := 0xB0
def pciClassCode : BitVec 24 := 0x118000

/-- A base address register: its size in bytes, and whether it is a 64-bit and a prefetchable one (Table 3.2). -/
structure Bar where
  size : Nat
  wide : Bool
  prefetchable : Bool
  deriving DecidableEq, Repr

/-- The BARs that the endpoint exposes. -/
def barOf : Nat → Option Bar
  | 0 => some ⟨0x10000, true, false⟩
  | 2 => some ⟨0x80000, true, false⟩
  | 4 => some ⟨0x100000, true, true⟩
  | _ => none

/-! ### Registers in words -/

/-- SYS_FLUE_TO (Table 1.2). -/
def Setup.flueWord (su : Setup) : Nat := su.flueTime.toNat + su.flueSeq.toNat * 2 ^ 10
/-- SYS_MGMT_WD (Table 1.5). -/
def Setup.wdWord (su : Setup) : Nat := su.wdTurns.toNat + b2n su.wdDown * 2 ^ 16 + su.wdSeq.toNat * 2 ^ 17
/-- WHEEL_CFG (Table 2.3). -/
def Setup.wheelWord (su : Setup) : Nat := b2n su.wheelNominal + su.wheelSrc.toNat * 2 + su.wheelDelay.toNat * 8
/-- SYS_PROFILE (Table 1.8). -/
def Plane.profileWord (p : Plane) : Nat := p.profile.code + p.profilePending.code * 4 + b2n p.profileChanging * 16
/-- SYS_LOCK (Table 20.8). -/
def lockWord (su : Setup) (p : Power) : Nat := b2n su.lock + b2n p.debug * 2 + p.scope.toNat * 4

/-- Registers at 0x000 to 0x0FF. -/
def sysRead (s : State) (o : Nat) : Nat :=
  if o = 0x00 then sysId
  else if o = 0x20 then s.dev.plane.profileWord
  else if o = 0x24 then s.setup.flueWord
  else if o = 0x28 then s.setup.wdWord
  else if o = 0x40 then lockWord s.setup s.dev.pow
  else if o = 0x44 then s.dev.pow.straps.toNat
  else if o = 0x48 then sysRst s.dev
  else if o = 0x4C then sysClk s.dev
  else if o = 0x50 then Config.uid.toNat % 2 ^ 32
  else if o = 0x54 then Config.uid.toNat / 2 ^ 32
  else 0

/-- WHEEL_STATUS (Table 2.4). -/
def Wheel.statusWord (w : Wheel) : Nat :=
  w.state.code + b2n w.input * 8 + b2n w.everLocked * 16 + w.tick % 2 ^ 16 * 2 ^ 16

/-- The tracked period, or the held one in FREE, ACQUIRE and COAST (Table 2.7). -/
def Wheel.shownPeriod (w : Wheel) : Nat := if w.state = .slew ∨ w.state = .locked then w.period else w.held

/-- WHEEL_ registers at 0x100 to 0x1FF. -/
def wheelRead (s : State) (o : Nat) : Nat :=
  let w := s.dev.wheel
  if o = 0x100 then s.setup.wheelWord
  else if o = 0x104 then w.statusWord
  else if o = 0x108 then w.turn.toNat % 2 ^ 32
  else if o = 0x10C then w.turnHi.toNat
  else if o = 0x110 then w.shownPeriod % 2 ^ 24
  else if o = 0x114 then w.length.toNat + w.lengthPending.toNat * 2 ^ 16
  else if o = 0x118 then w.countWord
  else 0

/-- HOST_ registers at 0x200 to 0x2FF. -/
def hostRead (h : HostIf) (ready : Bool) (o : Nat) : Nat :=
  if o = 0x200 then b2n ready + h.speed.toNat * 2 + h.width.toNat * 8
  else if o = 0x204 then h.auditWord
  else if o = 0x208 then h.inflightWord
  else 0

/-- ACQ_CAL_STATUS (Table 4.14). -/
def Acq.calWord (a : Acq) : Nat :=
  b2n a.calBusy + b2n a.calSv.valid * 2 + b2n (fsConvs.all fun c => (tget ({} : Factors) a.calFs c).valid) * 4 +
    b2n ((List.range 32).all fun n => (tget ({} : Factors) a.calPd n).valid) * 8 + b2n a.svFail * 16 + b2n a.fsFail * 32 +
    b2n a.pdFail * 64 + b2n a.drift * 128 + b2n a.first * 256 + a.fsSkipped.toNat * 512

/-- ACQ_ registers at 0x300 to 0xFFF: the calibration files lie as in the Kiln copy (Tables 4.13 to 4.17, R113). -/
def acqRead (d : Dev) (o : Nat) : Nat :=
  if o = 0x304 then d.acq.calWord
  else if 0x340 ≤ o ∧ o < 0x370 then (d.conv ((o - 0x340) / 4)).countWord
  else if 0x400 ≤ o ∧ o < 0x5A0 then byteField (calCopy d.acq) (o - 0x400) 4
  else if 0x600 ≤ o ∧ o < 0x700 then byteField (calCopy d.acq) (416 + (o - 0x600)) 4
  else 0

/-- Codes of the ring states (Table 3.15). -/
def RingState.code : RingState → Nat
  | .disabled => 0 | .active => 1 | .paused => 2 | .fenced => 3 | .resetting => 4

/-- A ring's registers (Tables 3.9 to 3.16). -/
def Ring.read (r : Ring) (o : Nat) : Nat :=
  match o with
  | 0x00 => r.sqb.toNat % 2 ^ 32
  | 0x04 => r.sqb.toNat / 2 ^ 32
  | 0x08 => r.cqb.toNat % 2 ^ 32
  | 0x0C => r.cqb.toNat / 2 ^ 32
  | 0x10 => r.size.toNat + r.cls.toNat * 16 + r.vec.toNat * 64 + r.evmask.toNat * 2 ^ 16
  | 0x14 => r.irqCount.toNat + r.irqTime.toNat * 2 ^ 8
  | 0x18 => b2n r.en
  | 0x1C => r.state.code + r.reason % 8 * 8 + r.c.toNat * 2 ^ 16
  | _ => 0

/-- A word of an MSI-X table entry (PCIe 3.1). -/
def MsixEntry.read (e : MsixEntry) (w : Nat) : Nat :=
  match w with
  | 0 => e.addr.toNat % 2 ^ 32
  | 1 => e.addr.toNat / 2 ^ 32
  | 2 => e.data.toNat
  | _ => b2n e.mask

/-- Word `w` of the MSI-X pending-bit array. -/
def HostIf.pba (h : HostIf) (w : Nat) : Nat :=
  ((List.range 32).map fun k => b2n (h.msixEntry (32 * w + k)).pending * 2 ^ k).foldl (· + ·) 0

/-- A fallback set's registers (Tables 19.3 to 19.7). -/
def fbRead (d : Dev) (k o : Nat) : Nat :=
  let s := fbFolded d k
  if o = 0x00 then s.cyc % 2 ^ 32
  else if o = 0x04 then s.hi.toNat
  else if o = 0x08 then ((List.range 4).map fun j => s.sel.getD j 255 * 2 ^ (8 * j)).foldl (· + ·) 0
  else if o = 0x0C then s.sel.getD 4 255 + s.sel.getD 5 255 * 2 ^ 8
  else if o = 0x10 then b2n s.freeze
  else if 0x20 ≤ o ∧ o < 0x50 then
    if o % 8 = 0 then s.cnt.getD ((o - 0x20) / 8) 0 % 2 ^ 32 else s.cntHi.getD ((o - 0x20) / 8) 0
  else 0

/-- TALLY_ registers at 0x4000 to 0x7FFF; tag entries at or beyond COUNT read 0 (R504). -/
def tallyRead (d : Dev) (o : Nat) : Nat :=
  if o < 0x4800 then fbRead d ((o - 0x4000) / 256) ((o - 0x4000) % 256)
  else if o = 0x5000 then tagCtl d.tal
  else if o = 0x5004 then d.tal.lfsr.toNat
  else if 0x6000 ≤ o ∧ o < 0x6400 then byteField (d.tal.tags.getD ((o - 0x6000) / 16) []) ((o - 0x6000) % 16) 4
  else 0

/-! ### BAR0, BAR2 and BAR4 -/

/-- The word at an aligned offset of BAR0 (Table 3.3): reserved offsets and fields and write-only fields read 0 (R6, R7). -/
def bar0Word (s : State) (o : Nat) : Nat :=
  if o < 0x100 then sysRead s o
  else if o < 0x200 then wheelRead s o
  else if o < 0x300 then hostRead s.dev.host s.dev.plane.mgmtRunning o
  else if o < 0x1000 then acqRead s.dev o
  else if o < 0x2000 then (s.dev.host.ring ((o - 0x1000) / 32)).read ((o - 0x1000) % 32)
  else if o < 0x2800 then (s.dev.host.msixEntry ((o - 0x2000) / 16)).read ((o - 0x2000) % 16 / 4)
  else if o < 0x2810 then s.dev.host.pba ((o - 0x2800) / 4)
  else if 0x4000 ≤ o ∧ o < 0x8000 then tallyRead s.dev o
  else 0

/-- A host access is served once the configuration space is ready (R545). -/
def State.served {α : Type} (s : State) (v : α) : Option α := if s.dev.host.link = .ready then some v else none

/-- An aligned 32-bit read of BAR0 (R50). -/
def bar0Read (s : State) (o : Nat) : Option Word := if o % 4 = 0 then s.served (BitVec.ofNat 32 (bar0Word s o)) else none

/-- A 32-bit read of a doorbell page: the doorbells are write-only, and the rest is reserved (R55). -/
def bar2Read (s : State) (_o : Nat) : Option Word := s.served 0

/-- The bytes of an area: HEAD, the block padded to 8 bytes, TAIL (R432, R433). -/
def areaBytes (turn : BitVec 48) (len : Nat) (block : List Byte) : List Byte :=
  let b := block.take len
  leBytes 8 (2 * turn.toNat) ++ b ++ zeros ((len + 7) / 8 * 8 - b.length) ++ leBytes 8 (2 * turn.toNat)

/-- An area that has never been published holds zeros (R433). -/
def dirArea (d : Dev) (e : DirEntry) : List Byte :=
  match d.wit.areas.find? fun a => a.1 == (e.handle, e.sel) with
  | some a => areaBytes a.2.turn e.length a.2.block
  | none => areaBytes 0 e.length []

/-- The areas that BAR4 shows: the directory at offset 0, and those that it lists (R434). -/
def bar4Areas (d : Dev) : List (Nat × List Byte) :=
  (0, areaBytes d.wit.dirTurn (8 + 16 * d.wit.dir.length) (witDirBlock d)) ::
    d.wit.dir.map fun e => (Config.snapOffset e.handle.toNat e.sel, dirArea d e)

/-- The byte at offset `o` of BAR4: 0 where no snapshot area lies (R51), and all ones of a poisoned line (R398). -/
def bar4Byte (d : Dev) (o : Nat) : Byte :=
  let a := 0x580000 + o
  if d.linePoisoned (a / 64 % 16) (a / 1024) then 0xFF
  else match (bar4Areas d).find? fun x => decide (x.1 ≤ o) && decide (o < x.1 + x.2.length) with
    | some x => x.2.getD (o - x.1) 0
    | none => 0

/-- A read of `n` bytes of BAR4. -/
def bar4Read (s : State) (o n : Nat) : Option (List Byte) := s.served ((List.range n).map fun k => bar4Byte s.dev (o + k))

end Sys2Proof.Machine
end

