-- ==== Sys2Proof/WellFormed.lean ====
section
/-! DEFINITION. Which commands can reach the part: every instance number names an instance that the spec gives it, and every
operand lies in the range of what it stands for. -/

namespace Sys2Proof

/-- A value of `n` bits of two's complement. -/
def fits (n : Nat) (v : Int) : Bool := decide (-(2 ^ (n - 1) : Int) ≤ v) && decide (v < 2 ^ (n - 1))

/-- A source: a ring below 128 (R47), a mailbox, or a request. -/
def Src.wf : Src → Bool
  | .ring n => decide (n < 128)
  | .mailbox _ => true
  | .coap _ mid _ => decide (mid < 65536)

/-- A descriptor: fourteen parameters (Table 3.7). -/
def Desc.wf (d : Desc) : Bool := d.src.wf && d.params.length == 14

/-- A descriptor with its opcode. -/
def RawDesc.wf (r : RawDesc) : Bool := decide (r.op < 65536) && r.d.wf

/-- A fetch of at most 16 descriptors (R57). -/
def FetchResult.wf : FetchResult → Bool
  | .ok ds => decide (ds.length ≤ 16) && ds.all RawDesc.wf
  | .unsupportedRequest => true
  | .completerAbort => true
  | .poisoned => true

/-- A loop of one of the 96 LOOPs, of a rail's phase position, or of a feed or branch (R73). -/
def LoopId.wf : LoopId → Bool
  | .user i => decide (i < 96)
  | .balance r p => decide (r < 24) && decide (p < 12)
  | .limit c => decide (c < 44)

/-- A line of one of the 16 data banks or of P (R393). -/
def LineRead.wf (r : LineRead) : Bool := decide (r.bank < 17) && decide (r.index < 8192)

/-- What befalls a line: a bit of one of its nine codewords (eight words of 72 bits, and the CRC of 32), or a write within its 64
bytes (R394, R396). -/
def LineChange.wf : LineChange → Bool
  | .flip w b => decide (w < 9) && decide (b < 72)
  | .write o bs _ => decide (o + bs.length ≤ 64)

/-- A change of a line of one of the 17 banks. -/
def LineEvent.wf (e : LineEvent) : Bool := decide (e.bank < 17) && decide (e.index < 8192) && e.change.wf

/-- A command that can reach the part. -/
def Instr.wf : Instr → Bool
  | .create d => d.wf
  | .destroy d => d.wf
  | .configure d => d.wf
  | .bankWrite d => d.wf
  | .bankSwap d => d.wf
  | .bankRead d => d.wf
  | .bankCopy d => d.wf
  | .enable d => d.wf
  | .disable d => d.wf
  | .setPoint d => d.wf
  | .setProfile d => d.wf
  | .setRound d => d.wf
  | .clear d => d.wf
  | .recover d => d.wf
  | .queryState d => d.wf
  | .queryRead d => d.wf
  | .eventWait d => d.wf
  | .queryResources d => d.wf
  | .queryHandles d => d.wf
  | .streamStart d => d.wf
  | .streamBuf d => d.wf
  | .streamStop d => d.wf
  | .imgSherd d => d.wf
  | .imgStatus d => d.wf
  | .imgActivate d => d.wf
  | .imgRollback d => d.wf
  | .nop d => d.wf
  | .fence d => d.wf
  | .warmStart d => d.wf
  | .kilnRead d => d.wf
  | .debugUnlock d => d.wf
  | .hostDbSq ring _ => decide (ring < 128)
  | .hostDbCq ring _ => decide (ring < 128)
  | .ringEnable ring => decide (ring < 128)
  | .ringPause ring => decide (ring < 128)
  | .ringReset ring => decide (ring < 128)
  | .acqCalStart _ => true
  | .sysLock _ => true
  | .wheelTurnLoRead => true
  | .tallyFbCycLoRead set => decide (set < 8)
  | .tallyFbCntRead set counter => decide (set < 8) && decide (counter < 6)
  | .tallyFbClear set => decide (set < 8)
  | .tallyFbFreeze set _ => decide (set < 8)
  | .tallyTagClear => true
  | .hostAuditRead => true
  | .hostInflightRead => true
  | .wheelCountRead => true
  | .acqFsCountRead conv => decide (conv < 12)
  | .acqCalStatusWrite _ => true
  | .sysClkRead => true
  | .sysClkWrite _ => true
  | .sysRstRead => true
  | .sysRstWrite _ => true
  | .bar4Write offset _ => decide (offset < 1048576)
  | .registerWrite offset _ _ => decide (offset < 65536)
  | .linkTrainingDone _ _ _ => true
  | .configSpaceReady => true
  | .hostInterfaceReset _ _ => true
  | .descriptorFetchDone ring result => decide (ring < 128) && result.wf
  | .completionPost ring => decide (ring < 128)
  | .irqCoalesceTimeout ring => decide (ring < 128)
  | .mainsEdge _ _ _ tick => decide (tick < 65536)
  | .wheelMissedEdge => true
  | .turnBoundary _ => true
  | .mgmtHeartbeat => true
  | .mgmtWatchdogTimeout => true
  | .mgmtWdColdStart => true
  | .ledgerClose _ _ _ => true
  | .ledgUnmetered => true
  | .estimatorStep => true
  | .battUnanchored string => decide (string < 8)
  | .impedanceWindowClose string => decide (string < 8)
  | .tallyGather => true
  | .scrub events => events.all LineEvent.wf
  | .bankRebuild bank => decide (bank < 17)
  | .sramLineRead events read => events.all LineEvent.wf && read.wf
  | .sampleTrigger gen => decide (gen < 32)
  | .fsConversionDone conv code _ _ _ => decide (conv < 12) && fits 16 code
  | .urgentTrigger conv channel => decide (conv < 12) && decide (channel < 44)
  | .injectedStart conv => decide (conv < 12)
  | .loopDispatch lane _ _ => decide (lane < 8)
  | .loopFerr loop => decide (loop < 96)
  | .loopStarved id => LoopId.wf id
  | .throwMemError _ lane owner _ => decide (lane < 8) && owner.wf
  | .svScanStart => true
  | .svConversionDone code _ _ => decide (code < 65536)
  | .pdOutput chan value _ _ _ => decide (chan < 32) && fits 24 value
  | .pdWindowCrossing chan => decide (chan < 32)
  | .tdConversionDone _ _ _ _ _ _ => true
  | .sensorPeriod sensor => decide (sensor < 20)
  | .calFamilyDone family _ _ => decide (family < 3)
  | .calDone => true
  | .flueCrcFail lane _ => decide (lane < 32)
  | .flueKeepalive => true
  | .flueTakeover => true
  | .flueTakeoverReport => true
  | .fireboxSilence => true
  | .unitWatchdog unit => decide (unit < 11)
  | .carrierStart phase _ _ => decide (phase < 48)
  | .sheddingEnd phase => decide (phase < 48)
  | .shedHoldEnd rail => decide (rail < 24)
  | .bootstrapUv phase _ => decide (phase < 48)
  | .vdrvUv => true
  | .surgeDetect rail _ _ _ => decide (rail < 24)
  | .firingEnd phase _ _ => decide (phase < 48)
  | .railPgConfirm rail => decide (rail < 24)
  | .railStartTimeout rail _ => decide (rail < 24)
  | .railOffReached rail => decide (rail < 24)
  | .railStopLate rail _ => decide (rail < 24)
  | .railOv rail _ => decide (rail < 24)
  | .railUvTime rail _ => decide (rail < 24)
  | .railOcp rail pos _ => decide (rail < 24) && decide (pos < 12)
  | .phaseFailure rail pos _ _ => decide (rail < 24) && decide (pos < 12)
  | .feedPrechargeDone feed => decide (feed < 40)
  | .feedPrechargeTimeout feed _ => decide (feed < 40)
  | .feedPgConfirm feed => decide (feed < 40)
  | .feedPgLoss feed => decide (feed < 40)
  | .feedGateTimeout feed _ _ => decide (feed < 40)
  | .feedShort feed _ => decide (feed < 40)
  | .feedFaultTimer feed _ _ => decide (feed < 40)
  | .feedBackstop feed _ => decide (feed < 40)
  | .feedPowerLimit feed _ => decide (feed < 40)
  | .feedOvReverse feed _ _ => decide (feed < 40)
  | .feedFaultRecord feed => decide (feed < 40)
  | .feedBleedStart feed => decide (feed < 40)
  | .feedBleedEnd feed => decide (feed < 40)
  | .feedResLate feed => decide (feed < 40)
  | .feedRetryDelay feed => decide (feed < 40)
  | .feedRetryClear feed => decide (feed < 40)
  | .feedBackfeed feed => decide (feed < 40)
  | .branchEnergyTrip branch _ _ _ _ _ => decide (branch < 4)
  | .branchHardTrip branch _ => decide (branch < 4)
  | .branchOnsetReset branch => decide (branch < 4)
  | .branchRampTimeout branch _ _ => decide (branch < 4)
  | .branchOpeningEnd branch => decide (branch < 4)
  | .branchHealthWindow branch => decide (branch < 4)
  | .srcQualified set input => decide (set < 2) && decide (input < 4)
  | .srcLoss set input _ _ => decide (set < 2) && decide (input < 4)
  | .srcBlockingConfirmed set input => decide (set < 2) && decide (input < 4)
  | .srcConductionConfirmed set _ _ => decide (set < 2)
  | .srcStuck set => decide (set < 2)
  | .srcFailed set => decide (set < 2)
  | .srcAutoReturn set => decide (set < 2)
  | .srcNoneTimeout set => decide (set < 2)
  | .holdupRelease _ => true
  | .holdupChargeEnd => true
  | .holdupBleedStart _ _ => true
  | .holdupBleedGate _ => true
  | .holdupBleedEnd _ _ => true
  | .battCutoff string => decide (string < 8)
  | .cutoffRelease string => decide (string < 8)
  | .battHibernate string => decide (string < 8)
  | .reducedSampling string => decide (string < 8)
  | .seqDelayUpEnd seq => decide (seq < 8)
  | .seqDelayDownEnd seq => decide (seq < 8)
  | .seqStepUp seq => decide (seq < 8)
  | .seqStepOff seq => decide (seq < 8)
  | .seqRiseTimeout seq => decide (seq < 8)
  | .seqFallTimeout seq => decide (seq < 8)
  | .seqDschWinEnd seq => decide (seq < 8)
  | .seqMemberFault seq step => decide (seq < 8) && decide (step < 32)
  | .seqMinOffEnd seq => decide (seq < 8)
  | .faultnQuiet seq => decide (seq < 8)
  | .faultnLow _ => true
  | .faultnHigh _ => true
  | .coneTrip sensor cone _ _ => decide (sensor < 20) && decide (cone < 3)
  | .coneConfirm sensor cone _ => decide (sensor < 20) && decide (cone < 3)
  | .sitterRelease => true
  | .sensorBiasFault sensor => decide (sensor < 16)
  | .blackBoxTrigger _ => true
  | .blackBoxCommitDone => true
  | .blackBoxRearm => true
  | .sherdWriteDone _ => true
  | .slotEraseDone slot => decide (slot < 3)
  | .handoverCopyDone tick => decide (tick < 65536)
  | .handoverHoldCommands => true
  | .handoverBoundary => true
  | .newImageStart _ => true
  | .fireboxImageSwitch => true
  | .fireboxSelfRevert => true
  | .imageConfirmed _ => true
  | .failedBoot => true
  | .safeHold => true
  | .fireboxPorRelease _ => true
  | .fireboxPor => true
  | .fireboxRailsGood => true
  | .supervisorChecked _ => true
  | .hkSuppliesGood => true
  | .hkStartFail => true
  | .hkRetry => true
  | .bootRomInitDone sound => sound.all (· < 17)
  | .mgmtReady => true
  | .hearthSupplyFault => true
  | .deviceReset _ => true
  | .refClockLoss => true
  | .refClockRestore => true
  | .pllUnlock pll => decide (pll < 4)
  | .mboxCommand _ desc => desc.wf
  | .mboxReread _ => true
  | .mboxDiscard _ => true
  | .mboxFrameError _ _ => true
  | .mboxRead _ _ => true
  | .alertResponseRead => true
  | .attentionPulse _ => true
  | .twoWireTimeout _ _ address => decide (address < 128)
  | .twoWireAbort _ _ address => decide (address < 128)
  | .busStuckClear _ address => decide (address < 128)
  | .arbitrationLost _ address => decide (address < 128)
  | .moduleDiscovery address _ => decide (address < 128)
  | .modulePollCycle _ _ => true
  | .moduleWrite address _ => decide (address < 128)
  | .ethFrameReceived port _ _ _ => decide (port < 2)
  | .netLink port _ _ => decide (port < 2)
  | .dtlsHandshake port _ _ => decide (port < 2)
  | .dtlsIdleClose session => decide (session < 8)
  | .coapGetId port => decide (port < 2)
  | .coapPostCmd _ _ _ _ desc => desc.wf
  | .coapPutImg _ _ _ num _ _ => decide (num < 4096)
  | .streamEmission stream _ => decide (stream < 64)
  | .branchPgConfirm branch => decide (branch < 4)
  | .branchPgLoss branch => decide (branch < 4)
  | .branchBackstop branch _ => decide (branch < 4)
  | .branchOvReverse branch _ _ => decide (branch < 4)
  | .branchRetryDelay branch => decide (branch < 4)
  | .branchRetryClear branch => decide (branch < 4)
  | .srcWindowLoss set input _ => decide (set < 2) && decide (input < 4)
  | .vdrvUvRelease => true
  | .pllRelock pll => decide (pll < 4)
  | .pcieLinkDown _ => true
  | .netifLinkTimeout port => decide (port < 2)
  | .dadComplete port _ => decide (port < 2)
  | .reducedSamplingTurn string => decide (string < 8)
  | .attentionPulseCollision => true
  | .dischargeThermalOff bleed switch => decide (switch < if bleed then 40 else 24)
  | .jtagInstructionLoad code => decide (code < 16)

end Sys2Proof
end

