-- ==== Sys2Proof/Safety.lean ====
section
/-! DEFINITION. What counts as a safe run: a step answers a next state, and only the commands of set-up and reset change a setup
register. The words in which the statements say what a command does. -/

namespace Sys2Proof

/-- The commands that may change a setup register: SYS_LOCK, a register write and the two resets (R520). -/
def Instr.changesSetup (c : Instr) : Bool :=
  match c with
  | .sysLock _ | .registerWrite _ _ _ | .deviceReset _ | .fireboxPor => true
  | _ => false

/-- The commands that may change the Wheel: its own edges and boundaries, the reads that clear or capture, SET_ROUND, and
the Firebox's power-on reset. A mailbox or CoAP command is SET_ROUND by its opcode; a start of the management plane or of the
recovery service serves what the mailboxes hold. -/
def Instr.changesWheel (c : Instr) : Bool :=
  match c with
  | .mainsEdge _ _ _ _ | .wheelMissedEdge | .turnBoundary _ | .wheelTurnLoRead | .wheelCountRead | .setRound _ | .fireboxPor
  | .mgmtReady | .safeHold => true
  | .mboxCommand _ raw | .coapPostCmd _ _ _ _ raw => raw.op == 0x0305
  | _ => false

end Sys2Proof

namespace Sys2Proof.Machine

/-- A command completes: it leaves the device as `d`, and neither the queue nor a setup register changes. -/
def Answers (c : Instr) (s : State) (d : Dev) : Prop := exec c s = .next { s with dev := d }

/-- The opcode rows: the opcode, the command and the effect (Table 3.19). -/
def opcodeRows : List (Nat × (Desc → Instr) × OpFn) :=
  [(0x0101, .create, opCreate), (0x0102, .destroy, opDestroy), (0x0103, .configure, opConfigure),
   (0x0201, .bankWrite, opBankWrite), (0x0202, .bankSwap, opBankSwap), (0x0203, .bankRead, opBankRead),
   (0x0204, .bankCopy, opBankCopy), (0x0301, .enable, opEnable), (0x0302, .disable, opDisable),
   (0x0303, .setPoint, opSetPoint), (0x0304, .setProfile, opSetProfile), (0x0305, .setRound, opSetRound),
   (0x0306, .clear, opClear), (0x0307, .recover, opRecover), (0x0401, .queryState, opQueryState),
   (0x0402, .queryRead, opQueryRead), (0x0403, .eventWait, opEventWait), (0x0404, .queryResources, opQueryResources),
   (0x0405, .queryHandles, opQueryHandles), (0x0501, .streamStart, opStreamStart), (0x0502, .streamBuf, opStreamBuf),
   (0x0503, .streamStop, opStreamStop), (0x0601, .imgSherd, opImgSherd), (0x0602, .imgStatus, opImgStatus),
   (0x0603, .imgActivate, opImgActivate), (0x0604, .imgRollback, opImgRollback), (0x0701, .nop, opNop),
   (0x0702, .fence, opFence), (0x0703, .warmStart, opWarmStart), (0x0704, .kilnRead, opKilnRead),
   (0x0705, .debugUnlock, opDebugUnlock)]

/-- A descriptor of opcode `op` begins in `s` and passes the checks of R76: its effect finds the device `d`, its place on its
ring is `k`, and a STRING that it names has been woken (R317). -/
def Runs (op : Nat) (x : Desc) (s : State) (d : Dev) (k : Nat) : Prop :=
  (∀ n, x.src = .ring n → n < 128) ∧ ∃ e, begins op x s.dev = some (e, k) ∧ descCheck e op x = none ∧
    d = if op = 0x0101 then e else wakeNamed e x.handle

/-- The command completes its descriptor with a status and a result; the device is `d` but for that completion. -/
def Completes (c : Instr) (s : State) (x : Desc) (k : Nat) (st : Status) (result : Nat) (d : Dev) : Prop :=
  Answers c s (completed x k (plainCpl st x.handle result) d)

/-- A queue of well-formed commands. -/
def QueueWf (s : State) : Prop := ∀ c ∈ s.pending, c.wf = true

end Sys2Proof.Machine
end

