-- ==== Sys2Proof/Certificates/Slice0/Obligations.lean ====
section
/-! DEFINITION. The statements about the model, chapter by chapter of the specification. -/

open Sys2Proof Sys2Proof.Machine

/-! ### The queue, the setup registers, and every command -/

/-- A step takes the command at the front of the queue and executes it with the queue's rest. -/
def Obligations.StepRunsFrontCommand : Prop :=
  ∀ (c : Instr) (rest : List Instr) (s : State), s.pending = c :: rest → step s = exec c { s with pending := rest }

/-- With no command waiting a step changes nothing: the model's choice (log entry 1). -/
def Obligations.EmptyQueueIdles : Prop := ∀ s : State, s.pending = [] → step s = .next s

/-- Every well-formed command completes, whatever the state, and leaves the queue as it is; no command is refused. -/
def Obligations.WellFormedCommandsComplete : Prop :=
  (∀ (c : Instr) (s : State), c.wf = true → ∃ t, exec c s = .next t ∧ t.pending = s.pending) ∧
  (∀ (c : Instr) (s : State), (∃ t, exec c s = .next t) ∨ exec c s = .fault .noSuchInstance)

/-- A queue of well-formed commands never stops the block, and every step keeps it so. -/
def Obligations.WellFormedQueueNeverStops : Prop :=
  ∀ s : State, QueueWf s → ∃ t, step s = .next t ∧ QueueWf t

/-- After reset no command waits, so the queue is well-formed. -/
def Obligations.ResetQueueWellFormed : Prop := QueueWf State.reset

/-- R520: writing 1 to SYS_LOCK.LOCK sets it; once it is 1, no step but a device reset or a Firebox power-on changes an RWL
register or the lock. The ring, interrupt, calibration, Tally fallback and tagging registers are never locked: a command on
them has the same effect whatever the setup registers hold. -/
def Obligations.LockedSetupHolds : Prop :=
  (∀ (s : State) (v : Word), s.dev.host.link = .ready → v.getLsbD 0 = true →
    exec (.sysLock v) s = .next { s with setup := { s.setup with lock := true } }) ∧
  (∀ s t : State, s.setup.lock = true →
    (∀ v, s.pending.head? ≠ some (.deviceReset v)) → s.pending.head? ≠ some .fireboxPor → step s = .next t → t.setup = s.setup) ∧
  (∀ (s t : State) (u : Setup) (o : Nat) (v : BitVec 64) (wide : Bool), exec (.registerWrite o v wide) s = .next t →
    ∃ t', exec (.registerWrite o v wide) { s with setup := u } = .next t' ∧ t'.dev = t.dev) ∧
  (∀ (s t : State) (u : Setup) (n : Nat) (v : Word) (f : Bool),
    ∀ c ∈ [Instr.ringEnable n, .ringPause n, .ringReset n, .hostDbSq n v, .hostDbCq n v, .acqCalStart v, .acqCalStatusWrite v,
      .tallyFbClear n, .tallyFbFreeze n f, .tallyTagClear],
    exec c s = .next t → exec c { s with setup := u } = .next { t with setup := u })

/-- Only SYS_LOCK, a register write, a device reset and a Firebox power-on change a setup register, locked or not. -/
def Obligations.OnlySetupCommandsChangeSetup : Prop :=
  ∀ (c : Instr) (s t : State), exec c s = .next t → c.changesSetup = false → t.setup = s.setup

/-- SYS_LOCK, and the writes of the RWL registers while they are not locked, take effect; both resets unlock. -/
def Obligations.SetupCommandsTakeEffect : Prop :=
  (∀ (s : State) (v : Word), s.dev.host.link = .ready →
    exec (.sysLock v) s = .next { s with setup := { s.setup with lock := s.setup.lock || v.getLsbD 0 } }) ∧
  (∀ (s : State) (v : BitVec 64), s.dev.host.link = .ready → s.setup.lock = false →
    exec (.registerWrite 0x24 v false) s = .next { s with setup := { s.setup with
      flueTime := v.extractLsb' 0 10, flueSeq := v.extractLsb' 10 3 } } ∧
    exec (.registerWrite 0x28 v false) s = .next { s with setup := { s.setup with
      wdTurns := v.extractLsb' 0 16, wdDown := v.getLsbD 16, wdSeq := v.extractLsb' 17 3 } } ∧
    exec (.registerWrite 0x40 v false) s = .next { s with setup := { s.setup with lock := v.getLsbD 0 } } ∧
    exec (.registerWrite 0x100 v false) s = .next { s with setup := { s.setup with
      wheelNominal := v.getLsbD 0, wheelSrc := v.extractLsb' 1 2, wheelDelay := v.extractLsb' 3 8 } }) ∧
  (∀ (s : State) (v : BitVec 7), s.dev.pow.phase ≠ .held → ∃ d, exec (.deviceReset v) s = .next { s with setup := {}, dev := d }) ∧
  (∀ s : State, ∃ d, exec .fireboxPor s = .next { s with setup := {}, dev := d })

/-! ### Rings (spec 03) -/

/-- HOST_DB_SQ and HOST_DB_CQ (from R55, R56, R66): what a doorbell does to its ring, in every ring state; no other ring changes
unless a fence raises an event. In FENCED every newly submitted descriptor ends with FENCED, unread.
Where the rules leave a point open, the clauses follow the model's choice of log entry 80. -/
def Obligations.Doorbells : Prop :=
  (∀ (s : State) (n : Nat) (v : Word), n < 128 → s.dev.host.link = .ready →
    ((s.dev.host.ring n).state = .disabled ∨ (s.dev.host.ring n).state = .resetting) →
    ∃ d, Answers (.hostDbSq n v) s d ∧ d = { s.dev with host := d.host, tal := d.tal } ∧
      d.host = { s.dev.host with droppedDb := min (s.dev.host.droppedDb + 1) 255 }) ∧
  (∀ (s : State) (n : Nat) (v : Word), n < 128 → s.dev.host.link = .ready →
    ((s.dev.host.ring n).state = .active ∨ (s.dev.host.ring n).state = .paused) →
    let r := s.dev.host.ring n
    let t : BitVec 16 := v.setWidth 16
    (t - r.f).toNat ≤ r.n →
    ∃ d, Answers (.hostDbSq n v) s d ∧ d = { s.dev with host := d.host, tal := d.tal } ∧
      (d.host.ring n).t = t ∧ (d.host.ring n).state = r.state ∧ (d.host.ring n).h = r.h ∧ (d.host.ring n).c = r.c ∧
      (d.host.ring n).q = r.q ∧ (∀ m, m ≠ n → d.host.ring m = s.dev.host.ring m) ∧
      ((t - r.h).toNat ≤ r.n → (r.u - r.f).toNat ≤ (t - r.f).toNat → (d.host.ring n).u = t)) ∧
  (∀ (s : State) (n : Nat) (v : Word), n < 128 → s.dev.host.link = .ready →
    ((s.dev.host.ring n).state = .active ∨ (s.dev.host.ring n).state = .paused) →
    let r := s.dev.host.ring n
    r.n < ((v.setWidth 16 : BitVec 16) - r.f).toNat →
    ∃ d, Answers (.hostDbSq n v) s d ∧ d = { s.dev with host := d.host, tal := d.tal, sag := d.sag } ∧
      (d.host.ring n).state = .fenced ∧ (d.host.ring n).reason = 2 ∧ (d.host.ring n).t = r.t ∧ (d.host.ring n).h = r.h) ∧
  (∀ (s : State) (n : Nat) (v : Word), n < 128 → s.dev.host.link = .ready → (s.dev.host.ring n).state = .fenced →
    let r := s.dev.host.ring n
    let t : BitVec 16 := v.setWidth 16
    ((t - r.f).toNat ≤ r.n →
      ∃ d, Answers (.hostDbSq n v) s d ∧ d = { s.dev with host := d.host, tal := d.tal } ∧
        (d.host.ring n).t = t ∧ (d.host.ring n).state = .fenced ∧ (d.host.ring n).h = r.h ∧ (d.host.ring n).c = r.c ∧
        (∀ m, m ≠ n → d.host.ring m = s.dev.host.ring m) ∧
        ∃ k, (d.host.ring n).q = r.q ++ List.replicate k (unreadEntry .fenced) ∧
          ((t - r.h).toNat ≤ r.n → (r.u - r.f).toNat ≤ (t - r.f).toNat → k = (t - r.f).toNat)) ∧
    (r.n < (t - r.f).toNat → ∃ d, Answers (.hostDbSq n v) s d ∧ d = { s.dev with tal := d.tal })) ∧
  (∀ (s : State) (n : Nat) (v : Word), n < 128 → s.dev.host.link = .ready → (s.dev.host.ring n).state = .disabled →
    ∃ d, Answers (.hostDbCq n v) s d ∧ d = { s.dev with host := d.host, tal := d.tal } ∧
      d.host = { s.dev.host with droppedDb := min (s.dev.host.droppedDb + 1) 255 }) ∧
  (∀ (s : State) (n : Nat) (v : Word), n < 128 → s.dev.host.link = .ready → (s.dev.host.ring n).state ≠ .disabled →
    ∃ d, Answers (.hostDbCq n v) s d ∧ d = { s.dev with host := d.host, tal := d.tal } ∧
      d.host.ring n = { s.dev.host.ring n with h := v.setWidth 16 } ∧
      ∀ m, m ≠ n → d.host.ring m = s.dev.host.ring m)

/-- R64 and Table 3.15: what EN and RESET do to a ring in each of its states. A pause keeps every count and every descriptor of
the ring, and its doorbells are accepted. -/
def Obligations.RingStates : Prop :=
  (∀ (s : State) (n : Nat), n < 128 → s.dev.host.link = .ready →
    ∃ d, Answers (.ringEnable n) s d ∧ d = { s.dev with host := d.host } ∧
      (∀ m, m ≠ n → d.host.ring m = s.dev.host.ring m) ∧ (d.host.ring n).en = true ∧
      let r := s.dev.host.ring n
      let r' := d.host.ring n
      (r.state = .disabled → r.configValid = true → r'.state = .active ∧ r'.t = 0 ∧ r'.f = 0 ∧ r'.c = 0 ∧ r'.h = 0) ∧
      (r.state = .disabled → r.configValid = false → r'.state = .disabled ∧ r'.reason = 6) ∧
      (r.state = .paused → r' = { r with en := true, state := .active }) ∧
      (r.state = .active ∨ r.state = .fenced ∨ r.state = .resetting → r' = { r with en := true })) ∧
  (∀ (s : State) (n : Nat), n < 128 → s.dev.host.link = .ready →
    ∃ d, Answers (.ringPause n) s d ∧ d = { s.dev with host := d.host } ∧
      (∀ m, m ≠ n → d.host.ring m = s.dev.host.ring m) ∧
      let r := s.dev.host.ring n
      (r.state = .active → d.host.ring n = { r with en := false, state := .paused }) ∧
      (r.state ≠ .active → d.host.ring n = { r with en := false })) ∧
  (∀ (s : State) (n : Nat), n < 128 → s.dev.host.link = .ready →
    (s.dev.host.ring n).state ≠ .disabled → (s.dev.host.ring n).state ≠ .resetting →
    ∃ d, Answers (.ringReset n) s d ∧ d = { s.dev with host := d.host, slots := d.slots, waits := d.waits, net := d.net } ∧
      (∀ m, m ≠ n → d.host.ring m = s.dev.host.ring m) ∧
      let r := s.dev.host.ring n
      let r' := d.host.ring n
      (r.q = [] → r.u = r.f → r'.state = .disabled ∧ r'.en = false ∧ r'.t = 0 ∧ r'.f = 0 ∧ r'.c = 0 ∧ r'.h = 0) ∧
      (r.q ≠ [] → r'.state = .resetting ∧ r'.c = r.c ∧ r'.h = r.h ∧
        (∀ e ∈ r'.q, e.isDone = true ∨ e.st = .running) ∧
        (∀ e ∈ r.q, e.st = .held → (⟨e.raw, .done ⟨.aborted, e.raw.d.handle, 0, [], 0⟩, e.stamp⟩ : Entry) ∈ r'.q))) ∧
  (∀ (s : State) (n : Nat), n < 128 → s.dev.host.link = .ready →
    (s.dev.host.ring n).state = .disabled ∨ (s.dev.host.ring n).state = .resetting → Answers (.ringReset n) s s.dev) ∧
  (∀ (s : State) (n : Nat) (v : Word), n < 128 → s.dev.host.link = .ready → (s.dev.host.ring n).state = .paused →
    (((v.setWidth 16 : BitVec 16) - (s.dev.host.ring n).f).toNat ≤ (s.dev.host.ring n).n → ∃ d, Answers (.hostDbSq n v) s d ∧
      (d.host.ring n).t = v.setWidth 16 ∧ (d.host.ring n).state = .paused ∧ (d.host.ring n).q = (s.dev.host.ring n).q) ∧
    ∃ d, Answers (.hostDbCq n v) s d ∧ (d.host.ring n).h = v.setWidth 16 ∧ (d.host.ring n).state = .paused)

/-- From R53, R57 and R66: a read of descriptors brings at most 8, and on a command ring no more than fill 16; where every held
opcode is in the catalogue the rest of the ring stands, and one that is not ends with RANGE as its turn comes; a failed read
fences. -/
def Obligations.DescriptorFetch : Prop :=
  ∀ (s : State) (n : Nat), n < 128 → s.dev.mayFetch (s.dev.host.ring n) = true →
    let r := s.dev.host.ring n
    (∀ ds, (∀ x ∈ ds, catalogue.contains x.op = true) →
      (∀ e ∈ r.q, e.st = .held → catalogue.contains e.raw.op = true) →
      ∃ d, Answers (.descriptorFetchDone n (.ok ds)) s d ∧ d = { s.dev with host := d.host, tal := d.tal } ∧
        (∀ m, m ≠ n → d.host.ring m = s.dev.host.ring m) ∧
        (∃ new, d.host.ring n = { r with q := r.q ++ new } ∧ (∀ e ∈ new, e.st = .held ∧ e.raw.d.src = .ring n) ∧
          new.length = min ds.length r.fetchRoom ∧ new.length ≤ 8 ∧ new.length ≤ (r.u - r.f).toNat ∧
          (r.cls = 0 → r.q.length ≤ 16 → (d.host.ring n).q.length ≤ 16))) ∧
    (∀ x, catalogue.contains x.op = false → r.q = [] → r.fetchRoom ≠ 0 → s.dev.ringServes r = true →
      ∃ d, Answers (.descriptorFetchDone n (.ok [x])) s d ∧ d = { s.dev with host := d.host, tal := d.tal } ∧
        (∀ m, m ≠ n → d.host.ring m = s.dev.host.ring m) ∧
        ∃ e, (d.host.ring n).q = [e] ∧ e.raw.op = x.op ∧ e.st = .done ⟨.range, x.d.handle, 0, [], 0⟩) ∧
    (∀ res, res = .unsupportedRequest ∨ res = .completerAbort ∨ res = .poisoned →
      ∃ d, Answers (.descriptorFetchDone n res) s d ∧ d = { s.dev with host := d.host, tal := d.tal, sag := d.sag } ∧
        (d.host.ring n).state = .fenced ∧ (d.host.ring n).reason = 3)

/-- From R53, R57 and R59: the oldest ended descriptor is posted: its output bytes first, then its 16-byte entry with the phase
bit of its count; C advances by one. Nothing is posted over an entry that has not been consumed (R68), nor of a descriptor that
has not ended; one whose opcode the catalogue does not hold ends with RANGE as its turn comes. -/
def Obligations.CompletionPosted : Prop :=
  (∀ (s : State) (n : Nat) (e : Entry) (c : Cpl) (rest : List Entry), n < 128 →
    let r := s.dev.host.ring n
    r.q = e :: rest → (e.st = .done c ∨ e.st = .held ∧ catalogue.contains e.raw.op = false ∧
      c = ⟨.range, e.raw.d.handle, 0, [], 0⟩ ∧ s.dev.ringServes r = true) →
    (∀ x ∈ rest, x.st = .held → catalogue.contains x.raw.op = true) → r.state ≠ .disabled → (r.c - r.h).toNat < r.n →
    ∃ d, Answers (.completionPost n) s d ∧ d = { s.dev with host := d.host, tal := d.tal } ∧
      d.host.dma = s.dev.host.dma ++ (if c.out = [] then [] else [⟨c.outAddr, c.out⟩]) ++
        [⟨r.cqb + BitVec.ofNat 64 (16 * (r.c.toNat % r.n)),
          completionBytes (decide (r.c.toNat / r.n % 2 = 0)) s.dev.wheel.turn.toNat c⟩] ∧
      (r.state ≠ .resetting ∨ rest ≠ [] → (d.host.ring n).c = r.c + 1 ∧ (d.host.ring n).q = rest ∧
        (d.host.ring n).state = r.state) ∧
      (r.state = .resetting → rest = [] → (d.host.ring n).state = .disabled ∧ (d.host.ring n).c = 0 ∧
        (d.host.ring n).en = false) ∧
      (e.raw.d.flags.toNat % 2 = 1 → (d.host.ring n).unsignalled = 0)) ∧
  (∀ (s : State) (n : Nat), n < 128 → (s.dev.host.ring n).postable = none →
    (∀ x ∈ (s.dev.host.ring n).q, x.st = .held → catalogue.contains x.raw.op = true) →
    ∃ d, Answers (.completionPost n) s d ∧ d = { s.dev with host := { s.dev.host with rings := d.host.rings, peak := d.host.peak } } ∧
      ∀ m, d.host.ring m = s.dev.host.ring m)

/-- From R62: when TIME has passed, the ring's vector is signalled and every ring of the vector counts afresh. -/
def Obligations.CoalesceTimeout : Prop :=
  ∀ (s : State) (n : Nat), n < 128 →
    let r := s.dev.host.ring n
    (r.irqTime ≠ 0 → r.unsignalled ≠ 0 →
      ∃ d, Answers (.irqCoalesceTimeout n) s d ∧ d = { s.dev with host := d.host } ∧ (d.host.ring n).unsignalled = 0 ∧
        ((s.dev.host.msixEntry r.vec.toNat).mask = false → d.host.msgs = s.dev.host.msgs ++ [r.vec.toNat]) ∧
        ((s.dev.host.msixEntry r.vec.toNat).mask = true → d.host.msgs = s.dev.host.msgs ∧
          (d.host.msixEntry r.vec.toNat).pending = true)) ∧
    (r.irqTime = 0 ∨ r.unsignalled = 0 → Answers (.irqCoalesceTimeout n) s s.dev)

/-! ### Registers that a read or write of their own serves -/

/-- The read-to-clear registers return their value and clear the fields marked RC: HOST_AUDIT, HOST_INFLIGHT, WHEEL_COUNT,
ACQ_FS_COUNT, SYS_CLK and SYS_RST (Tables 3.5, 3.6, 2.9, 4.10, 20.5, 20.7). Nothing else changes. A plain read answers those same
words, SYS_ID, a register's fields, and 0 at reserved offsets, on the doorbell pages and outside the snapshot areas of BAR4;
none is answered before the configuration space is ready (from R2, R6, R7, R49 to R51, R55, R545).
Where the rules leave a point open, the clauses follow the model's choices of log entries 9 and 70. -/
def Obligations.ReadToClear : Prop :=
  (∀ s : State, s.dev.host.link = .ready → Answers .hostAuditRead s { s.dev with host := { s.dev.host with
      rdData := BitVec.ofNat 32 (s.dev.host.lastRing.toNat + (if s.dev.host.auditValid then 128 else 0) + 256 * s.dev.host.faults
        + 2 ^ 24 * s.dev.host.droppedDb)
      faults := 0, droppedDb := 0 } }) ∧
  (∀ s : State, s.dev.host.link = .ready → Answers .hostInflightRead s { s.dev with host := { s.dev.host with
      rdData := BitVec.ofNat 32 (s.dev.host.inflight + 2 ^ 8 * s.dev.host.peak + 2 ^ 16 * s.dev.host.bar4Wr)
      peak := 0, bar4Wr := 0 } }) ∧
  (∀ s : State, s.dev.host.link = .ready → Answers .wheelCountRead s { s.dev with
      wheel := { s.dev.wheel with missed := 0, rejected := 0, switches := 0 }
      host := { s.dev.host with
        rdData := BitVec.ofNat 32 (s.dev.wheel.missed + 2 ^ 12 * s.dev.wheel.rejected + 2 ^ 24 * s.dev.wheel.switches) } }) ∧
  (∀ (s : State) (c : Nat), c < 12 → s.dev.host.link = .ready →
    ∃ d, Answers (.acqFsCountRead c) s d ∧ d = { s.dev with acq := d.acq, host := d.host } ∧
      d.host = { s.dev.host with rdData := (BitVec.ofNat 32
        ((s.dev.conv c).late + 2 ^ 8 * (s.dev.conv c).dropped + 2 ^ 16 * (s.dev.conv c).injMerged)) } ∧
      d.conv c = { s.dev.conv c with late := 0, dropped := 0, injMerged := 0 } ∧
      ∀ k, k ≠ c → d.conv k = s.dev.conv k) ∧
  (∀ s : State, s.dev.host.link = .ready → Answers .sysClkRead s { s.dev with
      pow := { s.dev.pow with unlocks := 0 }, host := { s.dev.host with rdData := BitVec.ofNat 32 (sysClk s.dev) } }) ∧
  (∀ s : State, s.dev.host.link = .ready → Answers .sysRstRead s { s.dev with
      pow := { s.dev.pow with hkFails := 0 }, host := { s.dev.host with rdData := BitVec.ofNat 32 (sysRst s.dev) } }) ∧
  (∀ s : State, s.dev.host.link = .ready →
    (∀ p ∈ [(0x204, Instr.hostAuditRead), (0x208, .hostInflightRead), (0x118, .wheelCountRead), (0x108, .wheelTurnLoRead),
        (0x4C, .sysClkRead), (0x48, .sysRstRead)], ∃ d, Answers p.2 s d ∧ bar0Read s p.1 = some d.host.rdData) ∧
    (∀ c < 12, ∃ d, Answers (.acqFsCountRead c) s d ∧ bar0Read s (0x340 + 4 * c) = some d.host.rdData) ∧
    bar0Read s 0x00 = some (BitVec.ofNat 32 sysId) ∧
    bar0Read s 0x24 = some (BitVec.ofNat 32 (s.setup.flueTime.toNat + 2 ^ 10 * s.setup.flueSeq.toNat)) ∧
    bar0Read s 0x28 = some (BitVec.ofNat 32
      (s.setup.wdTurns.toNat + (if s.setup.wdDown then 2 ^ 16 else 0) + 2 ^ 17 * s.setup.wdSeq.toNat)) ∧
    bar0Read s 0x100 = some (BitVec.ofNat 32
      ((if s.setup.wheelNominal then 1 else 0) + 2 * s.setup.wheelSrc.toNat + 8 * s.setup.wheelDelay.toNat)) ∧
    bar0Read s 0x10C = some (BitVec.ofNat 32 s.dev.wheel.turnHi.toNat) ∧
    (∀ n < 128, let r := s.dev.host.ring n
      bar0Read s (0x1000 + 32 * n) = some (r.sqb.setWidth 32) ∧ bar0Read s (0x1004 + 32 * n) = some (r.sqb.extractLsb' 32 32) ∧
      bar0Read s (0x1010 + 32 * n) = some (BitVec.ofNat 32
        (r.size.toNat + 2 ^ 4 * r.cls.toNat + 2 ^ 6 * r.vec.toNat + 2 ^ 16 * r.evmask.toNat))) ∧
    (∀ o, o % 4 = 0 → (0x58 ≤ o ∧ o < 0x100) ∨ (0x11C ≤ o ∧ o < 0x200) ∨ (0x20C ≤ o ∧ o < 0x300) ∨ (0x2810 ≤ o ∧ o < 0x4000) ∨
      0x8000 ≤ o → bar0Read s o = some 0) ∧
    (∀ o, bar2Read s o = some 0) ∧
    (∀ o n, (∀ k < n, (∀ x ∈ bar4Areas s.dev, o + k < x.1 ∨ x.1 + x.2.length ≤ o + k) ∧
        s.dev.linePoisoned ((0x580000 + (o + k)) / 64 % 16) ((0x580000 + (o + k)) / 1024) = false) →
      bar4Read s o n = some (List.replicate n 0))) ∧
  (∀ s : State, s.dev.host.link ≠ .ready → ∀ o n, bar0Read s o = none ∧ bar2Read s o = none ∧ bar4Read s o n = none)

/-- R45: a read of WHEEL_TURN_LO captures the high half in WHEEL_TURN_HI, so that the pair gives one 48-bit turn number; the
captured half stands until the next such read or a Firebox power-on, whatever the Wheel does in between. -/
def Obligations.TurnReadIsConsistent : Prop :=
  (∀ s : State, s.dev.host.link = .ready →
    ∃ d, Answers .wheelTurnLoRead s d ∧ d = { s.dev with wheel := { s.dev.wheel with turnHi := d.wheel.turnHi }, host := d.host } ∧
      d.wheel.turnHi.toNat * 2 ^ 32 + d.host.rdData.toNat = s.dev.wheel.turn.toNat ∧
      d.host = { s.dev.host with rdData := d.host.rdData }) ∧
  (∀ (c : Instr) (s t : State), c ≠ .wheelTurnLoRead → c ≠ .fireboxPor → exec c s = .next t →
    t.dev.wheel.turnHi = s.dev.wheel.turnHi)

/-- Write-1-to-clear: SYS_CLK.REF_FAIL and SYS_RST.POR, PIN, HEARTH, WD_START; a write of BAR4 is discarded and counted (from R51). -/
def Obligations.WriteToClear : Prop :=
  (∀ (s : State) (v : Word), s.dev.host.link = .ready →
    Answers (.sysClkWrite v) s { s.dev with pow := { s.dev.pow with refFail := s.dev.pow.refFail && !v.getLsbD 1 } }) ∧
  (∀ (s : State) (v : Word), s.dev.host.link = .ready →
    Answers (.sysRstWrite v) s { s.dev with pow := { s.dev.pow with
      por := s.dev.pow.por && !v.getLsbD 0, pin := s.dev.pow.pin && !v.getLsbD 1
      hearth := s.dev.pow.hearth && !v.getLsbD 2, wdStart := s.dev.pow.wdStart && !v.getLsbD 3 } }) ∧
  (∀ (s : State) (o : Nat) (v : Word), s.dev.host.link = .ready → s.dev.host.bar4Wr < 65535 →
    Answers (.bar4Write o v) s { s.dev with host := { s.dev.host with bar4Wr := s.dev.host.bar4Wr + 1 } })

/-- From R54: a ring's bases and configuration take a write only while the ring is DISABLED; the interrupt register takes one in every
state. Each write changes that ring alone. -/
def Obligations.RingRegisterWrites : Prop :=
  ∀ (s : State) (n : Nat) (v : BitVec 64), n < 128 → s.dev.host.link = .ready →
    let r := s.dev.host.ring n
    (∀ o, o ∈ [0x00, 0x04, 0x08, 0x0C, 0x10] → r.state ≠ .disabled →
      ∃ d, Answers (.registerWrite (0x1000 + 32 * n + o) v false) s d ∧ d = { s.dev with host := d.host } ∧
        ∀ m, d.host.ring m = s.dev.host.ring m) ∧
    (r.state = .disabled →
      ∃ d, Answers (.registerWrite (0x1000 + 32 * n + 0x10) v false) s d ∧ d = { s.dev with host := d.host } ∧
        d.host.ring n = { r with size := v.extractLsb' 0 4, cls := v.extractLsb' 4 2, vec := v.extractLsb' 6 7, evmask := v.extractLsb' 16 16 } ∧
        ∀ m, m ≠ n → d.host.ring m = s.dev.host.ring m) ∧
    (r.state = .disabled →
      ∃ d, Answers (.registerWrite (0x1000 + 32 * n) v true) s d ∧ d = { s.dev with host := d.host } ∧
        (d.host.ring n).sqb.toNat = v.toNat / 4096 * 4096 ∧ d.host.ring n = { r with sqb := (d.host.ring n).sqb } ∧
        ∀ m, m ≠ n → d.host.ring m = s.dev.host.ring m) ∧
    (∃ d, Answers (.registerWrite (0x1000 + 32 * n + 0x14) v false) s d ∧ d = { s.dev with host := d.host } ∧
      d.host.ring n = { r with irqCount := v.extractLsb' 0 8, irqTime := v.extractLsb' 8 16 } ∧
      ∀ m, m ≠ n → d.host.ring m = s.dev.host.ring m)

/-! ### Link, start-up and resets (spec 03, 20) -/

/-- From R545 and R48: training, readiness of the configuration space, and the resets of the host interface.
Where the rules leave a point open, the clauses follow the model's choices of log entries 80 and 81. -/
def Obligations.HostLink : Prop :=
  (∀ (s : State) (sp w : BitVec 2), s.dev.pow.phase = .image ∨ s.dev.pow.phase = .up →
    Answers (.linkTrainingDone sp w true) s { s.dev with
      pow := { s.dev.pow with pcieRef := true }
      host := { s.dev.host with
        perstN := true
        link := if s.dev.host.link = .ready then .ready else .trained
        speed := if sp = 0 then 1 else sp
        width := if w = 0 then 1 else if w = 3 then 2 else w } }) ∧
  (∀ (s : State) (sp w : BitVec 2), Answers (.linkTrainingDone sp w false) s { s.dev with host := { s.dev.host with perstN := false } }) ∧
  (∀ s : State, s.dev.host.link = .trained →
    Answers .configSpaceReady s { s.dev with host := { s.dev.host with link := .ready } }) ∧
  (∀ (s : State) (conv pn : Bool),
    ∃ d, Answers (.hostInterfaceReset conv pn) s d ∧
      d = { s.dev with host := d.host, waits := d.waits, net := { s.dev.net with fill := [] }, img := { s.dev.img with writes := d.img.writes } } ∧
      d.host = { s.dev.host with
        rings := [], msix := [], served := 127, mps := 0, mrrs := 2, aerUncor := 0, aerCor := 0, link := d.host.link
        speed := d.host.speed, width := d.host.width, perstN := d.host.perstN } ∧
      (conv = true → d.host.link = .down ∧ d.host.speed = 0 ∧ d.host.width = 0 ∧ d.host.perstN = pn) ∧
      (conv = false → d.host.link = s.dev.host.link ∧ d.host.speed = s.dev.host.speed ∧ d.host.width = s.dev.host.width ∧
        d.host.perstN = s.dev.host.perstN) ∧
      d.waits.map (·.kind) = s.dev.waits.map (·.kind) ∧ (∀ w ∈ d.waits, ∀ n, w.src ≠ some (.ring n)) ∧
      d.img.writes.length = s.dev.img.writes.length ∧ (∀ w ∈ d.img.writes, ∀ n, w.src ≠ some (.ring n)) ∧
      ∀ n, (d.host.ring n).state = .disabled) ∧
  (∀ (s : State) (rc : Bool),
    ∃ d, Answers (.pcieLinkDown rc) s d ∧ d = { s.dev with
      host := d.host, waits := d.waits, net := { s.dev.net with fill := [] }, img := { s.dev.img with writes := d.img.writes }
      pow := { s.dev.pow with pcieRef := rc } } ∧
      d.host.link = .down ∧ ∀ n, (d.host.ring n).state = .disabled)

/-- From Table 20.1 and R508: each step of power-up begins only where the one before it has ended, and changes what the step says.
Where the rules leave a point open, the clauses follow the model's choices of log entries 68 and 93. -/
def Obligations.PowerUpSteps : Prop :=
  (∀ (s : State) (straps : BitVec 7), s.dev.pow.phase = .held →
    Answers (.fireboxPorRelease straps) s { s.dev with pow := { s.dev.pow with phase := .rails, straps := straps } }) ∧
  (∀ s : State, s.dev.pow.phase = .rails →
    Answers .fireboxRailsGood s { s.dev with pow := { s.dev.pow with phase := .supervisor, refOk := true, pdLock := true } }) ∧
  (∀ (s : State) (ok : Bool), s.dev.pow.phase = .supervisor →
    Answers (.supervisorChecked ok) s { s.dev with
      pow := { s.dev.pow with phase := .supplies, hkEn := true }
      img := if ok then s.dev.img else { s.dev.img with fbRun := s.dev.fbOther } }) ∧
  (∀ s : State, s.dev.pow.phase = .supplies → s.dev.pow.hkEn = true →
    Answers .hkSuppliesGood s { s.dev with pow := { s.dev.pow with phase := .boot, hkRun := 0 } }) ∧
  (∀ s : State, s.dev.pow.phase = .supplies → s.dev.pow.hkEn = true →
    Answers .hkStartFail s { s.dev with pow := { s.dev.pow with
      hkEn := false, hkRun := s.dev.pow.hkRun + 1, hkFails := min (s.dev.pow.hkFails + 1) 255, hkReport := true } }) ∧
  (∀ s : State, s.dev.pow.phase = .supplies → s.dev.pow.hkEn = false →
    Answers .hkRetry s { s.dev with pow := { s.dev.pow with hkEn := true } }) ∧
  (∀ (s : State) (sound : List Nat), s.dev.pow.phase = .boot →
    ∃ d, Answers (.bootRomInitDone sound) s d ∧
      d.pow.phase = .image ∧ d.pow.coreLock = true ∧ d.pow.throwLock = true ∧ d.slots = s.dev.slots ∧ d.wheel = s.dev.wheel ∧
      (s.dev.sram.untested = true → d.sram.retired = s.dev.sram.retired.filter fun b => !sound.contains b) ∧
      (s.dev.sram.untested = false → d.sram = s.dev.sram)) ∧
  (∀ (s : State) (straps : BitVec 7), s.dev.pow.phase ≠ .held → Answers (.fireboxPorRelease straps) s s.dev) ∧
  (∀ s : State, s.dev.pow.phase ≠ .supplies → Answers .hkSuppliesGood s s.dev ∧ Answers .hkStartFail s s.dev ∧ Answers .hkRetry s s.dev)

/-- From R506, R514, R515: what the three resets keep and what they reset. A Firebox power-on reset restarts the Wheel and its turn
count and keeps the non-volatile stores; a device reset keeps the Wheel too; a Hearth reset keeps the Firebox's phases,
feeds, branches and sequences and discards the handle table and the rings.
Where the rules leave a point open, the clauses follow the model's choices of log entries 55, 68 and 93. -/
def Obligations.ResetScopes : Prop :=
  (∀ s : State, ∃ d, exec .fireboxPor s = .next { s with setup := {}, dev := d } ∧
    d.wheel = {} ∧ d.slots = [] ∧ d.host.rings = [] ∧ d.feeds = [] ∧ d.branches = [] ∧ d.seq = {} ∧ d.acq = {} ∧
    d.kiln = s.dev.kiln ∧ d.img.slots = s.dev.img.slots ∧ d.img.banks = s.dev.img.banks ∧
    d.pow.phase = .held ∧ d.pow.por = true ∧ d.pow.pin = s.dev.pow.pin ∧ d.pow.hearth = s.dev.pow.hearth) ∧
  (∀ (s : State) (straps : BitVec 7), s.dev.pow.phase ≠ .held →
    ∃ d, exec (.deviceReset straps) s = .next { s with setup := {}, dev := d } ∧
    d.wheel = s.dev.wheel ∧ d.slots = [] ∧ d.host.rings = [] ∧ d.feeds = [] ∧ d.branches = [] ∧ d.pow.straps = straps ∧
    d.seq = { fn := { edges := s.dev.seq.fn.edges } } ∧ d.acq = {} ∧
    d.kiln = s.dev.kiln ∧ d.img.slots = s.dev.img.slots ∧ d.host.unselected = s.dev.host.unselected ∧
    d.pow.pin = true ∧ d.pow.por = s.dev.pow.por ∧ d.pow.hearth = s.dev.pow.hearth) ∧
  (∀ s : State, s.dev.pow.phase = .boot ∨ s.dev.pow.phase = .image ∨ s.dev.pow.phase = .up →
    ∃ d, Answers .hearthSupplyFault s d ∧ d.wheel = s.dev.wheel ∧ d.kiln = s.dev.kiln ∧ d.host.rings = [] ∧ d.waits = [] ∧
      d.host.unselected = s.dev.host.unselected ∧ (∀ p ∈ d.slots, p.2.live = true → p.2.ghost = true) ∧
      d.pow.phase = .supplies ∧ d.pow.hearth = true ∧ d.plane.mgmtRunning = false ∧ d.plane.profile = .glaze)

/-- From R513: loss and return of the reference, and the PLLs.
Where the rules leave a point open, the clauses follow the model's choice of log entry 68. -/
def Obligations.Clocks : Prop :=
  (∀ s : State, s.dev.pow.refOk = true →
    ∃ d, Answers .refClockLoss s d ∧ d = { s.dev with host := d.host, tal := d.tal, sag := d.sag, onceTurn := d.onceTurn, pow := d.pow } ∧
      d.pow = { s.dev.pow with refReturn := false, refOk := false, refFail := true }) ∧
  (∀ s : State, s.dev.pow.refOk = false → s.dev.pow.phase ≠ .held → s.dev.pow.phase ≠ .rails →
    Answers .refClockRestore s { s.dev with pow := { s.dev.pow with refReturn := true } }) ∧
  (∀ (s : State) (k : Nat), 1 ≤ k → k ≤ 3 → s.dev.pow.locked k = true →
    ∃ d, Answers (.pllUnlock k) s d ∧ d = { s.dev with host := d.host, tal := d.tal, sag := d.sag, onceTurn := d.onceTurn, pow := d.pow } ∧
      d.pow.locked k = false ∧ d.pow.unlocks = min (s.dev.pow.unlocks + 1) 255 ∧
      ∀ j, 1 ≤ j → j ≤ 3 → j ≠ k → d.pow.locked j = s.dev.pow.locked j) ∧
  (∀ (s : State) (k : Nat), 1 ≤ k → k ≤ 3 → s.dev.pow.phase ≠ .held → s.dev.pow.phase ≠ .rails →
    ∃ d, Answers (.pllRelock k) s d ∧ d = { s.dev with pow := d.pow } ∧ d.pow.locked k = true ∧ d.pow.unlocks = s.dev.pow.unlocks ∧
      ∀ j, 1 ≤ j → j ≤ 3 → j ≠ k → d.pow.locked j = s.dev.pow.locked j)

/-- From R521, R522: without a token of boundary-scan scope the IEEE 1149.1 port executes IDCODE and BYPASS alone. -/
def Obligations.DebugPort : Prop :=
  (∀ (s : State) (code : Nat), ∃ k, Answers (.jtagInstructionLoad code) s { s.dev with pow := { s.dev.pow with jtag := k } } ∧
    (code = 1 → k = 1) ∧ (code = 0 → k = 0) ∧ (s.dev.pow.debug = false → k = 0 ∨ k = 1) ∧
    (code = 2 ∨ code = 3 → s.dev.pow.debug = true → s.dev.pow.scope.toNat % 2 = 1 → s.dev.anyDriving = false → k = code))

/-! ### The Flue watch and the management watchdog (R10, R19, R515, R516) -/

/-- A heartbeat arms the watchdog and restarts its count; its timeout raises MGMT_LOST once, with detail 1 under HOLD; a
keep-alive is counted; a takeover begins where the Flue has been trained.
Where the rules leave a point open, the clauses follow the model's choices of log entries 68 and 78. -/
def Obligations.Watchdogs : Prop :=
  (∀ s : State, s.dev.plane.mgmtRunning = true →
    ∃ d, Answers .mgmtHeartbeat s d ∧ d.plane.wdArmed = true ∧ d.plane.wdCount = 0 ∧ d.plane.beatThisTurn = true ∧
      d.plane.mgmtLost = false ∧ d.wheel = s.dev.wheel ∧ d.slots = s.dev.slots) ∧
  (∀ s : State, s.dev.plane.wdArmed = true → s.dev.plane.mgmtLost = false → max 1 s.setup.wdTurns.toNat ≤ s.dev.plane.wdCount →
    s.setup.wdDown = false →
    Answers .mgmtWatchdogTimeout s
      (Dev.raise { s.dev with plane := { s.dev.plane with mgmtLost := true, lostTurns := 0 } } 0x1204 1 0)) ∧
  (∀ s : State, s.dev.plane.wdArmed = true → s.dev.plane.mgmtLost = false → max 1 s.setup.wdTurns.toNat ≤ s.dev.plane.wdCount →
    s.setup.wdDown = true →
    ∃ d, Answers .mgmtWatchdogTimeout s d ∧ d.plane.mgmtLost = true ∧ d.plane.wdFaultN = true ∧ d.wheel = s.dev.wheel) ∧
  (∀ s : State, s.dev.plane.mgmtLost = true → s.setup.wdDown = false → 4 * max 1 s.setup.wdTurns.toNat ≤ s.dev.plane.lostTurns →
    s.dev.img.start = none →
    ∃ d, Answers .mgmtWdColdStart s d ∧ d.pow.wdStart = true ∧ d.plane.mgmtRunning = false ∧ d.wheel = s.dev.wheel) ∧
  (∀ s : State, Answers .flueKeepalive s (s.dev.tally 31 3 1)) ∧
  (∀ s : State, s.dev.plane.takeover = false → s.dev.pow.phase = .image ∨ s.dev.pow.phase = .up →
    ∃ d, Answers .flueTakeover s d ∧ d.plane.takeover = true ∧ d.img.start = none ∧ d.wheel = s.dev.wheel)

/-! ### The Wheel (spec 02) -/

/-- Nothing but a mains edge, a missed edge, a turn boundary, a read of WHEEL_TURN_LO or WHEEL_COUNT, SET_ROUND, and a power-on
reset of the Firebox changes the Wheel: no other command moves the turn number, the tick, the period or the round. -/
def Obligations.OnlyWheelCommandsChangeWheel : Prop :=
  ∀ (c : Instr) (s t : State), c.changesWheel = false → exec c s = .next t → t.dev.wheel = s.dev.wheel

/-- MAINS_EDGE (from R28 to R33, Table 2.1): a short or early edge is nothing; an edge on the input in use is validated by its
interval and its window, and a valid one drives the states with the period since the accepted edge before it; an invalid one is
counted; an edge on the other input only keeps its times, and with SRC = 2 asks for a switch where the input in use has been
silent for two periods.
Where the rules leave a point open, the clauses follow the model's choices of log entries 11 and 79. -/
def Obligations.MainsEdges : Prop :=
  ∀ (s : State) (ac : Bool) (high time tick : Nat),
    let w := s.dev.wheel
    let d₀ : Dev := { s.dev with now := max s.dev.now time }
    let comp := time - w.delay.toNat * 10
    let e := phaseError tick
    let ok := w.edgeInterval ac comp && w.inWindow e
    let T := comp - ((w.inputOf ac).lastComp.getD 0)
    let known := (w.inputOf ac).lastComp.isSome = true
    (w.edgeTaken ac high time = false → Answers (.mainsEdge ac high time tick) s d₀) ∧
    (w.edgeTaken ac high time = true → ac ≠ w.selected →
      let w' := w.edgeNoted ac (w.edgeInterval ac comp) time comp
      Answers (.mainsEdge ac high time tick) s { d₀ with wheel := { w' with
        tick := tick
        switchPending := w.switchPending || (w.src == 2 && w.edgeInterval ac comp &&
          decide ((w.inputOf (!ac)).lastValid.getD 0 + 2 * w.period ≤ comp)) } }) ∧
    (w.edgeTaken ac high time = true → ac = w.selected → ok = false →
      let w' := w.edgeNoted ac false time comp
      Answers (.mainsEdge ac high time tick) s { d₀ with wheel := { w' with
        tick := tick, rejected := min (w.rejected + 1) 4095 } }) ∧
    (w.edgeTaken ac high time = true → ac = w.selected → ok = true →
      ∃ w' : Wheel, Answers (.mainsEdge ac high time tick) s (Dev.raiseWheelState { d₀ with wheel := { w' with tick := tick } } w.state) ∧
        w'.turn = w.turn ∧ w'.length = w.length ∧ w'.base = w.base ∧ w'.missedRow = 0 ∧ w'.rejected = w.rejected ∧
        (w'.inputOf ac).lastValid = some comp ∧
        (w.state = .free ∨ w.state = .coast → w'.state = .acquire ∧ w'.runEdges = 1 ∧ w'.period = w.period) ∧
        (w.state = .slew → w'.period = w.period ∧
          (-64 ≤ e ∧ e ≤ 64 → w'.state = .locked ∧ w'.r = 0) ∧ (¬(-64 ≤ e ∧ e ≤ 64) → w'.state = .slew ∧ w'.r = e)) ∧
        (w.state = .locked →
          (-1024 ≤ e ∧ e ≤ 1024 → w'.state = .locked) ∧ (¬(-1024 ≤ e ∧ e ≤ 1024) → w'.state = .slew ∧ w'.r = e) ∧
          (known → -8 < 8 * ((w'.period : Int) - w.period) - ((T : Int) - w.period) ∧
            8 * ((w'.period : Int) - w.period) - ((T : Int) - w.period) < 8)) ∧
        (w.state = .acquire → ¬known → w'.state = .acquire ∧ w'.runEdges = 1 ∧ w'.runPeriods = []) ∧
        (w.state = .acquire → w.runPeriods = [] → known → w'.state = .acquire ∧ w'.runEdges = 2 ∧ w'.runPeriods = [T]) ∧
        (w.state = .acquire → ∀ p ps, w.runPeriods = p :: ps → known →
          (5 * p < 1000 * (max p T - min p T) → w'.state = .acquire ∧ w'.runEdges = 2 ∧ w'.runPeriods = [T]) ∧
          (1000 * (max p T - min p T) ≤ 5 * p → w.runEdges ≠ 7 →
            w'.state = .acquire ∧ w'.runEdges = w.runEdges + 1 ∧ w'.runPeriods = T :: p :: ps) ∧
          (1000 * (max p T - min p T) ≤ 5 * p → w.runEdges = 7 →
            w'.state = (if -64 ≤ e ∧ e ≤ 64 then .locked else .slew) ∧ w'.r = (if -64 ≤ e ∧ e ≤ 64 then 0 else e))))

/-- WHEEL_MISSED_EDGE (from R31, R33, R35): in SLEW and LOCKED a missed edge is counted, the remaining error moves 1,024 wt nearer
zero, and the second in a row brings COAST on the held period; in the other states no edge is missed.
Where the rules leave a point open, the clauses follow the model's choices of log entries 13 and 79. -/
def Obligations.MissedEdges : Prop :=
  (∀ s : State, s.dev.wheel.state ≠ .slew → s.dev.wheel.state ≠ .locked → Answers .wheelMissedEdge s s.dev) ∧
  (∀ s : State, s.dev.wheel.state = .slew ∨ s.dev.wheel.state = .locked →
    ∃ d, Answers .wheelMissedEdge s d ∧
      d = { s.dev with wheel := d.wheel, host := d.host, tal := d.tal, sag := d.sag, onceTurn := d.onceTurn } ∧
      d.wheel.missed = min (s.dev.wheel.missed + 1) 4095 ∧ d.wheel.turn = s.dev.wheel.turn ∧ d.wheel.tick = s.dev.wheel.tick ∧
      d.wheel.rejected = s.dev.wheel.rejected ∧
      (s.dev.wheel.missedRow ≠ 1 → d.wheel.state = s.dev.wheel.state ∧ d.wheel.missedRow = s.dev.wheel.missedRow + 1 ∧
        d.wheel.period = s.dev.wheel.period ∧ d.wheel.r = slewTowardZero s.dev.wheel.r) ∧
      (s.dev.wheel.missedRow = 1 → d.wheel.state = .coast ∧ d.wheel.coastFlag = true ∧ d.wheel.period = d.wheel.held ∧
        (s.dev.wheel.everLocked = false → d.wheel.period = if s.dev.wheel.nominal60 then 1666700 else 2000000)))

/-- From R30, R36 to R39, R42: at tick 0 the turn number advances by one, the tick is 0, the ended turn keeps its flags, WHEEL_CFG takes
effect, a pending switch of the input takes place; a pending round length takes effect where the old length sets a boundary, and nowhere else. -/
def Obligations.TurnBoundaries : Prop :=
  ∀ (s : State) (time : Nat), ∃ d, Answers (.turnBoundary time) s d ∧
    let w := s.dev.wheel
    let w' := d.wheel
    w'.turn = w.turn + 1 ∧ w'.tick = 0 ∧ w'.state = w.state ∧ w'.coastEnded = w.coastFlag ∧ w'.slewEnded = w.slewFlag ∧
    w'.coastFlag = (w.state == .free || w.state == .acquire || w.state == .coast) ∧ w'.slewFlag = (w.state == .slew) ∧
    w'.delay = s.setup.wheelDelay ∧ w'.src = s.setup.wheelSrc ∧ w'.nominal60 = s.setup.wheelNominal ∧ w'.missedTurn = 0 ∧
    w'.missed = w.missed ∧ w'.rejected = w.rejected ∧ w'.lastPeriods = w.lastPeriods ∧
    (w.src = 2 → s.setup.wheelSrc = 2 → w.switchPending = true →
      w'.input = !w.input ∧ w'.switches = min (w.switches + 1) 255 ∧ w'.switchPending = false) ∧
    (((w.turn + 1 - w.base).toNat % max 1 w.length.toNat ≠ 0 ∨ w.lengthChange = false) → w'.length = w.length ∧ w'.base = w.base) ∧
    ((w.turn + 1 - w.base).toNat % max 1 w.length.toNat = 0 → w.lengthChange = true →
      w'.length = w.lengthPending ∧ w'.base = w.turn + 1 ∧ w'.lengthChange = false) ∧
    ((w.turn + 1 - w.base).toNat % max 1 w.length.toNat = 0 → w'.coastRound = false ∧ w'.slewRound = false)

/-! ### Descriptors and opcodes (spec 03) -/

/-- Each of the 31 opcode rows, wherever its descriptor comes from: it begins and its opcode acts on the device; a check of
R76 refuses it with that status, result 0 and no other effect; it does not begin, and is turned away; a ring above 127 does not
exist. The same command in a mailbox frame or a CoAP POST is the same row, but that a POST whose blocks are not of SZX 6 is
answered 4.13 (R405).
Where the rules leave a point open, the clauses follow the model's choices of log entries 2 and 10. -/
def Obligations.DescriptorsExecute : Prop :=
  ∀ r ∈ opcodeRows, ∀ (x : Desc) (s : State),
    (∀ d k, Runs r.1 x s d k → Answers (r.2.1 x) s (replied x k (r.2.2 d x))) ∧
    ((∀ n, x.src = .ring n → n < 128) →
      (∀ e k st, begins r.1 x s.dev = some (e, k) → descCheck e r.1 x = some st → Completes (r.2.1 x) s x k st 0 e) ∧
      (begins r.1 x s.dev = none → Answers (r.2.1 x) s (turnedAway r.1 0 x s.dev))) ∧
    (∀ n, x.src = .ring n → 128 ≤ n → exec (r.2.1 x) s = .fault .noSuchInstance) ∧
    (∀ peer, x.src = .mailbox peer → exec (.mboxCommand peer ⟨r.1, x⟩) s = exec (r.2.1 x) s) ∧
    (∀ k mid, x.src = .coap k mid false → exec (.coapPostCmd k mid 6 0 ⟨r.1, x⟩) s = exec (r.2.1 x) s ∧
      ∀ szx block, szx ≠ 6 →
        (∀ d, coapBegins k mid s.dev = some d → Answers (.coapPostCmd k mid szx block ⟨r.1, x⟩) s (d.coapReply k mid [0x8D])) ∧
        (coapBegins k mid s.dev = none → Answers (.coapPostCmd k mid szx block ⟨r.1, x⟩) s (coapTurnsAway k mid block s.dev)))

/-- From R57, R59, R67, R484: a NOP that begins completes with OK and changes nothing but where its completion goes. On a ring its
entry ends, no other ring changes, and on a command ring every descriptor before it has ended; in a mailbox its response
waits; a descriptor begins only where its ring is ACTIVE, its mailbox EMPTY, its session open and its Message ID new.
Where the rules leave a point open, the clauses follow the model's choice of log entry 2. -/
def Obligations.NopCompletes : Prop :=
  ∀ (x : Desc) (s : State) (d : Dev) (k : Nat), Runs 0x0701 x s d k →
    ∃ t, Answers (.nop x) s t ∧ t = { s.dev with host := t.host, tal := t.tal, twb := t.twb, net := t.net, strs := t.strs } ∧
      (∀ n, x.src = .ring n → t.twb = s.dev.twb ∧ t.net = s.dev.net ∧
        (s.dev.host.ring n).state = .active ∧ (∀ y ∈ (t.host.ring n).q.take k, y.isDone = true) ∧
        (∃ stamp, (t.host.ring n).q[k]? = some ⟨⟨0x0701, x⟩, .done (plainCpl .ok x.handle 0), stamp⟩) ∧
        (∀ m, m ≠ n → t.host.ring m = s.dev.host.ring m)) ∧
      (∀ peer, x.src = .mailbox peer → t.host = s.dev.host ∧ t.net = s.dev.net ∧ (s.dev.twb.box peer).st = .empty ∧
        (t.twb.box peer).st = .response ∧ (t.twb.box (!peer)).resp = (s.dev.twb.box (!peer)).resp ∧
        (t.twb.box peer).resp = mboxFrame 0x81 (completionBytes true s.dev.wheel.turn.toNat (plainCpl .ok x.handle 0))) ∧
      (∀ j mid img, x.src = .coap j mid img → t.host = s.dev.host ∧ t.twb = s.dev.twb ∧
        ∃ y, s.dev.coapSession j = some y ∧ y.isOpen = true ∧ y.storedFor mid = none)

/-- From R53, R58, R71 to R76, R79, R461, R548: the checks of word 0, of what a fenced Flue and the recovery service take, and of the
handle word, each with its status.
Where the rules leave a point open, the clauses follow the model's choice of log entry 44. -/
def Obligations.DescriptorChecks : Prop :=
  ∀ r ∈ opcodeRows, ∀ (x : Desc) (s : State) (e : Dev) (k : Nat), (∀ n, x.src = .ring n → n < 128) →
    begins r.1 x s.dev = some (e, k) →
    let t := hType x.handle
    let sl := e.slot t (hIndex x.handle)
    (16 ≤ x.flags.toNat → Completes (r.2.1 x) s x k .range 0 e) ∧
    (x.flags.toNat < 16 → e.classTakes x.src r.1 = false → Completes (r.2.1 x) s x k .state 0 e) ∧
    (x.flags.toNat < 16 → e.recoveryTakes r.1 = false → Completes (r.2.1 x) s x k .state 0 e) ∧
    (x.flags.toNat < 16 → e.classTakes x.src r.1 = true → e.recoveryTakes r.1 = true → e.flueTakes r.1 = false →
      Completes (r.2.1 x) s x k .fenced 0 e) ∧
    (wordCheck e r.1 x = none → r.1 ≠ 0x0101 →
      (deviceWide.contains r.1 = true → x.handle ≠ 0 → Completes (r.2.1 x) s x k .badHandle 0 e) ∧
      (deviceWide.contains r.1 = false → x.handle = 0 → r.1 ≠ 0x0401 → r.1 ≠ 0x0402 → Completes (r.2.1 x) s x k .badHandle 0 e) ∧
      (deviceWide.contains r.1 = false → x.handle ≠ 0 →
        (typeLimit t ≤ hIndex x.handle ∨ hGen x.handle = 0 → Completes (r.2.1 x) s x k .badHandle 0 e) ∧
        (hIndex x.handle < typeLimit t → hGen x.handle ≠ 0 → opTakesType r.1 t = true →
          (hGen x.handle ≠ sl.issues → Completes (r.2.1 x) s x k .stale 0 e) ∧
          (hGen x.handle = sl.issues → sl.isLive = false → Completes (r.2.1 x) s x k .badHandle 0 e) ∧
          (hGen x.handle = sl.issues → sl.isLive = true → sl.hstate = .fenced → r.1 ≠ 0x0401 → r.1 ≠ 0x0402 → r.1 ≠ 0x0102 →
            Completes (r.2.1 x) s x k .fenced 0 e))))

/-- The device-wide opcodes: SET_ROUND (from R38), SET_PROFILE (from R25, R26), RECOVER (from R515), EVENT_WAIT (from R69), STREAM_BUF (from R412, R415)
and DEBUG_UNLOCK (from R522).
Where the rules leave a point open, the clauses follow the model's choices of log entries 42 and 82. -/
def Obligations.DeviceOpcodes : Prop :=
  (∀ (x : Desc) (s : State) (d : Dev) (k : Nat), Runs 0x0305 x s d k →
    let v := parN x 0
    (v = 0 ∨ 65535 < v → Completes (.setRound x) s x k .range 0 d) ∧
    (1 ≤ v → v ≤ 65535 → Completes (.setRound x) s x k .ok
      (d.wheel.nextBoundary.toNat + (if d.wheel.lengthChange then 2 ^ 63 else 0))
      { d with wheel := { d.wheel with lengthPending := BitVec.ofNat 16 v, lengthChange := BitVec.ofNat 16 v != d.wheel.length } })) ∧
  (∀ (x : Desc) (s : State) (d : Dev) (k : Nat), Runs 0x0304 x s d k →
    (3 ≤ parN x 0 → Completes (.setProfile x) s x k .range 0 d) ∧
    (∀ p, Profile.ofCode (parN x 0) = some p →
      (replaceAll p.ceiling d.thr.placed = none → Completes (.setProfile x) s x k .budget 0 d) ∧
      (replaceAll p.ceiling d.thr.placed ≠ none → Completes (.setProfile x) s x k .ok
        (d.wheel.nextBoundary.toNat + (if d.plane.profileChanging then 2 ^ 63 else 0))
        { d with plane := { d.plane with profilePending := p, profileChanging := p != d.plane.profile } }))) ∧
  (∀ (x : Desc) (s : State) (d : Dev) (k : Nat), Runs 0x0307 x s d k →
    (d.plane.takeover = true → d.plane.hearthRestarted = true →
      ∃ e, Completes (.recover x) s x k .ok 0 e ∧ e.plane = { d.plane with takeover := false, hearthRestarted := false } ∧
        e = { purgeGhosts d with plane := e.plane }) ∧
    (d.plane.takeover = true → d.plane.hearthRestarted = false → Completes (.recover x) s x k .fenced 0 d) ∧
    (d.plane.takeover = false → d.sag.fenced.contains 9 = true → Completes (.recover x) s x k .fenced 0 d) ∧
    (d.plane.takeover = false → d.sag.fenced.contains 9 = false → Completes (.recover x) s x k .state 0 d)) ∧
  (∀ (x : Desc) (s : State) (d : Dev) (k n : Nat), Runs 0x0403 x s d k → x.src = .ring n →
    ∃ t, Answers (.eventWait x) s t ∧ t = { d with host := t.host } ∧ (∀ m, m ≠ n → t.host.ring m = d.host.ring m) ∧
      ((d.host.ring n).evq = [] → t.host.ring n = d.host.ring n) ∧
      (∀ ev es, (d.host.ring n).evq = ev :: es → (d.host.ring n).q.any Entry.waitsEvent = true →
        t.host.ring n = { d.host.ring n with evq := es, q := endFirst Entry.waitsEvent (eventCpl ev) (d.host.ring n).q })) ∧
  (∀ (x : Desc) (s : State) (d : Dev) (k : Nat), Runs 0x0502 x s d k →
    (parN x 2 < 4096 → Completes (.streamBuf x) s x k .range 0 d) ∧
    (4096 ≤ parN x 2 → d.sag.fenced.contains 10 = true → Completes (.streamBuf x) s x k .fenced 0 d) ∧
    (4096 ≤ parN x 2 → d.sag.fenced.contains 10 = false → Answers (.streamBuf x) s d)) ∧
  (∀ (x : Desc) (s : State) (d : Dev) (k : Nat), Runs 0x0705 x s d k →
    (sourceBytes x 0 (parN x 2) = none → Completes (.debugUnlock x) s x k .range 0 d) ∧
    (∀ b, sourceBytes x 0 (parN x 2) = some b →
      (tokenOk b = false → Completes (.debugUnlock x) s x k .auth 0 { d with pow := { d.pow with tokenFails := d.pow.tokenFails + 1 } }) ∧
      (tokenOk b = true → Completes (.debugUnlock x) s x k .ok 0
        (Dev.raise { d with pow := { d.pow with debug := true, scope := BitVec.ofNat 3 (byteField b 8 4) } } 0x1203 (byteField b 8 4) 0))))

/-- From R83, R550, R551: the query opcodes answer and change nothing. QUERY_READ of a SENSOR requests a conversion and waits; every
other completes at once: the state word as the result, or bytes to the destination buffer and their number. A mailbox or CoAP
command that asks for more than 4,096 bytes ends with RANGE.
Where the rules leave a point open, the clauses follow the model's choice of log entry 35. -/
def Obligations.QueriesAnswer : Prop :=
  (∀ (x : Desc) (s : State) (d : Dev) (k : Nat), Runs 0x0401 x s d k → d.sag.fenced.contains 9 = false →
    Completes (.queryState x) s x k .ok
      (if x.handle = 0 then deviceState d else stateWord d (hType x.handle) (hIndex x.handle)) d) ∧
  (∀ (x : Desc) (s : State) (d : Dev) (k : Nat), Runs 0x0401 x s d k → ∃ n, Completes (.queryState x) s x k .ok n d) ∧
  (∀ (x : Desc) (s : State) (d : Dev) (k : Nat), Runs 0x0402 x s d k →
    let sel := parN x 3
    let b := (blockOf d x.handle sel).take (parN x 2)
    let known := (selectorsOf (if x.handle = 0 then 0 else hType x.handle)).contains sel
    (known = false → Completes (.queryRead x) s x k .range 0 d) ∧
    (known = true → hType x.handle ≠ tSensor → destOk x (parN x 2) = false → Completes (.queryRead x) s x k .range 0 d) ∧
    (known = true → hType x.handle ≠ tSensor → destOk x (parN x 2) = true →
      Answers (.queryRead x) s (completed x k ⟨.ok, x.handle, BitVec.ofNat 64 b.length, b, paramAddr x.params 0⟩ d)) ∧
    (known = true → hType x.handle = tSensor → destOk x (parN x 2) = false → Completes (.queryRead x) s x k .range 0 d) ∧
    (known = true → hType x.handle = tSensor → d.sag.fenced.contains 9 = true → destOk x (parN x 2) = true →
      let b := (blockOf d x.handle 0).take (parN x 2)
      Answers (.queryRead x) s (completed x k ⟨.ok, x.handle, BitVec.ofNat 64 b.length, b, paramAddr x.params 0⟩ d)) ∧
    (known = true → hType x.handle = tSensor → d.sag.fenced.contains 9 = false → destOk x (parN x 2) = true →
      Answers (.queryRead x) s (requestTd (hIndex x.handle)
        (d.addWait x.src (.convert (paramAddr x.params 0) (parN x 2)) x.handle)))) ∧
  (∀ (x : Desc) (s : State) (d : Dev) (k : Nat), Runs 0x0404 x s d k → destOk x (parN x 2) = false →
    Completes (.queryResources x) s x k .range 0 d) ∧
  (∀ (x : Desc) (s : State) (d : Dev) (k : Nat), Runs 0x0404 x s d k → destOk x (parN x 2) = true →
    ∃ b : List Byte, Answers (.queryResources x) s (completed x k ⟨.ok, x.handle, BitVec.ofNat 64 b.length, b, paramAddr x.params 0⟩ d) ∧
      b = ((resourceWords d).flatMap (leBytes 4)).take (parN x 2) ∧ (resourceWords d).length = 8) ∧
  (∀ (x : Desc) (s : State) (d : Dev) (k : Nat), Runs 0x0405 x s d k →
    (typeLimit (parN x 0) = 0 ∨ destOk x (parN x 3) = false → Completes (.queryHandles x) s x k .range 0 d) ∧
    (typeLimit (parN x 0) ≠ 0 → destOk x (parN x 3) = true →
      Answers (.queryHandles x) s (completed x k ⟨.ok, x.handle, BitVec.ofNat 64 (d.liveHandles (parN x 0)).length,
        bytesOfWords ((d.liveHandles (parN x 0)).take (parN x 3 / 4)), paramAddr x.params 1⟩ d))) ∧
  (∀ (x : Desc) (s : State) (d : Dev) (k : Nat), Runs 0x0704 x s d k →
    (kilnRecord d (parN x 0) = none ∨ destOk x (parN x 3) = false → Completes (.kilnRead x) s x k .range 0 d) ∧
    (∀ b, kilnRecord d (parN x 0) = some b → destOk x (parN x 3) = true →
      Answers (.kilnRead x) s (completed x k ⟨.ok, x.handle, BitVec.ofNat 64 (b.take (parN x 3)).length, b.take (parN x 3),
        paramAddr x.params 1⟩ d))) ∧
  (∀ (x : Desc) (s : State) (d : Dev) (k : Nat), Runs 0x0602 x s d k → destOk x (parN x 2) = false →
    Completes (.imgStatus x) s x k .range 0 d) ∧
  (∀ (x : Desc) (s : State) (d : Dev) (k : Nat), Runs 0x0602 x s d k → destOk x (parN x 2) = true →
    Answers (.imgStatus x) s (completed x k ⟨.ok, x.handle, BitVec.ofNat 64 (byteField (imgStatus d) 1 1),
      (imgStatus d).take (parN x 2), paramAddr x.params 0⟩ d))

/-- R15, and from R14, R82 and R141: the banks. BANK_WRITE and BANK_COPY change the shadow bank of their handle alone, BANK_READ changes
nothing, BANK_SWAP makes a swap pending, which a LOOP that does not run takes at once; a type without banks answers STATE, a pending swap BUSY, a span outside the bank RANGE. -/
def Obligations.Banks : Prop :=
  (∀ (x : Desc) (s : State) (d : Dev) (k : Nat),
    let t := hType x.handle
    let i := hIndex x.handle
    let sl := d.slot t i
    (Runs 0x0201 x s d k →
      (sl.bankA = [] → Completes (.bankWrite x) s x k .state 0 d) ∧
      (sl.bankA ≠ [] → sl.swap = true → Completes (.bankWrite x) s x k .busy 0 d) ∧
      (sl.bankA ≠ [] → sl.swap = false → bankSpanOk sl t (parN x 3) (parN x 2) = false → Completes (.bankWrite x) s x k .range 0 d) ∧
      (sl.bankA ≠ [] → sl.swap = false → sourceBytes x 0 (parN x 2) = none → Completes (.bankWrite x) s x k .range 0 d) ∧
      (∀ b₀, sl.bankA ≠ [] → sl.swap = false → bankSpanOk sl t (parN x 3) (parN x 2) = true →
        sourceBytes x 0 (parN x 2) = some b₀ →
        let b := b₀ ++ zeros (parN x 2 - b₀.length)
        ∃ e, Completes (.bankWrite x) s x k .ok (parN x 2) e ∧ e = { d with slots := e.slots } ∧
          (e.slot t i).active = sl.active ∧ (e.slot t i).shadow = splice sl.shadow b (parN x 3) ∧
          e.slot t i = sl.setShadow (splice sl.shadow b (parN x 3)) ∧
          (∀ u j, slotKey u j ≠ slotKey t i → e.slot u j = d.slot u j))) ∧
    (Runs 0x0203 x s d k →
      (sl.bankA = [] → Completes (.bankRead x) s x k .state 0 d) ∧
      (sl.bankA ≠ [] → bankSpanOk sl t (parN x 3) (parN x 2) = false ∨ destOk x (parN x 2) = false →
        Completes (.bankRead x) s x k .range 0 d) ∧
      (sl.bankA ≠ [] → bankSpanOk sl t (parN x 3) (parN x 2) = true → destOk x (parN x 2) = true →
        ∃ b : List Byte, Answers (.bankRead x) s (completed x k ⟨.ok, x.handle, BitVec.ofNat 64 b.length, b, paramAddr x.params 0⟩ d) ∧
          (bitsN x.flags.toNat 3 1 = 0 → b = (sl.active.drop (parN x 3)).take (parN x 2)) ∧
          (bitsN x.flags.toNat 3 1 = 1 → b = (sl.shadow.drop (parN x 3)).take (parN x 2)))) ∧
    (Runs 0x0204 x s d k →
      (sl.bankA = [] → Completes (.bankCopy x) s x k .state 0 d) ∧
      (sl.bankA ≠ [] → sl.swap = true → Completes (.bankCopy x) s x k .busy 0 d) ∧
      (sl.bankA ≠ [] → sl.swap = false →
        ∃ e, Completes (.bankCopy x) s x k .ok 0 e ∧ e = { d with slots := e.slots } ∧
          (e.slot t i).active = sl.active ∧ (e.slot t i).shadow = sl.active ∧
          (∀ u j, slotKey u j ≠ slotKey t i → e.slot u j = d.slot u j))) ∧
    (Runs 0x0202 x s d k →
      (sl.bankA = [] → Completes (.bankSwap x) s x k .state 0 d) ∧
      (sl.bankA ≠ [] → sl.swap = true → Completes (.bankSwap x) s x k .busy 0 d) ∧
      (∀ st res, sl.bankA ≠ [] → sl.swap = false → swapCheck d t i = .fail st res →
        Completes (.bankSwap x) s x k st res.toNat d) ∧
      (sl.bankA ≠ [] → sl.swap = false → swapCheck d t i = .pass →
        t ≠ tLoop ∨ sl.hstate ≠ .disabled ∧ (d.loop i).latch = .running →
        ∃ e, Answers (.bankSwap x) s e ∧ e = { d with slots := e.slots, waits := d.waits ++ [⟨some x.src, .swap, x.handle⟩] } ∧
          e.slot t i = { sl with swap := true } ∧ (∀ u j, slotKey u j ≠ slotKey t i → e.slot u j = d.slot u j)) ∧
      (sl.bankA ≠ [] → sl.swap = false → t = tLoop → sl.hstate = .disabled ∨ (d.loop i).latch ≠ .running →
        Answers (.bankSwap x) s (swapLoop ((d.modSlot t i fun y => { y with swap := true }).addWait x.src .swap x.handle) i
          ((d.loop i).runs + 1)))))

/-! ### Handles: their life and their objects (spec 03) -/

/-- R74, and from R77, R78 and R549: CREATE. The type, the index, then the block are checked in that order; a refusal changes nothing,
and with no free index the command is refused whatever its block; success takes the lowest free index or the one that the command binds, and leaves a DISABLED object with its block, both banks
at its initial bank, and its handle as the result. -/
def Obligations.CreateHandles : Prop :=
  ∀ (x : Desc) (s : State) (d : Dev) (k : Nat), Runs 0x0101 x s d k →
    let t := hType x.handle
    (typeLimit t = 0 → Completes (.create x) s x k .badHandle 0 d) ∧
    (typeLimit t ≠ 0 → indexBound x t = true → typeLimit t ≤ hIndex x.handle → Completes (.create x) s x k .badHandle 0 d) ∧
    (typeLimit t ≠ 0 → indexBound x t = true → hIndex x.handle < typeLimit t → (d.slot t (hIndex x.handle)).isLive = true →
      Completes (.create x) s x k .state (d.handleOf t (hIndex x.handle)).toNat d) ∧
    (∀ i, d.freeIndex t = some i → i < typeLimit t ∧ (d.slot t i).isLive = false ∧ ∀ j, j < i → (d.slot t j).isLive = true) ∧
    (typeLimit t ≠ 0 → indexBound x t = false → d.freeIndex t = none →
      ∃ st res, st ≠ .ok ∧ Completes (.create x) s x k st res d) ∧
    (typeLimit t ≠ 0 → indexBound x t = false ∨ hIndex x.handle < typeLimit t ∧ (d.slot t (hIndex x.handle)).isLive = false →
      sourceBytes x 0 (parN x 2) = none →
      Completes (.create x) s x k (if schemaOk t (parN x 3) then .range else .version) 0 d) ∧
    (∀ i bytes ws, typeLimit t ≠ 0 → sourceBytes x 0 (parN x 2) = some bytes → blockWordsOf t bytes = some ws →
      (indexBound x t = true ∧ i = hIndex x.handle ∧ i < typeLimit t ∧ (d.slot t i).isLive = false) ∨
        (indexBound x t = false ∧ d.freeIndex t = some i) →
      let base := if (d.slot t i).ghost then dropSlot d t i else d
      (∀ st res e, admitBlock base t i (parN x 3) bytes.length ws = (.fail st res, e) → Completes (.create x) s x k st res.toNat d) ∧
      (schemaOk t (parN x 3) = false → Completes (.create x) s x k .version 0 d) ∧
      (∀ e, admitBlock base t i (parN x 3) bytes.length ws = (.pass, e) →
        let e' := ledNote (objLoad (clearHandlePoison t i e) t i ws)
        Answers (.create x) s (completed x k (plainCpl .ok (e'.handleOf t i) (e'.handleOf t i).toNat) e') ∧
        (e.slot t i).live = true ∧ (e.slot t i).hstate = .disabled ∧ (e.slot t i).schema = parN x 3 ∧ (e.slot t i).cfg = ws ∧
        (e.slot t i).bankA = initialBank t ws ∧ (e.slot t i).bankB = initialBank t ws ∧ (e.slot t i).activeB = false ∧
        (e.slot t i).swap = false))

/-- CONFIGURE (from R546): of a DISABLED handle without a pending swap; a refused block changes nothing, an admitted one replaces
the old, DISABLED with its initial bank. DESTROY (from R80): BUSY with the handle that holds it, STATE while ENABLED without FORCE;
a handle that runs nothing is released, and its generation advances (from R75).
Where the rules leave a point open, the clauses follow the model's choices of log entries 37, 38 and 39. -/
def Obligations.ConfigureAndDestroy : Prop :=
  (∀ (x : Desc) (s : State) (d : Dev) (k : Nat), Runs 0x0103 x s d k →
    let t := hType x.handle
    let i := hIndex x.handle
    ((d.slot t i).hstate ≠ .disabled → Completes (.configure x) s x k .state 0 d) ∧
    ((d.slot t i).hstate = .disabled → (d.slot t i).swap = true → Completes (.configure x) s x k .busy 0 d) ∧
    ((d.slot t i).hstate = .disabled → (d.slot t i).swap = false →
      (∃ st res, Completes (.configure x) s x k st res d) ∨
      (∃ e ws b, sourceBytes x 0 (parN x 2) = some b ∧ blockWordsOf t b = some ws ∧
        Completes (.configure x) s x k .ok 0 (ledNote (objReload d e t i ws)) ∧
        (e.slot t i).live = true ∧ (e.slot t i).hstate = .disabled ∧ (e.slot t i).schema = parN x 3 ∧ (e.slot t i).cfg = ws ∧
        (e.slot t i).bankA = initialBank t ws ∧ (e.slot t i).bankB = initialBank t ws ∧ (e.slot t i).swap = false))) ∧
  (∀ (x : Desc) (s : State) (d : Dev) (k : Nat), Runs 0x0102 x s d k →
    let t := hType x.handle
    let i := hIndex x.handle
    (∀ h, d.holderOf x.handle = some h → Completes (.destroy x) s x k .busy h.toNat d) ∧
    (d.holderOf x.handle = none → (d.slot t i).hstate ≠ .enabled → Completes (.destroy x) s x k .ok 0 (releaseHandle d t i)) ∧
    (d.holderOf x.handle = none → (d.slot t i).hstate = .enabled → bitsN x.flags.toNat 1 1 = 0 → Completes (.destroy x) s x k .state 0 d) ∧
    (d.holderOf x.handle = none → (d.slot t i).hstate = .enabled → bitsN x.flags.toNat 1 1 = 1 →
      Answers (.destroy x) s (replied x k (answered x (ledNote (forceDestroy d x t i).1, (forceDestroy d x t i).2)))) ∧
    (finishDestroy d t i).slot t i = { gen := nextGen (d.slot t i).gen } ∧ nextGen 16383 = 1)

/-- ENABLE, DISABLE, STREAM_START and STREAM_STOP (from R82, R547): of a handle in the right state that no SEQUENCE or RAIL owns. A
LOOP, a MONITOR, a HISTOGRAM, an EXTREME and a STREAM on a ring are ENABLED at once; a RAIL, a FEED and a BRANCH wait for their
start or their stop; a NETIF waits for its address.
Where the rules leave a point open, the clauses follow the model's choices of log entries 36 and 39. -/
def Obligations.EnableAndDisable : Prop :=
  (∀ (x : Desc) (s : State) (d : Dev) (k : Nat), Runs 0x0301 x s d k →
    let t := hType x.handle
    let i := hIndex x.handle
    (t = tSeq → Answers (.enable x) s (replied x k (answered x (seqEnable x.src d i)))) ∧
    (t ≠ tSeq → (d.slot t i).hstate ≠ .disabled ∨ d.ownedElsewhere t i = true → Completes (.enable x) s x k .state 0 d) ∧
    (t ≠ tSeq → (d.slot t i).hstate = .disabled → d.ownedElsewhere t i = false →
      Answers (.enable x) s (replied x k (answered x (ledNote (enableObj d x t i).1, (enableObj d x t i).2))) ∧
      (t = tLoop → bits (par x 0) 1 31 ≠ 0 → ∃ e, Completes (.enable x) s x k .range 0 e ∧ e = { d with led := e.led }) ∧
      (t = tLoop → bits (par x 0) 1 31 = 0 → ∃ e, Completes (.enable x) s x k .ok 0 e ∧
        e = { d with slots := e.slots, thr := e.thr, led := e.led } ∧ e.slot t i = { d.slot t i with hstate := .enabled } ∧
        (e.loop i).ready = none ∧ (∀ a ∈ (e.loop i).awaiting, a.dead = true) ∧
        (e.loop i).s = if bit (par x 0) 0 then (d.loop i).s else lcState (d.slot t i).cfg) ∧
      (t = tHist ∨ t = tExtr → ∃ e, Completes (.enable x) s x k .ok 0 e ∧
        e = { d with slots := e.slots, wit := e.wit, led := e.led } ∧ e.slot t i = { d.slot t i with hstate := .enabled }))) ∧
  (∀ (x : Desc) (s : State) (d : Dev) (k : Nat), Runs 0x0302 x s d k →
    let t := hType x.handle
    let i := hIndex x.handle
    (t = tSeq → Answers (.disable x) s (replied x k (answered x (seqDisable x.src d i)))) ∧
    (t ≠ tSeq → (d.slot t i).hstate ≠ .enabled ∨ d.ownedElsewhere t i = true → Completes (.disable x) s x k .state 0 d) ∧
    (t ≠ tSeq → (d.slot t i).hstate = .enabled → d.ownedElsewhere t i = false →
      Answers (.disable x) s (replied x k (answered x (ledNote (disableObj d x t i).1, (disableObj d x t i).2))) ∧
      (t = tHist ∨ t = tExtr → ∃ e, Completes (.disable x) s x k .ok 0 e ∧
        e = { d with slots := e.slots, wit := e.wit, led := e.led } ∧ e.slot t i = { d.slot t i with hstate := .disabled }))) ∧
  (∀ (x : Desc) (s : State) (d : Dev) (k : Nat), Runs 0x0501 x s d k →
    let i := hIndex x.handle
    ((d.slot tStream i).hstate ≠ .disabled → Completes (.streamStart x) s x k .state 0 d) ∧
    ((d.slot tStream i).hstate = .disabled → nkKind (d.strmCfg i) ≠ 2 → ∃ e, Completes (.streamStart x) s x k .ok 0 e ∧
      e = { d with slots := e.slots, net := e.net } ∧ e.slot tStream i = { d.slot tStream i with hstate := .enabled }) ∧
    ((d.slot tStream i).hstate = .disabled → nkKind (d.strmCfg i) = 2 → ∃ e, Answers (.streamStart x) s e ∧
      e = { d with slots := e.slots, net := e.net, waits := d.waits ++ [⟨some x.src, .enable, d.handleOf tStream i⟩] } ∧
      e.slot tStream i = { d.slot tStream i with hstate := .enabled })) ∧
  (∀ (x : Desc) (s : State) (d : Dev) (k : Nat), Runs 0x0503 x s d k →
    let i := hIndex x.handle
    ((d.slot tStream i).hstate ≠ .enabled → Completes (.streamStop x) s x k .state 0 d) ∧
    ((d.slot tStream i).hstate = .enabled → nkKind (d.strmCfg i) = 2 → d.netifUsed i = true →
      Completes (.streamStop x) s x k .state 0 d) ∧
    ((d.slot tStream i).hstate = .enabled → nkKind (d.strmCfg i) ≠ 2 ∨ d.netifUsed i = false →
      Completes (.streamStop x) s x k .ok 0 (strmStop d i)))

/-- SET_POINT, CLEAR and FENCE (from R82, R134, R165, R187, R384, R478). A RAIL that is ON ramps at REF_SLEW to its new set point.
Where the rules leave a point open, the clauses follow the model's choices of log entries 36 and 52. -/
def Obligations.SetPointClearFence : Prop :=
  (∀ (x : Desc) (s : State) (d : Dev) (k : Nat), Runs 0x0303 x s d k →
    let t := hType x.handle
    let i := hIndex x.handle
    let c := bits (par x 0) 0 9
    let v := sx 16 (bits (par x 1) 0 16)
    (t = tLoop → lcKcount (d.slot t i).cfg ≤ c → Completes (.setPoint x) s x k .range 0 d) ∧
    (t = tLoop → c < lcKcount (d.slot t i).cfg → (d.slot t i).swap = true → Completes (.setPoint x) s x k .busy 0 d) ∧
    (t = tLoop → c < lcKcount (d.slot t i).cfg → (d.slot t i).swap = false →
      ((d.slot t i).hstate = .disabled ∨ (d.loop i).latch ≠ .running →
        ∃ e, Completes (.setPoint x) s x k .ok (twos 16 v) e ∧ e = { d with slots := e.slots } ∧
          (e.slot t i).bankA = setCoef (d.slot t i).bankA c v ∧ (e.slot t i).bankB = setCoef (d.slot t i).bankB c v) ∧
      ((d.slot t i).hstate ≠ .disabled → (d.loop i).latch = .running →
        ∃ e, Answers (.setPoint x) s e ∧
          e = { d with thr := e.thr, waits := d.waits ++ [⟨some x.src, .setPoint v, x.handle⟩] } ∧
          (e.loop i).setPoints = (d.loop i).setPoints ++ [(c, v)])) ∧
    (t = tRail →
      let mv := bits (par x 0) 0 16
      let vfs := bits (d.railW i 7) 16 16
      (100 * mv < 5 * vfs ∨ 95 * vfs < 100 * mv → Completes (.setPoint x) s x k .range 0 d) ∧
      (5 * vfs ≤ 100 * mv → 100 * mv ≤ 95 * vfs → ((abortSetPoint d x.handle).rail i).run ≠ .on →
        Completes (.setPoint x) s x k .ok mv ((abortSetPoint d x.handle).modRail i fun r => { r with vset := mv })) ∧
      (5 * vfs ≤ 100 * mv → 100 * mv ≤ 95 * vfs → ((abortSetPoint d x.handle).rail i).run = .on →
        let d' := abortSetPoint d x.handle
        let e := d'.modRail i fun r => { r with
          vset := mv, target := refOf mv vfs, step := d'.rampStep i (bits (d'.railW i 30) 0 16) 10, ramping := true }
        ((d'.rail i).ref ≠ refOf mv vfs → Answers (.setPoint x) s (e.addWait x.src (.setPoint mv) x.handle)) ∧
        ((d'.rail i).ref = refOf mv vfs → Completes (.setPoint x) s x k .ok mv (e.modRail i fun r => { r with ramping := false })))) ∧
    (t = tSource → Answers (.setPoint x) s (replied x k (answered x (srcSetPoint x.src d i (bits (par x 0) 0 4))))) ∧
    (t = tString → Answers (.setPoint x) s (replied x k (answered x (battSetPoint d i (parN x 0) (parN x 1) (parN x 2))))) ∧
    (t ≠ tLoop → t ≠ tRail → t ≠ tSource → t ≠ tString → Completes (.setPoint x) s x k .state 0 d)) ∧
  (∀ (x : Desc) (s : State) (d : Dev) (k : Nat), Runs 0x0306 x s d k →
    let t := hType x.handle
    let i := hIndex x.handle
    let v := par x 0
    (t = tLoop → ∃ e, Completes (.clear x) s x k .ok 0 e ∧ e = { d with thr := e.thr } ∧
      (bit v 0 = true → (e.loop i).latch = .running ∧ ((d.loop i).latch ≠ .running → (e.loop i).ferr = 0 ∧ (e.loop i).missed = 0)) ∧
      (bit v 1 = true → (e.loop i).runs = 0 ∧ (e.loop i).skipped = 0 ∧ (e.loop i).overrun = 0 ∧ (e.loop i).accSat = 0 ∧
        (e.loop i).dSat = 0 ∧ (e.loop i).trips = 0 ∧ (e.loop i).maxWait = 0) ∧
      (e.loop i).s = (d.loop i).s ∧ (e.loop i).outs = (d.loop i).outs) ∧
    (t = tRail → bit v 1 = false → Completes (.clear x) s x k .ok 0 d) ∧
    (t = tRail → bit v 1 = true → (d.slot t i).hstate ≠ .disabled → Completes (.clear x) s x k .state 0 d) ∧
    (t = tRail → bit v 1 = true → (d.slot t i).hstate = .disabled → ∃ e, Completes (.clear x) s x k .ok 0 e ∧ e = { d with pwm := e.pwm }) ∧
    (t = tFeed → Completes (.clear x) s x k .ok 0 (feedClear d i v)) ∧
    (t = tBranch → Completes (.clear x) s x k .ok 0 (branchClear d i v)) ∧
    (t = tSource → bit v 2 = false → Completes (.clear x) s x k .ok 0 (srcClear d i v)) ∧
    (t = tSource → bit v 2 = true → Completes (.clear x) s x k .ok 0 (clearFaults i (srcClear d i v))) ∧
    (t = tSeq → Completes (.clear x) s x k .ok 0 (seqClear d i v)) ∧
    (t = tMon → bit v 0 = true → Completes (.clear x) s x k .ok 0 (d.modMon i fun r => { r with uv := false, ov := false, cUv := 0, cOv := 0 })) ∧
    (t = tMon → bit v 0 = false → Completes (.clear x) s x k .ok 0 d) ∧
    (t = tSensor ∨ t = tStream → Completes (.clear x) s x k .ok 0 d) ∧
    (t = tString → Answers (.clear x) s (replied x k (answered x (battClear d i v)))) ∧
    (t = tHist ∨ t = tExtr → ∃ e, Completes (.clear x) s x k .ok 0 e ∧ e = { d with wit := e.wit } ∧
      (bit v 0 = true → (e.witRt (slotKey t i)).run = { first := d.wheel.turn, cleared := true }))) ∧
  (∀ (x : Desc) (s : State) (d : Dev) (k : Nat), Runs 0x0702 x s d k →
    Completes (.fence x) s x k .ok 0 (ledNote (fenceHandle (hType x.handle) (hIndex x.handle) 5 d)))

/-! ### Firmware: sherds, starts, confirmation (spec 17) -/

/-- IMG_SHERD and COAP_PUT_IMG (from R405, R446, R447): sherd numbers above 4,095 are RANGE, no slot to write is STATE, a payload
sherd of verified greenware that fails its hash is AUTH and is counted, one that is held already is OK, and one that passes is
written to flash; a PUT whose blocks are not of SZX 6 is answered 4.13. SHERD_WRITE_DONE (from R448): read back equal, the sherd is
held; one that is not, or whose slot is no longer the greenware's, is not; SLOT_ERASE_DONE (from R444): a REJECTED or released slot is FREE.
Where the rules leave a point open, the clauses follow the model's choices of log entries 24 and 65. -/
def Obligations.Sherds : Prop :=
  (∀ (x : Desc) (s : State) (d : Dev) (k : Nat), Runs 0x0601 x s d k →
    (∀ b, sourceBytes x 1 1024 = some b → Answers (.imgSherd x) s (replied x k (answered x
      (imgSherd x.src (bits (par x 0) 0 12) (bit (par x 0) 31) (b ++ zeros (1024 - b.length)) d)))) ∧
    (sourceBytes x 1 1024 = none → Answers (.imgSherd x) s (replied x k (answered x (imgSherd x.src 4096 false [] d))))) ∧
  (∀ (s : State) (j mid n : Nat) (restart : Bool) (b : List Byte) (d : Dev),
    let x : Desc := ⟨.coap j mid true, 0, 0, [], []⟩
    coapBegins j mid s.dev = some d →
      (descCheck d 0x0601 x = none → Answers (.coapPutImg j mid 6 n restart b) s
        (replied x 0 (answered x (imgSherd x.src n restart ((b ++ zeros 1024).take 1024) d)))) ∧
      ∀ szx, szx ≠ 6 → Answers (.coapPutImg j mid szx n restart b) s (d.coapReply j mid [0x8D])) ∧
  (∀ (s : State) (j mid szx n : Nat) (restart : Bool) (b resp : List Byte) (y : Session), s.dev.coapSession j = some y →
    y.storedFor mid = some resp →
      Answers (.coapPutImg j mid szx n restart b) s (coapResend y.port resp 0 (coapHeard y.port s.dev))) ∧
  (∀ (d : Dev) (src : Src) (n : Nat) (restart : Bool) (b : List Byte), d.sherdSlot = none → n < 4096 →
    (imgSherd src n restart b d).2 = .done .state 4096 ∧ (imgSherd src n restart b d).1.img = d.img) ∧
  (∀ (d : Dev) (src : Src) (n slot : Nat) (restart : Bool) (b : List Byte), d.sherdSlot = some slot →
    let g := d.imgSlot slot
    (4096 ≤ n → (imgSherd src n restart b d).2 = .done .range (if (d.roleSlot .greenware).isSome then g.missing else 4096)) ∧
    (n ≠ 0 → n < 4096 → g.role = .greenware → d.roleSlot .greenware = some slot → g.hasHead = true → g.verified = true →
      g.msherds ≤ n → n < g.total → d.taking = false → d.roleSlot .trial = none →
      (sherdHashOk (manifestBytes g []) n b = false →
        (imgSherd src n restart b d).2 = .done .auth g.missing ∧
        (imgSherd src n restart b d).1.img = { d.img with authFails := min (d.img.authFails + 1) 65535 }) ∧
      (sherdHashOk (manifestBytes g []) n b = true → (g.sherd n).isSome = true → imgSherd src n restart b d = (d, .done .ok g.missing)) ∧
      (sherdHashOk (manifestBytes g []) n b = true → (g.sherd n).isSome = false →
        (imgSherd src n restart b d).2 = .waits ∧
        (imgSherd src n restart b d).1.img.writes = d.img.writes ++ [⟨some src, slot, n, b⟩] ∧
        (imgSherd src n restart b d).1 = { d with
          img := (imgSherd src n restart b d).1.img, waits := d.waits ++ [⟨some src, .sherd, 0⟩] }))) ∧
  (∀ s : State, s.dev.img.writes = [] → ∀ ok, Answers (.sherdWriteDone ok) s s.dev) ∧
  (∀ (s : State) (w : SherdWrite) (rest : List SherdWrite) (ok : Bool), s.dev.img.writes = w :: rest →
    s.dev.sherdSlot ≠ some w.slot ∨ ok = false →
    ∃ d, Answers (.sherdWriteDone ok) s d ∧ d.img = { s.dev.img with writes := rest } ∧ d.slots = s.dev.slots) ∧
  (∀ (s : State) (w : SherdWrite) (rest : List SherdWrite), s.dev.img.writes = w :: rest →
    s.dev.roleSlot .greenware = some w.slot → w.num ≠ 0 → ((s.dev.imgSlot w.slot).sherd w.num).isNone = true →
    (manifestWith (s.dev.imgSlot w.slot) w.num w.bytes).bind manifestRefusal = none →
    ∃ d, Answers (.sherdWriteDone true) s d ∧ d.img.writes = rest ∧
      (d.imgSlot w.slot).sherds = (s.dev.imgSlot w.slot).sherds ++ [(w.num, w.bytes)] ∧
      (d.imgSlot w.slot).role = .greenware ∧ (∀ j, j ≠ w.slot → d.imgSlot j = s.dev.imgSlot j) ∧ d.slots = s.dev.slots) ∧
  (∀ (s : State) (n : Nat), n < 3 → (s.dev.imgSlot n).role = .rejected ∨ (s.dev.imgSlot n).role = .free ∧ (s.dev.imgSlot n).erased = false →
    ∃ d, Answers (.slotEraseDone n) s d ∧ d = { s.dev with img := d.img, tal := d.tal } ∧ d.imgSlot n = {} ∧
      ∀ j, j ≠ n → d.imgSlot j = s.dev.imgSlot j)

/-- IMG_ACTIVATE, IMG_ROLLBACK and WARM_START (from R451, R459, Table 17.3): no candidate, or a start in progress, is STATE; a
candidate that passes R450 begins a start, and the command waits for it.
Where the rules leave a point open, the clauses follow the model's choices of log entries 65 and 95. -/
def Obligations.StartsAsked : Prop :=
  (∀ (x : Desc) (s : State) (d : Dev) (k : Nat), Runs 0x0603 x s d k →
    (d.greenReady = none ∨ d.img.start ≠ none → ∃ e, Completes (.imgActivate x) s x k .state 0 e ∧ e.img = d.img) ∧
    (∀ g, d.greenReady = some g → d.img.start = none → imageCheck d g true = none →
      (wouldHandOver d g = true → Answers (.imgActivate x) s { d with
        img := { d.img with start := some { slot := g, last := 1, cold := false, green := true } }
        waits := d.waits ++ [⟨some x.src, .activate, 0⟩] }) ∧
      (wouldHandOver d g = false → bit (par x 0) 0 = true → Answers (.imgActivate x) s { d with
        img := { d.img with start := some { slot := g, last := 2, cold := true, green := true } }
        waits := d.waits ++ [⟨some x.src, .activate, 0⟩] }) ∧
      (wouldHandOver d g = false → bit (par x 0) 0 = false → ∃ e, Completes (.imgActivate x) s x k .version 0 e ∧ e.img = d.img))) ∧
  (∀ (x : Desc) (s : State) (d : Dev) (k : Nat), Runs 0x0604 x s d k →
    (d.rollbackTarget = none ∨ d.img.start ≠ none → ∃ e, Completes (.imgRollback x) s x k .state 0 e ∧ e.img = d.img) ∧
    (∀ g, d.rollbackTarget = some g → d.img.start = none → imageCheck d g false = none →
      Answers (.imgRollback x) s { d with
        img := { d.img with start := some {
          slot := g, last := if wouldHandOver d g then 4 else 5, cold := !wouldHandOver d g, green := false, fbAt := true
          fbSwitch := needsSwitch d g } }
        waits := d.waits ++ [⟨some x.src, .rollback, 0⟩] })) ∧
  (∀ (x : Desc) (s : State) (d : Dev) (k : Nat), Runs 0x0703 x s d k →
    (d.img.start ≠ none → Completes (.warmStart x) s x k .state 0 d) ∧
    (∀ g, d.img.start = none → d.greenReady = some g → imageCheck d g true = none → wouldHandOver d g = true →
      Answers (.warmStart x) s { d with
        img := { d.img with start := some { slot := g, last := 1, cold := false, green := true } }
        waits := d.waits ++ [⟨some x.src, .warmStart, 0⟩] }) ∧
    (d.img.start = none → d.greenReady = none →
      (∀ st, imageCheck d d.img.run false = some st → Completes (.warmStart x) s x k st 0 d) ∧
      (imageCheck d d.img.run false = none → Answers (.warmStart x) s { d with
        img := { d.img with start := some { slot := d.img.run, last := 7, cold := false, green := false } }
        waits := d.waits ++ [⟨some x.src, .warmStart, 0⟩] })))

/-- From R452 to R456, R389: the steps of a start. The copy sets T and writes the container's Firebox image to the other bank; from
tick 49,152 before T command descriptors wait; at T the plane halts and the turn is a handover turn; the new image runs; READY
ends the start. A step that is not due does nothing.
Where the rules leave a point open, the clauses follow the model's choices of log entries 65 and 95. -/
def Obligations.Handover : Prop :=
  (∀ s : State, s.dev.img.start = none →
    (∀ t, Answers (.handoverCopyDone t) s s.dev) ∧ Answers .handoverHoldCommands s s.dev ∧ Answers .handoverBoundary s s.dev ∧
    (∀ ok, Answers (.newImageStart ok) s s.dev) ∧
    ((∀ peer, (s.dev.twb.box peer).held = none) → Answers .mgmtReady s s.dev)) ∧
  (∀ (s : State) (st : StartRt) (tick : Nat), s.dev.img.start = some st → st.phase = .copying →
    ∃ d, Answers (.handoverCopyDone tick) s d ∧ d = { s.dev with img := d.img, sram := d.sram } ∧ d.img.run = s.dev.img.run ∧
      (tick ≤ 49152 → d.img.start = some { st with phase := .copied, turn := s.dev.wheel.turn + 1 }) ∧
      (49152 < tick → d.img.start = some { st with phase := .copied, turn := s.dev.wheel.turn + 2 }) ∧
      (st.green = true → d.fbVersion s.dev.fbOther = (s.dev.imgSlot st.slot).field 24 4) ∧
      (st.green = false → d.img.banks = s.dev.img.banks)) ∧
  (∀ (s : State) (st : StartRt), s.dev.img.start = some st → st.phase = .copied →
    ∃ d, Answers .handoverHoldCommands s d ∧ d = { s.dev with img := { s.dev.img with start := some { st with phase := .holding } } } ∧
      d.holdsCommands = true ∧ d.serves = false) ∧
  (∀ (s : State) (st : StartRt), s.dev.img.start = some st → st.phase = .holding → st.turn = s.dev.wheel.turn →
    ∃ d, Answers .handoverBoundary s d ∧ d.img.start = some { st with phase := .handedOver } ∧ d.plane.mgmtRunning = false ∧
      d.led = { s.dev.led with handover := true } ∧ d.slots = s.dev.slots ∧ d.waits = s.dev.waits ∧ d.wheel = s.dev.wheel) ∧
  (∀ (s : State) (st : StartRt) (ok : Bool), s.dev.img.start = some st → st.phase = .handedOver →
    ∃ e : Dev, e.img.run = st.slot ∧ e.img.last = st.last ∧ e.img.lastTurn = s.dev.wheel.turn ∧ e.img.safeHold = false ∧
      e.img.start = some { st with phase := .started, cold := st.cold || !ok } ∧ e.wheel = s.dev.wheel ∧
      (st.green = true → (e.imgSlot st.slot).role = .trial ∧ e.img.trialStarts = 1 ∧ e.img.confirm = 0) ∧
      (st.cold = true ∨ ok = false → e.net.sessions = []) ∧
      (st.cold = false → ok = true → e.net.sessions = s.dev.net.sessions.map (fun p => (p.1, { p.2 with isOpen := false })) ∧
        Answers (.newImageStart ok) s (e.raise 0x0E03 st.last 0)) ∧
      (st.cold = true ∨ ok = false → ∃ all, Answers (.newImageStart ok) s ((coldStart all e).raise 0x0E03 st.last 0))) ∧
  (∀ (s : State) (st : StartRt), s.dev.img.start = some st → st.phase = .started → (∀ peer, (s.dev.twb.box peer).held = none) →
    ∃ d, Answers .mgmtReady s d ∧ d.plane.mgmtRunning = true ∧ d.img.start = none ∧ d.pow.phase = .up ∧ d.img.run = s.dev.img.run ∧
      (∀ w ∈ d.waits, w.kind.isStart = false) ∧ (s.dev.host.link = .down → d.acq.calBusy = true))

/-- From R454, R457 to R461: the Firebox image switches at its boundary and reverts by itself, a trial is confirmed after 250
heartbeats, a failed boot rejects the trial and starts the active image cold, and with no image that passes the plane holds.
Where the rules leave a point open, the clauses follow the model's choices of log entries 65 and 95. -/
def Obligations.ImageFates : Prop :=
  (∀ (s : State) (b : Nat), s.dev.img.fbDue = some (b, s.dev.wheel.turn) →
    Answers .fireboxImageSwitch s (Dev.raise
      { s.dev with img := { s.dev.img with fbRun := b, fbDue := none, fbConfirm := some 0 } } 0x0E04 b 0)) ∧
  (∀ s : State, (∀ b t, s.dev.img.fbDue = some (b, t) → t ≠ s.dev.wheel.turn) → Answers .fireboxImageSwitch s s.dev) ∧
  (∀ s : State, s.dev.img.fbConfirm = none → Answers .fireboxSelfRevert s s.dev) ∧
  (∀ (s : State) (n : Nat), s.dev.img.fbConfirm = some n →
    ∃ d : Dev, Answers .fireboxSelfRevert s (d.raise 0x0E06 2 0) ∧ d = { s.dev with img := d.img } ∧ d.img.fbRun = 1 - s.dev.img.fbRun ∧
      d.img.fbConfirm = none ∧ (d.fbBank s.dev.img.fbRun).good = false) ∧
  (∀ (s : State) (n : Nat), s.dev.img.fbConfirm = some n → 250 ≤ n →
    Answers (.imageConfirmed true) s (Dev.raise { s.dev with img := { s.dev.img with fbConfirm := none } } 0x0E05 1 0)) ∧
  (∀ s : State, s.dev.inTrial = true → 250 ≤ s.dev.img.confirm →
    ∃ d, Answers (.imageConfirmed false) s d ∧ (d.imgSlot d.img.run).role = .active ∧ d.img.run = s.dev.img.run ∧
      d.img.confirm = 0 ∧ d.img.trialStarts = 0 ∧ d.slots = s.dev.slots ∧
      (∀ p a, s.dev.roleSlot .previous = some p → s.dev.roleSlot .active = some a →
        (d.imgSlot p).role = .free ∧ (d.imgSlot a).role = .previous)) ∧
  (∀ s : State, s.dev.inTrial = false ∨ s.dev.img.confirm < 250 → Answers (.imageConfirmed false) s s.dev) ∧
  (∀ s : State, (∀ n, s.dev.img.fbConfirm = some n → n < 250) → Answers (.imageConfirmed true) s s.dev) ∧
  (∀ s : State, bootFails s.dev = true →
    ∃ d, Answers .failedBoot s d ∧ (d.imgSlot s.dev.img.run).role = .rejected ∧ d.wheel = s.dev.wheel ∧ d.plane.mgmtRunning = false) ∧
  (∀ s : State, bootFails s.dev = false → Answers .failedBoot s s.dev) ∧
  (∀ s : State, s.dev.plane.mgmtRunning = false → s.dev.img.start = none → s.dev.img.noCandidate = true → s.dev.img.safeHold = false →
    s.dev.pow.phase = .image ∨ s.dev.pow.phase = .up → (∀ peer, (s.dev.twb.box peer).held = none) →
    Answers .safeHold s (Dev.raise { s.dev with img := { s.dev.img with safeHold := true, last := 6 } } 0x0E07 0 0))

/-! ### Acquisition (spec 04) -/

/-- From R91, R93, R96, R97: SAMPLE_TRIGGER counts its generator's start modulo 64 and starts every converter with an input to
convert: at once, or after the work in progress, or dropped where one of the generator waits already; then the runs that need
nothing more are ready, unless the Firebox runs the takeover. FS_CONVERSION_DONE ends the injected sequence's conversion first, else
the next input of the start, and delivers its word; URGENT_TRIGGER keeps one pending start per channel; INJECTED_START runs the
sequence for the lowest pending channel.
Where the rules leave a point open, the clauses follow the model's choice of log entry 46. -/
def Obligations.FastConverters : Prop :=
  (∀ (s : State) (g : Nat), g < 32 → s.dev.genDefined g = false → Answers (.sampleTrigger g) s s.dev) ∧
  (∀ (s : State) (g : Nat), g < 32 → s.dev.genDefined g = true →
    let k := tget 0 s.dev.acq.genCount g
    let r := startAll (railStarts g (chanStarts g (ledStart g { s.dev with
      acq := { s.dev.acq with genCount := tset 0 s.dev.acq.genCount g ((k + 1) % 64) } }))) g k
    (s.dev.plane.takeover = true → Answers (.sampleTrigger g) s r.1) ∧
    (s.dev.plane.takeover = false →
      let d := limitMisses g k r.2 r.1
      Answers (.sampleTrigger g) s (orderReady r.1.thr.ready
        (((d.liveIndices tLoop).filter fun l => lcTrig (d.slot tLoop l).cfg == g).foldl (loopStart g k r.2) d)))) ∧
  (∀ (d : Dev) (c g k : Nat),
    let st := newStart d c g k
    st.inputs = startInputs d c g k ∧ st.gen = g ∧ st.factors = d.fsFactors c ∧
    (st.inputs = [] → startOn d c g k = (d, false)) ∧
    (st.inputs ≠ [] → (d.conv c).busy = false →
      (startOn d c g k).2 = false ∧ (startOn d c g k).1.conv c = { d.conv c with current := some st }) ∧
    (st.inputs ≠ [] → (d.conv c).busy = true → (∃ y ∈ (d.conv c).waiting, y.gen = g) →
      (startOn d c g k).2 = true ∧ (startOn d c g k).1.conv c = { d.conv c with dropped := min ((d.conv c).dropped + 1) 255 }) ∧
    (st.inputs ≠ [] → (d.conv c).busy = true → (∀ y ∈ (d.conv c).waiting, y.gen ≠ g) →
      (startOn d c g k).2 = false ∧ (startOn d c g k).1.conv c = { d.conv c with waiting := (d.conv c).waiting ++ [st] })) ∧
  (∀ (s : State) (c : Nat) (code : Int) (isOver late : Bool) (pos : Nat), c < 12 →
    let cv := s.dev.conv c
    (cv.injRunning = [] → (∀ y, cv.current = some y → y.inputs = []) → Answers (.fsConversionDone c code isOver late pos) s s.dev) ∧
    (∀ ch input rest, cv.injRunning = (ch, input) :: rest →
      let w := fsResult (s.dev.fsFactors c) code isOver true false (injSe cv input) input
      let w' : Word := if s.dev.sag.fenced.contains 9 then w ||| 0x00100000 else w
      ∃ d : Dev, Answers (.fsConversionDone c code isOver late pos) s (injDeliver ch input w' d) ∧
        d = { s.dev with acq := d.acq, tal := d.tal } ∧ d.fsLast input = w' ∧
        d.conv c = Conv.advance { cv with injRunning := rest }) ∧
    (∀ y input rest, cv.injRunning = [] → cv.current = some y → y.inputs = input :: rest →
      let isLate := if y.begun then y.late else late
      let w := fsResult y.factors code isOver false isLate (y.se.contains input) input
      let w' : Word := if s.dev.sag.fenced.contains 9 then w ||| 0x00100000 else w
      ∃ d : Dev, Answers (.fsConversionDone c code isOver late pos) s (d.inTurn pos (fsDeliver input w' pos)) ∧
        d = { s.dev with acq := d.acq, tal := d.tal } ∧ d.fsLast input = w' ∧
        d.conv c = Conv.advance { cv with
          late := if !y.begun && late then min (cv.late + 1) 255 else cv.late
          current := some { y with inputs := rest, late := isLate, begun := true } })) ∧
  (∀ cv : Conv,
    ((∀ y, cv.current = some y → y.inputs ≠ []) → cv.busy = true → cv.advance = cv) ∧
    (∀ y, cv.current = some y → y.inputs = [] → cv.injRunning = [] → cv.injPending = [] →
      cv.advance = { cv with current := cv.waiting.head?, waiting := cv.waiting.drop 1 })) ∧
  (∀ (s : State) (c ch : Nat), c < 12 →
    ((s.dev.conv c).inj = [] → Answers (.urgentTrigger c ch) s s.dev) ∧
    ((s.dev.conv c).inj ≠ [] → ∃ d, Answers (.urgentTrigger c ch) s d ∧ d = { s.dev with acq := d.acq, tal := d.tal } ∧
      (ch ∈ (s.dev.conv c).injPending → d.conv c = { s.dev.conv c with injMerged := min ((s.dev.conv c).injMerged + 1) 255 }) ∧
      (ch ∉ (s.dev.conv c).injPending →
        d.conv c = { s.dev.conv c with injPending := sortNat (ch :: (s.dev.conv c).injPending) }))) ∧
  (∀ (s : State) (c : Nat), c < 12 →
    ((s.dev.conv c).injRunning ≠ [] ∨ (s.dev.conv c).injPending = [] → Answers (.injectedStart c) s s.dev) ∧
    (∀ ch rest, (s.dev.conv c).injRunning = [] → (s.dev.conv c).injPending = ch :: rest →
      ∃ d, Answers (.injectedStart c) s d ∧ d = { s.dev with acq := d.acq, tal := d.tal } ∧
        d.conv c = Conv.advance { s.dev.conv c with
          injPending := rest, injRunning := injInputs s.dev (s.dev.conv c) ch }))

/-- From R98, R104 to R108, R371, R513: the supervisor's scan, the precision channels and the thermal queue. A result is stored with
its flags; VALUE of a thermal word is 0 under OPEN, SHORT or EXC; a saturated precision value is at its limit under OVER; a
stopped group gives nothing, and its window comparator wakes its string.
Where the rules leave a point open, the clauses follow the model's choice of log entry 46. -/
def Obligations.SlowConverters : Prop :=
  (∀ s : State,
    (s.dev.acq.svPaused = true ∨ s.dev.acq.svScan ≠ [] → Answers .svScanStart s s.dev) ∧
    (s.dev.acq.svPaused = false → s.dev.acq.svScan = [] →
      ∃ d, Answers .svScanStart s d ∧ d = { s.dev with acq := d.acq, tal := d.tal } ∧
        d.acq = { s.dev.acq with svScan := scanInputs s.dev, svScanUncal := !s.dev.acq.calSv.valid })) ∧
  (∀ (s : State) (code : Nat) (isOver under : Bool),
    (s.dev.acq.svPaused = true ∨ s.dev.acq.svScan = [] → Answers (.svConversionDone code isOver under) s s.dev) ∧
    (∀ input rest, s.dev.acq.svPaused = false → s.dev.acq.svScan = input :: rest →
      let w := svResult s.dev.acq.calSv code isOver under s.dev.acq.svScanUncal (s.dev.sag.fenced.contains 9) input
      let d := svStore input rest w isOver under s.dev
      (s.dev.monOfInput input = none → Answers (.svConversionDone code isOver under) s d) ∧
      (∀ m, s.dev.monOfInput input = some m →
        Answers (.svConversionDone code isOver under) s (monResult (d.tally 20 3 (if s.dev.acq.svScanUncal then 1 else 0)) m w)) ∧
      d.svLast input = w ∧ d.acq.svScan = rest)) ∧
  (∀ (s : State) (n : Nat) (v : Int) (isOver settled : Bool) (pos : Nat), n < 32 →
    (s.dev.acq.pdStopped.contains (n / 4) = true → Answers (.pdOutput n v isOver pos settled) s s.dev) ∧
    (s.dev.acq.pdStopped.contains (n / 4) = false →
      ∃ d : Dev, Answers (.pdOutput n v isOver pos settled) s (pdDeliver n pos d) ∧ d = { s.dev with acq := d.acq, tal := d.tal } ∧
        let calibrating := s.dev.acq.calBusy = true ∧ s.dev.acq.calFamilies.toNat / 4 % 2 = 1
        (calibrating ∨ (s.dev.pdChan n).calHold = true ∧ settled = false → d = s.dev) ∧
        (¬calibrating → (s.dev.pdChan n).calHold = false ∨ settled = true →
          let val := if isOver then (if 0 ≤ v then 2 ^ 23 - 1 else -(2 ^ 23)) else pdValue (tget {} s.dev.acq.calPd n) v
          (d.pdChan n).direct = pdResult val isOver (!(tget ({} : Factors) s.dev.acq.calPd n).valid) false
            ((s.dev.pdChan n).settling && !settled) (!s.dev.pow.pdLock || s.dev.sag.fenced.contains 9) ∧
          (d.pdChan n).calHold = false ∧
          (d.pdChan n).settling = ((s.dev.pdChan n).settling && !settled)))) ∧
  (∀ (s : State) (n : Nat), n < 32 →
    (s.dev.acq.pdStopped.contains (n / 4) = false → Answers (.pdWindowCrossing n) s s.dev) ∧
    (s.dev.acq.pdStopped.contains (n / 4) = true → (∀ k < 4, (s.dev.pdChan (n / 4 * 4 + k)).owner = none) →
      Answers (.pdWindowCrossing n) s s.dev) ∧
    (∀ i, i < 8 → s.dev.acq.pdStopped.contains (n / 4) = true →
      (∀ k < 4, (s.dev.pdChan (n / 4 * 4 + k)).owner = some (slotKey tString i)) →
      Answers (.pdWindowCrossing n) s (battWake s.dev i))) ∧
  (∀ (s : State) (v : Int) (uv : Nat) (opn short exc ok : Bool),
    (s.dev.acq.tdQueue = [] → Answers (.tdConversionDone v uv opn short exc ok) s s.dev) ∧
    (∀ n rest, s.dev.acq.tdQueue = n :: rest →
      let w := tdResult n v opn short exc
      let d := tdStore n rest w opn short exc s.dev
      (s.dev.live tSensor n = false → Answers (.tdConversionDone v uv opn short exc ok) s d) ∧
      (s.dev.live tSensor n = true →
        Answers (.tdConversionDone v uv opn short exc ok) s (tdAnswer (s.dev.sensHandle n) w (tdSensor n v uv opn short exc ok d))) ∧
      tget 0 d.acq.tdWord n = w ∧ d.acq.tdQueue = rest)) ∧
  (∀ (n : Nat) (v : Int) (opn short exc : Bool), n < 20 → opn = true ∨ short = true ∨ exc = true →
    bits (tdResult n v opn short exc) 0 16 = 0) ∧
  (∀ (s : State) (n : Nat), n < 20 →
    let p := bits ((s.dev.slot tSensor n).w 3) 0 16
    ((s.dev.enabled tSensor n = false ∨ p = 0 ∨ (s.dev.sens n).turns < p) → Answers (.sensorPeriod n) s s.dev) ∧
    (s.dev.enabled tSensor n = true → p ≠ 0 → p ≤ (s.dev.sens n).turns →
      ∃ d, Answers (.sensorPeriod n) s d ∧ d = { s.dev with heat := d.heat, acq := d.acq, tal := d.tal } ∧ (d.sens n).turns = 0 ∧
        (s.dev.plane.takeover = false → n ∉ s.dev.acq.tdQueue → d.acq.tdQueue = s.dev.acq.tdQueue ++ [n]) ∧
        (s.dev.plane.takeover = true ∨ n ∈ s.dev.acq.tdQueue → d.acq = s.dev.acq)))

/-- From R109 to R113: a calibration starts where none runs, its families finish one by one, and step 5 writes the copy and clears
BUSY; ACQ_CAL_STATUS.DRIFT clears on a 1.
Where the rules leave a point open, the clauses follow the model's choices of log entries 54 and 84. -/
def Obligations.SelfCalibration : Prop :=
  (∀ (s : State) (v : Word), s.dev.host.link = .ready → bit v 0 = false ∨ s.dev.acq.calBusy = true → Answers (.acqCalStart v) s s.dev) ∧
  (∀ (s : State) (v : Word), s.dev.host.link = .ready → bit v 0 = true → s.dev.acq.calBusy = false →
    ∃ d, Answers (.acqCalStart v) s d ∧ d = { s.dev with acq := d.acq, tal := d.tal } ∧ d.acq.calBusy = true ∧
      d.acq.calLeft = (if bits v 1 3 = 0 then 7 else BitVec.ofNat 3 (bits v 1 3)) ∧ d.acq.calFamilies = d.acq.calLeft ∧
      d.acq.svFail = false ∧ d.acq.fsFail = false ∧ d.acq.pdFail = false ∧ d.acq.drift = s.dev.acq.drift ∧
      d.acq.calSv = s.dev.acq.calSv ∧ d.acq.calFs = s.dev.acq.calFs ∧ d.acq.calPd = s.dev.acq.calPd) ∧
  (∀ (s : State) (f : Nat) (ys : List CalYield) (m : Int), f < 3 →
    s.dev.acq.calBusy = false ∨ s.dev.acq.calLeft.toNat / 2 ^ f % 2 = 0 → Answers (.calFamilyDone f ys m) s s.dev) ∧
  (∀ (s : State) (ys : List CalYield) (m : Int), s.dev.acq.calBusy = true → s.dev.acq.calLeft.toNat / 4 % 2 = 1 →
    Answers (.calFamilyDone 2 ys m) s { s.dev with acq := { s.dev.acq with
      calLeft := s.dev.acq.calLeft &&& 3, calTemp := roundDegrees m, pdYield := ys, firstFail := none, firstDrift := none } }) ∧
  (∀ (s : State) (y : CalYield) (m : Int), s.dev.acq.calBusy = true → s.dev.acq.calLeft.toNat % 2 = 1 →
    ∃ d, Answers (.calFamilyDone 0 [y] m) s d ∧ d = { s.dev with acq := d.acq, host := d.host, tal := d.tal, sag := d.sag } ∧
      d.acq.calLeft = s.dev.acq.calLeft &&& 6 ∧ d.acq.svPaused = false ∧
      (yieldFitsFs y = true → d.acq.calSv = yieldFactors y 4 (roundDegrees m) s.dev.wheel.turn) ∧
      (yieldFitsFs y = false → d.acq.calSv = s.dev.acq.calSv ∧ d.acq.svFail = true)) ∧
  (∀ (s : State) (ys : List CalYield) (m : Int), s.dev.acq.calBusy = true → s.dev.acq.calLeft.toNat / 2 % 2 = 1 →
    ∃ d, Answers (.calFamilyDone 1 ys m) s d ∧ d = { s.dev with acq := d.acq, host := d.host, tal := d.tal, sag := d.sag } ∧
      d.acq.calLeft = s.dev.acq.calLeft &&& 5 ∧ d.acq.calSv = s.dev.acq.calSv ∧
      ∀ c, c < 12 →
        let y := ys.getD c ⟨false, 0, 0, []⟩
        (s.dev.acq.fsSkipped.toNat / 2 ^ c % 2 = 1 → d.fsFactors c = s.dev.fsFactors c) ∧
        (s.dev.acq.fsSkipped.toNat / 2 ^ c % 2 = 0 → yieldFitsFs y = true →
          d.fsFactors c = yieldFactors y 16 (roundDegrees m) s.dev.wheel.turn) ∧
        (s.dev.acq.fsSkipped.toNat / 2 ^ c % 2 = 0 → yieldFitsFs y = false →
          d.fsFactors c = s.dev.fsFactors c ∧ d.acq.fsFail = true)) ∧
  (∀ s : State, s.dev.acq.calBusy = false ∨ s.dev.acq.calLeft ≠ 0 → Answers .calDone s s.dev) ∧
  (∀ s : State, s.dev.acq.calBusy = true → s.dev.acq.calLeft = 0 →
    ∃ d, Answers .calDone s d ∧ d = { s.dev with
      acq := d.acq, kiln := { s.dev.kiln with cal := calCopy d.acq }, host := d.host, tal := d.tal, sag := d.sag } ∧
      d.acq.calBusy = false ∧ d.acq.first = s.dev.kiln.cal.isEmpty ∧ d.acq.calFs = s.dev.acq.calFs ∧ d.acq.calSv = s.dev.acq.calSv ∧
      (s.dev.acq.calFamilies.toNat / 4 % 2 = 1 → ∀ n, n < 32 →
        let y := s.dev.acq.pdYield.getD n ⟨false, 0, 0, []⟩
        (yieldFitsPd y = true → tget ({} : Factors) d.acq.calPd n = ⟨y.offset, y.gain, [], s.dev.acq.calTemp, 0, true⟩) ∧
        (yieldFitsPd y = false → tget ({} : Factors) d.acq.calPd n = tget {} s.dev.acq.calPd n ∧ d.acq.pdFail = true)) ∧
      (s.dev.acq.calFamilies.toNat / 4 % 2 = 0 → d.acq.calPd = s.dev.acq.calPd)) ∧
  (∀ (s : State) (v : Word), s.dev.host.link = .ready →
    (bit v 7 = true → Answers (.acqCalStatusWrite v) s { s.dev with acq := { s.dev.acq with drift := false } }) ∧
    (bit v 7 = false → Answers (.acqCalStatusWrite v) s s.dev))

/-! ### Loops at run time (spec 05) -/

/-- From R125, R131 to R136, R142, R166: a run that is ready joins the lane's queue, or is discarded as an overrun where one waits
already; a lane dispatches its first ready run; the program's state words, ports and statistics are written back. LOOP_FERR and LOOP_STARVED apply ACTION. A corrected error is counted, an uncorrectable one fences the owner of
the word (R117).
Where the rules leave a point open, the clauses follow the model's choice of log entry 53. -/
def Obligations.LoopRuns : Prop :=
  (∀ (d : Dev) (l : Nat) (vals : List Int),
    ((loopReady l vals d).loop l).ready = some vals ∧
    (LoopId.user l ∉ d.thr.ready → (loopReady l vals d).thr.ready = d.thr.ready ++ [.user l]) ∧
    (LoopId.user l ∈ d.thr.ready → (loopReady l vals d).thr.ready = d.thr.ready ∧
      ((loopReady l vals d).loop l).overrun = satAdd 32 (d.loop l).overrun 1 ∧
      ((loopReady l vals d).loop l).missed = (d.loop l).missed + 1)) ∧
  (∀ (s : State) (lane wait pos : Nat), lane < 8 →
    (s.dev.plane.takeover = true ∨ (∀ id ∈ s.dev.thr.ready, ∀ p ∈ s.dev.thr.placed, p.id = id → p.lane ≠ lane)) →
    Answers (.loopDispatch lane wait pos) s s.dev) ∧
  (∀ (s : State) (lane wait pos : Nat) (id : LoopId) (before after : List LoopId), lane < 8 → s.dev.plane.takeover = false →
    s.dev.thr.ready = before ++ id :: after → (∀ x ∈ before, ∀ p ∈ s.dev.thr.placed, p.id = x → p.lane ≠ lane) →
    (∃ p ∈ s.dev.thr.placed, p.id = id ∧ p.lane = lane) →
    let ready := s.dev.thr.ready.filter (· != id)
    (∀ l, id = .user l →
      Answers (.loopDispatch lane wait pos) s (loopRun l lane wait pos { s.dev with thr := { s.dev.thr with ready := ready } })) ∧
    (∀ i k, id = .balance i k → ∃ d, Answers (.loopDispatch lane wait pos) s (wordsArrive (balanceRun d i k) i pos) ∧
      d = { s.dev with thr := { s.dev.thr with ready := ready }, tal := d.tal, host := d.host, sag := d.sag, fresh := d.fresh }) ∧
    (∀ c, id = .limit c → ∃ d, Answers (.loopDispatch lane wait pos) s (if c < 40 then feedLimitRun d c else branchLimitRun d (c - 40)) ∧
      (d.chan c).limMissed = 0 ∧ d.thr = { s.dev.thr with ready := ready } ∧ d.acq = s.dev.acq ∧ d.wheel = s.dev.wheel)) ∧
  (∀ (d : Dev) (l lane wait pos : Nat) (ins : List Int), (d.loop l).ready = some ins → d.railOfLoop l = none →
    (d.slot tLoop l).swap = false → (d.loop l).setPoints = [] → (d.loop l).preload = none →
    (∀ k < 4, lcKind (d.slot tLoop l).cfg k = 0) →
    let c := (loopCtx d l ins).run (lcProgram (d.slot tLoop l).cfg)
    let r := (loopRun l lane wait pos d).loop l
    r.s = c.s ∧ r.ready = none ∧ r.runs = (d.loop l).runs + 1 ∧ r.missed = 0 ∧ r.maxWait = max (d.loop l).maxWait wait ∧
    r.dSat = satAdd 32 (d.loop l).dSat c.dSat ∧ r.accSat = satAdd 32 (d.loop l).accSat c.accSat ∧
    r.outs = (List.range 4).map fun k => (c.outs.getD k none).getD ((d.loop l).outs.getD k 0)) ∧
  (∀ (d : Dev) (l : Nat) (run : BitVec 32),
    ((d.slot tLoop l).swap = false → swapLoop d l run = d) ∧
    ((d.slot tLoop l).swap = true → ((swapLoop d l run).slot tLoop l).activeB = !(d.slot tLoop l).activeB ∧
      ((swapLoop d l run).slot tLoop l).swap = false ∧ ((swapLoop d l run).loop l).lastSwapRun = run)) ∧
  (∀ (s : State) (l : Nat), l < 96 →
    let due := s.dev.loopRuns l && lcFerrEn (s.dev.slot tLoop l).cfg && decide (max 1 (lcTimer (s.dev.slot tLoop l).cfg) ≤ (s.dev.loop l).ferr)
    (due = false → Answers (.loopFerr l) s s.dev) ∧
    (due = true → Answers (.loopFerr l) s
      (applyAction l 3 (s.dev.raise 0x0301 (lcAction (s.dev.slot tLoop l).cfg) (s.dev.handleOf tLoop l))))) ∧
  (∀ (s : State) (l : Nat),
    let due := s.dev.loopRuns l && decide (lcMissLimit (s.dev.slot tLoop l).cfg ≤ (s.dev.loop l).missed)
    (due = false → Answers (.loopStarved (.user l)) s s.dev) ∧
    (due = true → Answers (.loopStarved (.user l)) s
      (applyAction l 4 (s.dev.raise 0x0302 (s.dev.loop l).missed (s.dev.handleOf tLoop l))))) ∧
  (∀ (s : State) (i k : Nat), Answers (.loopStarved (.balance i k)) s s.dev) ∧
  (∀ (s : State) (c : Nat),
    let due := s.dev.live (chanType c) (chanIndex c) && decide (8 ≤ (s.dev.chan c).limMissed)
    (due = false → Answers (.loopStarved (.limit c)) s s.dev) ∧
    (due = true → Answers (.loopStarved (.limit c)) s
      (fenceOwner (.limit c) 4 (s.dev.raise 0x0302 (s.dev.chan c).limMissed (s.dev.chanHandle c))))) ∧
  (∀ (d : Dev) (l cause : Nat),
    (lcAction (d.slot tLoop l).cfg = 0 → ((applyAction l cause d).loop l).latch = .hold ∧
      LoopId.user l ∉ (applyAction l cause d).thr.ready ∧
      ((applyAction l cause d).loop l).outs = (d.loop l).outs ∧
      ((applyAction l cause d).loop l).trips = satAdd 32 (d.loop l).trips 1) ∧
    (lcAction (d.slot tLoop l).cfg = 1 → ∃ e, applyAction l cause d = portsSet e l ∧
      (e.loop l).latch = .force ∧ (e.loop l).outs = safeOuts (d.slot tLoop l).cfg ∧ LoopId.user l ∉ e.thr.ready) ∧
    (lcAction (d.slot tLoop l).cfg = 2 →
      applyAction l cause d = fenceHandle tLoop l cause (d.modLoop l fun r => { r with trips := satAdd 32 r.trips 1 }))) ∧
  (∀ (s : State) (lane : Nat) (id : LoopId) (coef : Bool),
    Answers (.throwMemError true lane id coef) s (Dev.raiseOnceTurn { s.dev with
      thr := { s.dev.thr with memCorrected := satAdd 32 s.dev.thr.memCorrected 1 } } 0x0304 0x0304 (min lane 8) 0) ∧
    (s.dev.live (ownerKey id / 4096) (ownerKey id % 4096) = false → Answers (.throwMemError false lane id coef) s s.dev) ∧
    (s.dev.live (ownerKey id / 4096) (ownerKey id % 4096) = true → Answers (.throwMemError false lane id coef) s
      (fenceOwner id 2 (s.dev.raise 0x0305 (if coef then 1 else 0) (s.dev.handleOf (ownerKey id / 4096) (ownerKey id % 4096))))))

/-! ### Regulators and phase drivers (spec 06) -/

/-- From R179 to R184, R192: power-good, the start's bound, over- and undervoltage, over-current; the stop and its bound. A fault
takes a running rail to FAULTED with power-good deasserted, leaves any other as it is, and its record's COUNT advances.
R534: a discharge or bleed switch that turns itself off.
Where the rules leave a point open, the clauses follow the model's choices of log entries 21 and 51. -/
def Obligations.RailRuns : Prop :=
  (∀ (s : State) (i tick : Nat), i < 24 →
    let r := s.dev.rail i
    let h := s.dev.railHandle i
    let nothing : Dev := { s.dev with tickNow := none }
    (inPgWindow s.dev i = true → r.run = .starting → r.preLeft = 0 → r.ramping = false → Answers (.railPgConfirm i) s
      (((s.dev.modRail i fun r => { r with run := .on, pg := true, dem := false, prebiased := false }).raise 0x0401 1 h).endKind .enable h .ok)) ∧
    (inPgWindow s.dev i = true → r.run = .on → r.pg = false →
      Answers (.railPgConfirm i) s ((s.dev.modRail i fun r => { r with pg := true }).raise 0x0401 1 h)) ∧
    (r.run = .on → r.pg = true → Answers (.railPgConfirm i) s s.dev) ∧
    (r.run ≠ .on → (r.run ≠ .starting ∨ r.preLeft ≠ 0 ∨ r.ramping = true) → Answers (.railPgConfirm i) s s.dev) ∧
    (inPgWindow s.dev i = false → Answers (.railPgConfirm i) s s.dev) ∧
    (r.run = .starting → Answers (.railStartTimeout i tick) s (s.dev.atTick tick fun d => railFault d i 0x0002 0xFF)) ∧
    (r.run ≠ .starting → Answers (.railStartTimeout i tick) s nothing) ∧
    Answers (.railOv i tick) s (s.dev.atTick tick fun d => railFault d i 0x0001 0xFF) ∧
    (r.run = .on → 1000 * s.dev.railVout i < s.dev.railRefMv i * (s.dev.railB i 1 0 16 : Int) →
      Answers (.railUvTime i tick) s (s.dev.atTick tick fun d => railFault d i 0x0002 0xFF)) ∧
    (r.run ≠ .on ∨ s.dev.railRefMv i * (s.dev.railB i 1 0 16 : Int) ≤ 1000 * s.dev.railVout i →
      Answers (.railUvTime i tick) s nothing) ∧
    (∀ pos, pos < (s.dev.railPhases i).length →
      let full := max 1 (s.dev.railB i 3 16 16) ≤ (s.dev.phase ((s.dev.railPhases i).getD pos 0)).peaks
      (r.surge = none → full → Answers (.railOcp i pos tick) s (s.dev.atTick tick fun d => railFault d i 0x0003 pos)) ∧
      (r.surge ≠ none ∨ ¬full → Answers (.railOcp i pos tick) s nothing)) ∧
    (∀ pos, (s.dev.railPhases i).length ≤ pos → Answers (.railOcp i pos tick) s nothing) ∧
    (r.run = .stopping → Answers (.railOffReached i) s (settle (railOff s.dev i))) ∧
    (r.run = .faulted ∨ (r.run ≠ .stopping ∧ r.discharge = true) → Answers (.railOffReached i) s (settle (dischargeOff s.dev i))) ∧
    (r.run ≠ .stopping → r.run ≠ .faulted → r.discharge = false → Answers (.railOffReached i) s (settle s.dev)) ∧
    (r.run ≠ .stopping ∨ r.fallExpired = true → Answers (.railStopLate i tick) s (s.dev.atTick tick settle)) ∧
    (r.run = .stopping → r.fallExpired = false → ∃ d : Dev, Answers (.railStopLate i tick) s (s.dev.atTick tick fun _ => settle d) ∧
      (d.rail i).fallExpired = true ∧ (d.rail i).run = .stopping ∧ (d.rail i).ramping = false ∧
      (∀ p ∈ s.dev.railPhases i, (s.dev.phase p).state ≠ .fenced → (d.phase p).state = .off ∧ (d.phase p).onTime = 0) ∧
      (∀ n, s.dev.railDsch i = some n → n ∈ d.pwm.discharge ∧ (d.rail i).discharge = true) ∧
      ((s.dev.slot tRail i).hstate = .enabled → s.dev.hasWait .disable h = true → (d.slot tRail i).hstate = .disabled) ∧
      ((s.dev.slot tRail i).hstate = .enabled → s.dev.hasWait .disable h = false → (d.slot tRail i).hstate = .enabled))) ∧
  (∀ (d : Dev) (i cause pos : Nat), (d.rail i).run.running = false → railFault d i cause pos = d) ∧
  (∀ (d : Dev) (i cause pos : Nat), (d.rail i).run.running = true →
    let e := railFault d i cause pos
    (e.rail i).run = .faulted ∧ (e.rail i).pg = false ∧ (e.rail i).surge = none ∧ (e.rail i).ramping = false ∧
    (∀ p ∈ d.railPhases i, (d.phase p).state ≠ .fenced →
      (e.phase p).state = .off ∧ (e.phase p).duty = 0 ∧ (e.phase p).onTime = 0 ∧ (e.phase p).edges = none) ∧
    (∀ p ∈ d.railPhases i, (d.phase p).state = .fenced → ∃ v, e.phase p = { d.phase p with kind1 := v }) ∧
    (∀ n, d.railDsch i = some n → n ∈ e.pwm.discharge ∧ (e.rail i).discharge = true) ∧
    (∀ l ∈ d.railLoops i, (d.slot tLoop l).hstate ≠ .fenced → (e.slot tLoop l).hstate = .disabled) ∧
    (tget {} e.kiln.rails i).count = satAdd 8 (tget {} d.kiln.rails i).count 1 ∧
    (∀ j, j ≠ i → (∀ l ∈ d.railLoops i, l ∉ d.railLoops j) → e.rail j = d.rail j)) ∧
  (∀ (d : Dev) (i : Nat),
    let e := railOff d i
    (d.hasWait .destroyForce (d.railHandle i) = false → (e.rail i).run = .off ∧ (e.rail i).ref = 0 ∧
      (∀ n, d.railDsch i = some n → n ∉ e.pwm.discharge) ∧
      (∀ l ∈ d.railLoops i, (d.slot tLoop l).hstate ≠ .fenced → (e.slot tLoop l).hstate = .disabled) ∧
      ((d.slot tRail i).hstate ≠ .fenced → (e.slot tRail i).hstate = .disabled))) ∧
  (∀ (s : State) (n : Nat), n < 40 → Answers (.dischargeThermalOff true n) s (s.dev.modChan n fun c => { c with bleedOn := false })) ∧
  (∀ (s : State) (n : Nat), n < 24 → ∃ d : Dev, Answers (.dischargeThermalOff false n) s d ∧ n ∉ d.pwm.discharge ∧
    (∀ m, m ≠ n → (m ∈ d.pwm.discharge ↔ m ∈ s.dev.pwm.discharge)) ∧
    (∀ i ∈ s.dev.liveIndices tRail, s.dev.railDsch i = some n → (d.rail i).discharge = false))

/-- From R150, R151, R153 to R155, R163, R168 to R174, R185 to R188: at a carrier start the comparators' marks of the ended period
are taken, at position 0 the rail's period passes, and a phase moves its state and loads duty, on-time, edges and place; shedding,
adding, Surge and its end, the drivers' supplies, a phase failure.
Where the rules leave a point open, the clauses follow the model's choices of log entries 86 and 97. -/
def Obligations.PhasesSwitch : Prop :=
  (∀ (s : State) (p : Nat) (iMax iMin : Int), p < 48 →
    ((s.dev.phase p).owner = none → Answers (.carrierStart p iMax iMin) s s.dev) ∧
    (∀ i, (s.dev.phase p).owner = some (slotKey tRail i) → i < 24 →
      let k := (s.dev.railPhases i).idxOf p
      let w := phaseWatch ((s.dev.tally 43 0 1).tally 43 2 (b2n ((s.dev.phase p).state == .firing))) i k p iMax iMin
      let d := if k = 0 then railPeriod w i else w
      let x := d.phase p
      (loopLost d i = true → Answers (.carrierStart p iMax iMin) s
        (railFault (d.modRail i fun r => { r with demandDefaulted := true }) i 0x0007 0xFF)) ∧
      (loopLost d i = false → (d.rail i).run.running = false ∨ d.pwm.vdrvLow = true → Answers (.carrierStart p iMax iMin) s d) ∧
      (loopLost d i = false → (d.rail i).run.running = true → d.pwm.vdrvLow = false →
        ∃ e : Dev, Answers (.carrierStart p iMax iMin) s e ∧
          (x.state = .active → e = { d with pwm := e.pwm } ∧ e.phase p = { x with
            periods := x.periods + 1, place := nextPlace d i k false
            duty := phaseDuty d i p, onTime := onTimeOf d i p (phaseDuty d i p)
            edges := gateEdges d i (onTimeOf d i p (phaseDuty d i p)) }) ∧
          (x.state = .shedding → (e.phase p).state = .shedding ∧ (e.phase p).periods = x.periods + 1 ∧
            (e.phase p).duty = phaseDuty (d.modPhase p fun x => { x with state := .active }) i p
              * (4 - (min 4 (x.periods + 1) : Nat)) / 4) ∧
          (x.state = .refresh → (d.rail i).surge = none → x.bootLow = false → (e.phase p).state = .active) ∧
          (x.state = .refresh → (d.rail i).surge ≠ none → x.periods = 0 → 0 < x.entered → (e.phase p).state = .refresh) ∧
          (x.state = .refresh → (d.rail i).surge ≠ none → 0 < x.periods ∨ x.entered = 0 → x.bootLow = false →
            (e.phase p).state = .firing ∧ (e.phase p).duty = 0) ∧
          (x.bootLow = true → (x.state = .refresh ∨ x.state = .shed ∧ x.adding = true) →
            (e.phase p).state = .refresh ∧ (e.phase p).onTime = (if x.state = .shed then 0 else (e.phase p).onTime)) ∧
          (x.state = .shed → x.adding = true → x.bootLow = false → (e.phase p).state = .active) ∧
          (x.state = .firing → x.periods + 1 < 2 ∨ (x.periods + 1 = 2 ∧ 0 < x.entered) → (e.phase p).state = .firing) ∧
          (x.state = .firing → 2 < x.periods + 1 ∨ (x.periods + 1 = 2 ∧ x.entered = 0) → x.bootLow = false →
            (d.rail i).run ≠ .stopping → (e.phase p).state = .active) ∧
          (x.state = .off ∨ x.state = .fenced → (e.phase p).state = x.state ∧
            (e.phase p).duty = x.duty ∧ (e.phase p).onTime = x.onTime ∧ (e.phase p).edges = x.edges))) ∧
    ((s.dev.phase p).state = .shedding → 4 ≤ (s.dev.phase p).periods → Answers (.sheddingEnd p) s
      (s.dev.modPhase p fun x => { x with state := .shed, periods := 0, duty := 0, onTime := 0, edges := none })) ∧
    ((s.dev.phase p).state ≠ .shedding ∨ (s.dev.phase p).periods < 4 → Answers (.sheddingEnd p) s s.dev) ∧
    (∀ low, Answers (.bootstrapUv p low) s (s.dev.modPhase p fun x => { x with bootLow := low })) ∧
    (∀ (mv : Int) (pos : Nat),
      ((s.dev.phase p).state ≠ .firing ∨ (s.dev.phase p).owner = none → Answers (.firingEnd p mv pos) s s.dev) ∧
      (∀ i, i < 24 → (s.dev.phase p).state = .firing → (s.dev.phase p).owner = some (slotKey tRail i) →
        let back := 2000 * ((mv - s.dev.railRefMv i).natAbs : Int) ≤ s.dev.railRefMv i * ((s.dev.rail i).surgeWin : Int) ∨
          (s.dev.phase p).lasted 2 (ownPlace s.dev i p pos) = true
        let d := enterPhase s.dev i p .active 0
        (¬back → Answers (.firingEnd p mv pos) s s.dev) ∧
        (back → d.railFiring i = true → Answers (.firingEnd p mv pos) s d) ∧
        (back → d.railFiring i = false → ∃ e : Dev, Answers (.firingEnd p mv pos) s e ∧
          (e.rail i).surge = none ∧ (e.rail i).surgeEnd = some (0, pos) ∧
          ((s.dev.rail i).run ≠ .stopping →
            (e.phase p).state = (if (s.dev.phase p).bootLow then .refresh else .active)))))) ∧
  (∀ (d : Dev) (i k p : Nat) (iMax iMin : Int),
    let x := d.phase p
    let y := (phaseWatch d i k p iMax iMin).phase p
    let peak := x.onTime ≠ 0 ∧ (peakLimit d i : Int) ≤ iMax
    (y.atPeak = true ↔ peak) ∧
    (y.atNeg = true ↔ negLimited d i = true ∧ iMin ≤ -(d.railB i 8 16 16 : Int)) ∧
    (peak → (d.rail i).surge = none → startLimited d i = false → y.peaks = x.peaks + 1) ∧
    (¬peak ∨ (d.rail i).surge ≠ none ∨ startLimited d i = true → y.peaks = 0) ∧
    y = { x with atPeak := y.atPeak, atNeg := y.atNeg, peaks := y.peaks, openCount := y.openCount, senseCount := y.senseCount }) ∧
  (∀ (d : Dev) (i : Nat),
    let r := d.rail i
    let e := railPeriod d i
    let dmax : Int := sx 16 (d.railB i 7 16 16)
    let derated := (d.okPhases i).length < (d.railPhases i).length ∨ r.throttlePct < 100
    let lim := railLimit d i
    (r.run.running = false ∨ (¬derated ∧ r.limited = false) → (e.rail i).dmaxEff = dmax) ∧
    (r.run.running = true → derated ∨ r.limited = true →
      (lim < 100 * d.railIsum i → (e.rail i).dmaxEff = max 0 (min dmax r.dmaxEff - 64)) ∧
      (10000 * d.railIsum i < 98 * lim → 100 * d.railIsum i ≤ lim → (e.rail i).dmaxEff = min dmax (r.dmaxEff + 64)) ∧
      (98 * lim ≤ 10000 * d.railIsum i → 100 * d.railIsum i ≤ lim → (e.rail i).dmaxEff = min dmax r.dmaxEff)) ∧
    ((e.rail i).limited = true ↔ (e.rail i).dmaxEff < dmax) ∧
    (e.rail i).openLoop = r.openLoop.map (fun p => (p.1 + 1, p.2)) ∧ (e.rail i).run = r.run ∧ e.pwm.phases = d.pwm.phases) ∧
  (∀ (d : Dev) (i : Nat) (mv slope : Int),
    let ref := d.railRefMv i
    let win : Int := surgeWindowOf d i
    let thr : Int := surgeSlopeOf d i
    (1000 * mv < ref * (1000 - win) → surgeKind d i mv slope = some false) ∧
    (ref * (1000 - win) ≤ 1000 * mv → ref * (1000 + win) < 1000 * mv → surgeKind d i mv slope = some true) ∧
    (ref * (1000 - win) ≤ 1000 * mv → 1000 * mv ≤ ref * (1000 + win) →
      (10000 * slope < -(ref * thr) → surgeKind d i mv slope = some false) ∧
      (-(ref * thr) ≤ 10000 * slope → ref * thr < 10000 * slope → surgeKind d i mv slope = some true) ∧
      (-(ref * thr) ≤ 10000 * slope → 10000 * slope ≤ ref * thr → surgeKind d i mv slope = none))) ∧
  (∀ (s : State) (i : Nat), i < 24 →
    ((s.dev.rail i).shedHold = false → Answers (.shedHoldEnd i) s s.dev) ∧
    ((s.dev.rail i).shedHold = true →
      Answers (.shedHoldEnd i) s (shedAdd (s.dev.modRail i fun r => { r with shedHold := false }) i true)) ∧
    (∀ (mv slope : Int) (pos : Nat),
      let armed := (s.dev.rail i).run = .on ∧ (s.dev.rail i).surge = none ∧ (s.dev.rail i).limited = false ∧
        (∀ p ∈ s.dev.railPhases i, (s.dev.phase p).state ≠ .fenced) ∧ s.dev.pwm.vdrvLow = false ∧
        (∀ n e, (s.dev.rail i).surgeEnd = some (n, e) → 2 ≤ n ∨ (n = 1 ∧ e ≤ pos))
      (¬armed ∨ surgeKind s.dev i mv slope = none → Answers (.surgeDetect i mv slope pos) s s.dev) ∧
      (∀ o, armed → surgeKind s.dev i mv slope = some o → (s.dev.railPhases i).Nodup →
        ∃ d : Dev, Answers (.surgeDetect i mv slope pos) s d ∧ (d.rail i).surge = some o ∧
        (d.rail i).surgeWin = surgeWindowOf s.dev i ∧ (d.rail i).surgesTurn = (s.dev.rail i).surgesTurn + 1 ∧
        (∀ p ∈ s.dev.railPhases i,
          ((s.dev.phase p).state = .active ∨ (s.dev.phase p).state = .shedding ∨
            (s.dev.phase p).state = .shed ∧ youngShed s.dev i (s.dev.phase p) = true) →
          (d.phase p).state = (if (s.dev.phase p).bootLow then .refresh else .firing) ∧
          (d.phase p).onTime = (if (s.dev.phase p).bootLow ∨ o = true then 0 else rcPeriod (s.dev.slot tRail i).cfg)) ∧
        (∀ p ∈ s.dev.railPhases i, (s.dev.phase p).state = .shed → youngShed s.dev i (s.dev.phase p) = false →
          (d.phase p).state = .refresh)))) ∧
  (∀ s : State, Answers .vdrvUvRelease s { s.dev with pwm := { s.dev.pwm with vdrvLow := false } } ∧
    ∃ d : Dev, Answers .vdrvUv s d ∧ d.pwm.vdrvLow = true ∧
      (∀ i ∈ s.dev.liveIndices tRail, (d.rail i).run = (if (s.dev.rail i).run.running then .faulted else (s.dev.rail i).run))) ∧
  (∀ (s : State) (i pos tick : Nat) (sense : Bool), i < 24 →
    let p := (s.dev.railPhases i).getD pos 0
    let hit := pos < (s.dev.railPhases i).length ∧ (s.dev.phase p).state = .active ∧
      8 ≤ (if sense then (s.dev.phase p).senseCount else (s.dev.phase p).openCount) ∧ (sense = true ∨ (s.dev.rail i).run = .on)
    (¬hit → Answers (.phaseFailure i pos sense tick) s { s.dev with tickNow := none }) ∧
    (hit → ∃ d : Dev, Answers (.phaseFailure i pos sense tick) s d ∧
      (d.phase p).state = .fenced ∧ (d.phase p).duty = 0 ∧ (d.phase p).onTime = 0 ∧ LoopId.balance i pos ∉ d.thr.ready ∧
      (s.dev.okPhases i = [p] → (s.dev.rail i).run.running = true → (d.rail i).run = .faulted) ∧
      (∀ q ∈ s.dev.okPhases i, q ≠ p → (d.rail i).run = (s.dev.rail i).run ∧ (d.rail i).failAge = some 0)))

/-! ### Riser feeds and prime branches (spec 07, 08) -/

/-- From R201 to R205, R207, R208, R210 to R213: what each event of a feed does, and that a cause trips a feed with its gate on,
joins a fault whose record is not complete, and is no fault otherwise.
Where the rules leave a point open, the clauses follow the model's choices of log entries 49 and 78. -/
def Obligations.FeedEvents : Prop :=
  (∀ (s : State) (n tick : Nat), n < 40 →
    let x := s.dev.chan n
    let found := fun cause (o : Option Int) => s.dev.atTick tick fun d => chanFound d n cause (o.getD 0)
    let nothing : Dev := { s.dev with tickNow := none }
    (x.run = .precharge → Answers (.feedPrechargeDone n) s (s.dev.modChan n fun x => { x with run := .ramp })) ∧
    (x.run ≠ .precharge → Answers (.feedPrechargeDone n) s s.dev) ∧
    (x.effRun = .precharge → Answers (.feedPrechargeTimeout n tick) s (found 0x0007 x.onsets.start)) ∧
    (x.effRun ≠ .precharge → Answers (.feedPrechargeTimeout n tick) s nothing) ∧
    (x.run = .ramp → Answers (.feedPgConfirm n) s (chanPgOn (s.dev.modChan n fun x => { x with run := .on }) n)) ∧
    (x.run = .on ∨ x.run = .limiting → Answers (.feedPgConfirm n) s (chanPgOn s.dev n) ∧ Answers (.feedPgLoss n) s (chanPgOff s.dev n)) ∧
    (x.run ≠ .ramp → x.run ≠ .on → x.run ≠ .limiting → Answers (.feedPgConfirm n) s s.dev) ∧
    (x.run ≠ .on → x.run ≠ .limiting → Answers (.feedPgLoss n) s s.dev) ∧
    (∀ low, x.effRun = .ramp →
      Answers (.feedGateTimeout n low tick) s (found (if low then 0x0008 else 0x0009) x.onsets.ramp)) ∧
    (∀ low, x.effRun ≠ .ramp → Answers (.feedGateTimeout n low tick) s nothing) ∧
    Answers (.feedShort n tick) s (found 0x0001 none) ∧
    Answers (.feedOvReverse n false tick) s (found 0x0002 x.onsets.ov) ∧
    Answers (.feedOvReverse n true tick) s (found 0x0005 x.onsets.rev) ∧
    (∀ low, x.effRun ∈ [.ramp, .on, .limiting] → startsReach s.dev n x.timer (s.dev.feedBank n).tflt = true →
      Answers (.feedFaultTimer n low tick) s
        (found (if x.effRun = .limiting ∨ x.level < 2147483647 then 0x0004 else if low then 0x0008 else 0x0009) x.onsets.timer)) ∧
    (∀ low, x.effRun ∉ [.ramp, .on, .limiting] ∨ startsReach s.dev n x.timer (s.dev.feedBank n).tflt = false →
      Answers (.feedFaultTimer n low tick) s nothing) ∧
    (x.effRun.gateOn = true → startsReach s.dev n x.backstop 20 = true →
      Answers (.feedBackstop n tick) s (found 0x0003 x.onsets.slow)) ∧
    (x.effRun.gateOn = false ∨ startsReach s.dev n x.backstop 20 = false → Answers (.feedBackstop n tick) s nothing) ∧
    (x.effRun.gateOn = true → (s.dev.feedBank n).tpwr ≤ x.powerTurns →
      Answers (.feedPowerLimit n tick) s (found 0x0006 (some (x.onsets.power.getD 0 + x.acc.energy)))) ∧
    (x.effRun.gateOn = false ∨ x.powerTurns < (s.dev.feedBank n).tpwr → Answers (.feedPowerLimit n tick) s nothing) ∧
    (x.causes = [] → Answers (.feedFaultRecord n) s s.dev) ∧
    (x.causes ≠ [] → Answers (.feedFaultRecord n) s (chanRecord s.dev n (s.dev.feedEattUj n))) ∧
    (x.run = .bleed → fcBleed (s.dev.chanCfg n) = true →
      Answers (.feedBleedStart n) s (s.dev.modChan n fun x => { x with bleedOn := true })) ∧
    (x.run ≠ .bleed ∨ fcBleed (s.dev.chanCfg n) = false → Answers (.feedBleedStart n) s s.dev) ∧
    (x.run = .bleed → x.causes = [] → Answers (.feedBleedEnd n) s (settle (chanStopEnds s.dev n))) ∧
    (x.run = .bleed → x.causes ≠ [] →
      Answers (.feedBleedEnd n) s (settle (chanStopEnds (chanRecord s.dev n (s.dev.feedEattUj n)) n))) ∧
    (x.run ≠ .bleed → Answers (.feedBleedEnd n) s (settle s.dev)) ∧
    (x.run = .bleed → x.resLate = false → Answers (.feedResLate n) s
      ((s.dev.modChan n fun x => { x with resLate := true }).raise 0x0504 (s.dev.chanVolt16 n) (s.dev.chanHandle n))) ∧
    (x.run ≠ .bleed ∨ x.resLate = true → Answers (.feedResLate n) s s.dev) ∧
    (x.run ∉ [.off, .wait, .lockout] → Answers (.feedBackfeed n) s s.dev) ∧
    (x.run ∈ [.off, .wait, .lockout] → s.dev.seqNaming (s.dev.chanHandle n) = none → ∃ d : Dev, Answers (.feedBackfeed n) s d ∧
      d.chan n = { x with backfeed := true, overThisTurn := true } ∧
      d = { s.dev with feeds := d.feeds, host := d.host, tal := d.tal, sag := d.sag, onceTurn := d.onceTurn }) ∧
    (let gone := (s.dev.wheel.turn - x.faultTurn).toNat
     (x.waitSitter = true ∨ gone < s.dev.chanRetryTurns n → Answers (.feedRetryDelay n) s s.dev) ∧
     (x.waitSitter = false → s.dev.chanRetryTurns n ≤ gone →
      (x.run = .wait → Answers (.feedRetryDelay n) s (chanWant s.dev n)) ∧
      (x.run = .bleed → x.after = .wait → Answers (.feedRetryDelay n) s (s.dev.modChan n fun x => { x with retryDue := true })) ∧
      (x.run ∈ [.off, .precharge, .ramp, .on, .limiting, .lockout] → Answers (.feedRetryDelay n) s s.dev))) ∧
    (s.dev.chanRetryClear n ≤ x.pgTurns → Answers (.feedRetryClear n) s (s.dev.modChan n fun x => { x with retry := 0 })) ∧
    (x.pgTurns < s.dev.chanRetryClear n → Answers (.feedRetryClear n) s s.dev)) ∧
  (∀ (d : Dev) (c cause : Nat) (base : Int), c < 44 →
    ((d.chan c).causes ≠ [] → chanFound d c cause base = d.modChan c fun x => { x with causes := (cause, base) :: x.causes }) ∧
    ((d.chan c).causes = [] → (d.chan c).run.gateOn = false → chanFound d c cause base = d) ∧
    ((d.chan c).causes = [] → (d.chan c).run.gateOn = true →
      let x := (chanFound d c cause base).chan c
      x.run = (if c < 40 then .bleed else .opening) ∧ x.after = .off ∧ x.before = (d.chan c).run ∧ x.causes = [(cause, base)] ∧
      x.pg = false ∧ x.faultTurn = d.wheel.turn ∧ (∀ t, d.tickNow = some t → x.faultTick = t) ∧ x.retry = (d.chan c).retry ∧
      x.bleedOn = false ∧ x.eLetRunning = true))

/-- From R210, R211, R213, R239: the record of a fault holds the lowest code found, and the retry follows its cause and RETRIES;
the end of BLEED or OPENING leads to OFF, WAIT or LOCKOUT, and to an attempt whose delay has passed; an attempt begins where no
backfeed and no tripped Sitter stand against it, from WAIT no takeover either.
Where the rules leave a point open, the clauses follow the model's choices of log entries 48 and 78. -/
def Obligations.FaultsRetry : Prop :=
  (∀ (first : Nat × Int) (rest : List (Nat × Int)),
    lowestCause first rest ∈ first :: rest ∧ ∀ k ∈ first :: rest, (lowestCause first rest).1 ≤ k.1) ∧
  (∀ (d : Dev) (c tail : Nat) (first : Nat × Int) (rest : List (Nat × Int)), c < 44 → (d.chan c).causes = first :: rest →
    let cause := (lowestCause first rest).1
    let x := (chanRecord d c tail).chan c
    x.causes = [] ∧ x.lastCause = cause ∧ x.eBase = (lowestCause first rest).2 ∧ x.run = (d.chan c).run ∧
    ((d.chan c).stopping = true ∨ d.isFenced (chanType c) (chanIndex c) = true → x.after = (d.chan c).after ∧ x.retry = (d.chan c).retry) ∧
    ((d.chan c).stopping = false → d.isFenced (chanType c) (chanIndex c) = false →
      (cause < (if c < 40 then 10 else 8) → (d.chan c).retry < d.chanRetries c →
        x.after = .wait ∧ x.retry = (d.chan c).retry + 1) ∧
      (cause < (if c < 40 then 10 else 8) → d.chanRetries c ≤ (d.chan c).retry → x.after = .lockout ∧ x.retry = (d.chan c).retry) ∧
      (cause = causeSitter c → d.seqNaming (d.chanHandle c) = none → x.after = .wait ∧ x.waitSitter = true))) ∧
  (∀ (d : Dev) (c : Nat), c < 44 →
    let y := d.modChan c fun x => { x with run := .wait, bleedOn := false }
    let due := ((d.chan c).waitSitter = true ∧ d.sitter = false) ∨ ((d.chan c).waitSitter = false ∧ (d.chan c).retryDue = true)
    ((d.chan c).after = .off → chanStopEnds d c = chanOff d c) ∧
    ((d.chan c).after = .wait → ¬due → chanStopEnds d c = y) ∧
    ((d.chan c).after = .wait → due → chanStopEnds d c = chanWant y c) ∧
    ((d.chan c).after = .lockout → ((chanStopEnds d c).chan c).run = .lockout)) ∧
  (∀ (d : Dev) (c : Nat), c < 44 → (d.chan c).run = .off ∨ (d.chan c).run = .wait ∨ (d.chan c).run = .lockout →
    (d.sitter = true ∨ (d.chan c).backfeed = true ∨ (d.plane.takeover = true ∧ (d.chan c).run = .wait) →
      chanWant d c = d.modChan c fun x => { x with wantStart := true }) ∧
    (d.sitter = false → (d.chan c).backfeed = false → d.plane.takeover = false ∨ (d.chan c).run ≠ .wait →
      let x := (chanWant d c).chan c
      x.run = (if c < 40 then .precharge else .ramp) ∧ x.wantStart = false ∧ x.stopping = false ∧ x.retryDue = false)) ∧
  (∀ (d : Dev) (c : Nat), c < 44 → ((chanPgOn d c).chan c).pg = true ∧ ((chanPgOff d c).chan c).pg = false)

/-- From R232 to R235, R239 to R243: what each event of a branch does.
Where the rules leave a point open, the clauses follow the model's choices of log entries 88, 89 and 97. -/
def Obligations.BranchEvents : Prop :=
  (∀ (s : State) (n tick : Nat), n < 4 →
    let c := 40 + n
    let x := s.dev.chan c
    let nothing : Dev := { s.dev with tickNow := none }
    let note := fun (x : Chan) => { x with onsetTrip := true, acc := { x.acc with limited := true } }
    (∀ (uj mv : Nat) (ma slope : Int),
      let e := branchEtrip (s.dev.slot tBranch n).cfg (s.dev.branchBank n)
      let t := 180 + field (s.dev.slot tBranch n).cfg 2 16 16
      let pred : Int := (x.e + (uj * 65536 : Nat)) * 2000000000000 + ((65536 * mv * t : Nat) : Int) * max (2000 * ma + slope * (t : Int)) 0
      (x.effRun ∈ [.ramp, .on] → e.1 * 2000000000000 * 65536 ≤ pred * (e.2 : Int) →
        Answers (.branchEnergyTrip n uj mv ma slope tick) s
          (s.dev.atTick tick fun d => chanFound (d.modChan c note) c 0x0002 (x.onsets.timer.getD 0))) ∧
      (x.effRun ∉ [.ramp, .on] ∨ pred * (e.2 : Int) < e.1 * 2000000000000 * 65536 →
        Answers (.branchEnergyTrip n uj mv ma slope tick) s nothing)) ∧
    (x.effRun ∈ [.ramp, .on] →
      Answers (.branchHardTrip n tick) s
        (s.dev.atTick tick fun d => chanFound (d.modChan c note) c 0x0001 (x.onsets.timer.getD 0)) ∧
      Answers (.branchOvReverse n true tick) s (s.dev.atTick tick fun d => chanFound d c 0x0004 (x.onsets.rev.getD 0)) ∧
      Answers (.branchOvReverse n false tick) s (s.dev.atTick tick fun d => chanFound d c 0x0003 (x.onsets.ov.getD 0))) ∧
    (x.effRun ∉ [.ramp, .on] → Answers (.branchHardTrip n tick) s nothing ∧
      ∀ reverse, Answers (.branchOvReverse n reverse tick) s nothing) ∧
    (∃ d : Dev, Answers (.branchOnsetReset n) s d ∧
      d.chan c = { x with onset := false, onsetTrip := false, e := 0, onsetPeak := 0 } ∧
      d.branches = (s.dev.modChan c fun x => { x with onset := false, onsetTrip := false, e := 0, onsetPeak := 0 }).branches ∧
      (x.onsetTrip = false → (0x0604 * 4096 + n) ∈ d.onceTurn) ∧ (x.onsetTrip = true → d.host = s.dev.host)) ∧
    (∀ low, x.effRun = .ramp → Answers (.branchRampTimeout n low tick) s
      (s.dev.atTick tick fun d => chanFound d c (if low then 0x0006 else 0x0007) (x.onsets.ramp.getD 0))) ∧
    (∀ low, x.effRun ≠ .ramp → Answers (.branchRampTimeout n low tick) s nothing) ∧
    (x.run = .opening → Answers (.branchOpeningEnd n) s (settle (chanStopEnds (branchRecord n s.dev) c))) ∧
    (x.run ≠ .opening → Answers (.branchOpeningEnd n) s (settle s.dev)) ∧
    (x.run = .ramp → Answers (.branchPgConfirm n) s (chanPgOn (s.dev.modChan c fun x =>
      { x with run := .on, level := 2147483647, acc := { x.acc with notOn := true } }) c)) ∧
    (x.run = .on → Answers (.branchPgConfirm n) s (chanPgOn s.dev c) ∧ Answers (.branchPgLoss n) s (chanPgOff s.dev c)) ∧
    (x.run ≠ .ramp → x.run ≠ .on → Answers (.branchPgConfirm n) s s.dev) ∧
    (x.run ≠ .on → Answers (.branchPgLoss n) s s.dev) ∧
    (x.effRun = .ramp → startsReach s.dev c x.backstop 20 = true → Answers (.branchBackstop n tick) s
      (s.dev.atTick tick fun d => chanFound d c 0x0005 (x.onsets.slow.getD 0))) ∧
    (x.effRun ≠ .ramp ∨ startsReach s.dev c x.backstop 20 = false → Answers (.branchBackstop n tick) s nothing) ∧
    (let gone := (s.dev.wheel.turn - x.faultTurn).toNat
     (x.waitSitter = true ∨ gone < s.dev.chanRetryTurns c → Answers (.branchRetryDelay n) s s.dev) ∧
     (x.waitSitter = false → s.dev.chanRetryTurns c ≤ gone →
      (x.run = .wait → Answers (.branchRetryDelay n) s (chanWant s.dev c)) ∧
      (x.run = .opening → x.after = .wait → Answers (.branchRetryDelay n) s (s.dev.modChan c fun x => { x with retryDue := true })) ∧
      (x.run ∈ [.off, .ramp, .on, .lockout] → Answers (.branchRetryDelay n) s s.dev))) ∧
    (s.dev.chanRetryClear c ≤ x.pgTurns → Answers (.branchRetryClear n) s (s.dev.modChan c fun x => { x with retry := 0 })) ∧
    (x.pgTurns < s.dev.chanRetryClear c → Answers (.branchRetryClear n) s s.dev) ∧
    (bcHealth (s.dev.slot tBranch n).cfg = false ∨ x.win.turns < (s.dev.branchBank n).avg →
      (x.health = [] → Answers (.branchHealthWindow n) s s.dev) ∧
      (x.health ≠ [] →
        Answers (.branchHealthWindow n) s (s.dev.publish (s.dev.chanHandle c) 2 (branchHealthBlock s.dev n)))) ∧
    (bcHealth (s.dev.slot tBranch n).cfg = true → (s.dev.branchBank n).avg ≤ x.win.turns →
      ∃ d : Dev, Answers (.branchHealthWindow n) s (d.publish (d.chanHandle c) 2 (branchHealthBlock d n)) ∧ (d.chan c).win = {} ∧
        (2 * x.win.used < x.win.turns → (d.chan c).windows = x.windows ∧ (d.chan c).warn = x.warn ∧ (d.chan c).alarm = x.alarm ∧
          (d.chan c).healthValid = x.healthValid ∧ d.kiln = s.dev.kiln) ∧
        (x.win.turns ≤ 2 * x.win.used → (d.chan c).windows = satAdd 16 x.windows 1 ∧ (d.chan c).healthValid = true ∧
          byteField (d.chan c).health 1 1 % 4 = 1))) ∧
  (∀ (w : RippleWin) (ok : Bool) (ripMin dur : Nat) (i o r : Cx × Cx),
    let strong := (ripMin * 1000000) ^ 2 ≤ i.1.sq ∨ (ripMin * 1000000) ^ 2 ≤ i.2.sq
    (ok = false ∨ ¬strong → w.add ok ripMin dur i o r = { w with turns := w.turns + 1 }) ∧
    (ok = true → strong → (w.add ok ripMin dur i o r).used = w.used + 1 ∧ (w.add ok ripMin dur i o r).turns = w.turns + 1 ∧
      (w.add ok ripMin dur i o r).w = w.w + i.1.sq + i.2.sq)) ∧
  (∀ (d : Dev) (n : Nat) (first : Nat × Int) (rest : List (Nat × Int)), n < 4 → (d.chan (40 + n)).causes = first :: rest →
    let e := branchRecord n d
    (e.chan (40 + n)).lastCause = (lowestCause first rest).1 ∧
    (tget {} e.kiln.branches n).count = satAdd 8 (tget {} d.kiln.branches n).count 1 ∧
    (tget {} e.kiln.branches n).newer = faultBlock e (40 + n)) ∧
  (∀ (d : Dev) (n : Nat) (r : Int) (base tBase : Nat), n < 4 → d.baseline n = some (base, tBase) →
    100 * r < base * (100 + (d.branchBank n).risePct) + 100 * (d.branchBank n).riseAbs →
    100 * r < base * (100 + (d.branchBank n).alarmPct) + 100 * (d.branchBank n).riseAbs →
    (d.chan (40 + n)).warn = false → (d.chan (40 + n)).alarm = false →
    0 < (d.branchBank n).confirm →
    ((healthLevels d n r).chan (40 + n)).warn = false ∧ ((healthLevels d n r).chan (40 + n)).alarm = false ∧
    ((healthLevels d n r).chan (40 + n)).overWarn = 0) ∧
  (∀ (d : Dev) (n : Nat) (r : Int) (base tBase : Nat), n < 4 → d.baseline n = some (base, tBase) →
    base * (100 + (d.branchBank n).risePct) + 100 * (d.branchBank n).riseAbs < 100 * r →
    (d.chan (40 + n)).warn = false → (((healthLevels d n r).chan (40 + n)).warn = true ↔
      (d.branchBank n).confirm ≤ (d.chan (40 + n)).overWarn + 1))

/-! ### Source selection and hold-up (spec 09) -/

/-- From R257 to R260, R265: the input picked is the AVAILABLE one of highest priority, or a forced one; qualification, a loss, a
confirmation, a stuck or failed gate and the two timers move a transfer on, or end it in NONE.
Where the rules leave a point open, the clauses follow the model's choice of log entry 59. -/
def Obligations.SourceTransfers : Prop :=
  (∀ (d : Dev) (n : Nat),
    (∀ x, d.srcPick n = some x → d.srcRuns n = true ∧ x ∈ sfMembers (d.srcCfg n) ∧ ((d.srcSet n).input x).st = .available ∧
      ((d.srcSet n).forced = some x ∨ ∀ y ∈ sfMembers (d.srcCfg n), ((d.srcSet n).input y).st = .available →
        sfPrio (d.srcCfg n) x ≤ sfPrio (d.srcCfg n) y)) ∧
    (d.srcPick n = none → d.srcRuns n = false ∨ ∀ y ∈ sfMembers (d.srcCfg n), ((d.srcSet n).input y).st ≠ .available) ∧
    (∀ x, d.returnInput n = some x → x ∈ sfMembers (d.srcCfg n) ∧ ((d.srcSet n).input x).st = .available ∧
      d.srcB n 2 16 16 ≤ ((d.srcSet n).input x).turns ∧ sfReturn (d.srcCfg n) = true ∧ (d.srcSet n).forced = none ∧
      (d.srcSet n).xfer = .idle ∧ ∃ o, (d.srcSet n).selected = some o ∧ sfPrio (d.srcCfg n) x < sfPrio (d.srcCfg n) o) ∧
    ((d.srcSet n).returnDue = false ∨ d.returnInput n = none → srcReturn d n = d.modSrc n fun r => { r with returnDue := false }) ∧
    (∀ o x, (d.srcSet n).returnDue = true → (d.srcSet n).selected = some o → d.returnInput n = some x →
      srcReturn d n = srcPlanned (d.modSrc n fun r => { r with returnDue := false }) n o x 4) ∧
    ((d.srcSet n).inNone = true → sfHoldup (d.srcCfg n) = true → d.bankCv2 n < (d.srcB n 6 0 16 : Int) * 20000000 * 2 ^ 46 →
      srcBankLow d n = srcBrownout d n)) ∧
  (∀ (s : State) (n x cause gap vbus tick : Nat), n < 2 → s.dev.live tSource n = false →
    (∀ c ∈ [Instr.srcQualified n x, .srcBlockingConfirmed n x, .srcConductionConfirmed n gap vbus, .srcStuck n, .srcFailed n,
      .srcAutoReturn n, .srcNoneTimeout n], Answers c s s.dev) ∧
    Answers (.srcLoss n x cause tick) s { s.dev with tickNow := none } ∧
    Answers (.srcWindowLoss n x tick) s { s.dev with tickNow := none }) ∧
  (∀ (s : State) (n x tick : Nat), n < 2 → s.dev.live tSource n = true →
    let r := s.dev.srcSet n
    let nothing : Dev := { s.dev with tickNow := none }
    let fails := s.dev.atTick tick fun d => srcMakeFails d n x .down
    ((r.input x).st ≠ .qualifying ∨ (r.input x).turns < s.dev.srcB n 2 0 16 → Answers (.srcQualified n x) s s.dev) ∧
    ((r.input x).st = .qualifying → s.dev.srcB n 2 0 16 ≤ (r.input x).turns →
      Answers (.srcQualified n x) s (srcSelect (s.dev.modIn n x fun i => i.enter .available) n)) ∧
    (∀ cause, (r.input x).st = .selected →
      let e := s.dev.modIn n x fun i => { i.enter .down with blocked := false }
      (∀ y, e.srcPick n = some y → ∃ d : Dev, Answers (.srcLoss n x cause tick) s d ∧ (d.srcSet n).selected = none ∧
        (d.srcSet n).old = some x ∧ (d.srcSet n).target = some y ∧ (d.srcSet n).cause = some cause ∧
        (d.srcSet n).turn = s.dev.wheel.turn ∧ (d.srcSet n).tick = tick % 65536 ∧
        (d.srcSet n).xfer = (if e.srcBlocked n y then .making else .breaking) ∧ (d.srcSet n).ins = (e.srcSet n).ins) ∧
      (e.srcPick n = none → s.dev.srcRuns n = false ∨ e.srcFloats n = true → ∃ d : Dev, Answers (.srcLoss n x cause tick) s d ∧
        d.srcSet n = { e.srcSet n with selected := none }) ∧
      (e.srcPick n = none → s.dev.srcRuns n = true → e.srcFloats n = false → s.dev.brownoutSeq n = none →
        ∃ d : Dev, Answers (.srcLoss n x cause tick) s d ∧ (d.srcSet n).selected = none ∧
        (d.srcSet n).xfer = .idle ∧ (d.srcSet n).inNone = true ∧ (d.srcSet n).huChg = false)) ∧
    (∀ cause, (r.input x).st ≠ .selected → r.xfer = .making → r.target = some x → Answers (.srcLoss n x cause tick) s fails) ∧
    (∀ cause, (r.input x).st ≠ .selected → r.xfer ≠ .making ∨ r.target ≠ some x → Answers (.srcLoss n x cause tick) s nothing) ∧
    ((r.input x).st ≠ .available → Answers (.srcWindowLoss n x tick) s nothing) ∧
    ((r.input x).st = .available → r.target ≠ some x ∨ r.xfer = .idle →
      Answers (.srcWindowLoss n x tick) s (s.dev.atTick tick fun d => d.modIn n x fun i => i.enter .down)) ∧
    ((r.input x).st = .available → r.xfer = .making → r.target = some x → Answers (.srcWindowLoss n x tick) s fails) ∧
    (∀ y, (r.input x).st = .available → r.xfer = .breaking → r.target = some x →
      (s.dev.modIn n x fun i => i.enter .down).srcPick n = some y →
      Answers (.srcWindowLoss n x tick) s (s.dev.atTick tick fun d =>
        (d.modIn n x fun i => i.enter .down).modSrc n fun r => { r with target := some y, next := true })) ∧
    ((r.input x).st = .selected ∨ (r.input x).st = .floating → Answers (.srcBlockingConfirmed n x) s s.dev) ∧
    ((r.input x).st ≠ .selected → (r.input x).st ≠ .floating →
      let e := s.dev.modIn n x fun i => { i with blocked := true }
      (∀ y, r.xfer = .breaking → r.target = some y → Answers (.srcBlockingConfirmed n x) s
        (if e.srcBlocked n y = true ∧ s.dev.srcRuns n = true then e.modSrc n fun r => { r with xfer := .making } else e)) ∧
      (r.xfer ≠ .breaking ∨ r.target = none → Answers (.srcBlockingConfirmed n x) s (srcSelect e n)))) ∧
  (∀ (s : State) (n : Nat), n < 2 → s.dev.live tSource n = true →
    let r := s.dev.srcSet n
    let h := s.dev.srcHandle n
    (r.xfer ≠ .making ∨ r.target = none → (∀ gap vbus, Answers (.srcConductionConfirmed n gap vbus) s s.dev) ∧
      Answers (.srcFailed n) s s.dev) ∧
    (∀ x gap vbus, r.xfer = .making → r.target = some x → (x = inBat ∨ s.dev.brownoutSeq n = none) →
      s.dev.planeHalted = false → (∀ w ∈ s.dev.waits, w.handle = h → w.kind = .enable) →
      ∃ d : Dev, Answers (.srcConductionConfirmed n gap vbus) s d ∧ (d.srcSet n).selected = some x ∧ (d.srcSet n).xfer = .idle ∧
        (d.srcSet n).inNone = false ∧ (d.srcSet n).brownStarted = false ∧ ((d.srcSet n).input x).st = .selected ∧
        ((d.srcSet n).input x).blocked = false ∧
        (∀ y, y ≠ x → (d.srcSet n).input y = r.input y) ∧ ∀ w ∈ d.waits, w.handle ≠ h) ∧
    (∀ x, r.xfer = .making → r.target = some x →
      Answers (.srcFailed n) s (srcMakeFails (s.dev.raise 0x0704 x h) n x .failed)) ∧
    (r.xfer ≠ .breaking ∨ r.old = none → Answers (.srcStuck n) s s.dev) ∧
    (∀ o, r.xfer = .breaking → r.old = some o → s.dev.brownoutSeq n = none → (∀ w ∈ s.dev.waits, w.handle = h → w.kind = .enable) →
      ∃ d : Dev, Answers (.srcStuck n) s d ∧ ((d.srcSet n).input o).st = .stuckOn ∧
      ((d.srcSet n).input o).blocked = false ∧ (d.srcSet n).xfer = .idle ∧ (d.srcSet n).selected = none) ∧
    (∀ x, s.dev.returnInput n = some x → Answers (.srcAutoReturn n) s (s.dev.modSrc n fun r => { r with returnDue := true })) ∧
    (s.dev.returnInput n = none → Answers (.srcAutoReturn n) s s.dev) ∧
    (r.inNone = false ∨ r.brownStarted = true → Answers (.srcNoneTimeout n) s s.dev) ∧
    (r.inNone = true → r.brownStarted = false →
      let e := s.dev.modSrc n fun r => { r with brownStarted := true }
      (s.dev.brownoutSeq n = none → Answers (.srcNoneTimeout n) s e) ∧
      (∀ q, s.dev.brownoutSeq n = some q → Answers (.srcNoneTimeout n) s (settle (seqOff e q 3 (some n)))))) ∧
  (∀ (d : Dev) (n x : Nat) (st : SrcState),
    let e := d.modIn n x fun i => { i.enter st with blocked := true }
    (∀ y, e.srcPick n = some y → srcMakeFails d n x st = e.modSrc n fun r => { r with xfer := .making, target := some y, next := true }) ∧
    (e.srcPick n = none → e.srcFloats n = false → d.brownoutSeq n = none →
      (∀ w ∈ d.waits, w.handle = d.srcHandle n → w.kind = .enable) → ((srcMakeFails d n x st).srcSet n).inNone = true ∧
      ((srcMakeFails d n x st).srcSet n).xfer = .idle ∧ ((srcMakeFails d n x st).srcSet n).selected = none ∧
      (((srcMakeFails d n x st).srcSet n).input x).st = st))

/-- From R261 to R263: the hold-up bank's charge path and release, its capacitance measurement, its bleed.
Where the rules leave a point open, the clauses follow the model's choices of log entries 19 and 97. -/
def Obligations.HoldUp : Prop :=
  (∀ s : State, s.dev.holdupSet = none → ∀ (on late : Bool) (time tick : Nat),
    (∀ c ∈ [Instr.holdupRelease on, .holdupChargeEnd, .holdupBleedGate time, .holdupBleedEnd late time], Answers c s s.dev) ∧
    Answers (.holdupBleedStart time tick) s { s.dev with tickNow := none }) ∧
  (∀ (s : State) (n : Nat), s.dev.holdupSet = some n →
    let r := s.dev.srcSet n
    let h := s.dev.srcHandle n
    let ws := s.dev.srcCfg n
    let off := (s.dev.slot tSource n).hstate = .disabled ∨ r.bleeding = true ∨ s.dev.sitter = true
    (∀ on, off → Answers (.holdupRelease on) s s.dev) ∧
    (∀ on, ¬off → Answers (.holdupRelease on) s (s.dev.modSrc n fun r => { r with huRel := on, huChg := r.huChg && !on })) ∧
    (r.charge.bind (chargeMeasure ws) = none →
      Answers .holdupChargeEnd s (s.dev.modSrc n fun r => { r with huChg := false, charge := none })) ∧
    (∀ m, r.charge.bind (chargeMeasure ws) = some m →
      let d := s.dev.modSrc n fun r => { r with cMeas := m, huChg := false, charge := none }
      let chu := field ws 30 0 16
      (s.dev.srcB n 6 16 16 ≤ m → Answers .holdupChargeEnd s d) ∧
      (m < s.dev.srcB n 6 16 16 → Answers .holdupChargeEnd s (d.raiseOnceRound (0x0705 * 4096 + n) 0x0705
        (if (m : Int) * (20000000 * s.dev.srcB n 5 0 16 - field ws 3 16 16 ^ 2 * chu) < 80000 * field ws 3 0 16 * chu then 1
         else 0) h))) ∧
    (∀ time tick, s.dev.bleedIsDue n = true → r.bleeding = false → ∃ d : Dev, Answers (.holdupBleedStart time tick) s d ∧
      d.src = (s.dev.modSrc n fun r => { r with
        bleeding := true, bleedDue := false, bleedLate := false, huChg := false, huRel := false
        bleedAt := max s.dev.now time }).src ∧ d.wit.commit ≠ none) ∧
    (∀ time tick, s.dev.bleedIsDue n = false ∨ r.bleeding = true →
      Answers (.holdupBleedStart time tick) s { s.dev with tickNow := none }) ∧
    (∀ time, r.bleeding = true → s.dev.wit.commit = none ∨ r.bleedAt + 1000000 ≤ time →
      Answers (.holdupBleedGate time) s (s.dev.modSrc n fun r => { r with huBlg := true })) ∧
    (∀ time, r.bleeding = false ∨ (s.dev.wit.commit ≠ none ∧ time < r.bleedAt + 1000000) → Answers (.holdupBleedGate time) s s.dev) ∧
    (∀ late time, r.bleeding = false → Answers (.holdupBleedEnd late time) s s.dev) ∧
    (∀ time, r.bleeding = true →
      let due := r.bleedAt + field ws 33 0 16 * 100000
      (r.bleedLate = true ∨ time < due → Answers (.holdupBleedEnd true time) s s.dev) ∧
      (r.bleedLate = false → due ≤ time → Answers (.holdupBleedEnd true time) s
        ((s.dev.modSrc n fun r => { r with bleedLate := true }).raise 0x0706 (fitU 16 (s.dev.bankMv10 n)) h)) ∧
      ((field ws 32 16 16 : Int) * 2 ^ 23 ≤ Config.bankFullScale * s.dev.bankVal n → Answers (.holdupBleedEnd false time) s s.dev) ∧
      (Config.bankFullScale * s.dev.bankVal n < (field ws 32 16 16 : Int) * 2 ^ 23 →
        ∃ d : Dev, Answers (.holdupBleedEnd false time) s d ∧
        (s.dev.hasWait .disable h = false → s.dev.hasWait .destroyForce h = false →
          d = s.dev.modSrc n fun r => { r with bleeding := false, huBlg := false }) ∧
        (s.dev.hasWait .disable h = true → s.dev.hasWait .destroyForce h = false →
          (s.dev.slot tSource n).hstate ≠ .fenced → (d.slot tSource n).hstate = .disabled ∧ (d.srcSet n).huBlg = false ∧
          (d.srcSet n).stopping = false ∧ d.hasWait .disable h = false)))) ∧
  (∀ (d : Dev) (n : Nat), ((srcCharge d n).srcSet n).huChg = (
    d.srcRuns n && !(d.srcSet n).inNone && !(d.srcSet n).huRel && !(d.srcSet n).bleeding && !(d.srcSet n).bleedDue && !d.sitter &&
      decide (d.bankCv2 n < ((d.srcB n 5 0 16 : Int) - (if (d.srcSet n).huChg then 0 else (d.srcB n 5 16 16 : Int))) * 20000000 * 2 ^ 46)))

/-! ### Strings (spec 10, 11) -/

/-- From R300, R303, R308 to R310, R317, R318: the estimator steps each enabled string once a turn while the management plane runs; an
impedance window closes; the cut-off latch holds BAT off; hibernation and reduced sampling stop the group, and the assigned turn
starts it.
Where the rules leave a point open, the clauses follow the model's choices of log entries 88 and 90. -/
def Obligations.StringEvents : Prop :=
  (∀ s : State, (s.dev.plane.mgmtRunning = false ∨
        (∀ i ∈ s.dev.liveIndices tString, s.dev.enabled tString i = false ∨ (s.dev.str i).stepDue = false) →
      Answers .estimatorStep s s.dev) ∧
    (s.dev.plane.mgmtRunning = true → Answers .estimatorStep s
      (((s.dev.liveIndices tString).filter fun i => s.dev.enabled tString i && (s.dev.str i).stepDue).foldl battStep s.dev))) ∧
  (∀ (d : Dev) (i : Nat), d.setOfInput inBat = none →
    let r := d.str i
    let e := (battStep d i).str i
    e.qStep = r.qEnd ∧ e.disStep = r.disEnd ∧ e.bStep = r.bEnd ∧ e.stepTurn = d.wheel.turn - 1 ∧ e.q = r.q ∧ e.stepDue = false ∧
    (e.age = r.age + 1 ∨ e.age = 0 ∧ e.anchorTurn = d.wheel.turn - 1 ∧ e.unanchored = false ∧ e.disagree = false) ∧
    (r.cutStep = true → e.soc = 0 ∧ e.u = 2 ^ 48 / 100 ∧ e.service = .recovery ∧ e.disagree = false ∧ e.cutStep = false)) ∧
  (∀ (s : State) (i : Nat), i < 8 → s.dev.live tString i = false →
    ∀ c ∈ [Instr.battUnanchored i, .impedanceWindowClose i, .battCutoff i, .cutoffRelease i, .battHibernate i,
      .reducedSampling i, .reducedSamplingTurn i], Answers c s s.dev) ∧
  (∀ (s : State) (i : Nat), i < 8 → s.dev.live tString i = true →
    let r := s.dev.str i
    let w := r.zWin
    let works := s.dev.enabled tString i && s.dev.plane.mgmtRunning
    let due := works && decide (s.dev.anchorMax i ≤ r.age) && !r.unanchored
    let full := works && decide (s.dev.battP i 5 0 16 50 ≤ w.turns)
    (due = false → Answers (.battUnanchored i) s s.dev) ∧
    (due = true → Answers (.battUnanchored i) s
      ((s.dev.modStr i fun r => { r with unanchored := true, unSteps := 0 }).raise 0x0903 1 (s.dev.strHandle i))) ∧
    (full = false → Answers (.impedanceWindowClose i) s s.dev) ∧
    (full = true → 2 * w.used2 < w.turns → 2 * w.used6 < w.turns → r.service ≠ .start →
      Answers (.impedanceWindowClose i) s (s.dev.modStr i fun r => { r with zWin := {} })) ∧
    (full = true → ∃ d, Answers (.impedanceWindowClose i) s d ∧ (d.str i).zWin = {} ∧
      d.src = s.dev.src ∧ d.pwm = s.dev.pwm ∧
      (r.service ≠ .start → d.acq = s.dev.acq ∧ (w.turns ≤ 2 * w.used2 → w.w2 ≠ 0 → (d.str i).zValid = true)) ∧
      (2 ^ 48 / 10 < r.u → d.kiln.impedance = s.dev.kiln.impedance))) ∧
  (∀ (w : ZWin) (ok : Bool) (ripMin : Nat) (c v : Cx × Cx),
    let e := w.add ok ripMin c v
    let lim := (ripMin * 1000000) ^ 2
    e.turns = w.turns + 1 ∧ (ok = false → e = { w with turns := w.turns + 1 }) ∧
    (ok = true → e.used2 = w.used2 + (if lim ≤ c.1.sq then 1 else 0) ∧ e.used6 = w.used6 + (if lim ≤ c.2.sq then 1 else 0))) ∧
  (∀ (s : State) (i : Nat), i < 8 → s.dev.live tString i = true →
    let r := s.dev.str i
    let trips := (s.dev.slot tString i).hstate ≠ .disabled ∧ r.cut = false ∧
      (field (s.dev.strCfg i) 10 16 16 * 8192 ≤ r.cutTime.1 ∨ field (s.dev.strCfg i) 10 16 16 * 8192 ≤ r.cutTime.2.1 ∨
        field (s.dev.strCfg i) 10 16 16 * 8192 ≤ r.cutTime.2.2)
    let e := (s.dev.modStr i fun r => { r with cut := true, cutStep := true }).raise 0x0901
      (fitU 16 (roundOpen (s.dev.strVolt i * 125) (2 ^ 23 * 100))) (s.dev.strHandle i)
    (¬trips → Answers (.battCutoff i) s s.dev) ∧
    (trips → s.dev.setOfInput inBat = none → Answers (.battCutoff i) s e) ∧
    (∀ n, trips → s.dev.setOfInput inBat = some n → Answers (.battCutoff i) s (srcBatHold e n)) ∧
    (∀ n x, s.dev.setOfInput inBat = some n → (s.dev.srcSet n).selected = some x → x ≠ inBat →
      (r.cut = true → field (s.dev.strCfg i) 11 0 16 ≤ ((s.dev.srcSet n).input x).turns →
        Answers (.cutoffRelease i) s (s.dev.modStr i fun r => { r with cut := false })) ∧
      (((s.dev.srcSet n).input x).turns < field (s.dev.strCfg i) 11 0 16 → Answers (.cutoffRelease i) s s.dev)) ∧
    (r.cut = false ∨ s.dev.setOfInput inBat = none → Answers (.cutoffRelease i) s s.dev) ∧
    (∀ n, s.dev.setOfInput inBat = some n → (s.dev.srcSet n).selected = none ∨ (s.dev.srcSet n).selected = some inBat →
      Answers (.cutoffRelease i) s s.dev)) ∧
  (∀ (d : Dev) (n : Nat), d.brownoutSeq n = none →
    (((srcBatHold d n).srcSet n).input inBat).st ∈ [SrcState.down, .failed, .stuckOn] ∧
    (((d.srcSet n).input inBat).st = .selected → srcBatHold d n = srcLost d n inBat 1)) ∧
  (∀ (s : State) (i : Nat), i < 8 → s.dev.live tString i = true →
    let r := s.dev.str i
    let g := s.dev.strGroup i
    let can := s.dev.enabled tString i = true ∧ r.power = .awake ∧ groupOwn s.dev i = true
    (s.dev.plane.profile.hibernate = none → Answers (.battHibernate i) s s.dev) ∧
    (∀ n, s.dev.plane.profile.hibernate = some n → (¬can ∨ r.service ≠ .normal ∨ r.lowTurns < n ∨ r.cutTime ≠ (0, 0, 0)) →
      Answers (.battHibernate i) s s.dev) ∧
    (∀ n, s.dev.plane.profile.hibernate = some n → can → r.service = .normal → n ≤ r.lowTurns → r.cutTime = (0, 0, 0) →
      ∃ d, Answers (.battHibernate i) s d ∧ (d.str i).power = .hibernating ∧ g ∈ d.acq.pdStopped ∧
        (r.learn.st = .running → (d.str i).learn.st = .idle ∧ (d.str i).learn.last = 5) ∧ (d.str i).q = r.q) ∧
    let slow := can ∧ r.service ≠ .normal ∧ r.reduced = false ∧ 16 ≤ r.lowTurns ∧ s.dev.plane.profile ≠ .raku
    (¬slow → Answers (.reducedSampling i) s s.dev) ∧
    (slow → ∃ d, Answers (.reducedSampling i) s d ∧ (d.str i).power = .stopped ∧ (d.str i).reduced = true ∧
      g ∈ d.acq.pdStopped ∧ d = { s.dev with strs := d.strs, acq := d.acq, tal := d.tal }) ∧
    let wakes := r.reduced = true ∧ r.power = .stopped ∧ (s.dev.wheel.turn.toNat + 1) % 16 = i
    (¬wakes → Answers (.reducedSamplingTurn i) s s.dev) ∧
    (wakes → ∃ d, Answers (.reducedSamplingTurn i) s d ∧ (d.str i).power = .settling ∧ (d.str i).reduced = true ∧
      g ∉ d.acq.pdStopped ∧ (s.dev.acq.pdStopped.contains g = true → ∀ k < 4, (d.pdChan (4 * g + k)).settling = true)))

/-! ### The Ledger and the tallies (spec 10, 19) -/

/-- From R272 to R285, R290, R497 to R504: a close balances the turn that waits and judges it against the bound; the alarm follows
UNMET_TURNS; the close of a round's last turn latches the round. A gather, the captured reads, CLEAR and FREEZE of a fallback set, CLEAR of the tags.
Where the rules leave a point open, the clauses follow the model's choices of log entries 46, 56 and 57. -/
def Obligations.LedgerAndTallies : Prop :=
  (∀ (s : State) (p h v : Nat),
    (s.dev.led.waiting = none → Answers (.ledgerClose p h v) s s.dev) ∧
    (∀ t, s.dev.led.waiting = some t → t.latch = none → s.dev.led.fenced = true →
      Answers (.ledgerClose p h v) s (s.dev.modLed fun l => { l with waiting := none, unmet := t.unmet })) ∧
    (∀ t n, s.dev.led.waiting = some t → t.latch = some n → s.dev.led.fenced = false →
      ∃ d : Dev, Answers (.ledgerClose p h v) s d ∧ d.led.waiting = none ∧ d.led.latched = true ∧ d.led.round = {} ∧
        (d.led.lastClosed = true ↔ t.reason = 0) ∧ d.led.unmet = t.unmet) ∧
    (∀ t, s.dev.led.waiting = some t → t.latch = none → s.dev.led.fenced = false → t.reason ≠ 0 →
      ∃ d : Dev, Answers (.ledgerClose p h v) s d ∧ d.led.waiting = none ∧ d.led.lastClosed = false ∧ d.led.count = s.dev.led.count ∧
        d.led.good = s.dev.led.good ∧ d.led.round.turns = s.dev.led.round.turns + 1 ∧ d.led.round.closed = s.dev.led.round.closed ∧
        (s.dev.led.lastClosed = false → d.host = s.dev.host)) ∧
    (∀ t, s.dev.led.waiting = some t → t.latch = none → s.dev.led.fenced = false → t.reason = 0 →
      let as := t.accounts.map fun a => if a.kind = 0x0A then { a with value := ownEnergy t p h v } else a
      let bat := usedSum as (fun a => a.kind == 1 && a.index == inBat) - usedSum as fun a => a.kind == 2
      let inp := usedSum as (fun a => a.kind == 1 && a.index != inBat) + bat
      let out := usedSum as fun a => a.kind == 4 || a.kind == 5 || a.kind == 6
      let loss := usedSum as fun a => a.kind == 8 || a.kind == 9 || a.kind == 0x0A
      let stored := usedSum as fun a => a.kind == 0x0B
      let res := inp - out - loss - stored
      let thr := sumInt ((as.filter fun a => a.used && a.kind == 1 && a.index != inBat).map fun a => max a.value 0) +
        max bat 0 + max (-stored) 0
      let bound := (t.profile.ledgerBound.1 * thr + t.profile.ledgerBound.2 * 1000 * 65536 * 10000).toNat
      let excused := t.excuse ≠ 0 ∨ ∃ a ∈ as, a.used = true ∧ a.est = true
      ∃ d : Dev, Answers (.ledgerClose p h v) s d ∧ d.led.waiting = none ∧ d.led.lastClosed = true ∧ d.led.unmet = t.unmet ∧
        d.led.round.turns = s.dev.led.round.turns + 1 ∧ d.led.round.closed = s.dev.led.round.closed + 1 ∧
        d.led.round.inp = s.dev.led.round.inp + inp ∧ d.led.round.out = s.dev.led.round.out + out ∧
        d.led.round.loss = s.dev.led.round.loss + loss ∧ d.led.round.stored = s.dev.led.round.stored + stored ∧
        d.led.round.residual = s.dev.led.round.residual + res ∧ (d.led.lastNegative = true ↔ res < 0) ∧
        (excused → d.led.count = s.dev.led.count ∧ d.led.good = s.dev.led.good ∧ d.led.round.isOver = s.dev.led.round.isOver ∧
          d.led.round.resAudited = s.dev.led.round.resAudited) ∧
        (¬excused → bound < res.natAbs * 10000 →
          d.led.count = s.dev.led.count + 1 ∧ d.led.good = 0 ∧ d.led.round.isOver = s.dev.led.round.isOver + 1) ∧
        (¬excused → res.natAbs * 10000 ≤ bound →
          d.led.count = 0 ∧ d.led.good = s.dev.led.good + 1 ∧ d.led.round.isOver = s.dev.led.round.isOver))) ∧
  (∀ s : State,
    let l := s.dev.led
    let on := l.fenced = false ∧ l.alarm = false ∧ l.unmet ≤ l.count
    let off := l.fenced = false ∧ l.alarm = true ∧ l.unmet ≤ l.good
    (¬on → ¬off → Answers .ledgUnmetered s s.dev) ∧
    (on → ∃ d : Dev, Answers .ledgUnmetered s d ∧ d.led.alarm = true ∧ d.led.good = 0 ∧ d.led.count = l.count ∧
      (l.latched = false → d.led.round.declared = true)) ∧
    (off → ∃ d : Dev, Answers .ledgUnmetered s d ∧ d.led.alarm = false ∧ d.led.good = 0 ∧ d.led.count = 0)) ∧
  (∀ s : State,
    (s.dev.sag.fenced.contains 4 = true ∨ s.dev.wheel.turn.toNat % s.dev.plane.profile.gather ≠ 0 →
      Answers .tallyGather s s.dev) ∧
    (s.dev.sag.fenced.contains 4 = false → s.dev.wheel.turn.toNat % s.dev.plane.profile.gather = 0 →
      ∃ d : Dev, Answers .tallyGather s d ∧ d = { s.dev with tal := d.tal } ∧ d.tal.total = s.dev.tal.total ∧
        d.tal.gather = tallyHeader s.dev (s.dev.tal.coast || s.dev.wheel.coastFlag) (s.dev.tal.slew || s.dev.wheel.slewFlag)
          false 12288 2400 ++ tallyEntries d)) ∧
  (∀ (s : State) (k : Nat), k < 8 → s.dev.host.link ≠ .ready → ∀ j, j < 6 →
    ∀ c ∈ [Instr.tallyFbCycLoRead k, .tallyFbCntRead k j, .tallyFbClear k, .tallyFbFreeze k true, .tallyFbFreeze k false,
      .tallyTagClear], Answers c s s.dev) ∧
  (∀ (s : State) (k : Nat), k < 8 → s.dev.host.link = .ready →
    let o := s.dev.fbSet k
    (∃ d : Dev, Answers (.tallyFbCycLoRead k) s d ∧ d.host.rdData = BitVec.ofNat 32 (d.fbSet k).cyc ∧
      (d.fbSet k).hi = BitVec.ofNat 32 ((d.fbSet k).cyc / 2 ^ 32) ∧
      (o.freeze = true → (d.fbSet k).cyc = o.cyc ∧ (d.fbSet k).cnt = o.cnt) ∧
      (o.freeze = false → (d.fbSet k).cyc = (o.cyc + (s.dev.now - o.since) * (if k < 4 then 4 else 16)) % 2 ^ 64) ∧
      ∀ j, j ≠ k → d.fbSet j = s.dev.fbSet j) ∧
    (∀ j, j < 6 → j < o.cntHi.length → ∃ d : Dev, Answers (.tallyFbCntRead k j) s d ∧
      d.host.rdData = BitVec.ofNat 32 ((d.fbSet k).cnt.getD j 0) ∧ (d.fbSet k).cntHi.getD j 0 = (d.fbSet k).cnt.getD j 0 / 2 ^ 32 ∧
      (o.freeze = true → (d.fbSet k).cnt = o.cnt)) ∧
    (∃ d : Dev, Answers (.tallyFbClear k) s d ∧ (d.fbSet k).cyc = 0 ∧ (d.fbSet k).cnt = [0, 0, 0, 0, 0, 0] ∧
      (d.fbSet k).freeze = o.freeze ∧ (d.fbSet k).hi = o.hi) ∧
    (∀ on, ∃ d : Dev, Answers (.tallyFbFreeze k on) s d ∧ (d.fbSet k).freeze = on ∧ (o.freeze = true → (d.fbSet k).cnt = o.cnt)) ∧
    Answers .tallyTagClear s { s.dev with tal := { s.dev.tal with tags := [], tagFull := false } })

/-! ### Sequences and FAULT_N (spec 12) -/

/-- From R340 to R342, R344, R347, R349, R351 to R356: what each event of an order does, from the state of the step that the order
is at; what a start request asks; an accepted low takes every joined sequence down.
Where the rules leave a point open, the clauses follow the model's choice of log entry 60. -/
def Obligations.SequenceOrders : Prop :=
  (∀ (s : State) (q step : Nat), q < 8 → s.dev.live tSeq q = false →
    ∀ c ∈ [Instr.seqDelayUpEnd q, .seqStepUp q, .seqDelayDownEnd q, .seqStepOff q, .seqRiseTimeout q, .seqFallTimeout q,
      .seqDschWinEnd q, .seqMemberFault q step, .seqMinOffEnd q, .faultnQuiet q], Answers c s s.dev) ∧
  (∀ d : Dev, (∀ q ∈ d.liveIndices tSeq, ∀ k < 32, (d.step q k).stuckSrc = false ∧ (d.step q k).drain = false) →
    d.plane.downRunning = none → d.plane.stopping = none → d.plane.wdFaultN = false → settle d = d) ∧
  (∀ (s : State) (q : Nat), q < 8 → s.dev.live tSeq q = true →
    let r := s.dev.sq q
    let k := r.cur
    let x := s.dev.step q k
    let st := s.dev.stepCfg q k
    (r.run = .rising ∧ x.st = .delay → Answers (.seqDelayUpEnd q) s (settle (beginStep s.dev q k))) ∧
    (r.run ≠ .rising ∨ x.st ≠ .delay → Answers (.seqDelayUpEnd q) s (settle s.dev)) ∧
    (r.run = .rising ∧ x.st = .starting ∧ stepIsUp s.dev st = true →
      Answers (.seqStepUp q) s (settle (delayUp 33 (s.dev.modStep q k fun x => { x with st := .up }) q (k + 1)))) ∧
    (r.run ≠ .rising ∨ x.st ≠ .starting ∨ stepIsUp s.dev st = false → Answers (.seqStepUp q) s (settle s.dev)) ∧
    (r.run = .rising ∧ x.st = .starting ∧ stRise st ≠ 0 → Answers (.seqRiseTimeout q) s (settle (failStep s.dev q k 1))) ∧
    (r.run ≠ .rising ∨ x.st ≠ .starting ∨ stRise st = 0 → Answers (.seqRiseTimeout q) s (settle s.dev)) ∧
    (r.run = .falling ∧ x.begun = true ∧ x.st.leaving = false →
      let d := stopStep s.dev q k
      Answers (.seqDelayDownEnd q) s (settle (if stepIsOff d (d.stepCfg q k) then seqAdvance (stepEnds d q k) q k false else d))) ∧
    (r.run ≠ .falling ∨ x.begun = false ∨ x.st.leaving = true → Answers (.seqDelayDownEnd q) s (settle s.dev)) ∧
    ((r.run = .falling ∨ r.run = .held) ∧ x.begun = true ∧ x.st.leaving = true ∧ stepIsOff s.dev st = true →
      Answers (.seqStepOff q) s (settle (stepOffGoesOn s.dev q k))) ∧
    (x.begun = false ∨ x.st.leaving = false ∨ stepIsOff s.dev st = false → Answers (.seqStepOff q) s (settle s.dev)) ∧
    (r.run = .falling → x.st = .stopping → stExt st = true → s.dev.plane.takeover = false →
      (∀ m, stMon st = some m → s.dev.isFenced tMon m = false) →
      ∃ d : Dev, Answers (.seqFallTimeout q) s (settle d) ∧ (d.step q k).late = true ∧ (d.step q k).st = .discharging ∧
        (∀ n, stDsch st = some n → n ∈ d.pwm.discharge)) ∧
    (r.run ≠ .falling ∨ x.st ≠ .stopping ∨ (stKind st ≠ 1 ∧ stExt st = false) → Answers (.seqFallTimeout q) s (settle s.dev)) ∧
    (r.run = .falling → x.begun = true → x.st = .discharging → scStrict (s.dev.seqCfg q) = false →
      Answers (.seqDschWinEnd q) s (settle (markStuck s.dev q k))) ∧
    (r.run = .falling → x.begun = true → x.st = .discharging → scStrict (s.dev.seqCfg q) = true →
      ∃ d : Dev, Answers (.seqDschWinEnd q) s (settle d) ∧ (d.sq q).run = .held ∧ (d.step q k).st = .held ∧
        d.hasWait .disable (s.dev.seqHandle q) = false) ∧
    (r.run ≠ .falling ∨ x.begun = false ∨ x.st ≠ .discharging → Answers (.seqDschWinEnd q) s (settle s.dev)) ∧
    Answers (.seqMinOffEnd q) s (settle (tryStart (s.dev.modSeq q fun r => { r with minOff := false }) q)) ∧
    (s.dev.seq.fn.low = true ∨ r.quiet = true → Answers (.faultnQuiet q) s (settle s.dev)) ∧
    (s.dev.seq.fn.low = false → r.quiet = false → Answers (.faultnQuiet q) s (settle (tryStart
      ((s.dev.modSeq q fun r => { r with quiet := true }).raise 0x0A08 (scQuiet (s.dev.seqCfg q)) 0) q)))) ∧
  (∀ (s : State) (q k : Nat), q < 8 → s.dev.live tSeq q = true →
    let r := s.dev.sq q
    let st := s.dev.stepCfg q k
    let reason := stepFaultReason s.dev st
    let hit := (r.run = .rising ∨ r.run = .on) ∧ k < scNstep (s.dev.seqCfg q) ∧ reason ≠ 0
    (¬hit → Answers (.seqMemberFault q k) s (settle s.dev)) ∧
    (hit → (s.dev.step q k).st = .starting → Answers (.seqMemberFault q k) s (settle (failStep s.dev q k reason))) ∧
    (hit → (s.dev.step q k).st ≠ .starting → stFatal st = true → Answers (.seqMemberFault q k) s (settle (ownFault s.dev q k reason))) ∧
    (hit → (s.dev.step q k).st ≠ .starting → stFatal st = false →
      Answers (.seqMemberFault q k) s (settle (markStep s.dev q k fun x => { x with member := true })))) ∧
  (∀ (d : Dev) (q : Nat),
    let r := d.sq q
    let may := r.pending = true ∧ r.run = .off ∧ d.isFenced tSeq q = false ∧ quietPassed d q = true ∧ r.minOff = false ∧
      (∀ n, r.brownHold = some n → d.setOnMains n = true) ∧ d.sitter = false
    (¬may → tryStart d q = d) ∧
    (may → stDelayUp (d.stepCfg q 0) ≠ 0 → 0 < scNstep (d.seqCfg q) →
      ((tryStart d q).sq q).run = .rising ∧ ((tryStart d q).sq q).pending = false ∧ ((tryStart d q).sq q).cur = 0 ∧
      ((tryStart d q).step q 0).st = .delay ∧ ((d.slot tSeq q).hstate ≠ .fenced → ((tryStart d q).slot tSeq q).hstate = .enabled))) ∧
  (∀ (d : Dev) (q cause : Nat) (brown : Option Nat),
    ((d.sq q).run ≠ .rising → (d.sq q).run ≠ .on → seqOff d q cause brown = d) ∧
    ((d.sq q).run = .rising ∨ (d.sq q).run = .on → (∀ k < 32, (d.step q k).begun = false) → (d.sq q).lock = false →
      d.hasWait .destroyForce (d.seqHandle q) = false →
      let e := seqOff d q cause brown
      (e.sq q).run = .off ∧ (e.sq q).cause = cause ∧ (e.sq q).minOff = true ∧ (e.sq q).ownFault = false)) ∧
  (∀ (s : State) (time : Nat),
    let now := max s.dev.now time
    (s.dev.seq.fn.low = false → Answers (.faultnHigh time) s { s.dev with now := now }) ∧
    (s.dev.seq.fn.low = true → Answers (.faultnHigh time) s { s.dev with now := now, seq := { s.dev.seq with
      fn := { s.dev.seq.fn with low := false, lowTurn := false, highSince := now } } }) ∧
    (s.dev.seq.fn.low = true → Answers (.faultnLow time) s { s.dev with now := now }) ∧
    (s.dev.seq.fn.low = false →
      let own := s.dev.faultSources s.dev.srcStuckSource != 0
      let e : Dev := { s.dev with now := now, seq := { s.dev.seq with
        fn := { s.dev.seq.fn with low := true, edges := s.dev.seq.fn.edges + 1
                                  cycles := (now :: s.dev.seq.fn.cycles).filter fun t => decide (now < t + 100000000) }
        seqs := tmapAll {} s.dev.seq.seqs fun _ r => { r with quiet := false } } }
      let f := (s.dev.liveIndices tSeq).foldl (fun d q =>
        if scJoin (d.seqCfg q) then seqOff d q (if own then 1 else 2) none else d) (e.raise 0x0A07 (if own then 1 else 0) 0)
      (f.cycles1s < 5 → Answers (.faultnLow time) s ((settle f).attend 1)) ∧
      (5 ≤ f.cycles1s → Answers (.faultnLow time) s ((settle ((f.liveIndices tSeq).foldl chatterLock f)).attend 1))))

/-! ### Kiln and the black box (spec 13, 16) -/

/-- From R365 to R367, R372, R373, R375, R376, R435 to R438: a good conversion sets the levels of a remote sensor's comparators, and a
comparator's change is noted; a confirmed Cone acts by its number; the Sitter trips and releases; a bias fault breaks a remote
sensor; a throttle is the lowest over the zones. A trigger starts a commit, or is counted while one runs; its end writes the
records and the image.
Where the rules leave a point open, the clauses follow the model's choices of log entries 61 and 91. -/
def Obligations.KilnAndBlackBox : Prop :=
  (∀ (s : State) (value : Int) (uv n : Nat) (biasOk : Bool) (rest : List Nat), s.dev.acq.tdQueue = n :: rest →
    s.dev.live tSensor n = true → ∃ d : Dev, Answers (.tdConversionDone value uv false false false biasOk) s d ∧
      (d.sens n).base = some (uv, satSigned 16 value) ∧ d.acq.tdQueue = rest) ∧
  (∀ (d : Dev) (n c : Nat) (rel : Bool), n < 16 →
    ((d.sens n).base = none → d.coneLevel n c rel = none) ∧
    (∀ v t, (d.sens n).base = some (v, t) →
      d.coneLevel n c false = some (128 * (v : Int) - (bits ((d.slot tSensor n).w 2) 0 16 : Nat) * (d.coneThreshold n c - t)) ∧
      d.coneLevel n c true = some (128 * (v : Int) - (bits ((d.slot tSensor n).w 2) 0 16 : Nat) *
        (d.coneThreshold n c - 128 * (d.coneHyst n c : Int) - t)))) ∧
  (∀ (s : State) (n c uv : Nat) (rel : Bool), n < 20 → c < 3 →
    let m := BitVec.ofNat 3 (2 ^ c)
    let st := (s.dev.coneLevel n c rel).any fun v => if rel then decide (v < 128 * (uv : Int)) else decide (128 * (uv : Int) < v)
    ∃ d : Dev, Answers (.coneTrip n c rel uv) s d ∧ d = { s.dev with heat := d.heat } ∧ (d.cones n).conf = (s.dev.cones n).conf ∧
      (rel = true → (d.cones n).trip = (s.dev.cones n).trip ∧
        (d.cones n).rel = (if st then (s.dev.cones n).rel ||| m else (s.dev.cones n).rel &&& ~~~m)) ∧
      (rel = false → (d.cones n).rel = (s.dev.cones n).rel ∧
        (d.cones n).trip = (if st then (s.dev.cones n).trip ||| m else (s.dev.cones n).trip &&& ~~~m)) ∧
      ∀ k, k ≠ n → d.cones k = s.dev.cones k) ∧
  (∀ (s : State) (n c tick : Nat), n < 20 → c < 3 →
    let x := s.dev.cones n
    let h := s.dev.sensHandle n
    let conf := x.conf.toNat / 2 ^ c % 2 = 1
    let trips := s.dev.coneArmed n = true ∧ ¬conf ∧ x.trip.toNat / 2 ^ c % 2 = 1
    let releases := conf ∧ x.rel.toNat / 2 ^ c % 2 = 1
    let on := fun (d : Dev) => (setCone d n c true).tally 44 2 1
    let off := fun (d : Dev) => setCone d n c false
    (¬trips → ¬releases → Answers (.coneConfirm n c tick) s { s.dev with tickNow := none }) ∧
    (trips → c = 0 → Answers (.coneConfirm n c tick) s (s.dev.atTick tick fun d => (on d).raise 0x0B01 1 h)) ∧
    (trips → c = 1 → Answers (.coneConfirm n c tick) s (s.dev.atTick tick fun d => kilnApply h (on d))) ∧
    (trips → c = 2 → s.dev.sitter = true → Answers (.coneConfirm n c tick) s (s.dev.atTick tick fun d => noteC3 (on d) n)) ∧
    (trips → c = 2 → s.dev.sitter = false →
      Answers (.coneConfirm n c tick) s (s.dev.atTick tick fun d => (sitterTrip n (on d)).attend 2)) ∧
    (releases → c = 0 → Answers (.coneConfirm n c tick) s (s.dev.atTick tick fun d => (off d).raise 0x0B01 0 h)) ∧
    (releases → c = 1 → Answers (.coneConfirm n c tick) s (s.dev.atTick tick fun d => kilnApply h (off d))) ∧
    (releases → c = 2 → Answers (.coneConfirm n c tick) s (s.dev.atTick tick off))) ∧
  (∀ (d : Dev) (n : Nat), (∀ t ∈ [tRail, tFeed, tBranch, tSource, tString, tSeq], d.liveIndices t = []) →
    d.plane.downRunning = none → d.plane.stopping = none → d.plane.wdFaultN = false →
    let e := sitterTrip n d
    e.sitter = true ∧ e.heat.episode = [n] ∧ e.kiln.sitter.count = satAdd 8 d.kiln.sitter.count 1 ∧
    e.kiln.sitter.older = d.kiln.sitter.newer ∧ e.pwm = d.pwm) ∧
  (∀ s : State,
    (s.dev.sitter = false ∨ s.dev.c3Confirmed = true → Answers .sitterRelease s s.dev) ∧
    (s.dev.sitter = true → s.dev.c3Confirmed = false → s.dev.liveChans = [] → s.dev.liveIndices tSeq = [] →
      ∃ d : Dev, Answers .sitterRelease s d ∧ d.sitter = false ∧ d.kiln.sitter.count = satAdd 8 s.dev.kiln.sitter.count 1 ∧
        d.heat = s.dev.heat ∧ d.twb.alert = true)) ∧
  (∀ (s : State) (n : Nat), n < 16 →
    (s.dev.enabled tSensor n = false → Answers (.sensorBiasFault n) s s.dev) ∧
    (s.dev.enabled tSensor n = true → ∃ d : Dev, Answers (.sensorBiasFault n) s d ∧ (d.sens n).broken = true ∧
      (d.sens n).armed = false ∧ (d.sens n).good = 0 ∧ (d.cones n).conf = 0 ∧ d.wheel = s.dev.wheel ∧ d.slots = s.dev.slots)) ∧
  (∀ (d : Dev) (h : Word), (∀ i ∈ d.liveIndices tRail, ((kilnApply h d).rail i).throttlePct = kilnPct d (d.railHandle i)) ∧
    ∀ i ∈ d.liveIndices tFeed, i < 40 → ((kilnApply h d).chan i).throttlePct = kilnPct d (d.chanHandle i)) ∧
  (∀ (s : State) (tick : Nat),
    (s.dev.wit.armed = false → Answers (.blackBoxTrigger tick) s { s.dev with tickNow := none }) ∧
    (s.dev.wit.armed = true → s.dev.wit.commit ≠ none → Answers (.blackBoxTrigger tick) s
      { s.dev with tickNow := none, wit := { s.dev.wit with ignored := satAdd 16 s.dev.wit.ignored 1, armed := false } }) ∧
    (s.dev.wit.armed = true → s.dev.wit.commit = none →
      Answers (.blackBoxTrigger tick) s (s.dev.atTick tick fun d => Dev.raise { d with wit := { d.wit with
        commit := some 1, trigTurn := d.wheel.turn, trigTick := tick % 65536, lastOk := false, armed := false } } 0x0F03 257 0)) ∧
    (s.dev.wit.commit = none → Answers .blackBoxCommitDone s s.dev) ∧
    (∀ cause, s.dev.wit.commit = some cause → ∃ d : Dev, Answers .blackBoxCommitDone s d ∧ d.wit.commit = none ∧
      d.wit.lastOk = true ∧ d.kiln.blackBox.count = satAdd 8 s.dev.kiln.blackBox.count 1 ∧
      d.kiln.blackBox.older = s.dev.kiln.blackBox.newer ∧ d.kiln.blackBox.newer.take 2 = [0x01, BitVec.ofNat 8 cause] ∧
      (∀ i, { d.str i with bSave := (s.dev.str i).bSave } = s.dev.str i) ∧
      (∀ i, i ∉ s.dev.liveIndices tString → tget {} d.kiln.strings i = tget {} s.dev.kiln.strings i) ∧
      (∀ n, s.dev.holdupSet = some n → (s.dev.srcSet n).bleeding = true → (d.srcSet n).huBlg = true)) ∧
    Answers .blackBoxRearm s { s.dev with wit := { s.dev.wit with armed := true } })

/-! ### Saggars, SRAM and the Flue's lanes (spec 14) -/

/-- From R381, R382, R388 to R400: a fence is counted, a unit is fenced once; a bank is rebuilt or, on a repeat, retired; a lane that
fails too often is retired; a line read is corrected, reconstructed or poisoned, and a write keeps P (R396, R397); the inner code
gives every word back, corrects every single-bit error of its 72 bits and detects every double-bit error (R394).
Where the rules leave a point open, the clauses follow the model's choices of log entries 64 and 92. -/
def Obligations.FencesAndMemory : Prop :=
  (∀ (d : Dev) (u cause : Nat),
    (fenceUnit u cause d).sag.fences = satAdd 32 d.sag.fences 1 ∧
    (u ∈ d.sag.fenced → fenceUnit u cause d = { d with sag := { d.sag with fences := satAdd 32 d.sag.fences 1 } }) ∧
    (u ∉ d.sag.fenced → u ∈ (fenceUnit u cause d).sag.fenced ∧ tget 0 (fenceUnit u cause d).sag.cause u = cause ∧
      (u = 6 → (fenceUnit u cause d).led.fenced = true) ∧
      (u ≤ 3 → (∀ v < 4, v ≠ u → v ∈ d.sag.fenced) → (fenceUnit u cause d).plane.mgmtRunning = false))) ∧
  (∀ (s : State) (u : Nat), u < 11 →
    (u = 9 → Answers (.unitWatchdog u) s s.dev) ∧ (u ≠ 9 → Answers (.unitWatchdog u) s (fenceUnit u 9 s.dev))) ∧
  (∀ s : State,
    (∃ d : Dev, Answers .fireboxSilence s d ∧ 9 ∈ d.sag.fenced ∧ d.sag.fences = satAdd 32 s.dev.sag.fences 1 ∧
      (9 ∉ s.dev.sag.fenced → d.sag.known = knownValues s.dev ∧ tget 0 d.sag.cause 9 = 8)) ∧
    (9 ∈ s.dev.sag.fenced ∨ s.dev.plane.takeover = false ∨ s.dev.plane.hearthRestarted = true →
      Answers .flueTakeoverReport s s.dev) ∧
    (9 ∉ s.dev.sag.fenced → s.dev.plane.takeover = true → s.dev.plane.hearthRestarted = false →
      ∃ d : Dev, Answers .flueTakeoverReport s d ∧ 9 ∈ d.sag.fenced ∧ d.sag.known = knownValues s.dev)) ∧
  (∀ (s : State) (b : Nat), b < 17 →
    let r := s.dev.sram
    let again := ∃ t, (b, t) ∈ r.rebuildEnd ∧ (s.dev.wheel.turn - t).toNat ≤ 1024
    (s.dev.bankDown b = true ∨ (again ∧ r.retired ≠ []) → Answers (.bankRebuild b) s s.dev) ∧
    (s.dev.bankDown b = false → again → r.retired = [] → ∃ d : Dev, Answers (.bankRebuild b) s d ∧ d.sram.retired = [b] ∧
      d.sram.rebuilding = r.rebuilding) ∧
    (s.dev.bankDown b = false → ¬again → Answers (.bankRebuild b) s { s.dev with sram := { r with
      rebuilding := tinsert r.rebuilding b 0, rebuiltPass := tdrop r.rebuiltPass b } })) ∧
  (∀ (s : State) (n run : Nat), n < 32 →
    (n ∈ s.dev.lanes.retired → Answers (.flueCrcFail n run) s s.dev) ∧
    (n ∉ s.dev.lanes.retired → run < 16 → tget 0 s.dev.lanes.fails n < 1024 →
      ∃ d : Dev, Answers (.flueCrcFail n run) s d ∧ d.lanes.retries = s.dev.lanes.retries + 1 ∧
        tget 0 d.lanes.fails n = tget 0 s.dev.lanes.fails n + 1 ∧ d.lanes.retired = s.dev.lanes.retired ∧
        d = { s.dev with lanes := d.lanes, tal := d.tal }) ∧
    (n ∉ s.dev.lanes.retired → 16 ≤ run ∨ 1024 ≤ tget 0 s.dev.lanes.fails n →
      ∃ d : Dev, Answers (.flueCrcFail n run) s d ∧ d.lanes.retries = s.dev.lanes.retries + 1 ∧ n ∈ d.lanes.retired ∧
        (s.dev.lanes.retired = [] → d.sag.fenced = s.dev.sag.fenced))) ∧
  (∀ (s : State) (es : List LineEvent), ∃ d : Dev, Answers (.scrub es) s d ∧
    let stripe := 8 * (s.dev.wheel.turn.toNat % 1024)
    d.sram.stripe = (stripe + 8) % 8192 ∧
    (stripe + 8 = 8192 → d.sram.passes = satAdd 32 s.dev.sram.passes 1 ∧ d.sram.passTurn = s.dev.wheel.turn ∧ d.sram.rebuiltPass = []) ∧
    (stripe + 8 ≠ 8192 → d.sram.passes = s.dev.sram.passes ∧ d.sram.passTurn = s.dev.sram.passTurn) ∧
    (es = [] → s.dev.sram.lines = [] → s.dev.sram.rebuilding = [] → s.dev.sram.retired = [] →
      d = { s.dev with sram := d.sram, tal := d.tal } ∧ d.sram.poisoned = s.dev.sram.poisoned ∧ d.sram.lines = [] ∧
      d.sram.rebuilt = s.dev.sram.rebuilt)) ∧
  (∀ (s : State) (r : LineRead), r.bank < 17 → r.index < 8192 →
    let b := r.bank
    let i := r.index
    let x := readWords (s.dev.storedLine b i).words
    let own := s.dev.modLine b i fun l => { l with owner := r.owner }
    let bad := x.good = false ∨ s.dev.bankDown b = true
    (s.dev.linePoisoned b i = false → ¬bad → Answers (.sramLineRead [] r) s (noteRead b x own)) ∧
    (s.dev.linePoisoned b i = false → bad → (reconstruct b i s.dev).1 ≠ none →
      ∃ d : Dev, Answers (.sramLineRead [] r) s d ∧ d.sram.rebuilt = satAdd 32 s.dev.sram.rebuilt 1 ∧
        d.sram.poisoned = s.dev.sram.poisoned ∧ d.sram.consumed = s.dev.sram.consumed ∧
        ∀ ws, (reconstruct b i s.dev).1 = some ws → b ∉ s.dev.sram.retired → (d.storedLine b i).words = storedWords ws) ∧
    (s.dev.linePoisoned b i = false → bad → (reconstruct b i s.dev).1 = none → r.reader ≠ .owner →
      (∀ h, r.owner ≠ .handle h) → ∃ d : Dev, Answers (.sramLineRead [] r) s d ∧ d.sram.rebuilt = s.dev.sram.rebuilt ∧
        d.sram.poisoned = s.dev.sram.poisoned ++ [⟨b, i, r.owner⟩] ∧
        d.sram.poisonCount = satAdd 32 s.dev.sram.poisonCount 1 ∧ d.sram.lastTurn = s.dev.wheel.turn ∧
        d.sram.lastAddr = lineAddr b i ∧
        d.sram.consumed = (if r.reader = .scrubber then s.dev.sram.consumed else satAdd 32 s.dev.sram.consumed 1)) ∧
    (s.dev.linePoisoned b i = true →
      (r.reader = .scrubber → Answers (.sramLineRead [] r) s own) ∧
      (r.reader = .bar4 → Answers (.sramLineRead [] r) s (countConsumed own)) ∧
      (r.reader = .owner → (∀ u, r.owner ≠ .unit u) →
        Answers (.sramLineRead [] r) s (fencePoison r.owner (countConsumed own))))) ∧
  (∀ (d : Dev) (b i : Nat) (old ws : List (BitVec 64)), b < 16 → i < 8192 → b ∉ d.sram.retired → 16 ∉ d.sram.retired →
    d.linePoisoned 16 i = false → (readWords (d.storedLine 16 i).words).good = true →
    let e := d.writeLine b i (some old) ws
    (e.storedLine b i).words = storedWords ws ∧ e.linePoisoned b i = false ∧
    (e.storedLine 16 i).words = storedWords (xorLines [(readWords (d.storedLine 16 i).words).words, old, ws]) ∧
    (∀ k j, k < 17 → j < 8192 → j ≠ i ∨ (k ≠ b ∧ k ≠ 16) → e.storedLine k j = d.storedLine k j)) ∧
  (∀ (d : Dev) (b i off : Nat) (bytes : List Byte) (writer : SramOwner), b < 16 → d.linePoisoned b i = true →
    off ≠ 0 ∨ bytes.length < 64 → lineWrite b i off bytes writer d = fencePoison writer (countConsumed d)) ∧
  (∀ w : BitVec 64, decodeWord (encodeWord w) = ⟨w, false, false⟩ ∧
    (∀ k : Nat, k < 72 → decodeWord (encodeWord w ^^^ BitVec.ofNat 72 (2 ^ k)) = ⟨w, true, false⟩) ∧
    ∀ j k : Nat, j < 72 → k < 72 → j ≠ k →
      let r := decodeWord (encodeWord w ^^^ BitVec.ofNat 72 (2 ^ j) ^^^ BitVec.ofNat 72 (2 ^ k))
      r.fixed = false ∧ r.double = true)

/-! ### The network plane (spec 15) -/

/-- From R403 to R406, R409, R412 to R415, R419: a frame is taken only while its port runs and is counted; the link, the addresses
and the sessions follow their events; a stream emits once in a due turn, with one sequence number a frame.
Where the rules leave a point open, the clauses follow the model's choices of log entries 63 and 94. -/
def Obligations.NetworkEvents : Prop :=
  (∀ (s : State) (p len : Nat) (k : EthKind) (t : Nat), p < 2 →
    let e : Dev := { s.dev with now := max s.dev.now t }
    let rx := (e.modPort p fun x => { x with rx := x.rx + 1 }).tally (35 + p) 2 len
    (s.dev.portRuns p = false → Answers (.ethFrameReceived p len k t) s e) ∧
    (s.dev.portRuns p = true → 1518 < len ∨ k = .vlan ∨ k = .pause ∨ k = .outside →
      Answers (.ethFrameReceived p len k t) s (rx.modPort p fun x => { x with discarded := satAdd 32 x.discarded 1 })) ∧
    (s.dev.portRuns p = true → len ≤ 1518 → k = .other → Answers (.ethFrameReceived p len k t) s rx) ∧
    (s.dev.portRuns p = true → len ≤ 1518 → s.dev.plane.mgmtRunning = false → k = .asks ∨ k = .closedPort ∨ k = .plain →
      Answers (.ethFrameReceived p len k t) s rx) ∧
    (s.dev.portRuns p = true → len ≤ 1518 → s.dev.plane.mgmtRunning = true →
      (k = .asks → ∃ d : Dev, Answers (.ethFrameReceived p len k t) s d ∧
        d.port p = { rx.port p with tx := (rx.port p).tx + 1 } ∧ d.port (1 - p) = s.dev.port (1 - p)) ∧
      (k = .plain → Answers (.ethFrameReceived p len k t) s ((rx.tally (35 + p) 5 1).sendOn p [0x81])) ∧
      (k = .closedPort →
        let last := (s.dev.port p).unreach.filter fun u => decide (e.now < u + 100000000)
        (10 ≤ last.length → Answers (.ethFrameReceived p len k t) s rx) ∧
        (last.length < 10 → ∃ d : Dev, Answers (.ethFrameReceived p len k t) s d ∧
          d.port p = { rx.port p with tx := (rx.port p).tx + 1, unreach := e.now :: last } ∧ d.port (1 - p) = s.dev.port (1 - p))))) ∧
  (∀ (s : State) (p : Nat), p < 2 → s.dev.netif p = none →
    (∀ up speed, Answers (.netLink p up speed) s s.dev) ∧ (∀ key stage, Answers (.dtlsHandshake p key stage) s s.dev) ∧
    Answers (.netifLinkTimeout p) s s.dev ∧ (∀ c, Answers (.dadComplete p c) s s.dev)) ∧
  (∀ (s : State) (p n : Nat), p < 2 → s.dev.netif p = some n →
    let h := s.dev.handleOf tStream n
    let on := s.dev.enabled tStream n
    let up := (s.dev.strm n).link
    (∀ v speed, on = false ∨ up = v → Answers (.netLink p v speed) s s.dev) ∧
    (∀ speed, on = true → up = false → nkV4 (s.dev.strmCfg n) = false → ∃ d : Dev, Answers (.netLink p true speed) s d ∧
      (d.strm n).link = true ∧ (d.strm n).addr = (s.dev.strm n).addr ∧ (d.port p).link = true ∧ (d.port p).speed = speed % 4) ∧
    (∀ speed, on = true → up = false → nkV4 (s.dev.strmCfg n) = true → ∃ d : Dev, Answers (.netLink p true speed) s d ∧
      (d.strm n).link = true ∧ (d.strm n).addr = true ∧ d.hasWait .enable h = false) ∧
    (∀ speed, on = true → up = true → ∃ d : Dev, Answers (.netLink p false speed) s d ∧ (d.strm n).link = false ∧
      (d.strm n).addr = false) ∧
    let v6 := nkV6 (s.dev.strmCfg n)
    (on = false ∨ up = false ∨ v6 = false → ∀ c, Answers (.dadComplete p c) s s.dev) ∧
    (on = true → up = true → v6 = true → ∃ d : Dev, Answers (.dadComplete p false) s d ∧ (d.strm n).addr = true ∧
      d.hasWait .enable h = false) ∧
    (on = true → up = true → v6 = true → ∃ d : Dev, Answers (.dadComplete p true) s d ∧ (d.strm n).addr = (s.dev.strm n).addr ∧
      (d.port p).dad = true ∧ d.waits = s.dev.waits) ∧
    (up = true → Answers (.netifLinkTimeout p) s s.dev) ∧
    (up = false → ∃ d : Dev, Answers (.netifLinkTimeout p) s d ∧ d.hasWait .enable h = false ∧ d.net.streams = s.dev.net.streams) ∧
    let held := (s.dev.net.sessions.filter fun x => x.2.isOpen).length
    let shaking := s.dev.net.shaking
    (∀ key, s.dev.portRuns p = false ∨ s.dev.plane.mgmtRunning = false ∨ 4 ≤ shaking.length ∨ 8 ≤ held + shaking.length →
      Answers (.dtlsHandshake p key .hello) s s.dev) ∧
    (∀ key, s.dev.portRuns p = true → s.dev.plane.mgmtRunning = true → shaking.length < 4 → held + shaking.length < 8 →
      Answers (.dtlsHandshake p key .hello) s { s.dev with net := { s.dev.net with shaking := shaking ++ [(p, key)] } }) ∧
    (∀ key stage, stage ≠ .hello → (p, key) ∉ shaking → Answers (.dtlsHandshake p key stage) s s.dev) ∧
    (∀ key stage, (p, key) ∈ shaking →
      stage = .fails ∨ (stage = .completes ∧ ∀ k < nkPeers (s.dev.strmCfg n), nkPeer (s.dev.strmCfg n) k ≠ key) →
      ∃ d : Dev, Answers (.dtlsHandshake p key stage) s d ∧ d.net.sessions = s.dev.net.sessions ∧
        d.net.shaking = shaking.erase (p, key) ∧ (d.port p).dtlsFail = satAdd 32 (s.dev.port p).dtlsFail 1) ∧
    (∀ key k, (p, key) ∈ shaking → k < nkPeers (s.dev.strmCfg n) → nkPeer (s.dev.strmCfg n) k = key →
      ∃ (d : Dev) (i : Nat) (x : Session), Answers (.dtlsHandshake p key .completes) s d ∧ (i, x) ∈ d.net.sessions ∧ x.port = p ∧
        x.peer = key ∧ x.isOpen = true ∧
        d = { s.dev with net := { s.dev.net with sessions := d.net.sessions, shaking := shaking.erase (p, key) } })) ∧
  (∀ (s : State) (i : Nat), i < 8 →
    Answers (.dtlsIdleClose i) s { s.dev with net := { s.dev.net with sessions := tdrop s.dev.net.sessions i } }) ∧
  (∀ (s : State) (p : Nat), p < 2 →
    (s.dev.portRuns p = false ∨ s.dev.plane.mgmtRunning = false → Answers (.coapGetId p) s s.dev) ∧
    (s.dev.portRuns p = true → s.dev.plane.mgmtRunning = true → Answers (.coapGetId p) s
      ((s.dev.tally (35 + p) 5 1).sendOn p (0x45 :: (leBytes 4 sysId ++ macBytes 0 ++ macBytes 1))))) ∧
  (∀ (s : State) (n : Nat) (resolved : Bool), n < 64 →
    let ws := s.dev.strmCfg n
    let due := s.dev.enabled tStream n && nkKind ws != 2 && s.dev.wheel.turn.toNat % max 1 (nkEvery ws) == 0 &&
      (s.dev.strm n).lastEmit != some s.dev.wheel.turn && !s.dev.sag.fenced.contains 10
    (due = false → Answers (.streamEmission n resolved) s s.dev) ∧
    (due = true → ∃ d : Dev, Answers (.streamEmission n resolved) s d ∧ (d.strm n).lastEmit = some s.dev.wheel.turn ∧
      d.wheel = s.dev.wheel ∧ d.waits = s.dev.waits ∧
      (d.strm n).seq = (s.dev.strm n).seq + BitVec.ofNat 32 (packFrames (if nkKind ws = 0 then 4096 else 1452)
        ((List.range (nkSources ws)).flatMap (sourceRecords s.dev blockOf n))).length))

/-! ### The two-wire ports (spec 18) -/

/-- From R469 to R471, R476, R477, R480, R482 to R489: the mailboxes' reads and frame errors, attention, timeouts and bus errors; the
discovery, the polls and the writes of modules.
Where the rules leave a point open, the clauses follow the model's choices of log entries 66 and 96. -/
def Obligations.TwoWireEvents : Prop :=
  (∀ (s : State) (peer : Bool),
    let b := s.dev.twb.box peer
    (∃ d : Dev, Answers (.mboxReread peer) s d ∧ d.twb.box peer = { b with pos := 0 } ∧ d.twb.box (!peer) = s.dev.twb.box (!peer) ∧
      d = { s.dev with twb := d.twb, tal := d.tal }) ∧
    (∃ d : Dev, Answers (.mboxDiscard peer) s d ∧ d.twb.box (!peer) = s.dev.twb.box (!peer) ∧
      d.twb.box peer = (if b.st = .response then { b with st := .empty, resp := [], pos := 0 } else b)) ∧
    (∀ f, match (match f with | .timeout => some 5 | .abort => some 6 | .bytes bs => frameCode b.st bs) with
      | none => Answers (.mboxFrameError peer f) s s.dev
      | some code => ∃ d : Dev, Answers (.mboxFrameError peer f) s d ∧
        d.twb.box peer = { b with lastErr := code, errs := satAdd 8 b.errs 1 } ∧ d.twb.box (!peer) = s.dev.twb.box (!peer)) ∧
    (∀ n, b.st = .response → ∃ d : Dev, Answers (.mboxRead peer n) s d ∧ d.twb.read = readBytes b.resp b.pos n ∧
      (b.resp.length - b.pos ≤ n → (d.twb.box peer).st = .empty ∧ (d.twb.box peer).resp = []) ∧
      (n < b.resp.length - b.pos → d.twb.box peer = { b with pos := b.pos + n }) ∧
      (b.resp.length - b.pos < n → (d.twb.box peer).lastErr = 7) ∧ (peer = false → d.twb.alert = false)) ∧
    (∀ n, b.st ≠ .response → ∃ d : Dev, Answers (.mboxRead peer n) s d ∧
      d.twb.read = readBytes (statusFrame (if peer then s.dev else { s.dev with twb := { s.dev.twb with alert := false } }) peer) 0 n ∧
      (d.twb.box peer).attn = 0 ∧ (d.twb.box peer).st = b.st ∧ (peer = false → d.twb.alert = false))) ∧
  (∀ s : State,
    (s.dev.twb.alert = false → Answers .alertResponseRead s s.dev) ∧
    (s.dev.twb.alert = true → ∃ d : Dev, Answers .alertResponseRead s d ∧ d.twb.alert = false ∧
      d.twb.read = [BitVec.ofNat 8 (0xB0 + 2 * s.dev.pow.strapAddr)] ∧ d.twb.boxA = s.dev.twb.boxA ∧ d.twb.boxB = s.dev.twb.boxB) ∧
    (∀ t, let now := max s.dev.now t
      (s.dev.twb.pulseDue = false ∨ (∃ l, s.dev.twb.lastPulse = some l ∧ now < l + 1000000) →
        Answers (.attentionPulse t) s { s.dev with now := now }) ∧
      (s.dev.twb.pulseDue = true → (∀ l, s.dev.twb.lastPulse = some l → l + 1000000 ≤ now) →
        ∃ d : Dev, Answers (.attentionPulse t) s d ∧ d.now = now ∧ d.twb.pulseDue = false ∧ d.twb.lastPulse = some now)) ∧
    (s.dev.twb.pulseDue = false → Answers .attentionPulseCollision s s.dev) ∧
    (s.dev.twb.pulseDue = true → ∃ d : Dev, Answers .attentionPulseCollision s d ∧ d.twb.pulseDue = true ∧ d.twb.lastPulse = none) ∧
    (∀ peer ctl a, ctl = false ∨ peer = false → ∃ d : Dev, Answers (.twoWireTimeout peer ctl a) s d ∧ (d.twb.box peer).lastErr = 5 ∧
      d.twb.busErrRun = s.dev.twb.busErrRun ∧ d.twb.abandoned = s.dev.twb.abandoned) ∧
    (∀ a, ∃ d : Dev, Answers (.twoWireTimeout true true a) s d ∧ d.twb.arbRun = 0 ∧ d.twb.busErrRun = 0 ∧ a ∈ d.twb.abandoned ∧
      d.twb.boxA = s.dev.twb.boxA) ∧
    (∀ peer ctl a, ctl = false ∨ peer = false → ∃ d : Dev, Answers (.twoWireAbort peer ctl a) s d ∧ (d.twb.box peer).lastErr = 6 ∧
      d.twb.busErrRun = s.dev.twb.busErrRun ∧ d.twb.abandoned = s.dev.twb.abandoned) ∧
    (∀ a, let run := if s.dev.twb.running = a then s.dev.twb.busErrRun else 0
      ∃ d : Dev, Answers (.twoWireAbort true true a) s d ∧ d.twb.boxA = s.dev.twb.boxA ∧ d.twb.running = a ∧
        (run = 0 → d.twb.busErrRun = 1 ∧ d.twb.abandoned = s.dev.twb.abandoned) ∧
        (run ≠ 0 → d.twb.busErrRun = 0 ∧ d.twb.arbRun = 0 ∧ a ∈ d.twb.abandoned)) ∧
    (∀ cleared a, ∃ d : Dev, Answers (.busStuckClear cleared a) s d ∧
      tget 0 d.twb.counts 10 = satAdd 16 (tget 0 s.dev.twb.counts 10) 1 ∧ d.twb.mods = s.dev.twb.mods ∧
      (cleared = true → d.twb.abandoned = s.dev.twb.abandoned) ∧ (cleared = false → a ∈ d.twb.abandoned)) ∧
    (∀ served a, let run := if s.dev.twb.running = a then s.dev.twb.arbRun else 0
      ∃ d : Dev, Answers (.arbitrationLost served a) s d ∧ d.twb.running = a ∧
        tget 0 d.twb.counts 4 = satAdd 16 (tget 0 s.dev.twb.counts 4) 1 ∧
        (run < 7 → d.twb.arbRun = run + 1 ∧ d.twb.abandoned = s.dev.twb.abandoned) ∧
        (7 ≤ run → d.twb.arbRun = 0 ∧ a ∈ d.twb.abandoned))) ∧
  (∀ (s : State) (a : Nat),
    (s.dev.setOfModule a = none ∨ s.dev.plane.mgmtRunning = false →
      (∀ r, Answers (.moduleDiscovery a r) s s.dev) ∧ ∀ k, Answers (.moduleWrite a k) s s.dev) ∧
    Answers (.moduleDiscovery a none) s s.dev ∧
    (∀ n mode status, s.dev.setOfModule a = some n → s.dev.plane.mgmtRunning = true →
      ∃ d : Dev, Answers (.moduleDiscovery a (some (mode, status))) s d ∧
      d.module_ a = { s.dev.module_ a with
        present := true, lost := false, streak := if (s.dev.module_ a).present then (s.dev.module_ a).streak else 0
        vmode := bitsN mode 5 3 != 0, exp := sx 5 (bitsN mode 0 5), status := status % 65536
        pend := s.dev.modWrites n a && bitsN mode 5 3 == 0 } ∧ ∀ x, x ≠ a → d.module_ x = s.dev.module_ x) ∧
    (∀ n k, s.dev.setOfModule a = some n →
      ((s.dev.module_ a).present = false ∨ (s.dev.module_ a).vmode = true ∨ s.dev.modWrites n a = false ∨
        (s.dev.module_ a).pend = false) → Answers (.moduleWrite a k) s s.dev) ∧
    (∀ n, s.dev.setOfModule a = some n → s.dev.plane.mgmtRunning = true → (s.dev.module_ a).present = true →
      (s.dev.module_ a).vmode = false → s.dev.modWrites n a = true → (s.dev.module_ a).pend = true →
      let w := s.dev.mb n (modInput a).1
      let v := voutCommand (bits w 0 16) (s.dev.module_ a).exp
      let op := if bit w 24 then 0x80 else 0
      let send (bs : List Byte) := (a, bs ++ [BitVec.ofNat 8 (crc8 (BitVec.ofNat 8 (2 * a) :: bs))])
      (∃ d : Dev, Answers (.moduleWrite a none) s d ∧ (d.module_ a).pend = false ∧ (d.module_ a).opWritten = some op ∧
        (d.module_ a).voutWritten = (if bits w 0 16 = 0 then none else some v) ∧
        (d.module_ a).droopWritten = some (droopWord (bits w 16 8)) ∧
        d.twb.sends = s.dev.twb.sends ++ (if bits w 0 16 = 0 then [] else [send (0x21 :: leBytes 2 v)]) ++
          [send (0x28 :: leBytes 2 (droopWord (bits w 16 8))), send [0x01, BitVec.ofNat 8 op]]) ∧
      ∀ c, ∃ d : Dev, Answers (.moduleWrite a (some c)) s d ∧ (d.module_ a).pend = true ∧
        (d.module_ a).opWritten = (s.dev.module_ a).opWritten ∧ (c = 0x21 → d.twb.sends = s.dev.twb.sends))) ∧
  (∀ (s : State) (peer : Bool),
    (s.dev.modSet = none ∨ s.dev.plane.mgmtRunning = false → ∀ polls, Answers (.modulePollCycle polls peer) s s.dev) ∧
    (∀ n polls, s.dev.modSet = some n → s.dev.twb.pollTurn ≠ 0 → s.dev.twb.sincePoll < bits (s.dev.mb n 4) 0 16 →
      Answers (.modulePollCycle polls peer) s s.dev) ∧
    (∀ n polls, s.dev.modSet = some n → s.dev.plane.mgmtRunning = true →
      (s.dev.twb.pollTurn = 0 ∨ bits (s.dev.mb n 4) 0 16 ≤ s.dev.twb.sincePoll) →
      ∃ d : Dev, Answers (.modulePollCycle polls peer) s d ∧ d.twb.pollTurn = s.dev.wheel.turn ∧
        d.twb.sincePoll = 0 ∧ d.twb.arbRun = 0 ∧ d.twb.busErrRun = 0 ∧ d.twb.abandoned = [] ∧
        (bit (s.dev.mb n 5) 3 = true → peer = true → (0x70 + bits (s.dev.mb n 5) 0 3) ∉ s.dev.twb.abandoned →
          d.twb.peerStreak = 0 ∧ d.twb.peerLost = false))) ∧
  (∀ (d : Dev) (n a : Nat) (r : Option PollReads),
    let m := d.module_ a
    (m.present = false → pollModule n a r d = d) ∧
    (m.present = true → r = none ∨ a ∈ d.twb.abandoned → m.streak + 1 < 3 → (pollModule n a r d).module_ a =
      { m with lastFailed := true, streak := m.streak + 1, fails := satAdd 16 m.fails 1 }) ∧
    (m.present = true → r = none ∨ a ∈ d.twb.abandoned → 3 ≤ m.streak + 1 →
      ((pollModule n a r d).module_ a).present = false ∧ ((pollModule n a r d).module_ a).lost = true ∧
      ((pollModule n a r d).module_ a).streak = 0) ∧
    (∀ p, m.present = true → r = some p → a ∉ d.twb.abandoned →
      let t := (pollModule n a r d).module_ a
      t.present = true ∧ t.status = p.status % 65536 ∧ t.vin = fitU 16 (linear11 p.vin 100) ∧ t.iOut = fitS 16 (linear11 p.iOut 100) ∧
      t.vOut = fitU 16 (scale2 (p.vOut % 65536 : Nat) m.exp 100) ∧ t.temp = fitS 16 (linear11 p.temp 128) ∧ t.age = 0 ∧
      t.streak = 0 ∧ t.lastFailed = false))

/-! ### Outputs from reset (spec 20) -/

/-- From Table 20.6 and R337, R518: from a reset of the Firebox no gate, charge path, bleed or discharge switch is on, the enable
pins are high-impedance, HK_EN is low, the lines are released, no port has sent, and the queue starts empty.
Where the rules leave a point open, the clauses follow the model's choice of log entry 5. -/
def Obligations.OutputsFromReset : Prop :=
  State.reset.pending = [] ∧ State.reset.dev.slots = [] ∧ State.reset.setup.lock = false ∧
  ∀ d : Dev, (d = State.reset.dev ∨ (∃ s : State, Answers .fireboxPor { s with setup := {} } d) ∨
      ∃ (s : State) (straps : BitVec 7), s.dev.pow.phase ≠ .held ∧ Answers (.deviceReset straps) { s with setup := {} } d) →
    (∀ p, (d.phase p).state = .off ∧ (d.phase p).onTime = 0) ∧ d.pwm.discharge = [] ∧
    (∀ c, (d.chan c).run.gateOn = false ∧ (d.chan c).bleedOn = false) ∧
    (∀ n x, ((d.srcSet n).input x).st = .down ∧ (d.srcSet n).huChg = false ∧ (d.srcSet n).huRel = false ∧ (d.srcSet n).huBlg = false) ∧
    (∀ e, tget EnPin.hiZ d.seq.pins e = .hiZ) ∧ d.faultSources d.srcStuckSource = 0 ∧ d.twb.alert = false ∧ d.pow.hkEn = false ∧
    d.net.sent = [] ∧ d.net.streams = [] ∧ d.pow.debug = false
end

