-- ==== Sys2Proof/Laws/Tables.lean ====
section
/-! SUPPORT. The laws of tables: a read after a write gives what was written, other keys keep theirs, and every write keeps the
canonical form. -/

namespace Sys2Proof.Machine

variable {α : Type}

theorem tget_tdrop_self (d : α) (t : List (Nat × α)) (k : Nat) : tget d (tdrop t k) k = d := by
  induction t with
  | nil => rfl
  | cons p t ih =>
    obtain ⟨j, v⟩ := p
    by_cases h : j = k
    · subst h; simpa [tdrop] using ih
    · have : (tdrop ((j, v) :: t) k) = (j, v) :: tdrop t k := by simp [tdrop, h]
      rw [this]; simp [tget, h, ih]

theorem tget_tdrop_ne (d : α) (t : List (Nat × α)) {j k : Nat} (h : j ≠ k) : tget d (tdrop t k) j = tget d t j := by
  induction t with
  | nil => rfl
  | cons p t ih =>
    obtain ⟨i, v⟩ := p
    by_cases hk : i = k
    · subst hk
      have : tdrop ((i, v) :: t) i = tdrop t i := by simp [tdrop]
      rw [this, ih]; simp [tget, Ne.symm h]
    · have : (tdrop ((i, v) :: t) k) = (i, v) :: tdrop t k := by simp [tdrop, hk]
      rw [this]; simp [tget, ih]

theorem tget_tinsert_self (d : α) (t : List (Nat × α)) (k : Nat) (v : α) : tget d (tinsert t k v) k = v := by
  induction t with
  | nil => simp [tinsert, tget]
  | cons p t ih =>
    obtain ⟨j, w⟩ := p
    simp only [tinsert]
    split
    · simp [tget]
    · split
      · simp [tget]
      · rename_i h1 h2; simp [tget, Ne.symm h2, ih]

theorem tget_tinsert_ne (d : α) (t : List (Nat × α)) {j k : Nat} (v : α) (h : j ≠ k) :
    tget d (tinsert t k v) j = tget d t j := by
  induction t with
  | nil => simp [tinsert, tget, Ne.symm h]
  | cons p t ih =>
    obtain ⟨i, w⟩ := p
    simp only [tinsert]
    split
    · simp [tget, Ne.symm h]
    · split
      · rename_i h1 h2; subst h2; simp [tget, Ne.symm h]
      · simp [tget, ih]

/-- Every key of a table is above `k`. -/
def tabove {α : Type} (k : Nat) (t : List (Nat × α)) : Prop := ∀ p ∈ t, k < p.1

theorem tabove_tinsert {j : Nat} {t : List (Nat × α)} {k : Nat} (v : α) (h : tabove j t) (hk : j < k) :
    tabove j (tinsert t k v) := by
  induction t with
  | nil => intro p hp; simp [tinsert] at hp; subst hp; exact hk
  | cons q t ih =>
    obtain ⟨i, w⟩ := q
    have hi : j < i := h (i, w) (by simp)
    have ht : tabove j t := fun p hp => h p (by simp [hp])
    simp only [tinsert]
    split
    · intro p hp
      rcases List.mem_cons.mp hp with rfl | hp
      · exact hk
      · exact h p hp
    · split
      · intro p hp
        rcases List.mem_cons.mp hp with rfl | hp
        · exact hk
        · exact ht p hp
      · intro p hp
        rcases List.mem_cons.mp hp with rfl | hp
        · exact hi
        · exact ih ht p hp

variable [DecidableEq α]

@[simp] theorem tget_tset_self (d : α) (t : List (Nat × α)) (k : Nat) (v : α) : tget d (tset d t k v) k = v := by
  unfold tset
  split
  · rename_i h; rw [tget_tdrop_self, h]
  · exact tget_tinsert_self d t k v

theorem tget_tset_ne (d : α) (t : List (Nat × α)) {j k : Nat} (v : α) (h : j ≠ k) :
    tget d (tset d t k v) j = tget d t j := by
  unfold tset
  split
  · exact tget_tdrop_ne d t h
  · exact tget_tinsert_ne d t v h

@[simp] theorem tget_tmod_self (d : α) (t : List (Nat × α)) (k : Nat) (f : α → α) :
    tget d (tmod d t k f) k = f (tget d t k) := by simp [tmod]

theorem tget_tmod_ne (d : α) (t : List (Nat × α)) {j k : Nat} (f : α → α) (h : j ≠ k) :
    tget d (tmod d t k f) j = tget d t j := by simp [tmod, tget_tset_ne d t _ h]

theorem tget_tmod (d : α) (t : List (Nat × α)) (j k : Nat) (f : α → α) :
    tget d (tmod d t k f) j = if j = k then f (tget d t k) else tget d t j := by
  split
  · rename_i h; subst h; simp
  · rename_i h; exact tget_tmod_ne d t f h

/-- Whether a table lists a key. -/
def tlists {α : Type} (t : List (Nat × α)) (k : Nat) : Bool := t.any fun p => p.1 == k

theorem tget_unlisted {α : Type} (d : α) (t : List (Nat × α)) (k : Nat) (h : tlists t k = false) : tget d t k = d := by
  induction t with
  | nil => rfl
  | cons p t ih =>
    obtain ⟨j, v⟩ := p
    simp only [tlists, List.any_cons, Bool.or_eq_false_iff, beq_eq_false_iff_ne] at h
    simp only [tget, h.1, if_false]
    exact ih h.2

/-! ### The canonical form -/

theorem tableWf_cons (d : α) (j : Nat) (v : α) (t : List (Nat × α)) :
    tableWf d ((j, v) :: t) = true ↔ v ≠ d ∧ tabove j t ∧ tableWf d t = true := by
  induction t generalizing j v with
  | nil => simp [tableWf, tabove]
  | cons p t ih =>
    obtain ⟨k, w⟩ := p
    simp only [tableWf, Bool.and_eq_true, decide_eq_true_eq]
    constructor
    · rintro ⟨⟨hv, hjk⟩, hrest⟩
      refine ⟨hv, ?_, hrest⟩
      intro p hp
      rcases List.mem_cons.mp hp with rfl | hp
      · exact hjk
      · exact Nat.lt_trans hjk (((ih k w).mp hrest).2.1 p hp)
    · rintro ⟨hv, hab, hrest⟩
      exact ⟨⟨hv, hab (k, w) (by simp)⟩, hrest⟩

theorem tableWf_tdrop (d : α) (t : List (Nat × α)) (k : Nat) (h : tableWf d t = true) : tableWf d (tdrop t k) = true := by
  induction t with
  | nil => rfl
  | cons p t ih =>
    obtain ⟨j, v⟩ := p
    obtain ⟨hv, hab, ht⟩ := (tableWf_cons d j v t).mp h
    by_cases hk : j = k
    · have : tdrop ((j, v) :: t) k = tdrop t k := by simp [tdrop, hk]
      rw [this]; exact ih ht
    · have : tdrop ((j, v) :: t) k = (j, v) :: tdrop t k := by simp [tdrop, hk]
      rw [this, tableWf_cons]
      exact ⟨hv, fun p hp => hab p ((List.mem_filter.mp hp).1), ih ht⟩

theorem tableWf_tinsert (d : α) (t : List (Nat × α)) (k : Nat) (v : α) (h : tableWf d t = true) (hv : v ≠ d) :
    tableWf d (tinsert t k v) = true := by
  induction t with
  | nil => simp [tinsert, tableWf, hv]
  | cons p t ih =>
    obtain ⟨j, w⟩ := p
    obtain ⟨hw, hab, ht⟩ := (tableWf_cons d j w t).mp h
    simp only [tinsert]
    split
    · rename_i hkj
      rw [tableWf_cons]
      refine ⟨hv, ?_, h⟩
      intro p hp
      rcases List.mem_cons.mp hp with rfl | hp
      · exact hkj
      · exact Nat.lt_trans hkj (hab p hp)
    · split
      · rename_i _ he; subst he; rw [tableWf_cons]; exact ⟨hv, hab, ht⟩
      · rename_i h1 h2
        rw [tableWf_cons]
        exact ⟨hw, tabove_tinsert v hab (by omega), ih ht⟩

/-- A write keeps the canonical form. -/
theorem tableWf_tset (d : α) (t : List (Nat × α)) (k : Nat) (v : α) (h : tableWf d t = true) :
    tableWf d (tset d t k v) = true := by
  unfold tset
  split
  · exact tableWf_tdrop d t k h
  · rename_i hv; exact tableWf_tinsert d t k v h hv

/-- A change of one entry keeps the canonical form. -/
theorem tableWf_tmod (d : α) (t : List (Nat × α)) (k : Nat) (f : α → α) (h : tableWf d t = true) :
    tableWf d (tmod d t k f) = true := tableWf_tset d t k _ h

theorem tlists_cons {α : Type} (j : Nat) (v : α) (t : List (Nat × α)) (k : Nat) :
    tlists ((j, v) :: t) k = (j == k || tlists t k) := rfl

theorem tget_tmapAll (d : α) (t : List (Nat × α)) (f : Nat → α → α) (k : Nat) :
    tget d (tmapAll d t f) k = if tlists t k then f k (tget d t k) else d := by
  induction t with
  | nil => rfl
  | cons p t ih =>
    obtain ⟨j, v⟩ := p
    rw [tlists_cons]
    by_cases h : j = k
    · subst h; simp [tget, tmapAll]
    · have hj : (j == k) = false := by simp [h]
      rw [hj, Bool.false_or, tmapAll, tget_tset_ne _ _ _ (Ne.symm h), ih, tget, if_neg h]

/-- A change that keeps the default reaches every entry, listed or not. -/
theorem tget_tmapAll_dflt (d : α) (t : List (Nat × α)) (f : Nat → α → α) (k : Nat) (hf : f k d = d) :
    tget d (tmapAll d t f) k = f k (tget d t k) := by
  rw [tget_tmapAll]
  split
  · rfl
  · rename_i h
    rw [tget_unlisted d t k (by simpa using h), hf]

/-- Changing every entry keeps the canonical form. -/
theorem tableWf_tmapAll (d : α) (t : List (Nat × α)) (f : Nat → α → α) : tableWf d (tmapAll d t f) = true := by
  induction t with
  | nil => rfl
  | cons p t ih => exact tableWf_tset d _ _ _ ih

end Sys2Proof.Machine
end

