-- ==== Sys2Proof/Laws/State.lean ====
section
/-! SUPPORT. What each named update of the state leaves unchanged: one lemma per field per update. -/

namespace Sys2Proof.Machine

variable (d : Dev)

@[simp] theorem Dev.modSlot_wheel (t i : Nat) (f : Slot → Slot) : (d.modSlot t i f).wheel = d.wheel := rfl
@[simp] theorem Dev.modSlot_plane (t i : Nat) (f : Slot → Slot) : (d.modSlot t i f).plane = d.plane := rfl
@[simp] theorem Dev.modSlot_host (t i : Nat) (f : Slot → Slot) : (d.modSlot t i f).host = d.host := rfl
@[simp] theorem Dev.modSlot_waits (t i : Nat) (f : Slot → Slot) : (d.modSlot t i f).waits = d.waits := rfl
@[simp] theorem Dev.modSlot_acq (t i : Nat) (f : Slot → Slot) : (d.modSlot t i f).acq = d.acq := rfl
@[simp] theorem Dev.modSlot_thr (t i : Nat) (f : Slot → Slot) : (d.modSlot t i f).thr = d.thr := rfl
@[simp] theorem Dev.modSlot_pwm (t i : Nat) (f : Slot → Slot) : (d.modSlot t i f).pwm = d.pwm := rfl
@[simp] theorem Dev.modSlot_kiln (t i : Nat) (f : Slot → Slot) : (d.modSlot t i f).kiln = d.kiln := rfl
@[simp] theorem Dev.modSlot_feeds (t i : Nat) (f : Slot → Slot) : (d.modSlot t i f).feeds = d.feeds := rfl
@[simp] theorem Dev.modSlot_branches (t i : Nat) (f : Slot → Slot) : (d.modSlot t i f).branches = d.branches := rfl
@[simp] theorem Dev.modSlot_seq (t i : Nat) (f : Slot → Slot) : (d.modSlot t i f).seq = d.seq := rfl
@[simp] theorem Dev.modSlot_src (t i : Nat) (f : Slot → Slot) : (d.modSlot t i f).src = d.src := rfl
@[simp] theorem Dev.modSlot_strs (t i : Nat) (f : Slot → Slot) : (d.modSlot t i f).strs = d.strs := rfl
@[simp] theorem Dev.modSlot_strSeen (t i : Nat) (f : Slot → Slot) : (d.modSlot t i f).strSeen = d.strSeen := rfl
@[simp] theorem Dev.modSlot_led (t i : Nat) (f : Slot → Slot) : (d.modSlot t i f).led = d.led := rfl
@[simp] theorem Dev.modSlot_turnStart (t i : Nat) (f : Slot → Slot) : (d.modSlot t i f).turnStart = d.turnStart := rfl
@[simp] theorem Dev.modSlot_turnDur (t i : Nat) (f : Slot → Slot) : (d.modSlot t i f).turnDur = d.turnDur := rfl
@[simp] theorem Dev.modSlot_heat (t i : Nat) (f : Slot → Slot) : (d.modSlot t i f).heat = d.heat := rfl
@[simp] theorem Dev.modSlot_wit (t i : Nat) (f : Slot → Slot) : (d.modSlot t i f).wit = d.wit := rfl
@[simp] theorem Dev.modSlot_net (t i : Nat) (f : Slot → Slot) : (d.modSlot t i f).net = d.net := rfl
@[simp] theorem Dev.modSlot_sag (t i : Nat) (f : Slot → Slot) : (d.modSlot t i f).sag = d.sag := rfl
@[simp] theorem Dev.modSlot_lanes (t i : Nat) (f : Slot → Slot) : (d.modSlot t i f).lanes = d.lanes := rfl
@[simp] theorem Dev.modSlot_sram (t i : Nat) (f : Slot → Slot) : (d.modSlot t i f).sram = d.sram := rfl
@[simp] theorem Dev.modSlot_img (t i : Nat) (f : Slot → Slot) : (d.modSlot t i f).img = d.img := rfl
@[simp] theorem Dev.modSlot_twb (t i : Nat) (f : Slot → Slot) : (d.modSlot t i f).twb = d.twb := rfl
@[simp] theorem Dev.modSlot_tal (t i : Nat) (f : Slot → Slot) : (d.modSlot t i f).tal = d.tal := rfl
@[simp] theorem Dev.modSlot_pow (t i : Nat) (f : Slot → Slot) : (d.modSlot t i f).pow = d.pow := rfl
@[simp] theorem Dev.modSlot_sitter (t i : Nat) (f : Slot → Slot) : (d.modSlot t i f).sitter = d.sitter := rfl
@[simp] theorem Dev.modSlot_now (t i : Nat) (f : Slot → Slot) : (d.modSlot t i f).now = d.now := rfl
@[simp] theorem Dev.modSlot_tickNow (t i : Nat) (f : Slot → Slot) : (d.modSlot t i f).tickNow = d.tickNow := rfl
@[simp] theorem Dev.modSlot_onceTurn (t i : Nat) (f : Slot → Slot) : (d.modSlot t i f).onceTurn = d.onceTurn := rfl
@[simp] theorem Dev.modSlot_onceRound (t i : Nat) (f : Slot → Slot) : (d.modSlot t i f).onceRound = d.onceRound := rfl
@[simp] theorem Dev.modSlot_fresh (t i : Nat) (f : Slot → Slot) : (d.modSlot t i f).fresh = d.fresh := rfl

@[simp] theorem Dev.modConv_wheel (c : Nat) (f : Conv → Conv) : (d.modConv c f).wheel = d.wheel := rfl
@[simp] theorem Dev.modConv_plane (c : Nat) (f : Conv → Conv) : (d.modConv c f).plane = d.plane := rfl
@[simp] theorem Dev.modConv_host (c : Nat) (f : Conv → Conv) : (d.modConv c f).host = d.host := rfl
@[simp] theorem Dev.modConv_slots (c : Nat) (f : Conv → Conv) : (d.modConv c f).slots = d.slots := rfl
@[simp] theorem Dev.modConv_waits (c : Nat) (f : Conv → Conv) : (d.modConv c f).waits = d.waits := rfl
@[simp] theorem Dev.modConv_thr (c : Nat) (f : Conv → Conv) : (d.modConv c f).thr = d.thr := rfl
@[simp] theorem Dev.modConv_pwm (c : Nat) (f : Conv → Conv) : (d.modConv c f).pwm = d.pwm := rfl
@[simp] theorem Dev.modConv_kiln (c : Nat) (f : Conv → Conv) : (d.modConv c f).kiln = d.kiln := rfl
@[simp] theorem Dev.modConv_feeds (c : Nat) (f : Conv → Conv) : (d.modConv c f).feeds = d.feeds := rfl
@[simp] theorem Dev.modConv_branches (c : Nat) (f : Conv → Conv) : (d.modConv c f).branches = d.branches := rfl
@[simp] theorem Dev.modConv_seq (c : Nat) (f : Conv → Conv) : (d.modConv c f).seq = d.seq := rfl
@[simp] theorem Dev.modConv_src (c : Nat) (f : Conv → Conv) : (d.modConv c f).src = d.src := rfl
@[simp] theorem Dev.modConv_strs (c : Nat) (f : Conv → Conv) : (d.modConv c f).strs = d.strs := rfl
@[simp] theorem Dev.modConv_strSeen (c : Nat) (f : Conv → Conv) : (d.modConv c f).strSeen = d.strSeen := rfl
@[simp] theorem Dev.modConv_led (c : Nat) (f : Conv → Conv) : (d.modConv c f).led = d.led := rfl
@[simp] theorem Dev.modConv_turnStart (c : Nat) (f : Conv → Conv) : (d.modConv c f).turnStart = d.turnStart := rfl
@[simp] theorem Dev.modConv_turnDur (c : Nat) (f : Conv → Conv) : (d.modConv c f).turnDur = d.turnDur := rfl
@[simp] theorem Dev.modConv_heat (c : Nat) (f : Conv → Conv) : (d.modConv c f).heat = d.heat := rfl
@[simp] theorem Dev.modConv_wit (c : Nat) (f : Conv → Conv) : (d.modConv c f).wit = d.wit := rfl
@[simp] theorem Dev.modConv_net (c : Nat) (f : Conv → Conv) : (d.modConv c f).net = d.net := rfl
@[simp] theorem Dev.modConv_sag (c : Nat) (f : Conv → Conv) : (d.modConv c f).sag = d.sag := rfl
@[simp] theorem Dev.modConv_lanes (c : Nat) (f : Conv → Conv) : (d.modConv c f).lanes = d.lanes := rfl
@[simp] theorem Dev.modConv_sram (c : Nat) (f : Conv → Conv) : (d.modConv c f).sram = d.sram := rfl
@[simp] theorem Dev.modConv_img (c : Nat) (f : Conv → Conv) : (d.modConv c f).img = d.img := rfl
@[simp] theorem Dev.modConv_twb (c : Nat) (f : Conv → Conv) : (d.modConv c f).twb = d.twb := rfl
@[simp] theorem Dev.modConv_tal (c : Nat) (f : Conv → Conv) : (d.modConv c f).tal = d.tal := rfl
@[simp] theorem Dev.modConv_pow (c : Nat) (f : Conv → Conv) : (d.modConv c f).pow = d.pow := rfl
@[simp] theorem Dev.modConv_sitter (c : Nat) (f : Conv → Conv) : (d.modConv c f).sitter = d.sitter := rfl
@[simp] theorem Dev.modConv_now (c : Nat) (f : Conv → Conv) : (d.modConv c f).now = d.now := rfl
@[simp] theorem Dev.modConv_tickNow (c : Nat) (f : Conv → Conv) : (d.modConv c f).tickNow = d.tickNow := rfl
@[simp] theorem Dev.modConv_onceTurn (c : Nat) (f : Conv → Conv) : (d.modConv c f).onceTurn = d.onceTurn := rfl
@[simp] theorem Dev.modConv_onceRound (c : Nat) (f : Conv → Conv) : (d.modConv c f).onceRound = d.onceRound := rfl
@[simp] theorem Dev.modConv_fresh (c : Nat) (f : Conv → Conv) : (d.modConv c f).fresh = d.fresh := rfl

@[simp] theorem Dev.modPd_wheel (n : Nat) (f : PdChan → PdChan) : (d.modPd n f).wheel = d.wheel := rfl
@[simp] theorem Dev.modPd_plane (n : Nat) (f : PdChan → PdChan) : (d.modPd n f).plane = d.plane := rfl
@[simp] theorem Dev.modPd_host (n : Nat) (f : PdChan → PdChan) : (d.modPd n f).host = d.host := rfl
@[simp] theorem Dev.modPd_slots (n : Nat) (f : PdChan → PdChan) : (d.modPd n f).slots = d.slots := rfl
@[simp] theorem Dev.modPd_waits (n : Nat) (f : PdChan → PdChan) : (d.modPd n f).waits = d.waits := rfl
@[simp] theorem Dev.modPd_thr (n : Nat) (f : PdChan → PdChan) : (d.modPd n f).thr = d.thr := rfl
@[simp] theorem Dev.modPd_pwm (n : Nat) (f : PdChan → PdChan) : (d.modPd n f).pwm = d.pwm := rfl
@[simp] theorem Dev.modPd_kiln (n : Nat) (f : PdChan → PdChan) : (d.modPd n f).kiln = d.kiln := rfl
@[simp] theorem Dev.modPd_feeds (n : Nat) (f : PdChan → PdChan) : (d.modPd n f).feeds = d.feeds := rfl
@[simp] theorem Dev.modPd_branches (n : Nat) (f : PdChan → PdChan) : (d.modPd n f).branches = d.branches := rfl
@[simp] theorem Dev.modPd_seq (n : Nat) (f : PdChan → PdChan) : (d.modPd n f).seq = d.seq := rfl
@[simp] theorem Dev.modPd_src (n : Nat) (f : PdChan → PdChan) : (d.modPd n f).src = d.src := rfl
@[simp] theorem Dev.modPd_strs (n : Nat) (f : PdChan → PdChan) : (d.modPd n f).strs = d.strs := rfl
@[simp] theorem Dev.modPd_strSeen (n : Nat) (f : PdChan → PdChan) : (d.modPd n f).strSeen = d.strSeen := rfl
@[simp] theorem Dev.modPd_led (n : Nat) (f : PdChan → PdChan) : (d.modPd n f).led = d.led := rfl
@[simp] theorem Dev.modPd_turnStart (n : Nat) (f : PdChan → PdChan) : (d.modPd n f).turnStart = d.turnStart := rfl
@[simp] theorem Dev.modPd_turnDur (n : Nat) (f : PdChan → PdChan) : (d.modPd n f).turnDur = d.turnDur := rfl
@[simp] theorem Dev.modPd_heat (n : Nat) (f : PdChan → PdChan) : (d.modPd n f).heat = d.heat := rfl
@[simp] theorem Dev.modPd_wit (n : Nat) (f : PdChan → PdChan) : (d.modPd n f).wit = d.wit := rfl
@[simp] theorem Dev.modPd_net (n : Nat) (f : PdChan → PdChan) : (d.modPd n f).net = d.net := rfl
@[simp] theorem Dev.modPd_sag (n : Nat) (f : PdChan → PdChan) : (d.modPd n f).sag = d.sag := rfl
@[simp] theorem Dev.modPd_lanes (n : Nat) (f : PdChan → PdChan) : (d.modPd n f).lanes = d.lanes := rfl
@[simp] theorem Dev.modPd_sram (n : Nat) (f : PdChan → PdChan) : (d.modPd n f).sram = d.sram := rfl
@[simp] theorem Dev.modPd_img (n : Nat) (f : PdChan → PdChan) : (d.modPd n f).img = d.img := rfl
@[simp] theorem Dev.modPd_twb (n : Nat) (f : PdChan → PdChan) : (d.modPd n f).twb = d.twb := rfl
@[simp] theorem Dev.modPd_tal (n : Nat) (f : PdChan → PdChan) : (d.modPd n f).tal = d.tal := rfl
@[simp] theorem Dev.modPd_pow (n : Nat) (f : PdChan → PdChan) : (d.modPd n f).pow = d.pow := rfl
@[simp] theorem Dev.modPd_sitter (n : Nat) (f : PdChan → PdChan) : (d.modPd n f).sitter = d.sitter := rfl
@[simp] theorem Dev.modPd_now (n : Nat) (f : PdChan → PdChan) : (d.modPd n f).now = d.now := rfl
@[simp] theorem Dev.modPd_tickNow (n : Nat) (f : PdChan → PdChan) : (d.modPd n f).tickNow = d.tickNow := rfl
@[simp] theorem Dev.modPd_onceTurn (n : Nat) (f : PdChan → PdChan) : (d.modPd n f).onceTurn = d.onceTurn := rfl
@[simp] theorem Dev.modPd_onceRound (n : Nat) (f : PdChan → PdChan) : (d.modPd n f).onceRound = d.onceRound := rfl
@[simp] theorem Dev.modPd_fresh (n : Nat) (f : PdChan → PdChan) : (d.modPd n f).fresh = d.fresh := rfl

@[simp] theorem Dev.modStr_wheel (i : Nat) (f : StrRt → StrRt) : (d.modStr i f).wheel = d.wheel := rfl
@[simp] theorem Dev.modStr_plane (i : Nat) (f : StrRt → StrRt) : (d.modStr i f).plane = d.plane := rfl
@[simp] theorem Dev.modStr_host (i : Nat) (f : StrRt → StrRt) : (d.modStr i f).host = d.host := rfl
@[simp] theorem Dev.modStr_slots (i : Nat) (f : StrRt → StrRt) : (d.modStr i f).slots = d.slots := rfl
@[simp] theorem Dev.modStr_waits (i : Nat) (f : StrRt → StrRt) : (d.modStr i f).waits = d.waits := rfl
@[simp] theorem Dev.modStr_acq (i : Nat) (f : StrRt → StrRt) : (d.modStr i f).acq = d.acq := rfl
@[simp] theorem Dev.modStr_thr (i : Nat) (f : StrRt → StrRt) : (d.modStr i f).thr = d.thr := rfl
@[simp] theorem Dev.modStr_pwm (i : Nat) (f : StrRt → StrRt) : (d.modStr i f).pwm = d.pwm := rfl
@[simp] theorem Dev.modStr_kiln (i : Nat) (f : StrRt → StrRt) : (d.modStr i f).kiln = d.kiln := rfl
@[simp] theorem Dev.modStr_feeds (i : Nat) (f : StrRt → StrRt) : (d.modStr i f).feeds = d.feeds := rfl
@[simp] theorem Dev.modStr_branches (i : Nat) (f : StrRt → StrRt) : (d.modStr i f).branches = d.branches := rfl
@[simp] theorem Dev.modStr_seq (i : Nat) (f : StrRt → StrRt) : (d.modStr i f).seq = d.seq := rfl
@[simp] theorem Dev.modStr_src (i : Nat) (f : StrRt → StrRt) : (d.modStr i f).src = d.src := rfl
@[simp] theorem Dev.modStr_strSeen (i : Nat) (f : StrRt → StrRt) : (d.modStr i f).strSeen = d.strSeen := rfl
@[simp] theorem Dev.modStr_led (i : Nat) (f : StrRt → StrRt) : (d.modStr i f).led = d.led := rfl
@[simp] theorem Dev.modStr_turnStart (i : Nat) (f : StrRt → StrRt) : (d.modStr i f).turnStart = d.turnStart := rfl
@[simp] theorem Dev.modStr_turnDur (i : Nat) (f : StrRt → StrRt) : (d.modStr i f).turnDur = d.turnDur := rfl
@[simp] theorem Dev.modStr_heat (i : Nat) (f : StrRt → StrRt) : (d.modStr i f).heat = d.heat := rfl
@[simp] theorem Dev.modStr_wit (i : Nat) (f : StrRt → StrRt) : (d.modStr i f).wit = d.wit := rfl
@[simp] theorem Dev.modStr_net (i : Nat) (f : StrRt → StrRt) : (d.modStr i f).net = d.net := rfl
@[simp] theorem Dev.modStr_sag (i : Nat) (f : StrRt → StrRt) : (d.modStr i f).sag = d.sag := rfl
@[simp] theorem Dev.modStr_lanes (i : Nat) (f : StrRt → StrRt) : (d.modStr i f).lanes = d.lanes := rfl
@[simp] theorem Dev.modStr_sram (i : Nat) (f : StrRt → StrRt) : (d.modStr i f).sram = d.sram := rfl
@[simp] theorem Dev.modStr_img (i : Nat) (f : StrRt → StrRt) : (d.modStr i f).img = d.img := rfl
@[simp] theorem Dev.modStr_twb (i : Nat) (f : StrRt → StrRt) : (d.modStr i f).twb = d.twb := rfl
@[simp] theorem Dev.modStr_tal (i : Nat) (f : StrRt → StrRt) : (d.modStr i f).tal = d.tal := rfl
@[simp] theorem Dev.modStr_pow (i : Nat) (f : StrRt → StrRt) : (d.modStr i f).pow = d.pow := rfl
@[simp] theorem Dev.modStr_sitter (i : Nat) (f : StrRt → StrRt) : (d.modStr i f).sitter = d.sitter := rfl
@[simp] theorem Dev.modStr_now (i : Nat) (f : StrRt → StrRt) : (d.modStr i f).now = d.now := rfl
@[simp] theorem Dev.modStr_tickNow (i : Nat) (f : StrRt → StrRt) : (d.modStr i f).tickNow = d.tickNow := rfl
@[simp] theorem Dev.modStr_onceTurn (i : Nat) (f : StrRt → StrRt) : (d.modStr i f).onceTurn = d.onceTurn := rfl
@[simp] theorem Dev.modStr_onceRound (i : Nat) (f : StrRt → StrRt) : (d.modStr i f).onceRound = d.onceRound := rfl
@[simp] theorem Dev.modStr_fresh (i : Nat) (f : StrRt → StrRt) : (d.modStr i f).fresh = d.fresh := rfl

@[simp] theorem Dev.modChan_wheel (c : Nat) (f : Chan → Chan) : (d.modChan c f).wheel = d.wheel := by unfold Dev.modChan; split <;> rfl
@[simp] theorem Dev.modChan_plane (c : Nat) (f : Chan → Chan) : (d.modChan c f).plane = d.plane := by unfold Dev.modChan; split <;> rfl
@[simp] theorem Dev.modChan_host (c : Nat) (f : Chan → Chan) : (d.modChan c f).host = d.host := by unfold Dev.modChan; split <;> rfl
@[simp] theorem Dev.modChan_slots (c : Nat) (f : Chan → Chan) : (d.modChan c f).slots = d.slots := by unfold Dev.modChan; split <;> rfl
@[simp] theorem Dev.modChan_waits (c : Nat) (f : Chan → Chan) : (d.modChan c f).waits = d.waits := by unfold Dev.modChan; split <;> rfl
@[simp] theorem Dev.modChan_acq (c : Nat) (f : Chan → Chan) : (d.modChan c f).acq = d.acq := by unfold Dev.modChan; split <;> rfl
@[simp] theorem Dev.modChan_thr (c : Nat) (f : Chan → Chan) : (d.modChan c f).thr = d.thr := by unfold Dev.modChan; split <;> rfl
@[simp] theorem Dev.modChan_pwm (c : Nat) (f : Chan → Chan) : (d.modChan c f).pwm = d.pwm := by unfold Dev.modChan; split <;> rfl
@[simp] theorem Dev.modChan_kiln (c : Nat) (f : Chan → Chan) : (d.modChan c f).kiln = d.kiln := by unfold Dev.modChan; split <;> rfl
@[simp] theorem Dev.modChan_seq (c : Nat) (f : Chan → Chan) : (d.modChan c f).seq = d.seq := by unfold Dev.modChan; split <;> rfl
@[simp] theorem Dev.modChan_src (c : Nat) (f : Chan → Chan) : (d.modChan c f).src = d.src := by unfold Dev.modChan; split <;> rfl
@[simp] theorem Dev.modChan_strs (c : Nat) (f : Chan → Chan) : (d.modChan c f).strs = d.strs := by unfold Dev.modChan; split <;> rfl
@[simp] theorem Dev.modChan_strSeen (c : Nat) (f : Chan → Chan) : (d.modChan c f).strSeen = d.strSeen := by unfold Dev.modChan; split <;> rfl
@[simp] theorem Dev.modChan_led (c : Nat) (f : Chan → Chan) : (d.modChan c f).led = d.led := by unfold Dev.modChan; split <;> rfl
@[simp] theorem Dev.modChan_turnStart (c : Nat) (f : Chan → Chan) : (d.modChan c f).turnStart = d.turnStart := by unfold Dev.modChan; split <;> rfl
@[simp] theorem Dev.modChan_turnDur (c : Nat) (f : Chan → Chan) : (d.modChan c f).turnDur = d.turnDur := by unfold Dev.modChan; split <;> rfl
@[simp] theorem Dev.modChan_heat (c : Nat) (f : Chan → Chan) : (d.modChan c f).heat = d.heat := by unfold Dev.modChan; split <;> rfl
@[simp] theorem Dev.modChan_wit (c : Nat) (f : Chan → Chan) : (d.modChan c f).wit = d.wit := by unfold Dev.modChan; split <;> rfl
@[simp] theorem Dev.modChan_net (c : Nat) (f : Chan → Chan) : (d.modChan c f).net = d.net := by unfold Dev.modChan; split <;> rfl
@[simp] theorem Dev.modChan_sag (c : Nat) (f : Chan → Chan) : (d.modChan c f).sag = d.sag := by unfold Dev.modChan; split <;> rfl
@[simp] theorem Dev.modChan_lanes (c : Nat) (f : Chan → Chan) : (d.modChan c f).lanes = d.lanes := by unfold Dev.modChan; split <;> rfl
@[simp] theorem Dev.modChan_sram (c : Nat) (f : Chan → Chan) : (d.modChan c f).sram = d.sram := by unfold Dev.modChan; split <;> rfl
@[simp] theorem Dev.modChan_img (c : Nat) (f : Chan → Chan) : (d.modChan c f).img = d.img := by unfold Dev.modChan; split <;> rfl
@[simp] theorem Dev.modChan_twb (c : Nat) (f : Chan → Chan) : (d.modChan c f).twb = d.twb := by unfold Dev.modChan; split <;> rfl
@[simp] theorem Dev.modChan_tal (c : Nat) (f : Chan → Chan) : (d.modChan c f).tal = d.tal := by unfold Dev.modChan; split <;> rfl
@[simp] theorem Dev.modChan_pow (c : Nat) (f : Chan → Chan) : (d.modChan c f).pow = d.pow := by unfold Dev.modChan; split <;> rfl
@[simp] theorem Dev.modChan_sitter (c : Nat) (f : Chan → Chan) : (d.modChan c f).sitter = d.sitter := by unfold Dev.modChan; split <;> rfl
@[simp] theorem Dev.modChan_now (c : Nat) (f : Chan → Chan) : (d.modChan c f).now = d.now := by unfold Dev.modChan; split <;> rfl
@[simp] theorem Dev.modChan_tickNow (c : Nat) (f : Chan → Chan) : (d.modChan c f).tickNow = d.tickNow := by unfold Dev.modChan; split <;> rfl
@[simp] theorem Dev.modChan_onceTurn (c : Nat) (f : Chan → Chan) : (d.modChan c f).onceTurn = d.onceTurn := by unfold Dev.modChan; split <;> rfl
@[simp] theorem Dev.modChan_onceRound (c : Nat) (f : Chan → Chan) : (d.modChan c f).onceRound = d.onceRound := by unfold Dev.modChan; split <;> rfl
@[simp] theorem Dev.modChan_fresh (c : Nat) (f : Chan → Chan) : (d.modChan c f).fresh = d.fresh := by unfold Dev.modChan; split <;> rfl

@[simp] theorem Dev.modImg_wheel (s : Nat) (f : ImgSlot → ImgSlot) : (d.modImg s f).wheel = d.wheel := rfl
@[simp] theorem Dev.modImg_plane (s : Nat) (f : ImgSlot → ImgSlot) : (d.modImg s f).plane = d.plane := rfl
@[simp] theorem Dev.modImg_host (s : Nat) (f : ImgSlot → ImgSlot) : (d.modImg s f).host = d.host := rfl
@[simp] theorem Dev.modImg_slots (s : Nat) (f : ImgSlot → ImgSlot) : (d.modImg s f).slots = d.slots := rfl
@[simp] theorem Dev.modImg_waits (s : Nat) (f : ImgSlot → ImgSlot) : (d.modImg s f).waits = d.waits := rfl
@[simp] theorem Dev.modImg_acq (s : Nat) (f : ImgSlot → ImgSlot) : (d.modImg s f).acq = d.acq := rfl
@[simp] theorem Dev.modImg_thr (s : Nat) (f : ImgSlot → ImgSlot) : (d.modImg s f).thr = d.thr := rfl
@[simp] theorem Dev.modImg_pwm (s : Nat) (f : ImgSlot → ImgSlot) : (d.modImg s f).pwm = d.pwm := rfl
@[simp] theorem Dev.modImg_kiln (s : Nat) (f : ImgSlot → ImgSlot) : (d.modImg s f).kiln = d.kiln := rfl
@[simp] theorem Dev.modImg_feeds (s : Nat) (f : ImgSlot → ImgSlot) : (d.modImg s f).feeds = d.feeds := rfl
@[simp] theorem Dev.modImg_branches (s : Nat) (f : ImgSlot → ImgSlot) : (d.modImg s f).branches = d.branches := rfl
@[simp] theorem Dev.modImg_seq (s : Nat) (f : ImgSlot → ImgSlot) : (d.modImg s f).seq = d.seq := rfl
@[simp] theorem Dev.modImg_src (s : Nat) (f : ImgSlot → ImgSlot) : (d.modImg s f).src = d.src := rfl
@[simp] theorem Dev.modImg_strs (s : Nat) (f : ImgSlot → ImgSlot) : (d.modImg s f).strs = d.strs := rfl
@[simp] theorem Dev.modImg_strSeen (s : Nat) (f : ImgSlot → ImgSlot) : (d.modImg s f).strSeen = d.strSeen := rfl
@[simp] theorem Dev.modImg_led (s : Nat) (f : ImgSlot → ImgSlot) : (d.modImg s f).led = d.led := rfl
@[simp] theorem Dev.modImg_turnStart (s : Nat) (f : ImgSlot → ImgSlot) : (d.modImg s f).turnStart = d.turnStart := rfl
@[simp] theorem Dev.modImg_turnDur (s : Nat) (f : ImgSlot → ImgSlot) : (d.modImg s f).turnDur = d.turnDur := rfl
@[simp] theorem Dev.modImg_heat (s : Nat) (f : ImgSlot → ImgSlot) : (d.modImg s f).heat = d.heat := rfl
@[simp] theorem Dev.modImg_wit (s : Nat) (f : ImgSlot → ImgSlot) : (d.modImg s f).wit = d.wit := rfl
@[simp] theorem Dev.modImg_net (s : Nat) (f : ImgSlot → ImgSlot) : (d.modImg s f).net = d.net := rfl
@[simp] theorem Dev.modImg_sag (s : Nat) (f : ImgSlot → ImgSlot) : (d.modImg s f).sag = d.sag := rfl
@[simp] theorem Dev.modImg_lanes (s : Nat) (f : ImgSlot → ImgSlot) : (d.modImg s f).lanes = d.lanes := rfl
@[simp] theorem Dev.modImg_sram (s : Nat) (f : ImgSlot → ImgSlot) : (d.modImg s f).sram = d.sram := rfl
@[simp] theorem Dev.modImg_twb (s : Nat) (f : ImgSlot → ImgSlot) : (d.modImg s f).twb = d.twb := rfl
@[simp] theorem Dev.modImg_tal (s : Nat) (f : ImgSlot → ImgSlot) : (d.modImg s f).tal = d.tal := rfl
@[simp] theorem Dev.modImg_pow (s : Nat) (f : ImgSlot → ImgSlot) : (d.modImg s f).pow = d.pow := rfl
@[simp] theorem Dev.modImg_sitter (s : Nat) (f : ImgSlot → ImgSlot) : (d.modImg s f).sitter = d.sitter := rfl
@[simp] theorem Dev.modImg_now (s : Nat) (f : ImgSlot → ImgSlot) : (d.modImg s f).now = d.now := rfl
@[simp] theorem Dev.modImg_tickNow (s : Nat) (f : ImgSlot → ImgSlot) : (d.modImg s f).tickNow = d.tickNow := rfl
@[simp] theorem Dev.modImg_onceTurn (s : Nat) (f : ImgSlot → ImgSlot) : (d.modImg s f).onceTurn = d.onceTurn := rfl
@[simp] theorem Dev.modImg_onceRound (s : Nat) (f : ImgSlot → ImgSlot) : (d.modImg s f).onceRound = d.onceRound := rfl
@[simp] theorem Dev.modImg_fresh (s : Nat) (f : ImgSlot → ImgSlot) : (d.modImg s f).fresh = d.fresh := rfl

@[simp] theorem Dev.modSens_wheel (n : Nat) (f : SensorRt → SensorRt) : (d.modSens n f).wheel = d.wheel := rfl
@[simp] theorem Dev.modSens_plane (n : Nat) (f : SensorRt → SensorRt) : (d.modSens n f).plane = d.plane := rfl
@[simp] theorem Dev.modSens_host (n : Nat) (f : SensorRt → SensorRt) : (d.modSens n f).host = d.host := rfl
@[simp] theorem Dev.modSens_slots (n : Nat) (f : SensorRt → SensorRt) : (d.modSens n f).slots = d.slots := rfl
@[simp] theorem Dev.modSens_waits (n : Nat) (f : SensorRt → SensorRt) : (d.modSens n f).waits = d.waits := rfl
@[simp] theorem Dev.modSens_acq (n : Nat) (f : SensorRt → SensorRt) : (d.modSens n f).acq = d.acq := rfl
@[simp] theorem Dev.modSens_thr (n : Nat) (f : SensorRt → SensorRt) : (d.modSens n f).thr = d.thr := rfl
@[simp] theorem Dev.modSens_pwm (n : Nat) (f : SensorRt → SensorRt) : (d.modSens n f).pwm = d.pwm := rfl
@[simp] theorem Dev.modSens_kiln (n : Nat) (f : SensorRt → SensorRt) : (d.modSens n f).kiln = d.kiln := rfl
@[simp] theorem Dev.modSens_feeds (n : Nat) (f : SensorRt → SensorRt) : (d.modSens n f).feeds = d.feeds := rfl
@[simp] theorem Dev.modSens_branches (n : Nat) (f : SensorRt → SensorRt) : (d.modSens n f).branches = d.branches := rfl
@[simp] theorem Dev.modSens_seq (n : Nat) (f : SensorRt → SensorRt) : (d.modSens n f).seq = d.seq := rfl
@[simp] theorem Dev.modSens_src (n : Nat) (f : SensorRt → SensorRt) : (d.modSens n f).src = d.src := rfl
@[simp] theorem Dev.modSens_strs (n : Nat) (f : SensorRt → SensorRt) : (d.modSens n f).strs = d.strs := rfl
@[simp] theorem Dev.modSens_strSeen (n : Nat) (f : SensorRt → SensorRt) : (d.modSens n f).strSeen = d.strSeen := rfl
@[simp] theorem Dev.modSens_led (n : Nat) (f : SensorRt → SensorRt) : (d.modSens n f).led = d.led := rfl
@[simp] theorem Dev.modSens_turnStart (n : Nat) (f : SensorRt → SensorRt) : (d.modSens n f).turnStart = d.turnStart := rfl
@[simp] theorem Dev.modSens_turnDur (n : Nat) (f : SensorRt → SensorRt) : (d.modSens n f).turnDur = d.turnDur := rfl
@[simp] theorem Dev.modSens_wit (n : Nat) (f : SensorRt → SensorRt) : (d.modSens n f).wit = d.wit := rfl
@[simp] theorem Dev.modSens_net (n : Nat) (f : SensorRt → SensorRt) : (d.modSens n f).net = d.net := rfl
@[simp] theorem Dev.modSens_sag (n : Nat) (f : SensorRt → SensorRt) : (d.modSens n f).sag = d.sag := rfl
@[simp] theorem Dev.modSens_lanes (n : Nat) (f : SensorRt → SensorRt) : (d.modSens n f).lanes = d.lanes := rfl
@[simp] theorem Dev.modSens_sram (n : Nat) (f : SensorRt → SensorRt) : (d.modSens n f).sram = d.sram := rfl
@[simp] theorem Dev.modSens_img (n : Nat) (f : SensorRt → SensorRt) : (d.modSens n f).img = d.img := rfl
@[simp] theorem Dev.modSens_twb (n : Nat) (f : SensorRt → SensorRt) : (d.modSens n f).twb = d.twb := rfl
@[simp] theorem Dev.modSens_tal (n : Nat) (f : SensorRt → SensorRt) : (d.modSens n f).tal = d.tal := rfl
@[simp] theorem Dev.modSens_pow (n : Nat) (f : SensorRt → SensorRt) : (d.modSens n f).pow = d.pow := rfl
@[simp] theorem Dev.modSens_sitter (n : Nat) (f : SensorRt → SensorRt) : (d.modSens n f).sitter = d.sitter := rfl
@[simp] theorem Dev.modSens_now (n : Nat) (f : SensorRt → SensorRt) : (d.modSens n f).now = d.now := rfl
@[simp] theorem Dev.modSens_tickNow (n : Nat) (f : SensorRt → SensorRt) : (d.modSens n f).tickNow = d.tickNow := rfl
@[simp] theorem Dev.modSens_onceTurn (n : Nat) (f : SensorRt → SensorRt) : (d.modSens n f).onceTurn = d.onceTurn := rfl
@[simp] theorem Dev.modSens_onceRound (n : Nat) (f : SensorRt → SensorRt) : (d.modSens n f).onceRound = d.onceRound := rfl
@[simp] theorem Dev.modSens_fresh (n : Nat) (f : SensorRt → SensorRt) : (d.modSens n f).fresh = d.fresh := rfl

@[simp] theorem Dev.modCones_wheel (n : Nat) (f : Cones → Cones) : (d.modCones n f).wheel = d.wheel := rfl
@[simp] theorem Dev.modCones_plane (n : Nat) (f : Cones → Cones) : (d.modCones n f).plane = d.plane := rfl
@[simp] theorem Dev.modCones_host (n : Nat) (f : Cones → Cones) : (d.modCones n f).host = d.host := rfl
@[simp] theorem Dev.modCones_slots (n : Nat) (f : Cones → Cones) : (d.modCones n f).slots = d.slots := rfl
@[simp] theorem Dev.modCones_waits (n : Nat) (f : Cones → Cones) : (d.modCones n f).waits = d.waits := rfl
@[simp] theorem Dev.modCones_acq (n : Nat) (f : Cones → Cones) : (d.modCones n f).acq = d.acq := rfl
@[simp] theorem Dev.modCones_thr (n : Nat) (f : Cones → Cones) : (d.modCones n f).thr = d.thr := rfl
@[simp] theorem Dev.modCones_pwm (n : Nat) (f : Cones → Cones) : (d.modCones n f).pwm = d.pwm := rfl
@[simp] theorem Dev.modCones_kiln (n : Nat) (f : Cones → Cones) : (d.modCones n f).kiln = d.kiln := rfl
@[simp] theorem Dev.modCones_feeds (n : Nat) (f : Cones → Cones) : (d.modCones n f).feeds = d.feeds := rfl
@[simp] theorem Dev.modCones_branches (n : Nat) (f : Cones → Cones) : (d.modCones n f).branches = d.branches := rfl
@[simp] theorem Dev.modCones_seq (n : Nat) (f : Cones → Cones) : (d.modCones n f).seq = d.seq := rfl
@[simp] theorem Dev.modCones_src (n : Nat) (f : Cones → Cones) : (d.modCones n f).src = d.src := rfl
@[simp] theorem Dev.modCones_strs (n : Nat) (f : Cones → Cones) : (d.modCones n f).strs = d.strs := rfl
@[simp] theorem Dev.modCones_strSeen (n : Nat) (f : Cones → Cones) : (d.modCones n f).strSeen = d.strSeen := rfl
@[simp] theorem Dev.modCones_led (n : Nat) (f : Cones → Cones) : (d.modCones n f).led = d.led := rfl
@[simp] theorem Dev.modCones_turnStart (n : Nat) (f : Cones → Cones) : (d.modCones n f).turnStart = d.turnStart := rfl
@[simp] theorem Dev.modCones_turnDur (n : Nat) (f : Cones → Cones) : (d.modCones n f).turnDur = d.turnDur := rfl
@[simp] theorem Dev.modCones_wit (n : Nat) (f : Cones → Cones) : (d.modCones n f).wit = d.wit := rfl
@[simp] theorem Dev.modCones_net (n : Nat) (f : Cones → Cones) : (d.modCones n f).net = d.net := rfl
@[simp] theorem Dev.modCones_sag (n : Nat) (f : Cones → Cones) : (d.modCones n f).sag = d.sag := rfl
@[simp] theorem Dev.modCones_lanes (n : Nat) (f : Cones → Cones) : (d.modCones n f).lanes = d.lanes := rfl
@[simp] theorem Dev.modCones_sram (n : Nat) (f : Cones → Cones) : (d.modCones n f).sram = d.sram := rfl
@[simp] theorem Dev.modCones_img (n : Nat) (f : Cones → Cones) : (d.modCones n f).img = d.img := rfl
@[simp] theorem Dev.modCones_twb (n : Nat) (f : Cones → Cones) : (d.modCones n f).twb = d.twb := rfl
@[simp] theorem Dev.modCones_tal (n : Nat) (f : Cones → Cones) : (d.modCones n f).tal = d.tal := rfl
@[simp] theorem Dev.modCones_pow (n : Nat) (f : Cones → Cones) : (d.modCones n f).pow = d.pow := rfl
@[simp] theorem Dev.modCones_sitter (n : Nat) (f : Cones → Cones) : (d.modCones n f).sitter = d.sitter := rfl
@[simp] theorem Dev.modCones_now (n : Nat) (f : Cones → Cones) : (d.modCones n f).now = d.now := rfl
@[simp] theorem Dev.modCones_tickNow (n : Nat) (f : Cones → Cones) : (d.modCones n f).tickNow = d.tickNow := rfl
@[simp] theorem Dev.modCones_onceTurn (n : Nat) (f : Cones → Cones) : (d.modCones n f).onceTurn = d.onceTurn := rfl
@[simp] theorem Dev.modCones_onceRound (n : Nat) (f : Cones → Cones) : (d.modCones n f).onceRound = d.onceRound := rfl
@[simp] theorem Dev.modCones_fresh (n : Nat) (f : Cones → Cones) : (d.modCones n f).fresh = d.fresh := rfl

@[simp] theorem Dev.modLed_wheel (f : Led → Led) : (d.modLed f).wheel = d.wheel := rfl
@[simp] theorem Dev.modLed_plane (f : Led → Led) : (d.modLed f).plane = d.plane := rfl
@[simp] theorem Dev.modLed_host (f : Led → Led) : (d.modLed f).host = d.host := rfl
@[simp] theorem Dev.modLed_slots (f : Led → Led) : (d.modLed f).slots = d.slots := rfl
@[simp] theorem Dev.modLed_waits (f : Led → Led) : (d.modLed f).waits = d.waits := rfl
@[simp] theorem Dev.modLed_acq (f : Led → Led) : (d.modLed f).acq = d.acq := rfl
@[simp] theorem Dev.modLed_thr (f : Led → Led) : (d.modLed f).thr = d.thr := rfl
@[simp] theorem Dev.modLed_pwm (f : Led → Led) : (d.modLed f).pwm = d.pwm := rfl
@[simp] theorem Dev.modLed_kiln (f : Led → Led) : (d.modLed f).kiln = d.kiln := rfl
@[simp] theorem Dev.modLed_feeds (f : Led → Led) : (d.modLed f).feeds = d.feeds := rfl
@[simp] theorem Dev.modLed_branches (f : Led → Led) : (d.modLed f).branches = d.branches := rfl
@[simp] theorem Dev.modLed_seq (f : Led → Led) : (d.modLed f).seq = d.seq := rfl
@[simp] theorem Dev.modLed_src (f : Led → Led) : (d.modLed f).src = d.src := rfl
@[simp] theorem Dev.modLed_strs (f : Led → Led) : (d.modLed f).strs = d.strs := rfl
@[simp] theorem Dev.modLed_strSeen (f : Led → Led) : (d.modLed f).strSeen = d.strSeen := rfl
@[simp] theorem Dev.modLed_turnStart (f : Led → Led) : (d.modLed f).turnStart = d.turnStart := rfl
@[simp] theorem Dev.modLed_turnDur (f : Led → Led) : (d.modLed f).turnDur = d.turnDur := rfl
@[simp] theorem Dev.modLed_heat (f : Led → Led) : (d.modLed f).heat = d.heat := rfl
@[simp] theorem Dev.modLed_wit (f : Led → Led) : (d.modLed f).wit = d.wit := rfl
@[simp] theorem Dev.modLed_net (f : Led → Led) : (d.modLed f).net = d.net := rfl
@[simp] theorem Dev.modLed_sag (f : Led → Led) : (d.modLed f).sag = d.sag := rfl
@[simp] theorem Dev.modLed_lanes (f : Led → Led) : (d.modLed f).lanes = d.lanes := rfl
@[simp] theorem Dev.modLed_sram (f : Led → Led) : (d.modLed f).sram = d.sram := rfl
@[simp] theorem Dev.modLed_img (f : Led → Led) : (d.modLed f).img = d.img := rfl
@[simp] theorem Dev.modLed_twb (f : Led → Led) : (d.modLed f).twb = d.twb := rfl
@[simp] theorem Dev.modLed_tal (f : Led → Led) : (d.modLed f).tal = d.tal := rfl
@[simp] theorem Dev.modLed_pow (f : Led → Led) : (d.modLed f).pow = d.pow := rfl
@[simp] theorem Dev.modLed_sitter (f : Led → Led) : (d.modLed f).sitter = d.sitter := rfl
@[simp] theorem Dev.modLed_now (f : Led → Led) : (d.modLed f).now = d.now := rfl
@[simp] theorem Dev.modLed_tickNow (f : Led → Led) : (d.modLed f).tickNow = d.tickNow := rfl
@[simp] theorem Dev.modLed_onceTurn (f : Led → Led) : (d.modLed f).onceTurn = d.onceTurn := rfl
@[simp] theorem Dev.modLed_onceRound (f : Led → Led) : (d.modLed f).onceRound = d.onceRound := rfl
@[simp] theorem Dev.modLed_fresh (f : Led → Led) : (d.modLed f).fresh = d.fresh := rfl

@[simp] theorem Dev.modStrm_wheel (n : Nat) (f : StreamRt → StreamRt) : (d.modStrm n f).wheel = d.wheel := rfl
@[simp] theorem Dev.modStrm_plane (n : Nat) (f : StreamRt → StreamRt) : (d.modStrm n f).plane = d.plane := rfl
@[simp] theorem Dev.modStrm_host (n : Nat) (f : StreamRt → StreamRt) : (d.modStrm n f).host = d.host := rfl
@[simp] theorem Dev.modStrm_slots (n : Nat) (f : StreamRt → StreamRt) : (d.modStrm n f).slots = d.slots := rfl
@[simp] theorem Dev.modStrm_waits (n : Nat) (f : StreamRt → StreamRt) : (d.modStrm n f).waits = d.waits := rfl
@[simp] theorem Dev.modStrm_acq (n : Nat) (f : StreamRt → StreamRt) : (d.modStrm n f).acq = d.acq := rfl
@[simp] theorem Dev.modStrm_thr (n : Nat) (f : StreamRt → StreamRt) : (d.modStrm n f).thr = d.thr := rfl
@[simp] theorem Dev.modStrm_pwm (n : Nat) (f : StreamRt → StreamRt) : (d.modStrm n f).pwm = d.pwm := rfl
@[simp] theorem Dev.modStrm_kiln (n : Nat) (f : StreamRt → StreamRt) : (d.modStrm n f).kiln = d.kiln := rfl
@[simp] theorem Dev.modStrm_feeds (n : Nat) (f : StreamRt → StreamRt) : (d.modStrm n f).feeds = d.feeds := rfl
@[simp] theorem Dev.modStrm_branches (n : Nat) (f : StreamRt → StreamRt) : (d.modStrm n f).branches = d.branches := rfl
@[simp] theorem Dev.modStrm_seq (n : Nat) (f : StreamRt → StreamRt) : (d.modStrm n f).seq = d.seq := rfl
@[simp] theorem Dev.modStrm_src (n : Nat) (f : StreamRt → StreamRt) : (d.modStrm n f).src = d.src := rfl
@[simp] theorem Dev.modStrm_strs (n : Nat) (f : StreamRt → StreamRt) : (d.modStrm n f).strs = d.strs := rfl
@[simp] theorem Dev.modStrm_strSeen (n : Nat) (f : StreamRt → StreamRt) : (d.modStrm n f).strSeen = d.strSeen := rfl
@[simp] theorem Dev.modStrm_led (n : Nat) (f : StreamRt → StreamRt) : (d.modStrm n f).led = d.led := rfl
@[simp] theorem Dev.modStrm_turnStart (n : Nat) (f : StreamRt → StreamRt) : (d.modStrm n f).turnStart = d.turnStart := rfl
@[simp] theorem Dev.modStrm_turnDur (n : Nat) (f : StreamRt → StreamRt) : (d.modStrm n f).turnDur = d.turnDur := rfl
@[simp] theorem Dev.modStrm_heat (n : Nat) (f : StreamRt → StreamRt) : (d.modStrm n f).heat = d.heat := rfl
@[simp] theorem Dev.modStrm_wit (n : Nat) (f : StreamRt → StreamRt) : (d.modStrm n f).wit = d.wit := rfl
@[simp] theorem Dev.modStrm_sag (n : Nat) (f : StreamRt → StreamRt) : (d.modStrm n f).sag = d.sag := rfl
@[simp] theorem Dev.modStrm_lanes (n : Nat) (f : StreamRt → StreamRt) : (d.modStrm n f).lanes = d.lanes := rfl
@[simp] theorem Dev.modStrm_sram (n : Nat) (f : StreamRt → StreamRt) : (d.modStrm n f).sram = d.sram := rfl
@[simp] theorem Dev.modStrm_img (n : Nat) (f : StreamRt → StreamRt) : (d.modStrm n f).img = d.img := rfl
@[simp] theorem Dev.modStrm_twb (n : Nat) (f : StreamRt → StreamRt) : (d.modStrm n f).twb = d.twb := rfl
@[simp] theorem Dev.modStrm_tal (n : Nat) (f : StreamRt → StreamRt) : (d.modStrm n f).tal = d.tal := rfl
@[simp] theorem Dev.modStrm_pow (n : Nat) (f : StreamRt → StreamRt) : (d.modStrm n f).pow = d.pow := rfl
@[simp] theorem Dev.modStrm_sitter (n : Nat) (f : StreamRt → StreamRt) : (d.modStrm n f).sitter = d.sitter := rfl
@[simp] theorem Dev.modStrm_now (n : Nat) (f : StreamRt → StreamRt) : (d.modStrm n f).now = d.now := rfl
@[simp] theorem Dev.modStrm_tickNow (n : Nat) (f : StreamRt → StreamRt) : (d.modStrm n f).tickNow = d.tickNow := rfl
@[simp] theorem Dev.modStrm_onceTurn (n : Nat) (f : StreamRt → StreamRt) : (d.modStrm n f).onceTurn = d.onceTurn := rfl
@[simp] theorem Dev.modStrm_onceRound (n : Nat) (f : StreamRt → StreamRt) : (d.modStrm n f).onceRound = d.onceRound := rfl
@[simp] theorem Dev.modStrm_fresh (n : Nat) (f : StreamRt → StreamRt) : (d.modStrm n f).fresh = d.fresh := rfl

@[simp] theorem Dev.modPort_wheel (p : Nat) (f : Port → Port) : (d.modPort p f).wheel = d.wheel := rfl
@[simp] theorem Dev.modPort_plane (p : Nat) (f : Port → Port) : (d.modPort p f).plane = d.plane := rfl
@[simp] theorem Dev.modPort_host (p : Nat) (f : Port → Port) : (d.modPort p f).host = d.host := rfl
@[simp] theorem Dev.modPort_slots (p : Nat) (f : Port → Port) : (d.modPort p f).slots = d.slots := rfl
@[simp] theorem Dev.modPort_waits (p : Nat) (f : Port → Port) : (d.modPort p f).waits = d.waits := rfl
@[simp] theorem Dev.modPort_acq (p : Nat) (f : Port → Port) : (d.modPort p f).acq = d.acq := rfl
@[simp] theorem Dev.modPort_thr (p : Nat) (f : Port → Port) : (d.modPort p f).thr = d.thr := rfl
@[simp] theorem Dev.modPort_pwm (p : Nat) (f : Port → Port) : (d.modPort p f).pwm = d.pwm := rfl
@[simp] theorem Dev.modPort_kiln (p : Nat) (f : Port → Port) : (d.modPort p f).kiln = d.kiln := rfl
@[simp] theorem Dev.modPort_feeds (p : Nat) (f : Port → Port) : (d.modPort p f).feeds = d.feeds := rfl
@[simp] theorem Dev.modPort_branches (p : Nat) (f : Port → Port) : (d.modPort p f).branches = d.branches := rfl
@[simp] theorem Dev.modPort_seq (p : Nat) (f : Port → Port) : (d.modPort p f).seq = d.seq := rfl
@[simp] theorem Dev.modPort_src (p : Nat) (f : Port → Port) : (d.modPort p f).src = d.src := rfl
@[simp] theorem Dev.modPort_strs (p : Nat) (f : Port → Port) : (d.modPort p f).strs = d.strs := rfl
@[simp] theorem Dev.modPort_strSeen (p : Nat) (f : Port → Port) : (d.modPort p f).strSeen = d.strSeen := rfl
@[simp] theorem Dev.modPort_led (p : Nat) (f : Port → Port) : (d.modPort p f).led = d.led := rfl
@[simp] theorem Dev.modPort_turnStart (p : Nat) (f : Port → Port) : (d.modPort p f).turnStart = d.turnStart := rfl
@[simp] theorem Dev.modPort_turnDur (p : Nat) (f : Port → Port) : (d.modPort p f).turnDur = d.turnDur := rfl
@[simp] theorem Dev.modPort_heat (p : Nat) (f : Port → Port) : (d.modPort p f).heat = d.heat := rfl
@[simp] theorem Dev.modPort_wit (p : Nat) (f : Port → Port) : (d.modPort p f).wit = d.wit := rfl
@[simp] theorem Dev.modPort_sag (p : Nat) (f : Port → Port) : (d.modPort p f).sag = d.sag := rfl
@[simp] theorem Dev.modPort_lanes (p : Nat) (f : Port → Port) : (d.modPort p f).lanes = d.lanes := rfl
@[simp] theorem Dev.modPort_sram (p : Nat) (f : Port → Port) : (d.modPort p f).sram = d.sram := rfl
@[simp] theorem Dev.modPort_img (p : Nat) (f : Port → Port) : (d.modPort p f).img = d.img := rfl
@[simp] theorem Dev.modPort_twb (p : Nat) (f : Port → Port) : (d.modPort p f).twb = d.twb := rfl
@[simp] theorem Dev.modPort_tal (p : Nat) (f : Port → Port) : (d.modPort p f).tal = d.tal := rfl
@[simp] theorem Dev.modPort_pow (p : Nat) (f : Port → Port) : (d.modPort p f).pow = d.pow := rfl
@[simp] theorem Dev.modPort_sitter (p : Nat) (f : Port → Port) : (d.modPort p f).sitter = d.sitter := rfl
@[simp] theorem Dev.modPort_now (p : Nat) (f : Port → Port) : (d.modPort p f).now = d.now := rfl
@[simp] theorem Dev.modPort_tickNow (p : Nat) (f : Port → Port) : (d.modPort p f).tickNow = d.tickNow := rfl
@[simp] theorem Dev.modPort_onceTurn (p : Nat) (f : Port → Port) : (d.modPort p f).onceTurn = d.onceTurn := rfl
@[simp] theorem Dev.modPort_onceRound (p : Nat) (f : Port → Port) : (d.modPort p f).onceRound = d.onceRound := rfl
@[simp] theorem Dev.modPort_fresh (p : Nat) (f : Port → Port) : (d.modPort p f).fresh = d.fresh := rfl

@[simp] theorem Dev.modBox_wheel (peer : Bool) (f : Mbox → Mbox) : (d.modBox peer f).wheel = d.wheel := rfl
@[simp] theorem Dev.modBox_plane (peer : Bool) (f : Mbox → Mbox) : (d.modBox peer f).plane = d.plane := rfl
@[simp] theorem Dev.modBox_host (peer : Bool) (f : Mbox → Mbox) : (d.modBox peer f).host = d.host := rfl
@[simp] theorem Dev.modBox_slots (peer : Bool) (f : Mbox → Mbox) : (d.modBox peer f).slots = d.slots := rfl
@[simp] theorem Dev.modBox_waits (peer : Bool) (f : Mbox → Mbox) : (d.modBox peer f).waits = d.waits := rfl
@[simp] theorem Dev.modBox_acq (peer : Bool) (f : Mbox → Mbox) : (d.modBox peer f).acq = d.acq := rfl
@[simp] theorem Dev.modBox_thr (peer : Bool) (f : Mbox → Mbox) : (d.modBox peer f).thr = d.thr := rfl
@[simp] theorem Dev.modBox_pwm (peer : Bool) (f : Mbox → Mbox) : (d.modBox peer f).pwm = d.pwm := rfl
@[simp] theorem Dev.modBox_kiln (peer : Bool) (f : Mbox → Mbox) : (d.modBox peer f).kiln = d.kiln := rfl
@[simp] theorem Dev.modBox_feeds (peer : Bool) (f : Mbox → Mbox) : (d.modBox peer f).feeds = d.feeds := rfl
@[simp] theorem Dev.modBox_branches (peer : Bool) (f : Mbox → Mbox) : (d.modBox peer f).branches = d.branches := rfl
@[simp] theorem Dev.modBox_seq (peer : Bool) (f : Mbox → Mbox) : (d.modBox peer f).seq = d.seq := rfl
@[simp] theorem Dev.modBox_src (peer : Bool) (f : Mbox → Mbox) : (d.modBox peer f).src = d.src := rfl
@[simp] theorem Dev.modBox_strs (peer : Bool) (f : Mbox → Mbox) : (d.modBox peer f).strs = d.strs := rfl
@[simp] theorem Dev.modBox_strSeen (peer : Bool) (f : Mbox → Mbox) : (d.modBox peer f).strSeen = d.strSeen := rfl
@[simp] theorem Dev.modBox_led (peer : Bool) (f : Mbox → Mbox) : (d.modBox peer f).led = d.led := rfl
@[simp] theorem Dev.modBox_turnStart (peer : Bool) (f : Mbox → Mbox) : (d.modBox peer f).turnStart = d.turnStart := rfl
@[simp] theorem Dev.modBox_turnDur (peer : Bool) (f : Mbox → Mbox) : (d.modBox peer f).turnDur = d.turnDur := rfl
@[simp] theorem Dev.modBox_heat (peer : Bool) (f : Mbox → Mbox) : (d.modBox peer f).heat = d.heat := rfl
@[simp] theorem Dev.modBox_wit (peer : Bool) (f : Mbox → Mbox) : (d.modBox peer f).wit = d.wit := rfl
@[simp] theorem Dev.modBox_net (peer : Bool) (f : Mbox → Mbox) : (d.modBox peer f).net = d.net := rfl
@[simp] theorem Dev.modBox_sag (peer : Bool) (f : Mbox → Mbox) : (d.modBox peer f).sag = d.sag := rfl
@[simp] theorem Dev.modBox_lanes (peer : Bool) (f : Mbox → Mbox) : (d.modBox peer f).lanes = d.lanes := rfl
@[simp] theorem Dev.modBox_sram (peer : Bool) (f : Mbox → Mbox) : (d.modBox peer f).sram = d.sram := rfl
@[simp] theorem Dev.modBox_img (peer : Bool) (f : Mbox → Mbox) : (d.modBox peer f).img = d.img := rfl
@[simp] theorem Dev.modBox_tal (peer : Bool) (f : Mbox → Mbox) : (d.modBox peer f).tal = d.tal := rfl
@[simp] theorem Dev.modBox_pow (peer : Bool) (f : Mbox → Mbox) : (d.modBox peer f).pow = d.pow := rfl
@[simp] theorem Dev.modBox_sitter (peer : Bool) (f : Mbox → Mbox) : (d.modBox peer f).sitter = d.sitter := rfl
@[simp] theorem Dev.modBox_now (peer : Bool) (f : Mbox → Mbox) : (d.modBox peer f).now = d.now := rfl
@[simp] theorem Dev.modBox_tickNow (peer : Bool) (f : Mbox → Mbox) : (d.modBox peer f).tickNow = d.tickNow := rfl
@[simp] theorem Dev.modBox_onceTurn (peer : Bool) (f : Mbox → Mbox) : (d.modBox peer f).onceTurn = d.onceTurn := rfl
@[simp] theorem Dev.modBox_onceRound (peer : Bool) (f : Mbox → Mbox) : (d.modBox peer f).onceRound = d.onceRound := rfl
@[simp] theorem Dev.modBox_fresh (peer : Bool) (f : Mbox → Mbox) : (d.modBox peer f).fresh = d.fresh := rfl

@[simp] theorem Dev.modLoop_wheel (i : Nat) (f : LoopRt → LoopRt) : (d.modLoop i f).wheel = d.wheel := rfl
@[simp] theorem Dev.modLoop_plane (i : Nat) (f : LoopRt → LoopRt) : (d.modLoop i f).plane = d.plane := rfl
@[simp] theorem Dev.modLoop_host (i : Nat) (f : LoopRt → LoopRt) : (d.modLoop i f).host = d.host := rfl
@[simp] theorem Dev.modLoop_slots (i : Nat) (f : LoopRt → LoopRt) : (d.modLoop i f).slots = d.slots := rfl
@[simp] theorem Dev.modLoop_waits (i : Nat) (f : LoopRt → LoopRt) : (d.modLoop i f).waits = d.waits := rfl
@[simp] theorem Dev.modLoop_acq (i : Nat) (f : LoopRt → LoopRt) : (d.modLoop i f).acq = d.acq := rfl
@[simp] theorem Dev.modLoop_pwm (i : Nat) (f : LoopRt → LoopRt) : (d.modLoop i f).pwm = d.pwm := rfl
@[simp] theorem Dev.modLoop_kiln (i : Nat) (f : LoopRt → LoopRt) : (d.modLoop i f).kiln = d.kiln := rfl
@[simp] theorem Dev.modLoop_feeds (i : Nat) (f : LoopRt → LoopRt) : (d.modLoop i f).feeds = d.feeds := rfl
@[simp] theorem Dev.modLoop_branches (i : Nat) (f : LoopRt → LoopRt) : (d.modLoop i f).branches = d.branches := rfl
@[simp] theorem Dev.modLoop_seq (i : Nat) (f : LoopRt → LoopRt) : (d.modLoop i f).seq = d.seq := rfl
@[simp] theorem Dev.modLoop_src (i : Nat) (f : LoopRt → LoopRt) : (d.modLoop i f).src = d.src := rfl
@[simp] theorem Dev.modLoop_strs (i : Nat) (f : LoopRt → LoopRt) : (d.modLoop i f).strs = d.strs := rfl
@[simp] theorem Dev.modLoop_strSeen (i : Nat) (f : LoopRt → LoopRt) : (d.modLoop i f).strSeen = d.strSeen := rfl
@[simp] theorem Dev.modLoop_led (i : Nat) (f : LoopRt → LoopRt) : (d.modLoop i f).led = d.led := rfl
@[simp] theorem Dev.modLoop_turnStart (i : Nat) (f : LoopRt → LoopRt) : (d.modLoop i f).turnStart = d.turnStart := rfl
@[simp] theorem Dev.modLoop_turnDur (i : Nat) (f : LoopRt → LoopRt) : (d.modLoop i f).turnDur = d.turnDur := rfl
@[simp] theorem Dev.modLoop_heat (i : Nat) (f : LoopRt → LoopRt) : (d.modLoop i f).heat = d.heat := rfl
@[simp] theorem Dev.modLoop_wit (i : Nat) (f : LoopRt → LoopRt) : (d.modLoop i f).wit = d.wit := rfl
@[simp] theorem Dev.modLoop_net (i : Nat) (f : LoopRt → LoopRt) : (d.modLoop i f).net = d.net := rfl
@[simp] theorem Dev.modLoop_sag (i : Nat) (f : LoopRt → LoopRt) : (d.modLoop i f).sag = d.sag := rfl
@[simp] theorem Dev.modLoop_lanes (i : Nat) (f : LoopRt → LoopRt) : (d.modLoop i f).lanes = d.lanes := rfl
@[simp] theorem Dev.modLoop_sram (i : Nat) (f : LoopRt → LoopRt) : (d.modLoop i f).sram = d.sram := rfl
@[simp] theorem Dev.modLoop_img (i : Nat) (f : LoopRt → LoopRt) : (d.modLoop i f).img = d.img := rfl
@[simp] theorem Dev.modLoop_twb (i : Nat) (f : LoopRt → LoopRt) : (d.modLoop i f).twb = d.twb := rfl
@[simp] theorem Dev.modLoop_tal (i : Nat) (f : LoopRt → LoopRt) : (d.modLoop i f).tal = d.tal := rfl
@[simp] theorem Dev.modLoop_pow (i : Nat) (f : LoopRt → LoopRt) : (d.modLoop i f).pow = d.pow := rfl
@[simp] theorem Dev.modLoop_sitter (i : Nat) (f : LoopRt → LoopRt) : (d.modLoop i f).sitter = d.sitter := rfl
@[simp] theorem Dev.modLoop_now (i : Nat) (f : LoopRt → LoopRt) : (d.modLoop i f).now = d.now := rfl
@[simp] theorem Dev.modLoop_tickNow (i : Nat) (f : LoopRt → LoopRt) : (d.modLoop i f).tickNow = d.tickNow := rfl
@[simp] theorem Dev.modLoop_onceTurn (i : Nat) (f : LoopRt → LoopRt) : (d.modLoop i f).onceTurn = d.onceTurn := rfl
@[simp] theorem Dev.modLoop_onceRound (i : Nat) (f : LoopRt → LoopRt) : (d.modLoop i f).onceRound = d.onceRound := rfl
@[simp] theorem Dev.modLoop_fresh (i : Nat) (f : LoopRt → LoopRt) : (d.modLoop i f).fresh = d.fresh := rfl

@[simp] theorem Dev.modRail_wheel (i : Nat) (f : Rail → Rail) : (d.modRail i f).wheel = d.wheel := rfl
@[simp] theorem Dev.modRail_plane (i : Nat) (f : Rail → Rail) : (d.modRail i f).plane = d.plane := rfl
@[simp] theorem Dev.modRail_host (i : Nat) (f : Rail → Rail) : (d.modRail i f).host = d.host := rfl
@[simp] theorem Dev.modRail_slots (i : Nat) (f : Rail → Rail) : (d.modRail i f).slots = d.slots := rfl
@[simp] theorem Dev.modRail_waits (i : Nat) (f : Rail → Rail) : (d.modRail i f).waits = d.waits := rfl
@[simp] theorem Dev.modRail_acq (i : Nat) (f : Rail → Rail) : (d.modRail i f).acq = d.acq := rfl
@[simp] theorem Dev.modRail_thr (i : Nat) (f : Rail → Rail) : (d.modRail i f).thr = d.thr := rfl
@[simp] theorem Dev.modRail_kiln (i : Nat) (f : Rail → Rail) : (d.modRail i f).kiln = d.kiln := rfl
@[simp] theorem Dev.modRail_feeds (i : Nat) (f : Rail → Rail) : (d.modRail i f).feeds = d.feeds := rfl
@[simp] theorem Dev.modRail_branches (i : Nat) (f : Rail → Rail) : (d.modRail i f).branches = d.branches := rfl
@[simp] theorem Dev.modRail_seq (i : Nat) (f : Rail → Rail) : (d.modRail i f).seq = d.seq := rfl
@[simp] theorem Dev.modRail_src (i : Nat) (f : Rail → Rail) : (d.modRail i f).src = d.src := rfl
@[simp] theorem Dev.modRail_strs (i : Nat) (f : Rail → Rail) : (d.modRail i f).strs = d.strs := rfl
@[simp] theorem Dev.modRail_strSeen (i : Nat) (f : Rail → Rail) : (d.modRail i f).strSeen = d.strSeen := rfl
@[simp] theorem Dev.modRail_led (i : Nat) (f : Rail → Rail) : (d.modRail i f).led = d.led := rfl
@[simp] theorem Dev.modRail_turnStart (i : Nat) (f : Rail → Rail) : (d.modRail i f).turnStart = d.turnStart := rfl
@[simp] theorem Dev.modRail_turnDur (i : Nat) (f : Rail → Rail) : (d.modRail i f).turnDur = d.turnDur := rfl
@[simp] theorem Dev.modRail_heat (i : Nat) (f : Rail → Rail) : (d.modRail i f).heat = d.heat := rfl
@[simp] theorem Dev.modRail_wit (i : Nat) (f : Rail → Rail) : (d.modRail i f).wit = d.wit := rfl
@[simp] theorem Dev.modRail_net (i : Nat) (f : Rail → Rail) : (d.modRail i f).net = d.net := rfl
@[simp] theorem Dev.modRail_sag (i : Nat) (f : Rail → Rail) : (d.modRail i f).sag = d.sag := rfl
@[simp] theorem Dev.modRail_lanes (i : Nat) (f : Rail → Rail) : (d.modRail i f).lanes = d.lanes := rfl
@[simp] theorem Dev.modRail_sram (i : Nat) (f : Rail → Rail) : (d.modRail i f).sram = d.sram := rfl
@[simp] theorem Dev.modRail_img (i : Nat) (f : Rail → Rail) : (d.modRail i f).img = d.img := rfl
@[simp] theorem Dev.modRail_twb (i : Nat) (f : Rail → Rail) : (d.modRail i f).twb = d.twb := rfl
@[simp] theorem Dev.modRail_tal (i : Nat) (f : Rail → Rail) : (d.modRail i f).tal = d.tal := rfl
@[simp] theorem Dev.modRail_pow (i : Nat) (f : Rail → Rail) : (d.modRail i f).pow = d.pow := rfl
@[simp] theorem Dev.modRail_sitter (i : Nat) (f : Rail → Rail) : (d.modRail i f).sitter = d.sitter := rfl
@[simp] theorem Dev.modRail_now (i : Nat) (f : Rail → Rail) : (d.modRail i f).now = d.now := rfl
@[simp] theorem Dev.modRail_tickNow (i : Nat) (f : Rail → Rail) : (d.modRail i f).tickNow = d.tickNow := rfl
@[simp] theorem Dev.modRail_onceTurn (i : Nat) (f : Rail → Rail) : (d.modRail i f).onceTurn = d.onceTurn := rfl
@[simp] theorem Dev.modRail_onceRound (i : Nat) (f : Rail → Rail) : (d.modRail i f).onceRound = d.onceRound := rfl
@[simp] theorem Dev.modRail_fresh (i : Nat) (f : Rail → Rail) : (d.modRail i f).fresh = d.fresh := rfl

@[simp] theorem Dev.modPhase_wheel (p : Nat) (f : Phase → Phase) : (d.modPhase p f).wheel = d.wheel := rfl
@[simp] theorem Dev.modPhase_plane (p : Nat) (f : Phase → Phase) : (d.modPhase p f).plane = d.plane := rfl
@[simp] theorem Dev.modPhase_host (p : Nat) (f : Phase → Phase) : (d.modPhase p f).host = d.host := rfl
@[simp] theorem Dev.modPhase_slots (p : Nat) (f : Phase → Phase) : (d.modPhase p f).slots = d.slots := rfl
@[simp] theorem Dev.modPhase_waits (p : Nat) (f : Phase → Phase) : (d.modPhase p f).waits = d.waits := rfl
@[simp] theorem Dev.modPhase_acq (p : Nat) (f : Phase → Phase) : (d.modPhase p f).acq = d.acq := rfl
@[simp] theorem Dev.modPhase_thr (p : Nat) (f : Phase → Phase) : (d.modPhase p f).thr = d.thr := rfl
@[simp] theorem Dev.modPhase_kiln (p : Nat) (f : Phase → Phase) : (d.modPhase p f).kiln = d.kiln := rfl
@[simp] theorem Dev.modPhase_feeds (p : Nat) (f : Phase → Phase) : (d.modPhase p f).feeds = d.feeds := rfl
@[simp] theorem Dev.modPhase_branches (p : Nat) (f : Phase → Phase) : (d.modPhase p f).branches = d.branches := rfl
@[simp] theorem Dev.modPhase_seq (p : Nat) (f : Phase → Phase) : (d.modPhase p f).seq = d.seq := rfl
@[simp] theorem Dev.modPhase_src (p : Nat) (f : Phase → Phase) : (d.modPhase p f).src = d.src := rfl
@[simp] theorem Dev.modPhase_strs (p : Nat) (f : Phase → Phase) : (d.modPhase p f).strs = d.strs := rfl
@[simp] theorem Dev.modPhase_strSeen (p : Nat) (f : Phase → Phase) : (d.modPhase p f).strSeen = d.strSeen := rfl
@[simp] theorem Dev.modPhase_led (p : Nat) (f : Phase → Phase) : (d.modPhase p f).led = d.led := rfl
@[simp] theorem Dev.modPhase_turnStart (p : Nat) (f : Phase → Phase) : (d.modPhase p f).turnStart = d.turnStart := rfl
@[simp] theorem Dev.modPhase_turnDur (p : Nat) (f : Phase → Phase) : (d.modPhase p f).turnDur = d.turnDur := rfl
@[simp] theorem Dev.modPhase_heat (p : Nat) (f : Phase → Phase) : (d.modPhase p f).heat = d.heat := rfl
@[simp] theorem Dev.modPhase_wit (p : Nat) (f : Phase → Phase) : (d.modPhase p f).wit = d.wit := rfl
@[simp] theorem Dev.modPhase_net (p : Nat) (f : Phase → Phase) : (d.modPhase p f).net = d.net := rfl
@[simp] theorem Dev.modPhase_sag (p : Nat) (f : Phase → Phase) : (d.modPhase p f).sag = d.sag := rfl
@[simp] theorem Dev.modPhase_lanes (p : Nat) (f : Phase → Phase) : (d.modPhase p f).lanes = d.lanes := rfl
@[simp] theorem Dev.modPhase_sram (p : Nat) (f : Phase → Phase) : (d.modPhase p f).sram = d.sram := rfl
@[simp] theorem Dev.modPhase_img (p : Nat) (f : Phase → Phase) : (d.modPhase p f).img = d.img := rfl
@[simp] theorem Dev.modPhase_twb (p : Nat) (f : Phase → Phase) : (d.modPhase p f).twb = d.twb := rfl
@[simp] theorem Dev.modPhase_tal (p : Nat) (f : Phase → Phase) : (d.modPhase p f).tal = d.tal := rfl
@[simp] theorem Dev.modPhase_pow (p : Nat) (f : Phase → Phase) : (d.modPhase p f).pow = d.pow := rfl
@[simp] theorem Dev.modPhase_sitter (p : Nat) (f : Phase → Phase) : (d.modPhase p f).sitter = d.sitter := rfl
@[simp] theorem Dev.modPhase_now (p : Nat) (f : Phase → Phase) : (d.modPhase p f).now = d.now := rfl
@[simp] theorem Dev.modPhase_tickNow (p : Nat) (f : Phase → Phase) : (d.modPhase p f).tickNow = d.tickNow := rfl
@[simp] theorem Dev.modPhase_onceTurn (p : Nat) (f : Phase → Phase) : (d.modPhase p f).onceTurn = d.onceTurn := rfl
@[simp] theorem Dev.modPhase_onceRound (p : Nat) (f : Phase → Phase) : (d.modPhase p f).onceRound = d.onceRound := rfl
@[simp] theorem Dev.modPhase_fresh (p : Nat) (f : Phase → Phase) : (d.modPhase p f).fresh = d.fresh := rfl

@[simp] theorem Dev.addWait_wheel (src : Src) (k : WaitKind) (h : Word) : (d.addWait src k h).wheel = d.wheel := rfl
@[simp] theorem Dev.addWait_plane (src : Src) (k : WaitKind) (h : Word) : (d.addWait src k h).plane = d.plane := rfl
@[simp] theorem Dev.addWait_host (src : Src) (k : WaitKind) (h : Word) : (d.addWait src k h).host = d.host := rfl
@[simp] theorem Dev.addWait_slots (src : Src) (k : WaitKind) (h : Word) : (d.addWait src k h).slots = d.slots := rfl
@[simp] theorem Dev.addWait_acq (src : Src) (k : WaitKind) (h : Word) : (d.addWait src k h).acq = d.acq := rfl
@[simp] theorem Dev.addWait_thr (src : Src) (k : WaitKind) (h : Word) : (d.addWait src k h).thr = d.thr := rfl
@[simp] theorem Dev.addWait_pwm (src : Src) (k : WaitKind) (h : Word) : (d.addWait src k h).pwm = d.pwm := rfl
@[simp] theorem Dev.addWait_kiln (src : Src) (k : WaitKind) (h : Word) : (d.addWait src k h).kiln = d.kiln := rfl
@[simp] theorem Dev.addWait_feeds (src : Src) (k : WaitKind) (h : Word) : (d.addWait src k h).feeds = d.feeds := rfl
@[simp] theorem Dev.addWait_branches (src : Src) (k : WaitKind) (h : Word) : (d.addWait src k h).branches = d.branches := rfl
@[simp] theorem Dev.addWait_seq (src : Src) (k : WaitKind) (h : Word) : (d.addWait src k h).seq = d.seq := rfl
@[simp] theorem Dev.addWait_src (src : Src) (k : WaitKind) (h : Word) : (d.addWait src k h).src = d.src := rfl
@[simp] theorem Dev.addWait_strs (src : Src) (k : WaitKind) (h : Word) : (d.addWait src k h).strs = d.strs := rfl
@[simp] theorem Dev.addWait_strSeen (src : Src) (k : WaitKind) (h : Word) : (d.addWait src k h).strSeen = d.strSeen := rfl
@[simp] theorem Dev.addWait_led (src : Src) (k : WaitKind) (h : Word) : (d.addWait src k h).led = d.led := rfl
@[simp] theorem Dev.addWait_turnStart (src : Src) (k : WaitKind) (h : Word) : (d.addWait src k h).turnStart = d.turnStart := rfl
@[simp] theorem Dev.addWait_turnDur (src : Src) (k : WaitKind) (h : Word) : (d.addWait src k h).turnDur = d.turnDur := rfl
@[simp] theorem Dev.addWait_heat (src : Src) (k : WaitKind) (h : Word) : (d.addWait src k h).heat = d.heat := rfl
@[simp] theorem Dev.addWait_wit (src : Src) (k : WaitKind) (h : Word) : (d.addWait src k h).wit = d.wit := rfl
@[simp] theorem Dev.addWait_net (src : Src) (k : WaitKind) (h : Word) : (d.addWait src k h).net = d.net := rfl
@[simp] theorem Dev.addWait_sag (src : Src) (k : WaitKind) (h : Word) : (d.addWait src k h).sag = d.sag := rfl
@[simp] theorem Dev.addWait_lanes (src : Src) (k : WaitKind) (h : Word) : (d.addWait src k h).lanes = d.lanes := rfl
@[simp] theorem Dev.addWait_sram (src : Src) (k : WaitKind) (h : Word) : (d.addWait src k h).sram = d.sram := rfl
@[simp] theorem Dev.addWait_img (src : Src) (k : WaitKind) (h : Word) : (d.addWait src k h).img = d.img := rfl
@[simp] theorem Dev.addWait_twb (src : Src) (k : WaitKind) (h : Word) : (d.addWait src k h).twb = d.twb := rfl
@[simp] theorem Dev.addWait_tal (src : Src) (k : WaitKind) (h : Word) : (d.addWait src k h).tal = d.tal := rfl
@[simp] theorem Dev.addWait_pow (src : Src) (k : WaitKind) (h : Word) : (d.addWait src k h).pow = d.pow := rfl
@[simp] theorem Dev.addWait_sitter (src : Src) (k : WaitKind) (h : Word) : (d.addWait src k h).sitter = d.sitter := rfl
@[simp] theorem Dev.addWait_now (src : Src) (k : WaitKind) (h : Word) : (d.addWait src k h).now = d.now := rfl
@[simp] theorem Dev.addWait_tickNow (src : Src) (k : WaitKind) (h : Word) : (d.addWait src k h).tickNow = d.tickNow := rfl
@[simp] theorem Dev.addWait_onceTurn (src : Src) (k : WaitKind) (h : Word) : (d.addWait src k h).onceTurn = d.onceTurn := rfl
@[simp] theorem Dev.addWait_onceRound (src : Src) (k : WaitKind) (h : Word) : (d.addWait src k h).onceRound = d.onceRound := rfl
@[simp] theorem Dev.addWait_fresh (src : Src) (k : WaitKind) (h : Word) : (d.addWait src k h).fresh = d.fresh := rfl

@[simp] theorem Dev.modMon_wheel (m : Nat) (f : MonRt → MonRt) : (d.modMon m f).wheel = d.wheel := rfl
@[simp] theorem Dev.modMon_plane (m : Nat) (f : MonRt → MonRt) : (d.modMon m f).plane = d.plane := rfl
@[simp] theorem Dev.modMon_host (m : Nat) (f : MonRt → MonRt) : (d.modMon m f).host = d.host := rfl
@[simp] theorem Dev.modMon_slots (m : Nat) (f : MonRt → MonRt) : (d.modMon m f).slots = d.slots := rfl
@[simp] theorem Dev.modMon_waits (m : Nat) (f : MonRt → MonRt) : (d.modMon m f).waits = d.waits := rfl
@[simp] theorem Dev.modMon_acq (m : Nat) (f : MonRt → MonRt) : (d.modMon m f).acq = d.acq := rfl
@[simp] theorem Dev.modMon_thr (m : Nat) (f : MonRt → MonRt) : (d.modMon m f).thr = d.thr := rfl
@[simp] theorem Dev.modMon_pwm (m : Nat) (f : MonRt → MonRt) : (d.modMon m f).pwm = d.pwm := rfl
@[simp] theorem Dev.modMon_kiln (m : Nat) (f : MonRt → MonRt) : (d.modMon m f).kiln = d.kiln := rfl
@[simp] theorem Dev.modMon_feeds (m : Nat) (f : MonRt → MonRt) : (d.modMon m f).feeds = d.feeds := rfl
@[simp] theorem Dev.modMon_branches (m : Nat) (f : MonRt → MonRt) : (d.modMon m f).branches = d.branches := rfl
@[simp] theorem Dev.modMon_src (m : Nat) (f : MonRt → MonRt) : (d.modMon m f).src = d.src := rfl
@[simp] theorem Dev.modMon_strs (m : Nat) (f : MonRt → MonRt) : (d.modMon m f).strs = d.strs := rfl
@[simp] theorem Dev.modMon_strSeen (m : Nat) (f : MonRt → MonRt) : (d.modMon m f).strSeen = d.strSeen := rfl
@[simp] theorem Dev.modMon_led (m : Nat) (f : MonRt → MonRt) : (d.modMon m f).led = d.led := rfl
@[simp] theorem Dev.modMon_turnStart (m : Nat) (f : MonRt → MonRt) : (d.modMon m f).turnStart = d.turnStart := rfl
@[simp] theorem Dev.modMon_turnDur (m : Nat) (f : MonRt → MonRt) : (d.modMon m f).turnDur = d.turnDur := rfl
@[simp] theorem Dev.modMon_heat (m : Nat) (f : MonRt → MonRt) : (d.modMon m f).heat = d.heat := rfl
@[simp] theorem Dev.modMon_wit (m : Nat) (f : MonRt → MonRt) : (d.modMon m f).wit = d.wit := rfl
@[simp] theorem Dev.modMon_net (m : Nat) (f : MonRt → MonRt) : (d.modMon m f).net = d.net := rfl
@[simp] theorem Dev.modMon_sag (m : Nat) (f : MonRt → MonRt) : (d.modMon m f).sag = d.sag := rfl
@[simp] theorem Dev.modMon_lanes (m : Nat) (f : MonRt → MonRt) : (d.modMon m f).lanes = d.lanes := rfl
@[simp] theorem Dev.modMon_sram (m : Nat) (f : MonRt → MonRt) : (d.modMon m f).sram = d.sram := rfl
@[simp] theorem Dev.modMon_img (m : Nat) (f : MonRt → MonRt) : (d.modMon m f).img = d.img := rfl
@[simp] theorem Dev.modMon_twb (m : Nat) (f : MonRt → MonRt) : (d.modMon m f).twb = d.twb := rfl
@[simp] theorem Dev.modMon_tal (m : Nat) (f : MonRt → MonRt) : (d.modMon m f).tal = d.tal := rfl
@[simp] theorem Dev.modMon_pow (m : Nat) (f : MonRt → MonRt) : (d.modMon m f).pow = d.pow := rfl
@[simp] theorem Dev.modMon_sitter (m : Nat) (f : MonRt → MonRt) : (d.modMon m f).sitter = d.sitter := rfl
@[simp] theorem Dev.modMon_now (m : Nat) (f : MonRt → MonRt) : (d.modMon m f).now = d.now := rfl
@[simp] theorem Dev.modMon_tickNow (m : Nat) (f : MonRt → MonRt) : (d.modMon m f).tickNow = d.tickNow := rfl
@[simp] theorem Dev.modMon_onceTurn (m : Nat) (f : MonRt → MonRt) : (d.modMon m f).onceTurn = d.onceTurn := rfl
@[simp] theorem Dev.modMon_onceRound (m : Nat) (f : MonRt → MonRt) : (d.modMon m f).onceRound = d.onceRound := rfl
@[simp] theorem Dev.modMon_fresh (m : Nat) (f : MonRt → MonRt) : (d.modMon m f).fresh = d.fresh := rfl

@[simp] theorem Dev.modSeq_wheel (q : Nat) (f : SeqRt → SeqRt) : (d.modSeq q f).wheel = d.wheel := rfl
@[simp] theorem Dev.modSeq_plane (q : Nat) (f : SeqRt → SeqRt) : (d.modSeq q f).plane = d.plane := rfl
@[simp] theorem Dev.modSeq_host (q : Nat) (f : SeqRt → SeqRt) : (d.modSeq q f).host = d.host := rfl
@[simp] theorem Dev.modSeq_slots (q : Nat) (f : SeqRt → SeqRt) : (d.modSeq q f).slots = d.slots := rfl
@[simp] theorem Dev.modSeq_waits (q : Nat) (f : SeqRt → SeqRt) : (d.modSeq q f).waits = d.waits := rfl
@[simp] theorem Dev.modSeq_acq (q : Nat) (f : SeqRt → SeqRt) : (d.modSeq q f).acq = d.acq := rfl
@[simp] theorem Dev.modSeq_thr (q : Nat) (f : SeqRt → SeqRt) : (d.modSeq q f).thr = d.thr := rfl
@[simp] theorem Dev.modSeq_pwm (q : Nat) (f : SeqRt → SeqRt) : (d.modSeq q f).pwm = d.pwm := rfl
@[simp] theorem Dev.modSeq_kiln (q : Nat) (f : SeqRt → SeqRt) : (d.modSeq q f).kiln = d.kiln := rfl
@[simp] theorem Dev.modSeq_feeds (q : Nat) (f : SeqRt → SeqRt) : (d.modSeq q f).feeds = d.feeds := rfl
@[simp] theorem Dev.modSeq_branches (q : Nat) (f : SeqRt → SeqRt) : (d.modSeq q f).branches = d.branches := rfl
@[simp] theorem Dev.modSeq_src (q : Nat) (f : SeqRt → SeqRt) : (d.modSeq q f).src = d.src := rfl
@[simp] theorem Dev.modSeq_strs (q : Nat) (f : SeqRt → SeqRt) : (d.modSeq q f).strs = d.strs := rfl
@[simp] theorem Dev.modSeq_strSeen (q : Nat) (f : SeqRt → SeqRt) : (d.modSeq q f).strSeen = d.strSeen := rfl
@[simp] theorem Dev.modSeq_led (q : Nat) (f : SeqRt → SeqRt) : (d.modSeq q f).led = d.led := rfl
@[simp] theorem Dev.modSeq_turnStart (q : Nat) (f : SeqRt → SeqRt) : (d.modSeq q f).turnStart = d.turnStart := rfl
@[simp] theorem Dev.modSeq_turnDur (q : Nat) (f : SeqRt → SeqRt) : (d.modSeq q f).turnDur = d.turnDur := rfl
@[simp] theorem Dev.modSeq_heat (q : Nat) (f : SeqRt → SeqRt) : (d.modSeq q f).heat = d.heat := rfl
@[simp] theorem Dev.modSeq_wit (q : Nat) (f : SeqRt → SeqRt) : (d.modSeq q f).wit = d.wit := rfl
@[simp] theorem Dev.modSeq_net (q : Nat) (f : SeqRt → SeqRt) : (d.modSeq q f).net = d.net := rfl
@[simp] theorem Dev.modSeq_sag (q : Nat) (f : SeqRt → SeqRt) : (d.modSeq q f).sag = d.sag := rfl
@[simp] theorem Dev.modSeq_lanes (q : Nat) (f : SeqRt → SeqRt) : (d.modSeq q f).lanes = d.lanes := rfl
@[simp] theorem Dev.modSeq_sram (q : Nat) (f : SeqRt → SeqRt) : (d.modSeq q f).sram = d.sram := rfl
@[simp] theorem Dev.modSeq_img (q : Nat) (f : SeqRt → SeqRt) : (d.modSeq q f).img = d.img := rfl
@[simp] theorem Dev.modSeq_twb (q : Nat) (f : SeqRt → SeqRt) : (d.modSeq q f).twb = d.twb := rfl
@[simp] theorem Dev.modSeq_tal (q : Nat) (f : SeqRt → SeqRt) : (d.modSeq q f).tal = d.tal := rfl
@[simp] theorem Dev.modSeq_pow (q : Nat) (f : SeqRt → SeqRt) : (d.modSeq q f).pow = d.pow := rfl
@[simp] theorem Dev.modSeq_sitter (q : Nat) (f : SeqRt → SeqRt) : (d.modSeq q f).sitter = d.sitter := rfl
@[simp] theorem Dev.modSeq_now (q : Nat) (f : SeqRt → SeqRt) : (d.modSeq q f).now = d.now := rfl
@[simp] theorem Dev.modSeq_tickNow (q : Nat) (f : SeqRt → SeqRt) : (d.modSeq q f).tickNow = d.tickNow := rfl
@[simp] theorem Dev.modSeq_onceTurn (q : Nat) (f : SeqRt → SeqRt) : (d.modSeq q f).onceTurn = d.onceTurn := rfl
@[simp] theorem Dev.modSeq_onceRound (q : Nat) (f : SeqRt → SeqRt) : (d.modSeq q f).onceRound = d.onceRound := rfl
@[simp] theorem Dev.modSeq_fresh (q : Nat) (f : SeqRt → SeqRt) : (d.modSeq q f).fresh = d.fresh := rfl

@[simp] theorem Dev.modStep_wheel (q k : Nat) (f : StepRt → StepRt) : (d.modStep q k f).wheel = d.wheel := rfl
@[simp] theorem Dev.modStep_plane (q k : Nat) (f : StepRt → StepRt) : (d.modStep q k f).plane = d.plane := rfl
@[simp] theorem Dev.modStep_host (q k : Nat) (f : StepRt → StepRt) : (d.modStep q k f).host = d.host := rfl
@[simp] theorem Dev.modStep_slots (q k : Nat) (f : StepRt → StepRt) : (d.modStep q k f).slots = d.slots := rfl
@[simp] theorem Dev.modStep_waits (q k : Nat) (f : StepRt → StepRt) : (d.modStep q k f).waits = d.waits := rfl
@[simp] theorem Dev.modStep_acq (q k : Nat) (f : StepRt → StepRt) : (d.modStep q k f).acq = d.acq := rfl
@[simp] theorem Dev.modStep_thr (q k : Nat) (f : StepRt → StepRt) : (d.modStep q k f).thr = d.thr := rfl
@[simp] theorem Dev.modStep_pwm (q k : Nat) (f : StepRt → StepRt) : (d.modStep q k f).pwm = d.pwm := rfl
@[simp] theorem Dev.modStep_kiln (q k : Nat) (f : StepRt → StepRt) : (d.modStep q k f).kiln = d.kiln := rfl
@[simp] theorem Dev.modStep_feeds (q k : Nat) (f : StepRt → StepRt) : (d.modStep q k f).feeds = d.feeds := rfl
@[simp] theorem Dev.modStep_branches (q k : Nat) (f : StepRt → StepRt) : (d.modStep q k f).branches = d.branches := rfl
@[simp] theorem Dev.modStep_src (q k : Nat) (f : StepRt → StepRt) : (d.modStep q k f).src = d.src := rfl
@[simp] theorem Dev.modStep_strs (q k : Nat) (f : StepRt → StepRt) : (d.modStep q k f).strs = d.strs := rfl
@[simp] theorem Dev.modStep_strSeen (q k : Nat) (f : StepRt → StepRt) : (d.modStep q k f).strSeen = d.strSeen := rfl
@[simp] theorem Dev.modStep_led (q k : Nat) (f : StepRt → StepRt) : (d.modStep q k f).led = d.led := rfl
@[simp] theorem Dev.modStep_turnStart (q k : Nat) (f : StepRt → StepRt) : (d.modStep q k f).turnStart = d.turnStart := rfl
@[simp] theorem Dev.modStep_turnDur (q k : Nat) (f : StepRt → StepRt) : (d.modStep q k f).turnDur = d.turnDur := rfl
@[simp] theorem Dev.modStep_heat (q k : Nat) (f : StepRt → StepRt) : (d.modStep q k f).heat = d.heat := rfl
@[simp] theorem Dev.modStep_wit (q k : Nat) (f : StepRt → StepRt) : (d.modStep q k f).wit = d.wit := rfl
@[simp] theorem Dev.modStep_net (q k : Nat) (f : StepRt → StepRt) : (d.modStep q k f).net = d.net := rfl
@[simp] theorem Dev.modStep_sag (q k : Nat) (f : StepRt → StepRt) : (d.modStep q k f).sag = d.sag := rfl
@[simp] theorem Dev.modStep_lanes (q k : Nat) (f : StepRt → StepRt) : (d.modStep q k f).lanes = d.lanes := rfl
@[simp] theorem Dev.modStep_sram (q k : Nat) (f : StepRt → StepRt) : (d.modStep q k f).sram = d.sram := rfl
@[simp] theorem Dev.modStep_img (q k : Nat) (f : StepRt → StepRt) : (d.modStep q k f).img = d.img := rfl
@[simp] theorem Dev.modStep_twb (q k : Nat) (f : StepRt → StepRt) : (d.modStep q k f).twb = d.twb := rfl
@[simp] theorem Dev.modStep_tal (q k : Nat) (f : StepRt → StepRt) : (d.modStep q k f).tal = d.tal := rfl
@[simp] theorem Dev.modStep_pow (q k : Nat) (f : StepRt → StepRt) : (d.modStep q k f).pow = d.pow := rfl
@[simp] theorem Dev.modStep_sitter (q k : Nat) (f : StepRt → StepRt) : (d.modStep q k f).sitter = d.sitter := rfl
@[simp] theorem Dev.modStep_now (q k : Nat) (f : StepRt → StepRt) : (d.modStep q k f).now = d.now := rfl
@[simp] theorem Dev.modStep_tickNow (q k : Nat) (f : StepRt → StepRt) : (d.modStep q k f).tickNow = d.tickNow := rfl
@[simp] theorem Dev.modStep_onceTurn (q k : Nat) (f : StepRt → StepRt) : (d.modStep q k f).onceTurn = d.onceTurn := rfl
@[simp] theorem Dev.modStep_onceRound (q k : Nat) (f : StepRt → StepRt) : (d.modStep q k f).onceRound = d.onceRound := rfl
@[simp] theorem Dev.modStep_fresh (q k : Nat) (f : StepRt → StepRt) : (d.modStep q k f).fresh = d.fresh := rfl

@[simp] theorem Dev.modSrc_wheel (n : Nat) (f : SrcRt → SrcRt) : (d.modSrc n f).wheel = d.wheel := rfl
@[simp] theorem Dev.modSrc_plane (n : Nat) (f : SrcRt → SrcRt) : (d.modSrc n f).plane = d.plane := rfl
@[simp] theorem Dev.modSrc_host (n : Nat) (f : SrcRt → SrcRt) : (d.modSrc n f).host = d.host := rfl
@[simp] theorem Dev.modSrc_slots (n : Nat) (f : SrcRt → SrcRt) : (d.modSrc n f).slots = d.slots := rfl
@[simp] theorem Dev.modSrc_waits (n : Nat) (f : SrcRt → SrcRt) : (d.modSrc n f).waits = d.waits := rfl
@[simp] theorem Dev.modSrc_acq (n : Nat) (f : SrcRt → SrcRt) : (d.modSrc n f).acq = d.acq := rfl
@[simp] theorem Dev.modSrc_thr (n : Nat) (f : SrcRt → SrcRt) : (d.modSrc n f).thr = d.thr := rfl
@[simp] theorem Dev.modSrc_pwm (n : Nat) (f : SrcRt → SrcRt) : (d.modSrc n f).pwm = d.pwm := rfl
@[simp] theorem Dev.modSrc_kiln (n : Nat) (f : SrcRt → SrcRt) : (d.modSrc n f).kiln = d.kiln := rfl
@[simp] theorem Dev.modSrc_feeds (n : Nat) (f : SrcRt → SrcRt) : (d.modSrc n f).feeds = d.feeds := rfl
@[simp] theorem Dev.modSrc_branches (n : Nat) (f : SrcRt → SrcRt) : (d.modSrc n f).branches = d.branches := rfl
@[simp] theorem Dev.modSrc_seq (n : Nat) (f : SrcRt → SrcRt) : (d.modSrc n f).seq = d.seq := rfl
@[simp] theorem Dev.modSrc_strs (n : Nat) (f : SrcRt → SrcRt) : (d.modSrc n f).strs = d.strs := rfl
@[simp] theorem Dev.modSrc_strSeen (n : Nat) (f : SrcRt → SrcRt) : (d.modSrc n f).strSeen = d.strSeen := rfl
@[simp] theorem Dev.modSrc_led (n : Nat) (f : SrcRt → SrcRt) : (d.modSrc n f).led = d.led := rfl
@[simp] theorem Dev.modSrc_turnStart (n : Nat) (f : SrcRt → SrcRt) : (d.modSrc n f).turnStart = d.turnStart := rfl
@[simp] theorem Dev.modSrc_turnDur (n : Nat) (f : SrcRt → SrcRt) : (d.modSrc n f).turnDur = d.turnDur := rfl
@[simp] theorem Dev.modSrc_heat (n : Nat) (f : SrcRt → SrcRt) : (d.modSrc n f).heat = d.heat := rfl
@[simp] theorem Dev.modSrc_wit (n : Nat) (f : SrcRt → SrcRt) : (d.modSrc n f).wit = d.wit := rfl
@[simp] theorem Dev.modSrc_net (n : Nat) (f : SrcRt → SrcRt) : (d.modSrc n f).net = d.net := rfl
@[simp] theorem Dev.modSrc_sag (n : Nat) (f : SrcRt → SrcRt) : (d.modSrc n f).sag = d.sag := rfl
@[simp] theorem Dev.modSrc_lanes (n : Nat) (f : SrcRt → SrcRt) : (d.modSrc n f).lanes = d.lanes := rfl
@[simp] theorem Dev.modSrc_sram (n : Nat) (f : SrcRt → SrcRt) : (d.modSrc n f).sram = d.sram := rfl
@[simp] theorem Dev.modSrc_img (n : Nat) (f : SrcRt → SrcRt) : (d.modSrc n f).img = d.img := rfl
@[simp] theorem Dev.modSrc_twb (n : Nat) (f : SrcRt → SrcRt) : (d.modSrc n f).twb = d.twb := rfl
@[simp] theorem Dev.modSrc_tal (n : Nat) (f : SrcRt → SrcRt) : (d.modSrc n f).tal = d.tal := rfl
@[simp] theorem Dev.modSrc_pow (n : Nat) (f : SrcRt → SrcRt) : (d.modSrc n f).pow = d.pow := rfl
@[simp] theorem Dev.modSrc_sitter (n : Nat) (f : SrcRt → SrcRt) : (d.modSrc n f).sitter = d.sitter := rfl
@[simp] theorem Dev.modSrc_now (n : Nat) (f : SrcRt → SrcRt) : (d.modSrc n f).now = d.now := rfl
@[simp] theorem Dev.modSrc_tickNow (n : Nat) (f : SrcRt → SrcRt) : (d.modSrc n f).tickNow = d.tickNow := rfl
@[simp] theorem Dev.modSrc_onceTurn (n : Nat) (f : SrcRt → SrcRt) : (d.modSrc n f).onceTurn = d.onceTurn := rfl
@[simp] theorem Dev.modSrc_onceRound (n : Nat) (f : SrcRt → SrcRt) : (d.modSrc n f).onceRound = d.onceRound := rfl
@[simp] theorem Dev.modSrc_fresh (n : Nat) (f : SrcRt → SrcRt) : (d.modSrc n f).fresh = d.fresh := rfl

@[simp] theorem Dev.modFb_wheel (k : Nat) (f : FbSet → FbSet) : (d.modFb k f).wheel = d.wheel := rfl
@[simp] theorem Dev.modFb_plane (k : Nat) (f : FbSet → FbSet) : (d.modFb k f).plane = d.plane := rfl
@[simp] theorem Dev.modFb_host (k : Nat) (f : FbSet → FbSet) : (d.modFb k f).host = d.host := rfl
@[simp] theorem Dev.modFb_slots (k : Nat) (f : FbSet → FbSet) : (d.modFb k f).slots = d.slots := rfl
@[simp] theorem Dev.modFb_waits (k : Nat) (f : FbSet → FbSet) : (d.modFb k f).waits = d.waits := rfl
@[simp] theorem Dev.modFb_acq (k : Nat) (f : FbSet → FbSet) : (d.modFb k f).acq = d.acq := rfl
@[simp] theorem Dev.modFb_thr (k : Nat) (f : FbSet → FbSet) : (d.modFb k f).thr = d.thr := rfl
@[simp] theorem Dev.modFb_pwm (k : Nat) (f : FbSet → FbSet) : (d.modFb k f).pwm = d.pwm := rfl
@[simp] theorem Dev.modFb_kiln (k : Nat) (f : FbSet → FbSet) : (d.modFb k f).kiln = d.kiln := rfl
@[simp] theorem Dev.modFb_feeds (k : Nat) (f : FbSet → FbSet) : (d.modFb k f).feeds = d.feeds := rfl
@[simp] theorem Dev.modFb_branches (k : Nat) (f : FbSet → FbSet) : (d.modFb k f).branches = d.branches := rfl
@[simp] theorem Dev.modFb_seq (k : Nat) (f : FbSet → FbSet) : (d.modFb k f).seq = d.seq := rfl
@[simp] theorem Dev.modFb_src (k : Nat) (f : FbSet → FbSet) : (d.modFb k f).src = d.src := rfl
@[simp] theorem Dev.modFb_strs (k : Nat) (f : FbSet → FbSet) : (d.modFb k f).strs = d.strs := rfl
@[simp] theorem Dev.modFb_strSeen (k : Nat) (f : FbSet → FbSet) : (d.modFb k f).strSeen = d.strSeen := rfl
@[simp] theorem Dev.modFb_led (k : Nat) (f : FbSet → FbSet) : (d.modFb k f).led = d.led := rfl
@[simp] theorem Dev.modFb_turnStart (k : Nat) (f : FbSet → FbSet) : (d.modFb k f).turnStart = d.turnStart := rfl
@[simp] theorem Dev.modFb_turnDur (k : Nat) (f : FbSet → FbSet) : (d.modFb k f).turnDur = d.turnDur := rfl
@[simp] theorem Dev.modFb_heat (k : Nat) (f : FbSet → FbSet) : (d.modFb k f).heat = d.heat := rfl
@[simp] theorem Dev.modFb_wit (k : Nat) (f : FbSet → FbSet) : (d.modFb k f).wit = d.wit := rfl
@[simp] theorem Dev.modFb_net (k : Nat) (f : FbSet → FbSet) : (d.modFb k f).net = d.net := rfl
@[simp] theorem Dev.modFb_sag (k : Nat) (f : FbSet → FbSet) : (d.modFb k f).sag = d.sag := rfl
@[simp] theorem Dev.modFb_lanes (k : Nat) (f : FbSet → FbSet) : (d.modFb k f).lanes = d.lanes := rfl
@[simp] theorem Dev.modFb_sram (k : Nat) (f : FbSet → FbSet) : (d.modFb k f).sram = d.sram := rfl
@[simp] theorem Dev.modFb_img (k : Nat) (f : FbSet → FbSet) : (d.modFb k f).img = d.img := rfl
@[simp] theorem Dev.modFb_twb (k : Nat) (f : FbSet → FbSet) : (d.modFb k f).twb = d.twb := rfl
@[simp] theorem Dev.modFb_pow (k : Nat) (f : FbSet → FbSet) : (d.modFb k f).pow = d.pow := rfl
@[simp] theorem Dev.modFb_sitter (k : Nat) (f : FbSet → FbSet) : (d.modFb k f).sitter = d.sitter := rfl
@[simp] theorem Dev.modFb_now (k : Nat) (f : FbSet → FbSet) : (d.modFb k f).now = d.now := rfl
@[simp] theorem Dev.modFb_tickNow (k : Nat) (f : FbSet → FbSet) : (d.modFb k f).tickNow = d.tickNow := rfl
@[simp] theorem Dev.modFb_onceTurn (k : Nat) (f : FbSet → FbSet) : (d.modFb k f).onceTurn = d.onceTurn := rfl
@[simp] theorem Dev.modFb_onceRound (k : Nat) (f : FbSet → FbSet) : (d.modFb k f).onceRound = d.onceRound := rfl
@[simp] theorem Dev.modFb_fresh (k : Nat) (f : FbSet → FbSet) : (d.modFb k f).fresh = d.fresh := rfl

@[simp] theorem Dev.modMod_wheel (a : Nat) (f : Module → Module) : (d.modMod a f).wheel = d.wheel := rfl
@[simp] theorem Dev.modMod_plane (a : Nat) (f : Module → Module) : (d.modMod a f).plane = d.plane := rfl
@[simp] theorem Dev.modMod_host (a : Nat) (f : Module → Module) : (d.modMod a f).host = d.host := rfl
@[simp] theorem Dev.modMod_slots (a : Nat) (f : Module → Module) : (d.modMod a f).slots = d.slots := rfl
@[simp] theorem Dev.modMod_waits (a : Nat) (f : Module → Module) : (d.modMod a f).waits = d.waits := rfl
@[simp] theorem Dev.modMod_acq (a : Nat) (f : Module → Module) : (d.modMod a f).acq = d.acq := rfl
@[simp] theorem Dev.modMod_thr (a : Nat) (f : Module → Module) : (d.modMod a f).thr = d.thr := rfl
@[simp] theorem Dev.modMod_pwm (a : Nat) (f : Module → Module) : (d.modMod a f).pwm = d.pwm := rfl
@[simp] theorem Dev.modMod_kiln (a : Nat) (f : Module → Module) : (d.modMod a f).kiln = d.kiln := rfl
@[simp] theorem Dev.modMod_feeds (a : Nat) (f : Module → Module) : (d.modMod a f).feeds = d.feeds := rfl
@[simp] theorem Dev.modMod_branches (a : Nat) (f : Module → Module) : (d.modMod a f).branches = d.branches := rfl
@[simp] theorem Dev.modMod_seq (a : Nat) (f : Module → Module) : (d.modMod a f).seq = d.seq := rfl
@[simp] theorem Dev.modMod_src (a : Nat) (f : Module → Module) : (d.modMod a f).src = d.src := rfl
@[simp] theorem Dev.modMod_strs (a : Nat) (f : Module → Module) : (d.modMod a f).strs = d.strs := rfl
@[simp] theorem Dev.modMod_strSeen (a : Nat) (f : Module → Module) : (d.modMod a f).strSeen = d.strSeen := rfl
@[simp] theorem Dev.modMod_led (a : Nat) (f : Module → Module) : (d.modMod a f).led = d.led := rfl
@[simp] theorem Dev.modMod_turnStart (a : Nat) (f : Module → Module) : (d.modMod a f).turnStart = d.turnStart := rfl
@[simp] theorem Dev.modMod_turnDur (a : Nat) (f : Module → Module) : (d.modMod a f).turnDur = d.turnDur := rfl
@[simp] theorem Dev.modMod_heat (a : Nat) (f : Module → Module) : (d.modMod a f).heat = d.heat := rfl
@[simp] theorem Dev.modMod_wit (a : Nat) (f : Module → Module) : (d.modMod a f).wit = d.wit := rfl
@[simp] theorem Dev.modMod_net (a : Nat) (f : Module → Module) : (d.modMod a f).net = d.net := rfl
@[simp] theorem Dev.modMod_sag (a : Nat) (f : Module → Module) : (d.modMod a f).sag = d.sag := rfl
@[simp] theorem Dev.modMod_lanes (a : Nat) (f : Module → Module) : (d.modMod a f).lanes = d.lanes := rfl
@[simp] theorem Dev.modMod_sram (a : Nat) (f : Module → Module) : (d.modMod a f).sram = d.sram := rfl
@[simp] theorem Dev.modMod_img (a : Nat) (f : Module → Module) : (d.modMod a f).img = d.img := rfl
@[simp] theorem Dev.modMod_tal (a : Nat) (f : Module → Module) : (d.modMod a f).tal = d.tal := rfl
@[simp] theorem Dev.modMod_pow (a : Nat) (f : Module → Module) : (d.modMod a f).pow = d.pow := rfl
@[simp] theorem Dev.modMod_sitter (a : Nat) (f : Module → Module) : (d.modMod a f).sitter = d.sitter := rfl
@[simp] theorem Dev.modMod_now (a : Nat) (f : Module → Module) : (d.modMod a f).now = d.now := rfl
@[simp] theorem Dev.modMod_tickNow (a : Nat) (f : Module → Module) : (d.modMod a f).tickNow = d.tickNow := rfl
@[simp] theorem Dev.modMod_onceTurn (a : Nat) (f : Module → Module) : (d.modMod a f).onceTurn = d.onceTurn := rfl
@[simp] theorem Dev.modMod_onceRound (a : Nat) (f : Module → Module) : (d.modMod a f).onceRound = d.onceRound := rfl
@[simp] theorem Dev.modMod_fresh (a : Nat) (f : Module → Module) : (d.modMod a f).fresh = d.fresh := rfl

@[simp] theorem Dev.modWit_wheel (key : Nat) (f : WitRt → WitRt) : (d.modWit key f).wheel = d.wheel := rfl
@[simp] theorem Dev.modWit_plane (key : Nat) (f : WitRt → WitRt) : (d.modWit key f).plane = d.plane := rfl
@[simp] theorem Dev.modWit_host (key : Nat) (f : WitRt → WitRt) : (d.modWit key f).host = d.host := rfl
@[simp] theorem Dev.modWit_slots (key : Nat) (f : WitRt → WitRt) : (d.modWit key f).slots = d.slots := rfl
@[simp] theorem Dev.modWit_waits (key : Nat) (f : WitRt → WitRt) : (d.modWit key f).waits = d.waits := rfl
@[simp] theorem Dev.modWit_acq (key : Nat) (f : WitRt → WitRt) : (d.modWit key f).acq = d.acq := rfl
@[simp] theorem Dev.modWit_thr (key : Nat) (f : WitRt → WitRt) : (d.modWit key f).thr = d.thr := rfl
@[simp] theorem Dev.modWit_pwm (key : Nat) (f : WitRt → WitRt) : (d.modWit key f).pwm = d.pwm := rfl
@[simp] theorem Dev.modWit_kiln (key : Nat) (f : WitRt → WitRt) : (d.modWit key f).kiln = d.kiln := rfl
@[simp] theorem Dev.modWit_feeds (key : Nat) (f : WitRt → WitRt) : (d.modWit key f).feeds = d.feeds := rfl
@[simp] theorem Dev.modWit_branches (key : Nat) (f : WitRt → WitRt) : (d.modWit key f).branches = d.branches := rfl
@[simp] theorem Dev.modWit_seq (key : Nat) (f : WitRt → WitRt) : (d.modWit key f).seq = d.seq := rfl
@[simp] theorem Dev.modWit_src (key : Nat) (f : WitRt → WitRt) : (d.modWit key f).src = d.src := rfl
@[simp] theorem Dev.modWit_strs (key : Nat) (f : WitRt → WitRt) : (d.modWit key f).strs = d.strs := rfl
@[simp] theorem Dev.modWit_strSeen (key : Nat) (f : WitRt → WitRt) : (d.modWit key f).strSeen = d.strSeen := rfl
@[simp] theorem Dev.modWit_led (key : Nat) (f : WitRt → WitRt) : (d.modWit key f).led = d.led := rfl
@[simp] theorem Dev.modWit_turnStart (key : Nat) (f : WitRt → WitRt) : (d.modWit key f).turnStart = d.turnStart := rfl
@[simp] theorem Dev.modWit_turnDur (key : Nat) (f : WitRt → WitRt) : (d.modWit key f).turnDur = d.turnDur := rfl
@[simp] theorem Dev.modWit_heat (key : Nat) (f : WitRt → WitRt) : (d.modWit key f).heat = d.heat := rfl
@[simp] theorem Dev.modWit_net (key : Nat) (f : WitRt → WitRt) : (d.modWit key f).net = d.net := rfl
@[simp] theorem Dev.modWit_sag (key : Nat) (f : WitRt → WitRt) : (d.modWit key f).sag = d.sag := rfl
@[simp] theorem Dev.modWit_lanes (key : Nat) (f : WitRt → WitRt) : (d.modWit key f).lanes = d.lanes := rfl
@[simp] theorem Dev.modWit_sram (key : Nat) (f : WitRt → WitRt) : (d.modWit key f).sram = d.sram := rfl
@[simp] theorem Dev.modWit_img (key : Nat) (f : WitRt → WitRt) : (d.modWit key f).img = d.img := rfl
@[simp] theorem Dev.modWit_twb (key : Nat) (f : WitRt → WitRt) : (d.modWit key f).twb = d.twb := rfl
@[simp] theorem Dev.modWit_tal (key : Nat) (f : WitRt → WitRt) : (d.modWit key f).tal = d.tal := rfl
@[simp] theorem Dev.modWit_pow (key : Nat) (f : WitRt → WitRt) : (d.modWit key f).pow = d.pow := rfl
@[simp] theorem Dev.modWit_sitter (key : Nat) (f : WitRt → WitRt) : (d.modWit key f).sitter = d.sitter := rfl
@[simp] theorem Dev.modWit_now (key : Nat) (f : WitRt → WitRt) : (d.modWit key f).now = d.now := rfl
@[simp] theorem Dev.modWit_tickNow (key : Nat) (f : WitRt → WitRt) : (d.modWit key f).tickNow = d.tickNow := rfl
@[simp] theorem Dev.modWit_onceTurn (key : Nat) (f : WitRt → WitRt) : (d.modWit key f).onceTurn = d.onceTurn := rfl
@[simp] theorem Dev.modWit_onceRound (key : Nat) (f : WitRt → WitRt) : (d.modWit key f).onceRound = d.onceRound := rfl
@[simp] theorem Dev.modWit_fresh (key : Nat) (f : WitRt → WitRt) : (d.modWit key f).fresh = d.fresh := rfl

@[simp] theorem Dev.tally_wheel (b c n : Nat) : (d.tally b c n).wheel = d.wheel := rfl
@[simp] theorem Dev.tally_plane (b c n : Nat) : (d.tally b c n).plane = d.plane := rfl
@[simp] theorem Dev.tally_host (b c n : Nat) : (d.tally b c n).host = d.host := rfl
@[simp] theorem Dev.tally_slots (b c n : Nat) : (d.tally b c n).slots = d.slots := rfl
@[simp] theorem Dev.tally_waits (b c n : Nat) : (d.tally b c n).waits = d.waits := rfl
@[simp] theorem Dev.tally_acq (b c n : Nat) : (d.tally b c n).acq = d.acq := rfl
@[simp] theorem Dev.tally_thr (b c n : Nat) : (d.tally b c n).thr = d.thr := rfl
@[simp] theorem Dev.tally_pwm (b c n : Nat) : (d.tally b c n).pwm = d.pwm := rfl
@[simp] theorem Dev.tally_kiln (b c n : Nat) : (d.tally b c n).kiln = d.kiln := rfl
@[simp] theorem Dev.tally_feeds (b c n : Nat) : (d.tally b c n).feeds = d.feeds := rfl
@[simp] theorem Dev.tally_branches (b c n : Nat) : (d.tally b c n).branches = d.branches := rfl
@[simp] theorem Dev.tally_seq (b c n : Nat) : (d.tally b c n).seq = d.seq := rfl
@[simp] theorem Dev.tally_src (b c n : Nat) : (d.tally b c n).src = d.src := rfl
@[simp] theorem Dev.tally_strs (b c n : Nat) : (d.tally b c n).strs = d.strs := rfl
@[simp] theorem Dev.tally_strSeen (b c n : Nat) : (d.tally b c n).strSeen = d.strSeen := rfl
@[simp] theorem Dev.tally_led (b c n : Nat) : (d.tally b c n).led = d.led := rfl
@[simp] theorem Dev.tally_turnStart (b c n : Nat) : (d.tally b c n).turnStart = d.turnStart := rfl
@[simp] theorem Dev.tally_turnDur (b c n : Nat) : (d.tally b c n).turnDur = d.turnDur := rfl
@[simp] theorem Dev.tally_heat (b c n : Nat) : (d.tally b c n).heat = d.heat := rfl
@[simp] theorem Dev.tally_wit (b c n : Nat) : (d.tally b c n).wit = d.wit := rfl
@[simp] theorem Dev.tally_net (b c n : Nat) : (d.tally b c n).net = d.net := rfl
@[simp] theorem Dev.tally_sag (b c n : Nat) : (d.tally b c n).sag = d.sag := rfl
@[simp] theorem Dev.tally_lanes (b c n : Nat) : (d.tally b c n).lanes = d.lanes := rfl
@[simp] theorem Dev.tally_sram (b c n : Nat) : (d.tally b c n).sram = d.sram := rfl
@[simp] theorem Dev.tally_img (b c n : Nat) : (d.tally b c n).img = d.img := rfl
@[simp] theorem Dev.tally_twb (b c n : Nat) : (d.tally b c n).twb = d.twb := rfl
@[simp] theorem Dev.tally_pow (b c n : Nat) : (d.tally b c n).pow = d.pow := rfl
@[simp] theorem Dev.tally_sitter (b c n : Nat) : (d.tally b c n).sitter = d.sitter := rfl
@[simp] theorem Dev.tally_now (b c n : Nat) : (d.tally b c n).now = d.now := rfl
@[simp] theorem Dev.tally_tickNow (b c n : Nat) : (d.tally b c n).tickNow = d.tickNow := rfl
@[simp] theorem Dev.tally_onceTurn (b c n : Nat) : (d.tally b c n).onceTurn = d.onceTurn := rfl
@[simp] theorem Dev.tally_onceRound (b c n : Nat) : (d.tally b c n).onceRound = d.onceRound := rfl
@[simp] theorem Dev.tally_fresh (b c n : Nat) : (d.tally b c n).fresh = d.fresh := rfl

@[simp] theorem Dev.publish_wheel (h : Word) (sel : Nat) (bs : List Byte) : (d.publish h sel bs).wheel = d.wheel := by unfold Dev.publish; (try split) <;> rfl
@[simp] theorem Dev.publish_plane (h : Word) (sel : Nat) (bs : List Byte) : (d.publish h sel bs).plane = d.plane := by unfold Dev.publish; (try split) <;> rfl
@[simp] theorem Dev.publish_host (h : Word) (sel : Nat) (bs : List Byte) : (d.publish h sel bs).host = d.host := by unfold Dev.publish; (try split) <;> rfl
@[simp] theorem Dev.publish_slots (h : Word) (sel : Nat) (bs : List Byte) : (d.publish h sel bs).slots = d.slots := by unfold Dev.publish; (try split) <;> rfl
@[simp] theorem Dev.publish_waits (h : Word) (sel : Nat) (bs : List Byte) : (d.publish h sel bs).waits = d.waits := by unfold Dev.publish; (try split) <;> rfl
@[simp] theorem Dev.publish_acq (h : Word) (sel : Nat) (bs : List Byte) : (d.publish h sel bs).acq = d.acq := by unfold Dev.publish; (try split) <;> rfl
@[simp] theorem Dev.publish_thr (h : Word) (sel : Nat) (bs : List Byte) : (d.publish h sel bs).thr = d.thr := by unfold Dev.publish; (try split) <;> rfl
@[simp] theorem Dev.publish_pwm (h : Word) (sel : Nat) (bs : List Byte) : (d.publish h sel bs).pwm = d.pwm := by unfold Dev.publish; (try split) <;> rfl
@[simp] theorem Dev.publish_kiln (h : Word) (sel : Nat) (bs : List Byte) : (d.publish h sel bs).kiln = d.kiln := by unfold Dev.publish; (try split) <;> rfl
@[simp] theorem Dev.publish_feeds (h : Word) (sel : Nat) (bs : List Byte) : (d.publish h sel bs).feeds = d.feeds := by unfold Dev.publish; (try split) <;> rfl
@[simp] theorem Dev.publish_branches (h : Word) (sel : Nat) (bs : List Byte) : (d.publish h sel bs).branches = d.branches := by unfold Dev.publish; (try split) <;> rfl
@[simp] theorem Dev.publish_seq (h : Word) (sel : Nat) (bs : List Byte) : (d.publish h sel bs).seq = d.seq := by unfold Dev.publish; (try split) <;> rfl
@[simp] theorem Dev.publish_src (h : Word) (sel : Nat) (bs : List Byte) : (d.publish h sel bs).src = d.src := by unfold Dev.publish; (try split) <;> rfl
@[simp] theorem Dev.publish_strs (h : Word) (sel : Nat) (bs : List Byte) : (d.publish h sel bs).strs = d.strs := by unfold Dev.publish; (try split) <;> rfl
@[simp] theorem Dev.publish_strSeen (h : Word) (sel : Nat) (bs : List Byte) : (d.publish h sel bs).strSeen = d.strSeen := by unfold Dev.publish; (try split) <;> rfl
@[simp] theorem Dev.publish_led (h : Word) (sel : Nat) (bs : List Byte) : (d.publish h sel bs).led = d.led := by unfold Dev.publish; (try split) <;> rfl
@[simp] theorem Dev.publish_turnStart (h : Word) (sel : Nat) (bs : List Byte) : (d.publish h sel bs).turnStart = d.turnStart := by unfold Dev.publish; (try split) <;> rfl
@[simp] theorem Dev.publish_turnDur (h : Word) (sel : Nat) (bs : List Byte) : (d.publish h sel bs).turnDur = d.turnDur := by unfold Dev.publish; (try split) <;> rfl
@[simp] theorem Dev.publish_heat (h : Word) (sel : Nat) (bs : List Byte) : (d.publish h sel bs).heat = d.heat := by unfold Dev.publish; (try split) <;> rfl
@[simp] theorem Dev.publish_net (h : Word) (sel : Nat) (bs : List Byte) : (d.publish h sel bs).net = d.net := by unfold Dev.publish; (try split) <;> rfl
@[simp] theorem Dev.publish_sag (h : Word) (sel : Nat) (bs : List Byte) : (d.publish h sel bs).sag = d.sag := by unfold Dev.publish; (try split) <;> rfl
@[simp] theorem Dev.publish_lanes (h : Word) (sel : Nat) (bs : List Byte) : (d.publish h sel bs).lanes = d.lanes := by unfold Dev.publish; (try split) <;> rfl
@[simp] theorem Dev.publish_sram (h : Word) (sel : Nat) (bs : List Byte) : (d.publish h sel bs).sram = d.sram := by unfold Dev.publish; (try split) <;> rfl
@[simp] theorem Dev.publish_img (h : Word) (sel : Nat) (bs : List Byte) : (d.publish h sel bs).img = d.img := by unfold Dev.publish; (try split) <;> rfl
@[simp] theorem Dev.publish_twb (h : Word) (sel : Nat) (bs : List Byte) : (d.publish h sel bs).twb = d.twb := by unfold Dev.publish; (try split) <;> rfl
@[simp] theorem Dev.publish_pow (h : Word) (sel : Nat) (bs : List Byte) : (d.publish h sel bs).pow = d.pow := by unfold Dev.publish; (try split) <;> rfl
@[simp] theorem Dev.publish_sitter (h : Word) (sel : Nat) (bs : List Byte) : (d.publish h sel bs).sitter = d.sitter := by unfold Dev.publish; (try split) <;> rfl
@[simp] theorem Dev.publish_now (h : Word) (sel : Nat) (bs : List Byte) : (d.publish h sel bs).now = d.now := by unfold Dev.publish; (try split) <;> rfl
@[simp] theorem Dev.publish_tickNow (h : Word) (sel : Nat) (bs : List Byte) : (d.publish h sel bs).tickNow = d.tickNow := by unfold Dev.publish; (try split) <;> rfl
@[simp] theorem Dev.publish_onceTurn (h : Word) (sel : Nat) (bs : List Byte) : (d.publish h sel bs).onceTurn = d.onceTurn := by unfold Dev.publish; (try split) <;> rfl
@[simp] theorem Dev.publish_onceRound (h : Word) (sel : Nat) (bs : List Byte) : (d.publish h sel bs).onceRound = d.onceRound := by unfold Dev.publish; (try split) <;> rfl
@[simp] theorem Dev.publish_fresh (h : Word) (sel : Nat) (bs : List Byte) : (d.publish h sel bs).fresh = d.fresh := by unfold Dev.publish; (try split) <;> rfl

@[simp] theorem Dev.readsAs_wheel (v : Nat) : (d.readsAs v).wheel = d.wheel := rfl
@[simp] theorem Dev.readsAs_plane (v : Nat) : (d.readsAs v).plane = d.plane := rfl
@[simp] theorem Dev.readsAs_slots (v : Nat) : (d.readsAs v).slots = d.slots := rfl
@[simp] theorem Dev.readsAs_waits (v : Nat) : (d.readsAs v).waits = d.waits := rfl
@[simp] theorem Dev.readsAs_acq (v : Nat) : (d.readsAs v).acq = d.acq := rfl
@[simp] theorem Dev.readsAs_thr (v : Nat) : (d.readsAs v).thr = d.thr := rfl
@[simp] theorem Dev.readsAs_pwm (v : Nat) : (d.readsAs v).pwm = d.pwm := rfl
@[simp] theorem Dev.readsAs_kiln (v : Nat) : (d.readsAs v).kiln = d.kiln := rfl
@[simp] theorem Dev.readsAs_feeds (v : Nat) : (d.readsAs v).feeds = d.feeds := rfl
@[simp] theorem Dev.readsAs_branches (v : Nat) : (d.readsAs v).branches = d.branches := rfl
@[simp] theorem Dev.readsAs_seq (v : Nat) : (d.readsAs v).seq = d.seq := rfl
@[simp] theorem Dev.readsAs_src (v : Nat) : (d.readsAs v).src = d.src := rfl
@[simp] theorem Dev.readsAs_strs (v : Nat) : (d.readsAs v).strs = d.strs := rfl
@[simp] theorem Dev.readsAs_strSeen (v : Nat) : (d.readsAs v).strSeen = d.strSeen := rfl
@[simp] theorem Dev.readsAs_led (v : Nat) : (d.readsAs v).led = d.led := rfl
@[simp] theorem Dev.readsAs_turnStart (v : Nat) : (d.readsAs v).turnStart = d.turnStart := rfl
@[simp] theorem Dev.readsAs_turnDur (v : Nat) : (d.readsAs v).turnDur = d.turnDur := rfl
@[simp] theorem Dev.readsAs_heat (v : Nat) : (d.readsAs v).heat = d.heat := rfl
@[simp] theorem Dev.readsAs_wit (v : Nat) : (d.readsAs v).wit = d.wit := rfl
@[simp] theorem Dev.readsAs_net (v : Nat) : (d.readsAs v).net = d.net := rfl
@[simp] theorem Dev.readsAs_sag (v : Nat) : (d.readsAs v).sag = d.sag := rfl
@[simp] theorem Dev.readsAs_lanes (v : Nat) : (d.readsAs v).lanes = d.lanes := rfl
@[simp] theorem Dev.readsAs_sram (v : Nat) : (d.readsAs v).sram = d.sram := rfl
@[simp] theorem Dev.readsAs_img (v : Nat) : (d.readsAs v).img = d.img := rfl
@[simp] theorem Dev.readsAs_twb (v : Nat) : (d.readsAs v).twb = d.twb := rfl
@[simp] theorem Dev.readsAs_tal (v : Nat) : (d.readsAs v).tal = d.tal := rfl
@[simp] theorem Dev.readsAs_pow (v : Nat) : (d.readsAs v).pow = d.pow := rfl
@[simp] theorem Dev.readsAs_sitter (v : Nat) : (d.readsAs v).sitter = d.sitter := rfl
@[simp] theorem Dev.readsAs_now (v : Nat) : (d.readsAs v).now = d.now := rfl
@[simp] theorem Dev.readsAs_tickNow (v : Nat) : (d.readsAs v).tickNow = d.tickNow := rfl
@[simp] theorem Dev.readsAs_onceTurn (v : Nat) : (d.readsAs v).onceTurn = d.onceTurn := rfl
@[simp] theorem Dev.readsAs_onceRound (v : Nat) : (d.readsAs v).onceRound = d.onceRound := rfl
@[simp] theorem Dev.readsAs_fresh (v : Nat) : (d.readsAs v).fresh = d.fresh := rfl

@[simp] theorem Dev.republish_wheel (h : Word) (sel : Nat) (bs : List Byte) : (d.republish h sel bs).wheel = d.wheel := by unfold Dev.republish; split <;> simp
@[simp] theorem Dev.republish_plane (h : Word) (sel : Nat) (bs : List Byte) : (d.republish h sel bs).plane = d.plane := by unfold Dev.republish; split <;> simp
@[simp] theorem Dev.republish_host (h : Word) (sel : Nat) (bs : List Byte) : (d.republish h sel bs).host = d.host := by unfold Dev.republish; split <;> simp
@[simp] theorem Dev.republish_slots (h : Word) (sel : Nat) (bs : List Byte) : (d.republish h sel bs).slots = d.slots := by unfold Dev.republish; split <;> simp
@[simp] theorem Dev.republish_waits (h : Word) (sel : Nat) (bs : List Byte) : (d.republish h sel bs).waits = d.waits := by unfold Dev.republish; split <;> simp
@[simp] theorem Dev.republish_acq (h : Word) (sel : Nat) (bs : List Byte) : (d.republish h sel bs).acq = d.acq := by unfold Dev.republish; split <;> simp
@[simp] theorem Dev.republish_thr (h : Word) (sel : Nat) (bs : List Byte) : (d.republish h sel bs).thr = d.thr := by unfold Dev.republish; split <;> simp
@[simp] theorem Dev.republish_pwm (h : Word) (sel : Nat) (bs : List Byte) : (d.republish h sel bs).pwm = d.pwm := by unfold Dev.republish; split <;> simp
@[simp] theorem Dev.republish_kiln (h : Word) (sel : Nat) (bs : List Byte) : (d.republish h sel bs).kiln = d.kiln := by unfold Dev.republish; split <;> simp
@[simp] theorem Dev.republish_feeds (h : Word) (sel : Nat) (bs : List Byte) : (d.republish h sel bs).feeds = d.feeds := by unfold Dev.republish; split <;> simp
@[simp] theorem Dev.republish_branches (h : Word) (sel : Nat) (bs : List Byte) : (d.republish h sel bs).branches = d.branches := by unfold Dev.republish; split <;> simp
@[simp] theorem Dev.republish_seq (h : Word) (sel : Nat) (bs : List Byte) : (d.republish h sel bs).seq = d.seq := by unfold Dev.republish; split <;> simp
@[simp] theorem Dev.republish_src (h : Word) (sel : Nat) (bs : List Byte) : (d.republish h sel bs).src = d.src := by unfold Dev.republish; split <;> simp
@[simp] theorem Dev.republish_strs (h : Word) (sel : Nat) (bs : List Byte) : (d.republish h sel bs).strs = d.strs := by unfold Dev.republish; split <;> simp
@[simp] theorem Dev.republish_strSeen (h : Word) (sel : Nat) (bs : List Byte) : (d.republish h sel bs).strSeen = d.strSeen := by unfold Dev.republish; split <;> simp
@[simp] theorem Dev.republish_led (h : Word) (sel : Nat) (bs : List Byte) : (d.republish h sel bs).led = d.led := by unfold Dev.republish; split <;> simp
@[simp] theorem Dev.republish_turnStart (h : Word) (sel : Nat) (bs : List Byte) : (d.republish h sel bs).turnStart = d.turnStart := by unfold Dev.republish; split <;> simp
@[simp] theorem Dev.republish_turnDur (h : Word) (sel : Nat) (bs : List Byte) : (d.republish h sel bs).turnDur = d.turnDur := by unfold Dev.republish; split <;> simp
@[simp] theorem Dev.republish_heat (h : Word) (sel : Nat) (bs : List Byte) : (d.republish h sel bs).heat = d.heat := by unfold Dev.republish; split <;> simp
@[simp] theorem Dev.republish_net (h : Word) (sel : Nat) (bs : List Byte) : (d.republish h sel bs).net = d.net := by unfold Dev.republish; split <;> simp
@[simp] theorem Dev.republish_sag (h : Word) (sel : Nat) (bs : List Byte) : (d.republish h sel bs).sag = d.sag := by unfold Dev.republish; split <;> simp
@[simp] theorem Dev.republish_lanes (h : Word) (sel : Nat) (bs : List Byte) : (d.republish h sel bs).lanes = d.lanes := by unfold Dev.republish; split <;> simp
@[simp] theorem Dev.republish_sram (h : Word) (sel : Nat) (bs : List Byte) : (d.republish h sel bs).sram = d.sram := by unfold Dev.republish; split <;> simp
@[simp] theorem Dev.republish_img (h : Word) (sel : Nat) (bs : List Byte) : (d.republish h sel bs).img = d.img := by unfold Dev.republish; split <;> simp
@[simp] theorem Dev.republish_twb (h : Word) (sel : Nat) (bs : List Byte) : (d.republish h sel bs).twb = d.twb := by unfold Dev.republish; split <;> simp
@[simp] theorem Dev.republish_pow (h : Word) (sel : Nat) (bs : List Byte) : (d.republish h sel bs).pow = d.pow := by unfold Dev.republish; split <;> simp
@[simp] theorem Dev.republish_sitter (h : Word) (sel : Nat) (bs : List Byte) : (d.republish h sel bs).sitter = d.sitter := by unfold Dev.republish; split <;> simp
@[simp] theorem Dev.republish_now (h : Word) (sel : Nat) (bs : List Byte) : (d.republish h sel bs).now = d.now := by unfold Dev.republish; split <;> simp
@[simp] theorem Dev.republish_tickNow (h : Word) (sel : Nat) (bs : List Byte) : (d.republish h sel bs).tickNow = d.tickNow := by unfold Dev.republish; split <;> simp
@[simp] theorem Dev.republish_onceTurn (h : Word) (sel : Nat) (bs : List Byte) : (d.republish h sel bs).onceTurn = d.onceTurn := by unfold Dev.republish; split <;> simp
@[simp] theorem Dev.republish_onceRound (h : Word) (sel : Nat) (bs : List Byte) : (d.republish h sel bs).onceRound = d.onceRound := by unfold Dev.republish; split <;> simp
@[simp] theorem Dev.republish_fresh (h : Word) (sel : Nat) (bs : List Byte) : (d.republish h sel bs).fresh = d.fresh := by unfold Dev.republish; split <;> simp

@[simp] theorem Dev.raise_wheel (code detail : Nat) (h : Word) : (d.raise code detail h).wheel = d.wheel := by unfold Dev.raise; dsimp only; (repeat' split) <;> rfl
@[simp] theorem Dev.raise_plane (code detail : Nat) (h : Word) : (d.raise code detail h).plane = d.plane := by unfold Dev.raise; dsimp only; (repeat' split) <;> rfl
@[simp] theorem Dev.raise_slots (code detail : Nat) (h : Word) : (d.raise code detail h).slots = d.slots := by unfold Dev.raise; dsimp only; (repeat' split) <;> rfl
@[simp] theorem Dev.raise_waits (code detail : Nat) (h : Word) : (d.raise code detail h).waits = d.waits := by unfold Dev.raise; dsimp only; (repeat' split) <;> rfl
@[simp] theorem Dev.raise_acq (code detail : Nat) (h : Word) : (d.raise code detail h).acq = d.acq := by unfold Dev.raise; dsimp only; (repeat' split) <;> rfl
@[simp] theorem Dev.raise_thr (code detail : Nat) (h : Word) : (d.raise code detail h).thr = d.thr := by unfold Dev.raise; dsimp only; (repeat' split) <;> rfl
@[simp] theorem Dev.raise_pwm (code detail : Nat) (h : Word) : (d.raise code detail h).pwm = d.pwm := by unfold Dev.raise; dsimp only; (repeat' split) <;> rfl
@[simp] theorem Dev.raise_kiln (code detail : Nat) (h : Word) : (d.raise code detail h).kiln = d.kiln := by unfold Dev.raise; dsimp only; (repeat' split) <;> rfl
@[simp] theorem Dev.raise_feeds (code detail : Nat) (h : Word) : (d.raise code detail h).feeds = d.feeds := by unfold Dev.raise; dsimp only; (repeat' split) <;> rfl
@[simp] theorem Dev.raise_branches (code detail : Nat) (h : Word) : (d.raise code detail h).branches = d.branches := by unfold Dev.raise; dsimp only; (repeat' split) <;> rfl
@[simp] theorem Dev.raise_seq (code detail : Nat) (h : Word) : (d.raise code detail h).seq = d.seq := by unfold Dev.raise; dsimp only; (repeat' split) <;> rfl
@[simp] theorem Dev.raise_src (code detail : Nat) (h : Word) : (d.raise code detail h).src = d.src := by unfold Dev.raise; dsimp only; (repeat' split) <;> rfl
@[simp] theorem Dev.raise_strs (code detail : Nat) (h : Word) : (d.raise code detail h).strs = d.strs := by unfold Dev.raise; dsimp only; (repeat' split) <;> rfl
@[simp] theorem Dev.raise_strSeen (code detail : Nat) (h : Word) : (d.raise code detail h).strSeen = d.strSeen := by unfold Dev.raise; dsimp only; (repeat' split) <;> rfl
@[simp] theorem Dev.raise_led (code detail : Nat) (h : Word) : (d.raise code detail h).led = d.led := by unfold Dev.raise; dsimp only; (repeat' split) <;> rfl
@[simp] theorem Dev.raise_turnStart (code detail : Nat) (h : Word) : (d.raise code detail h).turnStart = d.turnStart := by unfold Dev.raise; dsimp only; (repeat' split) <;> rfl
@[simp] theorem Dev.raise_turnDur (code detail : Nat) (h : Word) : (d.raise code detail h).turnDur = d.turnDur := by unfold Dev.raise; dsimp only; (repeat' split) <;> rfl
@[simp] theorem Dev.raise_heat (code detail : Nat) (h : Word) : (d.raise code detail h).heat = d.heat := by unfold Dev.raise; dsimp only; (repeat' split) <;> rfl
@[simp] theorem Dev.raise_wit (code detail : Nat) (h : Word) : (d.raise code detail h).wit = d.wit := by unfold Dev.raise; dsimp only; (repeat' split) <;> rfl
@[simp] theorem Dev.raise_net (code detail : Nat) (h : Word) : (d.raise code detail h).net = d.net := by unfold Dev.raise; dsimp only; (repeat' split) <;> rfl
@[simp] theorem Dev.raise_lanes (code detail : Nat) (h : Word) : (d.raise code detail h).lanes = d.lanes := by unfold Dev.raise; dsimp only; (repeat' split) <;> rfl
@[simp] theorem Dev.raise_sram (code detail : Nat) (h : Word) : (d.raise code detail h).sram = d.sram := by unfold Dev.raise; dsimp only; (repeat' split) <;> rfl
@[simp] theorem Dev.raise_img (code detail : Nat) (h : Word) : (d.raise code detail h).img = d.img := by unfold Dev.raise; dsimp only; (repeat' split) <;> rfl
@[simp] theorem Dev.raise_twb (code detail : Nat) (h : Word) : (d.raise code detail h).twb = d.twb := by unfold Dev.raise; dsimp only; (repeat' split) <;> rfl
@[simp] theorem Dev.raise_pow (code detail : Nat) (h : Word) : (d.raise code detail h).pow = d.pow := by unfold Dev.raise; dsimp only; (repeat' split) <;> rfl
@[simp] theorem Dev.raise_sitter (code detail : Nat) (h : Word) : (d.raise code detail h).sitter = d.sitter := by unfold Dev.raise; dsimp only; (repeat' split) <;> rfl
@[simp] theorem Dev.raise_now (code detail : Nat) (h : Word) : (d.raise code detail h).now = d.now := by unfold Dev.raise; dsimp only; (repeat' split) <;> rfl
@[simp] theorem Dev.raise_tickNow (code detail : Nat) (h : Word) : (d.raise code detail h).tickNow = d.tickNow := by unfold Dev.raise; dsimp only; (repeat' split) <;> rfl
@[simp] theorem Dev.raise_onceTurn (code detail : Nat) (h : Word) : (d.raise code detail h).onceTurn = d.onceTurn := by unfold Dev.raise; dsimp only; (repeat' split) <;> rfl
@[simp] theorem Dev.raise_onceRound (code detail : Nat) (h : Word) : (d.raise code detail h).onceRound = d.onceRound := by unfold Dev.raise; dsimp only; (repeat' split) <;> rfl
@[simp] theorem Dev.raise_fresh (code detail : Nat) (h : Word) : (d.raise code detail h).fresh = d.fresh := by unfold Dev.raise; dsimp only; (repeat' split) <;> rfl

@[simp] theorem Dev.raiseOnceTurn_wheel (key code detail : Nat) (h : Word) : (d.raiseOnceTurn key code detail h).wheel = d.wheel := by unfold Dev.raiseOnceTurn; split <;> simp
@[simp] theorem Dev.raiseOnceTurn_plane (key code detail : Nat) (h : Word) : (d.raiseOnceTurn key code detail h).plane = d.plane := by unfold Dev.raiseOnceTurn; split <;> simp
@[simp] theorem Dev.raiseOnceTurn_slots (key code detail : Nat) (h : Word) : (d.raiseOnceTurn key code detail h).slots = d.slots := by unfold Dev.raiseOnceTurn; split <;> simp
@[simp] theorem Dev.raiseOnceTurn_waits (key code detail : Nat) (h : Word) : (d.raiseOnceTurn key code detail h).waits = d.waits := by unfold Dev.raiseOnceTurn; split <;> simp
@[simp] theorem Dev.raiseOnceTurn_acq (key code detail : Nat) (h : Word) : (d.raiseOnceTurn key code detail h).acq = d.acq := by unfold Dev.raiseOnceTurn; split <;> simp
@[simp] theorem Dev.raiseOnceTurn_thr (key code detail : Nat) (h : Word) : (d.raiseOnceTurn key code detail h).thr = d.thr := by unfold Dev.raiseOnceTurn; split <;> simp
@[simp] theorem Dev.raiseOnceTurn_pwm (key code detail : Nat) (h : Word) : (d.raiseOnceTurn key code detail h).pwm = d.pwm := by unfold Dev.raiseOnceTurn; split <;> simp
@[simp] theorem Dev.raiseOnceTurn_kiln (key code detail : Nat) (h : Word) : (d.raiseOnceTurn key code detail h).kiln = d.kiln := by unfold Dev.raiseOnceTurn; split <;> simp
@[simp] theorem Dev.raiseOnceTurn_feeds (key code detail : Nat) (h : Word) : (d.raiseOnceTurn key code detail h).feeds = d.feeds := by unfold Dev.raiseOnceTurn; split <;> simp
@[simp] theorem Dev.raiseOnceTurn_branches (key code detail : Nat) (h : Word) : (d.raiseOnceTurn key code detail h).branches = d.branches := by unfold Dev.raiseOnceTurn; split <;> simp
@[simp] theorem Dev.raiseOnceTurn_seq (key code detail : Nat) (h : Word) : (d.raiseOnceTurn key code detail h).seq = d.seq := by unfold Dev.raiseOnceTurn; split <;> simp
@[simp] theorem Dev.raiseOnceTurn_src (key code detail : Nat) (h : Word) : (d.raiseOnceTurn key code detail h).src = d.src := by unfold Dev.raiseOnceTurn; split <;> simp
@[simp] theorem Dev.raiseOnceTurn_strs (key code detail : Nat) (h : Word) : (d.raiseOnceTurn key code detail h).strs = d.strs := by unfold Dev.raiseOnceTurn; split <;> simp
@[simp] theorem Dev.raiseOnceTurn_strSeen (key code detail : Nat) (h : Word) : (d.raiseOnceTurn key code detail h).strSeen = d.strSeen := by unfold Dev.raiseOnceTurn; split <;> simp
@[simp] theorem Dev.raiseOnceTurn_led (key code detail : Nat) (h : Word) : (d.raiseOnceTurn key code detail h).led = d.led := by unfold Dev.raiseOnceTurn; split <;> simp
@[simp] theorem Dev.raiseOnceTurn_turnStart (key code detail : Nat) (h : Word) : (d.raiseOnceTurn key code detail h).turnStart = d.turnStart := by unfold Dev.raiseOnceTurn; split <;> simp
@[simp] theorem Dev.raiseOnceTurn_turnDur (key code detail : Nat) (h : Word) : (d.raiseOnceTurn key code detail h).turnDur = d.turnDur := by unfold Dev.raiseOnceTurn; split <;> simp
@[simp] theorem Dev.raiseOnceTurn_heat (key code detail : Nat) (h : Word) : (d.raiseOnceTurn key code detail h).heat = d.heat := by unfold Dev.raiseOnceTurn; split <;> simp
@[simp] theorem Dev.raiseOnceTurn_wit (key code detail : Nat) (h : Word) : (d.raiseOnceTurn key code detail h).wit = d.wit := by unfold Dev.raiseOnceTurn; split <;> simp
@[simp] theorem Dev.raiseOnceTurn_net (key code detail : Nat) (h : Word) : (d.raiseOnceTurn key code detail h).net = d.net := by unfold Dev.raiseOnceTurn; split <;> simp
@[simp] theorem Dev.raiseOnceTurn_lanes (key code detail : Nat) (h : Word) : (d.raiseOnceTurn key code detail h).lanes = d.lanes := by unfold Dev.raiseOnceTurn; split <;> simp
@[simp] theorem Dev.raiseOnceTurn_sram (key code detail : Nat) (h : Word) : (d.raiseOnceTurn key code detail h).sram = d.sram := by unfold Dev.raiseOnceTurn; split <;> simp
@[simp] theorem Dev.raiseOnceTurn_img (key code detail : Nat) (h : Word) : (d.raiseOnceTurn key code detail h).img = d.img := by unfold Dev.raiseOnceTurn; split <;> simp
@[simp] theorem Dev.raiseOnceTurn_twb (key code detail : Nat) (h : Word) : (d.raiseOnceTurn key code detail h).twb = d.twb := by unfold Dev.raiseOnceTurn; split <;> simp
@[simp] theorem Dev.raiseOnceTurn_pow (key code detail : Nat) (h : Word) : (d.raiseOnceTurn key code detail h).pow = d.pow := by unfold Dev.raiseOnceTurn; split <;> simp
@[simp] theorem Dev.raiseOnceTurn_sitter (key code detail : Nat) (h : Word) : (d.raiseOnceTurn key code detail h).sitter = d.sitter := by unfold Dev.raiseOnceTurn; split <;> simp
@[simp] theorem Dev.raiseOnceTurn_now (key code detail : Nat) (h : Word) : (d.raiseOnceTurn key code detail h).now = d.now := by unfold Dev.raiseOnceTurn; split <;> simp
@[simp] theorem Dev.raiseOnceTurn_tickNow (key code detail : Nat) (h : Word) : (d.raiseOnceTurn key code detail h).tickNow = d.tickNow := by unfold Dev.raiseOnceTurn; split <;> simp
@[simp] theorem Dev.raiseOnceTurn_onceRound (key code detail : Nat) (h : Word) : (d.raiseOnceTurn key code detail h).onceRound = d.onceRound := by unfold Dev.raiseOnceTurn; split <;> simp
@[simp] theorem Dev.raiseOnceTurn_fresh (key code detail : Nat) (h : Word) : (d.raiseOnceTurn key code detail h).fresh = d.fresh := by unfold Dev.raiseOnceTurn; split <;> simp

@[simp] theorem Dev.raiseOnceRound_wheel (key code detail : Nat) (h : Word) : (d.raiseOnceRound key code detail h).wheel = d.wheel := by unfold Dev.raiseOnceRound; split <;> simp
@[simp] theorem Dev.raiseOnceRound_plane (key code detail : Nat) (h : Word) : (d.raiseOnceRound key code detail h).plane = d.plane := by unfold Dev.raiseOnceRound; split <;> simp
@[simp] theorem Dev.raiseOnceRound_slots (key code detail : Nat) (h : Word) : (d.raiseOnceRound key code detail h).slots = d.slots := by unfold Dev.raiseOnceRound; split <;> simp
@[simp] theorem Dev.raiseOnceRound_waits (key code detail : Nat) (h : Word) : (d.raiseOnceRound key code detail h).waits = d.waits := by unfold Dev.raiseOnceRound; split <;> simp
@[simp] theorem Dev.raiseOnceRound_acq (key code detail : Nat) (h : Word) : (d.raiseOnceRound key code detail h).acq = d.acq := by unfold Dev.raiseOnceRound; split <;> simp
@[simp] theorem Dev.raiseOnceRound_thr (key code detail : Nat) (h : Word) : (d.raiseOnceRound key code detail h).thr = d.thr := by unfold Dev.raiseOnceRound; split <;> simp
@[simp] theorem Dev.raiseOnceRound_pwm (key code detail : Nat) (h : Word) : (d.raiseOnceRound key code detail h).pwm = d.pwm := by unfold Dev.raiseOnceRound; split <;> simp
@[simp] theorem Dev.raiseOnceRound_kiln (key code detail : Nat) (h : Word) : (d.raiseOnceRound key code detail h).kiln = d.kiln := by unfold Dev.raiseOnceRound; split <;> simp
@[simp] theorem Dev.raiseOnceRound_feeds (key code detail : Nat) (h : Word) : (d.raiseOnceRound key code detail h).feeds = d.feeds := by unfold Dev.raiseOnceRound; split <;> simp
@[simp] theorem Dev.raiseOnceRound_branches (key code detail : Nat) (h : Word) : (d.raiseOnceRound key code detail h).branches = d.branches := by unfold Dev.raiseOnceRound; split <;> simp
@[simp] theorem Dev.raiseOnceRound_seq (key code detail : Nat) (h : Word) : (d.raiseOnceRound key code detail h).seq = d.seq := by unfold Dev.raiseOnceRound; split <;> simp
@[simp] theorem Dev.raiseOnceRound_src (key code detail : Nat) (h : Word) : (d.raiseOnceRound key code detail h).src = d.src := by unfold Dev.raiseOnceRound; split <;> simp
@[simp] theorem Dev.raiseOnceRound_strs (key code detail : Nat) (h : Word) : (d.raiseOnceRound key code detail h).strs = d.strs := by unfold Dev.raiseOnceRound; split <;> simp
@[simp] theorem Dev.raiseOnceRound_strSeen (key code detail : Nat) (h : Word) : (d.raiseOnceRound key code detail h).strSeen = d.strSeen := by unfold Dev.raiseOnceRound; split <;> simp
@[simp] theorem Dev.raiseOnceRound_led (key code detail : Nat) (h : Word) : (d.raiseOnceRound key code detail h).led = d.led := by unfold Dev.raiseOnceRound; split <;> simp
@[simp] theorem Dev.raiseOnceRound_turnStart (key code detail : Nat) (h : Word) : (d.raiseOnceRound key code detail h).turnStart = d.turnStart := by unfold Dev.raiseOnceRound; split <;> simp
@[simp] theorem Dev.raiseOnceRound_turnDur (key code detail : Nat) (h : Word) : (d.raiseOnceRound key code detail h).turnDur = d.turnDur := by unfold Dev.raiseOnceRound; split <;> simp
@[simp] theorem Dev.raiseOnceRound_heat (key code detail : Nat) (h : Word) : (d.raiseOnceRound key code detail h).heat = d.heat := by unfold Dev.raiseOnceRound; split <;> simp
@[simp] theorem Dev.raiseOnceRound_wit (key code detail : Nat) (h : Word) : (d.raiseOnceRound key code detail h).wit = d.wit := by unfold Dev.raiseOnceRound; split <;> simp
@[simp] theorem Dev.raiseOnceRound_net (key code detail : Nat) (h : Word) : (d.raiseOnceRound key code detail h).net = d.net := by unfold Dev.raiseOnceRound; split <;> simp
@[simp] theorem Dev.raiseOnceRound_lanes (key code detail : Nat) (h : Word) : (d.raiseOnceRound key code detail h).lanes = d.lanes := by unfold Dev.raiseOnceRound; split <;> simp
@[simp] theorem Dev.raiseOnceRound_sram (key code detail : Nat) (h : Word) : (d.raiseOnceRound key code detail h).sram = d.sram := by unfold Dev.raiseOnceRound; split <;> simp
@[simp] theorem Dev.raiseOnceRound_img (key code detail : Nat) (h : Word) : (d.raiseOnceRound key code detail h).img = d.img := by unfold Dev.raiseOnceRound; split <;> simp
@[simp] theorem Dev.raiseOnceRound_twb (key code detail : Nat) (h : Word) : (d.raiseOnceRound key code detail h).twb = d.twb := by unfold Dev.raiseOnceRound; split <;> simp
@[simp] theorem Dev.raiseOnceRound_pow (key code detail : Nat) (h : Word) : (d.raiseOnceRound key code detail h).pow = d.pow := by unfold Dev.raiseOnceRound; split <;> simp
@[simp] theorem Dev.raiseOnceRound_sitter (key code detail : Nat) (h : Word) : (d.raiseOnceRound key code detail h).sitter = d.sitter := by unfold Dev.raiseOnceRound; split <;> simp
@[simp] theorem Dev.raiseOnceRound_now (key code detail : Nat) (h : Word) : (d.raiseOnceRound key code detail h).now = d.now := by unfold Dev.raiseOnceRound; split <;> simp
@[simp] theorem Dev.raiseOnceRound_tickNow (key code detail : Nat) (h : Word) : (d.raiseOnceRound key code detail h).tickNow = d.tickNow := by unfold Dev.raiseOnceRound; split <;> simp
@[simp] theorem Dev.raiseOnceRound_onceTurn (key code detail : Nat) (h : Word) : (d.raiseOnceRound key code detail h).onceTurn = d.onceTurn := by unfold Dev.raiseOnceRound; split <;> simp
@[simp] theorem Dev.raiseOnceRound_fresh (key code detail : Nat) (h : Word) : (d.raiseOnceRound key code detail h).fresh = d.fresh := by unfold Dev.raiseOnceRound; split <;> simp

@[simp] theorem Dev.noteAttn_wheel (peer : Bool) (reason : Nat) : (d.noteAttn peer reason).wheel = d.wheel := rfl
@[simp] theorem Dev.noteAttn_plane (peer : Bool) (reason : Nat) : (d.noteAttn peer reason).plane = d.plane := rfl
@[simp] theorem Dev.noteAttn_host (peer : Bool) (reason : Nat) : (d.noteAttn peer reason).host = d.host := rfl
@[simp] theorem Dev.noteAttn_slots (peer : Bool) (reason : Nat) : (d.noteAttn peer reason).slots = d.slots := rfl
@[simp] theorem Dev.noteAttn_waits (peer : Bool) (reason : Nat) : (d.noteAttn peer reason).waits = d.waits := rfl
@[simp] theorem Dev.noteAttn_acq (peer : Bool) (reason : Nat) : (d.noteAttn peer reason).acq = d.acq := rfl
@[simp] theorem Dev.noteAttn_thr (peer : Bool) (reason : Nat) : (d.noteAttn peer reason).thr = d.thr := rfl
@[simp] theorem Dev.noteAttn_pwm (peer : Bool) (reason : Nat) : (d.noteAttn peer reason).pwm = d.pwm := rfl
@[simp] theorem Dev.noteAttn_kiln (peer : Bool) (reason : Nat) : (d.noteAttn peer reason).kiln = d.kiln := rfl
@[simp] theorem Dev.noteAttn_feeds (peer : Bool) (reason : Nat) : (d.noteAttn peer reason).feeds = d.feeds := rfl
@[simp] theorem Dev.noteAttn_branches (peer : Bool) (reason : Nat) : (d.noteAttn peer reason).branches = d.branches := rfl
@[simp] theorem Dev.noteAttn_seq (peer : Bool) (reason : Nat) : (d.noteAttn peer reason).seq = d.seq := rfl
@[simp] theorem Dev.noteAttn_src (peer : Bool) (reason : Nat) : (d.noteAttn peer reason).src = d.src := rfl
@[simp] theorem Dev.noteAttn_strs (peer : Bool) (reason : Nat) : (d.noteAttn peer reason).strs = d.strs := rfl
@[simp] theorem Dev.noteAttn_strSeen (peer : Bool) (reason : Nat) : (d.noteAttn peer reason).strSeen = d.strSeen := rfl
@[simp] theorem Dev.noteAttn_led (peer : Bool) (reason : Nat) : (d.noteAttn peer reason).led = d.led := rfl
@[simp] theorem Dev.noteAttn_turnStart (peer : Bool) (reason : Nat) : (d.noteAttn peer reason).turnStart = d.turnStart := rfl
@[simp] theorem Dev.noteAttn_turnDur (peer : Bool) (reason : Nat) : (d.noteAttn peer reason).turnDur = d.turnDur := rfl
@[simp] theorem Dev.noteAttn_heat (peer : Bool) (reason : Nat) : (d.noteAttn peer reason).heat = d.heat := rfl
@[simp] theorem Dev.noteAttn_wit (peer : Bool) (reason : Nat) : (d.noteAttn peer reason).wit = d.wit := rfl
@[simp] theorem Dev.noteAttn_net (peer : Bool) (reason : Nat) : (d.noteAttn peer reason).net = d.net := rfl
@[simp] theorem Dev.noteAttn_sag (peer : Bool) (reason : Nat) : (d.noteAttn peer reason).sag = d.sag := rfl
@[simp] theorem Dev.noteAttn_lanes (peer : Bool) (reason : Nat) : (d.noteAttn peer reason).lanes = d.lanes := rfl
@[simp] theorem Dev.noteAttn_sram (peer : Bool) (reason : Nat) : (d.noteAttn peer reason).sram = d.sram := rfl
@[simp] theorem Dev.noteAttn_img (peer : Bool) (reason : Nat) : (d.noteAttn peer reason).img = d.img := rfl
@[simp] theorem Dev.noteAttn_tal (peer : Bool) (reason : Nat) : (d.noteAttn peer reason).tal = d.tal := rfl
@[simp] theorem Dev.noteAttn_pow (peer : Bool) (reason : Nat) : (d.noteAttn peer reason).pow = d.pow := rfl
@[simp] theorem Dev.noteAttn_sitter (peer : Bool) (reason : Nat) : (d.noteAttn peer reason).sitter = d.sitter := rfl
@[simp] theorem Dev.noteAttn_now (peer : Bool) (reason : Nat) : (d.noteAttn peer reason).now = d.now := rfl
@[simp] theorem Dev.noteAttn_tickNow (peer : Bool) (reason : Nat) : (d.noteAttn peer reason).tickNow = d.tickNow := rfl
@[simp] theorem Dev.noteAttn_onceTurn (peer : Bool) (reason : Nat) : (d.noteAttn peer reason).onceTurn = d.onceTurn := rfl
@[simp] theorem Dev.noteAttn_onceRound (peer : Bool) (reason : Nat) : (d.noteAttn peer reason).onceRound = d.onceRound := rfl
@[simp] theorem Dev.noteAttn_fresh (peer : Bool) (reason : Nat) : (d.noteAttn peer reason).fresh = d.fresh := rfl

@[simp] theorem Dev.attend_wheel (reason : Nat) : (d.attend reason).wheel = d.wheel := by unfold Dev.attend; dsimp only; split <;> simp
@[simp] theorem Dev.attend_plane (reason : Nat) : (d.attend reason).plane = d.plane := by unfold Dev.attend; dsimp only; split <;> simp
@[simp] theorem Dev.attend_host (reason : Nat) : (d.attend reason).host = d.host := by unfold Dev.attend; dsimp only; split <;> simp
@[simp] theorem Dev.attend_slots (reason : Nat) : (d.attend reason).slots = d.slots := by unfold Dev.attend; dsimp only; split <;> simp
@[simp] theorem Dev.attend_waits (reason : Nat) : (d.attend reason).waits = d.waits := by unfold Dev.attend; dsimp only; split <;> simp
@[simp] theorem Dev.attend_acq (reason : Nat) : (d.attend reason).acq = d.acq := by unfold Dev.attend; dsimp only; split <;> simp
@[simp] theorem Dev.attend_thr (reason : Nat) : (d.attend reason).thr = d.thr := by unfold Dev.attend; dsimp only; split <;> simp
@[simp] theorem Dev.attend_pwm (reason : Nat) : (d.attend reason).pwm = d.pwm := by unfold Dev.attend; dsimp only; split <;> simp
@[simp] theorem Dev.attend_kiln (reason : Nat) : (d.attend reason).kiln = d.kiln := by unfold Dev.attend; dsimp only; split <;> simp
@[simp] theorem Dev.attend_feeds (reason : Nat) : (d.attend reason).feeds = d.feeds := by unfold Dev.attend; dsimp only; split <;> simp
@[simp] theorem Dev.attend_branches (reason : Nat) : (d.attend reason).branches = d.branches := by unfold Dev.attend; dsimp only; split <;> simp
@[simp] theorem Dev.attend_seq (reason : Nat) : (d.attend reason).seq = d.seq := by unfold Dev.attend; dsimp only; split <;> simp
@[simp] theorem Dev.attend_src (reason : Nat) : (d.attend reason).src = d.src := by unfold Dev.attend; dsimp only; split <;> simp
@[simp] theorem Dev.attend_strs (reason : Nat) : (d.attend reason).strs = d.strs := by unfold Dev.attend; dsimp only; split <;> simp
@[simp] theorem Dev.attend_strSeen (reason : Nat) : (d.attend reason).strSeen = d.strSeen := by unfold Dev.attend; dsimp only; split <;> simp
@[simp] theorem Dev.attend_led (reason : Nat) : (d.attend reason).led = d.led := by unfold Dev.attend; dsimp only; split <;> simp
@[simp] theorem Dev.attend_turnStart (reason : Nat) : (d.attend reason).turnStart = d.turnStart := by unfold Dev.attend; dsimp only; split <;> simp
@[simp] theorem Dev.attend_turnDur (reason : Nat) : (d.attend reason).turnDur = d.turnDur := by unfold Dev.attend; dsimp only; split <;> simp
@[simp] theorem Dev.attend_heat (reason : Nat) : (d.attend reason).heat = d.heat := by unfold Dev.attend; dsimp only; split <;> simp
@[simp] theorem Dev.attend_wit (reason : Nat) : (d.attend reason).wit = d.wit := by unfold Dev.attend; dsimp only; split <;> simp
@[simp] theorem Dev.attend_net (reason : Nat) : (d.attend reason).net = d.net := by unfold Dev.attend; dsimp only; split <;> simp
@[simp] theorem Dev.attend_sag (reason : Nat) : (d.attend reason).sag = d.sag := by unfold Dev.attend; dsimp only; split <;> simp
@[simp] theorem Dev.attend_lanes (reason : Nat) : (d.attend reason).lanes = d.lanes := by unfold Dev.attend; dsimp only; split <;> simp
@[simp] theorem Dev.attend_sram (reason : Nat) : (d.attend reason).sram = d.sram := by unfold Dev.attend; dsimp only; split <;> simp
@[simp] theorem Dev.attend_img (reason : Nat) : (d.attend reason).img = d.img := by unfold Dev.attend; dsimp only; split <;> simp
@[simp] theorem Dev.attend_tal (reason : Nat) : (d.attend reason).tal = d.tal := by unfold Dev.attend; dsimp only; split <;> simp
@[simp] theorem Dev.attend_pow (reason : Nat) : (d.attend reason).pow = d.pow := by unfold Dev.attend; dsimp only; split <;> simp
@[simp] theorem Dev.attend_sitter (reason : Nat) : (d.attend reason).sitter = d.sitter := by unfold Dev.attend; dsimp only; split <;> simp
@[simp] theorem Dev.attend_now (reason : Nat) : (d.attend reason).now = d.now := by unfold Dev.attend; dsimp only; split <;> simp
@[simp] theorem Dev.attend_tickNow (reason : Nat) : (d.attend reason).tickNow = d.tickNow := by unfold Dev.attend; dsimp only; split <;> simp
@[simp] theorem Dev.attend_onceTurn (reason : Nat) : (d.attend reason).onceTurn = d.onceTurn := by unfold Dev.attend; dsimp only; split <;> simp
@[simp] theorem Dev.attend_onceRound (reason : Nat) : (d.attend reason).onceRound = d.onceRound := by unfold Dev.attend; dsimp only; split <;> simp
@[simp] theorem Dev.attend_fresh (reason : Nat) : (d.attend reason).fresh = d.fresh := by unfold Dev.attend; dsimp only; split <;> simp

@[simp] theorem Dev.fenceRing_wheel (n reason : Nat) : (d.fenceRing n reason).wheel = d.wheel := by unfold Dev.fenceRing; dsimp only; split <;> simp
@[simp] theorem Dev.fenceRing_plane (n reason : Nat) : (d.fenceRing n reason).plane = d.plane := by unfold Dev.fenceRing; dsimp only; split <;> simp
@[simp] theorem Dev.fenceRing_slots (n reason : Nat) : (d.fenceRing n reason).slots = d.slots := by unfold Dev.fenceRing; dsimp only; split <;> simp
@[simp] theorem Dev.fenceRing_waits (n reason : Nat) : (d.fenceRing n reason).waits = d.waits := by unfold Dev.fenceRing; dsimp only; split <;> simp
@[simp] theorem Dev.fenceRing_acq (n reason : Nat) : (d.fenceRing n reason).acq = d.acq := by unfold Dev.fenceRing; dsimp only; split <;> simp
@[simp] theorem Dev.fenceRing_thr (n reason : Nat) : (d.fenceRing n reason).thr = d.thr := by unfold Dev.fenceRing; dsimp only; split <;> simp
@[simp] theorem Dev.fenceRing_pwm (n reason : Nat) : (d.fenceRing n reason).pwm = d.pwm := by unfold Dev.fenceRing; dsimp only; split <;> simp
@[simp] theorem Dev.fenceRing_kiln (n reason : Nat) : (d.fenceRing n reason).kiln = d.kiln := by unfold Dev.fenceRing; dsimp only; split <;> simp
@[simp] theorem Dev.fenceRing_feeds (n reason : Nat) : (d.fenceRing n reason).feeds = d.feeds := by unfold Dev.fenceRing; dsimp only; split <;> simp
@[simp] theorem Dev.fenceRing_branches (n reason : Nat) : (d.fenceRing n reason).branches = d.branches := by unfold Dev.fenceRing; dsimp only; split <;> simp
@[simp] theorem Dev.fenceRing_seq (n reason : Nat) : (d.fenceRing n reason).seq = d.seq := by unfold Dev.fenceRing; dsimp only; split <;> simp
@[simp] theorem Dev.fenceRing_src (n reason : Nat) : (d.fenceRing n reason).src = d.src := by unfold Dev.fenceRing; dsimp only; split <;> simp
@[simp] theorem Dev.fenceRing_strs (n reason : Nat) : (d.fenceRing n reason).strs = d.strs := by unfold Dev.fenceRing; dsimp only; split <;> simp
@[simp] theorem Dev.fenceRing_strSeen (n reason : Nat) : (d.fenceRing n reason).strSeen = d.strSeen := by unfold Dev.fenceRing; dsimp only; split <;> simp
@[simp] theorem Dev.fenceRing_led (n reason : Nat) : (d.fenceRing n reason).led = d.led := by unfold Dev.fenceRing; dsimp only; split <;> simp
@[simp] theorem Dev.fenceRing_turnStart (n reason : Nat) : (d.fenceRing n reason).turnStart = d.turnStart := by unfold Dev.fenceRing; dsimp only; split <;> simp
@[simp] theorem Dev.fenceRing_turnDur (n reason : Nat) : (d.fenceRing n reason).turnDur = d.turnDur := by unfold Dev.fenceRing; dsimp only; split <;> simp
@[simp] theorem Dev.fenceRing_heat (n reason : Nat) : (d.fenceRing n reason).heat = d.heat := by unfold Dev.fenceRing; dsimp only; split <;> simp
@[simp] theorem Dev.fenceRing_wit (n reason : Nat) : (d.fenceRing n reason).wit = d.wit := by unfold Dev.fenceRing; dsimp only; split <;> simp
@[simp] theorem Dev.fenceRing_net (n reason : Nat) : (d.fenceRing n reason).net = d.net := by unfold Dev.fenceRing; dsimp only; split <;> simp
@[simp] theorem Dev.fenceRing_lanes (n reason : Nat) : (d.fenceRing n reason).lanes = d.lanes := by unfold Dev.fenceRing; dsimp only; split <;> simp
@[simp] theorem Dev.fenceRing_sram (n reason : Nat) : (d.fenceRing n reason).sram = d.sram := by unfold Dev.fenceRing; dsimp only; split <;> simp
@[simp] theorem Dev.fenceRing_img (n reason : Nat) : (d.fenceRing n reason).img = d.img := by unfold Dev.fenceRing; dsimp only; split <;> simp
@[simp] theorem Dev.fenceRing_twb (n reason : Nat) : (d.fenceRing n reason).twb = d.twb := by unfold Dev.fenceRing; dsimp only; split <;> simp
@[simp] theorem Dev.fenceRing_pow (n reason : Nat) : (d.fenceRing n reason).pow = d.pow := by unfold Dev.fenceRing; dsimp only; split <;> simp
@[simp] theorem Dev.fenceRing_sitter (n reason : Nat) : (d.fenceRing n reason).sitter = d.sitter := by unfold Dev.fenceRing; dsimp only; split <;> simp
@[simp] theorem Dev.fenceRing_now (n reason : Nat) : (d.fenceRing n reason).now = d.now := by unfold Dev.fenceRing; dsimp only; split <;> simp
@[simp] theorem Dev.fenceRing_tickNow (n reason : Nat) : (d.fenceRing n reason).tickNow = d.tickNow := by unfold Dev.fenceRing; dsimp only; split <;> simp
@[simp] theorem Dev.fenceRing_onceTurn (n reason : Nat) : (d.fenceRing n reason).onceTurn = d.onceTurn := by unfold Dev.fenceRing; dsimp only; split <;> simp
@[simp] theorem Dev.fenceRing_onceRound (n reason : Nat) : (d.fenceRing n reason).onceRound = d.onceRound := by unfold Dev.fenceRing; dsimp only; split <;> simp
@[simp] theorem Dev.fenceRing_fresh (n reason : Nat) : (d.fenceRing n reason).fresh = d.fresh := by unfold Dev.fenceRing; dsimp only; split <;> simp

end Sys2Proof.Machine
end

