-- ==== Sys2Proof/Laws/Ops.lean ====
section
/-! SUPPORT. What the shared operations do, each said once: how a meaning answers, rings, events, counting. -/

namespace Sys2Proof.Machine

/-! ### How a meaning answers -/

@[simp] theorem onDev_eq (s : State) (f : Setup → Dev → Dev) : s.onDev f = .next { s with dev := f s.setup s.dev } := rfl

@[simp] theorem onDevAt_lt (s : State) {lim n : Nat} (f : Setup → Dev → Dev) (h : n < lim) :
    s.onDevAt lim n f = .next { s with dev := f s.setup s.dev } := by simp [State.onDevAt, h]

@[simp] theorem onDevAt_ge (s : State) {lim n : Nat} (f : Setup → Dev → Dev) (h : ¬ n < lim) :
    s.onDevAt lim n f = .fault .noSuchInstance := by simp [State.onDevAt, h]

@[simp] theorem onHost_ready (s : State) (f : Setup → Dev → Dev) (h : s.dev.host.link = .ready) :
    s.onHost f = .next { s with dev := f s.setup s.dev } := by simp [State.onHost, h]

@[simp] theorem onHost_notReady (s : State) (f : Setup → Dev → Dev) (h : s.dev.host.link ≠ .ready) :
    s.onHost f = .next s := by simp [State.onHost, h]

@[simp] theorem onHostAt_ready (s : State) {lim n : Nat} (f : Setup → Dev → Dev) (hn : n < lim) (h : s.dev.host.link = .ready) :
    s.onHostAt lim n f = .next { s with dev := f s.setup s.dev } := by simp [State.onHostAt, hn, h]

@[simp] theorem onHostAt_notReady (s : State) {lim n : Nat} (f : Setup → Dev → Dev) (hn : n < lim)
    (h : s.dev.host.link ≠ .ready) : s.onHostAt lim n f = .next s := by simp [State.onHostAt, hn, h]

@[simp] theorem onHostAt_ge (s : State) {lim n : Nat} (f : Setup → Dev → Dev) (h : ¬ n < lim) :
    s.onHostAt lim n f = .fault .noSuchInstance := by simp [State.onHostAt, h]

/-! ### Rings -/

@[simp] theorem ring_modRing_self (h : HostIf) (n : Nat) (f : Ring → Ring) : (h.modRing n f).ring n = f (h.ring n) := by
  simp [HostIf.modRing, HostIf.ring]

theorem ring_modRing_ne (h : HostIf) {m n : Nat} (f : Ring → Ring) (hm : m ≠ n) : (h.modRing n f).ring m = h.ring m := by
  simp [HostIf.modRing, HostIf.ring, tget_tmod_ne _ _ _ hm]

@[simp] theorem notePeak_ring (h : HostIf) (n : Nat) : h.notePeak.ring n = h.ring n := rfl
@[simp] theorem notePeak_rings (h : HostIf) : h.notePeak.rings = h.rings := rfl
@[simp] theorem dropDoorbell_ring (h : HostIf) (n : Nat) : h.dropDoorbell.ring n = h.ring n := rfl

/-! ### Slots -/

@[simp] theorem slot_modSlot_self (d : Dev) (t i : Nat) (f : Slot → Slot) : (d.modSlot t i f).slot t i = f (d.slot t i) := by
  simp [Dev.slot, Dev.modSlot]

theorem slot_modSlot_ne (d : Dev) {t i u j : Nat} (f : Slot → Slot) (h : slotKey u j ≠ slotKey t i) :
    (d.modSlot t i f).slot u j = d.slot u j := by
  simp [Dev.slot, Dev.modSlot, tget_tmod_ne _ _ _ h]

/-! ### Descriptors -/

theorem onDesc_row (s : State) (op : Nat) (x : Desc) (f : OpFn) (h : ∀ n, x.src = .ring n → n < 128) :
    s.onDesc op x f = .next { s with dev := descRow op f 0 x s.dev } := by
  unfold State.onDesc
  split
  · rename_i n e; simp only [State.onDevAt, h n e, if_true, State.onDev]
  · rfl

theorem completed_ring (x : Desc) (k n : Nat) (c : Cpl) (d : Dev) (h : x.src = .ring n) :
    completed x k c d = { d with host := (d.host.setEntry n k (.done c)).notePeak } := by
  simp [completed, h]

end Sys2Proof.Machine
end

