-- ==== Sys2Proof/Laws/Exec.lean ====
section
/-! SUPPORT. What executing a command can do, said once for all commands. -/

namespace Sys2Proof.Machine

/-- The four commands of set-up. -/
theorem changesSetup_cases (c : Instr) (h : c.changesSetup = true) :
    (∃ v, c = .sysLock v) ∨ (∃ o v w, c = .registerWrite o v w) ∨ (∃ v, c = .deviceReset v) ∨ c = .fireboxPor := by
  cases c
  case sysLock v => exact .inl ⟨v, rfl⟩
  case registerWrite o v w => exact .inr (.inl ⟨o, v, w, rfl⟩)
  case deviceReset v => exact .inr (.inr (.inl ⟨v, rfl⟩))
  case fireboxPor => exact .inr (.inr (.inr rfl))
  all_goals cases h

/-- What a command that changes no setup register answers: a change of the device alone, or a fault. -/
def Settled (s : State) (o : Out) : Prop := (∃ d, o = .next { s with dev := d }) ∨ o = .fault .noSuchInstance

theorem settled_onDev (s : State) (f : Setup → Dev → Dev) : Settled s (s.onDev f) := .inl ⟨_, rfl⟩

theorem settled_onDevAt (s : State) (lim n : Nat) (f : Setup → Dev → Dev) : Settled s (s.onDevAt lim n f) := by
  unfold State.onDevAt; split
  · exact settled_onDev s f
  · exact .inr rfl

theorem settled_onHost (s : State) (f : Setup → Dev → Dev) : Settled s (s.onHost f) := by
  unfold State.onHost; split
  · exact settled_onDev s f
  · exact .inl ⟨s.dev, rfl⟩

theorem settled_onHostAt (s : State) (lim n : Nat) (f : Setup → Dev → Dev) : Settled s (s.onHostAt lim n f) := by
  unfold State.onHostAt; split
  · exact settled_onHost s f
  · exact .inr rfl

theorem settled_onDesc (s : State) (op : Nat) (x : Desc) (f : OpFn) : Settled s (s.onDesc op x f) := by
  unfold State.onDesc; split
  · exact settled_onDevAt s _ _ _
  · exact settled_onDev s _

/-- Every command but those of set-up changes the device alone, or faults on an instance number. -/
theorem exec_settled (c : Instr) (s : State) (h : c.changesSetup = false) : Settled s (exec c s) := by
  cases c with
  | create _ => exact settled_onDesc s _ _ _
  | destroy _ => exact settled_onDesc s _ _ _
  | configure _ => exact settled_onDesc s _ _ _
  | bankWrite _ => exact settled_onDesc s _ _ _
  | bankSwap _ => exact settled_onDesc s _ _ _
  | bankRead _ => exact settled_onDesc s _ _ _
  | bankCopy _ => exact settled_onDesc s _ _ _
  | enable _ => exact settled_onDesc s _ _ _
  | disable _ => exact settled_onDesc s _ _ _
  | setPoint _ => exact settled_onDesc s _ _ _
  | setProfile _ => exact settled_onDesc s _ _ _
  | setRound _ => exact settled_onDesc s _ _ _
  | clear _ => exact settled_onDesc s _ _ _
  | recover _ => exact settled_onDesc s _ _ _
  | queryState _ => exact settled_onDesc s _ _ _
  | queryRead _ => exact settled_onDesc s _ _ _
  | eventWait _ => exact settled_onDesc s _ _ _
  | queryResources _ => exact settled_onDesc s _ _ _
  | queryHandles _ => exact settled_onDesc s _ _ _
  | streamStart _ => exact settled_onDesc s _ _ _
  | streamBuf _ => exact settled_onDesc s _ _ _
  | streamStop _ => exact settled_onDesc s _ _ _
  | imgSherd _ => exact settled_onDesc s _ _ _
  | imgStatus _ => exact settled_onDesc s _ _ _
  | imgActivate _ => exact settled_onDesc s _ _ _
  | imgRollback _ => exact settled_onDesc s _ _ _
  | nop _ => exact settled_onDesc s _ _ _
  | fence _ => exact settled_onDesc s _ _ _
  | warmStart _ => exact settled_onDesc s _ _ _
  | kilnRead _ => exact settled_onDesc s _ _ _
  | debugUnlock _ => exact settled_onDesc s _ _ _
  | hostDbSq _ _ => exact settled_onHostAt s _ _ _
  | hostDbCq _ _ => exact settled_onHostAt s _ _ _
  | ringEnable _ => exact settled_onHostAt s _ _ _
  | ringPause _ => exact settled_onHostAt s _ _ _
  | ringReset _ => exact settled_onHostAt s _ _ _
  | acqCalStart _ => exact settled_onHost s _
  | sysLock _ => cases h
  | wheelTurnLoRead => exact settled_onHost s _
  | tallyFbCycLoRead _ => exact settled_onHostAt s _ _ _
  | tallyFbCntRead _ _ => simp only [exec, execTallyFbCntRead]; split; apply settled_onHostAt; exact .inr rfl
  | tallyFbClear _ => exact settled_onHostAt s _ _ _
  | tallyFbFreeze _ _ => exact settled_onHostAt s _ _ _
  | tallyTagClear => exact settled_onHost s _
  | hostAuditRead => exact settled_onHost s _
  | hostInflightRead => exact settled_onHost s _
  | wheelCountRead => exact settled_onHost s _
  | acqFsCountRead _ => exact settled_onHostAt s _ _ _
  | acqCalStatusWrite _ => exact settled_onHost s _
  | sysClkRead => exact settled_onHost s _
  | sysClkWrite _ => exact settled_onHost s _
  | sysRstRead => exact settled_onHost s _
  | sysRstWrite _ => exact settled_onHost s _
  | bar4Write _ _ => exact settled_onHost s _
  | registerWrite _ _ _ => cases h
  | linkTrainingDone _ _ _ => exact .inl ⟨_, rfl⟩
  | configSpaceReady => exact .inl ⟨_, rfl⟩
  | hostInterfaceReset _ _ => exact .inl ⟨_, rfl⟩
  | descriptorFetchDone _ _ => exact settled_onDevAt s _ _ _
  | completionPost _ => exact settled_onDevAt s _ _ _
  | irqCoalesceTimeout _ => exact settled_onDevAt s _ _ _
  | mainsEdge _ _ _ _ => exact .inl ⟨_, rfl⟩
  | wheelMissedEdge => exact .inl ⟨_, rfl⟩
  | turnBoundary _ => exact .inl ⟨_, rfl⟩
  | mgmtHeartbeat => exact .inl ⟨_, rfl⟩
  | mgmtWatchdogTimeout => exact .inl ⟨_, rfl⟩
  | mgmtWdColdStart => exact .inl ⟨_, rfl⟩
  | ledgerClose _ _ _ => exact .inl ⟨_, rfl⟩
  | ledgUnmetered => exact .inl ⟨_, rfl⟩
  | estimatorStep => exact .inl ⟨_, rfl⟩
  | battUnanchored _ => exact settled_onDevAt s _ _ _
  | impedanceWindowClose _ => exact settled_onDevAt s _ _ _
  | tallyGather => exact .inl ⟨_, rfl⟩
  | scrub _ => exact .inl ⟨_, rfl⟩
  | bankRebuild _ => exact settled_onDevAt s _ _ _
  | sramLineRead _ _ => exact .inl ⟨_, rfl⟩
  | sampleTrigger _ => exact settled_onDevAt s _ _ _
  | fsConversionDone _ _ _ _ _ => exact settled_onDevAt s _ _ _
  | urgentTrigger _ _ => exact settled_onDevAt s _ _ _
  | injectedStart _ => exact settled_onDevAt s _ _ _
  | loopDispatch _ _ _ => exact settled_onDevAt s _ _ _
  | loopFerr _ => exact settled_onDevAt s _ _ _
  | loopStarved _ => exact .inl ⟨_, rfl⟩
  | throwMemError _ _ _ _ => exact .inl ⟨_, rfl⟩
  | svScanStart => exact .inl ⟨_, rfl⟩
  | svConversionDone _ _ _ => exact .inl ⟨_, rfl⟩
  | pdOutput _ _ _ _ _ => exact settled_onDevAt s _ _ _
  | pdWindowCrossing _ => exact settled_onDevAt s _ _ _
  | tdConversionDone _ _ _ _ _ _ => exact .inl ⟨_, rfl⟩
  | sensorPeriod _ => exact settled_onDevAt s _ _ _
  | calFamilyDone _ _ _ => exact settled_onDevAt s _ _ _
  | calDone => exact .inl ⟨_, rfl⟩
  | flueCrcFail _ _ => exact settled_onDevAt s _ _ _
  | flueKeepalive => exact .inl ⟨_, rfl⟩
  | flueTakeover => exact .inl ⟨_, rfl⟩
  | flueTakeoverReport => exact .inl ⟨_, rfl⟩
  | fireboxSilence => exact .inl ⟨_, rfl⟩
  | unitWatchdog _ => exact settled_onDevAt s _ _ _
  | carrierStart _ _ _ => exact settled_onDevAt s _ _ _
  | sheddingEnd _ => exact settled_onDevAt s _ _ _
  | shedHoldEnd _ => exact settled_onDevAt s _ _ _
  | bootstrapUv _ _ => exact settled_onDevAt s _ _ _
  | vdrvUv => exact .inl ⟨_, rfl⟩
  | surgeDetect _ _ _ _ => exact settled_onDevAt s _ _ _
  | firingEnd _ _ _ => exact settled_onDevAt s _ _ _
  | railPgConfirm _ => exact settled_onDevAt s _ _ _
  | railStartTimeout _ _ => exact settled_onDevAt s _ _ _
  | railOffReached _ => exact settled_onDevAt s _ _ _
  | railStopLate _ _ => exact settled_onDevAt s _ _ _
  | railOv _ _ => exact settled_onDevAt s _ _ _
  | railUvTime _ _ => exact settled_onDevAt s _ _ _
  | railOcp _ _ _ => exact settled_onDevAt s _ _ _
  | phaseFailure _ _ _ _ => exact settled_onDevAt s _ _ _
  | feedPrechargeDone _ => exact settled_onDevAt s _ _ _
  | feedPrechargeTimeout _ _ => exact settled_onDevAt s _ _ _
  | feedPgConfirm _ => exact settled_onDevAt s _ _ _
  | feedPgLoss _ => exact settled_onDevAt s _ _ _
  | feedGateTimeout _ _ _ => exact settled_onDevAt s _ _ _
  | feedShort _ _ => exact settled_onDevAt s _ _ _
  | feedFaultTimer _ _ _ => exact settled_onDevAt s _ _ _
  | feedBackstop _ _ => exact settled_onDevAt s _ _ _
  | feedPowerLimit _ _ => exact settled_onDevAt s _ _ _
  | feedOvReverse _ _ _ => exact settled_onDevAt s _ _ _
  | feedFaultRecord _ => exact settled_onDevAt s _ _ _
  | feedBleedStart _ => exact settled_onDevAt s _ _ _
  | feedBleedEnd _ => exact settled_onDevAt s _ _ _
  | feedResLate _ => exact settled_onDevAt s _ _ _
  | feedRetryDelay _ => exact settled_onDevAt s _ _ _
  | feedRetryClear _ => exact settled_onDevAt s _ _ _
  | feedBackfeed _ => exact settled_onDevAt s _ _ _
  | branchEnergyTrip _ _ _ _ _ _ => exact settled_onDevAt s _ _ _
  | branchHardTrip _ _ => exact settled_onDevAt s _ _ _
  | branchOnsetReset _ => exact settled_onDevAt s _ _ _
  | branchRampTimeout _ _ _ => exact settled_onDevAt s _ _ _
  | branchOpeningEnd _ => exact settled_onDevAt s _ _ _
  | branchHealthWindow _ => exact settled_onDevAt s _ _ _
  | srcQualified _ _ => exact settled_onDevAt s _ _ _
  | srcLoss _ _ _ _ => exact settled_onDevAt s _ _ _
  | srcBlockingConfirmed _ _ => exact settled_onDevAt s _ _ _
  | srcConductionConfirmed _ _ _ => exact settled_onDevAt s _ _ _
  | srcStuck _ => exact settled_onDevAt s _ _ _
  | srcFailed _ => exact settled_onDevAt s _ _ _
  | srcAutoReturn _ => exact settled_onDevAt s _ _ _
  | srcNoneTimeout _ => exact settled_onDevAt s _ _ _
  | holdupRelease _ => exact .inl ⟨_, rfl⟩
  | holdupChargeEnd => exact .inl ⟨_, rfl⟩
  | holdupBleedStart _ _ => exact .inl ⟨_, rfl⟩
  | holdupBleedGate _ => exact .inl ⟨_, rfl⟩
  | holdupBleedEnd _ _ => exact .inl ⟨_, rfl⟩
  | battCutoff _ => exact settled_onDevAt s _ _ _
  | cutoffRelease _ => exact settled_onDevAt s _ _ _
  | battHibernate _ => exact settled_onDevAt s _ _ _
  | reducedSampling _ => exact settled_onDevAt s _ _ _
  | seqDelayUpEnd _ => exact settled_onDevAt s _ _ _
  | seqDelayDownEnd _ => exact settled_onDevAt s _ _ _
  | seqStepUp _ => exact settled_onDevAt s _ _ _
  | seqStepOff _ => exact settled_onDevAt s _ _ _
  | seqRiseTimeout _ => exact settled_onDevAt s _ _ _
  | seqFallTimeout _ => exact settled_onDevAt s _ _ _
  | seqDschWinEnd _ => exact settled_onDevAt s _ _ _
  | seqMemberFault _ _ => exact settled_onDevAt s _ _ _
  | seqMinOffEnd _ => exact settled_onDevAt s _ _ _
  | faultnQuiet _ => exact settled_onDevAt s _ _ _
  | faultnLow _ => exact .inl ⟨_, rfl⟩
  | faultnHigh _ => exact .inl ⟨_, rfl⟩
  | coneTrip _ _ _ _ => simp only [exec, execConeTrip]; split; apply settled_onDevAt; exact .inr rfl
  | coneConfirm _ _ _ => exact settled_onDevAt s _ _ _
  | sitterRelease => exact .inl ⟨_, rfl⟩
  | sensorBiasFault _ => exact settled_onDevAt s _ _ _
  | blackBoxTrigger _ => exact .inl ⟨_, rfl⟩
  | blackBoxCommitDone => exact .inl ⟨_, rfl⟩
  | blackBoxRearm => exact .inl ⟨_, rfl⟩
  | sherdWriteDone _ => exact .inl ⟨_, rfl⟩
  | slotEraseDone _ => exact settled_onDevAt s _ _ _
  | handoverCopyDone _ => exact .inl ⟨_, rfl⟩
  | handoverHoldCommands => exact .inl ⟨_, rfl⟩
  | handoverBoundary => exact .inl ⟨_, rfl⟩
  | newImageStart _ => exact .inl ⟨_, rfl⟩
  | fireboxImageSwitch => exact .inl ⟨_, rfl⟩
  | fireboxSelfRevert => exact .inl ⟨_, rfl⟩
  | imageConfirmed _ => exact .inl ⟨_, rfl⟩
  | failedBoot => exact .inl ⟨_, rfl⟩
  | safeHold => exact .inl ⟨_, rfl⟩
  | fireboxPorRelease _ => exact .inl ⟨_, rfl⟩
  | fireboxPor => cases h
  | fireboxRailsGood => exact .inl ⟨_, rfl⟩
  | supervisorChecked _ => exact .inl ⟨_, rfl⟩
  | hkSuppliesGood => exact .inl ⟨_, rfl⟩
  | hkStartFail => exact .inl ⟨_, rfl⟩
  | hkRetry => exact .inl ⟨_, rfl⟩
  | bootRomInitDone _ => exact .inl ⟨_, rfl⟩
  | mgmtReady => exact .inl ⟨_, rfl⟩
  | hearthSupplyFault => exact .inl ⟨_, rfl⟩
  | deviceReset _ => cases h
  | refClockLoss => exact .inl ⟨_, rfl⟩
  | refClockRestore => exact .inl ⟨_, rfl⟩
  | pllUnlock _ => exact settled_onDevAt s _ _ _
  | mboxCommand _ _ => exact .inl ⟨_, rfl⟩
  | mboxReread _ => exact .inl ⟨_, rfl⟩
  | mboxDiscard _ => exact .inl ⟨_, rfl⟩
  | mboxFrameError _ _ => exact .inl ⟨_, rfl⟩
  | mboxRead _ _ => exact .inl ⟨_, rfl⟩
  | alertResponseRead => exact .inl ⟨_, rfl⟩
  | attentionPulse _ => exact .inl ⟨_, rfl⟩
  | twoWireTimeout _ _ _ => exact .inl ⟨_, rfl⟩
  | twoWireAbort _ _ _ => exact .inl ⟨_, rfl⟩
  | busStuckClear _ _ => exact .inl ⟨_, rfl⟩
  | arbitrationLost _ _ => exact .inl ⟨_, rfl⟩
  | moduleDiscovery _ _ => exact .inl ⟨_, rfl⟩
  | modulePollCycle _ _ => exact .inl ⟨_, rfl⟩
  | moduleWrite _ _ => exact .inl ⟨_, rfl⟩
  | ethFrameReceived _ _ _ _ => exact settled_onDevAt s _ _ _
  | netLink _ _ _ => exact settled_onDevAt s _ _ _
  | dtlsHandshake _ _ _ => exact settled_onDevAt s _ _ _
  | dtlsIdleClose _ => exact settled_onDevAt s _ _ _
  | coapGetId _ => exact settled_onDevAt s _ _ _
  | coapPostCmd _ _ _ _ _ => exact .inl ⟨_, rfl⟩
  | coapPutImg _ _ _ _ _ _ => exact .inl ⟨_, rfl⟩
  | streamEmission _ _ => exact settled_onDevAt s _ _ _
  | branchPgConfirm _ => exact settled_onDevAt s _ _ _
  | branchPgLoss _ => exact settled_onDevAt s _ _ _
  | branchBackstop _ _ => exact settled_onDevAt s _ _ _
  | branchOvReverse _ _ _ => exact settled_onDevAt s _ _ _
  | branchRetryDelay _ => exact settled_onDevAt s _ _ _
  | branchRetryClear _ => exact settled_onDevAt s _ _ _
  | srcWindowLoss _ _ _ => exact settled_onDevAt s _ _ _
  | vdrvUvRelease => exact .inl ⟨_, rfl⟩
  | pllRelock _ => exact settled_onDevAt s _ _ _
  | pcieLinkDown _ => exact .inl ⟨_, rfl⟩
  | netifLinkTimeout _ => exact settled_onDevAt s _ _ _
  | dadComplete _ _ => exact settled_onDevAt s _ _ _
  | reducedSamplingTurn _ => exact settled_onDevAt s _ _ _
  | attentionPulseCollision => exact .inl ⟨_, rfl⟩
  | dischargeThermalOff _ _ => exact settled_onDevAt s _ _ _
  | jtagInstructionLoad _ => exact .inl ⟨_, rfl⟩

theorem onDesc_completes (op : Nat) (x : Desc) (f : OpFn) (s : State) (h : x.src.wf = true) :
    ∃ d, s.onDesc op x f = .next { s with dev := d } := by
  unfold State.onDesc
  cases hs : x.src with
  | ring n => simp [hs, Src.wf] at h; simp [h]
  | mailbox p => simp
  | coap k m i => simp

theorem onHost_completes (s : State) (f : Setup → Dev → Dev) : ∃ d, s.onHost f = .next { s with dev := d } := by
  unfold State.onHost; split
  · exact ⟨_, rfl⟩
  · exact ⟨s.dev, rfl⟩

theorem onHostAt_completes (s : State) {lim n : Nat} (f : Setup → Dev → Dev) (h : n < lim) :
    ∃ d, s.onHostAt lim n f = .next { s with dev := d } := by
  simp only [State.onHostAt, h, if_true]; exact onHost_completes s f

end Sys2Proof.Machine
end

