-- ==== Sys2Proof/Laws/Frames.lean ====
section
/-! SUPPORT. What the shared operations leave unchanged: each is the device with the parts it may change replaced by what it
makes of them. -/

namespace Sys2Proof.Machine

theorem raise_frame (d : Dev) (code detail : Nat) (h : Word) :
    d.raise code detail h = { d with
      host := (d.raise code detail h).host, tal := (d.raise code detail h).tal, sag := (d.raise code detail h).sag } := by
  unfold Dev.raise; dsimp only; (repeat' split) <;> rfl

theorem raiseOnceTurn_frame (d : Dev) (key code detail : Nat) (h : Word) :
    d.raiseOnceTurn key code detail h = { d with
      host := (d.raiseOnceTurn key code detail h).host, tal := (d.raiseOnceTurn key code detail h).tal
      sag := (d.raiseOnceTurn key code detail h).sag
      onceTurn := (d.raiseOnceTurn key code detail h).onceTurn } := by
  unfold Dev.raiseOnceTurn; split
  · rfl
  · rw [raise_frame]

theorem raiseOnceRound_frame (d : Dev) (key code detail : Nat) (h : Word) :
    d.raiseOnceRound key code detail h = { d with
      host := (d.raiseOnceRound key code detail h).host, tal := (d.raiseOnceRound key code detail h).tal
      sag := (d.raiseOnceRound key code detail h).sag
      onceRound := (d.raiseOnceRound key code detail h).onceRound } := by
  unfold Dev.raiseOnceRound; split
  · rfl
  · rw [raise_frame]

theorem attend_frame (d : Dev) (r : Nat) : d.attend r = { d with twb := (d.attend r).twb } := by
  unfold Dev.attend; dsimp only; split <;> rfl

theorem coapReply_frame (d : Dev) (k mid : Nat) (resp : List Byte) :
    d.coapReply k mid resp = { d with net := (d.coapReply k mid resp).net, tal := (d.coapReply k mid resp).tal } := by
  unfold Dev.coapReply
  split
  · dsimp only; split <;> rfl
  · rfl

theorem deliver_frame (d : Dev) (src : Option Src) (c : Cpl) :
    d.deliver src c = { d with
      host := (d.deliver src c).host, tal := (d.deliver src c).tal, twb := (d.deliver src c).twb, net := (d.deliver src c).net } := by
  unfold Dev.deliver
  split
  · rfl
  · dsimp only; split
    · rfl
    · rw [attend_frame]; rfl
  · rw [coapReply_frame]
  · rfl

theorem answerWait_frame (d : Dev) (w : Wait) (c : Cpl) :
    d.answerWait w c = { d with
      waits := (d.answerWait w c).waits, host := (d.answerWait w c).host, tal := (d.answerWait w c).tal
      twb := (d.answerWait w c).twb, net := (d.answerWait w c).net } := by
  unfold Dev.answerWait; split
  · rfl
  · rw [deliver_frame]

theorem endWaits_frame (d : Dev) (p : Wait → Bool) (f : Wait → Cpl) :
    d.endWaits p f = { d with
      waits := (d.endWaits p f).waits, host := (d.endWaits p f).host, tal := (d.endWaits p f).tal
      twb := (d.endWaits p f).twb, net := (d.endWaits p f).net } := by
  unfold Dev.endWaits
  generalize d.waits.filter p = l
  suffices h : ∀ e : Dev, l.foldl (fun d w => d.answerWait w (f w)) e =
      { e with
        waits := (l.foldl (fun d w => d.answerWait w (f w)) e).waits
        host := (l.foldl (fun d w => d.answerWait w (f w)) e).host, tal := (l.foldl (fun d w => d.answerWait w (f w)) e).tal
        twb := (l.foldl (fun d w => d.answerWait w (f w)) e).twb, net := (l.foldl (fun d w => d.answerWait w (f w)) e).net } by
    rw [h { d with waits := d.waits.filter fun w => !p w }]
  induction l with
  | nil => intro e; rfl
  | cons w l ih => intro e; rw [List.foldl_cons, ih]; rw [answerWait_frame e w (f w)]

theorem completed_frame (x : Desc) (k : Nat) (c : Cpl) (d : Dev) :
    completed x k c d = { d with
      host := (completed x k c d).host, tal := (completed x k c d).tal, twb := (completed x k c d).twb
      net := (completed x k c d).net } := by
  unfold completed
  split
  · rfl
  · rw [deliver_frame]

theorem sweepRing_frame (n : Nat) (d : Dev) : sweepRing n d = { d with host := (sweepRing n d).host } := by
  unfold sweepRing; split <;> rfl

theorem begins_frame {op : Nat} {x : Desc} {d e : Dev} {k : Nat} (h : begins op x d = some (e, k)) :
    e = { d with host := e.host, tal := e.tal, twb := e.twb } := by
  unfold begins at h
  split at h
  · unfold ringBegins at h
    rw [sweepRing_frame] at h
    dsimp only at h
    (repeat' split at h) <;> cases h <;> rfl
  · split at h
    · cases h; unfold boxTaken boxWrite Dev.modBox; dsimp only; split <;> rfl
    · cases h
  · unfold coapBegins at h
    (repeat' split at h) <;> cases h <;> rfl

end Sys2Proof.Machine
end

