-- ==== Sys2Proof/Laws/PerInstr.lean ====
section
/-! SUPPORT. One family of facts about a command as syntax: the descriptor that a well-formed command carries is well-formed, so
that it names a ring below 128 (R47) and has the fourteen parameters of Table 3.7. -/

namespace Sys2Proof.Laws

/-- The descriptor that a command carries, if it carries one. -/
def carried : Instr → Option Desc
  | .create x => some x
  | .destroy x => some x
  | .configure x => some x
  | .bankWrite x => some x
  | .bankSwap x => some x
  | .bankRead x => some x
  | .bankCopy x => some x
  | .enable x => some x
  | .disable x => some x
  | .setPoint x => some x
  | .setProfile x => some x
  | .setRound x => some x
  | .clear x => some x
  | .recover x => some x
  | .queryState x => some x
  | .queryRead x => some x
  | .eventWait x => some x
  | .queryResources x => some x
  | .queryHandles x => some x
  | .streamStart x => some x
  | .streamBuf x => some x
  | .streamStop x => some x
  | .imgSherd x => some x
  | .imgStatus x => some x
  | .imgActivate x => some x
  | .imgRollback x => some x
  | .nop x => some x
  | .fence x => some x
  | .warmStart x => some x
  | .kilnRead x => some x
  | .debugUnlock x => some x
  | .mboxCommand _ r => some r.d
  | .coapPostCmd _ _ _ _ r => some r.d
  | _ => none

/-- What is said of each command. -/
def Wf.Statement (i : Instr) : Prop := i.wf = true → ∀ x, carried i = some x → x.wf = true

theorem Wf.create (d : Desc) : Wf.Statement (.create d) := fun h _ e => Option.some.inj e ▸ h
theorem Wf.destroy (d : Desc) : Wf.Statement (.destroy d) := fun h _ e => Option.some.inj e ▸ h
theorem Wf.configure (d : Desc) : Wf.Statement (.configure d) := fun h _ e => Option.some.inj e ▸ h
theorem Wf.bankWrite (d : Desc) : Wf.Statement (.bankWrite d) := fun h _ e => Option.some.inj e ▸ h
theorem Wf.bankSwap (d : Desc) : Wf.Statement (.bankSwap d) := fun h _ e => Option.some.inj e ▸ h
theorem Wf.bankRead (d : Desc) : Wf.Statement (.bankRead d) := fun h _ e => Option.some.inj e ▸ h
theorem Wf.bankCopy (d : Desc) : Wf.Statement (.bankCopy d) := fun h _ e => Option.some.inj e ▸ h
theorem Wf.enable (d : Desc) : Wf.Statement (.enable d) := fun h _ e => Option.some.inj e ▸ h
theorem Wf.disable (d : Desc) : Wf.Statement (.disable d) := fun h _ e => Option.some.inj e ▸ h
theorem Wf.setPoint (d : Desc) : Wf.Statement (.setPoint d) := fun h _ e => Option.some.inj e ▸ h
theorem Wf.setProfile (d : Desc) : Wf.Statement (.setProfile d) := fun h _ e => Option.some.inj e ▸ h
theorem Wf.setRound (d : Desc) : Wf.Statement (.setRound d) := fun h _ e => Option.some.inj e ▸ h
theorem Wf.clear (d : Desc) : Wf.Statement (.clear d) := fun h _ e => Option.some.inj e ▸ h
theorem Wf.recover (d : Desc) : Wf.Statement (.recover d) := fun h _ e => Option.some.inj e ▸ h
theorem Wf.queryState (d : Desc) : Wf.Statement (.queryState d) := fun h _ e => Option.some.inj e ▸ h
theorem Wf.queryRead (d : Desc) : Wf.Statement (.queryRead d) := fun h _ e => Option.some.inj e ▸ h
theorem Wf.eventWait (d : Desc) : Wf.Statement (.eventWait d) := fun h _ e => Option.some.inj e ▸ h
theorem Wf.queryResources (d : Desc) : Wf.Statement (.queryResources d) := fun h _ e => Option.some.inj e ▸ h
theorem Wf.queryHandles (d : Desc) : Wf.Statement (.queryHandles d) := fun h _ e => Option.some.inj e ▸ h
theorem Wf.streamStart (d : Desc) : Wf.Statement (.streamStart d) := fun h _ e => Option.some.inj e ▸ h
theorem Wf.streamBuf (d : Desc) : Wf.Statement (.streamBuf d) := fun h _ e => Option.some.inj e ▸ h
theorem Wf.streamStop (d : Desc) : Wf.Statement (.streamStop d) := fun h _ e => Option.some.inj e ▸ h
theorem Wf.imgSherd (d : Desc) : Wf.Statement (.imgSherd d) := fun h _ e => Option.some.inj e ▸ h
theorem Wf.imgStatus (d : Desc) : Wf.Statement (.imgStatus d) := fun h _ e => Option.some.inj e ▸ h
theorem Wf.imgActivate (d : Desc) : Wf.Statement (.imgActivate d) := fun h _ e => Option.some.inj e ▸ h
theorem Wf.imgRollback (d : Desc) : Wf.Statement (.imgRollback d) := fun h _ e => Option.some.inj e ▸ h
theorem Wf.nop (d : Desc) : Wf.Statement (.nop d) := fun h _ e => Option.some.inj e ▸ h
theorem Wf.fence (d : Desc) : Wf.Statement (.fence d) := fun h _ e => Option.some.inj e ▸ h
theorem Wf.warmStart (d : Desc) : Wf.Statement (.warmStart d) := fun h _ e => Option.some.inj e ▸ h
theorem Wf.kilnRead (d : Desc) : Wf.Statement (.kilnRead d) := fun h _ e => Option.some.inj e ▸ h
theorem Wf.debugUnlock (d : Desc) : Wf.Statement (.debugUnlock d) := fun h _ e => Option.some.inj e ▸ h
theorem Wf.hostDbSq (ring : Nat) (value : Word) : Wf.Statement (.hostDbSq ring value) := fun _ _ e => nomatch e
theorem Wf.hostDbCq (ring : Nat) (value : Word) : Wf.Statement (.hostDbCq ring value) := fun _ _ e => nomatch e
theorem Wf.ringEnable (ring : Nat) : Wf.Statement (.ringEnable ring) := fun _ _ e => nomatch e
theorem Wf.ringPause (ring : Nat) : Wf.Statement (.ringPause ring) := fun _ _ e => nomatch e
theorem Wf.ringReset (ring : Nat) : Wf.Statement (.ringReset ring) := fun _ _ e => nomatch e
theorem Wf.acqCalStart (value : Word) : Wf.Statement (.acqCalStart value) := fun _ _ e => nomatch e
theorem Wf.sysLock (value : Word) : Wf.Statement (.sysLock value) := fun _ _ e => nomatch e
theorem Wf.wheelTurnLoRead : Wf.Statement (.wheelTurnLoRead) := fun _ _ e => nomatch e
theorem Wf.tallyFbCycLoRead (set : Nat) : Wf.Statement (.tallyFbCycLoRead set) := fun _ _ e => nomatch e
theorem Wf.tallyFbCntRead (set : Nat) (counter : Nat) : Wf.Statement (.tallyFbCntRead set counter) := fun _ _ e => nomatch e
theorem Wf.tallyFbClear (set : Nat) : Wf.Statement (.tallyFbClear set) := fun _ _ e => nomatch e
theorem Wf.tallyFbFreeze (set : Nat) (freeze : Bool) : Wf.Statement (.tallyFbFreeze set freeze) := fun _ _ e => nomatch e
theorem Wf.tallyTagClear : Wf.Statement (.tallyTagClear) := fun _ _ e => nomatch e
theorem Wf.hostAuditRead : Wf.Statement (.hostAuditRead) := fun _ _ e => nomatch e
theorem Wf.hostInflightRead : Wf.Statement (.hostInflightRead) := fun _ _ e => nomatch e
theorem Wf.wheelCountRead : Wf.Statement (.wheelCountRead) := fun _ _ e => nomatch e
theorem Wf.acqFsCountRead (conv : Nat) : Wf.Statement (.acqFsCountRead conv) := fun _ _ e => nomatch e
theorem Wf.acqCalStatusWrite (value : Word) : Wf.Statement (.acqCalStatusWrite value) := fun _ _ e => nomatch e
theorem Wf.sysClkRead : Wf.Statement (.sysClkRead) := fun _ _ e => nomatch e
theorem Wf.sysClkWrite (value : Word) : Wf.Statement (.sysClkWrite value) := fun _ _ e => nomatch e
theorem Wf.sysRstRead : Wf.Statement (.sysRstRead) := fun _ _ e => nomatch e
theorem Wf.sysRstWrite (value : Word) : Wf.Statement (.sysRstWrite value) := fun _ _ e => nomatch e
theorem Wf.bar4Write (offset : Nat) (value : Word) : Wf.Statement (.bar4Write offset value) := fun _ _ e => nomatch e
theorem Wf.registerWrite (offset : Nat) (value : BitVec 64) (wide : Bool) : Wf.Statement (.registerWrite offset value wide) := fun _ _ e => nomatch e
theorem Wf.linkTrainingDone (maxSpeed : BitVec 2) (maxWidth : BitVec 2) (perstN : Bool) : Wf.Statement (.linkTrainingDone maxSpeed maxWidth perstN) := fun _ _ e => nomatch e
theorem Wf.configSpaceReady : Wf.Statement (.configSpaceReady) := fun _ _ e => nomatch e
theorem Wf.hostInterfaceReset (conventional : Bool) (perstN : Bool) : Wf.Statement (.hostInterfaceReset conventional perstN) := fun _ _ e => nomatch e
theorem Wf.descriptorFetchDone (ring : Nat) (result : FetchResult) : Wf.Statement (.descriptorFetchDone ring result) := fun _ _ e => nomatch e
theorem Wf.completionPost (ring : Nat) : Wf.Statement (.completionPost ring) := fun _ _ e => nomatch e
theorem Wf.irqCoalesceTimeout (ring : Nat) : Wf.Statement (.irqCoalesceTimeout ring) := fun _ _ e => nomatch e
theorem Wf.mainsEdge (acSense : Bool) (highNs : Nat) (time : Nat) (tick : Nat) : Wf.Statement (.mainsEdge acSense highNs time tick) := fun _ _ e => nomatch e
theorem Wf.wheelMissedEdge : Wf.Statement (.wheelMissedEdge) := fun _ _ e => nomatch e
theorem Wf.turnBoundary (time : Nat) : Wf.Statement (.turnBoundary time) := fun _ _ e => nomatch e
theorem Wf.mgmtHeartbeat : Wf.Statement (.mgmtHeartbeat) := fun _ _ e => nomatch e
theorem Wf.mgmtWatchdogTimeout : Wf.Statement (.mgmtWatchdogTimeout) := fun _ _ e => nomatch e
theorem Wf.mgmtWdColdStart : Wf.Statement (.mgmtWdColdStart) := fun _ _ e => nomatch e
theorem Wf.ledgerClose (pFb : Nat) (pHk : Nat) (pDrv : Nat) : Wf.Statement (.ledgerClose pFb pHk pDrv) := fun _ _ e => nomatch e
theorem Wf.ledgUnmetered : Wf.Statement (.ledgUnmetered) := fun _ _ e => nomatch e
theorem Wf.estimatorStep : Wf.Statement (.estimatorStep) := fun _ _ e => nomatch e
theorem Wf.battUnanchored (string : Nat) : Wf.Statement (.battUnanchored string) := fun _ _ e => nomatch e
theorem Wf.impedanceWindowClose (string : Nat) : Wf.Statement (.impedanceWindowClose string) := fun _ _ e => nomatch e
theorem Wf.tallyGather : Wf.Statement (.tallyGather) := fun _ _ e => nomatch e
theorem Wf.scrub (events : List LineEvent) : Wf.Statement (.scrub events) := fun _ _ e => nomatch e
theorem Wf.bankRebuild (bank : Nat) : Wf.Statement (.bankRebuild bank) := fun _ _ e => nomatch e
theorem Wf.sramLineRead (events : List LineEvent) (read : LineRead) : Wf.Statement (.sramLineRead events read) := fun _ _ e => nomatch e
theorem Wf.sampleTrigger (gen : Nat) : Wf.Statement (.sampleTrigger gen) := fun _ _ e => nomatch e
theorem Wf.fsConversionDone (conv : Nat) (code : Int) (isOver : Bool) (late : Bool) (pos : Nat) : Wf.Statement (.fsConversionDone conv code isOver late pos) := fun _ _ e => nomatch e
theorem Wf.urgentTrigger (conv : Nat) (channel : Nat) : Wf.Statement (.urgentTrigger conv channel) := fun _ _ e => nomatch e
theorem Wf.injectedStart (conv : Nat) : Wf.Statement (.injectedStart conv) := fun _ _ e => nomatch e
theorem Wf.loopDispatch (lane : Nat) (wait : Nat) (pos : Nat) : Wf.Statement (.loopDispatch lane wait pos) := fun _ _ e => nomatch e
theorem Wf.loopFerr (loop : Nat) : Wf.Statement (.loopFerr loop) := fun _ _ e => nomatch e
theorem Wf.loopStarved (loop : LoopId) : Wf.Statement (.loopStarved loop) := fun _ _ e => nomatch e
theorem Wf.throwMemError (corrected : Bool) (lane : Nat) (owner : LoopId) (coef : Bool) : Wf.Statement (.throwMemError corrected lane owner coef) := fun _ _ e => nomatch e
theorem Wf.svScanStart : Wf.Statement (.svScanStart) := fun _ _ e => nomatch e
theorem Wf.svConversionDone (code : Nat) (isOver : Bool) (under : Bool) : Wf.Statement (.svConversionDone code isOver under) := fun _ _ e => nomatch e
theorem Wf.pdOutput (chan : Nat) (value : Int) (isOver : Bool) (pos : Nat) (settled : Bool) : Wf.Statement (.pdOutput chan value isOver pos settled) := fun _ _ e => nomatch e
theorem Wf.pdWindowCrossing (chan : Nat) : Wf.Statement (.pdWindowCrossing chan) := fun _ _ e => nomatch e
theorem Wf.tdConversionDone (value : Int) (uv : Nat) (opn : Bool) (short : Bool) (exc : Bool) (biasOk : Bool) : Wf.Statement (.tdConversionDone value uv opn short exc biasOk) := fun _ _ e => nomatch e
theorem Wf.sensorPeriod (sensor : Nat) : Wf.Statement (.sensorPeriod sensor) := fun _ _ e => nomatch e
theorem Wf.calFamilyDone (family : Nat) (yields : List CalYield) (milliC : Int) : Wf.Statement (.calFamilyDone family yields milliC) := fun _ _ e => nomatch e
theorem Wf.calDone : Wf.Statement (.calDone) := fun _ _ e => nomatch e
theorem Wf.flueCrcFail (lane : Nat) (run : Nat) : Wf.Statement (.flueCrcFail lane run) := fun _ _ e => nomatch e
theorem Wf.flueKeepalive : Wf.Statement (.flueKeepalive) := fun _ _ e => nomatch e
theorem Wf.flueTakeover : Wf.Statement (.flueTakeover) := fun _ _ e => nomatch e
theorem Wf.flueTakeoverReport : Wf.Statement (.flueTakeoverReport) := fun _ _ e => nomatch e
theorem Wf.fireboxSilence : Wf.Statement (.fireboxSilence) := fun _ _ e => nomatch e
theorem Wf.unitWatchdog (unit : Nat) : Wf.Statement (.unitWatchdog unit) := fun _ _ e => nomatch e
theorem Wf.carrierStart (phase : Nat) (iMax : Int) (iMin : Int) : Wf.Statement (.carrierStart phase iMax iMin) := fun _ _ e => nomatch e
theorem Wf.sheddingEnd (phase : Nat) : Wf.Statement (.sheddingEnd phase) := fun _ _ e => nomatch e
theorem Wf.shedHoldEnd (rail : Nat) : Wf.Statement (.shedHoldEnd rail) := fun _ _ e => nomatch e
theorem Wf.bootstrapUv (phase : Nat) (low : Bool) : Wf.Statement (.bootstrapUv phase low) := fun _ _ e => nomatch e
theorem Wf.vdrvUv : Wf.Statement (.vdrvUv) := fun _ _ e => nomatch e
theorem Wf.surgeDetect (rail : Nat) (mv : Int) (slope : Int) (pos : Nat) : Wf.Statement (.surgeDetect rail mv slope pos) := fun _ _ e => nomatch e
theorem Wf.firingEnd (phase : Nat) (mv : Int) (pos : Nat) : Wf.Statement (.firingEnd phase mv pos) := fun _ _ e => nomatch e
theorem Wf.railPgConfirm (rail : Nat) : Wf.Statement (.railPgConfirm rail) := fun _ _ e => nomatch e
theorem Wf.railStartTimeout (rail : Nat) (tick : Nat) : Wf.Statement (.railStartTimeout rail tick) := fun _ _ e => nomatch e
theorem Wf.railOffReached (rail : Nat) : Wf.Statement (.railOffReached rail) := fun _ _ e => nomatch e
theorem Wf.railStopLate (rail : Nat) (tick : Nat) : Wf.Statement (.railStopLate rail tick) := fun _ _ e => nomatch e
theorem Wf.railOv (rail : Nat) (tick : Nat) : Wf.Statement (.railOv rail tick) := fun _ _ e => nomatch e
theorem Wf.railUvTime (rail : Nat) (tick : Nat) : Wf.Statement (.railUvTime rail tick) := fun _ _ e => nomatch e
theorem Wf.railOcp (rail : Nat) (pos : Nat) (tick : Nat) : Wf.Statement (.railOcp rail pos tick) := fun _ _ e => nomatch e
theorem Wf.phaseFailure (rail : Nat) (pos : Nat) (sense : Bool) (tick : Nat) : Wf.Statement (.phaseFailure rail pos sense tick) := fun _ _ e => nomatch e
theorem Wf.feedPrechargeDone (feed : Nat) : Wf.Statement (.feedPrechargeDone feed) := fun _ _ e => nomatch e
theorem Wf.feedPrechargeTimeout (feed : Nat) (tick : Nat) : Wf.Statement (.feedPrechargeTimeout feed tick) := fun _ _ e => nomatch e
theorem Wf.feedPgConfirm (feed : Nat) : Wf.Statement (.feedPgConfirm feed) := fun _ _ e => nomatch e
theorem Wf.feedPgLoss (feed : Nat) : Wf.Statement (.feedPgLoss feed) := fun _ _ e => nomatch e
theorem Wf.feedGateTimeout (feed : Nat) (vgsLow : Bool) (tick : Nat) : Wf.Statement (.feedGateTimeout feed vgsLow tick) := fun _ _ e => nomatch e
theorem Wf.feedShort (feed : Nat) (tick : Nat) : Wf.Statement (.feedShort feed tick) := fun _ _ e => nomatch e
theorem Wf.feedFaultTimer (feed : Nat) (vgsLow : Bool) (tick : Nat) : Wf.Statement (.feedFaultTimer feed vgsLow tick) := fun _ _ e => nomatch e
theorem Wf.feedBackstop (feed : Nat) (tick : Nat) : Wf.Statement (.feedBackstop feed tick) := fun _ _ e => nomatch e
theorem Wf.feedPowerLimit (feed : Nat) (tick : Nat) : Wf.Statement (.feedPowerLimit feed tick) := fun _ _ e => nomatch e
theorem Wf.feedOvReverse (feed : Nat) (reverse : Bool) (tick : Nat) : Wf.Statement (.feedOvReverse feed reverse tick) := fun _ _ e => nomatch e
theorem Wf.feedFaultRecord (feed : Nat) : Wf.Statement (.feedFaultRecord feed) := fun _ _ e => nomatch e
theorem Wf.feedBleedStart (feed : Nat) : Wf.Statement (.feedBleedStart feed) := fun _ _ e => nomatch e
theorem Wf.feedBleedEnd (feed : Nat) : Wf.Statement (.feedBleedEnd feed) := fun _ _ e => nomatch e
theorem Wf.feedResLate (feed : Nat) : Wf.Statement (.feedResLate feed) := fun _ _ e => nomatch e
theorem Wf.feedRetryDelay (feed : Nat) : Wf.Statement (.feedRetryDelay feed) := fun _ _ e => nomatch e
theorem Wf.feedRetryClear (feed : Nat) : Wf.Statement (.feedRetryClear feed) := fun _ _ e => nomatch e
theorem Wf.feedBackfeed (feed : Nat) : Wf.Statement (.feedBackfeed feed) := fun _ _ e => nomatch e
theorem Wf.branchEnergyTrip (branch : Nat) (uj : Nat) (mv : Nat) (ma : Int) (slope : Int) (tick : Nat) : Wf.Statement (.branchEnergyTrip branch uj mv ma slope tick) := fun _ _ e => nomatch e
theorem Wf.branchHardTrip (branch : Nat) (tick : Nat) : Wf.Statement (.branchHardTrip branch tick) := fun _ _ e => nomatch e
theorem Wf.branchOnsetReset (branch : Nat) : Wf.Statement (.branchOnsetReset branch) := fun _ _ e => nomatch e
theorem Wf.branchRampTimeout (branch : Nat) (vgsLow : Bool) (tick : Nat) : Wf.Statement (.branchRampTimeout branch vgsLow tick) := fun _ _ e => nomatch e
theorem Wf.branchOpeningEnd (branch : Nat) : Wf.Statement (.branchOpeningEnd branch) := fun _ _ e => nomatch e
theorem Wf.branchHealthWindow (branch : Nat) : Wf.Statement (.branchHealthWindow branch) := fun _ _ e => nomatch e
theorem Wf.srcQualified (set : Nat) (input : Nat) : Wf.Statement (.srcQualified set input) := fun _ _ e => nomatch e
theorem Wf.srcLoss (set : Nat) (input : Nat) (cause : Nat) (tick : Nat) : Wf.Statement (.srcLoss set input cause tick) := fun _ _ e => nomatch e
theorem Wf.srcBlockingConfirmed (set : Nat) (input : Nat) : Wf.Statement (.srcBlockingConfirmed set input) := fun _ _ e => nomatch e
theorem Wf.srcConductionConfirmed (set : Nat) (gapNs : Nat) (vbusMin : Nat) : Wf.Statement (.srcConductionConfirmed set gapNs vbusMin) := fun _ _ e => nomatch e
theorem Wf.srcStuck (set : Nat) : Wf.Statement (.srcStuck set) := fun _ _ e => nomatch e
theorem Wf.srcFailed (set : Nat) : Wf.Statement (.srcFailed set) := fun _ _ e => nomatch e
theorem Wf.srcAutoReturn (set : Nat) : Wf.Statement (.srcAutoReturn set) := fun _ _ e => nomatch e
theorem Wf.srcNoneTimeout (set : Nat) : Wf.Statement (.srcNoneTimeout set) := fun _ _ e => nomatch e
theorem Wf.holdupRelease (on : Bool) : Wf.Statement (.holdupRelease on) := fun _ _ e => nomatch e
theorem Wf.holdupChargeEnd : Wf.Statement (.holdupChargeEnd) := fun _ _ e => nomatch e
theorem Wf.holdupBleedStart (time : Nat) (tick : Nat) : Wf.Statement (.holdupBleedStart time tick) := fun _ _ e => nomatch e
theorem Wf.holdupBleedGate (time : Nat) : Wf.Statement (.holdupBleedGate time) := fun _ _ e => nomatch e
theorem Wf.holdupBleedEnd (late : Bool) (time : Nat) : Wf.Statement (.holdupBleedEnd late time) := fun _ _ e => nomatch e
theorem Wf.battCutoff (string : Nat) : Wf.Statement (.battCutoff string) := fun _ _ e => nomatch e
theorem Wf.cutoffRelease (string : Nat) : Wf.Statement (.cutoffRelease string) := fun _ _ e => nomatch e
theorem Wf.battHibernate (string : Nat) : Wf.Statement (.battHibernate string) := fun _ _ e => nomatch e
theorem Wf.reducedSampling (string : Nat) : Wf.Statement (.reducedSampling string) := fun _ _ e => nomatch e
theorem Wf.seqDelayUpEnd (seq : Nat) : Wf.Statement (.seqDelayUpEnd seq) := fun _ _ e => nomatch e
theorem Wf.seqDelayDownEnd (seq : Nat) : Wf.Statement (.seqDelayDownEnd seq) := fun _ _ e => nomatch e
theorem Wf.seqStepUp (seq : Nat) : Wf.Statement (.seqStepUp seq) := fun _ _ e => nomatch e
theorem Wf.seqStepOff (seq : Nat) : Wf.Statement (.seqStepOff seq) := fun _ _ e => nomatch e
theorem Wf.seqRiseTimeout (seq : Nat) : Wf.Statement (.seqRiseTimeout seq) := fun _ _ e => nomatch e
theorem Wf.seqFallTimeout (seq : Nat) : Wf.Statement (.seqFallTimeout seq) := fun _ _ e => nomatch e
theorem Wf.seqDschWinEnd (seq : Nat) : Wf.Statement (.seqDschWinEnd seq) := fun _ _ e => nomatch e
theorem Wf.seqMemberFault (seq : Nat) (step : Nat) : Wf.Statement (.seqMemberFault seq step) := fun _ _ e => nomatch e
theorem Wf.seqMinOffEnd (seq : Nat) : Wf.Statement (.seqMinOffEnd seq) := fun _ _ e => nomatch e
theorem Wf.faultnQuiet (seq : Nat) : Wf.Statement (.faultnQuiet seq) := fun _ _ e => nomatch e
theorem Wf.faultnLow (time : Nat) : Wf.Statement (.faultnLow time) := fun _ _ e => nomatch e
theorem Wf.faultnHigh (time : Nat) : Wf.Statement (.faultnHigh time) := fun _ _ e => nomatch e
theorem Wf.coneTrip (sensor : Nat) (cone : Nat) (release : Bool) (uv : Nat) : Wf.Statement (.coneTrip sensor cone release uv) := fun _ _ e => nomatch e
theorem Wf.coneConfirm (sensor : Nat) (cone : Nat) (tick : Nat) : Wf.Statement (.coneConfirm sensor cone tick) := fun _ _ e => nomatch e
theorem Wf.sitterRelease : Wf.Statement (.sitterRelease) := fun _ _ e => nomatch e
theorem Wf.sensorBiasFault (sensor : Nat) : Wf.Statement (.sensorBiasFault sensor) := fun _ _ e => nomatch e
theorem Wf.blackBoxTrigger (tick : Nat) : Wf.Statement (.blackBoxTrigger tick) := fun _ _ e => nomatch e
theorem Wf.blackBoxCommitDone : Wf.Statement (.blackBoxCommitDone) := fun _ _ e => nomatch e
theorem Wf.blackBoxRearm : Wf.Statement (.blackBoxRearm) := fun _ _ e => nomatch e
theorem Wf.sherdWriteDone (ok : Bool) : Wf.Statement (.sherdWriteDone ok) := fun _ _ e => nomatch e
theorem Wf.slotEraseDone (slot : Nat) : Wf.Statement (.slotEraseDone slot) := fun _ _ e => nomatch e
theorem Wf.handoverCopyDone (tick : Nat) : Wf.Statement (.handoverCopyDone tick) := fun _ _ e => nomatch e
theorem Wf.handoverHoldCommands : Wf.Statement (.handoverHoldCommands) := fun _ _ e => nomatch e
theorem Wf.handoverBoundary : Wf.Statement (.handoverBoundary) := fun _ _ e => nomatch e
theorem Wf.newImageStart (recordsOk : Bool) : Wf.Statement (.newImageStart recordsOk) := fun _ _ e => nomatch e
theorem Wf.fireboxImageSwitch : Wf.Statement (.fireboxImageSwitch) := fun _ _ e => nomatch e
theorem Wf.fireboxSelfRevert : Wf.Statement (.fireboxSelfRevert) := fun _ _ e => nomatch e
theorem Wf.imageConfirmed (firebox : Bool) : Wf.Statement (.imageConfirmed firebox) := fun _ _ e => nomatch e
theorem Wf.failedBoot : Wf.Statement (.failedBoot) := fun _ _ e => nomatch e
theorem Wf.safeHold : Wf.Statement (.safeHold) := fun _ _ e => nomatch e
theorem Wf.fireboxPorRelease (straps : BitVec 7) : Wf.Statement (.fireboxPorRelease straps) := fun _ _ e => nomatch e
theorem Wf.fireboxPor : Wf.Statement (.fireboxPor) := fun _ _ e => nomatch e
theorem Wf.fireboxRailsGood : Wf.Statement (.fireboxRailsGood) := fun _ _ e => nomatch e
theorem Wf.supervisorChecked (ok : Bool) : Wf.Statement (.supervisorChecked ok) := fun _ _ e => nomatch e
theorem Wf.hkSuppliesGood : Wf.Statement (.hkSuppliesGood) := fun _ _ e => nomatch e
theorem Wf.hkStartFail : Wf.Statement (.hkStartFail) := fun _ _ e => nomatch e
theorem Wf.hkRetry : Wf.Statement (.hkRetry) := fun _ _ e => nomatch e
theorem Wf.bootRomInitDone (sound : List Nat) : Wf.Statement (.bootRomInitDone sound) := fun _ _ e => nomatch e
theorem Wf.mgmtReady : Wf.Statement (.mgmtReady) := fun _ _ e => nomatch e
theorem Wf.hearthSupplyFault : Wf.Statement (.hearthSupplyFault) := fun _ _ e => nomatch e
theorem Wf.deviceReset (straps : BitVec 7) : Wf.Statement (.deviceReset straps) := fun _ _ e => nomatch e
theorem Wf.refClockLoss : Wf.Statement (.refClockLoss) := fun _ _ e => nomatch e
theorem Wf.refClockRestore : Wf.Statement (.refClockRestore) := fun _ _ e => nomatch e
theorem Wf.pllUnlock (pll : Nat) : Wf.Statement (.pllUnlock pll) := fun _ _ e => nomatch e
theorem Wf.mboxCommand (peer : Bool) (desc : RawDesc) : Wf.Statement (.mboxCommand peer desc) := fun h _ e => Option.some.inj e ▸ (Bool.and_eq_true_iff.mp h).2
theorem Wf.mboxReread (peer : Bool) : Wf.Statement (.mboxReread peer) := fun _ _ e => nomatch e
theorem Wf.mboxDiscard (peer : Bool) : Wf.Statement (.mboxDiscard peer) := fun _ _ e => nomatch e
theorem Wf.mboxFrameError (peer : Bool) (fault : FrameFault) : Wf.Statement (.mboxFrameError peer fault) := fun _ _ e => nomatch e
theorem Wf.mboxRead (peer : Bool) (count : Nat) : Wf.Statement (.mboxRead peer count) := fun _ _ e => nomatch e
theorem Wf.alertResponseRead : Wf.Statement (.alertResponseRead) := fun _ _ e => nomatch e
theorem Wf.attentionPulse (time : Nat) : Wf.Statement (.attentionPulse time) := fun _ _ e => nomatch e
theorem Wf.twoWireTimeout (peer : Bool) (controller : Bool) (address : Nat) : Wf.Statement (.twoWireTimeout peer controller address) := fun _ _ e => nomatch e
theorem Wf.twoWireAbort (peer : Bool) (controller : Bool) (address : Nat) : Wf.Statement (.twoWireAbort peer controller address) := fun _ _ e => nomatch e
theorem Wf.busStuckClear (cleared : Bool) (address : Nat) : Wf.Statement (.busStuckClear cleared address) := fun _ _ e => nomatch e
theorem Wf.arbitrationLost (served : Bool) (address : Nat) : Wf.Statement (.arbitrationLost served address) := fun _ _ e => nomatch e
theorem Wf.moduleDiscovery (address : Nat) (reply : Option (Nat × Nat)) : Wf.Statement (.moduleDiscovery address reply) := fun _ _ e => nomatch e
theorem Wf.modulePollCycle (polls : List (Nat × Option PollReads)) (peer : Bool) : Wf.Statement (.modulePollCycle polls peer) := fun _ _ e => nomatch e
theorem Wf.moduleWrite (address : Nat) (nack : Option Nat) : Wf.Statement (.moduleWrite address nack) := fun _ _ e => nomatch e
theorem Wf.ethFrameReceived (port : Nat) (length : Nat) (kind : EthKind) (time : Nat) : Wf.Statement (.ethFrameReceived port length kind time) := fun _ _ e => nomatch e
theorem Wf.netLink (port : Nat) (up : Bool) (speed : Nat) : Wf.Statement (.netLink port up speed) := fun _ _ e => nomatch e
theorem Wf.dtlsHandshake (port : Nat) (key : List Byte) (stage : Handshake) : Wf.Statement (.dtlsHandshake port key stage) := fun _ _ e => nomatch e
theorem Wf.dtlsIdleClose (session : Nat) : Wf.Statement (.dtlsIdleClose session) := fun _ _ e => nomatch e
theorem Wf.coapGetId (port : Nat) : Wf.Statement (.coapGetId port) := fun _ _ e => nomatch e
theorem Wf.coapPostCmd (session : Nat) (mid : Nat) (szx : Nat) (block : Nat) (desc : RawDesc) : Wf.Statement (.coapPostCmd session mid szx block desc) := fun h _ e => Option.some.inj e ▸ (Bool.and_eq_true_iff.mp h).2
theorem Wf.coapPutImg (session : Nat) (mid : Nat) (szx : Nat) (num : Nat) (restart : Bool) (sherd : List Byte) : Wf.Statement (.coapPutImg session mid szx num restart sherd) := fun _ _ e => nomatch e
theorem Wf.streamEmission (stream : Nat) (resolved : Bool) : Wf.Statement (.streamEmission stream resolved) := fun _ _ e => nomatch e
theorem Wf.branchPgConfirm (branch : Nat) : Wf.Statement (.branchPgConfirm branch) := fun _ _ e => nomatch e
theorem Wf.branchPgLoss (branch : Nat) : Wf.Statement (.branchPgLoss branch) := fun _ _ e => nomatch e
theorem Wf.branchBackstop (branch : Nat) (tick : Nat) : Wf.Statement (.branchBackstop branch tick) := fun _ _ e => nomatch e
theorem Wf.branchOvReverse (branch : Nat) (reverse : Bool) (tick : Nat) : Wf.Statement (.branchOvReverse branch reverse tick) := fun _ _ e => nomatch e
theorem Wf.branchRetryDelay (branch : Nat) : Wf.Statement (.branchRetryDelay branch) := fun _ _ e => nomatch e
theorem Wf.branchRetryClear (branch : Nat) : Wf.Statement (.branchRetryClear branch) := fun _ _ e => nomatch e
theorem Wf.srcWindowLoss (set : Nat) (input : Nat) (tick : Nat) : Wf.Statement (.srcWindowLoss set input tick) := fun _ _ e => nomatch e
theorem Wf.vdrvUvRelease : Wf.Statement (.vdrvUvRelease) := fun _ _ e => nomatch e
theorem Wf.pllRelock (pll : Nat) : Wf.Statement (.pllRelock pll) := fun _ _ e => nomatch e
theorem Wf.pcieLinkDown (refclk : Bool) : Wf.Statement (.pcieLinkDown refclk) := fun _ _ e => nomatch e
theorem Wf.netifLinkTimeout (port : Nat) : Wf.Statement (.netifLinkTimeout port) := fun _ _ e => nomatch e
theorem Wf.dadComplete (port : Nat) (conflict : Bool) : Wf.Statement (.dadComplete port conflict) := fun _ _ e => nomatch e
theorem Wf.reducedSamplingTurn (string : Nat) : Wf.Statement (.reducedSamplingTurn string) := fun _ _ e => nomatch e
theorem Wf.attentionPulseCollision : Wf.Statement (.attentionPulseCollision) := fun _ _ e => nomatch e
theorem Wf.dischargeThermalOff (bleed : Bool) (switch : Nat) : Wf.Statement (.dischargeThermalOff bleed switch) := fun _ _ e => nomatch e
theorem Wf.jtagInstructionLoad (code : Nat) : Wf.Statement (.jtagInstructionLoad code) := fun _ _ e => nomatch e

end Sys2Proof.Laws
end

