-- ==== Sys2Proof/Laws/Rings.lean ====
section
/-! SUPPORT. Events and fences: what they leave of a ring. -/

namespace Sys2Proof.Machine

theorem deliver_fields (r : Ring) (c d : Nat) (h : Word) (n : Nat) :
    (r.deliver c d h n).state = r.state ∧ (r.deliver c d h n).reason = r.reason ∧ (r.deliver c d h n).t = r.t ∧
    (r.deliver c d h n).h = r.h := by
  unfold Ring.deliver
  split
  · unfold Ring.pump; split
    · simp
    · split <;> simp
  · simp

theorem raise_ring (h : HostIf) (x : Bool) (c d : Nat) (w : Word) (k n : Nat) :
    (h.raise x c d w k).ring n = h.ring n ∨ (h.raise x c d w k).ring n = (h.ring n).deliver c d w k ∨
    (h.raise x c d w k).ring n = { h.ring n with discarded := (h.ring n).discarded + 1 } := by
  unfold HostIf.raise
  split
  · simp only [HostIf.notePeak, HostIf.ring]
    rw [tget_tmapAll_dflt]
    · split
      · split
        · exact .inr (.inr rfl)
        · exact .inr (.inl rfl)
      · exact .inl rfl
    · simp [Ring.selects]
  · exact .inl rfl

theorem fenceRing_state (d : Dev) (n reason : Nat) (h : (d.host.ring n).state = .active ∨ (d.host.ring n).state = .paused) :
    ((d.fenceRing n reason).host.ring n).state = .fenced ∧ ((d.fenceRing n reason).host.ring n).reason = reason ∧
    ((d.fenceRing n reason).host.ring n).t = (d.host.ring n).t ∧ ((d.fenceRing n reason).host.ring n).h = (d.host.ring n).h := by
  have hb : ((d.host.ring n).state == .active || (d.host.ring n).state == .paused) = true := by
    rcases h with h | h <;> simp [h]
  have key : ∀ d' : Dev, ∀ c k w, ((d'.raise c k w).host.ring n).state = (d'.host.ring n).state ∧
      ((d'.raise c k w).host.ring n).reason = (d'.host.ring n).reason ∧ ((d'.raise c k w).host.ring n).t = (d'.host.ring n).t ∧
      ((d'.raise c k w).host.ring n).h = (d'.host.ring n).h := by
    intro d' c k w
    have hh : ∃ x, (d'.raise c k w).host = d'.host.raise x c k w (d'.wheel.turn.toNat % 2 ^ 24) := by
      unfold Dev.raise; dsimp only
      (repeat' split) <;> exact ⟨_, rfl⟩
    obtain ⟨x, hh⟩ := hh
    rw [hh]
    rcases raise_ring d'.host x c k w (d'.wheel.turn.toNat % 2 ^ 24) n with e | e | e <;> rw [e]
    · simp
    · exact deliver_fields _ _ _ _ _
    · simp
  unfold Dev.fenceRing
  simp only [hb, if_true]
  have := key { d with host := d.host.modRing n fun r => r.fence reason } 2 (n + reason * 256) 0
  simpa [Ring.fence] using this

theorem fenceRing_frame (d : Dev) (n r : Nat) : d.fenceRing n r = { d with
    host := (d.fenceRing n r).host, tal := (d.fenceRing n r).tal, sag := (d.fenceRing n r).sag } := by
  unfold Dev.fenceRing; dsimp only; split
  · unfold Dev.raise; dsimp only; (repeat' split) <;> rfl
  · rfl

/-! ### The stops of step 6 of a takeover -/

theorem stopNext_gone (t i : Nat) (rest : List (Nat × Nat)) (d : Dev) (h : ¬ (elemGone d t i || (d.seqNaming (d.handleOf t i)).isSome) = true) (h2 : elemGone (elemStop d (d.handleOf t i)) t i = true) : stopNext ((t,i)::rest) d = stopNext rest (elemStop d (d.handleOf t i)) := by
  rw [stopNext, if_neg h, if_pos h2]
theorem stopNext_waits (t i : Nat) (rest : List (Nat × Nat)) (d : Dev) (h : ¬ (elemGone d t i || (d.seqNaming (d.handleOf t i)).isSome) = true) (h2 : ¬ elemGone (elemStop d (d.handleOf t i)) t i = true) : stopNext ((t,i)::rest) d = { (elemStop d (d.handleOf t i)) with plane := { (elemStop d (d.handleOf t i)).plane with stopList := rest, stopping := some (t, i) } } := by
  rw [stopNext, if_neg h, if_neg h2]

end Sys2Proof.Machine
end

