-- ==== Sys2Proof/Laws/Wheel.lean ====
section
/-! SUPPORT. The commands and operations that leave the field `wheel` of the device as it is. -/

namespace Sys2Proof.Machine

theorem foldl_wheel {α : Type} (f : Dev → α → Dev) (l : List α) (d : Dev) (h : ∀ d a, (f d a).wheel = d.wheel) :
    (l.foldl f d).wheel = d.wheel := by
  induction l generalizing d with
  | nil => rfl
  | cons a l ih => simp [List.foldl, ih, h]

theorem foldl1_wheel {α β : Type} (f : Dev × β → α → Dev × β) (l : List α) (p : Dev × β)
    (h : ∀ p a, (f p a).1.wheel = p.1.wheel) : (l.foldl f p).1.wheel = p.1.wheel := by
  induction l generalizing p with
  | nil => rfl
  | cons a l ih => simp [List.foldl, ih, h]

theorem foldl2_wheel {α β : Type} (f : β × Dev → α → β × Dev) (l : List α) (p : β × Dev)
    (h : ∀ p a, (f p a).2.wheel = p.2.wheel) : (l.foldl f p).2.wheel = p.2.wheel := by
  induction l generalizing p with
  | nil => rfl
  | cons a l ih => simp [List.foldl, ih, h]

theorem stopUpdate_wheel (d x : Dev) (p : Plane) (h : x.wheel = d.wheel) : ({ x with plane := p } : Dev).wheel = d.wheel := h


@[simp] theorem Dev.coapReply_wheel (d : Dev) (k mid : Nat) (resp : List Byte) : (Dev.coapReply d k mid resp).wheel = d.wheel := by
  unfold Dev.coapReply; (repeat' split) <;> first | with_reducible rfl | (simp; done)

@[simp] theorem Dev.deliver_wheel (d : Dev) (src : Option Src) (c : Cpl) : (Dev.deliver d src c).wheel = d.wheel := by
  unfold Dev.deliver; (repeat' split) <;> first | with_reducible rfl | (simp; done)

@[simp] theorem Dev.answerWait_wheel (d : Dev) (w : Wait) (c : Cpl) : (Dev.answerWait d w c).wheel = d.wheel := by
  unfold Dev.answerWait; (repeat' split) <;> first | with_reducible rfl | (simp; done)

@[simp] theorem Dev.endWaits_wheel (d : Dev) (p : Wait → Bool) (f : Wait → Cpl) : (Dev.endWaits d p f).wheel = d.wheel := by
  unfold Dev.endWaits; (try dsimp only); repeat' first | with_reducible rfl | (simp; done) | split | intro _ | rw [foldl_wheel] | rw [foldl1_wheel] | rw [foldl2_wheel] | dsimp only | simp

@[simp] theorem Dev.endKind_wheel (d : Dev) (k : WaitKind) (h : Word) (st : Status) : (Dev.endKind d k h st).wheel = d.wheel := by
  unfold Dev.endKind; simp

@[simp] theorem Dev.freeBits_wheel (d : Dev) (n : Nat) : (Dev.freeBits d n).2.wheel = d.wheel := by
  unfold Dev.freeBits; simp

theorem Dev.atTick_wheel (t : Nat) (f : Dev → Dev) (d : Dev) (h : ∀ d, (f d).wheel = d.wheel) : (Dev.atTick t f d).wheel = d.wheel := by
  unfold Dev.atTick; simp [h]

@[simp] theorem Dev.recordTick_wheel (d : Dev) : (Dev.recordTick d).2.wheel = d.wheel := by
  unfold Dev.recordTick; (repeat' split) <;> first | with_reducible rfl | (simp; done)

@[simp] theorem witTake_wheel (turn : BitVec 48) (q sub : Nat) (src : Word) (num : Int) (den : Nat) (dflt : Bool) (d : Dev) (key : Nat) : (witTake turn q sub src num den dflt d key).wheel = d.wheel := by
  unfold witTake; (try dsimp only); repeat' first | with_reducible rfl | (simp; done) | split | intro _ | rw [foldl_wheel] | rw [foldl1_wheel] | rw [foldl2_wheel] | dsimp only | simp

@[simp] theorem witValueAt_wheel (turn : BitVec 48) (src : Word) (q sub : Nat) (num : Int) (den : Nat) (dflt : Bool) (d : Dev) : (witValueAt turn src q sub num den dflt d).wheel = d.wheel := by
  unfold witValueAt; (try dsimp only); repeat' first | with_reducible rfl | (simp; done) | split | intro _ | rw [foldl_wheel] | rw [foldl1_wheel] | rw [foldl2_wheel] | dsimp only | simp

@[simp] theorem witValue_wheel (src : Word) (q sub : Nat) (num : Int) (den : Nat) (dflt : Bool) (d : Dev) : (witValue src q sub num den dflt d).wheel = d.wheel := by
  unfold witValue; simp

@[simp] theorem witTurnOne_wheel (turn : BitVec 48) (d : Dev) (key : Nat) : (witTurnOne turn d key).wheel = d.wheel := by
  unfold witTurnOne; (try dsimp only); repeat' first | with_reducible rfl | (simp; done) | split | intro _ | rw [foldl_wheel] | rw [foldl1_wheel] | rw [foldl2_wheel] | dsimp only | simp

@[simp] theorem witTurn_wheel (turn : BitVec 48) (d : Dev) : (witTurn turn d).wheel = d.wheel := by
  unfold witTurn; (try dsimp only); repeat' first | with_reducible rfl | (simp; done) | split | intro _ | rw [foldl_wheel] | rw [foldl1_wheel] | rw [foldl2_wheel] | dsimp only | simp

@[simp] theorem publishLate_wheel (d : Dev) : (publishLate d).wheel = d.wheel := by
  unfold publishLate; (try dsimp only); repeat' first | with_reducible rfl | (simp; done) | split | intro _ | rw [foldl_wheel] | rw [foldl1_wheel] | rw [foldl2_wheel] | dsimp only | simp

@[simp] theorem witDirectory_wheel (d : Dev) : (witDirectory d).wheel = d.wheel := by
  unfold witDirectory; (try dsimp only); repeat' first | with_reducible rfl | (simp; done) | split | intro _ | rw [foldl_wheel] | rw [foldl1_wheel] | rw [foldl2_wheel] | dsimp only | simp

@[simp] theorem witLatchOne_wheel (d : Dev) (key : Nat) : (witLatchOne d key).1.wheel = d.wheel := by
  unfold witLatchOne; (try dsimp only); repeat' first | with_reducible rfl | (simp; done) | split | intro _ | rw [foldl_wheel] | rw [foldl1_wheel] | rw [foldl2_wheel] | dsimp only | simp

@[simp] theorem witLatchLate_wheel (d : Dev) : (witLatchLate d).wheel = d.wheel := by
  unfold witLatchLate; (try dsimp only); repeat' first | with_reducible rfl | (simp; done) | split | intro _ | rw [foldl_wheel] | rw [foldl1_wheel] | rw [foldl2_wheel] | dsimp only | simp

@[simp] theorem witRound_wheel (d : Dev) : (witRound d).wheel = d.wheel := by
  unfold witRound; (try dsimp only); repeat' first | with_reducible rfl | (simp; done) | split | intro _ | rw [foldl_wheel] | rw [foldl1_wheel] | rw [foldl2_wheel] | dsimp only | simp

@[simp] theorem witRestart_wheel (d : Dev) : (witRestart d).wheel = d.wheel := by
  unfold witRestart; simp

@[simp] theorem witFence_wheel (d : Dev) : (witFence d).wheel = d.wheel := by
  unfold witFence; (try dsimp only); repeat' first | with_reducible rfl | (simp; done) | split | intro _ | rw [foldl_wheel] | rw [foldl1_wheel] | rw [foldl2_wheel] | dsimp only | simp

@[simp] theorem witGone_wheel (src : Word) (d : Dev) : (witGone src d).wheel = d.wheel := by
  unfold witGone; (try dsimp only); repeat' first | with_reducible rfl | (simp; done) | split | intro _ | rw [foldl_wheel] | rw [foldl1_wheel] | rw [foldl2_wheel] | dsimp only | simp

@[simp] theorem witLoad_wheel (d : Dev) (key : Nat) : (witLoad d key).wheel = d.wheel := by
  unfold witLoad; simp

@[simp] theorem witEnable_wheel (d : Dev) (key : Nat) : (witEnable d key).wheel = d.wheel := by
  unfold witEnable; simp

@[simp] theorem witDisable_wheel (d : Dev) (key : Nat) : (witDisable d key).wheel = d.wheel := by
  unfold witDisable; simp

@[simp] theorem witClear_wheel (d : Dev) (key : Nat) (v : Word) : (witClear d key v).wheel = d.wheel := by
  unfold witClear; (repeat' split) <;> first | with_reducible rfl | (simp; done)

@[simp] theorem blackBoxStart_wheel (bleed : Bool) (d : Dev) : (blackBoxStart bleed d).wheel = d.wheel := by
  unfold blackBoxStart; (try dsimp only); repeat' first | with_reducible rfl | (simp; done) | split | intro _ | rw [foldl_wheel] | rw [foldl1_wheel] | rw [foldl2_wheel] | dsimp only | simp

theorem placeRegular_wheel {d d' : Dev} {key : Nat} {w : Word} (h : placeRegular d key w = some d') : d'.wheel = d.wheel := by
  unfold placeRegular at h
  extract_lets c cv s0 s1 at h
  split at h
  · split at h
    · injection h with h; rw [← h, Dev.modConv_wheel]
    · cases h
  · split at h
    · injection h with h; rw [← h, Dev.modConv_wheel]
    · cases h

theorem placeInjected_wheel {d d' : Dev} {key c : Nat} {w : Word} (h : placeInjected d key c w = some d') : d'.wheel = d.wheel := by
  unfold placeInjected at h
  extract_lets cv same at h
  by_cases h1 : cv.inj.any same = true
  · rw [if_pos h1] at h; injection h with h; rw [← h, Dev.modConv_wheel]
  · rw [if_neg h1] at h
    by_cases h2 : cv.inj.length < 4
    · rw [if_pos h2] at h; injection h with h; rw [← h, Dev.modConv_wheel]
    · rw [if_neg h2] at h; cases h

@[simp] theorem placeSlots_wheel (d : Dev) (key : Nat) (rqs : List (Nat × Word)) : (placeSlots d key rqs).1.wheel = d.wheel := by
  unfold placeSlots
  rw [foldl1_wheel]
  intro p a
  dsimp only
  split
  · rename_i d' hd
    by_cases hi : rqInj a.2 = true
    · rw [if_pos hi] at hd; exact placeInjected_wheel hd
    · rw [if_neg hi] at hd; exact placeRegular_wheel hd
  · rfl

@[simp] theorem releaseSlots_wheel (d : Dev) (key : Nat) : (releaseSlots d key).wheel = d.wheel := by
  unfold releaseSlots; simp

@[simp] theorem startOn_wheel (d : Dev) (c g k : Nat) : (startOn d c g k).1.wheel = d.wheel := by
  unfold startOn; (try dsimp only); repeat' first | with_reducible rfl | (simp; done) | split | intro _ | rw [foldl_wheel] | rw [foldl1_wheel] | rw [foldl2_wheel] | dsimp only | simp

@[simp] theorem startAll_wheel (d : Dev) (g k : Nat) : (startAll d g k).1.wheel = d.wheel := by
  unfold startAll; rw [foldl1_wheel]; intro p a; simp

@[simp] theorem convEnds_wheel (d : Dev) (c : Nat) (code : Int) (isOver late : Bool) : (convEnds d c code isOver late).1.wheel = d.wheel := by
  unfold convEnds; dsimp only; (repeat' split) <;> first | rfl | simp

@[simp] theorem urgentTrigger_wheel (c chan : Nat) (d : Dev) : (urgentTrigger c chan d).wheel = d.wheel := by
  unfold urgentTrigger; (try dsimp only); repeat' first | with_reducible rfl | (simp; done) | split | intro _ | rw [foldl_wheel] | rw [foldl1_wheel] | rw [foldl2_wheel] | dsimp only | simp

@[simp] theorem injectedStart_wheel (c : Nat) (d : Dev) : (injectedStart c d).wheel = d.wheel := by
  unfold injectedStart; (try dsimp only); repeat' first | with_reducible rfl | (simp; done) | split | intro _ | rw [foldl_wheel] | rw [foldl1_wheel] | rw [foldl2_wheel] | dsimp only | simp

@[simp] theorem pdStop_wheel (d : Dev) (g : Nat) : (pdStop d g).wheel = d.wheel := by
  unfold pdStop; (repeat' split) <;> first | with_reducible rfl | (simp; done)

@[simp] theorem pdRestart_wheel (d : Dev) (g : Nat) : (pdRestart d g).wheel = d.wheel := by
  unfold pdRestart; (try dsimp only); repeat' first | with_reducible rfl | (simp; done) | split | intro _ | rw [foldl_wheel] | rw [foldl1_wheel] | rw [foldl2_wheel] | dsimp only | simp

@[simp] theorem placePd_wheel (d : Dev) (key : Nat) (ws : List Word) : (placePd d key ws).1.wheel = d.wheel := by
  unfold placePd
  rw [foldl1_wheel]
  intro p a
  dsimp only
  (repeat' split) <;> first | rfl | simp

@[simp] theorem releasePd_wheel (d : Dev) (key : Nat) : (releasePd d key).wheel = d.wheel := by
  unfold releasePd; (try dsimp only); repeat' first | with_reducible rfl | (simp; done) | split | intro _ | rw [foldl_wheel] | rw [foldl1_wheel] | rw [foldl2_wheel] | dsimp only | simp

@[simp] theorem pdAfterCal_wheel (d : Dev) (g : Nat) : (pdAfterCal d g).wheel = d.wheel := by
  unfold pdAfterCal; (repeat' split) <;> first | with_reducible rfl | (simp; done)

@[simp] theorem pdOutput_wheel (n : Nat) (raw : Int) (isOver : Bool) (pos : Nat) (settled defaulted : Bool) (d : Dev) : (pdOutput n raw isOver pos settled defaulted d).wheel = d.wheel := by
  unfold pdOutput; (try dsimp only); repeat' first | with_reducible rfl | (simp; done) | split | intro _ | rw [foldl_wheel] | rw [foldl1_wheel] | rw [foldl2_wheel] | dsimp only | simp

@[simp] theorem calStart_wheel (value : Word) (d : Dev) : (calStart value d).wheel = d.wheel := by
  unfold calStart; (try dsimp only); repeat' first | with_reducible rfl | (simp; done) | split | intro _ | rw [foldl_wheel] | rw [foldl1_wheel] | rw [foldl2_wheel] | dsimp only | simp

@[simp] theorem noteFail_wheel (d : Dev) (n : Nat) : (noteFail d n).wheel = d.wheel := by
  unfold noteFail; simp

@[simp] theorem noteDrift_wheel (d : Dev) (n : Nat) : (noteDrift d n).wheel = d.wheel := by
  unfold noteDrift; simp

@[simp] theorem applyFs_wheel (temp : Int) (d : Dev) (cy : Nat × CalYield) : (applyFs temp d cy).wheel = d.wheel := by
  unfold applyFs; (try dsimp only); repeat' first | with_reducible rfl | (simp; done) | split | intro _ | rw [foldl_wheel] | rw [foldl1_wheel] | rw [foldl2_wheel] | dsimp only | simp

@[simp] theorem applySv_wheel (temp : Int) (d : Dev) (y : CalYield) : (applySv temp d y).wheel = d.wheel := by
  unfold applySv; (try dsimp only); repeat' first | with_reducible rfl | (simp; done) | split | intro _ | rw [foldl_wheel] | rw [foldl1_wheel] | rw [foldl2_wheel] | dsimp only | simp

@[simp] theorem applyPd_wheel (d : Dev) (cy : Nat × CalYield) : (applyPd d cy).wheel = d.wheel := by
  unfold applyPd; (try dsimp only); repeat' first | with_reducible rfl | (simp; done) | split | intro _ | rw [foldl_wheel] | rw [foldl1_wheel] | rw [foldl2_wheel] | dsimp only | simp

@[simp] theorem raiseCal_wheel (d : Dev) : (raiseCal d).wheel = d.wheel := by
  unfold raiseCal; (try dsimp only); repeat' first | with_reducible rfl | (simp; done) | split | intro _ | rw [foldl_wheel] | rw [foldl1_wheel] | rw [foldl2_wheel] | dsimp only | simp

@[simp] theorem calFresh_wheel (d : Dev) : (calFresh d).wheel = d.wheel := by
  unfold calFresh; simp

@[simp] theorem calFamilyDone_wheel (family : Nat) (ys : List CalYield) (milliC : Int) (d : Dev) : (calFamilyDone family ys milliC d).wheel = d.wheel := by
  unfold calFamilyDone; (try dsimp only); repeat' first | with_reducible rfl | (simp; done) | split | intro _ | rw [foldl_wheel] | rw [foldl1_wheel] | rw [foldl2_wheel] | dsimp only | simp

@[simp] theorem calDone_wheel (d : Dev) : (calDone d).wheel = d.wheel := by
  unfold calDone; (try dsimp only); repeat' first | with_reducible rfl | (simp; done) | split | intro _ | rw [foldl_wheel] | rw [foldl1_wheel] | rw [foldl2_wheel] | dsimp only | simp

@[simp] theorem calStatusWrite_wheel (v : Word) (d : Dev) : (calStatusWrite v d).wheel = d.wheel := by
  unfold calStatusWrite; (repeat' split) <;> first | with_reducible rfl | (simp; done)

@[simp] theorem laneSync_wheel (d : Dev) : (laneSync d).wheel = d.wheel := by
  unfold laneSync; (try dsimp only); repeat' first | with_reducible rfl | (simp; done) | split | intro _ | rw [foldl_wheel] | rw [foldl1_wheel] | rw [foldl2_wheel] | dsimp only | simp

@[simp] theorem admission_wheel (d : Dev) (key : Nat) (n : Needs) : (admission d key n).2.wheel = d.wheel := by
  unfold admission; simp

@[simp] theorem releaseResources_wheel (d : Dev) (key : Nat) : (releaseResources d key).wheel = d.wheel := by
  unfold releaseResources; (repeat' split) <;> first | with_reducible rfl | (simp; done)

@[simp] theorem defineGen_wheel (key carrier : Nat) (d : Dev) (w : Word) : (defineGen key carrier d w).wheel = d.wheel := by
  unfold defineGen; (repeat' split) <;> first | with_reducible rfl | (simp; done)

@[simp] theorem dropRuntime_wheel (d : Dev) (t i : Nat) : (dropRuntime d t i).wheel = d.wheel := by
  unfold dropRuntime; (repeat' split) <;> first | with_reducible rfl | (simp; done)

@[simp] theorem finishDestroy_wheel (d : Dev) (t i : Nat) : (finishDestroy d t i).wheel = d.wheel := by
  unfold finishDestroy; simp

@[simp] theorem elementOff_wheel (d : Dev) (t i result : Nat) : (elementOff d t i result).wheel = d.wheel := by
  unfold elementOff; (try dsimp only); repeat' first | with_reducible rfl | (simp; done) | split | intro _ | rw [foldl_wheel] | rw [foldl1_wheel] | rw [foldl2_wheel] | dsimp only | simp

@[simp] theorem Dev.endAll_wheel (d : Dev) (h : Word) (st : Status) : (Dev.endAll d h st).wheel = d.wheel := by
  unfold Dev.endAll; simp

@[simp] theorem Dev.endEnables_wheel (d : Dev) (h : Word) (st : Status) : (Dev.endEnables d h st).wheel = d.wheel := by
  unfold Dev.endEnables; simp

@[simp] theorem railLoad_wheel (d : Dev) (i : Nat) (ws : List Word) : (railLoad d i ws).wheel = d.wheel := by
  unfold railLoad; simp

@[simp] theorem writeRailRecord_wheel (d : Dev) (i cause pos : Nat) (before : RailRun) : (writeRailRecord d i cause pos before).wheel = d.wheel := by
  unfold writeRailRecord; (try dsimp only); repeat' first | with_reducible rfl | (simp; done) | split | intro _ | rw [foldl_wheel] | rw [foldl1_wheel] | rw [foldl2_wheel] | dsimp only | simp

@[simp] theorem gatesLow_wheel (d : Dev) (i : Nat) : (gatesLow d i).wheel = d.wheel := by
  unfold gatesLow; (try dsimp only); repeat' first | with_reducible rfl | (simp; done) | split | intro _ | rw [foldl_wheel] | rw [foldl1_wheel] | rw [foldl2_wheel] | dsimp only | simp

@[simp] theorem dischargeOn_wheel (d : Dev) (i : Nat) : (dischargeOn d i).wheel = d.wheel := by
  unfold dischargeOn; (repeat' split) <;> first | with_reducible rfl | (simp; done)

@[simp] theorem dischargeOff_wheel (d : Dev) (i : Nat) : (dischargeOff d i).wheel = d.wheel := by
  unfold dischargeOff; (repeat' split) <;> first | with_reducible rfl | (simp; done)

@[simp] theorem phaseOut_wheel (d : Dev) (l p : Nat) (v : Int) : (phaseOut d l p v).wheel = d.wheel := by
  unfold phaseOut; (repeat' split) <;> first | with_reducible rfl | (simp; done)

@[simp] theorem demandOut_wheel (d : Dev) (i l : Nat) (v : Int) : (demandOut d i l v).wheel = d.wheel := by
  unfold demandOut; (repeat' split) <;> first | with_reducible rfl | (simp; done)

@[simp] theorem portSet_wheel (l : Nat) (d : Dev) (k : Nat) : (portSet l d k).wheel = d.wheel := by
  unfold portSet; (try dsimp only); repeat' first | with_reducible rfl | (simp; done) | split | intro _ | rw [foldl_wheel] | rw [foldl1_wheel] | rw [foldl2_wheel] | dsimp only | simp

@[simp] theorem portsSet_wheel (d : Dev) (l : Nat) : (portsSet d l).wheel = d.wheel := by
  unfold portsSet; (try dsimp only); repeat' first | with_reducible rfl | (simp; done) | split | intro _ | rw [foldl_wheel] | rw [foldl1_wheel] | rw [foldl2_wheel] | dsimp only | simp

@[simp] theorem enableLoop_wheel (d : Dev) (l : Nat) (reload : Bool) : (enableLoop d l reload).wheel = d.wheel := by
  unfold enableLoop; (repeat' split) <;> first | with_reducible rfl | (simp; done)

@[simp] theorem applySetPoints_wheel (d : Dev) (l : Nat) : (applySetPoints d l).wheel = d.wheel := by
  unfold applySetPoints; simp

@[simp] theorem swapLoop_wheel (d : Dev) (l : Nat) (run : BitVec 32) : (swapLoop d l run).wheel = d.wheel := by
  unfold swapLoop; (repeat' split) <;> first | with_reducible rfl | (simp; done)

@[simp] theorem disableLoop_wheel (d : Dev) (l : Nat) : (disableLoop d l).wheel = d.wheel := by
  unfold disableLoop; (repeat' split) <;> first | with_reducible rfl | (simp; done)

@[simp] theorem disableRailLoops_wheel (d : Dev) (i : Nat) : (disableRailLoops d i).wheel = d.wheel := by
  unfold disableRailLoops; (try dsimp only); repeat' first | with_reducible rfl | (simp; done) | split | intro _ | rw [foldl_wheel] | rw [foldl1_wheel] | rw [foldl2_wheel] | dsimp only | simp

@[simp] theorem railPgOff_wheel (d : Dev) (i : Nat) : (railPgOff d i).wheel = d.wheel := by
  unfold railPgOff; (repeat' split) <;> first | with_reducible rfl | (simp; done)

@[simp] theorem railFault_wheel (d : Dev) (i cause pos : Nat) : (railFault d i cause pos).wheel = d.wheel := by
  unfold railFault; (try dsimp only); repeat' first | with_reducible rfl | (simp; done) | split | intro _ | rw [foldl_wheel] | rw [foldl1_wheel] | rw [foldl2_wheel] | dsimp only | simp

@[simp] theorem railStart_wheel (d : Dev) (i : Nat) : (railStart d i).wheel = d.wheel := by
  unfold railStart; (try dsimp only); repeat' first | with_reducible rfl | (simp; done) | split | intro _ | rw [foldl_wheel] | rw [foldl1_wheel] | rw [foldl2_wheel] | dsimp only | simp

@[simp] theorem preloadLoop_wheel (d : Dev) (l : Nat) (v : Int) : (preloadLoop d l v).wheel = d.wheel := by
  unfold preloadLoop; (repeat' split) <;> first | with_reducible rfl | (simp; done)

@[simp] theorem railBegin_wheel (d : Dev) (i : Nat) (vpre : Int) : (railBegin d i vpre).wheel = d.wheel := by
  unfold railBegin; (try dsimp only); repeat' first | with_reducible rfl | (simp; done) | split | intro _ | rw [foldl_wheel] | rw [foldl1_wheel] | rw [foldl2_wheel] | dsimp only | simp

@[simp] theorem enterPhase_wheel (d : Dev) (i p : Nat) (st : PhaseState) (at_ : Nat) : (enterPhase d i p st at_).wheel = d.wheel := by
  unfold enterPhase; (repeat' split) <;> first | with_reducible rfl | (simp; done)

@[simp] theorem railTaken_wheel (d : Dev) (i : Nat) : (railTaken d i).wheel = d.wheel := by
  unfold railTaken; (try dsimp only); repeat' first | with_reducible rfl | (simp; done) | split | intro _ | rw [foldl_wheel] | rw [foldl1_wheel] | rw [foldl2_wheel] | dsimp only | simp

@[simp] theorem railStop_wheel (d : Dev) (i : Nat) : (railStop d i).wheel = d.wheel := by
  unfold railStop; (try dsimp only); repeat' first | with_reducible rfl | (simp; done) | split | intro _ | rw [foldl_wheel] | rw [foldl1_wheel] | rw [foldl2_wheel] | dsimp only | simp

@[simp] theorem railOff_wheel (d : Dev) (i : Nat) : (railOff d i).wheel = d.wheel := by
  unfold railOff; simp

@[simp] theorem railOffReached_wheel (i : Nat) (d : Dev) : (railOffReached i d).wheel = d.wheel := by
  unfold railOffReached; (repeat' split) <;> first | with_reducible rfl | (simp; done)

@[simp] theorem railStopLate_wheel (i : Nat) (d : Dev) : (railStopLate i d).wheel = d.wheel := by
  unfold railStopLate; (try dsimp only); repeat' first | with_reducible rfl | (simp; done) | split | intro _ | rw [foldl_wheel] | rw [foldl1_wheel] | rw [foldl2_wheel] | dsimp only | simp

@[simp] theorem shedOne_wheel (d : Dev) (i : Nat) : (shedOne d i).wheel = d.wheel := by
  unfold shedOne; (repeat' split) <;> first | with_reducible rfl | (simp; done)

@[simp] theorem addPhases_wheel (d : Dev) (i n : Nat) : (addPhases d i n).wheel = d.wheel := by
  unfold addPhases; (try dsimp only); repeat' first | with_reducible rfl | (simp; done) | split | intro _ | rw [foldl_wheel] | rw [foldl1_wheel] | rw [foldl2_wheel] | dsimp only | simp

@[simp] theorem shedAdd_wheel (d : Dev) (i : Nat) (mayShed : Bool) : (shedAdd d i mayShed).wheel = d.wheel := by
  unfold shedAdd; (try dsimp only); repeat' first | with_reducible rfl | (simp; done) | split | intro _ | rw [foldl_wheel] | rw [foldl1_wheel] | rw [foldl2_wheel] | dsimp only | simp

@[simp] theorem railCurrentSample_wheel (d : Dev) (i : Nat) : (railCurrentSample d i).wheel = d.wheel := by
  unfold railCurrentSample; simp

@[simp] theorem shedHoldEnd_wheel (i : Nat) (d : Dev) : (shedHoldEnd i d).wheel = d.wheel := by
  unfold shedHoldEnd; (repeat' split) <;> first | with_reducible rfl | (simp; done)

@[simp] theorem railUrgent_wheel (d : Dev) (i : Nat) : (railUrgent d i).wheel = d.wheel := by
  unfold railUrgent; (try dsimp only); repeat' first | with_reducible rfl | (simp; done) | split | intro _ | rw [foldl_wheel] | rw [foldl1_wheel] | rw [foldl2_wheel] | dsimp only | simp

@[simp] theorem surgeDetect_wheel (i : Nat) (mv slope : Int) (pos : Nat) (d : Dev) : (surgeDetect i mv slope pos d).wheel = d.wheel := by
  unfold surgeDetect; (try dsimp only); repeat' first | with_reducible rfl | (simp; done) | split | intro _ | rw [foldl_wheel] | rw [foldl1_wheel] | rw [foldl2_wheel] | dsimp only | simp

@[simp] theorem phaseFireEnd_wheel (d : Dev) (i p pos : Nat) : (phaseFireEnd d i p pos).wheel = d.wheel := by
  unfold phaseFireEnd; (try dsimp only); repeat' first | with_reducible rfl | (simp; done) | split | intro _ | rw [foldl_wheel] | rw [foldl1_wheel] | rw [foldl2_wheel] | dsimp only | simp

@[simp] theorem firingEnd_wheel (p : Nat) (mv : Int) (pos : Nat) (d : Dev) : (firingEnd p mv pos d).wheel = d.wheel := by
  unfold firingEnd; (try dsimp only); repeat' first | with_reducible rfl | (simp; done) | split | intro _ | rw [foldl_wheel] | rw [foldl1_wheel] | rw [foldl2_wheel] | dsimp only | simp

@[simp] theorem wordsArrive_wheel (d : Dev) (i pos : Nat) : (wordsArrive d i pos).wheel = d.wheel := by
  unfold wordsArrive; (try dsimp only); repeat' first | with_reducible rfl | (simp; done) | split | intro _ | rw [foldl_wheel] | rw [foldl1_wheel] | rw [foldl2_wheel] | dsimp only | simp

@[simp] theorem phaseWatch_wheel (d : Dev) (i k p : Nat) (iMax iMin : Int) : (phaseWatch d i k p iMax iMin).wheel = d.wheel := by
  unfold phaseWatch; simp

@[simp] theorem railPeriod_wheel (d : Dev) (i : Nat) : (railPeriod d i).wheel = d.wheel := by
  unfold railPeriod; (try dsimp only); repeat' first | with_reducible rfl | (simp; done) | split | intro _ | rw [foldl_wheel] | rw [foldl1_wheel] | rw [foldl2_wheel] | dsimp only | simp

@[simp] theorem phaseStep_wheel (d : Dev) (i p : Nat) : (phaseStep d i p).wheel = d.wheel := by
  unfold phaseStep; (try dsimp only); repeat' first | with_reducible rfl | (simp; done) | split | intro _ | rw [foldl_wheel] | rw [foldl1_wheel] | rw [foldl2_wheel] | dsimp only | simp

@[simp] theorem phaseLoad_wheel (d : Dev) (i p : Nat) : (phaseLoad d i p).wheel = d.wheel := by
  unfold phaseLoad; (repeat' split) <;> first | with_reducible rfl | (simp; done)

@[simp] theorem carrierStart_wheel (p : Nat) (iMax iMin : Int) (d : Dev) : (carrierStart p iMax iMin d).wheel = d.wheel := by
  unfold carrierStart; (try dsimp only); repeat' first | with_reducible rfl | (simp; done) | split | intro _ | rw [foldl_wheel] | rw [foldl1_wheel] | rw [foldl2_wheel] | dsimp only | simp

@[simp] theorem sheddingEnd_wheel (p : Nat) (d : Dev) : (sheddingEnd p d).wheel = d.wheel := by
  unfold sheddingEnd; (repeat' split) <;> first | with_reducible rfl | (simp; done)

@[simp] theorem vdrvUv_wheel (d : Dev) : (vdrvUv d).wheel = d.wheel := by
  unfold vdrvUv; (try dsimp only); repeat' first | with_reducible rfl | (simp; done) | split | intro _ | rw [foldl_wheel] | rw [foldl1_wheel] | rw [foldl2_wheel] | dsimp only | simp

@[simp] theorem phaseFailure_wheel (i pos : Nat) (sense : Bool) (d : Dev) : (phaseFailure i pos sense d).wheel = d.wheel := by
  unfold phaseFailure; (try dsimp only); repeat' first | with_reducible rfl | (simp; done) | split | intro _ | rw [foldl_wheel] | rw [foldl1_wheel] | rw [foldl2_wheel] | dsimp only | simp

@[simp] theorem railPgConfirm_wheel (i : Nat) (d : Dev) : (railPgConfirm i d).wheel = d.wheel := by
  unfold railPgConfirm; (try dsimp only); repeat' first | with_reducible rfl | (simp; done) | split | intro _ | rw [foldl_wheel] | rw [foldl1_wheel] | rw [foldl2_wheel] | dsimp only | simp

@[simp] theorem railVoutSample_wheel (d : Dev) (i : Nat) : (railVoutSample d i).wheel = d.wheel := by
  unfold railVoutSample; (try dsimp only); repeat' first | with_reducible rfl | (simp; done) | split | intro _ | rw [foldl_wheel] | rw [foldl1_wheel] | rw [foldl2_wheel] | dsimp only | simp

@[simp] theorem keepKind1_wheel (d : Dev) (i l : Nat) : (keepKind1 d i l).wheel = d.wheel := by
  unfold keepKind1; (try dsimp only); repeat' first | with_reducible rfl | (simp; done) | split | intro _ | rw [foldl_wheel] | rw [foldl1_wheel] | rw [foldl2_wheel] | dsimp only | simp

@[simp] theorem railAtDispatch_wheel (d : Dev) (i l : Nat) : (railAtDispatch d i l).wheel = d.wheel := by
  unfold railAtDispatch; (try dsimp only); repeat' first | with_reducible rfl | (simp; done) | split | intro _ | rw [foldl_wheel] | rw [foldl1_wheel] | rw [foldl2_wheel] | dsimp only | simp

@[simp] theorem writeReference_wheel (d : Dev) (i l : Nat) : (writeReference d i l).wheel = d.wheel := by
  unfold writeReference; simp

@[simp] theorem railDemand_wheel (d : Dev) (i l : Nat) (v : Int) (defaulted : Bool) : (railDemand d i l v defaulted).wheel = d.wheel := by
  unfold railDemand; (repeat' split) <;> first | with_reducible rfl | (simp; done)

@[simp] theorem balanceRun_wheel (d : Dev) (i k : Nat) : (balanceRun d i k).wheel = d.wheel := by
  unfold balanceRun; (try dsimp only); repeat' first | with_reducible rfl | (simp; done) | split | intro _ | rw [foldl_wheel] | rw [foldl1_wheel] | rw [foldl2_wheel] | dsimp only | simp

@[simp] theorem chanPgOff_wheel (d : Dev) (c : Nat) : (chanPgOff d c).wheel = d.wheel := by
  unfold chanPgOff; (repeat' split) <;> first | with_reducible rfl | (simp; done)

@[simp] theorem chanPgOn_wheel (d : Dev) (c : Nat) : (chanPgOn d c).wheel = d.wheel := by
  unfold chanPgOn; (repeat' split) <;> first | with_reducible rfl | (simp; done)

@[simp] theorem chanAttempt_wheel (d : Dev) (c : Nat) : (chanAttempt d c).wheel = d.wheel := by
  unfold chanAttempt; simp

@[simp] theorem chanTry_wheel (d : Dev) (c : Nat) : (chanTry d c).wheel = d.wheel := by
  unfold chanTry; (try dsimp only); repeat' first | with_reducible rfl | (simp; done) | split | intro _ | rw [foldl_wheel] | rw [foldl1_wheel] | rw [foldl2_wheel] | dsimp only | simp

@[simp] theorem chanWant_wheel (d : Dev) (c : Nat) : (chanWant d c).wheel = d.wheel := by
  unfold chanWant; simp

@[simp] theorem chanRefLost_wheel (d : Dev) (c : Nat) : (chanRefLost d c).wheel = d.wheel := by
  unfold chanRefLost; (repeat' split) <;> first | with_reducible rfl | (simp; done)

@[simp] theorem chanEnable_wheel (d : Dev) (c : Nat) : (chanEnable d c).wheel = d.wheel := by
  unfold chanEnable; (try dsimp only); repeat' first | with_reducible rfl | (simp; done) | split | intro _ | rw [foldl_wheel] | rw [foldl1_wheel] | rw [foldl2_wheel] | dsimp only | simp

@[simp] theorem chanOff_wheel (d : Dev) (c : Nat) : (chanOff d c).wheel = d.wheel := by
  unfold chanOff; (try dsimp only); repeat' first | with_reducible rfl | (simp; done) | split | intro _ | rw [foldl_wheel] | rw [foldl1_wheel] | rw [foldl2_wheel] | dsimp only | simp

@[simp] theorem chanNote_wheel (d : Dev) (c : Nat) : (chanNote d c).wheel = d.wheel := by
  unfold chanNote; simp

@[simp] theorem chanTrip_wheel (d : Dev) (c cause : Nat) (base : Int) : (chanTrip d c cause base).wheel = d.wheel := by
  unfold chanTrip; simp

@[simp] theorem chanFound_wheel (d : Dev) (c cause : Nat) (base : Int) : (chanFound d c cause base).wheel = d.wheel := by
  unfold chanFound; (try dsimp only); repeat' first | with_reducible rfl | (simp; done) | split | intro _ | rw [foldl_wheel] | rw [foldl1_wheel] | rw [foldl2_wheel] | dsimp only | simp

@[simp] theorem chanComplete_wheel (d : Dev) (c cause : Nat) (base : Int) (tail : Nat) : (chanComplete d c cause base tail).wheel = d.wheel := by
  unfold chanComplete; (try dsimp only); repeat' first | with_reducible rfl | (simp; done) | split | intro _ | rw [foldl_wheel] | rw [foldl1_wheel] | rw [foldl2_wheel] | dsimp only | simp

@[simp] theorem chanDecide_wheel (d : Dev) (c cause : Nat) : (chanDecide d c cause).wheel = d.wheel := by
  unfold chanDecide; (try dsimp only); repeat' first | with_reducible rfl | (simp; done) | split | intro _ | rw [foldl_wheel] | rw [foldl1_wheel] | rw [foldl2_wheel] | dsimp only | simp

@[simp] theorem chanRecord_wheel (d : Dev) (c tail : Nat) : (chanRecord d c tail).wheel = d.wheel := by
  unfold chanRecord; (try dsimp only); repeat' first | with_reducible rfl | (simp; done) | split | intro _ | rw [foldl_wheel] | rw [foldl1_wheel] | rw [foldl2_wheel] | dsimp only | simp

@[simp] theorem chanIdleFault_wheel (d : Dev) (c cause tail : Nat) : (chanIdleFault d c cause tail).wheel = d.wheel := by
  unfold chanIdleFault; simp

@[simp] theorem chanStopEnds_wheel (d : Dev) (c : Nat) : (chanStopEnds d c).wheel = d.wheel := by
  unfold chanStopEnds; (try dsimp only); repeat' first | with_reducible rfl | (simp; done) | split | intro _ | rw [foldl_wheel] | rw [foldl1_wheel] | rw [foldl2_wheel] | dsimp only | simp

@[simp] theorem chanStop_wheel (d : Dev) (c : Nat) : (chanStop d c).wheel = d.wheel := by
  unfold chanStop; (try dsimp only); repeat' first | with_reducible rfl | (simp; done) | split | intro _ | rw [foldl_wheel] | rw [foldl1_wheel] | rw [foldl2_wheel] | dsimp only | simp

@[simp] theorem chanClearLockout_wheel (d : Dev) (c : Nat) : (chanClearLockout d c).wheel = d.wheel := by
  unfold chanClearLockout; (repeat' split) <;> first | with_reducible rfl | (simp; done)

@[simp] theorem chanRetryDelay_wheel (d : Dev) (c : Nat) : (chanRetryDelay d c).wheel = d.wheel := by
  unfold chanRetryDelay; (try dsimp only); repeat' first | with_reducible rfl | (simp; done) | split | intro _ | rw [foldl_wheel] | rw [foldl1_wheel] | rw [foldl2_wheel] | dsimp only | simp

@[simp] theorem chanRetryClear_wheel (d : Dev) (c : Nat) : (chanRetryClear d c).wheel = d.wheel := by
  unfold chanRetryClear; (repeat' split) <;> first | with_reducible rfl | (simp; done)

@[simp] theorem chanFence_wheel (d : Dev) (c tail : Nat) : (chanFence d c tail).wheel = d.wheel := by
  unfold chanFence; (try dsimp only); repeat' first | with_reducible rfl | (simp; done) | split | intro _ | rw [foldl_wheel] | rw [foldl1_wheel] | rw [foldl2_wheel] | dsimp only | simp

@[simp] theorem chanSitterTrip_wheel (d : Dev) (c tail : Nat) : (chanSitterTrip d c tail).wheel = d.wheel := by
  unfold chanSitterTrip; (repeat' split) <;> first | with_reducible rfl | (simp; done)

@[simp] theorem chanSitterRelease_wheel (d : Dev) (c : Nat) : (chanSitterRelease d c).wheel = d.wheel := by
  unfold chanSitterRelease; (try dsimp only); repeat' first | with_reducible rfl | (simp; done) | split | intro _ | rw [foldl_wheel] | rw [foldl1_wheel] | rw [foldl2_wheel] | dsimp only | simp

@[simp] theorem letThrough_wheel (d : Dev) (c : Nat) (f : Onsets → Onsets) (i e : Int) (floorMa : Nat) : (letThrough d c f i e floorMa).wheel = d.wheel := by
  unfold letThrough; (try dsimp only); repeat' first | with_reducible rfl | (simp; done) | split | intro _ | rw [foldl_wheel] | rw [foldl1_wheel] | rw [foldl2_wheel] | dsimp only | simp

@[simp] theorem meterCurrent_wheel (d : Dev) (c : Nat) (w : Word) : (meterCurrent d c w).1.wheel = d.wheel := by
  unfold meterCurrent; simp

@[simp] theorem chanStarts_wheel (g : Nat) (d : Dev) : (chanStarts g d).wheel = d.wheel := by
  unfold chanStarts; (try dsimp only); repeat' first | with_reducible rfl | (simp; done) | split | intro _ | rw [foldl_wheel] | rw [foldl1_wheel] | rw [foldl2_wheel] | dsimp only | simp

@[simp] theorem chanInjected_wheel (d : Dev) (c input : Nat) (w : Word) : (chanInjected d c input w).wheel = d.wheel := by
  unfold chanInjected; (repeat' split) <;> first | with_reducible rfl | (simp; done)

@[simp] theorem meanOr_wheel (d : Dev) (k n : Nat) (v : Nat) : (meanOr d k n v).2.wheel = d.wheel := by
  unfold meanOr; (repeat' split) <;> first | with_reducible rfl | (simp; done)

@[simp] theorem chanTelem_wheel (d : Dev) (c : Nat) (turn : BitVec 48) : (chanTelem d c turn).wheel = d.wheel := by
  unfold chanTelem; simp

@[simp] theorem chanTurn_wheel (d : Dev) (c : Nat) (ended : BitVec 48) : (chanTurn d c ended).wheel = d.wheel := by
  unfold chanTurn; (try dsimp only); repeat' first | with_reducible rfl | (simp; done) | split | intro _ | rw [foldl_wheel] | rw [foldl1_wheel] | rw [foldl2_wheel] | dsimp only | simp

@[simp] theorem feedFound_wheel (d : Dev) (n cause : Nat) (o : Option Int) : (feedFound d n cause o).wheel = d.wheel := by
  unfold feedFound; simp

@[simp] theorem feedRecord_wheel (n : Nat) (d : Dev) : (feedRecord n d).wheel = d.wheel := by
  unfold feedRecord; simp

@[simp] theorem feedFaultTimer_wheel (n : Nat) (vgsLow : Bool) (d : Dev) : (feedFaultTimer n vgsLow d).wheel = d.wheel := by
  unfold feedFaultTimer; (try dsimp only); repeat' first | with_reducible rfl | (simp; done) | split | intro _ | rw [foldl_wheel] | rw [foldl1_wheel] | rw [foldl2_wheel] | dsimp only | simp

@[simp] theorem feedBackstop_wheel (n : Nat) (d : Dev) : (feedBackstop n d).wheel = d.wheel := by
  unfold feedBackstop; (try dsimp only); repeat' first | with_reducible rfl | (simp; done) | split | intro _ | rw [foldl_wheel] | rw [foldl1_wheel] | rw [foldl2_wheel] | dsimp only | simp

@[simp] theorem feedPowerLimit_wheel (n : Nat) (d : Dev) : (feedPowerLimit n d).wheel = d.wheel := by
  unfold feedPowerLimit; (try dsimp only); repeat' first | with_reducible rfl | (simp; done) | split | intro _ | rw [foldl_wheel] | rw [foldl1_wheel] | rw [foldl2_wheel] | dsimp only | simp

@[simp] theorem feedPrechargeDone_wheel (n : Nat) (d : Dev) : (feedPrechargeDone n d).wheel = d.wheel := by
  unfold feedPrechargeDone; (repeat' split) <;> first | with_reducible rfl | (simp; done)

@[simp] theorem feedPgConfirm_wheel (n : Nat) (d : Dev) : (feedPgConfirm n d).wheel = d.wheel := by
  unfold feedPgConfirm; (repeat' split) <;> first | with_reducible rfl | (simp; done)

@[simp] theorem feedPgLoss_wheel (n : Nat) (d : Dev) : (feedPgLoss n d).wheel = d.wheel := by
  unfold feedPgLoss; (repeat' split) <;> first | with_reducible rfl | (simp; done)

@[simp] theorem feedBleedStart_wheel (n : Nat) (d : Dev) : (feedBleedStart n d).wheel = d.wheel := by
  unfold feedBleedStart; (repeat' split) <;> first | with_reducible rfl | (simp; done)

@[simp] theorem feedBleedEnd_wheel (n : Nat) (d : Dev) : (feedBleedEnd n d).wheel = d.wheel := by
  unfold feedBleedEnd; (repeat' split) <;> first | with_reducible rfl | (simp; done)

@[simp] theorem feedResLate_wheel (n : Nat) (d : Dev) : (feedResLate n d).wheel = d.wheel := by
  unfold feedResLate; (repeat' split) <;> first | with_reducible rfl | (simp; done)

@[simp] theorem feedBackfeed_wheel (n : Nat) (d : Dev) : (feedBackfeed n d).wheel = d.wheel := by
  unfold feedBackfeed; (repeat' split) <;> first | with_reducible rfl | (simp; done)

@[simp] theorem feedCurrent_wheel (n : Nat) (w : Word) (d : Dev) : (feedCurrent n w d).wheel = d.wheel := by
  unfold feedCurrent; simp

@[simp] theorem feedVoltage_wheel (n : Nat) (w : Word) (d : Dev) : (feedVoltage n w d).wheel = d.wheel := by
  unfold feedVoltage; (try dsimp only); repeat' first | with_reducible rfl | (simp; done) | split | intro _ | rw [foldl_wheel] | rw [foldl1_wheel] | rw [foldl2_wheel] | dsimp only | simp

@[simp] theorem feedLimitRun_wheel (d : Dev) (n : Nat) : (feedLimitRun d n).wheel = d.wheel := by
  unfold feedLimitRun; (try dsimp only); repeat' first | with_reducible rfl | (simp; done) | split | intro _ | rw [foldl_wheel] | rw [foldl1_wheel] | rw [foldl2_wheel] | dsimp only | simp

@[simp] theorem feedPowerTurn_wheel (d : Dev) (n : Nat) : (feedPowerTurn d n).wheel = d.wheel := by
  unfold feedPowerTurn; simp

@[simp] theorem feedTurn_wheel (ended : BitVec 48) (d : Dev) (n : Nat) : (feedTurn ended d n).wheel = d.wheel := by
  unfold feedTurn; simp

@[simp] theorem feedSwapped_wheel (d : Dev) (n : Nat) : (feedSwapped d n).wheel = d.wheel := by
  unfold feedSwapped; simp

@[simp] theorem feedClear_wheel (d : Dev) (n : Nat) (bits : Word) : (feedClear d n bits).wheel = d.wheel := by
  unfold feedClear; (repeat' split) <;> first | with_reducible rfl | (simp; done)

@[simp] theorem feedPrechargeLate_wheel (n : Nat) (d : Dev) : (feedPrechargeLate n d).wheel = d.wheel := by
  unfold feedPrechargeLate; (repeat' split) <;> first | with_reducible rfl | (simp; done)

@[simp] theorem feedGateLate_wheel (n : Nat) (vgsLow : Bool) (d : Dev) : (feedGateLate n vgsLow d).wheel = d.wheel := by
  unfold feedGateLate; (repeat' split) <;> first | with_reducible rfl | (simp; done)

@[simp] theorem feedOvReverse_wheel (n : Nat) (reverse : Bool) (d : Dev) : (feedOvReverse n reverse d).wheel = d.wheel := by
  unfold feedOvReverse; (repeat' split) <;> first | with_reducible rfl | (simp; done)

@[simp] theorem branchStore_wheel (n : Nat) (d : Dev) : (branchStore n d).wheel = d.wheel := by
  unfold branchStore; simp

@[simp] theorem branchRecord_wheel (n : Nat) (d : Dev) : (branchRecord n d).wheel = d.wheel := by
  unfold branchRecord; (repeat' split) <;> first | with_reducible rfl | (simp; done)

theorem branchFollow_wheel (n : Nat) (f : Dev → Dev) (d : Dev) (h : ∀ d, (f d).wheel = d.wheel) : (branchFollow n f d).wheel = d.wheel := by
  unfold branchFollow; dsimp only; split <;> simp [h]

@[simp] theorem branchTrip_wheel (n cause : Nat) (d : Dev) : (branchTrip n cause d).wheel = d.wheel := by
  unfold branchTrip; (try dsimp only); repeat' first | with_reducible rfl | (simp; done) | split | intro _ | rw [foldl_wheel] | rw [foldl1_wheel] | rw [foldl2_wheel] | dsimp only | simp

@[simp] theorem branchEnergyTrip_wheel (n uj mv : Nat) (ma slope : Int) (d : Dev) : (branchEnergyTrip n uj mv ma slope d).wheel = d.wheel := by
  unfold branchEnergyTrip; (repeat' split) <;> first | with_reducible rfl | (simp; done)

@[simp] theorem branchSwapped_wheel (d : Dev) (n : Nat) : (branchSwapped d n).wheel = d.wheel := by
  unfold branchSwapped; (try dsimp only); repeat' first | with_reducible rfl | (simp; done) | split | intro _ | rw [foldl_wheel] | rw [foldl1_wheel] | rw [foldl2_wheel] | dsimp only | simp

@[simp] theorem branchOnsetReset_wheel (n : Nat) (d : Dev) : (branchOnsetReset n d).wheel = d.wheel := by
  unfold branchOnsetReset; (try dsimp only); repeat' first | with_reducible rfl | (simp; done) | split | intro _ | rw [foldl_wheel] | rw [foldl1_wheel] | rw [foldl2_wheel] | dsimp only | simp

@[simp] theorem branchPgConfirm_wheel (n : Nat) (d : Dev) : (branchPgConfirm n d).wheel = d.wheel := by
  unfold branchPgConfirm; (repeat' split) <;> first | with_reducible rfl | (simp; done)

@[simp] theorem branchOpeningEnd_wheel (n : Nat) (d : Dev) : (branchOpeningEnd n d).wheel = d.wheel := by
  unfold branchOpeningEnd; (repeat' split) <;> first | with_reducible rfl | (simp; done)

@[simp] theorem branchBackstop_wheel (n : Nat) (d : Dev) : (branchBackstop n d).wheel = d.wheel := by
  unfold branchBackstop; (try dsimp only); repeat' first | with_reducible rfl | (simp; done) | split | intro _ | rw [foldl_wheel] | rw [foldl1_wheel] | rw [foldl2_wheel] | dsimp only | simp

theorem chanStored_wheel (f : Dev → Nat → Nat → Dev) (d : Dev) (c : Nat) (h : ∀ d c k, (f d c k).wheel = d.wheel) :
    (chanStored f d c).wheel = d.wheel := by
  unfold chanStored; dsimp only; split <;> simp [h]

@[simp] theorem chanSitter_wheel (d : Dev) (c : Nat) : (chanSitter d c).wheel = d.wheel := by
  unfold chanSitter; (try dsimp only); repeat' first | with_reducible rfl | (simp [Dev.atTick_wheel, branchFollow_wheel, chanStored_wheel]; done) | split | (rw [foldl_wheel]; intro _ _) | (rw [foldl1_wheel]; intro _ _) | (rw [foldl2_wheel]; intro _ _) | dsimp only | simp

@[simp] theorem chanFenced_wheel (d : Dev) (c : Nat) : (chanFenced d c).wheel = d.wheel := by
  unfold chanFenced; (try dsimp only); repeat' first | with_reducible rfl | (simp [Dev.atTick_wheel, branchFollow_wheel, chanStored_wheel]; done) | split | (rw [foldl_wheel]; intro _ _) | (rw [foldl1_wheel]; intro _ _) | (rw [foldl2_wheel]; intro _ _) | dsimp only | simp

@[simp] theorem branchCurrent_wheel (n : Nat) (w : Word) (pos : Nat) (d : Dev) : (branchCurrent n w pos d).wheel = d.wheel := by
  unfold branchCurrent; (try dsimp only); repeat' first | with_reducible rfl | (simp [Dev.atTick_wheel, branchFollow_wheel, chanStored_wheel]; done) | split | (rw [foldl_wheel]; intro _ _) | (rw [foldl1_wheel]; intro _ _) | (rw [foldl2_wheel]; intro _ _) | dsimp only | simp

@[simp] theorem branchVoltage_wheel (n : Nat) (w : Word) (d : Dev) : (branchVoltage n w d).wheel = d.wheel := by
  unfold branchVoltage; simp

@[simp] theorem branchLimitRun_wheel (d : Dev) (n : Nat) : (branchLimitRun d n).wheel = d.wheel := by
  unfold branchLimitRun; (try dsimp only); repeat' first | with_reducible rfl | (simp; done) | split | intro _ | rw [foldl_wheel] | rw [foldl1_wheel] | rw [foldl2_wheel] | dsimp only | simp

@[simp] theorem branchDrop_wheel (chan pos : Nat) (d : Dev) : (branchDrop chan pos d).wheel = d.wheel := by
  unfold branchDrop; (try dsimp only); repeat' first | with_reducible rfl | (simp; done) | split | intro _ | rw [foldl_wheel] | rw [foldl1_wheel] | rw [foldl2_wheel] | dsimp only | simp

@[simp] theorem branchTurn_wheel (ended : BitVec 48) (d : Dev) (n : Nat) : (branchTurn ended d n).wheel = d.wheel := by
  unfold branchTurn; (try dsimp only); repeat' first | with_reducible rfl | (simp; done) | split | intro _ | rw [foldl_wheel] | rw [foldl1_wheel] | rw [foldl2_wheel] | dsimp only | simp

@[simp] theorem healthLevels_wheel (d : Dev) (n : Nat) (r : Int) : (healthLevels d n r).wheel = d.wheel := by
  unfold healthLevels; (try dsimp only); repeat' first | with_reducible rfl | (simp; done) | split | intro _ | rw [foldl_wheel] | rw [foldl1_wheel] | rw [foldl2_wheel] | dsimp only | simp

@[simp] theorem baselineStep_wheel (d : Dev) (n : Nat) (r t : Int) : (baselineStep d n r t).wheel = d.wheel := by
  unfold baselineStep; (try dsimp only); repeat' first | with_reducible rfl | (simp; done) | split | intro _ | rw [foldl_wheel] | rw [foldl1_wheel] | rw [foldl2_wheel] | dsimp only | simp

@[simp] theorem healthWindow_wheel (n : Nat) (d : Dev) : (healthWindow n d).wheel = d.wheel := by
  unfold healthWindow; (try dsimp only); repeat' first | with_reducible rfl | (simp; done) | split | intro _ | rw [foldl_wheel] | rw [foldl1_wheel] | rw [foldl2_wheel] | dsimp only | simp

@[simp] theorem branchClear_wheel (d : Dev) (n : Nat) (bits : Word) : (branchClear d n bits).wheel = d.wheel := by
  unfold branchClear; (repeat' split) <;> first | with_reducible rfl | (simp; done)

@[simp] theorem branchRampLate_wheel (n : Nat) (vgsLow : Bool) (d : Dev) : (branchRampLate n vgsLow d).wheel = d.wheel := by
  unfold branchRampLate; (try dsimp only); repeat' first | with_reducible rfl | (simp; done) | split | intro _ | rw [foldl_wheel] | rw [foldl1_wheel] | rw [foldl2_wheel] | dsimp only | simp

@[simp] theorem branchOvReverse_wheel (n : Nat) (reverse : Bool) (d : Dev) : (branchOvReverse n reverse d).wheel = d.wheel := by
  unfold branchOvReverse; (try dsimp only); repeat' first | with_reducible rfl | (simp; done) | split | intro _ | rw [foldl_wheel] | rw [foldl1_wheel] | rw [foldl2_wheel] | dsimp only | simp

@[simp] theorem branchWindow_wheel (n : Nat) (d : Dev) : (branchWindow n d).wheel = d.wheel := by
  unfold branchWindow; (try dsimp only); repeat' first | with_reducible rfl | (simp; done) | split | intro _ | rw [foldl_wheel] | rw [foldl1_wheel] | rw [foldl2_wheel] | dsimp only | simp

@[simp] theorem monEnable_wheel (d : Dev) (m : Nat) : (monEnable d m).wheel = d.wheel := by
  unfold monEnable; (repeat' split) <;> first | with_reducible rfl | (simp; done)

@[simp] theorem monDisable_wheel (d : Dev) (m : Nat) : (monDisable d m).wheel = d.wheel := by
  unfold monDisable; (repeat' split) <;> first | with_reducible rfl | (simp; done)

@[simp] theorem monSwapped_wheel (d : Dev) (m : Nat) : (monSwapped d m).wheel = d.wheel := by
  unfold monSwapped; simp

@[simp] theorem monClear_wheel (d : Dev) (m : Nat) (v : Word) : (monClear d m v).wheel = d.wheel := by
  unfold monClear; (repeat' split) <;> first | with_reducible rfl | (simp; done)

@[simp] theorem monEnableCmd_wheel (d : Dev) (m : Nat) : (monEnableCmd d m).1.wheel = d.wheel := by
  unfold monEnableCmd; (repeat' split) <;> first | with_reducible rfl | (simp; done)

@[simp] theorem monDisableCmd_wheel (d : Dev) (m : Nat) : (monDisableCmd d m).1.wheel = d.wheel := by
  unfold monDisableCmd; (repeat' split) <;> first | with_reducible rfl | (simp; done)

@[simp] theorem drivePin_wheel (d : Dev) (st : List Word) (active : Bool) : (drivePin d st active).wheel = d.wheel := by
  unfold drivePin; (repeat' split) <;> first | with_reducible rfl | (simp; done)

@[simp] theorem stepSwitch_wheel (d : Dev) (st : List Word) (on : Bool) : (stepSwitch d st on).wheel = d.wheel := by
  unfold stepSwitch; (repeat' split) <;> first | with_reducible rfl | (simp; done)

@[simp] theorem seqLoad_wheel (d : Dev) (q : Nat) (ws : List Word) : (seqLoad d q ws).wheel = d.wheel := by
  unfold seqLoad; (try dsimp only); repeat' first | with_reducible rfl | (simp; done) | split | intro _ | rw [foldl_wheel] | rw [foldl1_wheel] | rw [foldl2_wheel] | dsimp only | simp

@[simp] theorem seqUnload_wheel (d : Dev) (q : Nat) : (seqUnload d q).wheel = d.wheel := by
  unfold seqUnload; (try dsimp only); repeat' first | with_reducible rfl | (simp; done) | split | intro _ | rw [foldl_wheel] | rw [foldl1_wheel] | rw [foldl2_wheel] | dsimp only | simp

@[simp] theorem seqReload_wheel (old d : Dev) (q : Nat) (ws : List Word) : (seqReload old d q ws).wheel = d.wheel := by
  unfold seqReload; (try dsimp only); repeat' first | with_reducible rfl | (simp; done) | split | intro _ | rw [foldl_wheel] | rw [foldl1_wheel] | rw [foldl2_wheel] | dsimp only | simp

@[simp] theorem elemStart_wheel (d : Dev) (h : Word) : (elemStart d h).wheel = d.wheel := by
  unfold elemStart; (repeat' split) <;> first | with_reducible rfl | (simp; done)

@[simp] theorem elemStop_wheel (d : Dev) (h : Word) : (elemStop d h).wheel = d.wheel := by
  unfold elemStop; (repeat' split) <;> first | with_reducible rfl | (simp; done)

@[simp] theorem markStep_wheel (d : Dev) (q s : Nat) (f : StepRt → StepRt) : (markStep d q s f).wheel = d.wheel := by
  unfold markStep; simp

@[simp] theorem stepRailRecord_wheel (d : Dev) (st : List Word) (cause : Nat) : (stepRailRecord d st cause).wheel = d.wheel := by
  unfold stepRailRecord; (repeat' split) <;> first | with_reducible rfl | (simp; done)

@[simp] theorem seqHstate_wheel (d : Dev) (q : Nat) (on : Bool) : (seqHstate d q on).wheel = d.wheel := by
  unfold seqHstate; simp

@[simp] theorem endSeqEnables_wheel (d : Dev) (q : Nat) (st : Status) : (endSeqEnables d q st).wheel = d.wheel := by
  unfold endSeqEnables; simp

@[simp] theorem stopStep_wheel (d : Dev) (q s : Nat) : (stopStep d q s).wheel = d.wheel := by
  unfold stopStep; (try dsimp only); repeat' first | with_reducible rfl | (simp; done) | split | intro _ | rw [foldl_wheel] | rw [foldl1_wheel] | rw [foldl2_wheel] | dsimp only | simp

@[simp] theorem stepEnds_wheel (d : Dev) (q s : Nat) : (stepEnds d q s).wheel = d.wheel := by
  unfold stepEnds; (try dsimp only); repeat' first | with_reducible rfl | (simp; done) | split | intro _ | rw [foldl_wheel] | rw [foldl1_wheel] | rw [foldl2_wheel] | dsimp only | simp

@[simp] theorem downDone_wheel (d : Dev) (q : Nat) : (downDone d q).wheel = d.wheel := by
  unfold downDone; (try dsimp only); repeat' first | with_reducible rfl | (simp; done) | split | intro _ | rw [foldl_wheel] | rw [foldl1_wheel] | rw [foldl2_wheel] | dsimp only | simp

@[simp] theorem downFrom_wheel (fuel : Nat) (d : Dev) (q below : Nat) (first : Bool) : (downFrom fuel d q below first).wheel = d.wheel := by
  induction fuel generalizing d below first with
  | zero => rfl
  | succ n ih =>
    unfold downFrom
    split
    · simp
    · dsimp only
      repeat' first | with_reducible rfl | (simp [ih]; done) | split

@[simp] theorem seqAdvance_wheel (d : Dev) (q below : Nat) (first : Bool) : (seqAdvance d q below first).wheel = d.wheel := by
  unfold seqAdvance; simp

@[simp] theorem seqOff_wheel (d : Dev) (q cause : Nat) (brown : Option Nat) : (seqOff d q cause brown).wheel = d.wheel := by
  unfold seqOff; (try dsimp only); repeat' first | with_reducible rfl | (simp; done) | split | intro _ | rw [foldl_wheel] | rw [foldl1_wheel] | rw [foldl2_wheel] | dsimp only | simp

@[simp] theorem stopNext_wheel (l : List (Nat × Nat)) (d : Dev) : (stopNext l d).wheel = d.wheel := by
  induction l generalizing d with
  | nil => exact stopUpdate_wheel d d _ rfl
  | cons p l ih =>
    obtain ⟨t, i⟩ := p
    by_cases h : (elemGone d t i || (d.seqNaming (d.handleOf t i)).isSome) = true
    · rw [stopNext, if_pos h]; exact ih d
    · by_cases h2 : elemGone (elemStop d (d.handleOf t i)) t i = true
      · rw [stopNext_gone t i l d h h2, ih, elemStop_wheel]
      · rw [stopNext_waits t i l d h h2]
        exact stopUpdate_wheel _ _ _ (elemStop_wheel _ _)

@[simp] theorem orderNext_wheel (l : List Nat) (d : Dev) : (orderNext l d).wheel = d.wheel := by
  induction l generalizing d with
  | nil => unfold orderNext; simp
  | cons q l ih => unfold orderNext; dsimp only; (repeat' split) <;> simp [ih]

@[simp] theorem chainCheck_wheel (d : Dev) : (chainCheck d).wheel = d.wheel := by
  unfold chainCheck; (repeat' split) <;> first | with_reducible rfl | (simp; done)

@[simp] theorem releaseStuck_wheel (d : Dev) : (releaseStuck d).wheel = d.wheel := by
  unfold releaseStuck; (try dsimp only); repeat' first | with_reducible rfl | (simp; done) | split | intro _ | rw [foldl_wheel] | rw [foldl1_wheel] | rw [foldl2_wheel] | dsimp only | simp

@[simp] theorem wdRelease_wheel (d : Dev) : (wdRelease d).wheel = d.wheel := by
  unfold wdRelease; (repeat' split) <;> first | with_reducible rfl | (simp; done)

@[simp] theorem settle_wheel (d : Dev) : (settle d).wheel = d.wheel := by
  unfold settle; simp

@[simp] theorem startChain_wheel (d : Dev) (first : Nat) (others : Bool) (stops : List (Nat × Nat)) : (startChain d first others stops).wheel = d.wheel := by
  unfold startChain; simp

@[simp] theorem ownFault_wheel (d : Dev) (q s reason : Nat) : (ownFault d q s reason).wheel = d.wheel := by
  unfold ownFault; simp

@[simp] theorem failStep_wheel (d : Dev) (q s reason : Nat) : (failStep d q s reason).wheel = d.wheel := by
  unfold failStep; simp

@[simp] theorem beginStep_wheel (d : Dev) (q s : Nat) : (beginStep d q s).wheel = d.wheel := by
  unfold beginStep; (try dsimp only); repeat' first | with_reducible rfl | (simp; done) | split | intro _ | rw [foldl_wheel] | rw [foldl1_wheel] | rw [foldl2_wheel] | dsimp only | simp

@[simp] theorem delayUp_wheel (fuel : Nat) (d : Dev) (q s : Nat) : (delayUp fuel d q s).wheel = d.wheel := by
  induction fuel generalizing d s with
  | zero => rfl
  | succ n ih => unfold delayUp; dsimp only; (repeat' split) <;> simp [ih]

@[simp] theorem tryStart_wheel (d : Dev) (q : Nat) : (tryStart d q).wheel = d.wheel := by
  unfold tryStart; (try dsimp only); repeat' first | with_reducible rfl | (simp; done) | split | intro _ | rw [foldl_wheel] | rw [foldl1_wheel] | rw [foldl2_wheel] | dsimp only | simp

@[simp] theorem tryStarts_wheel (d : Dev) : (tryStarts d).wheel = d.wheel := by
  unfold tryStarts; (try dsimp only); repeat' first | with_reducible rfl | (simp; done) | split | intro _ | rw [foldl_wheel] | rw [foldl1_wheel] | rw [foldl2_wheel] | dsimp only | simp

theorem onSeq_wheel (q : Nat) (f : Dev → Dev) (d : Dev) (h : (f d).wheel = d.wheel) : (onSeq q f d).wheel = d.wheel := by
  unfold onSeq; split <;> simp [h]

@[simp] theorem seqDelayUpEnd_wheel (q : Nat) (d : Dev) : (seqDelayUpEnd q d).wheel = d.wheel := by
  unfold seqDelayUpEnd; (try dsimp only); repeat' first | with_reducible rfl | (simp; done) | split | intro _ | rw [foldl_wheel] | rw [foldl1_wheel] | rw [foldl2_wheel] | dsimp only | simp

@[simp] theorem seqStepUp_wheel (q : Nat) (d : Dev) : (seqStepUp q d).wheel = d.wheel := by
  unfold seqStepUp; (try dsimp only); repeat' first | with_reducible rfl | (simp; done) | split | intro _ | rw [foldl_wheel] | rw [foldl1_wheel] | rw [foldl2_wheel] | dsimp only | simp

@[simp] theorem seqDelayDownEnd_wheel (q : Nat) (d : Dev) : (seqDelayDownEnd q d).wheel = d.wheel := by
  unfold seqDelayDownEnd; (try dsimp only); repeat' first | with_reducible rfl | (simp; done) | split | intro _ | rw [foldl_wheel] | rw [foldl1_wheel] | rw [foldl2_wheel] | dsimp only | simp

@[simp] theorem stepOffGoesOn_wheel (d : Dev) (q s : Nat) : (stepOffGoesOn d q s).wheel = d.wheel := by
  unfold stepOffGoesOn; (try dsimp only); repeat' first | with_reducible rfl | (simp; done) | split | intro _ | rw [foldl_wheel] | rw [foldl1_wheel] | rw [foldl2_wheel] | dsimp only | simp

@[simp] theorem seqStepOff_wheel (q : Nat) (d : Dev) : (seqStepOff q d).wheel = d.wheel := by
  unfold seqStepOff; (try dsimp only); repeat' first | with_reducible rfl | (simp; done) | split | intro _ | rw [foldl_wheel] | rw [foldl1_wheel] | rw [foldl2_wheel] | dsimp only | simp

@[simp] theorem seqRiseTimeout_wheel (q : Nat) (d : Dev) : (seqRiseTimeout q d).wheel = d.wheel := by
  unfold seqRiseTimeout; (try dsimp only); repeat' first | with_reducible rfl | (simp; done) | split | intro _ | rw [foldl_wheel] | rw [foldl1_wheel] | rw [foldl2_wheel] | dsimp only | simp

@[simp] theorem seqFallTimeout_wheel (q : Nat) (d : Dev) : (seqFallTimeout q d).wheel = d.wheel := by
  unfold seqFallTimeout; (try dsimp only); repeat' first | with_reducible rfl | (simp; done) | split | intro _ | rw [foldl_wheel] | rw [foldl1_wheel] | rw [foldl2_wheel] | dsimp only | simp

@[simp] theorem markStuck_wheel (d : Dev) (q s : Nat) : (markStuck d q s).wheel = d.wheel := by
  unfold markStuck; simp

@[simp] theorem seqDschWinEnd_wheel (q : Nat) (d : Dev) : (seqDschWinEnd q d).wheel = d.wheel := by
  unfold seqDschWinEnd; (try dsimp only); repeat' first | with_reducible rfl | (simp; done) | split | intro _ | rw [foldl_wheel] | rw [foldl1_wheel] | rw [foldl2_wheel] | dsimp only | simp

@[simp] theorem seqMemberFault_wheel (q s : Nat) (d : Dev) : (seqMemberFault q s d).wheel = d.wheel := by
  unfold seqMemberFault; (try dsimp only); repeat' first | with_reducible rfl | (simp; done) | split | intro _ | rw [foldl_wheel] | rw [foldl1_wheel] | rw [foldl2_wheel] | dsimp only | simp

@[simp] theorem seqMinOffEnd_wheel (q : Nat) (d : Dev) : (seqMinOffEnd q d).wheel = d.wheel := by
  unfold seqMinOffEnd; simp

@[simp] theorem seqBackfeedStep_wheel (d : Dev) (q s : Nat) : (seqBackfeedStep d q s).wheel = d.wheel := by
  unfold seqBackfeedStep; (try dsimp only); repeat' first | with_reducible rfl | (simp; done) | split | intro _ | rw [foldl_wheel] | rw [foldl1_wheel] | rw [foldl2_wheel] | dsimp only | simp

@[simp] theorem seqBackfeed_wheel (d : Dev) (h : Word) : (seqBackfeed d h).wheel = d.wheel := by
  unfold seqBackfeed; (repeat' split) <;> first | with_reducible rfl | (simp; done)

@[simp] theorem seqSourceBack_wheel (d : Dev) (q set : Nat) : (seqSourceBack d q set).wheel = d.wheel := by
  unfold seqSourceBack; (try dsimp only); repeat' first | with_reducible rfl | (simp; done) | split | intro _ | rw [foldl_wheel] | rw [foldl1_wheel] | rw [foldl2_wheel] | dsimp only | simp

@[simp] theorem seqSitter_wheel (d : Dev) (q : Nat) : (seqSitter d q).wheel = d.wheel := by
  unfold seqSitter; (try dsimp only); repeat' first | with_reducible rfl | (simp; done) | split | intro _ | rw [foldl_wheel] | rw [foldl1_wheel] | rw [foldl2_wheel] | dsimp only | simp

@[simp] theorem seqFence_wheel (d : Dev) (q : Nat) : (seqFence d q).wheel = d.wheel := by
  unfold seqFence; simp

@[simp] theorem seqEnable_wheel (src : Src) (d : Dev) (q : Nat) : (seqEnable src d q).1.wheel = d.wheel := by
  unfold seqEnable; (try dsimp only); repeat' first | with_reducible rfl | (simp; done) | split | intro _ | rw [foldl_wheel] | rw [foldl1_wheel] | rw [foldl2_wheel] | dsimp only | simp

@[simp] theorem seqDisable_wheel (src : Src) (d : Dev) (q : Nat) : (seqDisable src d q).1.wheel = d.wheel := by
  unfold seqDisable; (try dsimp only); repeat' first | with_reducible rfl | (simp; done) | split | intro _ | rw [foldl_wheel] | rw [foldl1_wheel] | rw [foldl2_wheel] | dsimp only | simp

@[simp] theorem seqClear_wheel (d : Dev) (q : Nat) (v : Word) : (seqClear d q v).wheel = d.wheel := by
  unfold seqClear; (try dsimp only); repeat' first | with_reducible rfl | (simp; done) | split | intro _ | rw [foldl_wheel] | rw [foldl1_wheel] | rw [foldl2_wheel] | dsimp only | simp

@[simp] theorem seqDestroy_wheel (src : Src) (d : Dev) (q : Nat) : (seqDestroy src d q).1.wheel = d.wheel := by
  unfold seqDestroy; (try dsimp only); repeat' first | with_reducible rfl | (simp; done) | split | intro _ | rw [foldl_wheel] | rw [foldl1_wheel] | rw [foldl2_wheel] | dsimp only | simp

@[simp] theorem chatterLock_wheel (d : Dev) (q : Nat) : (chatterLock d q).wheel = d.wheel := by
  unfold chatterLock; (try dsimp only); repeat' first | with_reducible rfl | (simp; done) | split | intro _ | rw [foldl_wheel] | rw [foldl1_wheel] | rw [foldl2_wheel] | dsimp only | simp

@[simp] theorem faultnLow_wheel (own : Bool) (time : Nat) (d : Dev) : (faultnLow own time d).wheel = d.wheel := by
  unfold faultnLow; (try dsimp only); repeat' first | with_reducible rfl | (simp; done) | split | intro _ | rw [foldl_wheel] | rw [foldl1_wheel] | rw [foldl2_wheel] | dsimp only | simp

@[simp] theorem faultnHigh_wheel (time : Nat) (d : Dev) : (faultnHigh time d).wheel = d.wheel := by
  unfold faultnHigh; (try dsimp only); repeat' first | with_reducible rfl | (simp; done) | split | intro _ | rw [foldl_wheel] | rw [foldl1_wheel] | rw [foldl2_wheel] | dsimp only | simp

@[simp] theorem faultnQuiet_wheel (q : Nat) (d : Dev) : (faultnQuiet q d).wheel = d.wheel := by
  unfold faultnQuiet; (repeat' split) <;> first | with_reducible rfl | (simp; done)

@[simp] theorem faultnTurn_wheel (d : Dev) : (faultnTurn d).wheel = d.wheel := by
  unfold faultnTurn; simp

@[simp] theorem monResult_wheel (d : Dev) (m : Nat) (w : Word) : (monResult d m w).wheel = d.wheel := by
  unfold monResult
  extract_lets _ _ _ _ _ _ _ _ _ _ _ _ _ _ _ _ _ _ d1 d2 h d3 d4 d5
  have h1 : d1.wheel = d.wheel := by simp [d1]
  have h2 : d2.wheel = d.wheel := by simp [d2, h1]
  have h3 : d3.wheel = d.wheel := by simp only [d3]; split <;> simp [h2]
  have h4 : d4.wheel = d.wheel := by simp only [d4]; split <;> simp [h3]
  have h5 : d5.wheel = d.wheel := by simp only [d5]; split <;> simp [h4]
  split
  · rw [settle_wheel]; split <;> simp [h5]
  · rfl

@[simp] theorem svScanStart_wheel (d : Dev) : (svScanStart d).wheel = d.wheel := by
  unfold svScanStart; (repeat' split) <;> first | with_reducible rfl | (simp; done)

@[simp] theorem svStore_wheel (input : Nat) (rest : List Nat) (w : Word) (isOver under : Bool) (d : Dev) :
    (svStore input rest w isOver under d).wheel = d.wheel := by
  unfold svStore; simp only [Dev.tally_wheel]

@[simp] theorem svConversionDone_wheel (code : Nat) (isOver under : Bool) (d : Dev) : (svConversionDone code isOver under d).wheel = d.wheel := by
  unfold svConversionDone; (try dsimp only); repeat' first | with_reducible rfl | (simp [Dev.atTick_wheel, branchFollow_wheel, chanStored_wheel, onSeq_wheel]; done) | split | (rw [foldl_wheel]; intro _ _) | (rw [foldl1_wheel]; intro _ _) | (rw [foldl2_wheel]; intro _ _) | dsimp only | simp

@[simp] theorem Dev.modIn_wheel (d : Dev) (n x : Nat) (f : SrcInput → SrcInput) : (Dev.modIn d n x f).wheel = d.wheel := by
  unfold Dev.modIn; simp

@[simp] theorem srcLoad_wheel (d : Dev) (n : Nat) : (srcLoad d n).wheel = d.wheel := by
  unfold srcLoad; simp

@[simp] theorem srcCharge_wheel (d : Dev) (n : Nat) : (srcCharge d n).wheel = d.wheel := by
  unfold srcCharge; simp

@[simp] theorem srcBlock_wheel (d : Dev) (n outcome : Nat) (gap vbus : Option Nat) : (srcBlock d n outcome gap vbus).wheel = d.wheel := by
  unfold srcBlock; (try dsimp only); repeat' first | with_reducible rfl | (simp; done) | split | intro _ | rw [foldl_wheel] | rw [foldl1_wheel] | rw [foldl2_wheel] | dsimp only | simp

@[simp] theorem srcBrownout_wheel (d : Dev) (n : Nat) : (srcBrownout d n).wheel = d.wheel := by
  unfold srcBrownout; (try dsimp only); repeat' first | with_reducible rfl | (simp; done) | split | intro _ | rw [foldl_wheel] | rw [foldl1_wheel] | rw [foldl2_wheel] | dsimp only | simp

@[simp] theorem srcBankLow_wheel (d : Dev) (n : Nat) : (srcBankLow d n).wheel = d.wheel := by
  unfold srcBankLow; (repeat' split) <;> first | with_reducible rfl | (simp; done)

@[simp] theorem srcEnterNone_wheel (d : Dev) (n : Nat) : (srcEnterNone d n).wheel = d.wheel := by
  unfold srcEnterNone; (repeat' split) <;> first | with_reducible rfl | (simp; done)

@[simp] theorem srcIdle_wheel (d : Dev) (n : Nat) : (srcIdle d n).wheel = d.wheel := by
  unfold srcIdle; simp

@[simp] theorem srcDriveNext_wheel (d : Dev) (n : Nat) (next : Bool) : (srcDriveNext d n next).wheel = d.wheel := by
  unfold srcDriveNext; (repeat' split) <;> first | with_reducible rfl | (simp; done)

@[simp] theorem srcNote_wheel (d : Dev) (n : Nat) (o x cause : Option Nat) : (srcNote d n o x cause).wheel = d.wheel := by
  unfold srcNote; simp

@[simp] theorem srcStart_wheel (d : Dev) (n : Nat) (o : Option Nat) (x : Nat) (cause : Option Nat) : (srcStart d n o x cause).wheel = d.wheel := by
  unfold srcStart; simp

@[simp] theorem srcSelect_wheel (d : Dev) (n : Nat) : (srcSelect d n).wheel = d.wheel := by
  unfold srcSelect; (try dsimp only); repeat' first | with_reducible rfl | (simp; done) | split | intro _ | rw [foldl_wheel] | rw [foldl1_wheel] | rw [foldl2_wheel] | dsimp only | simp

@[simp] theorem srcPlanned_wheel (d : Dev) (n o x cause : Nat) : (srcPlanned d n o x cause).wheel = d.wheel := by
  unfold srcPlanned; simp

@[simp] theorem srcUp_wheel (d : Dev) (n : Nat) : (srcUp d n).wheel = d.wheel := by
  unfold srcUp; simp

@[simp] theorem srcForce_wheel (d : Dev) (n v : Nat) : (srcForce d n v).1.wheel = d.wheel := by
  unfold srcForce; (try dsimp only); repeat' first | with_reducible rfl | (simp; done) | split | intro _ | rw [foldl_wheel] | rw [foldl1_wheel] | rw [foldl2_wheel] | dsimp only | simp

@[simp] theorem srcApply_wheel (fuel : Nat) (d : Dev) (n : Nat) : (srcApply fuel d n).wheel = d.wheel := by
  induction fuel generalizing d with
  | zero => rfl
  | succ k ih => unfold srcApply; dsimp only; (repeat' split) <;> simp_all

@[simp] theorem srcDeferred_wheel (d : Dev) (n : Nat) : (srcDeferred d n).wheel = d.wheel := by
  unfold srcDeferred; (try dsimp only); repeat' first | with_reducible rfl | (simp [Dev.atTick_wheel, branchFollow_wheel, chanStored_wheel, onSeq_wheel]; done) | split | (rw [foldl_wheel]; intro _ _) | (rw [foldl1_wheel]; intro _ _) | (rw [foldl2_wheel]; intro _ _) | dsimp only | simp

@[simp] theorem srcLost_wheel (d : Dev) (n x cause : Nat) : (srcLost d n x cause).wheel = d.wheel := by
  unfold srcLost; (try dsimp only); repeat' first | with_reducible rfl | (simp [Dev.atTick_wheel, branchFollow_wheel, chanStored_wheel, onSeq_wheel]; done) | split | (rw [foldl_wheel]; intro _ _) | (rw [foldl1_wheel]; intro _ _) | (rw [foldl2_wheel]; intro _ _) | dsimp only | simp

@[simp] theorem srcMakeFails_wheel (d : Dev) (n x : Nat) (st : SrcState) : (srcMakeFails d n x st).wheel = d.wheel := by
  unfold srcMakeFails; (try dsimp only); repeat' first | with_reducible rfl | (simp [Dev.atTick_wheel, branchFollow_wheel, chanStored_wheel, onSeq_wheel]; done) | split | (rw [foldl_wheel]; intro _ _) | (rw [foldl1_wheel]; intro _ _) | (rw [foldl2_wheel]; intro _ _) | dsimp only | simp

@[simp] theorem srcLoss_wheel (n x cause : Nat) (d : Dev) : (srcLoss n x cause d).wheel = d.wheel := by
  unfold srcLoss; (try dsimp only); repeat' first | with_reducible rfl | (simp; done) | split | intro _ | rw [foldl_wheel] | rw [foldl1_wheel] | rw [foldl2_wheel] | dsimp only | simp

@[simp] theorem srcWindowLoss_wheel (n x : Nat) (d : Dev) : (srcWindowLoss n x d).wheel = d.wheel := by
  unfold srcWindowLoss; (try dsimp only); repeat' first | with_reducible rfl | (simp [Dev.atTick_wheel, branchFollow_wheel, chanStored_wheel, onSeq_wheel]; done) | split | (rw [foldl_wheel]; intro _ _) | (rw [foldl1_wheel]; intro _ _) | (rw [foldl2_wheel]; intro _ _) | dsimp only | simp

@[simp] theorem srcBlocking_wheel (n x : Nat) (d : Dev) : (srcBlocking n x d).wheel = d.wheel := by
  unfold srcBlocking; (try dsimp only); repeat' first | with_reducible rfl | (simp; done) | split | intro _ | rw [foldl_wheel] | rw [foldl1_wheel] | rw [foldl2_wheel] | dsimp only | simp

@[simp] theorem srcStuck_wheel (n : Nat) (d : Dev) : (srcStuck n d).wheel = d.wheel := by
  unfold srcStuck; (try dsimp only); repeat' first | with_reducible rfl | (simp [Dev.atTick_wheel, branchFollow_wheel, chanStored_wheel, onSeq_wheel]; done) | split | (rw [foldl_wheel]; intro _ _) | (rw [foldl1_wheel]; intro _ _) | (rw [foldl2_wheel]; intro _ _) | dsimp only | simp

@[simp] theorem srcFailed_wheel (n : Nat) (d : Dev) : (srcFailed n d).wheel = d.wheel := by
  unfold srcFailed; (try dsimp only); repeat' first | with_reducible rfl | (simp; done) | split | intro _ | rw [foldl_wheel] | rw [foldl1_wheel] | rw [foldl2_wheel] | dsimp only | simp

@[simp] theorem srcBack_wheel (d : Dev) (n x : Nat) : (srcBack d n x).wheel = d.wheel := by
  unfold srcBack; (repeat' split) <;> first | with_reducible rfl | (simp; done)

@[simp] theorem srcPdOutput_wheel (chan : Nat) (d : Dev) : (srcPdOutput chan d).wheel = d.wheel := by
  unfold srcPdOutput; (repeat' split) <;> first | with_reducible rfl | (simp; done)

@[simp] theorem srcConducts_wheel (n gapNs vbusMin : Nat) (d : Dev) : (srcConducts n gapNs vbusMin d).wheel = d.wheel := by
  unfold srcConducts; (try dsimp only); repeat' first | with_reducible rfl | (simp [Dev.atTick_wheel, branchFollow_wheel, chanStored_wheel, onSeq_wheel]; done) | split | (rw [foldl_wheel]; intro _ _) | (rw [foldl1_wheel]; intro _ _) | (rw [foldl2_wheel]; intro _ _) | dsimp only | simp

@[simp] theorem srcQualified_wheel (n x : Nat) (d : Dev) : (srcQualified n x d).wheel = d.wheel := by
  unfold srcQualified; (try dsimp only); repeat' first | with_reducible rfl | (simp; done) | split | intro _ | rw [foldl_wheel] | rw [foldl1_wheel] | rw [foldl2_wheel] | dsimp only | simp

@[simp] theorem srcAutoReturn_wheel (n : Nat) (d : Dev) : (srcAutoReturn n d).wheel = d.wheel := by
  unfold srcAutoReturn; (try dsimp only); repeat' first | with_reducible rfl | (simp; done) | split | intro _ | rw [foldl_wheel] | rw [foldl1_wheel] | rw [foldl2_wheel] | dsimp only | simp

@[simp] theorem srcReturn_wheel (d : Dev) (n : Nat) : (srcReturn d n).wheel = d.wheel := by
  unfold srcReturn; (try dsimp only); repeat' first | with_reducible rfl | (simp; done) | split | intro _ | rw [foldl_wheel] | rw [foldl1_wheel] | rw [foldl2_wheel] | dsimp only | simp

@[simp] theorem srcNoneTimeout_wheel (n : Nat) (d : Dev) : (srcNoneTimeout n d).wheel = d.wheel := by
  unfold srcNoneTimeout; (repeat' split) <;> first | with_reducible rfl | (simp; done)

@[simp] theorem srcVoltage_wheel (x : Nat) (w : Word) (d : Dev) : (srcVoltage x w d).wheel = d.wheel := by
  unfold srcVoltage; (try dsimp only); repeat' first | with_reducible rfl | (simp; done) | split | intro _ | rw [foldl_wheel] | rw [foldl1_wheel] | rw [foldl2_wheel] | dsimp only | simp

@[simp] theorem srcBatOpens_wheel (d : Dev) (n : Nat) : (srcBatOpens d n).wheel = d.wheel := by
  unfold srcBatOpens; (try dsimp only); repeat' first | with_reducible rfl | (simp; done) | split | intro _ | rw [foldl_wheel] | rw [foldl1_wheel] | rw [foldl2_wheel] | dsimp only | simp

@[simp] theorem srcBatHold_wheel (d : Dev) (n : Nat) : (srcBatHold d n).wheel = d.wheel := by
  unfold srcBatHold; (try dsimp only); repeat' first | with_reducible rfl | (simp; done) | split | intro _ | rw [foldl_wheel] | rw [foldl1_wheel] | rw [foldl2_wheel] | dsimp only | simp

@[simp] theorem holdupRelease_wheel (on : Bool) (d : Dev) : (holdupRelease on d).wheel = d.wheel := by
  unfold holdupRelease; (try dsimp only); repeat' first | with_reducible rfl | (simp; done) | split | intro _ | rw [foldl_wheel] | rw [foldl1_wheel] | rw [foldl2_wheel] | dsimp only | simp

@[simp] theorem holdupChargeEnd_wheel (d : Dev) : (holdupChargeEnd d).wheel = d.wheel := by
  unfold holdupChargeEnd; (try dsimp only); repeat' first | with_reducible rfl | (simp; done) | split | intro _ | rw [foldl_wheel] | rw [foldl1_wheel] | rw [foldl2_wheel] | dsimp only | simp

@[simp] theorem holdupBleedStart_wheel (time : Nat) (d : Dev) : (holdupBleedStart time d).wheel = d.wheel := by
  unfold holdupBleedStart; (repeat' split) <;> first | with_reducible rfl | (simp; done)

@[simp] theorem holdupBlgOn_wheel (d : Dev) : (holdupBlgOn d).wheel = d.wheel := by
  unfold holdupBlgOn; (repeat' split) <;> first | with_reducible rfl | (simp; done)

@[simp] theorem holdupBleedGate_wheel (time : Nat) (d : Dev) : (holdupBleedGate time d).wheel = d.wheel := by
  unfold holdupBleedGate; (repeat' split) <;> first | with_reducible rfl | (simp; done)

@[simp] theorem ledNote_wheel (d : Dev) : (ledNote d).wheel = d.wheel := by
  unfold ledNote; simp

@[simp] theorem srcOff_wheel (d : Dev) (n : Nat) : (srcOff d n).wheel = d.wheel := by
  unfold srcOff; (repeat' split) <;> first | with_reducible rfl | (simp; done)

@[simp] theorem holdupBleedEnd_wheel (late : Bool) (time : Nat) (d : Dev) : (holdupBleedEnd late time d).wheel = d.wheel := by
  unfold holdupBleedEnd; (try dsimp only); repeat' first | with_reducible rfl | (simp; done) | split | intro _ | rw [foldl_wheel] | rw [foldl1_wheel] | rw [foldl2_wheel] | dsimp only | simp

@[simp] theorem srcGatesOff_wheel (d : Dev) (n : Nat) : (srcGatesOff d n).wheel = d.wheel := by
  unfold srcGatesOff; (try dsimp only); repeat' first | with_reducible rfl | (simp; done) | split | intro _ | rw [foldl_wheel] | rw [foldl1_wheel] | rw [foldl2_wheel] | dsimp only | simp

@[simp] theorem srcSitter_wheel (d : Dev) (n : Nat) : (srcSitter d n).wheel = d.wheel := by
  unfold srcSitter; (repeat' split) <;> first | with_reducible rfl | (simp; done)

@[simp] theorem srcEnable_wheel (src : Src) (d : Dev) (n : Nat) : (srcEnable src d n).1.wheel = d.wheel := by
  unfold srcEnable; simp

@[simp] theorem srcShut_wheel (src : Src) (k : WaitKind) (d : Dev) (n : Nat) : (srcShut src k d n).1.wheel = d.wheel := by
  unfold srcShut; (try dsimp only); repeat' first | with_reducible rfl | (simp; done) | split | intro _ | rw [foldl_wheel] | rw [foldl1_wheel] | rw [foldl2_wheel] | dsimp only | simp

@[simp] theorem srcDisable_wheel (src : Src) (d : Dev) (n : Nat) : (srcDisable src d n).1.wheel = d.wheel := by
  unfold srcDisable; (repeat' split) <;> first | with_reducible rfl | (simp; done)

@[simp] theorem srcSetPoint_wheel (src : Src) (d : Dev) (n v : Nat) : (srcSetPoint src d n v).1.wheel = d.wheel := by
  unfold srcSetPoint; (try dsimp only); repeat' first | with_reducible rfl | (simp; done) | split | intro _ | rw [foldl_wheel] | rw [foldl1_wheel] | rw [foldl2_wheel] | dsimp only | simp

@[simp] theorem srcClear_wheel (d : Dev) (n : Nat) (v : Word) : (srcClear d n v).wheel = d.wheel := by
  unfold srcClear; (repeat' split) <;> first | with_reducible rfl | (simp; done)

@[simp] theorem srcFence_wheel (d : Dev) (n : Nat) : (srcFence d n).wheel = d.wheel := by
  unfold srcFence; simp

@[simp] theorem srcTurn_wheel (d : Dev) : (srcTurn d).wheel = d.wheel := by
  unfold srcTurn; (try dsimp only); repeat' first | with_reducible rfl | (simp; done) | split | intro _ | rw [foldl_wheel] | rw [foldl1_wheel] | rw [foldl2_wheel] | dsimp only | simp

theorem onSet_wheel (n : Nat) (f : Dev → Dev) (d : Dev) (h : (f d).wheel = d.wheel) : (onSet n f d).wheel = d.wheel := by
  unfold onSet; split <;> simp [h]

@[simp] theorem battLoad_wheel (d : Dev) (i : Nat) : (battLoad d i).wheel = d.wheel := by
  unfold battLoad; simp

@[simp] theorem groupStop_wheel (d : Dev) (i : Nat) : (groupStop d i).wheel = d.wheel := by
  unfold groupStop; (try dsimp only); repeat' first | with_reducible rfl | (simp; done) | split | intro _ | rw [foldl_wheel] | rw [foldl1_wheel] | rw [foldl2_wheel] | dsimp only | simp

@[simp] theorem groupStart_wheel (d : Dev) (i : Nat) : (groupStart d i).wheel = d.wheel := by
  unfold groupStart; (try dsimp only); repeat' first | with_reducible rfl | (simp; done) | split | intro _ | rw [foldl_wheel] | rw [foldl1_wheel] | rw [foldl2_wheel] | dsimp only | simp

@[simp] theorem hibEvent_wheel (d : Dev) (i v : Nat) : (hibEvent d i v).wheel = d.wheel := by
  unfold hibEvent; simp

@[simp] theorem battWake_wheel (d : Dev) (i : Nat) : (battWake d i).wheel = d.wheel := by
  unfold battWake; (try dsimp only); repeat' first | with_reducible rfl | (simp; done) | split | intro _ | rw [foldl_wheel] | rw [foldl1_wheel] | rw [foldl2_wheel] | dsimp only | simp

@[simp] theorem battFullRate_wheel (d : Dev) (i : Nat) : (battFullRate d i).wheel = d.wheel := by
  unfold battFullRate; (repeat' split) <;> first | with_reducible rfl | (simp; done)

@[simp] theorem battSave_wheel (d : Dev) (i : Nat) : (battSave d i).wheel = d.wheel := by
  unfold battSave; (repeat' split) <;> first | with_reducible rfl | (simp; done)

@[simp] theorem battEvent_wheel (d : Dev) (i code detail : Nat) : (battEvent d i code detail).wheel = d.wheel := by
  unfold battEvent; simp

@[simp] theorem battEnter_wheel (d : Dev) (i : Nat) (s : Service) : (battEnter d i s).wheel = d.wheel := by
  unfold battEnter; (repeat' split) <;> first | with_reducible rfl | (simp; done)

@[simp] theorem battService_wheel (d : Dev) (i : Nat) (s : Service) : (battService d i s).wheel = d.wheel := by
  unfold battService; (repeat' split) <;> first | with_reducible rfl | (simp; done)

@[simp] theorem battDisagree_wheel (d : Dev) (i : Nat) (on : Bool) : (battDisagree d i on).wheel = d.wheel := by
  unfold battDisagree; (repeat' split) <;> first | with_reducible rfl | (simp; done)

@[simp] theorem battUnanchor_wheel (d : Dev) (i : Nat) (on : Bool) : (battUnanchor d i on).wheel = d.wheel := by
  unfold battUnanchor; (repeat' split) <;> first | with_reducible rfl | (simp; done)

@[simp] theorem learnFails_wheel (d : Dev) (i code : Nat) : (learnFails d i code).wheel = d.wheel := by
  unfold learnFails; (repeat' split) <;> first | with_reducible rfl | (simp; done)

@[simp] theorem battJump_wheel (d : Dev) (i : Nat) (soc u : Int) : (battJump d i soc u).wheel = d.wheel := by
  unfold battJump; simp

@[simp] theorem zStore_wheel (d : Dev) (i : Nat) (b : List Byte) : (zStore d i b).wheel = d.wheel := by
  unfold zStore; simp

@[simp] theorem battSwapped_wheel (d : Dev) (i : Nat) : (battSwapped d i).wheel = d.wheel := by
  unfold battSwapped; (try dsimp only); repeat' first | with_reducible rfl | (simp; done) | split | intro _ | rw [foldl_wheel] | rw [foldl1_wheel] | rw [foldl2_wheel] | dsimp only | simp

@[simp] theorem zUpdate_wheel (d : Dev) (i h : Nat) (z : Int × Int) : (zUpdate d i h z).wheel = d.wheel := by
  unfold zUpdate; simp

@[simp] theorem battStarted_wheel (d : Dev) (i : Nat) : (battStarted d i).wheel = d.wheel := by
  unfold battStarted; (try dsimp only); repeat' first | with_reducible rfl | (simp; done) | split | intro _ | rw [foldl_wheel] | rw [foldl1_wheel] | rw [foldl2_wheel] | dsimp only | simp

@[simp] theorem zWindowClose_wheel (i : Nat) (d : Dev) : (zWindowClose i d).wheel = d.wheel := by
  unfold zWindowClose; (try dsimp only); repeat' first | with_reducible rfl | (simp; done) | split | intro _ | rw [foldl_wheel] | rw [foldl1_wheel] | rw [foldl2_wheel] | dsimp only | simp

@[simp] theorem battHibernate_wheel (i : Nat) (d : Dev) : (battHibernate i d).wheel = d.wheel := by
  unfold battHibernate; (try dsimp only); repeat' first | with_reducible rfl | (simp; done) | split | intro _ | rw [foldl_wheel] | rw [foldl1_wheel] | rw [foldl2_wheel] | dsimp only | simp

@[simp] theorem reducedSampling_wheel (i : Nat) (d : Dev) : (reducedSampling i d).wheel = d.wheel := by
  unfold reducedSampling; (try dsimp only); repeat' first | with_reducible rfl | (simp; done) | split | intro _ | rw [foldl_wheel] | rw [foldl1_wheel] | rw [foldl2_wheel] | dsimp only | simp

@[simp] theorem reducedTurn_wheel (i : Nat) (d : Dev) : (reducedTurn i d).wheel = d.wheel := by
  unfold reducedTurn; (try dsimp only); repeat' first | with_reducible rfl | (simp; done) | split | intro _ | rw [foldl_wheel] | rw [foldl1_wheel] | rw [foldl2_wheel] | dsimp only | simp

@[simp] theorem battPair_wheel (d : Dev) (i : Nat) : (battPair d i).wheel = d.wheel := by
  unfold battPair; (try dsimp only); repeat' first | with_reducible rfl | (simp; done) | split | intro _ | rw [foldl_wheel] | rw [foldl1_wheel] | rw [foldl2_wheel] | dsimp only | simp

@[simp] theorem battCurrent_wheel (d : Dev) (i : Nat) (w : Word) (held : Bool) (pos : Nat) : (battCurrent d i w held pos).wheel = d.wheel := by
  unfold battCurrent; (try dsimp only); repeat' first | with_reducible rfl | (simp; done) | split | intro _ | rw [foldl_wheel] | rw [foldl1_wheel] | rw [foldl2_wheel] | dsimp only | simp

@[simp] theorem battVoltage_wheel (d : Dev) (i : Nat) (w : Word) (pos : Nat) : (battVoltage d i w pos).wheel = d.wheel := by
  unfold battVoltage; (repeat' split) <;> first | with_reducible rfl | (simp; done)

@[simp] theorem battTemp_wheel (d : Dev) (i : Nat) (w : Word) : (battTemp d i w).wheel = d.wheel := by
  unfold battTemp; (try dsimp only); repeat' first | with_reducible rfl | (simp; done) | split | intro _ | rw [foldl_wheel] | rw [foldl1_wheel] | rw [foldl2_wheel] | dsimp only | simp

@[simp] theorem battMid_wheel (d : Dev) (i : Nat) : (battMid d i).wheel = d.wheel := by
  unfold battMid; (repeat' split) <;> first | with_reducible rfl | (simp; done)

@[simp] theorem battCompare_wheel (d : Dev) (i : Nat) (chan : Nat) : (battCompare d i chan).wheel = d.wheel := by
  unfold battCompare; (try dsimp only); repeat' first | with_reducible rfl | (simp; done) | split | intro _ | rw [foldl_wheel] | rw [foldl1_wheel] | rw [foldl2_wheel] | dsimp only | simp

@[simp] theorem battOutput_wheel (chan : Nat) (held : Bool) (pos : Nat) (d : Dev) : (battOutput chan held pos d).wheel = d.wheel := by
  unfold battOutput; (try dsimp only); repeat' first | with_reducible rfl | (simp; done) | split | intro _ | rw [foldl_wheel] | rw [foldl1_wheel] | rw [foldl2_wheel] | dsimp only | simp

@[simp] theorem lowActs_wheel (d : Dev) (i : Nat) : (lowActs d i).wheel = d.wheel := by
  unfold lowActs; (try dsimp only); repeat' first | with_reducible rfl | (simp; done) | split | intro _ | rw [foldl_wheel] | rw [foldl1_wheel] | rw [foldl2_wheel] | dsimp only | simp

@[simp] theorem battTurn_wheel (turn : BitVec 48) (d : Dev) (i : Nat) : (battTurn turn d i).wheel = d.wheel := by
  unfold battTurn
  extract_lets _ _ _ _ _ _ _ _ _ _ _ _ _ d1 d2
  have h1 : d1.wheel = d.wheel := rfl
  have h2 : d2.wheel = d.wheel := by simp only [d2]; split <;> simp [h1]
  split
  · simp [h2]
  · exact h2

@[simp] theorem battCutoff_wheel (i : Nat) (d : Dev) : (battCutoff i d).wheel = d.wheel := by
  unfold battCutoff; (try dsimp only); repeat' first | with_reducible rfl | (simp; done) | split | intro _ | rw [foldl_wheel] | rw [foldl1_wheel] | rw [foldl2_wheel] | dsimp only | simp

@[simp] theorem cutoffRelease_wheel (i : Nat) (d : Dev) : (cutoffRelease i d).wheel = d.wheel := by
  unfold cutoffRelease; (try dsimp only); repeat' first | with_reducible rfl | (simp; done) | split | intro _ | rw [foldl_wheel] | rw [foldl1_wheel] | rw [foldl2_wheel] | dsimp only | simp

@[simp] theorem battHintsClear_wheel (d : Dev) : (battHintsClear d).wheel = d.wheel := by
  unfold battHintsClear; simp

@[simp] theorem learnAnchor_wheel (d : Dev) (i : Nat) (a : Int) (turn : BitVec 48) : (learnAnchor d i a turn).wheel = d.wheel := by
  unfold learnAnchor; (try dsimp only); repeat' first | with_reducible rfl | (simp; done) | split | intro _ | rw [foldl_wheel] | rw [foldl1_wheel] | rw [foldl2_wheel] | dsimp only | simp

@[simp] theorem takeAnchor_wheel (d : Dev) (i : Nat) (soc sigma : Int) (turn : BitVec 48) : (takeAnchor d i soc sigma turn).wheel = d.wheel := by
  unfold takeAnchor; (try dsimp only); repeat' first | with_reducible rfl | (simp; done) | split | intro _ | rw [foldl_wheel] | rw [foldl1_wheel] | rw [foldl2_wheel] | dsimp only | simp

@[simp] theorem anchorStep_wheel (d : Dev) (i : Nat) (t : Int) (turn : BitVec 48) : (anchorStep d i t turn).wheel = d.wheel := by
  unfold anchorStep; (try dsimp only); repeat' first | with_reducible rfl | (simp; done) | split | intro _ | rw [foldl_wheel] | rw [foldl1_wheel] | rw [foldl2_wheel] | dsimp only | simp

@[simp] theorem learnStep_wheel (d : Dev) (i : Nat) (dq t ceff : Int) : (learnStep d i dq t ceff).wheel = d.wheel := by
  unfold learnStep; (try dsimp only); repeat' first | with_reducible rfl | (simp; done) | split | intro _ | rw [foldl_wheel] | rw [foldl1_wheel] | rw [foldl2_wheel] | dsimp only | simp

@[simp] theorem cycleStep_wheel (d : Dev) (i : Nat) (dis : Int) : (cycleStep d i dis).wheel = d.wheel := by
  unfold cycleStep; (try dsimp only); repeat' first | with_reducible rfl | (simp; done) | split | intro _ | rw [foldl_wheel] | rw [foldl1_wheel] | rw [foldl2_wheel] | dsimp only | simp

@[simp] theorem battTelem_wheel (d : Dev) (i : Nat) : (battTelem d i).wheel = d.wheel := by
  unfold battTelem; (try dsimp only); repeat' first | with_reducible rfl | (simp; done) | split | intro _ | rw [foldl_wheel] | rw [foldl1_wheel] | rw [foldl2_wheel] | dsimp only | simp

@[simp] theorem cutoffStep_wheel (d : Dev) (i : Nat) : (cutoffStep d i).wheel = d.wheel := by
  unfold cutoffStep; simp

@[simp] theorem restStep_wheel (d : Dev) (i : Nat) : (restStep d i).wheel = d.wheel := by
  unfold restStep; (try dsimp only); repeat' first | with_reducible rfl | (simp; done) | split | intro _ | rw [foldl_wheel] | rw [foldl1_wheel] | rw [foldl2_wheel] | dsimp only | simp

@[simp] theorem meanStep_wheel (d : Dev) (i : Nat) : (meanStep d i).wheel = d.wheel := by
  unfold meanStep; simp

@[simp] theorem battShow_wheel (d : Dev) (i : Nat) : (battShow d i).wheel = d.wheel := by
  unfold battShow; simp

@[simp] theorem battCounted_wheel (d : Dev) (i : Nat) (t : Int) (rate ceff dq db : Int) : (battCounted d i t rate ceff dq db).wheel = d.wheel := by
  unfold battCounted; simp

@[simp] theorem battAnchored_wheel (d : Dev) (i : Nat) (t ceff dq dis : Int) : (battAnchored d i t ceff dq dis).wheel = d.wheel := by
  unfold battAnchored; (try dsimp only); repeat' first | with_reducible rfl | (simp; done) | split | intro _ | rw [foldl_wheel] | rw [foldl1_wheel] | rw [foldl2_wheel] | dsimp only | simp

@[simp] theorem battEnded_wheel (d : Dev) (i : Nat) (ceff dq : Int) : (battEnded d i ceff dq).wheel = d.wheel := by
  unfold battEnded; (try dsimp only); repeat' first | with_reducible rfl | (simp; done) | split | intro _ | rw [foldl_wheel] | rw [foldl1_wheel] | rw [foldl2_wheel] | dsimp only | simp

@[simp] theorem battStep_wheel (d : Dev) (i : Nat) : (battStep d i).wheel = d.wheel := by
  unfold battStep; (repeat' split) <;> first | with_reducible rfl | (simp; done)

@[simp] theorem estimatorStep_wheel (d : Dev) : (estimatorStep d).wheel = d.wheel := by
  unfold estimatorStep; (try dsimp only); repeat' first | with_reducible rfl | (simp; done) | split | intro _ | rw [foldl_wheel] | rw [foldl1_wheel] | rw [foldl2_wheel] | dsimp only | simp

@[simp] theorem battUnanchored_wheel (i : Nat) (d : Dev) : (battUnanchored i d).wheel = d.wheel := by
  unfold battUnanchored; (repeat' split) <;> first | with_reducible rfl | (simp; done)

@[simp] theorem battPowerOn_wheel (d : Dev) (i : Nat) : (battPowerOn d i).wheel = d.wheel := by
  unfold battPowerOn; (repeat' split) <;> first | with_reducible rfl | (simp; done)

@[simp] theorem battEnable_wheel (src : Src) (d : Dev) (i : Nat) : (battEnable src d i).1.wheel = d.wheel := by
  unfold battEnable; (try dsimp only); repeat' first | with_reducible rfl | (simp; done) | split | intro _ | rw [foldl_wheel] | rw [foldl1_wheel] | rw [foldl2_wheel] | dsimp only | simp

@[simp] theorem battDisable_wheel (d : Dev) (i : Nat) : (battDisable d i).wheel = d.wheel := by
  unfold battDisable; (try dsimp only); repeat' first | with_reducible rfl | (simp; done) | split | intro _ | rw [foldl_wheel] | rw [foldl1_wheel] | rw [foldl2_wheel] | dsimp only | simp

@[simp] theorem battSetPoint_wheel (d : Dev) (i : Nat) (p0 p1 p2 : Nat) : (battSetPoint d i p0 p1 p2).1.wheel = d.wheel := by
  unfold battSetPoint; (try dsimp only); repeat' first | with_reducible rfl | (simp; done) | split | intro _ | rw [foldl_wheel] | rw [foldl1_wheel] | rw [foldl2_wheel] | dsimp only | simp

@[simp] theorem battClear_wheel (d : Dev) (i : Nat) (v : Word) : (battClear d i v).1.wheel = d.wheel := by
  unfold battClear; (try dsimp only); repeat' first | with_reducible rfl | (simp; done) | split | intro _ | rw [foldl_wheel] | rw [foldl1_wheel] | rw [foldl2_wheel] | dsimp only | simp

@[simp] theorem battFence_wheel (d : Dev) (i : Nat) : (battFence d i).wheel = d.wheel := by
  unfold battFence; simp

@[simp] theorem battSitter_wheel (d : Dev) (i : Nat) : (battSitter d i).wheel = d.wheel := by
  unfold battSitter; (repeat' split) <;> first | with_reducible rfl | (simp; done)

@[simp] theorem battRaku_wheel (d : Dev) : (battRaku d).wheel = d.wheel := by
  unfold battRaku; (try dsimp only); repeat' first | with_reducible rfl | (simp; done) | split | intro _ | rw [foldl_wheel] | rw [foldl1_wheel] | rw [foldl2_wheel] | dsimp only | simp

@[simp] theorem battColdStart_wheel (d : Dev) (i : Nat) : (battColdStart d i).wheel = d.wheel := by
  unfold battColdStart; (try dsimp only); repeat' first | with_reducible rfl | (simp; done) | split | intro _ | rw [foldl_wheel] | rw [foldl1_wheel] | rw [foldl2_wheel] | dsimp only | simp

theorem onStr_wheel (n : Nat) (f : Dev → Dev) (d : Dev) (h : (f d).wheel = d.wheel) : (onStr n f d).wheel = d.wheel := by
  unfold onStr; split <;> simp [h]

@[simp] theorem Dev.modAcc_wheel (d : Dev) (kind i : Nat) (f : LedAcc → LedAcc) : (Dev.modAcc d kind i f).wheel = d.wheel := by
  unfold Dev.modAcc; simp

@[simp] theorem ledAdd_wheel (d : Dev) (kind i : Nat) (e : Int) (dflt late : Bool) : (ledAdd d kind i e dflt late).wheel = d.wheel := by
  unfold ledAdd; simp

@[simp] theorem pathEnergy_wheel (d : Dev) (kind i : Nat) (val : Int) (span num den : Nat) (dflt late : Bool) : (pathEnergy d kind i val span num den dflt late).wheel = d.wheel := by
  unfold pathEnergy; (try dsimp only); repeat' first | with_reducible rfl | (simp; done) | split | intro _ | rw [foldl_wheel] | rw [foldl1_wheel] | rw [foldl2_wheel] | dsimp only | simp

@[simp] theorem srcPair_wheel (d : Dev) (n x : Nat) : (srcPair d n x).wheel = d.wheel := by
  unfold srcPair; (try dsimp only); repeat' first | with_reducible rfl | (simp; done) | split | intro _ | rw [foldl_wheel] | rw [foldl1_wheel] | rw [foldl2_wheel] | dsimp only | simp

@[simp] theorem ledPd_wheel (chan pos : Nat) (d : Dev) : (ledPd chan pos d).wheel = d.wheel := by
  unfold ledPd; (try dsimp only); repeat' first | with_reducible rfl | (simp; done) | split | intro _ | rw [foldl_wheel] | rw [foldl1_wheel] | rw [foldl2_wheel] | dsimp only | simp

@[simp] theorem ledRail_wheel (d : Dev) (g i : Nat) : (ledRail d g i).wheel = d.wheel := by
  unfold ledRail; (repeat' split) <;> first | with_reducible rfl | (simp; done)

@[simp] theorem ledStart_wheel (g : Nat) (d : Dev) : (ledStart g d).wheel = d.wheel := by
  unfold ledStart; (try dsimp only); repeat' first | with_reducible rfl | (simp; done) | split | intro _ | rw [foldl_wheel] | rw [foldl1_wheel] | rw [foldl2_wheel] | dsimp only | simp

@[simp] theorem ledSource_wheel (x : Nat) (w : Word) (d : Dev) : (ledSource x w d).wheel = d.wheel := by
  unfold ledSource; (try dsimp only); repeat' first | with_reducible rfl | (simp; done) | split | intro _ | rw [foldl_wheel] | rw [foldl1_wheel] | rw [foldl2_wheel] | dsimp only | simp

@[simp] theorem ledCurrent_wheel (c : Nat) (w : Word) (d : Dev) : (ledCurrent c w d).wheel = d.wheel := by
  unfold ledCurrent; simp

@[simp] theorem ledEnd_wheel (turn : BitVec 48) (latch : Bool) (d : Dev) : (ledEnd turn latch d).wheel = d.wheel := by
  unfold ledEnd; simp

@[simp] theorem ledNewTable_wheel (d : Dev) : (ledNewTable d).wheel = d.wheel := by
  unfold ledNewTable; simp

@[simp] theorem ledUnclosed_wheel (t : LedTurn) (own : Int) (d : Dev) : (ledUnclosed t own d).wheel = d.wheel := by
  unfold ledUnclosed; (try dsimp only); repeat' first | with_reducible rfl | (simp; done) | split | intro _ | rw [foldl_wheel] | rw [foldl1_wheel] | rw [foldl2_wheel] | dsimp only | simp

@[simp] theorem ledClosed_wheel (t : LedTurn) (own : Int) (d : Dev) : (ledClosed t own d).wheel = d.wheel := by
  unfold ledClosed; (try dsimp only); repeat' first | with_reducible rfl | (simp; done) | split | intro _ | rw [foldl_wheel] | rw [foldl1_wheel] | rw [foldl2_wheel] | dsimp only | simp

@[simp] theorem Dev.otherTurn_wheel (d : Dev) : (Dev.otherTurn d).wheel = d.wheel := by
  unfold Dev.otherTurn; simp

@[simp] theorem lateSettle_wheel (d0 d : Dev) : (lateSettle d0 d).wheel = d.wheel := by
  unfold lateSettle; (try dsimp only); repeat' first | with_reducible rfl | (simp; done) | split | intro _ | rw [foldl_wheel] | rw [foldl1_wheel] | rw [foldl2_wheel] | dsimp only | simp

theorem Dev.inTurn_wheel (pos : Nat) (f : Dev → Dev) (d : Dev) (h : ∀ d, (f d).wheel = d.wheel) : (Dev.inTurn pos f d).wheel = d.wheel := by
  unfold Dev.inTurn; dsimp only; split <;> simp [h]

@[simp] theorem ledBusEnds_wheel (chan pos : Nat) (d : Dev) : (ledBusEnds chan pos d).wheel = d.wheel := by
  unfold ledBusEnds; (repeat' split) <;> first | with_reducible rfl | (simp; done)

@[simp] theorem ledgerClose_wheel (pFb pHk pDrv : Nat) (d : Dev) : (ledgerClose pFb pHk pDrv d).wheel = d.wheel := by
  unfold ledgerClose; (try dsimp only); repeat' first | with_reducible rfl | (simp; done) | split | intro _ | rw [foldl_wheel] | rw [foldl1_wheel] | rw [foldl2_wheel] | dsimp only | simp

@[simp] theorem ledgUnmetered_wheel (d : Dev) : (ledgUnmetered d).wheel = d.wheel := by
  unfold ledgUnmetered; (try dsimp only); repeat' first | with_reducible rfl | (simp; done) | split | intro _ | rw [foldl_wheel] | rw [foldl1_wheel] | rw [foldl2_wheel] | dsimp only | simp

@[simp] theorem ledFence_wheel (on : Bool) (d : Dev) : (ledFence on d).wheel = d.wheel := by
  unfold ledFence; simp

@[simp] theorem zoneUpdate_wheel (cause : Word) (d : Dev) (z : Nat) : (zoneUpdate cause d z).wheel = d.wheel := by
  unfold zoneUpdate; (try dsimp only); repeat' first | with_reducible rfl | (simp; done) | split | intro _ | rw [foldl_wheel] | rw [foldl1_wheel] | rw [foldl2_wheel] | dsimp only | simp

@[simp] theorem kilnApply_wheel (cause : Word) (d : Dev) : (kilnApply cause d).wheel = d.wheel := by
  unfold kilnApply; (try dsimp only); repeat' first | with_reducible rfl | (simp; done) | split | intro _ | rw [foldl_wheel] | rw [foldl1_wheel] | rw [foldl2_wheel] | dsimp only | simp

@[simp] theorem setCone_wheel (d : Dev) (n c : Nat) (on : Bool) : (setCone d n c on).wheel = d.wheel := by
  unfold setCone; simp

@[simp] theorem disarm_wheel (d : Dev) (n : Nat) : (disarm d n).wheel = d.wheel := by
  unfold disarm; (try dsimp only); repeat' first | with_reducible rfl | (simp; done) | split | intro _ | rw [foldl_wheel] | rw [foldl1_wheel] | rw [foldl2_wheel] | dsimp only | simp

@[simp] theorem requestTd_wheel (n : Nat) (d : Dev) : (requestTd n d).wheel = d.wheel := by
  unfold requestTd; (repeat' split) <;> first | with_reducible rfl | (simp; done)

@[simp] theorem sensBreak_wheel (d : Dev) (n why : Nat) : (sensBreak d n why).wheel = d.wheel := by
  unfold sensBreak; (try dsimp only); repeat' first | with_reducible rfl | (simp; done) | split | intro _ | rw [foldl_wheel] | rw [foldl1_wheel] | rw [foldl2_wheel] | dsimp only | simp

@[simp] theorem sensGood_wheel (d : Dev) (n : Nat) (biasOk : Bool) : (sensGood d n biasOk).wheel = d.wheel := by
  unfold sensGood; (try dsimp only); repeat' first | with_reducible rfl | (simp; done) | split | intro _ | rw [foldl_wheel] | rw [foldl1_wheel] | rw [foldl2_wheel] | dsimp only | simp

@[simp] theorem tdStore_wheel (n : Nat) (rest : List Nat) (w : Word) (opn short exc : Bool) (d : Dev) :
    (tdStore n rest w opn short exc d).wheel = d.wheel := by
  unfold tdStore; simp only [Dev.tally_wheel]

@[simp] theorem tdSensor_wheel (n : Nat) (value : Int) (uv : Nat) (opn short exc biasOk : Bool) (d : Dev) :
    (tdSensor n value uv opn short exc biasOk d).wheel = d.wheel := by
  unfold tdSensor; extract_lets d1
  have h : d1.wheel = d.wheel := Dev.modSens_wheel ..
  clear_value d1
  split <;> simp [h]

@[simp] theorem tdAnswer_wheel (h w : Word) (d : Dev) : (tdAnswer h w d).wheel = d.wheel := by
  unfold tdAnswer; exact Dev.endWaits_wheel ..

@[simp] theorem tdConversionDone_wheel (value : Int) (uv : Nat) (opn short exc biasOk : Bool) (d : Dev) : (tdConversionDone value uv opn short exc biasOk d).wheel = d.wheel := by
  unfold tdConversionDone; (try dsimp only); repeat' first | with_reducible rfl | (simp [Dev.atTick_wheel, branchFollow_wheel, chanStored_wheel, Dev.inTurn_wheel, onSeq_wheel, onSet_wheel, onStr_wheel]; done) | split | (rw [foldl_wheel]; intro _ _) | (rw [foldl1_wheel]; intro _ _) | (rw [foldl2_wheel]; intro _ _) | dsimp only | simp

@[simp] theorem sensorPeriod_wheel (n : Nat) (d : Dev) : (sensorPeriod n d).wheel = d.wheel := by
  unfold sensorPeriod; (try dsimp only); repeat' first | with_reducible rfl | (simp; done) | split | intro _ | rw [foldl_wheel] | rw [foldl1_wheel] | rw [foldl2_wheel] | dsimp only | simp

@[simp] theorem noteC3_wheel (d : Dev) (n : Nat) : (noteC3 d n).wheel = d.wheel := by
  unfold noteC3; simp

@[simp] theorem railSitter_wheel (d : Dev) (i : Nat) : (railSitter d i).wheel = d.wheel := by
  unfold railSitter; (repeat' split) <;> first | with_reducible rfl | (simp; done)

@[simp] theorem sitterTrip_wheel (n : Nat) (d : Dev) : (sitterTrip n d).wheel = d.wheel := by
  unfold sitterTrip; (try dsimp only); repeat' first | with_reducible rfl | (simp; done) | split | intro _ | rw [foldl_wheel] | rw [foldl1_wheel] | rw [foldl2_wheel] | dsimp only | simp

@[simp] theorem sitterRelease_wheel (d : Dev) : (sitterRelease d).wheel = d.wheel := by
  unfold sitterRelease; (try dsimp only); repeat' first | with_reducible rfl | (simp; done) | split | intro _ | rw [foldl_wheel] | rw [foldl1_wheel] | rw [foldl2_wheel] | dsimp only | simp

@[simp] theorem coneTrip_wheel (n c : Nat) (release : Bool) (uv : Nat) (d : Dev) : (coneTrip n c release uv d).wheel = d.wheel := by
  unfold coneTrip; simp

@[simp] theorem coneConfirm_wheel (n c : Nat) (d : Dev) : (coneConfirm n c d).wheel = d.wheel := by
  unfold coneConfirm; (try dsimp only); repeat' first | with_reducible rfl | (simp; done) | split | intro _ | rw [foldl_wheel] | rw [foldl1_wheel] | rw [foldl2_wheel] | dsimp only | simp

@[simp] theorem sensLoad_wheel (d : Dev) (n : Nat) : (sensLoad d n).wheel = d.wheel := by
  unfold sensLoad; (repeat' split) <;> first | with_reducible rfl | (simp; done)

@[simp] theorem sensEnable_wheel (src : Src) (d : Dev) (n : Nat) : (sensEnable src d n).1.wheel = d.wheel := by
  unfold sensEnable; (repeat' split) <;> first | with_reducible rfl | (simp; done)

@[simp] theorem sensDisable_wheel (d : Dev) (n : Nat) : (sensDisable d n).wheel = d.wheel := by
  unfold sensDisable; (repeat' split) <;> first | with_reducible rfl | (simp; done)

@[simp] theorem sensFence_wheel (d : Dev) (n : Nat) : (sensFence d n).wheel = d.wheel := by
  unfold sensFence; (repeat' split) <;> first | with_reducible rfl | (simp; done)

@[simp] theorem kilnTurn_wheel (d : Dev) : (kilnTurn d).wheel = d.wheel := by
  unfold kilnTurn; simp

@[simp] theorem blackBoxDone_wheel (d : Dev) : (blackBoxDone d).wheel = d.wheel := by
  unfold blackBoxDone; (try dsimp only); repeat' first | with_reducible rfl | (simp; done) | split | intro _ | rw [foldl_wheel] | rw [foldl1_wheel] | rw [foldl2_wheel] | dsimp only | simp

@[simp] theorem strmLoad_wheel (d : Dev) (n : Nat) : (strmLoad d n).wheel = d.wheel := by
  unfold strmLoad; simp

@[simp] theorem strmEnable_wheel (src : Src) (d : Dev) (n : Nat) : (strmEnable src d n).1.wheel = d.wheel := by
  unfold strmEnable; (try dsimp only); repeat' first | with_reducible rfl | (simp; done) | split | intro _ | rw [foldl_wheel] | rw [foldl1_wheel] | rw [foldl2_wheel] | dsimp only | simp

@[simp] theorem netifDown_wheel (d : Dev) (n : Nat) : (netifDown d n).wheel = d.wheel := by
  unfold netifDown; (try dsimp only); repeat' first | with_reducible rfl | (simp; done) | split | intro _ | rw [foldl_wheel] | rw [foldl1_wheel] | rw [foldl2_wheel] | dsimp only | simp

@[simp] theorem strmStop_wheel (d : Dev) (n : Nat) : (strmStop d n).wheel = d.wheel := by
  unfold strmStop; (try dsimp only); repeat' first | with_reducible rfl | (simp; done) | split | intro _ | rw [foldl_wheel] | rw [foldl1_wheel] | rw [foldl2_wheel] | dsimp only | simp

@[simp] theorem strmDisable_wheel (d : Dev) (n : Nat) : (strmDisable d n).1.wheel = d.wheel := by
  unfold strmDisable; (repeat' split) <;> first | with_reducible rfl | (simp; done)

@[simp] theorem netifUsable_wheel (d : Dev) (n : Nat) : (netifUsable d n).wheel = d.wheel := by
  unfold netifUsable; simp

@[simp] theorem netLink_wheel (p : Nat) (up : Bool) (speed : Nat) (d : Dev) : (netLink p up speed d).wheel = d.wheel := by
  unfold netLink; (try dsimp only); repeat' first | with_reducible rfl | (simp; done) | split | intro _ | rw [foldl_wheel] | rw [foldl1_wheel] | rw [foldl2_wheel] | dsimp only | simp

@[simp] theorem dadComplete_wheel (p : Nat) (conflict : Bool) (d : Dev) : (dadComplete p conflict d).wheel = d.wheel := by
  unfold dadComplete; (repeat' split) <;> first | with_reducible rfl | (simp; done)

@[simp] theorem linkTimeout_wheel (p : Nat) (d : Dev) : (linkTimeout p d).wheel = d.wheel := by
  unfold linkTimeout; (repeat' split) <;> first | with_reducible rfl | (simp; done)

@[simp] theorem dtlsHello_wheel (p : Nat) (key : List Byte) (d : Dev) : (dtlsHello p key d).wheel = d.wheel := by
  unfold dtlsHello; (repeat' split) <;> first | with_reducible rfl | (simp; done)

@[simp] theorem dtlsHandshake_wheel (p : Nat) (key : List Byte) (stage : Handshake) (d : Dev) : (dtlsHandshake p key stage d).wheel = d.wheel := by
  unfold dtlsHandshake; (try dsimp only); repeat' first | with_reducible rfl | (simp; done) | split | intro _ | rw [foldl_wheel] | rw [foldl1_wheel] | rw [foldl2_wheel] | dsimp only | simp

@[simp] theorem Dev.sendOn_wheel (d : Dev) (p : Nat) (payload : List Byte) : (Dev.sendOn d p payload).wheel = d.wheel := by
  unfold Dev.sendOn; simp

@[simp] theorem answerUnheard_wheel (p : Nat) (d : Dev) : (answerUnheard p d).wheel = d.wheel := by
  unfold answerUnheard; simp

@[simp] theorem ethFrame_wheel (p length : Nat) (kind : EthKind) (time : Nat) (d : Dev) : (ethFrame p length kind time d).wheel = d.wheel := by
  unfold ethFrame; (try dsimp only); repeat' first | with_reducible rfl | (simp; done) | split | intro _ | rw [foldl_wheel] | rw [foldl1_wheel] | rw [foldl2_wheel] | dsimp only | simp

@[simp] theorem bufEnds_wheel (d : Dev) (ring : Nat) (addr : BitVec 64) : (bufEnds d ring addr).wheel = d.wheel := by
  unfold bufEnds; simp

@[simp] theorem ringFrame_wheel (fuel : Nat) (d : Dev) (ring : Nat) (frame : List Byte) (last : Bool) :
    (ringFrame fuel d ring frame last).1.wheel = d.wheel := by
  induction fuel generalizing d with
  | zero => rfl
  | succ k ih => unfold ringFrame; dsimp only; (repeat' split) <;> simp [ih]

@[simp] theorem emitFrame_wheel (resolved : Bool) (n : Nat) (d : Dev) (f : Nat × List Byte) (last : Bool) : (emitFrame resolved n d f last).1.wheel = d.wheel := by
  unfold emitFrame; (try dsimp only); repeat' first | with_reducible rfl | (simp; done) | split | intro _ | rw [foldl_wheel] | rw [foldl1_wheel] | rw [foldl2_wheel] | dsimp only | simp

@[simp] theorem emitFrames_wheel (resolved : Bool) (n : Nat) (d : Dev) (l : List (Nat × List Byte)) :
    (emitFrames resolved n d l).1.wheel = d.wheel := by
  induction l generalizing d with
  | nil => rfl
  | cons a l ih =>
    unfold emitFrames
    simp only []
    rw [ih, emitFrame_wheel]

@[simp] theorem streamEmission_wheel (block : Dev → Word → Nat → List Byte) (n : Nat) (resolved : Bool) (d : Dev) : (streamEmission block n resolved d).wheel = d.wheel := by
  unfold streamEmission; (try dsimp only); repeat' first | with_reducible rfl | (simp; done) | split | intro _ | rw [foldl_wheel] | rw [foldl1_wheel] | rw [foldl2_wheel] | dsimp only | simp

@[simp] theorem portDeliver_wheel (l : Nat) (dflt : Bool) (d : Dev) (k : Nat) : (portDeliver l dflt d k).wheel = d.wheel := by
  unfold portDeliver; (try dsimp only); repeat' first | with_reducible rfl | (simp; done) | split | intro _ | rw [foldl_wheel] | rw [foldl1_wheel] | rw [foldl2_wheel] | dsimp only | simp

@[simp] theorem loopFence_wheel (d : Dev) (l : Nat) : (loopFence d l).wheel = d.wheel := by
  unfold loopFence; (try dsimp only); repeat' first | with_reducible rfl | (simp; done) | split | intro _ | rw [foldl_wheel] | rw [foldl1_wheel] | rw [foldl2_wheel] | dsimp only | simp

@[simp] theorem railFence_wheel (d : Dev) (i : Nat) : (railFence d i).wheel = d.wheel := by
  unfold railFence; (repeat' split) <;> first | with_reducible rfl | (simp; done)

@[simp] theorem safeState_wheel (d : Dev) (t i : Nat) : (safeState d t i).wheel = d.wheel := by
  unfold safeState; (try dsimp only); repeat' first | with_reducible rfl | (simp; done) | split | intro _ | rw [foldl_wheel] | rw [foldl1_wheel] | rw [foldl2_wheel] | dsimp only | simp

@[simp] theorem fenceWaits_wheel (d : Dev) (t i : Nat) : (fenceWaits d t i).wheel = d.wheel := by
  unfold fenceWaits; (try dsimp only); repeat' first | with_reducible rfl | (simp; done) | split | intro _ | rw [foldl_wheel] | rw [foldl1_wheel] | rw [foldl2_wheel] | dsimp only | simp

@[simp] theorem fenceHandle_wheel (t i cause : Nat) (d : Dev) : (fenceHandle t i cause d).wheel = d.wheel := by
  unfold fenceHandle; (repeat' split) <;> first | with_reducible rfl | (simp; done)

@[simp] theorem fenceOwner_wheel (id : LoopId) (cause : Nat) (d : Dev) : (fenceOwner id cause d).wheel = d.wheel := by
  unfold fenceOwner; simp

@[simp] theorem Dev.modLine_wheel (d : Dev) (b i : Nat) (f : SramLine → SramLine) : (Dev.modLine d b i f).wheel = d.wheel := by
  unfold Dev.modLine; simp

@[simp] theorem Dev.putLine_wheel (d : Dev) (b i : Nat) (ws : List (BitVec 64)) : (Dev.putLine d b i ws).wheel = d.wheel := by
  unfold Dev.putLine; (try dsimp only); repeat' first | with_reducible rfl | (simp; done) | split | intro _ | rw [foldl_wheel] | rw [foldl1_wheel] | rw [foldl2_wheel] | dsimp only | simp

@[simp] theorem Dev.rewriteP_wheel (d : Dev) (b i : Nat) (ws : List (BitVec 64)) : (Dev.rewriteP d b i ws).wheel = d.wheel := by
  unfold Dev.rewriteP; simp

@[simp] theorem Dev.writeLine_wheel (d : Dev) (b i : Nat) (old : Option (List (BitVec 64))) (ws : List (BitVec 64)) : (Dev.writeLine d b i old ws).wheel = d.wheel := by
  unfold Dev.writeLine; (try dsimp only); repeat' first | with_reducible rfl | (simp; done) | split | intro _ | rw [foldl_wheel] | rw [foldl1_wheel] | rw [foldl2_wheel] | dsimp only | simp

@[simp] theorem setReady_wheel (on : Bool) (d : Dev) : (setReady on d).wheel = d.wheel := by
  unfold setReady; (repeat' split) <;> first | with_reducible rfl | (simp; done)

@[simp] theorem mgmtHalt_wheel (d : Dev) : (mgmtHalt d).wheel = d.wheel := by
  unfold mgmtHalt; (try dsimp only); repeat' first | with_reducible rfl | (simp; done) | split | intro _ | rw [foldl_wheel] | rw [foldl1_wheel] | rw [foldl2_wheel] | dsimp only | simp

@[simp] theorem fenceBuffers_wheel (d : Dev) : (fenceBuffers d).wheel = d.wheel := by
  unfold fenceBuffers; simp

@[simp] theorem coreAborts_wheel (d : Dev) : (coreAborts d).wheel = d.wheel := by
  unfold coreAborts; (try dsimp only); repeat' first | with_reducible rfl | (simp; done) | split | intro _ | rw [foldl_wheel] | rw [foldl1_wheel] | rw [foldl2_wheel] | dsimp only | simp

@[simp] theorem unitSafe_wheel (u : Nat) (d : Dev) : (unitSafe u d).wheel = d.wheel := by
  unfold unitSafe; (try dsimp only); repeat' first | with_reducible rfl | (simp; done) | split | intro _ | rw [foldl_wheel] | rw [foldl1_wheel] | rw [foldl2_wheel] | dsimp only | simp

@[simp] theorem fenceUnit_wheel (u cause : Nat) (d : Dev) : (fenceUnit u cause d).wheel = d.wheel := by
  unfold fenceUnit; (try dsimp only); repeat' first | with_reducible rfl | (simp; done) | split | intro _ | rw [foldl_wheel] | rw [foldl1_wheel] | rw [foldl2_wheel] | dsimp only | simp

@[simp] theorem clearPoison_wheel (mine : PoisonLine → Bool) (d : Dev) : (clearPoison mine d).wheel = d.wheel := by
  unfold clearPoison; (try dsimp only); repeat' first | with_reducible rfl | (simp; done) | split | intro _ | rw [foldl_wheel] | rw [foldl1_wheel] | rw [foldl2_wheel] | dsimp only | simp

@[simp] theorem clearHandlePoison_wheel (t i : Nat) (d : Dev) : (clearHandlePoison t i d).wheel = d.wheel := by
  unfold clearHandlePoison; simp

@[simp] theorem clearRegion_wheel (r : Nat) (d : Dev) : (clearRegion r d).wheel = d.wheel := by
  unfold clearRegion; (try dsimp only); repeat' first | with_reducible rfl | (simp [Dev.atTick_wheel, branchFollow_wheel, chanStored_wheel, Dev.inTurn_wheel, onSeq_wheel, onSet_wheel, onStr_wheel]; done) | split | (rw [foldl_wheel]; intro _ _) | (rw [foldl1_wheel]; intro _ _) | (rw [foldl2_wheel]; intro _ _) | dsimp only | simp

@[simp] theorem unitRestart_wheel (d : Dev) (u : Nat) : (unitRestart d u).wheel = d.wheel := by
  unfold unitRestart; (repeat' split) <;> first | with_reducible rfl | (simp; done)

@[simp] theorem unitRestartsAtRound_wheel (d : Dev) : (unitRestartsAtRound d).wheel = d.wheel := by
  unfold unitRestartsAtRound; (try dsimp only); repeat' first | with_reducible rfl | (simp; done) | split | intro _ | rw [foldl_wheel] | rw [foldl1_wheel] | rw [foldl2_wheel] | dsimp only | simp

@[simp] theorem coresRestart_wheel (d : Dev) : (coresRestart d).wheel = d.wheel := by
  unfold coresRestart; simp

@[simp] theorem unitWatchdog_wheel (u : Nat) (d : Dev) : (unitWatchdog u d).wheel = d.wheel := by
  unfold unitWatchdog; (repeat' split) <;> first | with_reducible rfl | (simp; done)

@[simp] theorem retireLane_wheel (n : Nat) (d : Dev) : (retireLane n d).wheel = d.wheel := by
  unfold retireLane; (try dsimp only); repeat' first | with_reducible rfl | (simp; done) | split | intro _ | rw [foldl_wheel] | rw [foldl1_wheel] | rw [foldl2_wheel] | dsimp only | simp

@[simp] theorem flueCrcFail_wheel (n run : Nat) (d : Dev) : (flueCrcFail n run d).wheel = d.wheel := by
  unfold flueCrcFail; (try dsimp only); repeat' first | with_reducible rfl | (simp; done) | split | intro _ | rw [foldl_wheel] | rw [foldl1_wheel] | rw [foldl2_wheel] | dsimp only | simp

@[simp] theorem fencePoison_wheel (o : SramOwner) (d : Dev) : (fencePoison o d).wheel = d.wheel := by
  unfold fencePoison; (repeat' split) <;> first | rfl | simp

@[simp] theorem bankTrouble_wheel (b : Nat) (d : Dev) : (bankTrouble b d).wheel = d.wheel := by
  unfold bankTrouble; (try dsimp only); repeat' first | with_reducible rfl | (simp; done) | split | intro _ | rw [foldl_wheel] | rw [foldl1_wheel] | rw [foldl2_wheel] | dsimp only | simp

@[simp] theorem lineRebuilt_wheel (b : Nat) (d : Dev) : (lineRebuilt b d).wheel = d.wheel := by
  unfold lineRebuilt; (try dsimp only); repeat' first | with_reducible rfl | (simp; done) | split | intro _ | rw [foldl_wheel] | rw [foldl1_wheel] | rw [foldl2_wheel] | dsimp only | simp

@[simp] theorem linePoison_wheel (b i : Nat) (d : Dev) : (linePoison b i d).wheel = d.wheel := by
  unfold linePoison; (try dsimp only); repeat' first | with_reducible rfl | (simp; done) | split | intro _ | rw [foldl_wheel] | rw [foldl1_wheel] | rw [foldl2_wheel] | dsimp only | simp

@[simp] theorem noteRead_wheel (b : Nat) (x : LineData) (d : Dev) : (noteRead b x d).wheel = d.wheel := by
  unfold noteRead; (repeat' split) <;> first | with_reducible rfl | (simp; done)

@[simp] theorem reconstruct_wheel (b i : Nat) (d : Dev) : (reconstruct b i d).2.wheel = d.wheel := by
  unfold reconstruct; (try dsimp only); repeat' first | with_reducible rfl | (simp [Dev.atTick_wheel, branchFollow_wheel, chanStored_wheel, Dev.inTurn_wheel, onSeq_wheel, onSet_wheel, onStr_wheel]; done) | split | (rw [foldl_wheel]; intro _ _) | (rw [foldl1_wheel]; intro _ _) | (rw [foldl2_wheel]; intro _ _) | dsimp only | simp

@[simp] theorem lineFetch_wheel (back : Bool) (b i : Nat) (d : Dev) : (lineFetch back b i d).2.wheel = d.wheel := by
  unfold lineFetch; (try dsimp only); repeat' first | with_reducible rfl | (simp [Dev.atTick_wheel, branchFollow_wheel, chanStored_wheel, Dev.inTurn_wheel, onSeq_wheel, onSet_wheel, onStr_wheel]; done) | split | (rw [foldl_wheel]; intro _ _) | (rw [foldl1_wheel]; intro _ _) | (rw [foldl2_wheel]; intro _ _) | dsimp only | simp

@[simp] theorem countConsumed_wheel (d : Dev) : (countConsumed d).wheel = d.wheel := by
  unfold countConsumed; simp

@[simp] theorem lineWrite_wheel (b i off : Nat) (bytes : List Byte) (writer : SramOwner) (d : Dev) : (lineWrite b i off bytes writer d).wheel = d.wheel := by
  unfold lineWrite; (try dsimp only); repeat' first | with_reducible rfl | (simp [Dev.atTick_wheel, branchFollow_wheel, chanStored_wheel, Dev.inTurn_wheel, onSeq_wheel, onSet_wheel, onStr_wheel]; done) | split | (rw [foldl_wheel]; intro _ _) | (rw [foldl1_wheel]; intro _ _) | (rw [foldl2_wheel]; intro _ _) | dsimp only | simp

@[simp] theorem lineEvent_wheel (e : LineEvent) (d : Dev) : (lineEvent e d).wheel = d.wheel := by
  unfold lineEvent; (repeat' split) <;> first | with_reducible rfl | (simp; done)

@[simp] theorem lineEvents_wheel (es : List LineEvent) (d : Dev) : (lineEvents es d).wheel = d.wheel := by
  unfold lineEvents; (try dsimp only); repeat' first | with_reducible rfl | (simp; done) | split | intro _ | rw [foldl_wheel] | rw [foldl1_wheel] | rw [foldl2_wheel] | dsimp only | simp

@[simp] theorem lineConsumed_wheel (r : LineRead) (fenced : Bool) (d : Dev) : (lineConsumed r fenced d).wheel = d.wheel := by
  unfold lineConsumed; (repeat' split) <;> first | with_reducible rfl | (simp; done)

@[simp] theorem lineRead_wheel (es : List LineEvent) (r : LineRead) (d : Dev) : (lineRead es r d).wheel = d.wheel := by
  unfold lineRead; (try dsimp only); repeat' first | with_reducible rfl | (simp [Dev.atTick_wheel, branchFollow_wheel, chanStored_wheel, Dev.inTurn_wheel, onSeq_wheel, onSet_wheel, onStr_wheel]; done) | split | (rw [foldl_wheel]; intro _ _) | (rw [foldl1_wheel]; intro _ _) | (rw [foldl2_wheel]; intro _ _) | dsimp only | simp

@[simp] theorem scrubLine_wheel (i : Nat) (d : Dev) (b : Nat) : (scrubLine i d b).wheel = d.wheel := by
  unfold scrubLine; (try dsimp only); repeat' first | with_reducible rfl | (simp [Dev.atTick_wheel, branchFollow_wheel, chanStored_wheel, Dev.inTurn_wheel, onSeq_wheel, onSet_wheel, onStr_wheel]; done) | split | (rw [foldl_wheel]; intro _ _) | (rw [foldl1_wheel]; intro _ _) | (rw [foldl2_wheel]; intro _ _) | dsimp only | simp

@[simp] theorem scrubOne_wheel (d : Dev) (i : Nat) : (scrubOne d i).wheel = d.wheel := by
  unfold scrubOne; (try dsimp only); repeat' first | with_reducible rfl | (simp; done) | split | intro _ | rw [foldl_wheel] | rw [foldl1_wheel] | rw [foldl2_wheel] | dsimp only | simp

@[simp] theorem rebuildStep_wheel (d : Dev) (p : Nat × Nat) : (rebuildStep d p).wheel = d.wheel := by
  unfold rebuildStep; (try dsimp only); repeat' first | with_reducible rfl | (simp; done) | split | intro _ | rw [foldl_wheel] | rw [foldl1_wheel] | rw [foldl2_wheel] | dsimp only | simp

@[simp] theorem scrub_wheel (es : List LineEvent) (d : Dev) : (scrub es d).wheel = d.wheel := by
  unfold scrub; (try dsimp only); repeat' first | with_reducible rfl | (simp; done) | split | intro _ | rw [foldl_wheel] | rw [foldl1_wheel] | rw [foldl2_wheel] | dsimp only | simp

@[simp] theorem bankRebuild_wheel (b : Nat) (d : Dev) : (bankRebuild b d).wheel = d.wheel := by
  unfold bankRebuild; simp

@[simp] theorem saggarTurn_wheel (d : Dev) : (saggarTurn d).wheel = d.wheel := by
  unfold saggarTurn; simp

@[simp] theorem throwMemError_wheel (corrected : Bool) (lane : Nat) (owner : LoopId) (coef : Bool) (d : Dev) : (throwMemError corrected lane owner coef d).wheel = d.wheel := by
  unfold throwMemError; (try dsimp only); repeat' first | with_reducible rfl | (simp; done) | split | intro _ | rw [foldl_wheel] | rw [foldl1_wheel] | rw [foldl2_wheel] | dsimp only | simp

@[simp] theorem rejectSlot_wheel (s : Nat) (d : Dev) : (rejectSlot s d).wheel = d.wheel := by
  unfold rejectSlot; simp

@[simp] theorem rejectUnsound_wheel (d : Dev) (s : Nat) : (rejectUnsound d s).wheel = d.wheel := by
  unfold rejectUnsound; (repeat' split) <;> first | with_reducible rfl | (simp; done)

@[simp] theorem imgRefused_wheel (d : Dev) (st : Status) (result : Nat) : (imgRefused d st result).1.wheel = d.wheel := by
  unfold imgRefused; (repeat' split) <;> first | with_reducible rfl | (simp; done)

@[simp] theorem imgSherd_wheel (src : Src) (n : Nat) (restart : Bool) (bytes : List Byte) (d : Dev) :
    (imgSherd src n restart bytes d).1.wheel = d.wheel := by
  unfold imgSherd
  extract_lets held missing beyond
  split
  · simp
  · extract_lets s green manifest refusal
    clear_value refusal
    cases refusal <;> repeat' first | with_reducible rfl | (simp; done) | (simp +zetaDelta; done) | split | dsimp only

@[simp] theorem sherdWriteDone_wheel (ok : Bool) (d : Dev) : (sherdWriteDone ok d).wheel = d.wheel := by
  unfold sherdWriteDone
  split
  · rfl
  · extract_lets _ d1 answer
    have ha : ∀ e st, (answer e st).wheel = e.wheel := fun e st => Dev.endWaits_wheel ..
    have h1 : d1.wheel = d.wheel := Dev.tally_wheel ..
    clear_value answer d1
    repeat' first | (simp [ha, h1]; done) | (simp +zetaDelta [ha, h1]; done) | split | (simp +zetaDelta only [ha]; split)

@[simp] theorem slotEraseDone_wheel (s : Nat) (d : Dev) : (slotEraseDone s d).wheel = d.wheel := by
  unfold slotEraseDone; (try dsimp only); repeat' first | with_reducible rfl | (simp; done) | split | intro _ | rw [foldl_wheel] | rw [foldl1_wheel] | rw [foldl2_wheel] | dsimp only | simp

@[simp] theorem beginStart_wheel (st : StartRt) (src : Src) (k : WaitKind) (d : Dev) : (beginStart st src k d).1.wheel = d.wheel := by
  unfold beginStart; simp

@[simp] theorem imgActivate_wheel (src : Src) (p0 : Word) (d : Dev) : (imgActivate src p0 d).1.wheel = d.wheel := by
  unfold imgActivate; (try dsimp only); repeat' first | with_reducible rfl | (simp; done) | split | intro _ | rw [foldl_wheel] | rw [foldl1_wheel] | rw [foldl2_wheel] | dsimp only | simp

@[simp] theorem imgRollback_wheel (src : Src) (d : Dev) : (imgRollback src d).1.wheel = d.wheel := by
  unfold imgRollback; (repeat' split) <;> first | with_reducible rfl | (simp; done)

@[simp] theorem warmStart_wheel (src : Src) (d : Dev) : (warmStart src d).1.wheel = d.wheel := by
  unfold warmStart; (try dsimp only); repeat' first | with_reducible rfl | (simp; done) | split | intro _ | rw [foldl_wheel] | rw [foldl1_wheel] | rw [foldl2_wheel] | dsimp only | simp

@[simp] theorem copyDone_wheel (tick : Nat) (d : Dev) : (copyDone tick d).wheel = d.wheel := by
  unfold copyDone; (try dsimp only); repeat' first | with_reducible rfl | (simp [Dev.atTick_wheel, branchFollow_wheel, chanStored_wheel, Dev.inTurn_wheel, onSeq_wheel, onSet_wheel, onStr_wheel]; done) | split | (rw [foldl_wheel]; intro _ _) | (rw [foldl1_wheel]; intro _ _) | (rw [foldl2_wheel]; intro _ _) | dsimp only | simp

@[simp] theorem holdCommands_wheel (d : Dev) : (holdCommands d).wheel = d.wheel := by
  unfold holdCommands; (repeat' split) <;> first | with_reducible rfl | (simp; done)

@[simp] theorem heartbeat_wheel (d : Dev) : (heartbeat d).wheel = d.wheel := by
  unfold heartbeat; (try dsimp only); repeat' first | with_reducible rfl | (simp; done) | split | intro _ | rw [foldl_wheel] | rw [foldl1_wheel] | rw [foldl2_wheel] | dsimp only | simp

@[simp] theorem handoverBoundary_wheel (d : Dev) : (handoverBoundary d).wheel = d.wheel := by
  unfold handoverBoundary; (repeat' split) <;> first | with_reducible rfl | (simp; done)

@[simp] theorem abortHeld_wheel (d : Dev) : (abortHeld d).wheel = d.wheel := by
  unfold abortHeld; simp

@[simp] theorem abortHeldBox_wheel (peer : Bool) (d : Dev) : (abortHeldBox peer d).wheel = d.wheel := by
  unfold abortHeldBox; (repeat' split) <;> first | with_reducible rfl | (simp; done)

@[simp] theorem coldStart_wheel (all : Bool) (d : Dev) : (coldStart all d).wheel = d.wheel := by
  unfold coldStart; (try dsimp only); repeat' first | with_reducible rfl | (simp; done) | split | intro _ | rw [foldl_wheel] | rw [foldl1_wheel] | rw [foldl2_wheel] | dsimp only | simp

@[simp] theorem startRoles_wheel (st : StartRt) (d : Dev) : (startRoles st d).wheel = d.wheel := by
  unfold startRoles; (repeat' split) <;> first | with_reducible rfl | (simp; done)

@[simp] theorem newImageStart_wheel (recordsOk : Bool) (d : Dev) : (newImageStart recordsOk d).wheel = d.wheel := by
  unfold newImageStart; (try dsimp only); repeat' first | with_reducible rfl | (simp [Dev.atTick_wheel, branchFollow_wheel, chanStored_wheel, Dev.inTurn_wheel, onSeq_wheel, onSet_wheel, onStr_wheel]; done) | split | (rw [foldl_wheel]; intro _ _) | (rw [foldl1_wheel]; intro _ _) | (rw [foldl2_wheel]; intro _ _) | dsimp only | simp

@[simp] theorem mgmtReady_wheel (d : Dev) : (mgmtReady d).wheel = d.wheel := by
  unfold mgmtReady; (try dsimp only); repeat' first | with_reducible rfl | (simp; done) | split | intro _ | rw [foldl_wheel] | rw [foldl1_wheel] | rw [foldl2_wheel] | dsimp only | simp

@[simp] theorem fireboxSwitch_wheel (d : Dev) : (fireboxSwitch d).wheel = d.wheel := by
  unfold fireboxSwitch; (repeat' split) <;> first | with_reducible rfl | (simp; done)

@[simp] theorem fireboxRevert_wheel (d : Dev) : (fireboxRevert d).wheel = d.wheel := by
  unfold fireboxRevert; (repeat' split) <;> first | with_reducible rfl | (simp; done)

@[simp] theorem imageConfirmed_wheel (firebox : Bool) (d : Dev) : (imageConfirmed firebox d).wheel = d.wheel := by
  unfold imageConfirmed; (try dsimp only); repeat' first | with_reducible rfl | (simp; done) | split | intro _ | rw [foldl_wheel] | rw [foldl1_wheel] | rw [foldl2_wheel] | dsimp only | simp

@[simp] theorem startCold_wheel (slot last : Nat) (d : Dev) : (startCold slot last d).wheel = d.wheel := by
  unfold startCold; simp

@[simp] theorem failedBoot_wheel (d : Dev) : (failedBoot d).wheel = d.wheel := by
  unfold failedBoot; (try dsimp only); repeat' first | with_reducible rfl | (simp; done) | split | intro _ | rw [foldl_wheel] | rw [foldl1_wheel] | rw [foldl2_wheel] | dsimp only | simp

@[simp] theorem chooseImage_wheel (d : Dev) : (chooseImage d).wheel = d.wheel := by
  unfold chooseImage; (try dsimp only); repeat' first | with_reducible rfl | (simp; done) | split | intro _ | rw [foldl_wheel] | rw [foldl1_wheel] | rw [foldl2_wheel] | dsimp only | simp

@[simp] theorem restartCold_wheel (d : Dev) : (restartCold d).wheel = d.wheel := by
  unfold restartCold; (repeat' split) <;> first | with_reducible rfl | (simp; done)

@[simp] theorem safeHold_wheel (d : Dev) : (safeHold d).wheel = d.wheel := by
  unfold safeHold; (repeat' split) <;> first | with_reducible rfl | (simp; done)

@[simp] theorem imageTurn_wheel (beat : Bool) (d : Dev) : (imageTurn beat d).wheel = d.wheel := by
  unfold imageTurn; simp

@[simp] theorem Dev.twbCount_wheel (d : Dev) (off : Nat) : (Dev.twbCount d off).wheel = d.wheel := by
  unfold Dev.twbCount; (repeat' split) <;> first | with_reducible rfl | (simp; done)

@[simp] theorem statusChanges_wheel (n a status : Nat) (d : Dev) : (statusChanges n a status d).wheel = d.wheel := by
  unfold statusChanges; (repeat' split) <;> first | with_reducible rfl | (simp; done)

@[simp] theorem Dev.sendTo_wheel (d : Dev) (a : Nat) (bs : List Byte) : (Dev.sendTo d a bs).wheel = d.wheel := by
  unfold Dev.sendTo; simp

@[simp] theorem clearFaults_wheel (n : Nat) (d : Dev) : (clearFaults n d).wheel = d.wheel := by
  unfold clearFaults; (try dsimp only); repeat' first | with_reducible rfl | (simp; done) | split | intro _ | rw [foldl_wheel] | rw [foldl1_wheel] | rw [foldl2_wheel] | dsimp only | simp

@[simp] theorem moduleDiscovery_wheel (a : Nat) (reply : Option (Nat × Nat)) (d : Dev) : (moduleDiscovery a reply d).wheel = d.wheel := by
  unfold moduleDiscovery; (try dsimp only); repeat' first | with_reducible rfl | (simp; done) | split | intro _ | rw [foldl_wheel] | rw [foldl1_wheel] | rw [foldl2_wheel] | dsimp only | simp

@[simp] theorem pollFails_wheel (n a : Nat) (d : Dev) : (pollFails n a d).wheel = d.wheel := by
  unfold pollFails; (try dsimp only); repeat' first | with_reducible rfl | (simp; done) | split | intro _ | rw [foldl_wheel] | rw [foldl1_wheel] | rw [foldl2_wheel] | dsimp only | simp

@[simp] theorem writeFails_wheel (n a cmd : Nat) (d : Dev) : (writeFails n a cmd d).wheel = d.wheel := by
  unfold writeFails; simp

@[simp] theorem pollReadBack_wheel (n a : Nat) (r : PollReads) (d : Dev) : (pollReadBack n a r d).wheel = d.wheel := by
  unfold pollReadBack; (try dsimp only); repeat' first | with_reducible rfl | (simp; done) | split | intro _ | rw [foldl_wheel] | rw [foldl1_wheel] | rw [foldl2_wheel] | dsimp only | simp

@[simp] theorem pollModule_wheel (n a : Nat) (r : Option PollReads) (d : Dev) : (pollModule n a r d).wheel = d.wheel := by
  unfold pollModule; (try dsimp only); repeat' first | with_reducible rfl | (simp; done) | split | intro _ | rw [foldl_wheel] | rw [foldl1_wheel] | rw [foldl2_wheel] | dsimp only | simp

@[simp] theorem pollCycle_wheel (polls : List (Nat × Option PollReads)) (peer : Bool) (d : Dev) : (pollCycle polls peer d).wheel = d.wheel := by
  unfold pollCycle; (try dsimp only); repeat' first | with_reducible rfl | (simp; done) | split | intro _ | rw [foldl_wheel] | rw [foldl1_wheel] | rw [foldl2_wheel] | dsimp only | simp

@[simp] theorem moduleWrite_wheel (a : Nat) (nack : Option Nat) (d : Dev) : (moduleWrite a nack d).wheel = d.wheel := by
  unfold moduleWrite; (try dsimp only); repeat' first | with_reducible rfl | (simp; done) | split | intro _ | rw [foldl_wheel] | rw [foldl1_wheel] | rw [foldl2_wheel] | dsimp only | simp

@[simp] theorem modPrune_wheel (d : Dev) : (modPrune d).wheel = d.wheel := by
  unfold modPrune; simp

@[simp] theorem modBankTaken_wheel (n : Nat) (d : Dev) : (modBankTaken n d).wheel = d.wheel := by
  unfold modBankTaken; (try dsimp only); repeat' first | with_reducible rfl | (simp; done) | split | intro _ | rw [foldl_wheel] | rw [foldl1_wheel] | rw [foldl2_wheel] | dsimp only | simp

@[simp] theorem modTurn_wheel (d : Dev) : (modTurn d).wheel = d.wheel := by
  unfold modTurn; simp

@[simp] theorem boxWrite_wheel (peer : Bool) (d : Dev) : (boxWrite peer d).wheel = d.wheel := by
  unfold boxWrite; (repeat' split) <;> first | with_reducible rfl | (simp; done)

@[simp] theorem frameError_wheel (peer : Bool) (code : Nat) (d : Dev) : (frameError peer code d).wheel = d.wheel := by
  unfold frameError; simp

@[simp] theorem mboxRead_wheel (peer : Bool) (count : Nat) (d : Dev) : (mboxRead peer count d).wheel = d.wheel := by
  unfold mboxRead; (try dsimp only); repeat' first | with_reducible rfl | (simp; done) | split | intro _ | rw [foldl_wheel] | rw [foldl1_wheel] | rw [foldl2_wheel] | dsimp only | simp

@[simp] theorem mboxReread_wheel (peer : Bool) (d : Dev) : (mboxReread peer d).wheel = d.wheel := by
  unfold mboxReread; simp

@[simp] theorem mboxDiscard_wheel (peer : Bool) (d : Dev) : (mboxDiscard peer d).wheel = d.wheel := by
  unfold mboxDiscard; simp

@[simp] theorem mboxFault_wheel (peer : Bool) (f : FrameFault) (d : Dev) : (mboxFault peer f d).wheel = d.wheel := by
  unfold mboxFault; (repeat' split) <;> first | with_reducible rfl | (simp; done)

@[simp] theorem alertResponse_wheel (d : Dev) : (alertResponse d).wheel = d.wheel := by
  unfold alertResponse; (repeat' split) <;> first | with_reducible rfl | (simp; done)

@[simp] theorem attentionPulse_wheel (time : Nat) (d : Dev) : (attentionPulse time d).wheel = d.wheel := by
  unfold attentionPulse; (try dsimp only); repeat' first | with_reducible rfl | (simp; done) | split | intro _ | rw [foldl_wheel] | rw [foldl1_wheel] | rw [foldl2_wheel] | dsimp only | simp

@[simp] theorem pulseCollision_wheel (d : Dev) : (pulseCollision d).wheel = d.wheel := by
  unfold pulseCollision; (repeat' split) <;> first | with_reducible rfl | (simp; done)

@[simp] theorem abandon_wheel (a : Nat) (d : Dev) : (abandon a d).wheel = d.wheel := by
  unfold abandon; simp

@[simp] theorem onTransaction_wheel (a : Nat) (d : Dev) : (onTransaction a d).wheel = d.wheel := by
  unfold onTransaction; (repeat' split) <;> first | with_reducible rfl | (simp; done)

@[simp] theorem twbTimeout_wheel (peer controller : Bool) (a : Nat) (d : Dev) : (twbTimeout peer controller a d).wheel = d.wheel := by
  unfold twbTimeout; (repeat' split) <;> first | with_reducible rfl | (simp; done)

@[simp] theorem twbAbort_wheel (peer controller : Bool) (a : Nat) (d : Dev) : (twbAbort peer controller a d).wheel = d.wheel := by
  unfold twbAbort; (try dsimp only); repeat' first | with_reducible rfl | (simp; done) | split | intro _ | rw [foldl_wheel] | rw [foldl1_wheel] | rw [foldl2_wheel] | dsimp only | simp

@[simp] theorem busClear_wheel (cleared : Bool) (a : Nat) (d : Dev) : (busClear cleared a d).wheel = d.wheel := by
  unfold busClear; (repeat' split) <;> first | with_reducible rfl | (simp; done)

@[simp] theorem arbitrationLost_wheel (served : Bool) (a : Nat) (d : Dev) : (arbitrationLost served a d).wheel = d.wheel := by
  unfold arbitrationLost; (try dsimp only); repeat' first | with_reducible rfl | (simp; done) | split | intro _ | rw [foldl_wheel] | rw [foldl1_wheel] | rw [foldl2_wheel] | dsimp only | simp

@[simp] theorem noteSitter_wheel (was : Bool) (d : Dev) : (noteSitter was d).wheel = d.wheel := by
  unfold noteSitter; (repeat' split) <;> first | with_reducible rfl | (simp; done)

@[simp] theorem talZero_wheel (d : Dev) : (talZero d).wheel = d.wheel := by
  unfold talZero; simp

@[simp] theorem talCarried_wheel (d x : Dev) : (talCarried d x).wheel = x.wheel := by
  unfold talCarried; simp

@[simp] theorem tallyTurn_wheel (d : Dev) : (tallyTurn d).wheel = d.wheel := by
  have h : ∀ (d : Dev) (t : Tally), ({ d with tal := t } : Dev).wheel = d.wheel := fun _ _ => rfl
  have g : (uncounted.foldl (fun (d : Dev) bc => let (n, d) := d.freeBits 26; d.tally bc.1 bc.2 n) (laneSync d)).wheel = d.wheel := by
    rw [foldl_wheel]
    · exact laneSync_wheel d
    · intro d a
      exact Dev.tally_wheel ..
  unfold tallyTurn
  exact (h _ _).trans g

@[simp] theorem tallyGather_wheel (d : Dev) : (tallyGather d).wheel = d.wheel := by
  unfold tallyGather; (repeat' split) <;> first | with_reducible rfl | (simp; done)

@[simp] theorem tallyRound_wheel (d : Dev) : (tallyRound d).wheel = d.wheel := by
  unfold tallyRound; (try dsimp only); repeat' first | with_reducible rfl | (simp; done) | split | intro _ | rw [foldl_wheel] | rw [foldl1_wheel] | rw [foldl2_wheel] | dsimp only | simp

@[simp] theorem fbChange_wheel (k : Nat) (f : FbSet → FbSet) (d : Dev) : (fbChange k f d).wheel = d.wheel := by
  unfold fbChange; (repeat' split) <;> first | with_reducible rfl | (simp; done)

@[simp] theorem fbCycRead_wheel (k : Nat) (d : Dev) : (fbCycRead k d).wheel = d.wheel := by
  unfold fbCycRead; simp

@[simp] theorem fbCntRead_wheel (k j : Nat) (d : Dev) : (fbCntRead k j d).wheel = d.wheel := by
  unfold fbCntRead; simp

@[simp] theorem fbClear_wheel (k : Nat) (d : Dev) : (fbClear k d).wheel = d.wheel := by
  unfold fbClear; simp

@[simp] theorem fbFreeze_wheel (k : Nat) (on : Bool) (d : Dev) : (fbFreeze k on d).wheel = d.wheel := by
  unfold fbFreeze; simp

@[simp] theorem fbSelect_wheel (k : Nat) (sel : List Nat) (d : Dev) : (fbSelect k sel d).wheel = d.wheel := by
  unfold fbSelect; simp

@[simp] theorem tagIssue_wheel (lane : Nat) (builtin cancelled : Bool) (handle : Word) (d : Dev) (i : Nat × Nat × Bool) : (tagIssue lane builtin cancelled handle d i).wheel = d.wheel := by
  unfold tagIssue; (try dsimp only); repeat' first | with_reducible rfl | (simp; done) | split | intro _ | rw [foldl_wheel] | rw [foldl1_wheel] | rw [foldl2_wheel] | dsimp only | simp

@[simp] theorem submitDoorbell_wheel (n : Nat) (value : Word) (d : Dev) : (submitDoorbell n value d).wheel = d.wheel := by
  unfold submitDoorbell; (try dsimp only); repeat' first | with_reducible rfl | (simp; done) | split | intro _ | rw [foldl_wheel] | rw [foldl1_wheel] | rw [foldl2_wheel] | dsimp only | simp

@[simp] theorem consumeDoorbell_wheel (n : Nat) (value : Word) (d : Dev) : (consumeDoorbell n value d).wheel = d.wheel := by
  unfold consumeDoorbell; (repeat' split) <;> first | with_reducible rfl | (simp; done)

@[simp] theorem ringReset_wheel (n : Nat) (d : Dev) : (ringReset n d).wheel = d.wheel := by
  unfold ringReset; (repeat' split) <;> first | with_reducible rfl | (simp; done)

@[simp] theorem sweepRing_wheel (n : Nat) (d : Dev) : (sweepRing n d).wheel = d.wheel := by
  unfold sweepRing; (repeat' split) <;> first | with_reducible rfl | (simp; done)

@[simp] theorem fetchReturns_wheel (n : Nat) (res : FetchResult) (d : Dev) : (fetchReturns n res d).wheel = d.wheel := by
  unfold fetchReturns; (repeat' split) <;> first | with_reducible rfl | (simp; done)

@[simp] theorem postCompletion_wheel (n : Nat) (d : Dev) : (postCompletion n d).wheel = d.wheel := by
  unfold postCompletion; (try dsimp only); repeat' first | with_reducible rfl | (simp; done) | split | intro _ | rw [foldl_wheel] | rw [foldl1_wheel] | rw [foldl2_wheel] | dsimp only | simp

@[simp] theorem auditRing_wheel (d : Dev) (n : Nat) : (auditRing d n).wheel = d.wheel := by
  unfold auditRing; (try dsimp only); repeat' first | with_reducible rfl | (simp; done) | split | intro _ | rw [foldl_wheel] | rw [foldl1_wheel] | rw [foldl2_wheel] | dsimp only | simp

@[simp] theorem auditRings_wheel (d : Dev) : (auditRings d).wheel = d.wheel := by
  unfold auditRings; (try dsimp only); repeat' first | with_reducible rfl | (simp; done) | split | intro _ | rw [foldl_wheel] | rw [foldl1_wheel] | rw [foldl2_wheel] | dsimp only | simp

@[simp] theorem hostInterfaceReset_wheel (conventional : Bool) (d : Dev) : (hostInterfaceReset conventional d).wheel = d.wheel := by
  unfold hostInterfaceReset; simp

@[simp] theorem dropSlot_wheel (d : Dev) (t i : Nat) : (dropSlot d t i).wheel = d.wheel := by
  unfold dropSlot; simp

@[simp] theorem handlesGone_wheel (d : Dev) : (handlesGone d).wheel = d.wheel := by
  unfold handlesGone; (try dsimp only); repeat' first | with_reducible rfl | (simp; done) | split | intro _ | rw [foldl_wheel] | rw [foldl1_wheel] | rw [foldl2_wheel] | dsimp only | simp

@[simp] theorem purgeGhosts_wheel (d : Dev) : (purgeGhosts d).wheel = d.wheel := by
  unfold purgeGhosts; (try dsimp only); repeat' first | with_reducible rfl | (simp; done) | split | intro _ | rw [foldl_wheel] | rw [foldl1_wheel] | rw [foldl2_wheel] | dsimp only | simp

@[simp] theorem hearthReset_wheel (d : Dev) : (hearthReset d).wheel = d.wheel := by
  unfold hearthReset; (repeat' split) <;> first | with_reducible rfl | (simp; done)

@[simp] theorem porRelease_wheel (straps : BitVec 7) (d : Dev) : (porRelease straps d).wheel = d.wheel := by
  unfold porRelease; (repeat' split) <;> first | with_reducible rfl | (simp; done)

@[simp] theorem railsGood_wheel (d : Dev) : (railsGood d).wheel = d.wheel := by
  unfold railsGood; (repeat' split) <;> first | with_reducible rfl | (simp; done)

@[simp] theorem supervisorChecked_wheel (ok : Bool) (d : Dev) : (supervisorChecked ok d).wheel = d.wheel := by
  unfold supervisorChecked; (repeat' split) <;> first | with_reducible rfl | (simp; done)

@[simp] theorem suppliesGood_wheel (d : Dev) : (suppliesGood d).wheel = d.wheel := by
  unfold suppliesGood; (repeat' split) <;> first | with_reducible rfl | (simp; done)

@[simp] theorem hkStartFail_wheel (d : Dev) : (hkStartFail d).wheel = d.wheel := by
  unfold hkStartFail; (repeat' split) <;> first | with_reducible rfl | (simp; done)

@[simp] theorem hkRetry_wheel (d : Dev) : (hkRetry d).wheel = d.wheel := by
  unfold hkRetry; (repeat' split) <;> first | with_reducible rfl | (simp; done)

@[simp] theorem bootDone_wheel (sound : List Nat) (d : Dev) : (bootDone sound d).wheel = d.wheel := by
  unfold bootDone; (repeat' split) <;> first | with_reducible rfl | (simp; done)

@[simp] theorem clkFail_wheel (detail : Nat) (d : Dev) : (clkFail detail d).wheel = d.wheel := by
  unfold clkFail; simp

@[simp] theorem refLoss_wheel (d : Dev) : (refLoss d).wheel = d.wheel := by
  unfold refLoss; (try dsimp only); repeat' first | with_reducible rfl | (simp; done) | split | intro _ | rw [foldl_wheel] | rw [foldl1_wheel] | rw [foldl2_wheel] | dsimp only | simp

@[simp] theorem refRestore_wheel (d : Dev) : (refRestore d).wheel = d.wheel := by
  unfold refRestore; (repeat' split) <;> first | with_reducible rfl | (simp; done)

@[simp] theorem refTurn_wheel (d : Dev) : (refTurn d).wheel = d.wheel := by
  unfold refTurn; (repeat' split) <;> first | with_reducible rfl | (simp; done)

@[simp] theorem pllUnlock_wheel (pll : Nat) (d : Dev) : (pllUnlock pll d).wheel = d.wheel := by
  unfold pllUnlock; (repeat' split) <;> first | with_reducible rfl | (simp; done)

@[simp] theorem pllRelock_wheel (pll : Nat) (d : Dev) : (pllRelock pll d).wheel = d.wheel := by
  unfold pllRelock; (repeat' split) <;> first | with_reducible rfl | (simp; done)

@[simp] theorem linkDown_wheel (refclk : Bool) (d : Dev) : (linkDown refclk d).wheel = d.wheel := by
  unfold linkDown; simp

@[simp] theorem linkTrained_wheel (maxSpeed maxWidth : BitVec 2) (perstN : Bool) (d : Dev) : (linkTrained maxSpeed maxWidth perstN d).wheel = d.wheel := by
  unfold linkTrained; (try dsimp only); repeat' first | with_reducible rfl | (simp; done) | split | intro _ | rw [foldl_wheel] | rw [foldl1_wheel] | rw [foldl2_wheel] | dsimp only | simp

@[simp] theorem debugUnlock_wheel (token : List Byte) (d : Dev) : (debugUnlock token d).1.wheel = d.wheel := by
  unfold debugUnlock; (repeat' split) <;> first | with_reducible rfl | (simp; done)

@[simp] theorem jtagLoad_wheel (code : Nat) (d : Dev) : (jtagLoad code d).wheel = d.wheel := by
  unfold jtagLoad; simp

@[simp] theorem abortEnables_wheel (d : Dev) : (abortEnables d).wheel = d.wheel := by
  unfold abortEnables; simp

@[simp] theorem flueTakeover_wheel (su : Setup) (d : Dev) : (flueTakeover su d).wheel = d.wheel := by
  unfold flueTakeover; (try dsimp only); repeat' first | with_reducible rfl | (simp; done) | split | intro _ | rw [foldl_wheel] | rw [foldl1_wheel] | rw [foldl2_wheel] | dsimp only | simp

@[simp] theorem flueKeepalive_wheel (d : Dev) : (flueKeepalive d).wheel = d.wheel := by
  unfold flueKeepalive; simp

@[simp] theorem recover_wheel (d : Dev) : (recover d).1.wheel = d.wheel := by
  unfold recover; (repeat' split) <;> first | with_reducible rfl | (simp; done)

@[simp] theorem mgmtHeartbeat_wheel (d : Dev) : (mgmtHeartbeat d).wheel = d.wheel := by
  unfold mgmtHeartbeat; (repeat' split) <;> first | with_reducible rfl | (simp; done)

@[simp] theorem wdTimeout_wheel (su : Setup) (d : Dev) : (wdTimeout su d).wheel = d.wheel := by
  unfold wdTimeout; (try dsimp only); repeat' first | with_reducible rfl | (simp; done) | split | intro _ | rw [foldl_wheel] | rw [foldl1_wheel] | rw [foldl2_wheel] | dsimp only | simp

@[simp] theorem wdColdStart_wheel (su : Setup) (d : Dev) : (wdColdStart su d).wheel = d.wheel := by
  unfold wdColdStart; (repeat' split) <;> first | with_reducible rfl | (simp; done)

@[simp] theorem wdTurn_wheel (d : Dev) : (wdTurn d).wheel = d.wheel := by
  unfold wdTurn; simp

@[simp] theorem thermalOff_wheel (bleed : Bool) (n : Nat) (d : Dev) : (thermalOff bleed n d).wheel = d.wheel := by
  unfold thermalOff; (try dsimp only); repeat' first | with_reducible rfl | (simp; done) | split | intro _ | rw [foldl_wheel] | rw [foldl1_wheel] | rw [foldl2_wheel] | dsimp only | simp

@[simp] theorem clkWrite_wheel (v : Word) (d : Dev) : (clkWrite v d).wheel = d.wheel := by
  unfold clkWrite; simp

@[simp] theorem rstWrite_wheel (v : Word) (d : Dev) : (rstWrite v d).wheel = d.wheel := by
  unfold rstWrite; simp

@[simp] theorem pushReady_wheel (id : LoopId) (d : Dev) : (pushReady id d).1.wheel = d.wheel := by
  unfold pushReady; (repeat' split) <;> first | with_reducible rfl | (simp; done)

@[simp] theorem limitMissed_wheel (d : Dev) (c : Nat) : (limitMissed d c).wheel = d.wheel := by
  unfold limitMissed; simp

@[simp] theorem builtinReady_wheel (id : LoopId) (d : Dev) : (builtinReady id d).wheel = d.wheel := by
  unfold builtinReady; (try dsimp only); repeat' first | with_reducible rfl | (simp; done) | split | intro _ | rw [foldl_wheel] | rw [foldl1_wheel] | rw [foldl2_wheel] | dsimp only | simp

@[simp] theorem orderReady_wheel (old : List LoopId) (d : Dev) : (orderReady old d).wheel = d.wheel := by
  unfold orderReady; simp

@[simp] theorem loopSkipped_wheel (l : Nat) (d : Dev) : (loopSkipped l d).wheel = d.wheel := by
  unfold loopSkipped; simp

@[simp] theorem loopReady_wheel (l : Nat) (vals : List Int) (d : Dev) : (loopReady l vals d).wheel = d.wheel := by
  unfold loopReady; (try dsimp only); repeat' first | with_reducible rfl | (simp; done) | split | intro _ | rw [foldl_wheel] | rw [foldl1_wheel] | rw [foldl2_wheel] | dsimp only | simp

@[simp] theorem loopStart_wheel (g k : Nat) (dropped : List Nat) (d : Dev) (l : Nat) : (loopStart g k dropped d l).wheel = d.wheel := by
  unfold loopStart; (try dsimp only); repeat' first | with_reducible rfl | (simp; done) | split | intro _ | rw [foldl_wheel] | rw [foldl1_wheel] | rw [foldl2_wheel] | dsimp only | simp

@[simp] theorem loopComplete_wheel (l : Nat) (d : Dev) : (loopComplete l d).wheel = d.wheel := by
  unfold loopComplete; (try dsimp only); repeat' first | with_reducible rfl | (simp; done) | split | intro _ | rw [foldl_wheel] | rw [foldl1_wheel] | rw [foldl2_wheel] | dsimp only | simp

@[simp] theorem loopSample_wheel (input : Nat) (w : Word) (d : Dev) (l : Nat) : (loopSample input w d l).wheel = d.wheel := by
  unfold loopSample; (try dsimp only); repeat' first | with_reducible rfl | (simp; done) | split | intro _ | rw [foldl_wheel] | rw [foldl1_wheel] | rw [foldl2_wheel] | dsimp only | simp

@[simp] theorem laneRun_wheel (lane : Nat) (counts : Nat × Nat × Nat × Nat) (builtin : Bool) (handle : Word) (ops : List (Nat × Nat × Bool)) (d : Dev) : (laneRun lane counts builtin handle ops d).wheel = d.wheel := by
  unfold laneRun; (try dsimp only); repeat' first | with_reducible rfl | (simp; done) | split | intro _ | rw [foldl_wheel] | rw [foldl1_wheel] | rw [foldl2_wheel] | dsimp only | simp

@[simp] theorem romOps_wheel (n : Nat) (d : Dev) : (romOps n d).2.wheel = d.wheel := by
  unfold romOps; rw [foldl2_wheel]; intro p a; rfl

@[simp] theorem takePreload_wheel (l : Nat) (d : Dev) : (takePreload l d).wheel = d.wheel := by
  unfold takePreload; (repeat' split) <;> first | with_reducible rfl | (simp; done)

@[simp] theorem observe_wheel (l : Nat) (e : Option Nat) (k : Int) (muted : Bool) (d : Dev) : (observe l e k muted d).wheel = d.wheel := by
  unfold observe; (try dsimp only); repeat' first | with_reducible rfl | (simp; done) | split | intro _ | rw [foldl_wheel] | rw [foldl1_wheel] | rw [foldl2_wheel] | dsimp only | simp

@[simp] theorem loopFound_wheel (l wait : Nat) (d : Dev) : (loopFound l wait d).wheel = d.wheel := by
  unfold loopFound; (try dsimp only); repeat' first | with_reducible rfl | (simp; done) | split | intro _ | rw [foldl_wheel] | rw [foldl1_wheel] | rw [foldl2_wheel] | dsimp only | simp

@[simp] theorem loopLeft_wheel (l wait pos : Nat) (k0 : Int) (c : RunCtx) (d : Dev) : (loopLeft l wait pos k0 c d).wheel = d.wheel := by
  unfold loopLeft; (try dsimp only); repeat' first | with_reducible rfl | (simp; done) | split | intro _ | rw [foldl_wheel] | rw [foldl1_wheel] | rw [foldl2_wheel] | dsimp only | simp

@[simp] theorem loopRun_wheel (l lane wait pos : Nat) (d : Dev) : (loopRun l lane wait pos d).wheel = d.wheel := by
  unfold loopRun; (try dsimp only); repeat' first | with_reducible rfl | (simp; done) | split | intro _ | rw [foldl_wheel] | rw [foldl1_wheel] | rw [foldl2_wheel] | dsimp only | simp

@[simp] theorem loopDispatch_wheel (lane wait pos : Nat) (d : Dev) : (loopDispatch lane wait pos d).wheel = d.wheel := by
  unfold loopDispatch; (try dsimp only); repeat' first | with_reducible rfl | (simp; done) | split | intro _ | rw [foldl_wheel] | rw [foldl1_wheel] | rw [foldl2_wheel] | dsimp only | simp

@[simp] theorem applyAction_wheel (l cause : Nat) (d : Dev) : (applyAction l cause d).wheel = d.wheel := by
  unfold applyAction; (try dsimp only); repeat' first | with_reducible rfl | (simp; done) | split | intro _ | rw [foldl_wheel] | rw [foldl1_wheel] | rw [foldl2_wheel] | dsimp only | simp

@[simp] theorem loopFerr_wheel (l : Nat) (d : Dev) : (loopFerr l d).wheel = d.wheel := by
  unfold loopFerr; (try dsimp only); repeat' first | with_reducible rfl | (simp; done) | split | intro _ | rw [foldl_wheel] | rw [foldl1_wheel] | rw [foldl2_wheel] | dsimp only | simp

@[simp] theorem loopStarved_wheel (id : LoopId) (d : Dev) : (loopStarved id d).wheel = d.wheel := by
  unfold loopStarved; (repeat' split) <;> first | with_reducible rfl | (simp; done)

@[simp] theorem loopClear_wheel (d : Dev) (l : Nat) (v : Word) : (loopClear d l v).wheel = d.wheel := by
  unfold loopClear; (repeat' split) <;> first | with_reducible rfl | (simp; done)

@[simp] theorem limitMisses_wheel (g k : Nat) (dropped : List Nat) (d : Dev) : (limitMisses g k dropped d).wheel = d.wheel := by
  unfold limitMisses; (try dsimp only); repeat' first | with_reducible rfl | (simp; done) | split | intro _ | rw [foldl_wheel] | rw [foldl1_wheel] | rw [foldl2_wheel] | dsimp only | simp

@[simp] theorem railStarts_wheel (g : Nat) (d : Dev) : (railStarts g d).wheel = d.wheel := by
  unfold railStarts; (try dsimp only); repeat' first | with_reducible rfl | (simp; done) | split | intro _ | rw [foldl_wheel] | rw [foldl1_wheel] | rw [foldl2_wheel] | dsimp only | simp

@[simp] theorem sampleTrigger_wheel (g : Nat) (d : Dev) : (sampleTrigger g d).wheel = d.wheel := by
  unfold sampleTrigger; (try dsimp only); repeat' first | with_reducible rfl | (simp; done) | split | intro _ | rw [foldl_wheel] | rw [foldl1_wheel] | rw [foldl2_wheel] | dsimp only | simp

@[simp] theorem railSample_wheel (input : Nat) (w : Word) (d : Dev) (i : Nat) : (railSample input w d i).wheel = d.wheel := by
  unfold railSample; (try dsimp only); repeat' first | with_reducible rfl | (simp; done) | split | intro _ | rw [foldl_wheel] | rw [foldl1_wheel] | rw [foldl2_wheel] | dsimp only | simp

@[simp] theorem chanSample_wheel (c : Nat) (current : Bool) (w : Word) (pos : Nat) (d : Dev) : (chanSample c current w pos d).wheel = d.wheel := by
  unfold chanSample; (try dsimp only); repeat' first | with_reducible rfl | (simp; done) | split | intro _ | rw [foldl_wheel] | rw [foldl1_wheel] | rw [foldl2_wheel] | dsimp only | simp

@[simp] theorem fsDeliver_wheel (input : Nat) (w : Word) (pos : Nat) (d : Dev) : (fsDeliver input w pos d).wheel = d.wheel := by
  unfold fsDeliver; (try dsimp only); repeat' first | with_reducible rfl | (simp; done) | split | intro _ | rw [foldl_wheel] | rw [foldl1_wheel] | rw [foldl2_wheel] | dsimp only | simp

@[simp] theorem injDeliver_wheel (chan input : Nat) (w : Word) (d : Dev) : (injDeliver chan input w d).wheel = d.wheel := by
  unfold injDeliver; (try dsimp only); repeat' first | with_reducible rfl | (simp [Dev.atTick_wheel, branchFollow_wheel, chanStored_wheel, Dev.inTurn_wheel, onSeq_wheel, onSet_wheel, onStr_wheel]; done) | split | (rw [foldl_wheel]; intro _ _) | (rw [foldl1_wheel]; intro _ _) | (rw [foldl2_wheel]; intro _ _) | dsimp only | simp

@[simp] theorem fsConversionDone_wheel (c : Nat) (code : Int) (isOver late : Bool) (pos : Nat) (d : Dev) :
    (fsConversionDone c code isOver late pos d).wheel = d.wheel := by
  unfold fsConversionDone
  have h := convEnds_wheel d c code isOver late
  generalize convEnds d c code isOver late = r at h ⊢
  obtain ⟨d', _ | r⟩ := r
  · simpa using h
  · dsimp only
    split
    · simpa using h
    · rw [Dev.inTurn_wheel]
      · simpa using h
      · intro d; simp

@[simp] theorem pdDeliver_wheel (n pos : Nat) (d : Dev) : (pdDeliver n pos d).wheel = d.wheel := by
  unfold pdDeliver
  dsimp only
  rw [foldl_wheel]
  · rw [Dev.inTurn_wheel]; intro d; simp
  · intro d a; split <;> simp

@[simp] theorem pdWindowEnds_wheel (n : Nat) (value : Int) (isOver : Bool) (pos : Nat) (settled : Bool) (d : Dev) : (pdWindowEnds n value isOver pos settled d).wheel = d.wheel := by
  unfold pdWindowEnds; (repeat' split) <;> first | with_reducible rfl | (simp; done)

@[simp] theorem pdCrossing_wheel (n : Nat) (d : Dev) : (pdCrossing n d).wheel = d.wheel := by
  unfold pdCrossing; (try dsimp only); repeat' first | with_reducible rfl | (simp; done) | split | intro _ | rw [foldl_wheel] | rw [foldl1_wheel] | rw [foldl2_wheel] | dsimp only | simp

@[simp] theorem Dev.ends_wheel (d : Dev) (x : Desc) (st : Status) (result : Nat) : (Dev.ends d x st result).1.wheel = d.wheel := by
  unfold Dev.ends; simp

@[simp] theorem Dev.endsWith_wheel (d : Dev) (x : Desc) (addr : BitVec 64) (out : List Byte) : (Dev.endsWith d x addr out).1.wheel = d.wheel := by
  unfold Dev.endsWith; simp

@[simp] theorem answered_wheel (x : Desc) (r : Dev × Answer) : (answered x r).1.wheel = r.1.wheel := by
  unfold answered; split <;> rfl

@[simp] theorem readOut_wheel (d : Dev) (x : Desc) (i : Nat) (block : List Byte) : (readOut d x i block).1.wheel = d.wheel := by
  unfold readOut; (repeat' split) <;> first | with_reducible rfl | (simp; done)

@[simp] theorem wakeNamed_wheel (d : Dev) (h : Word) : (wakeNamed d h).wheel = d.wheel := by
  unfold wakeNamed; (repeat' split) <;> first | with_reducible rfl | (simp; done)

theorem runOp_wheel (op : Nat) (f : OpFn) (d : Dev) (x : Desc) (h : ∀ d x, (f d x).1.wheel = d.wheel) :
    (runOp op f d x).1.wheel = d.wheel := by
  unfold runOp; (repeat' split) <;> simp [h]

@[simp] theorem defineGens_wheel (t key : Nat) (ws : List Word) (d : Dev) : (defineGens t key ws d).wheel = d.wheel := by
  unfold defineGens; (try dsimp only); repeat' first | with_reducible rfl | (simp; done) | split | intro _ | rw [foldl_wheel] | rw [foldl1_wheel] | rw [foldl2_wheel] | dsimp only | simp

@[simp] theorem loopLoad_wheel (d : Dev) (i : Nat) (ws : List Word) : (loopLoad d i ws).wheel = d.wheel := by
  unfold loopLoad; simp

@[simp] theorem objLoad_wheel (d : Dev) (t i : Nat) (ws : List Word) : (objLoad d t i ws).wheel = d.wheel := by
  unfold objLoad; (repeat' split) <;> first | with_reducible rfl | (simp; done)

@[simp] theorem objReload_wheel (old d : Dev) (t i : Nat) (ws : List Word) : (objReload old d t i ws).wheel = d.wheel := by
  unfold objReload; (repeat' split) <;> first | with_reducible rfl | (simp; done)

@[simp] theorem Dev.withoutGhosts_wheel (d : Dev) : (Dev.withoutGhosts d).wheel = d.wheel := by
  unfold Dev.withoutGhosts; simp

@[simp] theorem admitBlock_wheel (base : Dev) (t i schema bytes : Nat) (ws : List Word) : (admitBlock base t i schema bytes ws).2.wheel = base.wheel := by
  unfold admitBlock; (repeat' split) <;> first | with_reducible rfl | (simp; done)

@[simp] theorem created_wheel (d : Dev) (t i : Nat) (ws : List Word) : (created d t i ws).1.wheel = d.wheel := by
  unfold created; simp

@[simp] theorem createAt_wheel (d : Dev) (x : Desc) (t i : Nat) (bytes : List Byte) : (createAt d x t i bytes).1.wheel = d.wheel := by
  unfold createAt
  (repeat' split) <;> first
    | rfl
    | (dsimp only; split <;> (rename_i e; have h := congrArg (fun p => p.2.wheel) e; simp at h; simp [h]))

@[simp] theorem opCreate_wheel (d : Dev) (x : Desc) : (opCreate d x).1.wheel = d.wheel := by
  unfold opCreate; (try dsimp only); repeat' first | with_reducible rfl | (simp; done) | split | intro _ | rw [foldl_wheel] | rw [foldl1_wheel] | rw [foldl2_wheel] | dsimp only | simp

@[simp] theorem keepPhases_wheel (old d : Dev) (i : Nat) : (keepPhases old d i).wheel = d.wheel := by
  unfold keepPhases; (try dsimp only); repeat' first | with_reducible rfl | (simp; done) | split | intro _ | rw [foldl_wheel] | rw [foldl1_wheel] | rw [foldl2_wheel] | dsimp only | simp

@[simp] theorem configure_wheel (d : Dev) (x : Desc) (t i : Nat) (ws : List Word) (bytes : Nat) :
    (configure d x t i ws bytes).1.wheel = d.wheel := by
  unfold configure
  dsimp only
  split <;> rename_i e
  · rfl
  · have h := congrArg (fun p => p.2.wheel) e
    simp only [admitBlock_wheel] at h
    have h2 : ∀ d' : Dev, ({ d' with slots := d'.slots } : Dev).wheel = d'.wheel := fun _ => rfl
    (repeat' split at h) <;> (repeat' split) <;> simp_all

@[simp] theorem opConfigure_wheel (d : Dev) (x : Desc) : (opConfigure d x).1.wheel = d.wheel := by
  unfold opConfigure; (try dsimp only); repeat' first | with_reducible rfl | (simp; done) | split | intro _ | rw [foldl_wheel] | rw [foldl1_wheel] | rw [foldl2_wheel] | dsimp only | simp

@[simp] theorem releaseHandle_wheel (d : Dev) (t i : Nat) : (releaseHandle d t i).wheel = d.wheel := by
  unfold releaseHandle; (repeat' split) <;> first | with_reducible rfl | (simp; done)

@[simp] theorem forceDestroy_wheel (d : Dev) (x : Desc) (t i : Nat) : (forceDestroy d x t i).1.wheel = d.wheel := by
  unfold forceDestroy; (repeat' split) <;> first | with_reducible rfl | (simp; done)

@[simp] theorem opDestroy_wheel (d : Dev) (x : Desc) : (opDestroy d x).1.wheel = d.wheel := by
  unfold opDestroy; (try dsimp only); repeat' first | with_reducible rfl | (simp; done) | split | intro _ | rw [foldl_wheel] | rw [foldl1_wheel] | rw [foldl2_wheel] | dsimp only | simp

@[simp] theorem enableObj_wheel (d : Dev) (x : Desc) (t i : Nat) : (enableObj d x t i).1.wheel = d.wheel := by
  unfold enableObj; (repeat' split) <;> first | with_reducible rfl | (simp; done)

@[simp] theorem opEnable_wheel (d : Dev) (x : Desc) : (opEnable d x).1.wheel = d.wheel := by
  unfold opEnable; (try dsimp only); repeat' first | with_reducible rfl | (simp; done) | split | intro _ | rw [foldl_wheel] | rw [foldl1_wheel] | rw [foldl2_wheel] | dsimp only | simp

@[simp] theorem disableObj_wheel (d : Dev) (x : Desc) (t i : Nat) : (disableObj d x t i).1.wheel = d.wheel := by
  unfold disableObj; (try dsimp only); repeat' first | with_reducible rfl | (simp; done) | split | intro _ | rw [foldl_wheel] | rw [foldl1_wheel] | rw [foldl2_wheel] | dsimp only | simp

@[simp] theorem opDisable_wheel (d : Dev) (x : Desc) : (opDisable d x).1.wheel = d.wheel := by
  unfold opDisable; (try dsimp only); repeat' first | with_reducible rfl | (simp; done) | split | intro _ | rw [foldl_wheel] | rw [foldl1_wheel] | rw [foldl2_wheel] | dsimp only | simp

@[simp] theorem opStreamStart_wheel (d : Dev) (x : Desc) : (opStreamStart d x).1.wheel = d.wheel := by
  unfold opStreamStart; (repeat' split) <;> first | with_reducible rfl | (simp; done)

@[simp] theorem opStreamStop_wheel (d : Dev) (x : Desc) : (opStreamStop d x).1.wheel = d.wheel := by
  unfold opStreamStop; (repeat' split) <;> first | with_reducible rfl | (simp; done)

@[simp] theorem loopSetPoint_wheel (d : Dev) (x : Desc) (i : Nat) : (loopSetPoint d x i).1.wheel = d.wheel := by
  unfold loopSetPoint; (try dsimp only); repeat' first | with_reducible rfl | (simp; done) | split | intro _ | rw [foldl_wheel] | rw [foldl1_wheel] | rw [foldl2_wheel] | dsimp only | simp

@[simp] theorem abortSetPoint_wheel (d : Dev) (h : Word) : (abortSetPoint d h).wheel = d.wheel := by
  unfold abortSetPoint; simp

@[simp] theorem railSetPoint_wheel (d : Dev) (x : Desc) (i : Nat) : (railSetPoint d x i).1.wheel = d.wheel := by
  unfold railSetPoint; (try dsimp only); repeat' first | with_reducible rfl | (simp; done) | split | intro _ | rw [foldl_wheel] | rw [foldl1_wheel] | rw [foldl2_wheel] | dsimp only | simp

@[simp] theorem opSetPoint_wheel (d : Dev) (x : Desc) : (opSetPoint d x).1.wheel = d.wheel := by
  unfold opSetPoint; (repeat' split) <;> first | with_reducible rfl | (simp; done)

@[simp] theorem railClear_wheel (d : Dev) (i : Nat) (v : Word) : (railClear d i v).1.wheel = d.wheel := by
  unfold railClear; (try dsimp only); repeat' first | with_reducible rfl | (simp; done) | split | intro _ | rw [foldl_wheel] | rw [foldl1_wheel] | rw [foldl2_wheel] | dsimp only | simp

@[simp] theorem opClear_wheel (d : Dev) (x : Desc) : (opClear d x).1.wheel = d.wheel := by
  unfold opClear; (try dsimp only); repeat' first | with_reducible rfl | (simp; done) | split | intro _ | rw [foldl_wheel] | rw [foldl1_wheel] | rw [foldl2_wheel] | dsimp only | simp

@[simp] theorem opFence_wheel (d : Dev) (x : Desc) : (opFence d x).1.wheel = d.wheel := by
  unfold opFence; simp

@[simp] theorem opBankWrite_wheel (d : Dev) (x : Desc) : (opBankWrite d x).1.wheel = d.wheel := by
  unfold opBankWrite; (try dsimp only); repeat' first | with_reducible rfl | (simp; done) | split | intro _ | rw [foldl_wheel] | rw [foldl1_wheel] | rw [foldl2_wheel] | dsimp only | simp

@[simp] theorem opBankRead_wheel (d : Dev) (x : Desc) : (opBankRead d x).1.wheel = d.wheel := by
  unfold opBankRead; (try dsimp only); repeat' first | with_reducible rfl | (simp; done) | split | intro _ | rw [foldl_wheel] | rw [foldl1_wheel] | rw [foldl2_wheel] | dsimp only | simp

@[simp] theorem opBankCopy_wheel (d : Dev) (x : Desc) : (opBankCopy d x).1.wheel = d.wheel := by
  unfold opBankCopy; (try dsimp only); repeat' first | with_reducible rfl | (simp; done) | split | intro _ | rw [foldl_wheel] | rw [foldl1_wheel] | rw [foldl2_wheel] | dsimp only | simp

@[simp] theorem opBankSwap_wheel (d : Dev) (x : Desc) : (opBankSwap d x).1.wheel = d.wheel := by
  unfold opBankSwap; (try dsimp only); repeat' first | with_reducible rfl | (simp; done) | split | intro _ | rw [foldl_wheel] | rw [foldl1_wheel] | rw [foldl2_wheel] | dsimp only | simp

theorem keepKnown_wheel (f : Dev → Dev) (d : Dev) (h : (f d).wheel = d.wheel) : (keepKnown f d).wheel = d.wheel := by
  unfold keepKnown; dsimp only; split <;> simp [h]

@[simp] theorem opQueryState_wheel (d : Dev) (x : Desc) : (opQueryState d x).1.wheel = d.wheel := by
  unfold opQueryState; (repeat' split) <;> first | with_reducible rfl | (simp; done)

@[simp] theorem sensorRead_wheel (d : Dev) (x : Desc) : (sensorRead d x).1.wheel = d.wheel := by
  unfold sensorRead; (repeat' split) <;> first | with_reducible rfl | (simp; done)

@[simp] theorem opQueryRead_wheel (d : Dev) (x : Desc) : (opQueryRead d x).1.wheel = d.wheel := by
  unfold opQueryRead; (try dsimp only); repeat' first | with_reducible rfl | (simp; done) | split | intro _ | rw [foldl_wheel] | rw [foldl1_wheel] | rw [foldl2_wheel] | dsimp only | simp

@[simp] theorem opQueryResources_wheel (d : Dev) (x : Desc) : (opQueryResources d x).1.wheel = d.wheel := by
  unfold opQueryResources; simp

@[simp] theorem opQueryHandles_wheel (d : Dev) (x : Desc) : (opQueryHandles d x).1.wheel = d.wheel := by
  unfold opQueryHandles; (try dsimp only); repeat' first | with_reducible rfl | (simp; done) | split | intro _ | rw [foldl_wheel] | rw [foldl1_wheel] | rw [foldl2_wheel] | dsimp only | simp

@[simp] theorem opKilnRead_wheel (d : Dev) (x : Desc) : (opKilnRead d x).1.wheel = d.wheel := by
  unfold opKilnRead; (repeat' split) <;> first | with_reducible rfl | (simp; done)

@[simp] theorem Dev.raiseWheelState_wheel (d : Dev) (old : WheelState) : (Dev.raiseWheelState d old).wheel = d.wheel := by
  unfold Dev.raiseWheelState; (repeat' split) <;> first | with_reducible rfl | (simp; done)

@[simp] theorem opSetProfile_wheel (d : Dev) (x : Desc) : (opSetProfile d x).1.wheel = d.wheel := by
  unfold opSetProfile; (repeat' split) <;> first | with_reducible rfl | (simp; done)

@[simp] theorem opRecover_wheel (d : Dev) (x : Desc) : (opRecover d x).1.wheel = d.wheel := by
  unfold opRecover; simp

@[simp] theorem opEventWait_wheel (d : Dev) (x : Desc) : (opEventWait d x).1.wheel = d.wheel := by
  unfold opEventWait; (repeat' split) <;> first | with_reducible rfl | (simp; done)

@[simp] theorem opStreamBuf_wheel (d : Dev) (x : Desc) : (opStreamBuf d x).1.wheel = d.wheel := by
  unfold opStreamBuf; (repeat' split) <;> first | with_reducible rfl | (simp; done)

@[simp] theorem opImgSherd_wheel (d : Dev) (x : Desc) : (opImgSherd d x).1.wheel = d.wheel := by
  unfold opImgSherd; (repeat' split) <;> first | with_reducible rfl | (simp; done)

@[simp] theorem opImgStatus_wheel (d : Dev) (x : Desc) : (opImgStatus d x).1.wheel = d.wheel := by
  unfold opImgStatus; (repeat' split) <;> first | with_reducible rfl | (simp; done)

@[simp] theorem opImgActivate_wheel (d : Dev) (x : Desc) : (opImgActivate d x).1.wheel = d.wheel := by
  unfold opImgActivate; simp

@[simp] theorem opImgRollback_wheel (d : Dev) (x : Desc) : (opImgRollback d x).1.wheel = d.wheel := by
  unfold opImgRollback; simp

@[simp] theorem opNop_wheel (d : Dev) (x : Desc) : (opNop d x).1.wheel = d.wheel := by
  unfold opNop; simp

@[simp] theorem opWarmStart_wheel (d : Dev) (x : Desc) : (opWarmStart d x).1.wheel = d.wheel := by
  unfold opWarmStart; simp

@[simp] theorem opDebugUnlock_wheel (d : Dev) (x : Desc) : (opDebugUnlock d x).1.wheel = d.wheel := by
  unfold opDebugUnlock; (repeat' split) <;> first | with_reducible rfl | (simp; done)

theorem ringBegins_wheel {op n : Nat} {x : Desc} {d : Dev} {r : Dev × Nat} (h : ringBegins op n x d = some r) : r.1.wheel = d.wheel := by
  unfold ringBegins at h
  dsimp only at h
  (repeat' split at h) <;> cases h <;> simp

@[simp] theorem boxTaken_wheel (peer : Bool) (d : Dev) : (boxTaken peer d).wheel = d.wheel := by
  unfold boxTaken; simp

@[simp] theorem boxTurnsAway_wheel (peer : Bool) (op : Nat) (x : Desc) (d : Dev) : (boxTurnsAway peer op x d).wheel = d.wheel := by
  unfold boxTurnsAway; (repeat' split) <;> first | with_reducible rfl | (simp; done)

@[simp] theorem coapResend_wheel (port : Nat) (resp : List Byte) (block : Nat) (d : Dev) : (coapResend port resp block d).wheel = d.wheel := by
  unfold coapResend; simp

@[simp] theorem coapHeard_wheel (port : Nat) (d : Dev) : (coapHeard port d).wheel = d.wheel := by
  unfold coapHeard; simp

theorem coapBegins_wheel {k mid : Nat} {d d' : Dev} (h : coapBegins k mid d = some d') : d'.wheel = d.wheel := by
  unfold coapBegins at h
  (repeat' split at h) <;> cases h <;> simp

@[simp] theorem coapTurnsAway_wheel (k mid block : Nat) (d : Dev) : (coapTurnsAway k mid block d).wheel = d.wheel := by
  unfold coapTurnsAway; (repeat' split) <;> first | with_reducible rfl | (simp; done)

theorem coapSized_wheel (szx k mid block : Nat) (f : Dev → Dev) (d : Dev) (h : ∀ d, (f d).wheel = d.wheel) :
    (coapSized szx k mid block f d).wheel = d.wheel := by
  unfold coapSized
  split
  · exact h d
  · split
    · rename_i e; rw [Dev.coapReply_wheel]; exact coapBegins_wheel e
    · simp

theorem begins_wheel {op : Nat} {x : Desc} {d : Dev} {r : Dev × Nat} (h : begins op x d = some r) : r.1.wheel = d.wheel := by
  unfold begins at h
  split at h
  · exact ringBegins_wheel h
  · split at h <;> cases h <;> simp
  · rename_i k mid i hs
    cases hb : coapBegins k mid d with
    | none => rw [hb] at h; cases h
    | some e => rw [hb] at h; cases h; exact coapBegins_wheel hb

@[simp] theorem turnedAway_wheel (op block : Nat) (x : Desc) (d : Dev) : (turnedAway op block x d).wheel = d.wheel := by
  unfold turnedAway; (repeat' split) <;> first | with_reducible rfl | (simp; done)

@[simp] theorem completed_wheel (x : Desc) (k : Nat) (c : Cpl) (d : Dev) : (completed x k c d).wheel = d.wheel := by
  unfold completed; (repeat' split) <;> first | with_reducible rfl | (simp; done)

@[simp] theorem replied_wheel (x : Desc) (k : Nat) (r : Dev × Reply) : (replied x k r).wheel = r.1.wheel := by
  unfold replied; split <;> simp

theorem descRow_wheel (op : Nat) (f : OpFn) (block : Nat) (x : Desc) (d : Dev) (h : ∀ d x, (f d x).1.wheel = d.wheel) :
    (descRow op f block x d).wheel = d.wheel := by
  unfold descRow
  split
  · rename_i e
    rw [replied_wheel, runOp_wheel _ _ _ _ h]
    exact begins_wheel e
  · simp

@[simp] theorem putSherd_wheel (num : Nat) (restart : Bool) (sherd : List Byte) (d : Dev) (x : Desc) : (putSherd num restart sherd d x).1.wheel = d.wheel := by
  unfold putSherd; simp

@[simp] theorem ringCtl_wheel (n : Nat) (v : Word) (d : Dev) : (ringCtl n v d).wheel = d.wheel := by
  unfold ringCtl; (repeat' split) <;> first | with_reducible rfl | (simp; done)

@[simp] theorem ringRegWrite_wheel (n o : Nat) (v : Word) (d : Dev) : (ringRegWrite n o v d).wheel = d.wheel := by
  unfold ringRegWrite; (repeat' split) <;> first | with_reducible rfl | (simp; done)

@[simp] theorem msixWrite_wheel (k w : Nat) (v : Word) (d : Dev) : (msixWrite k w v d).wheel = d.wheel := by
  unfold msixWrite; (try dsimp only); repeat' first | with_reducible rfl | (simp; done) | split | intro _ | rw [foldl_wheel] | rw [foldl1_wheel] | rw [foldl2_wheel] | dsimp only | simp

@[simp] theorem selWrite_wheel (k : Nat) (high : Bool) (v : Word) (d : Dev) : (selWrite k high v d).wheel = d.wheel := by
  unfold selWrite; simp

@[simp] theorem fbCtl_wheel (k : Nat) (v : Word) (d : Dev) : (fbCtl k v d).wheel = d.wheel := by
  unfold fbCtl; (repeat' split) <;> first | with_reducible rfl | (simp; done)

@[simp] theorem tagWrite_wheel (v : Word) (d : Dev) : (tagWrite v d).wheel = d.wheel := by
  unfold tagWrite; simp

@[simp] theorem seedWrite_wheel (v : Word) (d : Dev) : (seedWrite v d).wheel = d.wheel := by
  unfold seedWrite; simp

@[simp] theorem tallyWrite_wheel (offset : Nat) (v : Word) (d : Dev) : (tallyWrite offset v d).wheel = d.wheel := by
  unfold tallyWrite; (repeat' split) <;> first | with_reducible rfl | (simp; done)

@[simp] theorem bar0Write_wheel (offset : Nat) (v : Word) (d : Dev) : (bar0Write offset v d).wheel = d.wheel := by
  unfold bar0Write; (repeat' split) <;> first | with_reducible rfl | (simp; done)

@[simp] theorem bar0WriteWide_wheel (offset : Nat) (v : BitVec 64) (d : Dev) : (bar0WriteWide offset v d).wheel = d.wheel := by
  unfold bar0WriteWide; (repeat' split) <;> first | with_reducible rfl | (simp; done)

@[simp] theorem railOffers_wheel (d : Dev) (i : Nat) : (railOffers d i).wheel = d.wheel := by
  unfold railOffers; (repeat' split) <;> first | with_reducible rfl | (simp; done)

@[simp] theorem feedOffer_wheel (d : Dev) (n : Nat) : (feedOffer d n).wheel = d.wheel := by
  unfold feedOffer; simp

@[simp] theorem turnOffers_wheel (d : Dev) : (turnOffers d).wheel = d.wheel := by
  unfold turnOffers; (try dsimp only); repeat' first | with_reducible rfl | (simp; done) | split | intro _ | rw [foldl_wheel] | rw [foldl1_wheel] | rw [foldl2_wheel] | dsimp only | simp

@[simp] theorem pdCalTurns_wheel (d : Dev) : (pdCalTurns d).wheel = d.wheel := by
  unfold pdCalTurns; simp

@[simp] theorem familiesTurn_wheel (ended : BitVec 48) (d : Dev) : (familiesTurn ended d).wheel = d.wheel := by
  unfold familiesTurn; (try dsimp only); repeat' first | with_reducible rfl | (simp; done) | split | intro _ | rw [foldl_wheel] | rw [foldl1_wheel] | rw [foldl2_wheel] | dsimp only | simp

@[simp] theorem closeTurn_wheel (ended : BitVec 48) (d : Dev) : (closeTurn ended d).wheel = d.wheel := by
  unfold closeTurn; simp

@[simp] theorem swapOne_wheel (d : Dev) (key : Nat) : (swapOne d key).wheel = d.wheel := by
  unfold swapOne; (try dsimp only); repeat' first | with_reducible rfl | (simp; done) | split | intro _ | rw [foldl_wheel] | rw [foldl1_wheel] | rw [foldl2_wheel] | dsimp only | simp

@[simp] theorem swapTurn_wheel (d : Dev) : (swapTurn d).wheel = d.wheel := by
  unfold swapTurn; (try dsimp only); repeat' first | with_reducible rfl | (simp; done) | split | intro _ | rw [foldl_wheel] | rw [foldl1_wheel] | rw [foldl2_wheel] | dsimp only | simp

@[simp] theorem battRound_wheel (d : Dev) : (battRound d).wheel = d.wheel := by
  unfold battRound; (try dsimp only); repeat' first | with_reducible rfl | (simp; done) | split | intro _ | rw [foldl_wheel] | rw [foldl1_wheel] | rw [foldl2_wheel] | dsimp only | simp

@[simp] theorem pdFollow_wheel (old new : Profile) (d : Dev) : (pdFollow old new d).wheel = d.wheel := by
  unfold pdFollow; simp

@[simp] theorem profileTurn_wheel (d : Dev) : (profileTurn d).wheel = d.wheel := by
  unfold profileTurn; (try dsimp only); repeat' first | with_reducible rfl | (simp; done) | split | intro _ | rw [foldl_wheel] | rw [foldl1_wheel] | rw [foldl2_wheel] | dsimp only | simp

@[simp] theorem publishTurn_wheel (d : Dev) : (publishTurn d).wheel = d.wheel := by
  unfold publishTurn; (try dsimp only); repeat' first | with_reducible rfl | (simp; done) | split | intro _ | rw [foldl_wheel] | rw [foldl1_wheel] | rw [foldl2_wheel] | dsimp only | simp

@[simp] theorem publishRound_wheel (d : Dev) : (publishRound d).wheel = d.wheel := by
  unfold publishRound; simp

end Sys2Proof.Machine
end

