-- ==== Sys2Proof/Laws/WheelExec.lean ====
section
/-! SUPPORT. A command whose change of the device leaves the Wheel leaves the Wheel of the machine, in each form of a meaning. -/

namespace Sys2Proof.Machine

theorem wheel_kept_onDev {s t : State} {f : Setup → Dev → Dev} (h : s.onDev f = .next t) (hf : ∀ su d, (f su d).wheel = d.wheel) :
    t.dev.wheel = s.dev.wheel := by
  cases h; exact hf _ _

theorem wheel_kept_onDevAt {s t : State} {lim n : Nat} {f : Setup → Dev → Dev} (h : s.onDevAt lim n f = .next t)
    (hf : ∀ su d, (f su d).wheel = d.wheel) : t.dev.wheel = s.dev.wheel := by
  unfold State.onDevAt at h; split at h
  · exact wheel_kept_onDev h hf
  · cases h

theorem wheel_kept_onHost {s t : State} {f : Setup → Dev → Dev} (h : s.onHost f = .next t) (hf : ∀ su d, (f su d).wheel = d.wheel) :
    t.dev.wheel = s.dev.wheel := by
  unfold State.onHost at h; split at h
  · exact wheel_kept_onDev h hf
  · cases h; rfl

theorem wheel_kept_onHostAt {s t : State} {lim n : Nat} {f : Setup → Dev → Dev} (h : s.onHostAt lim n f = .next t)
    (hf : ∀ su d, (f su d).wheel = d.wheel) : t.dev.wheel = s.dev.wheel := by
  unfold State.onHostAt at h; split at h
  · exact wheel_kept_onHost h hf
  · cases h

theorem wheel_kept_onDesc {s t : State} {op : Nat} {x : Desc} {f : OpFn} (h : s.onDesc op x f = .next t)
    (hf : ∀ d x, (f d x).1.wheel = d.wheel) : t.dev.wheel = s.dev.wheel := by
  unfold State.onDesc at h; split at h
  · exact wheel_kept_onDevAt h (fun su d => descRow_wheel _ _ _ _ _ hf)
  · exact wheel_kept_onDev h (fun su d => descRow_wheel _ _ _ _ _ hf)

end Sys2Proof.Machine
end

