-- ==== Sys2Proof/Laws/WheelTurn.lean ====
section
/-! SUPPORT. What a turn boundary makes of the Wheel, as one function of the Wheel, the time and the setup registers. -/

namespace Sys2Proof.Machine

/-- The input switch at a turn boundary, on the Wheel alone. -/
def Wheel.switched (now : Nat) (w : Wheel) : Wheel :=
  if w.switchPending || w.mayFallBack now then
    { w with input := !w.input, switchPending := false, switches := satAdd 8 w.switches 1 }
  else w

/-- The Wheel after a turn boundary at a time. -/
def Wheel.afterBoundary (w : Wheel) (su : Setup) (now : Nat) : Wheel :=
  let w := (w.advance su).switched now
  if w.atRoundBoundary then ({ w with coastRound := false, slewRound := false } : Wheel).applyLength else w

theorem switchInput_wheel_eq (d : Dev) : (switchInput d).wheel = d.wheel.switched d.now := by
  unfold switchInput Wheel.switched; split <;> simp_all

theorem turnAdvance_wheel_eq (su : Setup) (time : Nat) (d : Dev) :
    (turnAdvance su time d).wheel = (d.wheel.advance su).switched (max d.now time) := by
  unfold turnAdvance; rw [switchInput_wheel_eq]

/-! ### The offers of the ended turn leave the time -/

theorem foldl_now {α : Type} (f : Dev → α → Dev) (l : List α) (d : Dev) (h : ∀ d a, (f d a).now = d.now) :
    (l.foldl f d).now = d.now := by
  induction l generalizing d with
  | nil => rfl
  | cons a l ih => rw [List.foldl_cons, ih, h]

@[simp] theorem witTake_now (turn : BitVec 48) (q sub : Nat) (src : Word) (num : Int) (den : Nat) (dflt : Bool) (d : Dev) (key : Nat) :
    (witTake turn q sub src num den dflt d key).now = d.now := by
  unfold witTake; (repeat' first | split | dsimp only) <;> rfl

@[simp] theorem witValue_now (src : Word) (q sub : Nat) (num : Int) (den : Nat) (dflt : Bool) (d : Dev) :
    (witValue src q sub num den dflt d).now = d.now := by
  unfold witValue witValueAt; split
  · rfl
  · exact foldl_now _ _ _ fun d key => witTake_now ..

@[simp] theorem railOffers_now (d : Dev) (i : Nat) : (railOffers d i).now = d.now := by
  unfold railOffers; dsimp only; split <;> simp

@[simp] theorem feedOffer_now (d : Dev) (n : Nat) : (feedOffer d n).now = d.now := by unfold feedOffer; simp

@[simp] theorem turnOffers_now (d : Dev) : (turnOffers d).now = d.now := by
  unfold turnOffers; dsimp only
  rw [witValue_now, foldl_now _ _ _ feedOffer_now, foldl_now _ _ _ railOffers_now]

theorem turnBoundary_wheel_eq (su : Setup) (time : Nat) (d : Dev) :
    (turnBoundary su time d).wheel = d.wheel.afterBoundary su (max d.now time) := by
  unfold turnBoundary
  extract_lets ended d1 d2 d3
  have h1 : d1.wheel = (d.wheel.advance su).switched (max d.now time) := by simp [d1, turnAdvance_wheel_eq]
  have h2 : d2.wheel = d1.wheel := by simp [d2]
  have h4 : (settle (publishTurn d3)).wheel = d3.wheel := by simp
  rw [h4]
  unfold Wheel.afterBoundary
  simp only [← h1, ← h2]
  clear_value d2
  simp only [d3]
  split
  · simp [roundChanges, roundLatches, wheelRound]
  · rfl

end Sys2Proof.Machine
end

