-- ==== Sys2Proof/Tests/Slice0.lean ====
section
/-! SUPPORT. Tests of the model: a state and operands that meet the hypotheses of every statement, an ill-formed command for each
check of WellFormed, and the worked examples of the specification. Each test runs one command on a small state. -/

namespace Sys2Proof.Tests

open Sys2Proof Sys2Proof.Machine

/-! ### Small states -/

/-- A state of one's own device. -/
def st (d : Dev) : State := ⟨[], {}, d⟩

/-- A device whose host interface serves requests. -/
def ready : Dev := { host := { link := .ready } }

/-- A state with one ring of one's own. -/
def rung (n : Nat) (r : Ring) : State := st { host := { link := .ready, rings := [(n, r)] } }

/-- A powered part at one phase of its start-up. -/
def powered (p : PowerPhase) : State := st { pow := { phase := p } }

/-- A descriptor of ring 0 with the handle word `h` and the first parameters `ps`. -/
def desc (flags : Nat) (h : Nat) (ps : List Word) : Desc :=
  ⟨.ring 0, BitVec.ofNat 16 flags, BitVec.ofNat 32 h, ps ++ List.replicate (14 - ps.length) 0, []⟩

/-- The bytes of a block of words. -/
def bytes (ws : List Word) : List Byte := ws.flatMap fun w => [w.extractLsb' 0 8, w.extractLsb' 8 8, w.extractLsb' 16 8, w.extractLsb' 24 8]

/-- A slot whose handle is live. -/
def slot (h : HState) (cfg : List Word) : Slot := { live := true, hstate := h, cfg := cfg }

/-- A state whose command ring 0 may fetch one descriptor, with the management plane running. -/
def cmdState (d : Dev) : State :=
  st { d with host := { link := .ready, rings := [(0, { state := .active, u := 1 })] }, plane := { mgmtRunning := true } }

/-- The device as an opcode's effect finds it. -/
def ranDev (op : Nat) (x : Desc) (s : State) : Dev :=
  match begins op x s.dev with
  | some (e, _) => if op = 0x0101 then e else wakeNamed e x.handle
  | none => s.dev

/-- Whether a descriptor begins and passes the checks of R76. -/
def ran (op : Nat) (x : Desc) (s : State) : Bool :=
  match x.src, begins op x s.dev with
  | .ring n, some (e, _) => decide (n < 128) && (descCheck e op x).isNone
  | _, some (e, _) => (descCheck e op x).isNone
  | _, none => false

theorem runs_of_ran (op : Nat) (x : Desc) (s : State) (h : ran op x s = true) : ∃ k, Runs op x s (ranDev op x s) k := by
  unfold ran at h; unfold ranDev
  cases hs : x.src <;> cases hb : begins op x s.dev <;> simp_all [Runs]
  · exact ⟨_, _, rfl, h.2, rfl⟩
  · exact ⟨_, _, rfl, h, rfl⟩
  · exact ⟨_, _, rfl, h, rfl⟩

/-- NETIF 63 on port 0 with one peer, its link and address up as given, and the management plane running. -/
def netDev (link : Bool) : Dev :=
  { slots := [(slotKey tStream 63, slot .enabled [2, 0, 0, 0x01000000])], net := { streams := [(63, { link := link, addr := link })] },
    plane := { mgmtRunning := true } }


/-! ### Witnesses: each hypothesis of a statement, met by a concrete state, clause by clause, at the ends of its ranges -/

theorem test_witness_step : ({ State.reset with pending := [.mgmtHeartbeat, .hostAuditRead] } : State).pending = .mgmtHeartbeat :: [.hostAuditRead] := by
  decide

theorem test_witness_idle : State.reset.pending = [] := by decide

theorem test_witness_well_formed : (Instr.ringEnable 127).wf = true ∧ (Instr.registerWrite 65535 0 false).wf = true := by decide

theorem test_witness_queue : QueueWf { State.reset with pending := [.hostDbSq 127 0] } := by
  intro c h; rw [List.mem_singleton.mp h]; decide

theorem test_witness_locked :
    let s : State := { State.reset with setup := { lock := true }, pending := [.sysLock 0] }
    s.setup.lock = true ∧ (∀ v, s.pending.head? ≠ some (.deviceReset v)) ∧ s.pending.head? ≠ some .fireboxPor ∧
      step s = .next { s with pending := [] } := by
  refine ⟨rfl, fun v => ?_, by decide, rfl⟩
  simp

theorem test_witness_only_setup : (Instr.jtagInstructionLoad 1).changesSetup = false ∧
    exec (.jtagInstructionLoad 1) State.reset = .next State.reset := ⟨rfl, rfl⟩

theorem test_witness_setup_commands :
    (st ready).dev.host.link = .ready ∧ (st ready).setup.lock = false ∧ (powered .rails).dev.pow.phase ≠ .held := by decide

theorem test_witness_doorbells :
    let r : Ring := { state := .active, c := 65535 }
    let s := rung 127 r
    let off := rung 127 { state := .resetting }
    127 < 128 ∧ s.dev.host.link = .ready ∧ (s.dev.host.ring 0).state = .disabled ∧ (off.dev.host.ring 127).state = .resetting ∧
      (s.dev.host.ring 127).state = .active ∧ ((15 : BitVec 16) - r.f).toNat ≤ r.n ∧ r.n < ((16 : BitVec 16) - r.f).toNat ∧
      ((15 : BitVec 16) - r.f).toNat = r.n ∧ ((15 : BitVec 16) - r.h).toNat ≤ r.n ∧ (r.u - r.f).toNat ≤ ((15 : BitVec 16) - r.f).toNat ∧
      ((rung 127 { state := .fenced }).dev.host.ring 127).state = .fenced := by
  decide

theorem test_witness_ring_states :
    let v : Ring := { cqb := 4096 }
    let s := rung 127 v
    let e : Entry := ⟨⟨0x0701, desc 0 0 []⟩, .held, 0⟩
    let busy := rung 127 { state := .paused, q := [e] }
    let dis := rung 127 { v with size := 3 }
    s.dev.host.link = .ready ∧ (s.dev.host.ring 127).configValid = true ∧ (dis.dev.host.ring 127).configValid = false ∧
      (dis.dev.host.ring 127).state = .disabled ∧ (busy.dev.host.ring 127).state = .paused ∧ e ∈ (busy.dev.host.ring 127).q ∧ e.st = .held ∧
      ((rung 0 { state := .active }).dev.host.ring 0).q = [] ∧
      ((rung 0 { state := .active }).dev.host.ring 0).u = ((rung 0 { state := .active }).dev.host.ring 0).f ∧
      ((rung 0 { state := .resetting }).dev.host.ring 0).state = .resetting ∧
      ((rung 0 { state := .fenced }).dev.host.ring 0).state ≠ .active ∧
      ((16 : BitVec 16) - (busy.dev.host.ring 127).f).toNat ≤ (busy.dev.host.ring 127).n := by decide

theorem test_witness_fetch :
    let s := st { host := { link := .ready, rings := [(127, { state := .active, u := 9 })] }, plane := { mgmtRunning := true } }
    127 < 128 ∧ s.dev.mayFetch (s.dev.host.ring 127) = true ∧ (s.dev.host.ring 127).cls = 0 ∧ (s.dev.host.ring 127).q.length ≤ 16 ∧
      (s.dev.host.ring 127).fetchRoom = 8 ∧ catalogue.contains 0x0701 = true ∧ catalogue.contains 0xFFFF = false ∧
      (s.dev.host.ring 127).q = [] ∧ s.dev.ringServes (s.dev.host.ring 127) = true := by decide

theorem test_witness_completion :
    let c : Cpl := ⟨.ok, 0, 0, [], 0⟩
    let e : Entry := ⟨⟨0x0701, desc 1 0 []⟩, .done c, 0⟩
    let r : Ring := { state := .active, q := [e], c := 15 }
    let last : Ring := { r with state := .resetting }
    let full : Ring := { r with c := 16 }
    r.q = e :: [] ∧ e.st = .done c ∧ r.state ≠ .disabled ∧ (r.c - r.h).toNat < r.n ∧ last.state = .resetting ∧
      (last.c - last.h).toNat < last.n ∧ e.raw.d.flags.toNat % 2 = 1 ∧ full.postable = none ∧
      catalogue.contains (0xFFFF) = false ∧ (cmdState {}).dev.ringServes ((cmdState {}).dev.host.ring 0) = true := by decide

theorem test_witness_coalesce :
    let r : Ring := { irqTime := 1, unsignalled := 1 }
    r.irqTime ≠ 0 ∧ r.unsignalled ≠ 0 ∧ ((rung 0 r).dev.host.msixEntry r.vec.toNat).mask = true ∧
      ((st { host := { msix := [(0, { mask := false })] } }).dev.host.msixEntry 0).mask = false ∧
      (State.reset.dev.host.ring 127).irqTime = 0 := by decide

theorem test_witness_reads :
    (st ready).dev.host.link = .ready ∧ 11 < 12 ∧ 127 < 128 ∧ State.reset.dev.host.link ≠ .ready ∧ 0x8000 % 4 = 0 ∧ 0x58 % 4 = 0 ∧
      (∀ x ∈ bar4Areas ready, 24 < x.1 ∨ x.1 + x.2.length ≤ 24) ∧ ready.linePoisoned ((0x580000 + (24 + 0)) / 64 % 16) ((0x580000 + 24) / 1024) = false := by
  decide

theorem test_witness_write_to_clear :
    let s := st { host := { link := .ready, bar4Wr := 65534 } }
    s.dev.host.link = .ready ∧ s.dev.host.bar4Wr < 65535 := by decide

theorem test_witness_ring_writes :
    let s := rung 127 { state := .active }
    s.dev.host.link = .ready ∧ (s.dev.host.ring 127).state ≠ .disabled ∧ (s.dev.host.ring 126).state = .disabled ∧ 0x10 ∈ [0x00, 0x04, 0x08, 0x0C, 0x10] := by
  decide

theorem test_witness_link :
    (powered .image).dev.pow.phase = .image ∧ (powered .up).dev.pow.phase = .up ∧
      (st { host := { link := .trained } }).dev.host.link = .trained := by decide

theorem test_witness_power_up :
    let s := powered .supplies
    let on := st { pow := { phase := .supplies, hkEn := true } }
    State.reset.dev.pow.phase = .held ∧ (powered .rails).dev.pow.phase = .rails ∧ (powered .supervisor).dev.pow.phase = .supervisor ∧
      on.dev.pow.phase = .supplies ∧ on.dev.pow.hkEn = true ∧ s.dev.pow.phase = .supplies ∧ s.dev.pow.hkEn = false ∧
      (powered .boot).dev.pow.phase = .boot ∧ State.reset.dev.sram.untested = true ∧ ({} : Sram).untested = true ∧ (powered .boot).dev.pow.phase ≠ .held ∧ (powered .boot).dev.pow.phase ≠ .supplies := by decide

theorem test_witness_resets : (powered .rails).dev.pow.phase ≠ .held ∧ (powered .boot).dev.pow.phase = .boot := by decide

theorem test_witness_clocks :
    let s := st { pow := { phase := .up, refOk := true, coreLock := true, throwLock := true, pdLock := true } }
    s.dev.pow.refOk = true ∧ s.dev.pow.locked 1 = true ∧ s.dev.pow.locked 3 = true ∧ s.dev.pow.phase ≠ .held ∧ s.dev.pow.phase ≠ .rails ∧
      (powered .supervisor).dev.pow.refOk = false ∧ (powered .supervisor).dev.pow.phase ≠ .rails := by decide

theorem test_witness_debug :
    let s := st { pow := { debug := true, scope := 1 } }
    s.dev.pow.debug = true ∧ s.dev.pow.scope.toNat % 2 = 1 ∧ s.dev.anyDriving = false ∧ State.reset.dev.pow.debug = false := by decide

theorem test_witness_watchdogs :
    let s := st { plane := { mgmtRunning := true, wdArmed := true, wdCount := 50 } }
    let down : State := { s with setup := { wdDown := true } }
    let lost := st { plane := { mgmtLost := true, lostTurns := 200 } }
    s.dev.plane.mgmtRunning = true ∧ s.dev.plane.wdArmed = true ∧ s.dev.plane.mgmtLost = false ∧ max 1 s.setup.wdTurns.toNat ≤ s.dev.plane.wdCount ∧
      s.setup.wdDown = false ∧ down.setup.wdDown = true ∧ lost.dev.plane.mgmtLost = true ∧
      4 * max 1 lost.setup.wdTurns.toNat ≤ lost.dev.plane.lostTurns ∧ lost.dev.img.start = none ∧
      (powered .image).dev.plane.takeover = false ∧ (powered .image).dev.pow.phase = .image := by decide

theorem test_witness_only_wheel : (Instr.hostAuditRead).changesWheel = false ∧ exec .hostAuditRead State.reset = .next State.reset := ⟨rfl, rfl⟩

theorem test_witness_mains_edges :
    let v : Option Nat := some 1000000
    let w (x : WheelState) : Wheel := { state := x, mains := ⟨v, v, v⟩, held := 2000000 }
    let acq (n : Nat) (ps : List Nat) : Wheel := { w .acquire with runEdges := n, runPeriods := ps }
    (w .free).edgeTaken false 1999 3000000 = false ∧
    (w .free).edgeTaken false 2000 3000000 = true ∧ (w .free).edgeTaken true 2000 3000000 = true ∧ (w .free).selected = false ∧
    ((w .free).edgeInterval false 3000000 && (w .free).inWindow (phaseError 0)) = true ∧
    ((w .locked).edgeInterval false 3000000 && (w .locked).inWindow (phaseError 20000)) = false ∧
    ((w .locked).edgeInterval false 3000000 && (w .locked).inWindow (phaseError 64)) = true ∧
    ((w .slew).edgeInterval false 3000000 && (w .slew).inWindow (phaseError 64)) = true ∧
    ((w .coast).edgeInterval false 3000000 && (w .coast).inWindow (phaseError 0)) = true ∧
    ((acq 7 [2000000]).edgeInterval false 3010000 && (acq 7 [2000000]).inWindow (phaseError 65471)) = true ∧
    ((acq 1 []).edgeInterval false 3000000 && (acq 1 []).inWindow (phaseError 0)) = true ∧
    1000 * (max 2000000 (3010000 - 1000000) - min 2000000 (3010000 - 1000000)) ≤ 5 * 2000000 ∧
    5 * 2000000 < 1000 * (max 2000000 (3010001 - 1000000) - min 2000000 (3010001 - 1000000)) ∧
    ((w .acquire).inputOf false).lastComp.isSome = true ∧
    (let x : Wheel := { state := .acquire }
     (x.inputOf false).lastComp.isSome = false ∧ (x.edgeInterval false 3000000 && x.inWindow (phaseError 0)) = true ∧
       x.edgeTaken false 2000 3000000 = true ∧ x.selected = false) := by decide

theorem test_witness_missed_edges :
    (st { wheel := { state := .locked, missedRow := 1 } }).dev.wheel.state = .locked ∧ (st { wheel := { state := .slew } }).dev.wheel.state = .slew ∧
      State.reset.dev.wheel.everLocked = false ∧ State.reset.dev.wheel.state ≠ .slew ∧ State.reset.dev.wheel.state ≠ .locked := by decide

theorem test_witness_turn_boundaries :
    let w : Wheel := { turn := 2999, lengthChange := true }
    (w.turn + 1 - w.base).toNat % max 1 w.length.toNat = 0 ∧ w.lengthChange = true ∧ State.reset.dev.wheel.lengthChange = false ∧
      (State.reset.dev.wheel.turn + 1 - State.reset.dev.wheel.base).toNat % max 1 State.reset.dev.wheel.length.toNat ≠ 0 := by decide


/-! ### Which commands can reach the part: an ill-formed command for each check, and its neighbour inside the range -/

theorem test_wf_descriptors :
    (∀ c ∈ [Instr.create { desc 0 0 [] with src := .ring 128 }, .nop { desc 0 0 [] with params := [] },
      .setRound { desc 0 0 [] with src := .coap 0 65536 false }, .mboxCommand true ⟨65536, desc 0 0 []⟩, .coapPostCmd 0 0 6 0 ⟨0, { desc 0 0 [] with params := [0] }⟩,
      .descriptorFetchDone 0 (.ok (List.replicate 17 ⟨0, desc 0 0 []⟩)), .descriptorFetchDone 128 .poisoned], c.wf = false) ∧
    (∀ c ∈ [Instr.create { desc 0 0 [] with src := .ring 127 }, .nop (desc 0 0 []), .setRound { desc 0 0 [] with src := .coap 0 65535 false },
      .mboxCommand true ⟨65535, desc 0 0 []⟩, .descriptorFetchDone 127 (.ok (List.replicate 16 ⟨0, desc 0 0 []⟩))], c.wf = true) := by decide

theorem test_wf_instances :
    (∀ c ∈ [Instr.hostDbSq 128 0, .completionPost 128, .tallyFbClear 8, .tallyFbCntRead 7 6, .acqFsCountRead 12, .sampleTrigger 32,
      .urgentTrigger 11 44, .loopDispatch 8 0 0, .loopFerr 96, .loopStarved (.user 96), .loopStarved (.balance 24 0), .loopStarved (.balance 0 12),
      .loopStarved (.limit 44), .pdWindowCrossing 32, .sensorPeriod 20, .calFamilyDone 3 [] 0, .flueCrcFail 32 0, .unitWatchdog 11, .carrierStart 48 0 0,
      .railOv 24 0, .railOcp 0 12 0, .feedShort 40 0, .branchHardTrip 4 0, .srcQualified 2 0, .srcQualified 0 4, .battCutoff 8, .seqStepUp 8, .seqMemberFault 0 32,
      .coneConfirm 20 0 0, .coneConfirm 0 3 0, .sensorBiasFault 16, .slotEraseDone 3, .pllUnlock 4, .bankRebuild 17, .moduleWrite 128 none, .netLink 2 true 0,
      .dtlsIdleClose 8, .streamEmission 64 true, .dischargeThermalOff true 40, .dischargeThermalOff false 24, .jtagInstructionLoad 16], c.wf = false) ∧
    (∀ c ∈ [Instr.hostDbSq 127 0, .tallyFbCntRead 7 5, .acqFsCountRead 11, .sampleTrigger 31, .urgentTrigger 11 43, .loopStarved (.balance 23 11),
      .pdWindowCrossing 31, .sensorPeriod 19, .unitWatchdog 10, .carrierStart 47 0 0, .railOcp 23 11 0, .feedShort 39 0, .branchHardTrip 3 0, .srcQualified 1 3,
      .seqMemberFault 7 31, .coneConfirm 19 2 0, .bankRebuild 16, .dischargeThermalOff true 39, .dischargeThermalOff false 23, .jtagInstructionLoad 15], c.wf = true) := by
  decide

theorem test_wf_operands :
    (∀ c ∈ [Instr.registerWrite 65536 0 false, .bar4Write 1048576 0, .mainsEdge false 0 0 65536, .handoverCopyDone 65536, .fsConversionDone 0 32768 false false 0,
      .fsConversionDone 0 (-32769) false false 0, .svConversionDone 65536 false false, .pdOutput 0 8388608 false 0 false, .coapPutImg 0 0 6 4096 false [],
      .sramLineRead [] ⟨17, 0, .none_, .owner⟩, .scrub [⟨0, 8192, .none_, .flip 0 0⟩], .bootRomInitDone [17]], c.wf = false) ∧
    (∀ c ∈ [Instr.registerWrite 65535 0 false, .bar4Write 1048575 0, .mainsEdge false 0 0 65535, .fsConversionDone 11 (-32768) false false 0,
      .pdOutput 31 (-8388608) false 0 false, .coapPutImg 0 0 6 4095 false [], .sramLineRead [⟨16, 8191, .none_, .flip 8 71⟩] ⟨16, 8191, .none_, .owner⟩,
      .bootRomInitDone [16]], c.wf = true) := by decide


theorem test_witness_descriptors :
    let nop := desc 0 0 []
    let s := cmdState {}
    ran 0x0701 nop s = true ∧ begins 0x0701 nop State.reset.dev = none ∧ (0x0701, Instr.nop, opNop).1 ∈ opcodeRows.map (·.1) ∧
      descCheck (ranDev 0x0701 (desc 16 0 []) s) 0x0701 (desc 16 0 []) = some .range ∧
      ({ nop with src := .mailbox true } : Desc).src = .mailbox true ∧ ({ nop with src := .ring 128 } : Desc).src = .ring 128 := by decide

theorem test_witness_nop :
    let box : Desc := { desc 0 0 [] with src := .mailbox true }
    let req : Desc := { desc 0 0 [] with src := .coap 0 65535 false }
    let n := netDev true
    let s := st { n with net := { n.net with sessions := [(0, ⟨0, [], [], true⟩)] } }
    ran 0x0701 (desc 0 0 []) (cmdState {}) = true ∧ ran 0x0701 box s = true ∧ ran 0x0701 req s = true := by
  decide

theorem test_witness_checks :
    let h := mkHandle tLoop 95 1
    let s (x : Slot) := cmdState { slots := [(slotKey tLoop 95, x)] }
    let e (x : Slot) := ranDev 0x0301 (desc 0 h.toNat []) (s x)
    (begins 0x0301 (desc 16 h.toNat []) (s {}).dev).isSome = true ∧ 16 ≤ (desc 16 h.toNat []).flags.toNat ∧
    (e {}).classTakes (.ring 0) 0x0502 = false ∧ ({ img := { safeHold := true } } : Dev).recoveryTakes 0x0301 = false ∧
    ({ sag := { fenced := [9] } } : Dev).flueTakes 0x0301 = false ∧ (e {}).recoveryTakes 0x0301 = true ∧ (desc 15 0 []).flags.toNat < 16 ∧
    wordCheck (e {}) 0x0301 (desc 0 h.toNat []) = none ∧ wordCheck (e {}) 0x0701 (desc 0 h.toNat []) = none ∧
    deviceWide.contains 0x0701 = true ∧ deviceWide.contains 0x0301 = false ∧
    typeLimit tLoop ≤ hIndex (mkHandle tLoop 96 1) ∧ hGen (mkHandle tLoop 95 0) = 0 ∧ hIndex h < typeLimit (hType h) ∧ hGen h ≠ 0 ∧
    opTakesType 0x0301 tLoop = true ∧ hGen h ≠ ((e { gen := 2 }).slot tLoop 95).issues ∧
    hGen h = ((e {}).slot tLoop 95).issues ∧ ((e {}).slot tLoop 95).isLive = false ∧
    ((e (slot .fenced [])).slot tLoop 95).isLive = true ∧ ((e (slot .fenced [])).slot tLoop 95).hstate = .fenced := by decide

theorem test_witness_device_opcodes :
    let s := cmdState {}
    let t := st { s.dev with plane := { mgmtRunning := true, takeover := true } }
    let t' := st { s.dev with plane := { mgmtRunning := true, takeover := true, hearthRestarted := true } }
    let ev := desc 0 0 []
    let evs (q : List QEvent) := st { s.dev with host := { rings := [(0, { state := .active, cls := 2, u := 1, evq := q })] } }
    ran 0x0305 (desc 0 0 [65535]) s = true ∧ parN (desc 0 0 [65535]) 0 = 65535 ∧ parN (desc 0 0 [65536]) 0 = 65536 ∧ parN (desc 0 0 [1]) 0 = 1 ∧
    ran 0x0304 (desc 0 0 [3]) s = true ∧ Profile.ofCode (parN (desc 0 0 [2]) 0) = some .raku ∧
    replaceAll (Profile.ceiling .raku) (ranDev 0x0304 (desc 0 0 [2]) s).thr.placed ≠ none ∧
    replaceAll (Profile.ceiling .raku) [⟨.user 0, 0, 1000000, 0, 1, 1⟩] = none ∧
    ran 0x0307 ev s = true ∧ ran 0x0307 ev t = true ∧ ran 0x0307 ev t' = true ∧
    (ranDev 0x0307 ev t').plane.hearthRestarted = true ∧ (ranDev 0x0307 ev t).plane.hearthRestarted = false ∧
    ran 0x0307 ev (st { s.dev with sag := { fenced := [9] } }) = true ∧ (ranDev 0x0307 ev s).sag.fenced.contains 9 = false ∧
    ran 0x0403 ev (evs []) = true ∧ ran 0x0403 ev (evs [⟨0x0101, 0, 0, 0, 0, false⟩]) = true ∧
    ((ranDev 0x0403 ev (evs [⟨0x0101, 0, 0, 0, 0, false⟩])).host.ring 0).q.any Entry.waitsEvent = true := by decide

theorem test_witness_streams_and_unlock :
    let s := cmdState {}
    let b (n : Nat) := st { s.dev with host := { rings := [(0, { state := .active, cls := 1, u := 1 })] }, sag := { fenced := [n] } }
    ran 0x0502 (desc 0 0 [0, 0, 4095]) (b 0) = true ∧ ran 0x0502 (desc 0 0 [0, 0, 4096]) (b 10) = true ∧
    (ranDev 0x0502 (desc 0 0 [0, 0, 4096]) (b 10)).sag.fenced.contains 10 = true ∧
    ran 0x0502 (desc 0 0 [0, 0, 4096]) (b 0) = true ∧
    ran 0x0705 (desc 0 0 [0, 0, 80]) s = true ∧ sourceBytes { desc 0 0 [0, 0, 80] with src := .mailbox false } 0 80 = none ∧
    sourceBytes (desc 0 0 [0, 0, 80]) 0 80 = some [] ∧ tokenOk [] = false := by decide

theorem test_witness_queries :
    let h := mkHandle tLoop 95 1
    let n := mkHandle tSensor 19 1
    let s := cmdState { slots := [(slotKey tLoop 95, slot .disabled []), (slotKey tSensor 19, slot .disabled [])] }
    ran 0x0401 (desc 0 0 []) s = true ∧ ran 0x0401 (desc 0 h.toNat []) s = true ∧ (ranDev 0x0401 (desc 0 0 []) s).sag.fenced.contains 9 = false ∧
    ran 0x0402 (desc 0 h.toNat [0, 0, 64, 1]) s = true ∧ (selectorsOf tLoop).contains 1 = true ∧ (selectorsOf tLoop).contains 2 = false ∧
    ran 0x0402 (desc 0 n.toNat [0, 0, 64, 0]) s = true ∧ hType n = tSensor ∧ (selectorsOf tSensor).contains 0 = true ∧
    destOk (desc 0 h.toNat [0, 0, 64, 1]) 64 = true ∧ destOk { desc 0 h.toNat [] with src := .mailbox true } 4096 = true ∧
    destOk { desc 0 h.toNat [] with src := .mailbox true } 4097 = false ∧
    ran 0x0404 (desc 0 0 [0, 0, 32]) s = true ∧ ran 0x0405 (desc 0 0 [12, 0, 0, 16]) s = true ∧ typeLimit 13 = 0 ∧ typeLimit 12 ≠ 0 ∧
    ran 0x0704 (desc 0 0 [0x0600, 0, 0, 64]) s = true ∧ (kilnRecord s.dev 0x0601).isNone = true ∧ ran 0x0602 (desc 0 0 [0, 0, 64]) s = true := by
  decide

theorem test_witness_banks :
    let h := mkHandle tMon 63 1
    let bank (a : List Byte) (sw : Bool) : Slot := { live := true, bankA := a, bankB := a, swap := sw, cfg := [0, 1000, 0, 0, 0, 0, 0] }
    let s (x : Slot) := cmdState { slots := [(slotKey tMon 63, x)] }
    let x := desc 0 h.toNat [0, 0, 4, 0]
    let w : Desc := { x with data := [1, 2, 3, 4] }
    let p := bank [0, 0, 0, 0] false
    let q := bank [0, 0, 0, 0] true
    ran 0x0201 w (s {live := true}) = true ∧ ran 0x0201 w (s p) = true ∧ ran 0x0201 w (s q) = true ∧
    ((ranDev 0x0201 w (s {live := true})).slot tMon 63).bankA = [] ∧ ((ranDev 0x0201 w (s q)).slot tMon 63).swap = true ∧
    bankSpanOk p tMon 0 4 = true ∧ bankSpanOk p tMon 1 4 = false ∧ sourceBytes w 0 4 = some [1, 2, 3, 4] ∧
    ran 0x0203 x (s p) = true ∧ ran 0x0204 x (s p) = true ∧ ran 0x0202 x (s p) = true ∧ ran 0x0202 x (s q) = true ∧
    bitsN (desc 8 0 []).flags.toNat 3 1 = 1 ∧ bitsN x.flags.toNat 3 1 = 0 ∧
    swapCheck (ranDev 0x0202 x (s p)) tMon 63 = .fail .range 0 := by decide


theorem test_witness_create :
    let ws : List Word := [0, 0x1048, 0, 0, 0, 0]
    let x : Desc := { desc 4 (mkHandle tExtr 511 0).toNat [0, 0, 24, 1] with data := bytes ws }
    let y : Desc := { x with flags := 0 }
    let s := cmdState {}
    let full := cmdState { slots := [(slotKey tExtr 511, slot .disabled ws)] }
    ran 0x0101 x s = true ∧ typeLimit (hType x.handle) ≠ 0 ∧ indexBound x tExtr = true ∧ hIndex x.handle < typeLimit tExtr ∧
    ((ranDev 0x0101 x s).slot tExtr 511).isLive = false ∧ ((ranDev 0x0101 x full).slot tExtr 511).isLive = true ∧
    typeLimit tExtr ≤ hIndex (mkHandle tExtr 512 0) ∧ typeLimit (hType (mkHandle 13 0 0)) = 0 ∧
    indexBound y tExtr = false ∧ (ranDev 0x0101 y s).freeIndex tExtr = some 0 ∧
    sourceBytes x 0 (parN x 2) = some (bytes ws) ∧ blockWordsOf tExtr (bytes ws) = some ws ∧ ((ranDev 0x0101 x s).slot tExtr 511).ghost = false ∧
    (admitBlock (ranDev 0x0101 x s) tExtr 511 1 24 ws).1 = .pass ∧ (admitBlock (ranDev 0x0101 x s) tExtr 511 1 24 [0, 0x48]).1 = .fail .range 0 ∧
    schemaOk tExtr 2 = false ∧ schemaOk tExtr 1 = true := by decide +kernel

theorem test_witness_configure_destroy :
    let ws : List Word := [0, 0x1048, 0, 0, 0, 0]
    let h := mkHandle tExtr 511 1
    let x : Desc := { desc 0 h.toNat [0, 0, 24, 1] with data := bytes ws }
    let s (y : Slot) := cmdState { slots := [(slotKey tExtr 511, y)] }
    let loop := mkHandle tLoop 0 1
    let held := cmdState { slots := [(slotKey tLoop 0, slot .disabled []), (slotKey tSensor 19, slot .disabled [0, 0, 0, 0, loop])] }
    ran 0x0103 x (s (slot .enabled ws)) = true ∧ ran 0x0103 x (s (slot .disabled ws)) = true ∧
    ((ranDev 0x0103 x (s (slot .enabled ws))).slot tExtr 511).hstate ≠ .disabled ∧
    ((ranDev 0x0103 x (s { slot .disabled ws with swap := true })).slot tExtr 511).swap = true ∧
    ran 0x0102 x (s (slot .disabled ws)) = true ∧ (ranDev 0x0102 x (s (slot .enabled ws))).holderOf h = none ∧
    ((ranDev 0x0102 x (s (slot .enabled ws))).slot tExtr 511).hstate = .enabled ∧ bitsN (desc 2 0 []).flags.toNat 1 1 = 1 ∧
    bitsN x.flags.toNat 1 1 = 0 ∧ ran 0x0102 (desc 0 loop.toNat []) held = true ∧ (ranDev 0x0102 (desc 0 loop.toNat []) held).holderOf loop = some (mkHandle tSensor 19 1) := by
  decide

theorem test_witness_enable :
    let s (t i : Nat) (y : Slot) := cmdState { slots := [(slotKey t i, y)] }
    let x (t i : Nat) := desc 0 (mkHandle t i 1).toNat []
    ran 0x0301 (x tSeq 7) (s tSeq 7 (slot .disabled [])) = true ∧ ran 0x0301 (x tLoop 95) (s tLoop 95 (slot .disabled [])) = true ∧
    ran 0x0301 (x tExtr 511) (s tExtr 511 (slot .disabled [])) = true ∧ ran 0x0301 (x tHist 255) (s tHist 255 (slot .enabled [])) = true ∧
    (ranDev 0x0301 (x tLoop 95) (s tLoop 95 (slot .disabled []))).ownedElsewhere tLoop 95 = false ∧
    (ranDev 0x0301 (x tHist 255) (s tHist 255 (slot .enabled []))).slot tHist 255 ≠ slot .disabled [] ∧
    bits (par (desc 0 0 [1]) 0) 1 31 = 0 ∧ bits (par (desc 0 0 [2]) 0) 1 31 ≠ 0 ∧
    ran 0x0302 (x tSeq 7) (s tSeq 7 (slot .enabled [])) = true ∧ ran 0x0302 (x tExtr 511) (s tExtr 511 (slot .enabled [])) = true ∧
    ran 0x0501 (x tStream 63) (s tStream 63 (slot .disabled [])) = true ∧ ran 0x0501 (x tStream 63) (s tStream 63 (slot .enabled [])) = true ∧
    nkKind ((ranDev 0x0501 (x tStream 63) (s tStream 63 (slot .disabled [2]))).strmCfg 63) = 2 ∧
    nkKind ((ranDev 0x0501 (x tStream 63) (s tStream 63 (slot .disabled [0]))).strmCfg 63) ≠ 2 ∧
    ran 0x0503 (x tStream 63) (s tStream 63 (slot .enabled [2])) = true ∧
    (ranDev 0x0503 (x tStream 63) (s tStream 63 (slot .enabled [2]))).netifUsed 63 = false := by decide

theorem test_witness_set_point :
    let s (t i : Nat) (y : Slot) := cmdState { slots := [(slotKey t i, y)] }
    let x (t i : Nat) (p : List Word) := desc 0 (mkHandle t i 1).toNat p
    let loop := slot .disabled [0, 1]
    let v := ranDev 0x0303 (x tLoop 95 [0]) (s tLoop 95 { loop with swap := true })
    let on := st { (s tLoop 95 { loop with hstate := .enabled }).dev with thr := { loops := [(95, { latch := .hold })] } }
    ran 0x0303 (x tLoop 95 [511]) (s tLoop 95 loop) = true ∧ ran 0x0303 (x tRail 23 [0]) (s tRail 23 (slot .disabled [])) = true ∧
    ran 0x0303 (x tSource 1 [0]) (s tSource 1 (slot .enabled [])) = true ∧ ran 0x0303 (x tString 7 [0, 0, 0]) (s tString 7 (slot .enabled [])) = true ∧
    ran 0x0303 (x tMon 63 [0]) (s tMon 63 (slot .enabled [])) = true ∧ tMon ≠ tLoop ∧ tMon ≠ tRail ∧ tMon ≠ tSource ∧ tMon ≠ tString ∧
    lcKcount ((ranDev 0x0303 (x tLoop 95 [511]) (s tLoop 95 loop)).slot tLoop 95).cfg ≤ 1 ∧
    0 < lcKcount (v.slot tLoop 95).cfg ∧ (v.slot tLoop 95).swap = true ∧ (v.slot tLoop 95).hstate = .disabled ∧ (v.loop 95).latch = .running ∧
    ran 0x0303 (x tLoop 95 [0]) on = true ∧ ((ranDev 0x0303 (x tLoop 95 [0]) on).loop 95).latch ≠ .running ∧
    ((ranDev 0x0303 (x tLoop 95 [0]) on).slot tLoop 95).hstate ≠ .disabled ∧
    (let r := ranDev 0x0303 (x tRail 23 [50]) (s tRail 23 (slot .disabled [0, 0, 0, 0, 0, 0, 0, 0x03E80000]))
     bits (r.railW 23 7) 16 16 = 1000 ∧ 5 * 1000 ≤ 100 * 50 ∧ 100 * 950 ≤ 95 * 1000 ∧ 100 * 49 < 5 * 1000 ∧ 95 * 1000 < 100 * 951 ∧
       ((abortSetPoint r (mkHandle tRail 23 1)).rail 23).run ≠ .on) ∧
    ran 0x0306 (x tLoop 95 [3]) (s tLoop 95 loop) = true ∧ bit (3 : Word) 0 = true ∧ bit (3 : Word) 1 = true ∧ bit (1 : Word) 1 = false ∧
    ran 0x0306 (x tRail 23 [2]) (s tRail 23 (slot .enabled [])) = true ∧ ran 0x0306 (x tFeed 39 [1]) (s tFeed 39 (slot .enabled [])) = true ∧
    ran 0x0306 (x tBranch 3 [1]) (s tBranch 3 (slot .enabled [])) = true ∧ ran 0x0306 (x tSource 1 [1]) (s tSource 1 (slot .enabled [])) = true ∧
    ran 0x0306 (x tSeq 7 [1]) (s tSeq 7 (slot .enabled [])) = true ∧ ran 0x0306 (x tMon 63 [1]) (s tMon 63 (slot .enabled [])) = true ∧
    ran 0x0306 (x tString 7 [1]) (s tString 7 (slot .enabled [])) = true ∧ ran 0x0306 (x tHist 255 [1]) (s tHist 255 (slot .enabled [])) = true ∧
    ran 0x0702 (x tLoop 95 []) (s tLoop 95 loop) = true := by decide


/-- A manifest of one sherd: FORMAT 1, MSHERDS 1, TOTAL 2, three empty parts at sherd 1, one stepping B0, one pair 7, and the hash
of its payload sherd. -/
def manifest (hash : List Byte) : List Byte :=
  [0x4B, 0x4C, 0x44, 0x4E, 1, 0, 1, 0, 2, 0] ++ List.replicate 14 0 ++ [7, 0, 0, 0, 0, 0, 0, 0] ++
    [1, 0, 0, 0, 0, 0, 0, 0, 1, 0, 0, 0, 0, 0, 0, 0, 1, 0, 0, 0, 0, 0, 0, 0] ++ List.replicate 36 0 ++ [1, 1, 0, 0, 0xB0] ++
    List.replicate 7 0 ++ [7, 0, 0, 0] ++ List.replicate 404 0 ++ hash ++ List.replicate 480 0

/-- SHA-256 of no bytes (FIPS 180-4). -/
def emptyHash : List Byte :=
  [0xe3, 0xb0, 0xc4, 0x42, 0x98, 0xfc, 0x1c, 0x14, 0x9a, 0xfb, 0xf4, 0xc8, 0x99, 0x6f, 0xb9, 0x24,
   0x27, 0xae, 0x41, 0xe4, 0x64, 0x9b, 0x93, 0x4c, 0xa4, 0x95, 0x99, 0x1b, 0x78, 0x52, 0xb8, 0x55]

/-- Greenware whose manifest is verified. -/
def green (n : Nat) : ImgSlot :=
  { role := .greenware, erased := false, verified := true,
    sherds := (List.range n).map fun k => (k, if k = 0 then manifest emptyHash else []) }

/-- An update store with two slots in use and both Firebox banks at version 7. -/
def store (a b : ImgSlot) : Img := { slots := [(0, a), (1, b)], banks := [(0, { version := some 7 }), (1, { version := some 7 })] }

/-- The slot the part leaves the factory with. -/
def factory (r : SlotRole) : ImgSlot := { role := r, erased := false, factory := true, verified := true }

theorem test_witness_sherds :
    let b : List Byte := List.replicate 1024 0
    let x : Desc := { desc 0 0 [4095] with data := b }
    let s := cmdState { img := store (factory .active) (green 1) }
    let d := ranDev 0x0601 x s
    let n := netDev true
    let req := st { n with net := { n.net with sessions := [(7, ⟨0, [], [(1, [])], true⟩)] } }
    ran 0x0601 x s = true ∧ (sourceBytes x 1 1024).isSome = true ∧ d.sherdSlot = some 1 ∧ d.roleSlot .greenware = some 1 ∧
    (d.imgSlot 1).hasHead = true ∧ (d.imgSlot 1).verified = true ∧ (d.imgSlot 1).msherds ≤ 1 ∧ 1 < (d.imgSlot 1).total ∧ d.taking = false ∧
    d.roleSlot .trial = none ∧ ((green 1).sherd 1).isSome = false ∧ ((green 2).sherd 1).isSome = true ∧ d.img.writes = [] ∧
    (coapBegins 7 0 req.dev).isSome = true ∧ (req.dev.coapSession 7).isSome = true ∧ descCheck req.dev 0x0601 ⟨.coap 7 0 true, 0, 0, [], []⟩ = none ∧
    Session.storedFor ⟨0, [], [(1, [])], true⟩ 1 = some [] ∧
    (({ d with img := { d.img with writes := [⟨none, 1, 1, b⟩] } } : Dev).imgSlot 1).role = .greenware ∧
    ((st { img := store (factory .active) { role := .rejected } }).dev.imgSlot 1).role = .rejected ∧
    ({ img := { slots := [(0, factory .active), (1, factory .previous), (2, { role := .rejected })] } } : Dev).sherdSlot = none ∧ (manifestWith (green 1) 1 []).bind manifestRefusal = none := by decide +kernel

theorem test_witness_sherd_hash :
    sherdHashOk (manifestBytes (green 1) []) 1 [] = true ∧
    sherdHashOk (manifestBytes (green 1) []) 1 [0] = false := by decide +kernel

theorem test_witness_starts :
    let s := cmdState { img := store (factory .active) (green 2) }
    let d := ranDev 0x0603 (desc 0 0 [1]) s
    ran 0x0603 (desc 0 0 [1]) s = true ∧ ran 0x0603 (desc 0 0 []) (cmdState {}) = true ∧ (ranDev 0x0603 (desc 0 0 []) (cmdState {})).greenReady = none ∧
    d.greenReady = some 1 ∧ d.img.start = none ∧ bit (par (desc 0 0 [1]) 0) 0 = true ∧ bit (par (desc 0 0 []) 0) 0 = false ∧
    wouldHandOver d 0 = true ∧ wouldHandOver { d with plane := {} } 1 = false := by decide +kernel

/-- Whether a candidate passes rests on the signature check, which the spec leaves to the Ozrath key: here it passes. -/
theorem test_witness_candidate (sig : ∀ h r, Config.signatureOk h r = true) :
    imageCheck (ranDev 0x0603 (desc 0 0 [1]) (cmdState { img := store (factory .active) (green 2) })) 1 true = none := by
  simp only [imageCheck, imageSound, manifestSigned, sig]
  decide +kernel

theorem test_witness_rollback :
    let s := cmdState { img := { slots := [(0, factory .active), (1, factory .previous)] } }
    let d := ranDev 0x0604 (desc 0 0 []) s
    ran 0x0604 (desc 0 0 []) s = true ∧ d.rollbackTarget = some 1 ∧ d.img.start = none ∧ imageCheck d 1 false = none ∧
    (ranDev 0x0604 (desc 0 0 []) (cmdState {})).rollbackTarget = none ∧ ran 0x0703 (desc 0 0 []) (cmdState {}) = true ∧
    ran 0x0703 (desc 0 0 []) (cmdState { img := { start := some ⟨0, 7, false, false, .copying, 0, false, false⟩ } }) = true := by decide +kernel

theorem test_witness_handover :
    let at_ (p : StartPhase) (g : Bool) : State := st { img := { start := some ⟨0, 1, false, g, p, 0, false, false⟩ } }
    State.reset.dev.img.start = none ∧ (at_ .copying true).dev.img.start = some ⟨0, 1, false, true, .copying, 0, false, false⟩ ∧
    (at_ .copied false).dev.img.start = some ⟨0, 1, false, false, .copied, 0, false, false⟩ ∧
    (at_ .holding true).dev.img.start = some ⟨0, 1, false, true, .holding, 0, false, false⟩ ∧ (0 : BitVec 48) = (at_ .holding true).dev.wheel.turn ∧
    (at_ .handedOver true).dev.img.start.isSome = true ∧ (at_ .started true).dev.img.start.isSome = true ∧
    (∀ peer, ((at_ .started true).dev.twb.box peer).held = none) ∧ (at_ .started true).dev.host.link = .down := by decide

theorem test_witness_image_fates :
    let due := st { img := { fbDue := some (1, 0) } }
    let confirm := st { img := { fbConfirm := some 250 } }
    let trial := st { img := { store (factory .previous) { role := .trial } with run := 1, confirm := 250, missedBeat := true } }
    let none_ := st { img := { slots := [], noCandidate := true }, pow := { phase := .image } }
    due.dev.img.fbDue = some (1, due.dev.wheel.turn) ∧ State.reset.dev.img.fbDue = none ∧ confirm.dev.img.fbConfirm = some 250 ∧
    trial.dev.inTrial = true ∧ 250 ≤ trial.dev.img.confirm ∧ trial.dev.roleSlot .previous = some 0 ∧
    (st { img := store (factory .active) { role := .previous } }).dev.roleSlot .active = some 0 ∧ State.reset.dev.img.confirm < 250 ∧
    bootFails trial.dev = true ∧ bootFails State.reset.dev = false ∧ none_.dev.plane.mgmtRunning = false ∧ none_.dev.img.start = none ∧
    none_.dev.img.noCandidate = true ∧ none_.dev.twb.boxA.held = none ∧ none_.dev.img.safeHold = false ∧ none_.dev.pow.phase = .image ∧
    ∀ peer, (none_.dev.twb.box peer).held = none := by decide


/-- A device whose converter 11 has one regular slot on generator 31. -/
def sampling (c : Conv) : Dev :=
  { acq := { convs := [(11, { c with slots := [⟨64, 0, 0, 31, 0, 0, [slotKey tLoop 0]⟩] })] }, pwm := { gens := [(31, { definers := [slotKey tRail 0] })] },
    slots := [(slotKey tLoop 0, slot .enabled [])], plane := { takeover := true } }

theorem test_witness_fast_converters :
    let d := sampling {}
    let y (g : Nat) : FsStart := { gen := g, inputs := [64] }
    let busy := sampling { current := some (y 30) }
    let full := sampling { current := some (y 30), waiting := [y 31] }
    let ended := sampling { current := some { y 30 with inputs := [] } }
    d.genDefined 31 = true ∧ d.genDefined 30 = false ∧ d.plane.takeover = true ∧ startInputs d 10 31 127 = [] ∧ startInputs d 11 31 127 ≠ [] ∧
    (d.conv 11).current = none ∧ (busy.conv 11).current ≠ none ∧ (∀ y ∈ (busy.conv 11).waiting, y.gen ≠ 31) ∧
    (∃ y ∈ (full.conv 11).waiting, y.gen = 31) ∧ (d.conv 11).injRunning = [] ∧
    (d.conv 11).busy = false ∧ (busy.conv 11).busy = true ∧ (full.conv 11).busy = true ∧ (y 30).inputs = 64 :: [] ∧
    (busy.conv 11).current = some (y 30) ∧ (full.conv 11).waiting ≠ [] ∧ (ended.conv 11).current = some { y 30 with inputs := [] } ∧
    (ended.conv 11).injRunning = [] ∧ (ended.conv 11).injPending = [] := by decide

theorem test_witness_injected :
    let s := st (sampling { inj := [⟨1, 0, [], 0⟩], injPending := [43], injRunning := [(43, 64)] })
    let t := st (sampling { inj := [⟨1, 0, [], 0⟩], injPending := [43] })
    (s.dev.conv 11).injRunning = (43, 64) :: [] ∧ (t.dev.conv 11).injRunning = [] ∧ (t.dev.conv 11).injPending = 43 :: [] ∧
    43 ∈ (t.dev.conv 11).injPending ∧ 42 ∉ (t.dev.conv 11).injPending ∧ (t.dev.conv 11).inj ≠ [] ∧ (State.reset.dev.conv 11).inj = [] ∧
    (State.reset.dev.conv 11).injPending = [] ∧ (s.dev.conv 11).injRunning ≠ [] := by decide

theorem test_witness_slow_converters :
    let s := st { acq := { svScan := [63], pdStopped := [7], pd := [(28, { owner := some (slotKey tString 7) }), (29, { owner := some (slotKey tString 7) }),
      (30, { owner := some (slotKey tString 7) }), (31, { owner := some (slotKey tString 7), calHold := true })], tdQueue := [19] } }
    let mon := st { s.dev with slots := [(slotKey tMon 63, slot .enabled [63]), (slotKey tSensor 19, slot .enabled [0, 0, 0, 250])],
                               heat := { sens := [(19, { turns := 250 })] } }
    s.dev.acq.svPaused = false ∧ State.reset.dev.acq.svScan = [] ∧ s.dev.acq.svScan = 63 :: [] ∧ s.dev.monOfInput 63 = none ∧ mon.dev.monOfInput 63 = some 63 ∧
    s.dev.acq.pdStopped.contains (31 / 4) = true ∧ s.dev.acq.pdStopped.contains (27 / 4) = false ∧ (s.dev.pdChan 31).calHold = true ∧
    s.dev.acq.calBusy = false ∧ (s.dev.pdChan 27).calHold = false ∧ (∀ k < 4, (State.reset.dev.pdChan (31 / 4 * 4 + k)).owner = none) ∧
    State.reset.dev.acq.pdStopped.contains 7 = true ∧ (∀ k < 4, (s.dev.pdChan (31 / 4 * 4 + k)).owner = some (slotKey tString 7)) ∧
    s.dev.acq.tdQueue = 19 :: [] ∧ s.dev.live tSensor 19 = false ∧ mon.dev.live tSensor 19 = true ∧
    bits ((mon.dev.slot tSensor 19).w 3) 0 16 = 250 ∧ 250 ≤ (mon.dev.sens 19).turns ∧ mon.dev.enabled tSensor 19 = true ∧ mon.dev.plane.takeover = false ∧
    (s.dev.sens 19).turns < 1 ∧ 19 ∈ mon.dev.acq.tdQueue ∧ 19 ∉ State.reset.dev.acq.tdQueue := by decide

theorem test_witness_calibration :
    let s := st { ready with acq := { calBusy := true, calLeft := 5, calFamilies := 5 } }
    let e := st { acq := { calBusy := true, calFamilies := 3, fsSkipped := 1 } }
    let fs := st { acq := { calBusy := true, calLeft := 2, calFamilies := 7 } }
    (st ready).dev.acq.calBusy = false ∧ bit (1 : Word) 0 = true ∧ bit (14 : Word) 0 = false ∧ s.dev.acq.calBusy = true ∧
    s.dev.acq.calLeft.toNat / 4 % 2 = 1 ∧ s.dev.acq.calLeft.toNat % 2 = 1 ∧ s.dev.acq.calLeft.toNat / 2 ^ 1 % 2 = 0 ∧
    yieldFitsFs ⟨true, 32767, -32768, []⟩ = true ∧ yieldFitsFs ⟨true, 32768, 0, []⟩ = false ∧ s.dev.acq.calLeft ≠ 0 ∧ e.dev.acq.calLeft = 0 ∧
    e.dev.acq.calFamilies.toNat / 4 % 2 = 0 ∧ fs.dev.acq.calFamilies.toNat / 4 % 2 = 1 ∧ fs.dev.acq.calLeft.toNat / 2 % 2 = 1 ∧
    e.dev.acq.fsSkipped.toNat / 2 ^ 0 % 2 = 1 ∧ e.dev.acq.fsSkipped.toNat / 2 ^ 11 % 2 = 0 ∧
    yieldFitsPd ⟨true, 0, 0, []⟩ = true ∧ yieldFitsPd ⟨true, 9000000, 0, []⟩ = false ∧ bit (128 : Word) 7 = true ∧ bit (127 : Word) 7 = false := by decide


theorem test_witness_loops :
    let p : Placed := ⟨.user 95, 7, 100, 0, 1, 1⟩
    let q : Placed := ⟨.balance 23 11, 6, 100, 0, 1, 1⟩
    let r : Placed := ⟨.limit 43, 5, 100, 0, 1, 1⟩
    let ins : List Int := [0, 0, 0, 0, 0, 0, 0, 0]
    let cfg (a f : Nat) : List Word := [0, 1, 0, BitVec.ofNat 32 (a * 1024 + f * 512 + 4096)]
    let d (a : Nat) : Dev :=
      { thr := { placed := [p, q, r], ready := [.balance 23 11, .limit 43, .user 95], loops := [(95, { ready := some ins, ferr := 1, missed := 8 })] },
        slots := [(slotKey tLoop 95, slot .enabled (cfg a 1)), (slotKey tBranch 3, slot .enabled [])], branches := [(3, { limMissed := 8 })] }
    let s := st (d 2)
    s.dev.plane.takeover = false ∧ s.dev.thr.ready = [.balance 23 11, .limit 43] ++ .user 95 :: [] ∧
    (∀ x ∈ [LoopId.balance 23 11, .limit 43], ∀ y ∈ s.dev.thr.placed, y.id = x → y.lane ≠ 7) ∧ (∃ y ∈ s.dev.thr.placed, y.id = .user 95 ∧ y.lane = 7) ∧
    (∃ y ∈ s.dev.thr.placed, y.id = .balance 23 11 ∧ y.lane = 6) ∧ (∃ y ∈ s.dev.thr.placed, y.id = .limit 43 ∧ y.lane = 5) ∧
    (∀ id ∈ s.dev.thr.ready, ∀ y ∈ s.dev.thr.placed, y.id = id → y.lane ≠ 0) ∧
    (s.dev.loop 95).ready = some ins ∧ s.dev.railOfLoop 95 = none ∧ (s.dev.slot tLoop 95).swap = false ∧ (s.dev.loop 95).setPoints = [] ∧
    (s.dev.loop 95).preload = none ∧ (∀ k < 4, lcKind (s.dev.slot tLoop 95).cfg k = 0) ∧
    (s.dev.loopRuns 95 && lcFerrEn (s.dev.slot tLoop 95).cfg && decide (max 1 (lcTimer (s.dev.slot tLoop 95).cfg) ≤ (s.dev.loop 95).ferr)) = true ∧
    (State.reset.dev.loopRuns 95) = false ∧ (s.dev.loopRuns 95 && decide (lcMissLimit (s.dev.slot tLoop 95).cfg ≤ (s.dev.loop 95).missed)) = true ∧
    (s.dev.live (chanType 43) (chanIndex 43) && decide (8 ≤ (s.dev.chan 43).limMissed)) = true ∧ s.dev.live (chanType 42) (chanIndex 42) = false ∧
    lcAction ((d 0).slot tLoop 95).cfg = 0 ∧ lcAction ((d 1).slot tLoop 95).cfg = 1 ∧ lcAction ((d 2).slot tLoop 95).cfg = 2 ∧
    s.dev.live (ownerKey (.user 95) / 4096) (ownerKey (.user 95) % 4096) = true ∧
    s.dev.live (ownerKey (.user 94) / 4096) (ownerKey (.user 94) % 4096) = false := by decide


/-- RAIL 23 of two phases, 47 and 46, with discharge switch 23 and a period of 2,000. -/
def railSlot (h : HState) : Slot := slot h [0x07D01702, 0x00002E2F, 0, 0, 0, 0]

/-- A device whose RAIL 23 is in one run state. -/
def railDev (r : Rail) (p : Phase) : Dev :=
  { slots := [(slotKey tRail 23, railSlot .enabled)],
    pwm := { vdrvLow := false, rails := [(23, r)], phases := [(46, { p with owner := some (slotKey tRail 23) }), (47, { owner := some (slotKey tRail 23), state := .active })] } }

theorem test_witness_rails :
    let s (r : RailRun) := st (railDev { run := r } {})
    let off := st (railDev { run := .off, discharge := true } {})
    let late := st (railDev { run := .stopping, fallExpired := true } {})
    (railDev {} {}).railPhases 23 = [47, 46] ∧ (railDev {} {}).railDsch 23 = some 23 ∧ ((s .starting).dev.rail 23).preLeft = 0 ∧
    ((s .starting).dev.rail 23).ramping = false ∧ ((s .on).dev.rail 23).run = .on ∧ ((s .on).dev.rail 23).pg = false ∧
    (st (railDev { run := .on, pg := true } {})).dev.rail 23 ≠ {} ∧ ((s .on).dev.rail 23).surge = none ∧
    ((st (railDev { surge := some true } {})).dev.rail 23).surge ≠ none ∧ ((s .stopping).dev.rail 23).run = .stopping ∧
    ((s .stopping).dev.rail 23).fallExpired = false ∧ (late.dev.rail 23).fallExpired = true ∧ ((s .faulted).dev.rail 23).run = .faulted ∧
    (off.dev.rail 23).discharge = true ∧ (off.dev.rail 23).run ≠ .stopping ∧ (off.dev.slot tRail 23).hstate = .enabled ∧
    off.dev.hasWait .disable (off.dev.railHandle 23) = false ∧
    (st { off.dev with waits := [⟨none, .disable, mkHandle tRail 23 1⟩] }).dev.hasWait .disable (off.dev.railHandle 23) = true ∧
    ((s .on).dev.rail 23).run.running = true ∧ (off.dev.rail 23).run.running = false ∧ off.dev.hasWait .destroyForce (off.dev.railHandle 23) = false ∧
    23 ∈ off.dev.liveIndices tRail ∧ 22 ≠ 23 := by decide

/-- RAIL 23 with VFS 1 V, PG_LO 900, UV_TRIP 950, at half of the reference and no output. -/
def refDev (r : Rail) : Dev :=
  { railDev { r with ref := 1073741824 } { peaks := 1 } with
    slots := [(slotKey tRail 23, { railSlot .enabled with cfg := [0x07D01702, 0x00002E2F, 0, 0, mkHandle tLoop 5 1, 0, 0, 0x03E80000], bankA := bytes [0x03E80384, 950] })] }

theorem test_witness_rail_conditions :
    inPgWindow (railDev {} {}) 23 = true ∧ inPgWindow (refDev {}) 23 = false ∧ ((refDev { run := .on }).rail 23).run = .on ∧
    1000 * (refDev {}).railVout 23 < (refDev {}).railRefMv 23 * ((refDev {}).railB 23 1 0 16 : Int) ∧
    (railDev {} {}).railRefMv 23 * ((railDev {} {}).railB 23 1 0 16 : Int) ≤ 1000 * (railDev {} {}).railVout 23 ∧
    max 1 ((refDev {}).railB 23 3 16 16) ≤ ((refDev {}).phase (((refDev {}).railPhases 23).getD 1 0)).peaks ∧
    ¬(max 1 ((railDev {} {}).railB 23 3 16 16) ≤ ((railDev {} {}).phase (((railDev {} {}).railPhases 23).getD 1 0)).peaks) ∧
    ((refDev {}).rail 23).surge = none ∧ ((refDev { surge := some true }).rail 23).surge ≠ none ∧ 1 < ((refDev {}).railPhases 23).length ∧
    ((railDev { run := .stopping } { state := .fenced }).phase 46).state = .fenced ∧
    (∀ l ∈ (railDev {} {}).railLoops 23, ((railDev {} {}).slot tLoop l).hstate ≠ .fenced) ∧
    (∀ l ∈ (refDev {}).railLoops 23, l ∉ (refDev {}).railLoops 22) ∧ ((railDev {} {}).slot tRail 23).hstate ≠ .fenced := by decide +kernel

theorem test_witness_phases :
    let s (r : Rail) (p : Phase) := st (railDev r p)
    let on (p : Phase) := s { run := .on } p
    let ended : State := st { (on {}).dev with pwm := { (on {}).dev.pwm with phases := [(46, { state := .fenced }), (47, { state := .firing, owner := some (slotKey tRail 23) })] } }
    (State.reset.dev.phase 47).owner = none ∧ ((on {}).dev.phase 46).owner = some (slotKey tRail 23) ∧ ((on {}).dev.rail 23).run.running = true ∧
    ((s {} {}).dev.rail 23).run.running = false ∧ (on {}).dev.pwm.vdrvLow = false ∧ State.reset.dev.pwm.vdrvLow = true ∧
    ((on {}).dev.railPhases 23).idxOf 46 ≠ 0 ∧ ((on { state := .shedding, periods := 4 }).dev.phase 46).state = .shedding ∧
    4 ≤ ((on { state := .shedding, periods := 4 }).dev.phase 46).periods ∧ ((on { state := .shedding, periods := 3 }).dev.phase 46).periods < 4 ∧
    ((on { state := .refresh, bootLow := true }).dev.phase 46).bootLow = true ∧ ((on { state := .shed, adding := true }).dev.phase 46).adding = true ∧
    ((on { state := .firing }).dev.phase 46).state = .firing ∧ (Dev.modPhase (on {}).dev 46 id).railFiring 23 = false ∧
    ended.dev.railFiring 23 = true ∧ ((s { shedHold := true } {}).dev.rail 23).shedHold = true ∧ ((on {}).dev.rail 23).surgeEnd = none ∧
    ((on {}).dev.rail 23).limited = false ∧ ((on {}).dev.railPhases 23).Nodup ∧ (∀ p ∈ (on {}).dev.railPhases 23, ((on {}).dev.phase p).state ≠ .fenced) ∧
    youngShed (on {}).dev 23 { periods := 99 } = true ∧ youngShed (on {}).dev 23 { periods := 100 } = false ∧ 23 ∈ (on {}).dev.liveIndices tRail ∧
    1 < ((on {}).dev.railPhases 23).length ∧ ((on {}).dev.phase ((on {}).dev.railPhases 23 |>.getD 0 0)).state = .active ∧
    ended.dev.okPhases 23 = [47] ∧ 47 ∈ (on {}).dev.okPhases 23 := by decide


theorem test_witness_carriers :
    let r : Rail := { run := .on }
    let d (r : Rail) (p : Phase) := phaseWatch (((railDev r p).tally 43 0 1).tally 43 2 (b2n (p.state == .firing))) 23 1 46 0 0
    let lost (d : Dev) : Dev := { d with slots := (slotKey tLoop 0, slot .fenced []) :: d.slots }
    let ended := { railDev { r with surgeEnd := some (1, 5) } {} with wheel := {} }
    ((railDev r {}).railPhases 23).idxOf 46 = 1 ∧ loopLost (d r {}) 23 = false ∧ loopLost (lost (d r {})) 23 = true ∧
    ((d r {}).rail 23).run.running = true ∧ (d r {}).pwm.vdrvLow = false ∧
    (∀ x ∈ [PhaseState.active, .shedding, .refresh, .shed, .firing, .off, .fenced], ((d r { state := x }).phase 46).state = x) ∧
    ((d r { state := .refresh, bootLow := true }).phase 46).bootLow = true ∧ ((d { r with surge := some false } {}).rail 23).surge ≠ none ∧
    ((d r { periods := 0, entered := 1 }).phase 46).periods = 0 ∧ 0 < ((d r { entered := 1 }).phase 46).entered ∧
    ((d r { periods := 1 }).phase 46).periods + 1 = 2 ∧ ((d r { periods := 2 }).phase 46).periods + 1 = 3 ∧
    ((d r { state := .shed, adding := true }).phase 46).adding = true ∧
    ((d r { onTime := 1 }).phase 46).onTime ≠ 0 ∧ (peakLimit (railDev r { onTime := 1 }) 23 : Int) ≤ 0 ∧ startLimited (railDev r {}) 23 = false ∧
    startLimited (railDev { run := .starting } {}) 23 = true ∧ negLimited (railDev { surge := some true } {}) 23 = true ∧
    negLimited (railDev {} {}) 23 = false ∧ ((railDev { r with throttlePct := 50 } {}).rail 23).throttlePct < 100 ∧
    railLimit (railDev r {}) 23 = 100 * (railDev r {}).railIsum 23 ∧
    (Phase.lasted { periods := 2, entered := 7 } 2 7) = true ∧ (Phase.lasted { periods := 2, entered := 7 } 2 6) = false ∧
    (railDev { surgeWin := 0 } {}).railRefMv 23 = 0 ∧ ((ended.rail 23).surgeEnd = some (1, 5)) ∧
    8 ≤ ((railDev r { openCount := 8 }).phase 46).openCount ∧ 8 ≤ ((railDev r { senseCount := 8 }).phase 46).senseCount := by decide +kernel

theorem test_witness_surge :
    let r : Rail := { run := .on, ref := 1073741824 }
    let d := refDev r
    let win : Int := surgeWindowOf d 23
    let thr : Int := surgeSlopeOf d 23
    1000 * 0 < d.railRefMv 23 * (1000 - win) ∧ d.railRefMv 23 * (1000 + win) < 1000 * 1000 ∧
    d.railRefMv 23 * (1000 - win) ≤ 1000 * d.railRefMv 23 ∧ 1000 * d.railRefMv 23 ≤ d.railRefMv 23 * (1000 + win) ∧
    10000 * (-1000) < -(d.railRefMv 23 * thr) ∧ d.railRefMv 23 * thr < 10000 * 1000 ∧ surgeKind d 23 (d.railRefMv 23) 0 = none ∧
    surgeKind d 23 0 0 = some false ∧ (d.railPhases 23).Nodup ∧ (∀ p ∈ d.railPhases 23, (d.phase p).state ≠ .fenced) ∧
    (d.rail 23).run = .on ∧ (d.rail 23).limited = false ∧ d.pwm.vdrvLow = false := by decide +kernel

/-- FEED 39 and BRANCH 3, both on generator 0, whose starts are 10 µs apart. -/
def chanDev (x y : Chan) : Dev :=
  { slots := [(slotKey tFeed 39, slot .enabled [2]), (slotKey tBranch 3, slot .enabled [1])],
    feeds := [(39, x)], branches := [(3, y)], pwm := { gens := [(0, { word := 0x9C400000 })] } }

theorem test_witness_feeds :
    let s (x : Chan) := st (chanDev x {})
    let c (r : ChanRun) (n : Nat) := (s { run := r, timer := n, backstop := n, powerTurns := n, pgTurns := n }).dev
    let f := (s { run := .bleed, causes := [(7, 0)], before := .ramp }).dev
    ((c .precharge 0).chan 39).run = .precharge ∧ ((c .precharge 0).chan 39).effRun = .precharge ∧ (f.chan 39).effRun = .ramp ∧ (f.chan 39).causes ≠ [] ∧
    ((c .on 0).chan 39).effRun ≠ .precharge ∧ ((c .limiting 0).chan 39).run = .limiting ∧
    ((c .ramp 99999).chan 39).effRun ∈ [ChanRun.ramp, .on, .limiting] ∧ startsReach (c .ramp 99999) 39 99999 ((c .ramp 0).feedBank 39).tflt = true ∧
    startsReach (c .ramp 0) 39 0 ((c .ramp 0).feedBank 39).tflt = false ∧ startsReach (c .on 0) 39 2 20 = true ∧ startsReach (c .on 0) 39 1 20 = false ∧
    ((c .on 2).chan 39).effRun.gateOn = true ∧ ((c .off 2).chan 39).effRun.gateOn = false ∧
    ((c .on 0).feedBank 39).tpwr ≤ ((c .on 65535).chan 39).powerTurns ∧ ((c .on 0).chan 39).powerTurns < ((c .on 0).feedBank 39).tpwr ∧
    fcBleed ((c .bleed 0).chanCfg 39) = true ∧ ((c .bleed 0).chan 39).run = .bleed ∧ ((c .bleed 0).chan 39).causes = [] ∧
    ((c .bleed 0).chan 39).resLate = false ∧ ((c .off 0).chan 39).run ∈ [ChanRun.off, .wait, .lockout] ∧
    (c .off 0).seqNaming ((c .off 0).chanHandle 39) = none ∧ ((c .wait 0).chan 39).waitSitter = false ∧ (c .on 0).chanRetryClear 39 = 3000 ∧
    3000 ≤ ((c .on 3000).chan 39).pgTurns ∧ ((c .on 2999).chan 39).pgTurns < 3000 ∧ ((c .on 0).chan 39).run.gateOn = true ∧
    ((c .off 0).chan 39).run.gateOn = false := by decide

theorem test_witness_retries :
    let d (x : Chan) := chanDev x x
    let f (cause : Nat) := d { run := .bleed, causes := [(cause, 0), (12, 5)] }
    ((f 9).chan 39).causes = (9, 0) :: [(12, 5)] ∧ (lowestCause (9, 0) [(12, 5)]).1 < 10 ∧ ((f 9).chan 39).stopping = false ∧ (f 9).isFenced tFeed 39 = false ∧
    ((f 9).chan 39).retry = 0 ∧ (d { retry := 15 }).chanRetries 39 ≤ 15 ∧ (lowestCause (11, 0) [(12, 5)]).1 = causeSitter 39 ∧
    (f 11).seqNaming ((f 11).chanHandle 39) = none ∧ (chanDev { stopping := true } {}).isFenced tFeed 38 = false ∧
    ((d { after := .wait }).chan 43).after = .wait ∧ ((d { after := .wait, waitSitter := true }).chan 43).waitSitter = true ∧ (d {}).sitter = false ∧
    ((d { after := .wait, retryDue := true }).chan 43).retryDue = true ∧ ((d { run := .wait, backfeed := true }).chan 43).run = .wait ∧
    ((d { after := .lockout }).chan 0).after = .off ∧ ((d { after := .lockout }).chan 39).after = .lockout ∧ ((d {}).chan 43).backfeed = false ∧
    (d {}).plane.takeover = false ∧ ((d { backfeed := true }).chan 43).backfeed = true ∧
    (let r := { d {} with slots := [(slotKey tFeed 39, { slot .enabled [] with bankA := bytes [0, 0, 0, 0, 0, 1] })] }
     (r.chan 39).retry < r.chanRetries 39) := by decide

theorem test_witness_branches :
    let d (y : Chan) := chanDev {} y
    let r (x : ChanRun) := d { run := x, backstop := 2, pgTurns := 3000 }
    let h := d { win := { turns := 250, used := 124 } }
    let half := d { win := { turns := 250, used := 125 } }
    let q := { d {} with kiln := { baselines := [(3, [232, 3, 0, 0, 0, 0])] } }
    ((r .ramp).chan 43).effRun ∈ [ChanRun.ramp, .on] ∧ ((r .off).chan 43).effRun ∉ [ChanRun.ramp, .on] ∧ ((r .opening).chan 43).run = .opening ∧
    ((r .on).chan 43).run = .on ∧ startsReach (r .ramp) 43 2 20 = true ∧ startsReach (r .ramp) 43 1 20 = false ∧ ((r .wait).chan 43).waitSitter = false ∧
    (r .wait).chanRetryClear 43 = 3000 ∧ 3000 ≤ ((r .wait).chan 43).pgTurns ∧ ((d {}).chan 43).pgTurns < 3000 ∧ ((d { onsetTrip := true }).chan 43).onsetTrip = true ∧
    bcHealth (h.slot tBranch 3).cfg = true ∧ (h.branchBank 3).avg ≤ (h.chan 43).win.turns ∧
    2 * (h.chan 43).win.used < (h.chan 43).win.turns ∧ (half.chan 43).win.turns ≤ 2 * (half.chan 43).win.used ∧
    ((d {}).chan 43).win.turns < ((d {}).branchBank 3).avg ∧ ((d {}).chan 43).health = [] ∧ ((d { health := [1] }).chan 43).health ≠ [] ∧
    ((d { causes := [(2, 0), (1, 9)] }).chan 43).causes = (2, 0) :: [(1, 9)] ∧ q.baseline 3 = some (1000, 0) ∧
    (100 * 1000 < 1000 * (100 + (q.branchBank 3).risePct) + 100 * (q.branchBank 3).riseAbs) ∧
    (100 * 1000 < 1000 * (100 + (q.branchBank 3).alarmPct) + 100 * (q.branchBank 3).riseAbs) ∧
    (1000 * (100 + (q.branchBank 3).risePct) + 100 * (q.branchBank 3).riseAbs < 100 * 100000) ∧ 0 < (q.branchBank 3).confirm ∧
    (q.chan 43).warn = false ∧ (q.chan 43).alarm = false := by decide +kernel


theorem test_witness_energy_and_delay :
    let d := chanDev { run := .wait } { run := .on }
    let late := { chanDev { run := .wait, faultTurn := 10 } { run := .opening, after := .wait } with wheel := { turn := 510 } }
    let e := branchEtrip (d.slot tBranch 3).cfg (d.branchBank 3)
    let t := 180 + field (d.slot tBranch 3).cfg 2 16 16
    let pred (uj : Nat) : Int := ((d.chan 43).e + (uj * 65536 : Nat)) * 2000000000000 + ((65536 * 0 * t : Nat) : Int) * max (2000 * 0 + 0 * (t : Int)) 0
    (d.chan 43).effRun ∈ [ChanRun.ramp, .on] ∧ pred 0 * (e.2 : Int) < e.1 * 2000000000000 * 65536 ∧
    e.1 * 2000000000000 * 65536 ≤ pred 20000000 * (e.2 : Int) ∧ d.wheel.turn - (d.chan 39).faultTurn = 0 ∧ 0 < d.chanRetryTurns 39 ∧
    late.chanRetryTurns 39 ≤ (late.wheel.turn - (late.chan 39).faultTurn).toNat ∧ late.chanRetryTurns 43 ≤ (late.wheel.turn - (late.chan 43).faultTurn).toNat ∧
    (late.chan 43).run = .opening ∧ (late.chan 43).after = .wait ∧ (1 * 1000000) ^ 2 ≤ Cx.sq (1000000, 0) ∧
    ¬((1 * 1000000) ^ 2 ≤ Cx.sq (999999, 0)) := by decide +kernel

/-- SOURCE_SET 1 of inputs 0 to 3 in that order of priority, with AUTO_RETURN and the hold-up bank. -/
def srcDev (h : HState) (r : SrcRt) : Dev :=
  { slots := [(slotKey tSource 1, slot h [0x5F, 0x3210, 0])], src := [(1, r)] }

theorem test_witness_sources :
    let s (r : SrcRt) := st (srcDev .enabled r)
    let i (x : SrcState) : SrcInput := { st := x }
    let two := (s { selected := some 3, ins := [(0, i .available), (3, i .selected)] }).dev
    let mk := (s { xfer := .making, target := some 3, ins := [(3, i .available)] }).dev
    let br := (s { xfer := .breaking, old := some 0, target := some 3, ins := [(0, i .down), (3, i .available)] }).dev
    two.srcPick 1 = some 0 ∧ (s {}).dev.srcPick 1 = none ∧ State.reset.dev.live tSource 1 = false ∧ two.live tSource 1 = true ∧
    ((two.srcSet 1).input 0).st ≠ .qualifying ∧ (((s { ins := [(0, i .qualifying)] }).dev.srcSet 1).input 0).st = .qualifying ∧
    ((two.srcSet 1).input 3).st = .selected ∧ two.enabled tSource 1 = true ∧
    (two.modIn 1 3 fun i => { i with st := .down, blocked := false }).srcPick 1 = some 0 ∧ two.srcFloats 1 = false ∧
    (((s { ins := [(3, i .selected)] }).dev.modIn 1 3 fun i => { i with st := .down, blocked := false }).srcPick 1) = none ∧
    (mk.srcSet 1).xfer = .making ∧ (mk.srcSet 1).target = some 3 ∧ ((mk.srcSet 1).input 3).st ≠ .selected ∧ ((mk.srcSet 1).input 3).st = .available ∧
    ((two.srcSet 1).input 0).st = .available ∧ (two.srcSet 1).target ≠ some 0 ∧ ((two.srcSet 1).input 2).st ≠ .floating ∧
    (br.srcSet 1).xfer = .breaking ∧ (br.srcSet 1).old = some 0 ∧ (br.srcSet 1).target = some 3 ∧ ((br.srcSet 1).input 0).st ≠ .selected ∧
    (two.srcSet 1).xfer ≠ .breaking ∧ two.brownoutSeq 1 = none ∧ (∀ w ∈ mk.waits, w.handle = mk.srcHandle 1 → w.kind = .enable) ∧
    (two.srcSet 1).selected = some 3 ∧ ((s { inNone := true }).dev.srcSet 1).inNone = true ∧ ((s { inNone := true }).dev.srcSet 1).brownStarted = false ∧
    (two.srcSet 1).inNone = false ∧ (s {}).dev.srcSet 1 = {} ∧
    (({ slots := [(slotKey tSource 1, slot .enabled [0x5F, 0x3210, mkHandle tSeq 7 1]), (slotKey tSeq 7, slot .enabled [])] } : Dev).brownoutSeq 1) = some 7 := by
  decide

theorem test_witness_hold_up :
    let d (h : HState) (r : SrcRt) := srcDev h r
    let w := { d .enabled { bleeding := true } with waits := [⟨none, .disable, mkHandle tSource 1 1⟩] }
    State.reset.dev.holdupSet = none ∧ (d .enabled {}).holdupSet = some 1 ∧ ((d .disabled {}).slot tSource 1).hstate = .disabled ∧
    ((d .enabled {}).slot tSource 1).hstate ≠ .disabled ∧ (d .enabled {}).sitter = false ∧ ((d .enabled {}).srcSet 1).bleeding = false ∧
    (d .enabled {}).enabled tSource 1 = true ∧ (d .disabled {}).enabled tSource 1 = false ∧ (d .enabled {}).srcB 1 6 16 16 ≤ 65535 ∧
    (let e := { d .enabled {} with slots := [(slotKey tSource 1, { slot .enabled [0x10] with bankA := bytes [0, 0, 0, 0, 0, 0, 0x10000] })] }
     0 < e.srcB 1 6 16 16) ∧
    (d .enabled { bleedDue := true }).bleedIsDue 1 = true ∧ (d .enabled {}).bleedIsDue 1 = false ∧ (w.srcSet 1).bleeding = true ∧
    (w.srcSet 1).bleedLate = false ∧ ((d .enabled { bleedLate := true, bleeding := true }).srcSet 1).bleedLate = true ∧
    w.hasWait .disable (w.srcHandle 1) = true ∧ w.hasWait .destroyForce (w.srcHandle 1) = false ∧ (w.slot tSource 1).hstate ≠ .fenced ∧
    (d .enabled {}).hasWait .disable (w.srcHandle 1) = false := by decide


/-- The same set with T_QUAL 3, T_RETURN 5, E_LOW and C_MIN 1, and the management plane running. -/
def srcBanked (r : SrcRt) : Dev :=
  { srcDev .enabled r with
    slots := [(slotKey tSource 1, { slot .enabled ([0x5F, 0x3210, 0] ++ List.replicate 29 0 ++ [0x00010000, 100]) with
      bankA := bytes [0, 0, 0x00050003, 0, 0, 0, 0x00010001] })]
    plane := { mgmtRunning := true } }

theorem test_witness_source_conditions :
    let i (x : SrcState) (t : Nat) : SrcInput := { st := x, turns := t }
    let ret := srcBanked { selected := some 3, ins := [(0, i .available 5), (3, i .selected 0)] }
    let q (t : Nat) := srcBanked { ins := [(0, i .qualifying t)] }
    ret.returnInput 1 = some 0 ∧ (q 0).returnInput 1 = none ∧ (ret.srcSet 1).returnDue = false ∧
    ((q 2).srcSet 1 |>.input 0).turns < (q 2).srcB 1 2 0 16 ∧ (q 3).srcB 1 2 0 16 ≤ ((q 3).srcSet 1 |>.input 0).turns ∧
    ret.planeHalted = false ∧ ret.srcRuns 1 = true ∧ (srcDev .enabled { stopping := true }).srcRuns 1 = false ∧
    (ret.modIn 1 3 fun i => { i.enter .down with blocked := false }).srcPick 1 = some 0 ∧ ret.brownoutSeq 1 = none ∧
    ((srcBanked { inNone := true }).srcSet 1).inNone = true ∧ sfHoldup ((srcBanked {}).srcCfg 1) = true ∧
    ((srcBanked { bleeding := true, bleedAt := 7 }).srcSet 1).bleedAt + 1000000 ≤ 1000007 ∧ ret.wit.commit = none ∧
    (0 < (srcBanked {}).srcB 1 6 16 16) ∧ (srcBanked {}).hasWait .destroyForce ((srcBanked {}).srcHandle 1) = false := by
  decide +kernel

theorem test_witness_bank_low : (srcBanked {}).bankCv2 1 < ((srcBanked {}).srcB 1 6 0 16 : Int) * 20000000 * 2 ^ 46 ∧
    (Config.bankFullScale : Int) * (srcBanked {}).bankVal 1 < (field ((srcBanked {}).srcCfg 1) 32 16 16 : Int) * 2 ^ 23 := by
  have h : (srcBanked {}).bankVal 1 = 0 := by decide +kernel
  have k : (srcBanked {}).srcB 1 6 0 16 = 1 := by decide +kernel
  have f : field ((srcBanked {}).srcCfg 1) 32 16 16 = 1 := by decide +kernel
  constructor
  · rw [Dev.bankCv2, h, k]; norm_num
  · rw [h, f]; norm_num

/-- A charge is measured where the bank's full scale, which the spec leaves open, is not 0. -/
theorem test_witness_charge (h : 0 < Config.bankFullScale) (ws : List Word) : (chargeMeasure ws { start := 0, last := 1 }).isSome = true := by
  simp [chargeMeasure, h]

theorem test_witness_no_charge (ws : List Word) : chargeMeasure ws { start := 0, last := 0 } = none := by simp [chargeMeasure]

theorem test_witness_strings :
    let d (p : Plane) (r : StrRt) : Dev := { slots := [(slotKey tString 7, slot .enabled [])], strs := [(7, r)], plane := p }
    let on := d { mgmtRunning := true } { cutStep := true, cut := true }
    let old := d { mgmtRunning := true } { age := 8640000, zWin := { turns := 50, used2 := 24, used6 := 24 }, service := .normal, lowTurns := 100 }
    let bat : Dev := { old with slots := (slotKey tSource 1, slot .enabled [4]) :: old.slots, src := [(1, { selected := some 0 })] }
    let slow := d {} { service := .recovery, lowTurns := 16, learn := { st := .running } }
    let wake := { d {} { reduced := true, power := .stopped } with wheel := { turn := 6 } }
    (7 ∈ on.liveIndices tString) ∧ on.enabled tString 7 = true ∧ on.plane.mgmtRunning = true ∧ on.setOfInput inBat = none ∧ (on.str 7).cutStep = true ∧
    State.reset.dev.live tString 7 = false ∧ old.live tString 7 = true ∧
    (old.enabled tString 7 && old.plane.mgmtRunning && decide (old.anchorMax 7 ≤ (old.str 7).age) && !(old.str 7).unanchored) = true ∧
    (on.enabled tString 7 && on.plane.mgmtRunning && decide (on.anchorMax 7 ≤ (on.str 7).age) && !(on.str 7).unanchored) = false ∧
    (old.enabled tString 7 && old.plane.mgmtRunning && decide (old.battP 7 5 0 16 50 ≤ (old.str 7).zWin.turns)) = true ∧
    (on.enabled tString 7 && on.plane.mgmtRunning && decide (on.battP 7 5 0 16 50 ≤ (on.str 7).zWin.turns)) = false ∧
    2 * (old.str 7).zWin.used2 < (old.str 7).zWin.turns ∧ 2 * (old.str 7).zWin.used6 < (old.str 7).zWin.turns ∧
    (let z : ZWin := { turns := 50, used2 := 25, w2 := 1 }
     z.turns ≤ 2 * z.used2 ∧ z.w2 ≠ 0) ∧ 2 ^ 48 / 10 < ((d {} { u := 2 ^ 48 }).str 7).u ∧
    field (on.strCfg 7) 10 16 16 * 8192 ≤ (on.str 7).cutTime.1 ∧ (on.str 7).stepDue = true ∧ ((d {} { stepDue := false }).str 7).stepDue = false ∧
    field (on.strCfg 7) 11 0 16 ≤ ((bat.srcSet 1).input 0).turns ∧
    (let e := { bat with slots := (slotKey tString 7, slot .enabled (List.replicate 11 0 ++ [5])) :: bat.slots }
     ((e.srcSet 1).input 0).turns < field (e.strCfg 7) 11 0 16) ∧ (old.str 7).cutTime = (0, 0, 0) ∧
    ((d {} { cutTime := (1, 0, 0) }).str 7).cutTime ≠ (0, 0, 0) ∧ (1 * 1000000) ^ 2 ≤ Cx.sq (1000000, 0) ∧
    (old.str 7).service ≠ .start ∧ (old.slot tString 7).hstate ≠ .disabled ∧ (old.str 7).cut = false ∧ (old.str 7).power ≠ .hibernating ∧
    (old.str 7).power ≠ .stopped ∧ bat.setOfInput inBat = some 1 ∧ (bat.srcSet 1).selected = some 0 ∧ (on.str 7).cut = true ∧
    (({ bat with src := [] } : Dev).srcSet 1).selected = none ∧
    (({ bat with src := [(1, { selected := some inBat, ins := [(inBat, { st := .selected })] })] } : Dev).srcSet 1).selected = some inBat ∧
    Profile.hibernate .glaze = some 100 ∧ Profile.hibernate .raku = none ∧ old.plane.profile = .glaze ∧ (old.str 7).power = .awake ∧ groupOwn old 7 = true ∧
    100 ≤ (old.str 7).lowTurns ∧ (on.str 7).lowTurns < 100 ∧ (slow.str 7).service ≠ .normal ∧ (slow.str 7).reduced = false ∧ 16 ≤ (slow.str 7).lowTurns ∧
    slow.plane.profile ≠ .raku ∧ (slow.str 7).learn.st = .running ∧ (wake.str 7).reduced = true ∧ (wake.str 7).power = .stopped ∧
    (wake.wheel.turn.toNat + 1) % 16 = 7 ∧ wake.acq.pdStopped.contains (wake.strGroup 7) = true := by decide


/-- A turn that waits for its close. -/
def ledTurn (reason excuse : Nat) (as : List Account) : LedTurn :=
  ⟨0, .glaze, false, false, reason, 3, excuse, as, 0, 0, 2000000, 3, 0, 0, 50, none⟩

theorem test_witness_ledger :
    let s (t : Option LedTurn) (l : Led) := st { led := { l with waiting := t } }
    let isOver := ledTurn 0 0 [{ kind := 1, index := 0, value := 1000000000000, used := true }]
    let within := ledTurn 0 0 []
    (s none {}).dev.led.waiting = none ∧ (s (some isOver) { fenced := true }).dev.led.fenced = true ∧ isOver.latch = none ∧ ({ isOver with latch := some 7 } : LedTurn).latch = some 7 ∧ (ledTurn 1 0 []).reason ≠ 0 ∧
    isOver.reason = 0 ∧ (ledTurn 0 1 []).excuse ≠ 0 ∧ ¬(isOver.excuse ≠ 0 ∨ ∃ a ∈ isOver.accounts, a.used = true ∧ a.est = true) ∧
    ¬(within.excuse ≠ 0 ∨ ∃ a ∈ within.accounts, a.used = true ∧ a.est = true) ∧ (s none {}).dev.led.lastClosed = false ∧
    (let l : Led := { count := 50 }
     l.fenced = false ∧ l.alarm = false ∧ l.unmet ≤ l.count ∧ l.latched = false) ∧
    (let l : Led := { alarm := true, good := 50 }
     l.fenced = false ∧ l.alarm = true ∧ l.unmet ≤ l.good) ∧
    ¬(State.reset.dev.led.unmet ≤ State.reset.dev.led.count) := by decide

/-- Whether a residual lies above its bound: 10^12 units of 2^-16 µJ in and nothing out is above 25 parts in 10,000 and 50 mJ. -/
theorem test_witness_ledger_bound :
    (25 * 1000000000000 + 50 * 1000 * 65536 * 10000 : Int).toNat < 1000000000000 * 10000 ∧ 0 * 10000 ≤ (25 * 0 + 50 * 1000 * 65536 * 10000 : Int).toNat := by
  decide

theorem test_witness_tallies :
    let f := st { sag := { fenced := [4] } }
    let on := st { ready with tal := { fb := [(7, { freeze := true })] } }
    f.dev.sag.fenced.contains 4 = true ∧ State.reset.dev.sag.fenced.contains 4 = false ∧
    State.reset.dev.wheel.turn.toNat % State.reset.dev.plane.profile.gather = 0 ∧ (st { wheel := { turn := 9 } }).dev.wheel.turn.toNat % 10 ≠ 0 ∧
    State.reset.dev.host.link ≠ .ready ∧ on.dev.host.link = .ready ∧ (on.dev.fbSet 7).freeze = true ∧ (on.dev.fbSet 6).freeze = false ∧
    5 < (on.dev.fbSet 7).cntHi.length := by decide


/-- SEQUENCE 7 of one EXTERNAL step with MONITOR 63, discharge switch 23, RISE_TO 10 and DELAY_UP 1; `w` = MODE, FAULTN_JOIN. -/
def seqDev (w : Nat) (r : SeqRt) (mon : MonRt) : Dev :=
  { slots := [(slotKey tSeq 7, slot .disabled [BitVec.ofNat 32 (1 + w), 0, 0, 0, 0x0001017C, 0, mkHandle tMon 63 1, 10]), (slotKey tMon 63, slot .enabled [])],
    seq := { seqs := [(7, r)], mons := [(63, mon)] } }

theorem test_witness_orders :
    let d (run : SeqRun) (x : StepRt) := seqDev 0 { run := run, steps := [(0, x)] } {}
    let up := seqDev 0 { run := .rising, steps := [(0, { st := .starting })] } { pg := true }
    let off := seqDev 64 { run := .falling, steps := [(0, { st := .discharging, begun := true })] } { off := true }
    let fault := seqDev 0 { run := .rising, steps := [(0, { st := .starting })] } { uv := true }
    State.reset.dev.live tSeq 7 = false ∧ (d .off {}).live tSeq 7 = true ∧
    (∀ q ∈ (d .off {}).liveIndices tSeq, ∀ k < 32, ((d .off {}).step q k).stuckSrc = false ∧ ((d .off {}).step q k).drain = false) ∧
    (d .off {}).plane.downRunning = none ∧ (d .off {}).plane.stopping = none ∧ (d .off {}).plane.wdFaultN = false ∧
    ((d .rising { st := .delay }).step 7 0).st = .delay ∧ ((d .rising { st := .delay }).sq 7).run = .rising ∧ (up.step 7 0).st = .starting ∧
    stepIsUp up (up.stepCfg 7 0) = true ∧ stepIsUp fault (fault.stepCfg 7 0) = false ∧ stRise (up.stepCfg 7 0) ≠ 0 ∧
    ((d .falling { begun := true, st := .up }).step 7 0).st.leaving = false ∧ ((d .falling { begun := true, st := .stopping }).step 7 0).st.leaving = true ∧
    (off.sq 7).run = .falling ∧ (off.step 7 0).begun = true ∧ (off.step 7 0).st = .discharging ∧ stepIsOff off (off.stepCfg 7 0) = true ∧
    scStrict (off.seqCfg 7) = true ∧ scStrict (up.seqCfg 7) = false ∧ stExt (off.stepCfg 7 0) = true ∧ off.plane.takeover = false ∧
    stMon (off.stepCfg 7 0) = some 63 ∧ off.isFenced tMon 63 = false ∧ stDsch (off.stepCfg 7 0) = some 23 ∧ off.seq.fn.low = false ∧ (off.sq 7).quiet = false ∧
    0 < scNstep (fault.seqCfg 7) ∧ stepFaultReason fault (fault.stepCfg 7 0) ≠ 0 ∧ stFatal (fault.stepCfg 7 0) = true := by decide

theorem test_witness_starts_and_lows :
    let d := seqDev 0 { pending := true, quiet := true } {}
    let run := seqDev 128 { run := .rising } {}
    let low := st { seq := { fn := { low := true } } }
    (d.sq 7).pending = true ∧ (d.sq 7).run = .off ∧ d.isFenced tSeq 7 = false ∧ quietPassed d 7 = true ∧ (d.sq 7).minOff = false ∧ (d.sq 7).brownHold = none ∧
    d.sitter = false ∧ stDelayUp (d.stepCfg 7 0) ≠ 0 ∧ 0 < scNstep (d.seqCfg 7) ∧ (run.sq 7).run = .rising ∧
    (∀ k < 32, (run.step 7 k).begun = false) ∧ (run.sq 7).lock = false ∧ run.hasWait .destroyForce (run.seqHandle 7) = false ∧
    low.dev.seq.fn.low = true ∧ d.seq.fn.low = false ∧ d.cycles1s < 5 ∧
    5 ≤ ({ seq := { fn := { cycles := [0, 0, 0, 0, 0] } } } : Dev).cycles1s := by decide


theorem test_witness_cones :
    let d (x : Cones) : Dev := { heat := { cones := [(19, x)] } }
    let hot := { d { conf := 4 } with sitter := true }
    onDie 19 = true ∧ (d {}).coneArmed 19 = true ∧ ¬(((d { trip := 7 }).cones 19).conf.toNat / 2 ^ 2 % 2 = 1) ∧
    ((d { trip := 7 }).cones 19).trip.toNat / 2 ^ 2 % 2 = 1 ∧ ((d { trip := 7 }).cones 19).trip.toNat / 2 ^ 0 % 2 = 1 ∧
    ((d { conf := 7, rel := 7 }).cones 19).conf.toNat / 2 ^ 2 % 2 = 1 ∧ ((d { conf := 7, rel := 7 }).cones 19).rel.toNat / 2 ^ 1 % 2 = 1 ∧
    ((d {}).coneArmed 15 = false) ∧ hot.c3Confirmed = true ∧ (d {}).sitter = false ∧ ({ d {} with sitter := true } : Dev).c3Confirmed = false ∧
    (∀ t ∈ [tRail, tFeed, tBranch, tSource, tString, tSeq], (d {}).liveIndices t = []) ∧ (d {}).plane.downRunning = none ∧
    (d {}).plane.stopping = none ∧ (d {}).plane.wdFaultN = false ∧ (d {}).liveChans = [] := by decide

theorem test_witness_kiln_and_box :
    let d : Dev := { slots := [(slotKey tRail 23, slot .enabled []), (slotKey tFeed 39, slot .enabled []), (slotKey tSensor 15, slot .enabled [])],
                     wit := { commit := some 1, armed := false } }
    ({ d with acq := { tdQueue := [15, 3] } } : Dev).acq.tdQueue = 15 :: [3] ∧ d.live tSensor 15 = true ∧ (d.sens 15).base = none ∧
    (({ d with heat := { sens := [(15, { base := some (640000, 3200) })] } } : Dev).sens 15).base = some (640000, 3200) ∧
    (({ d with src := [(1, { bleeding := true })] } : Dev).srcSet 1).bleeding = true ∧ d.enabled tSensor 0 = false ∧ 23 ∈ d.liveIndices tRail ∧ 39 ∈ d.liveIndices tFeed ∧ d.wit.commit = some 1 ∧
    State.reset.dev.wit.commit = none ∧ State.reset.dev.wit.armed = true ∧ d.wit.armed = false ∧ 7 ∉ d.liveIndices tString := by decide


theorem test_witness_fences :
    let d : Dev := { sag := { fenced := [0, 1, 3] }, plane := { takeover := true } }
    (0 ∈ d.sag.fenced ∧ 2 ∉ d.sag.fenced ∧ (∀ v < 4, v ≠ 2 → v ∈ d.sag.fenced) ∧ 9 ∉ d.sag.fenced ∧ d.plane.takeover = true ∧
      d.plane.hearthRestarted = false) ∧
    (31 ∉ State.reset.dev.lanes.retired ∧ tget 0 State.reset.dev.lanes.fails 31 < 1024 ∧
      31 ∈ ({ lanes := { retired := [31] } } : Dev).lanes.retired ∧
      1024 ≤ tget 0 ({ lanes := { fails := [(31, 1024)] } } : Dev).lanes.fails 31) := by decide

theorem test_witness_banks_of_lines :
    let r : Dev := { sram := { retired := [16], rebuildEnd := [(15, 0)], poisoned := [⟨15, 8191, .unit 5⟩], rebuilding := [(0, 0)] }, wheel := { turn := 1024 } }
    let again : Dev := { r with sram := { r.sram with retired := [] } }
    r.bankDown 16 = true ∧ again.bankDown 15 = false ∧ (15, 0) ∈ again.sram.rebuildEnd ∧ (again.wheel.turn - 0).toNat ≤ 1024 ∧
    r.sram.retired ≠ [] ∧ again.sram.retired = [] ∧ r.bankDown 0 = true ∧ State.reset.dev.sram.rebuildEnd = [] ∧
    r.linePoisoned 15 8191 = true ∧ 8 * (1023 % 1024) + 8 = 8192 ∧ 8 * (1022 % 1024) + 8 ≠ 8192 := by decide

/-- A device whose listed lines hold two flipped bits in one word. -/
def spoiled (ks : List Nat) : Dev :=
  { sram := { lines := ks.map fun b => (lineKey b 8191, { words := flipBit (flipBit zeroLine 0 0) 0 71 }) } }

/-- R395, R396: the cases of a line that is read, and those of a line that is written. -/
theorem test_witness_lines :
    let d := spoiled []
    let bad := spoiled [3]
    let lost := spoiled [3, 15]
    (readWords (d.storedLine 16 8191).words).good = true ∧ d.bankDown 16 = false ∧ d.linePoisoned 16 8191 = false ∧
    (readWords (bad.storedLine 3 8191).words).good = false ∧ (reconstruct 3 8191 bad).1 = some (List.replicate 8 0) ∧
    3 ∉ bad.sram.retired ∧ (reconstruct 3 8191 lost).1 = none ∧ (⟨3, 8191, .unit 5, .scrubber⟩ : LineRead).reader ≠ .owner ∧
    (3 : Nat) < 16 ∧ 16 ∉ d.sram.retired ∧ (0 ≠ 0 ∨ [(0 : Byte)].length < 64) := by decide +kernel

/-- Neither the unit nor the reader of the line above is a handle. -/
theorem test_witness_line_owner : ∀ h, SramOwner.unit 5 ≠ .handle h := fun _ h => nomatch h

theorem test_witness_network :
    let up := netDev true
    let down := netDev false
    let v4 : Dev := { down with slots := [(slotKey tStream 63, slot .enabled [66, 0, 0, 0])] }
    let busy (n : Nat) : Dev := { up with net := { up.net with sessions := (List.range n).map fun k => (k, ⟨0, [], [], true⟩) } }
    let ring : Dev := { slots := [(slotKey tStream 63, slot .enabled [0])] }
    up.portRuns 0 = true ∧ up.portRuns 1 = false ∧ up.netif 1 = none ∧ up.netif 0 = some 63 ∧ up.enabled tStream 63 = true ∧ (up.strm 63).link = true ∧
    (down.strm 63).link = false ∧ nkV4 (down.strmCfg 63) = false ∧ nkV4 (v4.strmCfg 63) = true ∧ v4.netif 0 = some 63 ∧
    ((busy 8).net.sessions.filter fun x => x.2.isOpen).length = 8 ∧ ((busy 7).net.sessions.filter fun x => x.2.isOpen).length < 8 ∧
    (let w (n : Nat) : Dev := { up with net := { up.net with shaking := List.replicate n (0, []) } }
     (w 3).net.shaking.length < 4 ∧ 4 ≤ (w 4).net.shaking.length ∧ (0, []) ∈ (w 1).net.shaking ∧ (0, []) ∉ up.net.shaking) ∧
    Handshake.fails ≠ .hello ∧ up.plane.mgmtRunning = true ∧ ring.plane.mgmtRunning = false ∧ nkV6 (up.strmCfg 63) = false ∧
    nkV6 ([130] : List Word) = true ∧ (up.port 0).unreach.length < 10 ∧
    0 < nkPeers (up.strmCfg 63) ∧ nkPeer (up.strmCfg 63) 0 = [] ∧ (∀ k < nkPeers (up.strmCfg 63), nkPeer (up.strmCfg 63) k ≠ [1]) ∧
    (ring.enabled tStream 63 && nkKind (ring.strmCfg 63) != 2 && ring.wheel.turn.toNat % max 1 (nkEvery (ring.strmCfg 63)) == 0 &&
      (ring.strm 63).lastEmit != some ring.wheel.turn && !ring.sag.fenced.contains 10) = true ∧
    (up.enabled tStream 63 && nkKind (up.strmCfg 63) != 2) = false := by decide


/-- SOURCE_SET 1 of schema 3 whose input 3 has COUNT 8 and WRITE 1, with the peer polled. -/
def modDev (m : Module) (streak : Nat) : Dev :=
  { slots := [(slotKey tSource 1, { slot .enabled [8] with
      schema := 3, bankA := bytes (List.replicate 139 0 ++ [0x02000000, 0x80000001, 8]) })],
    twb := { mods := [(0x5F, { m with streak := streak })] } }

theorem test_witness_modules :
    let d := modDev { present := true, pend := true } 0
    let a := 0x5F
    d.modSet = some 1 ∧ State.reset.dev.modSet = none ∧ d.setOfModule a = some 1 ∧ d.setOfModule 0x60 = none ∧ (d.module_ a).present = true ∧
    (d.module_ a).vmode = false ∧ d.modWrites 1 a = true ∧ (d.module_ a).pend = true ∧ (d.module_ 0x5E).present = false ∧ bit (d.mb 1 5) 3 = true ∧
    bits (d.mb 1 4) 0 16 ≤ 1 ∧ d.twb.sincePoll < bits (d.mb 1 4) 0 16 ∧ d.twb.pollTurn = 0 ∧ a ∉ d.twb.abandoned ∧ (0x70 + bits (d.mb 1 5) 0 3) ∉ d.twb.abandoned ∧
    a ∈ ({ d with twb := { d.twb with abandoned := [a] } } : Dev).twb.abandoned ∧
    (let p : Dev := { d with twb := { d.twb with pollTurn := 5 } }
     p.twb.pollTurn ≠ 0) ∧
    (modDev {} 0).plane.mgmtRunning = false ∧ ({ d with plane := { mgmtRunning := true } } : Dev).plane.mgmtRunning = true ∧
    (d.module_ a).streak + 1 < 3 ∧ 3 ≤ ((modDev { present := true } 2).module_ a).streak + 1 := by decide +kernel

theorem test_witness_two_wire :
    let d (b : Mbox) : Dev := { twb := { boxA := b, boxB := b, alert := true, pulseDue := true, lastPulse := some 5 } }
    ((d { st := .response, resp := [1, 2], pos := 1 }).twb.box true).st = .response ∧ ((d {}).twb.box false).st ≠ .response ∧
    (let b : Mbox := { st := .response, resp := [1, 2], pos := 1 }
     b.resp.length - b.pos ≤ 1 ∧ b.resp.length - b.pos < 2 ∧ 0 < b.resp.length - b.pos) ∧
    frameCode .executing [1, 0, 1] = some 4 ∧ frameCode .empty [] = some 2 ∧ (d {}).twb.running = 0 ∧ (7 : Nat) ≤ 7 ∧
    (d {}).twb.alert = true ∧ State.reset.dev.twb.alert = false ∧ (d {}).twb.pulseDue = true ∧ State.reset.dev.twb.pulseDue = false ∧
    (d {}).twb.lastPulse = some 5 ∧ 1000004 < 5 + 1000000 ∧ 5 + 1000000 ≤ max (d {}).now 1000005 := by decide


theorem test_witness_outputs : (powered .rails).dev.pow.phase ≠ .held ∧
    ∃ d, Answers .fireboxPor { State.reset with setup := {} } d := ⟨by decide, _, rfl⟩


/-! ### The spec's worked examples -/

/-- Chapter 2, "mains returns to RS-12": the eighth valid edge at tick 53,536 enters SLEW with r = −12,000. -/
theorem test_eighth_edge_enters_slew :
    let w := (Wheel.validEdge { state := .acquire, runEdges := 7, runPeriods := [2000000] } (phaseError 53536) (some 2000000))
    w.state = .slew ∧ w.r = -12000 ∧ slewTowardZero w.r = -10976 := by decide

/-- The same example: the eleven edges of the slew read −10,976 down to −736; the one with e = 0 enters LOCKED. -/
theorem test_slew_ends_in_locked :
    ((List.range 11).foldl (fun r _ => slewTowardZero r) (-12000 : Int)) = -736 ∧
    (Wheel.validEdge { state := .slew, r := -736 } 0 (some 2000000)).state = .locked := by decide

/-- R68: H = 0xFF40, C = 0xFFF8, ten fetched and T = 0x0005 with N = 256: no fault, the next completion has phase 0. -/
theorem test_credit_audit_example :
    let e : Entry := ⟨⟨0x0701, desc 0 0 []⟩, .held, 0⟩
    let r : Ring := { size := 8, state := .active, h := 0xFF40, c := 0xFFF8, q := List.replicate 10 e, t := 5 }
    r.f = 2 ∧ r.creditFault = false ∧ r.countsOk = true ∧ r.c.toNat % r.n = 248 ∧ phaseOf r.c.toNat r.n = false ∧
    Ring.creditFault { r with t := 0x41 } = true := by decide

/-- R78: check 5 short by 1 reads 0x0000_0001_0000_0005. -/
theorem test_shortfall_code : shortfall .noResource 5 1 = .fail .noResource 0x0000000100000005 := by decide

/-- The FEED_CFG of Table 7.8. -/
def rs12Feed : List Word := [2, 5000, 0x07D007D0, 0x00DC01D6, 0x00C816A8]

/-- Table 7.8: E_ATT is 318.6 mJ, within 500 mJ, and the residual test passes. -/
theorem test_feed_envelope :
    let e := feedEatt rs12Feed (feedBankOf []) (2048000, 1)
    318550 * (e.2 : Int) ≤ e.1 ∧ e.1 < 318650 * (e.2 : Int) ∧ feedEnergy rs12Feed (feedBankOf []) (2048000, 1) = none := by decide +kernel

/-- The text below Table 7.8: T_FLT = 2,251 µs fits, 2,500 µs is 37 mJ short. -/
theorem test_feed_envelope_limit :
    feedEnergy rs12Feed (feedBankOf [0, 2251]) (2048000, 1) = none ∧ feedEnergy rs12Feed (feedBankOf [0, 2252]) (2048000, 1) ≠ none ∧
    feedEnergy rs12Feed (feedBankOf [0, 2500]) (2048000, 1) = some 37 := by decide +kernel

/-- Table 5.11. -/
def typeIII : List Word :=
  [0x30020010, 0xC8020010, 0xB8000104, 0xB0040000, 0xC0800308, 0xB0880000, 0xC1040510, 0xB10C0000, 0x50100718, 0x20400800]

/-- Table 5.10. -/
def typeIIICoefs : List Int :=
  [26214, 0, 1311, 0, 26214, 6, 0, 24576, 19725, -19235, 0, -17101, 0, 5, 0, 0, 19725, -19235, 0, -17101, 0, 5, 0, 0, 0, 29491]

/-- Table 5.11: 19 issue and 13 stall cycles. -/
theorem test_type_iii_cycles : staticW 40 26 typeIII = 32 := by decide +kernel

/-- The Type-III loop: no error gives no demand; an open divider (IN0 = 0) drives the demand to its limit of 0.9. -/
theorem test_type_iii_run :
    let c (x : Int) : RunCtx := { ins := [x, 0, 0, 0, 0, 0, 0, 0], s := List.replicate 40 0, k := typeIIICoefs }
    ((c 26214).run typeIII).outs.getD 0 none = some 0 ∧ ((c 0).run typeIII).outs.getD 0 none = some 29491 := by decide +kernel

/-- Chapter 14: stripe 4,259's line of bank 6 lies at 0x0042_8D80, that of bank 11 at 0x0042_8EC0. -/
theorem test_line_addresses : lineAddr 6 4259 = 0x428D80 ∧ lineAddr 11 4259 = 0x428EC0 := by decide

/-- Table 18.6: VOUT_COMMAND of 54.00 V at N = −9, and VOUT_DROOP of 0.5 mV/A. -/
theorem test_module_words : voutCommand 5400 (-9) = 0x6C00 ∧ droopWord 5 = 0xB200 := by decide

/-- Table 18.13: FEED 3 of generation 1 is 0x0C00_C001; a completion's response frame has LEN 17 and 20 bytes. -/
theorem test_mailbox_frame :
    mkHandle tFeed 3 1 = 0x0C00C001 ∧
    (let f := mboxFrame 0x81 (completionBytes true 0 (plainCpl .ok (0x0C00C001 : Word) 0))
     f.length = 20 ∧ f.take 3 = [17, 0, 0x81]) := by decide

/-- Chapter 1: with rounds of 3,000 turns a change asked for at turn 1,234,567 takes effect at turn 1,236,000. -/
theorem test_profile_boundary : (Wheel.nextBoundary { turn := 1234567 }) = 1236000 := by decide

/-- Chapter 4: the voltages of the eight feeds of FS6, each requested once in eight starts of generator 20, take offsets 0 to 7 (R91). -/
theorem test_voltage_offsets :
    let d : Dev := { pwm := { gens := [(20, { word := 0x1F400000, definers := [0] })] } }
    let r := placeSlots d 0 ((List.range 8).map fun k => (6, BitVec.ofNat 32 (97 + 2 * k + 20 * 2 ^ 12 + 3 * 2 ^ 17)))
    r.2 = 0 ∧ (r.1.conv 6).slots.map (·.offset) = [0, 1, 2, 3, 4, 5, 6, 7] := by decide +kernel

/-- The device after a command; the device before it where the command does not complete. -/
def after (c : Instr) (s : State) : Dev := match exec c s with | .next t => t.dev | _ => s.dev

/-- Tables 10.4 and 10.5, with OWN counted under FIXED: RESIDUAL is 187,492 µJ, within the bound. -/
theorem test_ledger_example :
    let a (kind index uj : Nat) : Account := { kind := kind, index := index, value := uj * 65536, used := true }
    let t := ledTurn 0 0 [a 1 0 225932000, a 2 0 6480000, a 4 0 43200000, a 5 0 86400000, a 6 0 85884000, a 8 0 1000000, a 9 0 2780000, a 0x0B 0 508]
    let l := (after (.ledgerClose 0 0 0) (st { led := { waiting := some t, count := 3 } })).led
    l.round.residual = 187492 * 65536 ∧ l.count = 0 ∧ l.good = 1 ∧ l.round.closed = 1 := by decide +kernel

/-! ### Effects -/

/-- R55, R56: a doorbell moves T; one past the window fences with REASON 2. -/
theorem test_doorbell :
    ((after (.hostDbSq 5 16) (rung 5 { state := .active })).host.ring 5).u = 16 ∧
    ((after (.hostDbSq 5 17) (rung 5 { state := .active })).host.ring 5).reason = 2 := by decide +kernel

/-- R45: the two halves of the turn number. -/
theorem test_turn_read :
    let d := after .wheelTurnLoRead (st { ready with wheel := { turn := 0x123456789ABC } })
    d.host.rdData = 0x56789ABC ∧ d.wheel.turnHi = 0x1234 := by decide +kernel

/-- R77: a CREATE without INDEX takes the lowest free index; the completion waits on its ring. -/
theorem test_create :
    let x : Desc := { desc 0 (mkHandle tExtr 0 0).toNat [0, 0, 24, 1] with data := bytes [0, 0x1048, 0, 0, 0, 0] }
    let d := after (.create x) (cmdState {})
    (d.slot tExtr 0).live = true ∧ ((d.host.ring 0).q.map (·.st)) = [.done ⟨.ok, mkHandle tExtr 0 1, (mkHandle tExtr 0 1).setWidth 64, [], 0⟩] := by
  decide +kernel

/-- R38: SET_ROUND takes effect at the next round boundary and no earlier. -/
theorem test_set_round :
    let d := after (.setRound (desc 0 0 [100])) (cmdState { wheel := { turn := 2999 } })
    let e := after (.turnBoundary 0) (st d)
    d.wheel.length = 3000 ∧ e.wheel.length = 100 ∧ e.wheel.base = 3000 := by decide +kernel

/-- R207: an output short trips a feed that is on into BLEED at once. -/
theorem test_feed_short : ((after (.feedShort 39 0) (st (chanDev { run := .on } {}))).chan 39).run = .bleed := by decide +kernel

/-- R352: an accepted low on FAULT_N takes a joined sequence down. -/
theorem test_faultn_low :
    ((after (.faultnLow 5) (st (seqDev 128 { run := .on } {}))).sq 7).run = .off ∧ (after (.faultnLow 5) (st (seqDev 0 { run := .on } {}))).seq.fn.low = true := by
  decide +kernel

/-- R484: a read of the whole response empties the mailbox. -/
theorem test_mailbox_read :
    let d := after (.mboxRead false 2) (st { twb := { boxB := { st := .response, resp := [1, 2] }, alert := true } })
    d.twb.read = [1, 2] ∧ d.twb.boxB.st = .empty ∧ d.twb.alert = false := by decide +kernel


end Sys2Proof.Tests
end

/-! ## The banks: BANK_WRITE, BANK_READ, BANK_COPY and BANK_SWAP -/

section
/-! PROOF. A descriptor that runs carries its opcode's reply to its row; what each BANK_ opcode replies, branch by branch, and what
it leaves of the handle table; from these, the statement about the banks. -/

namespace Sys2Proof.Machine

/-! ### A descriptor that runs -/

section
variable {op : Nat} {x : Desc} {s : State} {d e : Dev} {k : Nat} {f : OpFn} {c : Instr}

theorem descRow_of_runs (f : OpFn) (h : Runs op x s d k) : descRow op f 0 x s.dev = replied x k (f d x) := by
  obtain ⟨-, b, hbegins, hcheck, rfl⟩ := h
  simp only [descRow, hbegins, runOp, hcheck]

/-- A row whose descriptor runs answers what its opcode's effect replies. -/
theorem answers_of_runs {r : Dev × Reply} (hc : exec c s = s.onDesc op x f) (h : Runs op x s d k) (hf : f d x = r) :
    Answers c s (replied x k r) := by
  rw [Answers, hc, onDesc_row s op x f h.1, descRow_of_runs f h, hf]

theorem completes_of_ends {st : Status} {result : Nat} (hc : exec c s = s.onDesc op x f) (h : Runs op x s d k)
    (hf : f d x = e.ends x st result) : Completes c s x k st result e :=
  answers_of_runs hc h hf

theorem answers_of_waits (hc : exec c s = s.onDesc op x f) (h : Runs op x s d k) (hf : f d x = (e, .waits)) :
    Answers c s e :=
  answers_of_runs hc h hf

end

/-! ### The named slot and its shadow bank -/

/-- The slot that a descriptor's handle names. -/
abbrev namedSlot (d : Dev) (x : Desc) : Slot := d.slot (hType x.handle) (hIndex x.handle)

theorem Dev.modSlot_frame (d : Dev) (t i : Nat) (f : Slot → Slot) :
    d.modSlot t i f = { d with slots := (d.modSlot t i f).slots } := rfl

@[simp] theorem Slot.setShadow_active (sl : Slot) (b : List Byte) : (sl.setShadow b).active = sl.active := by
  cases h : sl.activeB <;> simp [Slot.setShadow, Slot.active, h]

@[simp] theorem Slot.setShadow_shadow (sl : Slot) (b : List Byte) : (sl.setShadow b).shadow = b := by
  cases h : sl.activeB <;> simp [Slot.setShadow, Slot.shadow, h]

/-! ### A type without banks -/

section
variable {d : Dev} {x : Desc} (hnone : (namedSlot d x).bankA = [])
include hnone

theorem opBankWrite_noBank : opBankWrite d x = d.ends x .state 0 := by simp [opBankWrite, hnone]
theorem opBankRead_noBank : opBankRead d x = d.ends x .state 0 := by simp [opBankRead, hnone]
theorem opBankCopy_noBank : opBankCopy d x = d.ends x .state 0 := by simp [opBankCopy, hnone]
theorem opBankSwap_noBank : opBankSwap d x = d.ends x .state 0 := by simp [opBankSwap, hnone]

end

/-! ### A swap that is pending (R15) -/

section
variable {d : Dev} {x : Desc} (hbank : (namedSlot d x).bankA ≠ []) (hswap : (namedSlot d x).swap = true)
include hbank hswap

theorem opBankWrite_pending : opBankWrite d x = d.ends x .busy 0 := by simp [opBankWrite, hbank, hswap]
theorem opBankCopy_pending : opBankCopy d x = d.ends x .busy 0 := by simp [opBankCopy, hbank, hswap]
theorem opBankSwap_pending : opBankSwap d x = d.ends x .busy 0 := by simp [opBankSwap, hbank, hswap]

end

/-! ### BANK_READ of a type with banks -/

/-- The bytes that BANK_READ reads: of the shadow bank with SHADOW, else of the active one. -/
def bankReadBytes (sl : Slot) (x : Desc) : List Byte :=
  ((if bitsN x.flags.toNat 3 1 = 1 then sl.shadow else sl.active).drop (parN x 3)).take (parN x 2)

section
variable {d : Dev} {x : Desc} (hbank : (namedSlot d x).bankA ≠ [])
include hbank

theorem opBankRead_range
    (h : bankSpanOk (namedSlot d x) (hType x.handle) (parN x 3) (parN x 2) = false ∨ destOk x (parN x 2) = false) :
    opBankRead d x = d.ends x .range 0 := by
  simp [opBankRead, hbank, h]

theorem opBankRead_ok (hspan : bankSpanOk (namedSlot d x) (hType x.handle) (parN x 3) (parN x 2) = true)
    (hdest : destOk x (parN x 2) = true) :
    opBankRead d x = d.endsWith x (paramAddr x.params 0) (bankReadBytes (namedSlot d x) x) := by
  simp [opBankRead, bankReadBytes, hbank, hspan, hdest]

end

/-! ### BANK_WRITE, BANK_COPY and BANK_SWAP while no swap is pending -/

/-- The device in which a swap of the named handle has become pending and its command waits. -/
def swapAsked (d : Dev) (x : Desc) : Dev :=
  (d.modSlot (hType x.handle) (hIndex x.handle) fun y => { y with swap := true }).addWait x.src .swap x.handle

@[simp] theorem Dev.modSlot_loop (d : Dev) (t i : Nat) (f : Slot → Slot) (l : Nat) : (d.modSlot t i f).loop l = d.loop l := rfl
@[simp] theorem Dev.addWait_loop (d : Dev) (src : Src) (w : WaitKind) (h : Word) (l : Nat) :
    (d.addWait src w h).loop l = d.loop l := rfl

/-- A bank of a LOOP holds coefficients, and any will do. -/
theorem swapCheck_loop (d : Dev) (i : Nat) : swapCheck d tLoop i = .pass := rfl

section
variable {d : Dev} {x : Desc} (hbank : (namedSlot d x).bankA ≠ []) (hfree : (namedSlot d x).swap = false)
include hbank hfree

theorem opBankWrite_badSpan (hspan : bankSpanOk (namedSlot d x) (hType x.handle) (parN x 3) (parN x 2) = false) :
    opBankWrite d x = d.ends x .range 0 := by
  simp [opBankWrite, hbank, hfree, hspan]

theorem opBankWrite_noSource (hsrc : sourceBytes x 0 (parN x 2) = none) : opBankWrite d x = d.ends x .range 0 := by
  simp [opBankWrite, hbank, hfree, hsrc]

theorem opBankWrite_ok {b : List Byte} (hspan : bankSpanOk (namedSlot d x) (hType x.handle) (parN x 3) (parN x 2) = true)
    (hsrc : sourceBytes x 0 (parN x 2) = some b) :
    opBankWrite d x = (d.modSlot (hType x.handle) (hIndex x.handle) fun y =>
      y.setShadow (splice y.shadow (b ++ zeros (parN x 2 - b.length)) (parN x 3))).ends x .ok (parN x 2) := by
  simp [opBankWrite, hbank, hfree, hspan, hsrc]

theorem opBankCopy_ok :
    opBankCopy d x = (d.modSlot (hType x.handle) (hIndex x.handle) fun y => y.setShadow y.active).ends x .ok 0 := by
  simp [opBankCopy, hbank, hfree]

theorem opBankSwap_refused {st : Status} {res : BitVec 64}
    (hcheck : swapCheck d (hType x.handle) (hIndex x.handle) = .fail st res) : opBankSwap d x = d.ends x st res.toNat := by
  simp [opBankSwap, hbank, hfree, hcheck]

/-- A swap that passes its checks stays pending, but where the handle is a LOOP that does not run. -/
theorem opBankSwap_waits (hcheck : swapCheck d (hType x.handle) (hIndex x.handle) = .pass)
    (hrun : hType x.handle ≠ tLoop ∨ (namedSlot d x).hstate ≠ .disabled ∧ (d.loop (hIndex x.handle)).latch = .running) :
    opBankSwap d x = (swapAsked d x, .waits) := by
  rcases hrun with htype | ⟨hstate, hlatch⟩
  · simp [opBankSwap, swapAsked, hbank, hfree, hcheck, htype]
  · simp [opBankSwap, swapAsked, hbank, hfree, hcheck, hstate, hlatch]

/-- A LOOP that does not run takes the swap at once (R142, R143). -/
theorem opBankSwap_atOnce (htype : hType x.handle = tLoop)
    (hidle : (namedSlot d x).hstate = .disabled ∨ (d.loop (hIndex x.handle)).latch ≠ .running) :
    opBankSwap d x = (swapLoop (swapAsked d x) (hIndex x.handle) ((d.loop (hIndex x.handle)).runs + 1), .waits) := by
  rw [namedSlot, htype] at hbank hfree hidle
  simp [opBankSwap, swapAsked, swapCheck_loop, hbank, hfree, htype, hidle]

end

/-! ### The rows -/

section
variable {d : Dev} {x : Desc} {s : State} {k : Nat}

/-- BANK_WRITE writes the shadow bank of its handle alone. -/
theorem bankWrite_writes {b : List Byte} (h : Runs 0x0201 x s d k) (hbank : (namedSlot d x).bankA ≠ [])
    (hfree : (namedSlot d x).swap = false)
    (hspan : bankSpanOk (namedSlot d x) (hType x.handle) (parN x 3) (parN x 2) = true)
    (hsrc : sourceBytes x 0 (parN x 2) = some b) :
    let bank := splice (namedSlot d x).shadow (b ++ zeros (parN x 2 - b.length)) (parN x 3)
    ∃ e, Completes (.bankWrite x) s x k .ok (parN x 2) e ∧ e = { d with slots := e.slots } ∧
      (namedSlot e x).active = (namedSlot d x).active ∧ (namedSlot e x).shadow = bank ∧
      namedSlot e x = (namedSlot d x).setShadow bank ∧
      (∀ u j, slotKey u j ≠ slotKey (hType x.handle) (hIndex x.handle) → e.slot u j = d.slot u j) :=
  ⟨_, completes_of_ends rfl h (opBankWrite_ok hbank hfree hspan hsrc), Dev.modSlot_frame .., by simp, by simp, by simp,
    fun _ _ => slot_modSlot_ne d _⟩

/-- BANK_COPY makes the shadow bank of its handle, and that alone, equal to the active one. -/
theorem bankCopy_copies (h : Runs 0x0204 x s d k) (hbank : (namedSlot d x).bankA ≠ []) (hfree : (namedSlot d x).swap = false) :
    ∃ e, Completes (.bankCopy x) s x k .ok 0 e ∧ e = { d with slots := e.slots } ∧
      (namedSlot e x).active = (namedSlot d x).active ∧ (namedSlot e x).shadow = (namedSlot d x).active ∧
      (∀ u j, slotKey u j ≠ slotKey (hType x.handle) (hIndex x.handle) → e.slot u j = d.slot u j) :=
  ⟨_, completes_of_ends rfl h (opBankCopy_ok hbank hfree), Dev.modSlot_frame .., by simp, by simp,
    fun _ _ => slot_modSlot_ne d _⟩

/-- BANK_SWAP marks the swap of its handle pending, and its command waits. -/
theorem bankSwap_waits (h : Runs 0x0202 x s d k) (hbank : (namedSlot d x).bankA ≠ []) (hfree : (namedSlot d x).swap = false)
    (hcheck : swapCheck d (hType x.handle) (hIndex x.handle) = .pass)
    (hrun : hType x.handle ≠ tLoop ∨ (namedSlot d x).hstate ≠ .disabled ∧ (d.loop (hIndex x.handle)).latch = .running) :
    ∃ e, Answers (.bankSwap x) s e ∧ e = { d with slots := e.slots, waits := d.waits ++ [⟨some x.src, .swap, x.handle⟩] } ∧
      namedSlot e x = { namedSlot d x with swap := true } ∧
      (∀ u j, slotKey u j ≠ slotKey (hType x.handle) (hIndex x.handle) → e.slot u j = d.slot u j) :=
  ⟨swapAsked d x, answers_of_waits rfl h (opBankSwap_waits hbank hfree hcheck hrun), rfl,
    slot_modSlot_self d _ _ fun y => { y with swap := true }, fun _ _ => slot_modSlot_ne d fun y => { y with swap := true }⟩

/-- BANK_READ answers with the bytes of the bank that SHADOW selects. -/
theorem bankRead_reads (h : Runs 0x0203 x s d k) (hbank : (namedSlot d x).bankA ≠ [])
    (hspan : bankSpanOk (namedSlot d x) (hType x.handle) (parN x 3) (parN x 2) = true) (hdest : destOk x (parN x 2) = true) :
    ∃ b : List Byte,
      Answers (.bankRead x) s (completed x k ⟨.ok, x.handle, BitVec.ofNat 64 b.length, b, paramAddr x.params 0⟩ d) ∧
      (bitsN x.flags.toNat 3 1 = 0 → b = ((namedSlot d x).active.drop (parN x 3)).take (parN x 2)) ∧
      (bitsN x.flags.toNat 3 1 = 1 → b = ((namedSlot d x).shadow.drop (parN x 3)).take (parN x 2)) :=
  ⟨bankReadBytes (namedSlot d x) x, answers_of_runs rfl h (opBankRead_ok hbank hspan hdest),
    fun hactive => by simp [bankReadBytes, hactive], fun hshadow => by simp [bankReadBytes, hshadow]⟩

end

/-- Settles O33: each clause is its row's answer, from what the opcode replies in that branch. -/
theorem banks : Obligations.Banks := by
  unfold Obligations.Banks
  intro x s d k
  refine ⟨fun h => ?write, fun h => ?read, fun h => ?copy, fun h => ?swap⟩
  case write =>
    exact ⟨fun hnone => completes_of_ends rfl h (opBankWrite_noBank hnone),
      fun hbank hswap => completes_of_ends rfl h (opBankWrite_pending hbank hswap),
      fun hbank hfree hspan => completes_of_ends rfl h (opBankWrite_badSpan hbank hfree hspan),
      fun hbank hfree hsrc => completes_of_ends rfl h (opBankWrite_noSource hbank hfree hsrc),
      fun _ => bankWrite_writes h⟩
  case read =>
    exact ⟨fun hnone => completes_of_ends rfl h (opBankRead_noBank hnone),
      fun hbank hrange => completes_of_ends rfl h (opBankRead_range hbank hrange),
      bankRead_reads h⟩
  case copy =>
    exact ⟨fun hnone => completes_of_ends rfl h (opBankCopy_noBank hnone),
      fun hbank hswap => completes_of_ends rfl h (opBankCopy_pending hbank hswap),
      bankCopy_copies h⟩
  case swap =>
    exact ⟨fun hnone => completes_of_ends rfl h (opBankSwap_noBank hnone),
      fun hbank hswap => completes_of_ends rfl h (opBankSwap_pending hbank hswap),
      fun _ _ hbank hfree hcheck => completes_of_ends rfl h (opBankSwap_refused hbank hfree hcheck),
      bankSwap_waits h,
      fun hbank hfree htype hidle => answers_of_waits rfl h (opBankSwap_atOnce hbank hfree htype hidle)⟩

end Sys2Proof.Machine
end

/-! ## The Wheel: what leaves it alone, and the captured half of the turn number -/

section
/-! PROOF. The commands outside `Instr.changesWheel` leave the whole Wheel; those in it leave the half of the turn number that a
read of WHEEL_TURN_LO captured, but for that read and the power-on reset; from both, the statement about the pair of reads. -/

namespace Sys2Proof.Machine

/-! ### The commands that leave the Wheel -/

theorem wheel_kept_next {s t : State} {d : Dev} (h : (.next { s with dev := d } : Out) = .next t)
    (hd : d.wheel = s.dev.wheel) : t.dev.wheel = s.dev.wheel := by
  cases h; exact hd

theorem ite_wheel {c : Prop} [Decidable c] {a b d : Dev} (ha : a.wheel = d.wheel) (hb : b.wheel = d.wheel) :
    (if c then a else b).wheel = d.wheel := by
  split
  · exact ha
  · exact hb

/-- SET_ROUND is the one opcode that changes the Wheel (R38). -/
theorem opOf_wheel {op : Nat} (h : op ≠ 0x0305) (d : Dev) (x : Desc) : (opOf op d x).1.wheel = d.wheel := by
  unfold opOf
  split
  case h_12 => exact absurd rfl h
  all_goals simp

theorem descRow_opOf_wheel {op : Nat} (h : op ≠ 0x0305) (block : Nat) (x : Desc) (d : Dev) :
    (descRow op (opOf op) block x d).wheel = d.wheel :=
  descRow_wheel _ _ _ _ _ (opOf_wheel h)

theorem deviceReset_wheel (straps : BitVec 7) (d : Dev) : (deviceReset straps d).wheel = d.wheel := by
  simp [deviceReset]

/-- The commands are grouped by the form of their meaning and by the guard that stands before their operation. -/
theorem exec_wheel_kept {c : Instr} {s t : State} (hc : c.changesWheel = false) (h : exec c s = .next t) :
    t.dev.wheel = s.dev.wheel := by
  cases c with
  | mainsEdge | wheelMissedEdge | turnBoundary | wheelTurnLoRead | wheelCountRead | setRound | fireboxPor | mgmtReady | safeHold =>
    cases hc
  | mboxCommand peer raw =>
    have hop : raw.op ≠ 0x0305 := by simpa [Instr.changesWheel] using hc
    exact wheel_kept_next h (descRow_opOf_wheel hop _ _ _)
  | coapPostCmd session mid szx block raw =>
    have hop : raw.op ≠ 0x0305 := by simpa [Instr.changesWheel] using hc
    exact wheel_kept_next h (coapSized_wheel _ _ _ _ _ _ (descRow_opOf_wheel hop _ _))
  | sysLock =>
    simp only [exec, execSysLock] at h
    split at h <;> (cases h; rfl)
  | registerWrite =>
    simp only [exec, execRegisterWrite] at h
    (repeat' split at h) <;> cases h <;> simp
  | deviceReset =>
    simp only [exec, execDeviceReset] at h
    split at h <;> cases h
    · rfl
    · exact deviceReset_wheel ..
  | tallyFbCntRead =>
    simp only [exec, execTallyFbCntRead] at h
    split at h
    · exact wheel_kept_onHostAt h fun _ _ => by simp
    · cases h
  | coneTrip =>
    simp only [exec, execConeTrip] at h
    split at h
    · exact wheel_kept_onDevAt h fun _ _ => by simp
    · cases h
  | create | destroy | configure | bankWrite | bankSwap | bankRead | bankCopy | enable | disable | setPoint | setProfile | clear
  | recover | queryState | queryRead | eventWait | queryResources | queryHandles | streamStart | streamBuf | streamStop
  | imgSherd | imgStatus | imgActivate | imgRollback | nop | fence | warmStart | kilnRead | debugUnlock =>
    exact wheel_kept_onDesc h fun _ _ => by simp
  | acqCalStart | tallyTagClear | hostAuditRead | hostInflightRead | acqCalStatusWrite | sysClkRead | sysClkWrite | sysRstRead
  | sysRstWrite | bar4Write =>
    exact wheel_kept_onHost h fun _ _ => by simp
  | hostDbSq | hostDbCq | ringEnable | ringPause | ringReset | tallyFbCycLoRead | tallyFbClear | tallyFbFreeze | acqFsCountRead =>
    exact wheel_kept_onHostAt h fun _ _ => by simp
  | linkTrainingDone | mgmtHeartbeat | mgmtWatchdogTimeout | mgmtWdColdStart | ledgerClose | ledgUnmetered | estimatorStep
  | tallyGather | loopStarved | throwMemError | svScanStart | svConversionDone | tdConversionDone | calDone | flueKeepalive
  | flueTakeover | vdrvUv | holdupRelease | holdupChargeEnd | holdupBleedGate | holdupBleedEnd | faultnHigh | sitterRelease
  | blackBoxCommitDone | blackBoxRearm | sherdWriteDone | handoverCopyDone | handoverHoldCommands | handoverBoundary
  | newImageStart | fireboxImageSwitch | fireboxSelfRevert | imageConfirmed | failedBoot | fireboxPorRelease | fireboxRailsGood
  | supervisorChecked | hkSuppliesGood | hkStartFail | hkRetry | bootRomInitDone | hearthSupplyFault | refClockLoss
  | refClockRestore | mboxReread | mboxDiscard | mboxFrameError | mboxRead | alertResponseRead | attentionPulse | twoWireTimeout
  | twoWireAbort | busStuckClear | arbitrationLost | moduleDiscovery | modulePollCycle | moduleWrite | vdrvUvRelease
  | pcieLinkDown | attentionPulseCollision | jtagInstructionLoad =>
    exact wheel_kept_next h (by simp)
  | holdupBleedStart | blackBoxTrigger =>
    exact wheel_kept_next h (Dev.atTick_wheel _ _ _ fun _ => by simp)
  | scrub | sramLineRead | fireboxSilence =>
    exact wheel_kept_next h (keepKnown_wheel _ _ (by simp))
  | flueTakeoverReport => exact wheel_kept_next h (ite_wheel rfl (keepKnown_wheel _ _ (by simp)))
  | configSpaceReady => exact wheel_kept_next h (ite_wheel rfl rfl)
  | hostInterfaceReset | faultnLow => exact wheel_kept_next h (ite_wheel (by simp) (by simp))
  | coapPutImg => exact wheel_kept_next h (coapSized_wheel _ _ _ _ _ _ fun _ => descRow_wheel _ _ _ _ _ fun _ _ => by simp)
  | descriptorFetchDone | completionPost | bankRebuild | sampleTrigger | fsConversionDone | urgentTrigger | injectedStart
  | loopDispatch | loopFerr | pdOutput | pdWindowCrossing | sensorPeriod | calFamilyDone | unitWatchdog | carrierStart
  | sheddingEnd | shedHoldEnd | bootstrapUv | surgeDetect | firingEnd | railPgConfirm | railOffReached | feedPrechargeDone
  | feedPgConfirm | feedPgLoss | feedFaultRecord | feedBleedStart | feedBleedEnd | feedResLate | feedRetryDelay | feedRetryClear
  | branchOnsetReset | branchOpeningEnd | branchHealthWindow | slotEraseDone | ethFrameReceived | netLink | dtlsHandshake
  | dtlsIdleClose | streamEmission | branchPgConfirm | branchRetryDelay | branchRetryClear | netifLinkTimeout | dadComplete
  | dischargeThermalOff =>
    exact wheel_kept_onDevAt h fun _ _ => by simp
  | pllUnlock | pllRelock => exact wheel_kept_onDevAt h fun _ _ => ite_wheel rfl (by simp)
  | irqCoalesceTimeout | feedBackfeed | sensorBiasFault | coapGetId | branchPgLoss =>
    exact wheel_kept_onDevAt h fun _ _ => ite_wheel (by simp) rfl
  | railStopLate | railOv | phaseFailure | feedPrechargeTimeout | feedGateTimeout | feedShort | feedFaultTimer | feedBackstop
  | feedPowerLimit | feedOvReverse | branchEnergyTrip | branchHardTrip | branchRampTimeout | branchBackstop | branchOvReverse =>
    exact wheel_kept_onDevAt h fun _ _ => Dev.atTick_wheel _ _ _ fun _ => by simp
  | railStartTimeout | railUvTime | railOcp | coneConfirm =>
    exact wheel_kept_onDevAt h fun _ _ => Dev.atTick_wheel _ _ _ fun _ => ite_wheel (by simp) rfl
  | srcLoss | srcWindowLoss =>
    exact wheel_kept_onDevAt h fun _ _ => Dev.atTick_wheel _ _ _ fun _ => onSet_wheel _ _ _ (by simp)
  | srcQualified | srcBlockingConfirmed | srcConductionConfirmed | srcStuck | srcFailed | srcAutoReturn | srcNoneTimeout =>
    exact wheel_kept_onDevAt h fun _ _ => onSet_wheel _ _ _ (by simp)
  | seqDelayUpEnd | seqDelayDownEnd | seqStepUp | seqStepOff | seqRiseTimeout | seqFallTimeout | seqDschWinEnd | seqMemberFault
  | seqMinOffEnd | faultnQuiet =>
    exact wheel_kept_onDevAt h fun _ _ => onSeq_wheel _ _ _ (by simp)
  | battUnanchored | impedanceWindowClose | battCutoff | cutoffRelease | battHibernate | reducedSampling | reducedSamplingTurn =>
    exact wheel_kept_onDevAt h fun _ _ => onStr_wheel _ _ _ (by simp)
  | flueCrcFail =>
    exact wheel_kept_onDevAt h fun _ _ => keepKnown_wheel _ _ (by simp)

/-! ### The captured half of the turn number on the Wheel -/

@[simp] theorem Wheel.edgeNoted_turnHi (w : Wheel) (ac valid : Bool) (time comp : Nat) :
    (w.edgeNoted ac valid time comp).turnHi = w.turnHi := by
  cases ac <;> rfl

@[simp] theorem Wheel.enter_turnHi (w : Wheel) (st : WheelState) : (w.enter st).turnHi = w.turnHi := rfl

@[simp] theorem Wheel.acquireEdge_turnHi (w : Wheel) (period : Option Nat) : (w.acquireEdge period).turnHi = w.turnHi := by
  unfold Wheel.acquireEdge
  (repeat' split) <;> rfl

@[simp] theorem Wheel.validEdge_turnHi (w : Wheel) (e : Int) (period : Option Nat) : (w.validEdge e period).turnHi = w.turnHi := by
  unfold Wheel.validEdge
  dsimp only
  (repeat' split) <;> simp

@[simp] theorem Wheel.loseLock_turnHi (w : Wheel) : w.loseLock.turnHi = w.turnHi := rfl

@[simp] theorem Wheel.advance_turnHi (su : Setup) (w : Wheel) : (w.advance su).turnHi = w.turnHi := by
  unfold Wheel.advance
  dsimp only
  (repeat' split) <;> rfl

@[simp] theorem Wheel.switched_turnHi (now : Nat) (w : Wheel) : (w.switched now).turnHi = w.turnHi := by
  unfold Wheel.switched
  split <;> rfl

@[simp] theorem Wheel.applyLength_turnHi (w : Wheel) : w.applyLength.turnHi = w.turnHi := by
  unfold Wheel.applyLength
  split <;> rfl

@[simp] theorem Wheel.afterBoundary_turnHi (w : Wheel) (su : Setup) (now : Nat) : (w.afterBoundary su now).turnHi = w.turnHi := by
  unfold Wheel.afterBoundary
  dsimp only
  split <;> simp

/-! ### The operations that change the Wheel -/

theorem mainsEdge_turnHi (ac : Bool) (highNs time tick : Nat) (d : Dev) :
    (mainsEdge ac highNs time tick d).wheel.turnHi = d.wheel.turnHi := by
  unfold mainsEdge
  dsimp only
  (repeat' split) <;> simp

theorem missedEdge_turnHi (d : Dev) : (missedEdge d).wheel.turnHi = d.wheel.turnHi := by
  unfold missedEdge
  dsimp only
  (repeat' split) <;> simp

theorem opSetRound_turnHi (d : Dev) (x : Desc) : (opSetRound d x).1.wheel.turnHi = d.wheel.turnHi := by
  unfold opSetRound
  dsimp only
  split <;> simp

theorem opOf_turnHi (op : Nat) (d : Dev) (x : Desc) : (opOf op d x).1.wheel.turnHi = d.wheel.turnHi := by
  by_cases h : op = 0x0305
  · subst h; exact opSetRound_turnHi d x
  · rw [opOf_wheel h]

/-! ### A descriptor whose opcode keeps the captured half -/

section
variable {f : OpFn} (hf : ∀ d x, (f d x).1.wheel.turnHi = d.wheel.turnHi)
include hf

theorem runOp_turnHi (op : Nat) (d : Dev) (x : Desc) : (runOp op f d x).1.wheel.turnHi = d.wheel.turnHi := by
  unfold runOp
  split
  · simp
  · rw [hf]; split <;> simp

theorem descRow_turnHi (op block : Nat) (x : Desc) (d : Dev) : (descRow op f block x d).wheel.turnHi = d.wheel.turnHi := by
  unfold descRow
  split
  case h_1 e k hbegins => rw [replied_wheel, runOp_turnHi hf, begins_wheel hbegins]
  case h_2 => simp

end

theorem coapSized_turnHi (szx k mid block : Nat) {f : Dev → Dev} (d : Dev) (hf : (f d).wheel.turnHi = d.wheel.turnHi) :
    (coapSized szx k mid block f d).wheel.turnHi = d.wheel.turnHi := by
  unfold coapSized
  split
  · exact hf
  · split
    case h_1 e hbegins => rw [Dev.coapReply_wheel, coapBegins_wheel hbegins]
    case h_2 => simp

@[simp] theorem runHeld_turnHi (peer : Bool) (d : Dev) : (runHeld peer d).wheel.turnHi = d.wheel.turnHi := by
  unfold runHeld
  (repeat' split) <;> simp [runOp_turnHi (opOf_turnHi _)]

/-! ### The commands that leave the captured half -/

theorem turnHi_kept_next {s t : State} {d : Dev} (h : (.next { s with dev := d } : Out) = .next t)
    (hd : d.wheel.turnHi = s.dev.wheel.turnHi) : t.dev.wheel.turnHi = s.dev.wheel.turnHi := by
  cases h; exact hd

theorem execSetRound_turnHi {x : Desc} {s t : State} (h : execSetRound x s = .next t) :
    t.dev.wheel.turnHi = s.dev.wheel.turnHi := by
  have hrow := descRow_turnHi opSetRound_turnHi 0x0305 0 x s.dev
  unfold execSetRound State.onDesc at h
  split at h
  · unfold State.onDevAt at h
    split at h
    · exact turnHi_kept_next h hrow
    · cases h
  · exact turnHi_kept_next h hrow

theorem execWheelCountRead_turnHi {s t : State} (h : execWheelCountRead s = .next t) :
    t.dev.wheel.turnHi = s.dev.wheel.turnHi := by
  unfold execWheelCountRead State.onHost at h
  split at h <;> (cases h; rfl)

/-- Every command but the capture itself and the power-on reset leaves the captured half. -/
theorem exec_turnHi_kept {c : Instr} {s t : State} (hread : c ≠ .wheelTurnLoRead) (hpor : c ≠ .fireboxPor)
    (h : exec c s = .next t) : t.dev.wheel.turnHi = s.dev.wheel.turnHi := by
  by_cases hc : c.changesWheel = false
  · rw [exec_wheel_kept hc h]
  cases c
  case wheelTurnLoRead => exact absurd rfl hread
  case fireboxPor => exact absurd rfl hpor
  case mainsEdge => exact turnHi_kept_next h (mainsEdge_turnHi ..)
  case wheelMissedEdge => exact turnHi_kept_next h (missedEdge_turnHi _)
  case turnBoundary => exact turnHi_kept_next h (by simp [Dev.atTick, turnBoundary_wheel_eq])
  case wheelCountRead => exact execWheelCountRead_turnHi h
  case setRound => exact execSetRound_turnHi h
  case mgmtReady => exact turnHi_kept_next h (by simp)
  case safeHold => exact turnHi_kept_next h (by simp)
  case mboxCommand => exact turnHi_kept_next h (descRow_turnHi (opOf_turnHi _) ..)
  case coapPostCmd => exact turnHi_kept_next h (coapSized_turnHi _ _ _ _ _ (descRow_turnHi (opOf_turnHi _) ..))
  all_goals exact absurd rfl hc

/-! ### The pair of reads -/

/-- Bits 47 to 32 and bits 31 to 0 of a turn number are that number. -/
theorem turn_halves (w : BitVec 48) : ((w >>> 32).setWidth 16).toNat * 2 ^ 32 + (w.setWidth 32).toNat = w.toNat := by
  have := w.isLt
  simp only [BitVec.toNat_setWidth, BitVec.toNat_ushiftRight, Nat.shiftRight_eq_div_pow]
  omega

/-- Settles O15: the read answers one half and captures the other, and no other command but a power-on reset writes the
captured half. -/
theorem turnReadIsConsistent : Obligations.TurnReadIsConsistent := by
  unfold Obligations.TurnReadIsConsistent
  refine ⟨fun s hlink => ?read, fun c s t hread hpor h => exec_turnHi_kept hread hpor h⟩
  case read => exact ⟨_, onHost_ready s _ hlink, rfl, turn_halves s.dev.wheel.turn, rfl⟩

end Sys2Proof.Machine
end

/-! ## The rings: EN, RESET, and doorbells of a paused ring -/

section
/-! PROOF. What Table 3.15 makes of a ring, one equation per state it is found in; what RESET changes of the device; and what the
two doorbells make of a PAUSED ring. -/

namespace Sys2Proof.Machine

/-- A request of the host to a ring that exists, over a link that is ready, answers with its effect. -/
theorem answers_of_onHostAt {c : Instr} {s : State} {n : Nat} {f : Setup → Dev → Dev} (hc : exec c s = s.onHostAt 128 n f)
    (hn : n < 128) (hlink : s.dev.host.link = .ready) : Answers c s (f s.setup s.dev) := by
  rw [Answers, hc, onHostAt_ready s f hn hlink]

/-! ### EN (Table 3.15) -/

@[simp] theorem Ring.enable_en (r : Ring) : r.enable.en = true := by
  unfold Ring.enable
  (repeat' split) <;> rfl

section
variable {r : Ring}

theorem Ring.enable_valid (hstate : r.state = .disabled) (hvalid : r.configValid = true) :
    r.enable = { r with en := true, state := .active, t := 0, u := 0, c := 0, h := 0, q := [], evq := [], discarded := 0 } := by
  simp [Ring.enable, hstate, hvalid]

theorem Ring.enable_invalid (hstate : r.state = .disabled) (hvalid : r.configValid = false) :
    r.enable = { r with en := true, reason := 6 } := by
  simp [Ring.enable, hstate, hvalid]

theorem Ring.enable_paused (hstate : r.state = .paused) : r.enable = { r with en := true, state := .active } := by
  simp [Ring.enable, hstate]

theorem Ring.enable_elsewhere (hstate : r.state = .active ∨ r.state = .fenced ∨ r.state = .resetting) :
    r.enable = { r with en := true } := by
  rcases hstate with hstate | hstate | hstate <;> simp [Ring.enable, hstate]

theorem Ring.pause_active (hstate : r.state = .active) : r.pause = { r with en := false, state := .paused } := by
  simp [Ring.pause, hstate]

theorem Ring.pause_elsewhere (hstate : r.state ≠ .active) : r.pause = { r with en := false } := by
  simp [Ring.pause, hstate]

end

/-! ### RESET (Table 3.15, R65) -/

theorem Entry.reset_ended (swap : Bool) (e : Entry) : (e.reset swap).isDone = true ∨ (e.reset swap).st = .running := by
  unfold Entry.reset
  split
  case h_1 => exact .inl rfl
  case h_2 hst =>
    split
    · exact .inl rfl
    · exact .inr hst
  case h_3 hst => exact .inl (by simp [Entry.isDone, hst])

theorem Entry.reset_held (swap : Bool) {e : Entry} (hst : e.st = .held) :
    e.reset swap = ⟨e.raw, .done ⟨.aborted, e.raw.d.handle, 0, [], 0⟩, e.stamp⟩ := by
  simp [Entry.reset, hst]

/-- A ring whose RESET begins: `swap` says whether it waits on a bank swap. -/
def Ring.resetting (swap : Bool) (r : Ring) : Ring :=
  { r with
    state := .resetting
    q := r.q.map (Entry.reset swap) ++ List.replicate (r.u - r.f).toNat (unreadEntry .aborted) }

theorem Ring.resetting_ended {swap : Bool} {r : Ring} {e : Entry} (he : e ∈ (r.resetting swap).q) :
    e.isDone = true ∨ e.st = .running := by
  rcases List.mem_append.mp he with hold | hunread
  · obtain ⟨e', -, rfl⟩ := List.mem_map.mp hold
    exact e'.reset_ended swap
  · rw [List.eq_of_mem_replicate hunread]
    exact .inl rfl

theorem Ring.resetting_held (swap : Bool) {r : Ring} {e : Entry} (he : e ∈ r.q) (hst : e.st = .held) :
    (⟨e.raw, .done ⟨.aborted, e.raw.d.handle, 0, [], 0⟩, e.stamp⟩ : Entry) ∈ (r.resetting swap).q :=
  List.mem_append_left _ (List.mem_map.mpr ⟨e, he, Entry.reset_held swap hst⟩)

/-- With no descriptor left a RESET ends at once, in DISABLED. -/
theorem Ring.resetting_settle_empty (swap : Bool) {r : Ring} (hq : r.q = []) (hu : r.u = r.f) :
    (r.resetting swap).settle = (r.resetting swap).disable := by
  simp [Ring.settle, Ring.resetting, hq, hu]

/-- With descriptors left the ring stays RESETTING. -/
theorem Ring.resetting_settle_nonempty (swap : Bool) {r : Ring} (hq : r.q ≠ []) :
    (r.resetting swap).settle = r.resetting swap := by
  simp [Ring.settle, Ring.resetting, hq]

theorem ringReset_idle {n : Nat} {d : Dev} (hstate : (d.host.ring n).state = .disabled ∨ (d.host.ring n).state = .resetting) :
    ringReset n d = d := by
  simp [ringReset, hstate]

theorem ringReset_frame (n : Nat) (d : Dev) : ringReset n d = { d with
    host := (ringReset n d).host, slots := (ringReset n d).slots, waits := (ringReset n d).waits, net := (ringReset n d).net } := by
  unfold ringReset
  split <;> rfl

section
variable {n : Nat} {d : Dev} (hdis : (d.host.ring n).state ≠ .disabled) (hres : (d.host.ring n).state ≠ .resetting)
include hdis hres

theorem ringReset_host :
    (ringReset n d).host = (d.host.modRing n fun r => (r.resetting (d.ringWaitsSwap n)).settle).notePeak := by
  simp [ringReset, hdis, hres, Ring.resetting]

theorem ringReset_ring_self :
    (ringReset n d).host.ring n = ((d.host.ring n).resetting (d.ringWaitsSwap n)).settle := by
  rw [ringReset_host hdis hres, notePeak_ring, ring_modRing_self]

theorem ringReset_ring_ne {m : Nat} (hm : m ≠ n) : (ringReset n d).host.ring m = d.host.ring m := by
  rw [ringReset_host hdis hres, notePeak_ring, ring_modRing_ne _ _ hm]

end

/-! ### Doorbells of a PAUSED ring (R55, R56, R64) -/

@[simp] theorem Ring.submit_state (r : Ring) (t : BitVec 16) : (r.submit t).state = r.state := rfl

section
variable {d : Dev} {n : Nat} (hpaused : (d.host.ring n).state = .paused)
include hpaused

theorem submitDoorbell_paused_ring {value : Word}
    (hroom : ((value.setWidth 16 : BitVec 16) - (d.host.ring n).f).toNat ≤ (d.host.ring n).n) :
    (submitDoorbell n value d).host.ring n = (d.host.ring n).submit (value.setWidth 16) := by
  have hnew (t : BitVec 16) : ((d.host.ring n).submit t).fenceNew = (d.host.ring n).submit t := if_neg (by simp [hpaused])
  simp only [submitDoorbell, hpaused, reduceCtorEq, or_self, if_false, if_neg (Nat.not_lt.mpr hroom), Dev.tally_host,
    notePeak_ring, ring_modRing_self, hnew]

theorem consumeDoorbell_paused_ring (value : Word) :
    (consumeDoorbell n value d).host.ring n = { d.host.ring n with h := value.setWidth 16 } := by
  simp [consumeDoorbell, hpaused]

end

/-! ### The rows -/

section
variable {s : State} {n : Nat} (hn : n < 128) (hlink : s.dev.host.link = .ready)
include hn hlink

/-- RING_RESET of a ring that is neither DISABLED nor RESETTING. -/
theorem ringReset_begins (hdis : (s.dev.host.ring n).state ≠ .disabled) (hres : (s.dev.host.ring n).state ≠ .resetting) :
    ∃ d, Answers (.ringReset n) s d ∧ d = { s.dev with host := d.host, slots := d.slots, waits := d.waits, net := d.net } ∧
      (∀ m, m ≠ n → d.host.ring m = s.dev.host.ring m) ∧
      let r := s.dev.host.ring n
      let r' := d.host.ring n
      (r.q = [] → r.u = r.f → r'.state = .disabled ∧ r'.en = false ∧ r'.t = 0 ∧ r'.f = 0 ∧ r'.c = 0 ∧ r'.h = 0) ∧
      (r.q ≠ [] → r'.state = .resetting ∧ r'.c = r.c ∧ r'.h = r.h ∧
        (∀ e ∈ r'.q, e.isDone = true ∨ e.st = .running) ∧
        (∀ e ∈ r.q, e.st = .held → (⟨e.raw, .done ⟨.aborted, e.raw.d.handle, 0, [], 0⟩, e.stamp⟩ : Entry) ∈ r'.q)) := by
  refine ⟨_, answers_of_onHostAt rfl hn hlink, ringReset_frame n s.dev, fun _ => ringReset_ring_ne hdis hres, ?_⟩
  rw [ringReset_ring_self hdis hres]
  refine ⟨fun hq hu => ?empty, fun hq => ?nonempty⟩
  case empty =>
    rw [Ring.resetting_settle_empty _ hq hu]
    exact ⟨rfl, rfl, rfl, rfl, rfl, rfl⟩
  case nonempty =>
    rw [Ring.resetting_settle_nonempty _ hq]
    exact ⟨rfl, rfl, rfl, fun _ => Ring.resetting_ended, fun _ => Ring.resetting_held _⟩

end

/-- Settles O10: each clause is its row's effect on the ring, by the state that the ring is found in. -/
theorem ringStates : Obligations.RingStates := by
  unfold Obligations.RingStates
  refine ⟨fun s n hn hlink => ?enable, fun s n hn hlink => ?pause, fun s n hn hlink => ringReset_begins hn hlink,
    fun s n hn hlink hstate => ?idle, fun s n v hn hlink hpaused => ?doorbells⟩
  case enable =>
    refine ⟨_, answers_of_onHostAt rfl hn hlink, rfl, fun m hm => ring_modRing_ne _ _ hm, ?_⟩
    simp only [ring_modRing_self, Ring.enable_en, true_and]
    refine ⟨fun hstate hvalid => ?_, fun hstate hvalid => ?_, Ring.enable_paused, Ring.enable_elsewhere⟩
    · rw [Ring.enable_valid hstate hvalid]
      exact ⟨rfl, rfl, rfl, rfl, rfl⟩
    · rw [Ring.enable_invalid hstate hvalid]
      exact ⟨hstate, rfl⟩
  case pause =>
    refine ⟨_, answers_of_onHostAt rfl hn hlink, rfl, fun m hm => ring_modRing_ne _ _ hm, ?_⟩
    simp only [ring_modRing_self]
    exact ⟨Ring.pause_active, Ring.pause_elsewhere⟩
  case idle =>
    have hanswer := answers_of_onHostAt (c := .ringReset n) (f := fun _ d => ringReset n d) rfl hn hlink
    rwa [ringReset_idle hstate] at hanswer
  case doorbells =>
    refine ⟨fun hroom => ⟨_, answers_of_onHostAt rfl hn hlink, ?submit⟩, _, answers_of_onHostAt rfl hn hlink, ?consume⟩
    case submit =>
      rw [submitDoorbell_paused_ring hpaused hroom]
      exact ⟨rfl, hpaused, rfl⟩
    case consume =>
      rw [consumeDoorbell_paused_ring hpaused]
      exact ⟨rfl, hpaused⟩

end Sys2Proof.Machine
end

/-! ## CREATE -/

section
/-! PROOF. A check before admission never refuses with OK; what an admitted block makes of its slot; what CREATE replies, branch by
branch; from these, the statement about CREATE. -/

namespace Sys2Proof.Machine

/-! ### A refusal's status is not OK (R549) -/

/-- A check that, where it refuses, refuses with a status other than OK. -/
def Check.NeverOk (c : Check) : Prop := ∀ st r, c = .fail st r → st ≠ .ok

theorem Check.pass_neverOk : Check.pass.NeverOk := by rintro _ _ ⟨⟩

theorem Check.fail_neverOk {st : Status} {r : BitVec 64} (h : st ≠ .ok) : (Check.fail st r).NeverOk := by
  rintro _ _ ⟨⟩
  exact h

@[simp] theorem Check.range_neverOk (ok : Bool) : (Check.range ok).NeverOk := by
  cases ok
  · exact Check.fail_neverOk (by decide)
  · exact Check.pass_neverOk

@[simp] theorem Check.conflict_neverOk (holder : Option Word) : (Check.conflict holder).NeverOk := by
  cases holder
  · exact Check.pass_neverOk
  · exact Check.fail_neverOk (by decide)

@[simp] theorem Check.first_neverOk {cs : List Check} (h : ∀ c ∈ cs, c.NeverOk) : (Check.first cs).NeverOk := by
  induction cs with
  | nil => exact Check.pass_neverOk
  | cons c cs ih =>
    obtain ⟨hc, hcs⟩ := List.forall_mem_cons.mp h
    cases c with
    | pass => exact ih hcs
    | fail => exact hc

@[simp] theorem srcBaseRange_neverOk (d : Dev) (ws : List Word) : (srcBaseRange d ws).NeverOk := by
  simp [srcBaseRange]

@[simp] theorem srcConflicts_neverOk (d : Dev) (ws : List Word) : (srcConflicts d ws).NeverOk := by
  refine Check.first_neverOk fun c hc => ?_
  rcases List.mem_append.mp hc with hmember | hbank
  · obtain ⟨x, -, rfl⟩ := List.mem_map.mp hmember
    exact Check.conflict_neverOk _
  · rw [List.mem_singleton.mp hbank]
    exact Check.conflict_neverOk _

@[simp] theorem strmConflicts_neverOk (d : Dev) (n : Nat) (ws : List Word) : (strmConflicts d n ws).NeverOk := by
  unfold strmConflicts
  split
  · split
    · split
      · exact Check.pass_neverOk
      · exact Check.conflict_neverOk _
    · exact Check.pass_neverOk
  · exact Check.pass_neverOk

/-- Every check of a block is RANGE or STATE, or a list of them. -/
theorem blockCheck_neverOk (d : Dev) (t i schema bytes : Nat) (ws : List Word) : (blockCheck d t i schema bytes ws).NeverOk := by
  unfold blockCheck
  split
  case h_1 => simp [loopRange]
  case h_2 => simp [railRange, railConflicts]
  case h_3 => simp [feedRange, feedConflicts]
  case h_4 => simp [branchRange, branchConflicts]
  case h_5 => simp [sourceRange, sourceConflicts]
  case h_6 => simp [seqRange, seqConflicts, firstHolder]
  case h_7 => exact Check.range_neverOk _
  case h_8 => simp [battRange]
  case h_9 => simp [sensRange]
  case h_10 => simp [strmRange]
  case h_11 => simp [witRange]

/-! ### The lowest free index, and an admitted block -/

theorem freeIndex_eq_some {d : Dev} {t i : Nat} (h : d.freeIndex t = some i) :
    i < typeLimit t ∧ (d.slot t i).isLive = false ∧ ∀ j, j < i → (d.slot t j).isLive = true := by
  obtain ⟨hfree, hmem, hbelow⟩ := List.find?_range_eq_some.mp h
  exact ⟨List.mem_range.mp hmem, by simpa using hfree, fun j hj => by simpa using hbelow j hj⟩

theorem laneSync_slots (d : Dev) : (laneSync d).slots = d.slots := by
  unfold laneSync
  refine List.foldlRecOn (motive := fun e : Dev => e.slots = d.slots) lanes _ rfl fun e he l _ => ?_
  dsimp only
  (repeat' split) <;> exact he

theorem laneSync_slot (d : Dev) (t i : Nat) : (laneSync d).slot t i = d.slot t i := by
  rw [Dev.slot, laneSync_slots, Dev.slot]

section
variable {base e : Dev} {t i schema bytes : Nat} {ws : List Word}

theorem admitBlock_version (h : schemaOk t schema = false) :
    admitBlock base t i schema bytes ws = (.fail .version 0, base) := by
  simp [admitBlock, h]

/-- An admitted block configures its slot. -/
theorem admitBlock_pass_slot (h : admitBlock base t i schema bytes ws = (.pass, e)) :
    ∃ sl : Slot, e.slot t i = sl.configured t schema ws := by
  unfold admitBlock at h
  split at h
  · cases (Prod.mk.inj h).1
  · split at h
    · cases (Prod.mk.inj h).1
    · dsimp only at h
      generalize admission _ _ _ = admitted at h
      obtain ⟨-, rfl⟩ := Prod.mk.inj h
      exact ⟨admitted.2.slot t i, by rw [laneSync_slot, slot_modSlot_self]⟩

end

/-! ### CREATE at an index -/

section
variable {d : Dev} {x : Desc} {t i : Nat} {bytes : List Byte} {ws : List Word}

/-- The device with the slot free: what a Hearth reset left in it has gone. -/
abbrev slotFreed (d : Dev) (t i : Nat) : Dev := if (d.slot t i).ghost then dropSlot d t i else d

theorem createAt_refused {st : Status} {res : BitVec 64} {e : Dev} (hws : blockWordsOf t bytes = some ws)
    (hadmit : admitBlock (slotFreed d t i) t i (parN x 3) bytes.length ws = (.fail st res, e)) :
    createAt d x t i bytes = d.ends x st res.toNat := by
  simp only [createAt, hws, hadmit]

theorem createAt_admitted {e : Dev} (hws : blockWordsOf t bytes = some ws)
    (hadmit : admitBlock (slotFreed d t i) t i (parN x 3) bytes.length ws = (.pass, e)) :
    createAt d x t i bytes = created e t i ws := by
  simp only [createAt, hws, hadmit]

end

/-! ### What CREATE replies -/

/-- The indices at which a CREATE may make its object: the one that it binds, while not live, else the lowest that is free. -/
def Dev.createsAt (d : Dev) (x : Desc) (i : Nat) : Prop :=
  (indexBound x (hType x.handle) = true ∧ i = hIndex x.handle ∧ i < typeLimit (hType x.handle) ∧
      (d.slot (hType x.handle) i).isLive = false) ∨
    (indexBound x (hType x.handle) = false ∧ d.freeIndex (hType x.handle) = some i)

theorem opCreate_noType {d : Dev} {x : Desc} (htype : typeLimit (hType x.handle) = 0) :
    opCreate d x = d.ends x .badHandle 0 := by
  simp [opCreate, htype]

section
variable {d : Dev} {x : Desc} (htype : typeLimit (hType x.handle) ≠ 0)
include htype

theorem opCreate_badIndex (hbound : indexBound x (hType x.handle) = true) (hidx : typeLimit (hType x.handle) ≤ hIndex x.handle) :
    opCreate d x = d.ends x .badHandle 0 := by
  simp [opCreate, htype, hbound, hidx]

theorem opCreate_live (hbound : indexBound x (hType x.handle) = true) (hidx : hIndex x.handle < typeLimit (hType x.handle))
    (hlive : (namedSlot d x).isLive = true) :
    opCreate d x = d.ends x .state (d.handleOf (hType x.handle) (hIndex x.handle)).toNat := by
  simp [opCreate, htype, hbound, Nat.not_le.mpr hidx, hlive]

theorem opCreate_noSource
    (hidx : indexBound x (hType x.handle) = false ∨
      hIndex x.handle < typeLimit (hType x.handle) ∧ (namedSlot d x).isLive = false)
    (hsrc : sourceBytes x 0 (parN x 2) = none) :
    opCreate d x = d.ends x (if schemaOk (hType x.handle) (parN x 3) then .range else .version) 0 := by
  rcases hidx with hbound | ⟨hidx, hfree⟩
  · simp [opCreate, htype, hbound, hsrc]
  · simp [opCreate, htype, Nat.not_le.mpr hidx, hfree, hsrc]

theorem opCreate_at {i : Nat} {bytes : List Byte} (hi : d.createsAt x i) (hsrc : sourceBytes x 0 (parN x 2) = some bytes) :
    opCreate d x = createAt d x (hType x.handle) i bytes := by
  rcases hi with ⟨hbound, rfl, hidx, hfree⟩ | ⟨hbound, hfree⟩
  · simp [opCreate, htype, hbound, Nat.not_le.mpr hidx, hfree, hsrc]
  · simp [opCreate, htype, hbound, hfree, hsrc]

/-- With no free index a CREATE is refused: by its block's checks, or by check 1 where the block passes them (R549). -/
theorem opCreate_full (hbound : indexBound x (hType x.handle) = false) (hfull : d.freeIndex (hType x.handle) = none) :
    ∃ st res, st ≠ .ok ∧ opCreate d x = d.ends x st res := by
  have hsource : (if schemaOk (hType x.handle) (parN x 3) then Status.range else .version) ≠ .ok := by split <;> decide
  cases hsrc : sourceBytes x 0 (parN x 2) with
  | none => exact ⟨_, _, hsource, opCreate_noSource htype (.inl hbound) hsrc⟩
  | some bytes =>
    simp only [opCreate, htype, hbound, hsrc, hfull, Bool.false_and, Bool.false_eq_true, if_false]
    cases hws : blockWordsOf (hType x.handle) bytes with
    | none => exact ⟨_, _, hsource, rfl⟩
    | some ws =>
      dsimp only
      split
      · exact ⟨_, _, by decide, rfl⟩
      · split
        case h_1 hcheck => exact ⟨_, _, blockCheck_neverOk _ _ _ _ _ _ _ _ hcheck, rfl⟩
        case h_2 => exact ⟨_, _, by decide, rfl⟩

end

/-! ### The row -/

section
variable {d : Dev} {x : Desc} {s : State} {k i : Nat} {bytes : List Byte} {ws : List Word} (h : Runs 0x0101 x s d k)
  (htype : typeLimit (hType x.handle) ≠ 0) (hsrc : sourceBytes x 0 (parN x 2) = some bytes)
  (hws : blockWordsOf (hType x.handle) bytes = some ws) (hi : d.createsAt x i)
include h htype hsrc hws hi

theorem create_refused {st : Status} {res : BitVec 64} {e : Dev}
    (hadmit : admitBlock (slotFreed d (hType x.handle) i) (hType x.handle) i (parN x 3) bytes.length ws = (.fail st res, e)) :
    Completes (.create x) s x k st res.toNat d :=
  completes_of_ends rfl h ((opCreate_at htype hi hsrc).trans (createAt_refused hws hadmit))

theorem create_version (hschema : schemaOk (hType x.handle) (parN x 3) = false) : Completes (.create x) s x k .version 0 d :=
  create_refused (res := 0) h htype hsrc hws hi (admitBlock_version hschema)

theorem create_created {e : Dev}
    (hadmit : admitBlock (slotFreed d (hType x.handle) i) (hType x.handle) i (parN x 3) bytes.length ws = (.pass, e)) :
    let e' := ledNote (objLoad (clearHandlePoison (hType x.handle) i e) (hType x.handle) i ws)
    Answers (.create x) s (completed x k
      (plainCpl .ok (e'.handleOf (hType x.handle) i) (e'.handleOf (hType x.handle) i).toNat) e') :=
  answers_of_runs rfl h ((opCreate_at htype hi hsrc).trans (createAt_admitted hws hadmit))

end

/-- Settles O34: each clause is the row's answer, from what CREATE replies in that branch. -/
theorem createHandles : Obligations.CreateHandles := by
  unfold Obligations.CreateHandles
  intro x s d k h
  refine ⟨fun htype => completes_of_ends rfl h (opCreate_noType htype),
    fun htype hbound hidx => completes_of_ends rfl h (opCreate_badIndex htype hbound hidx),
    fun htype hbound hidx hlive => completes_of_ends rfl h (opCreate_live htype hbound hidx hlive),
    fun _ => freeIndex_eq_some,
    fun htype hbound hfull => ?full,
    fun htype hidx hsrc => completes_of_ends rfl h (opCreate_noSource htype hidx hsrc),
    fun i bytes ws htype hsrc hws hi => ⟨fun _ _ _ => create_refused h htype hsrc hws hi,
      create_version h htype hsrc hws hi, fun e hadmit => ?created⟩⟩
  case full =>
    obtain ⟨st, res, hst, hends⟩ := opCreate_full htype hbound hfull
    exact ⟨st, res, hst, completes_of_ends rfl h hends⟩
  case created =>
    obtain ⟨sl, hslot⟩ := admitBlock_pass_slot hadmit
    rw [hslot]
    exact ⟨create_created h htype hsrc hws hi hadmit, rfl, rfl, rfl, rfl, rfl, rfl, rfl, rfl⟩

end Sys2Proof.Machine
end

/-! ## The lock of the setup registers -/

section
/-! PROOF. What SYS_LOCK and a register write make of the setup registers; that a locked setup outlives every command but the two
resets; and that a command whose effect does not look at the setup registers has that effect under any of them (R520). -/

namespace Sys2Proof.Machine

/-! ### SYS_LOCK and register writes -/

theorem bit_eq_getLsbD (w : Word) (i : Nat) : bit w i = w.getLsbD i := by
  simp only [bit, bits, bitsN, BitVec.getLsbD, Nat.testBit_eq_decide_div_mod_eq, pow_one, Bool.beq_eq_decide_eq]

theorem sysLock_sets {s : State} {v : Word} (hlink : s.dev.host.link = .ready) (hv : v.getLsbD 0 = true) :
    exec (.sysLock v) s = .next { s with setup := { s.setup with lock := true } } :=
  if_pos ⟨hlink, (bit_eq_getLsbD v 0).trans hv⟩

theorem sysLock_locked {s : State} (v : Word) (hlock : s.setup.lock = true) : exec (.sysLock v) s = .next s := by
  have hset : { s with setup := { s.setup with lock := true } } = s := by rw [← hlock]
  simp only [exec, execSysLock, hset, ite_self]

theorem setupWrite_locked {su : Setup} (o : Nat) (v : Word) (hlock : su.lock = true) : setupWrite su o v = su := if_pos hlock

/-- The device after a register write, which depends on the device alone (R50). -/
def Dev.registerWritten (o : Nat) (v : BitVec 64) (wide : Bool) (d : Dev) : Dev :=
  if d.host.link ≠ .ready ∨ o % (if wide then 8 else 4) ≠ 0 then d
  else if wide then bar0WriteWide o v d
  else bar0Write o (v.setWidth 32) d

/-- A register write answers with its effect on the device, and the setup registers take it or are not reached. -/
theorem exec_registerWrite (o : Nat) (v : BitVec 64) (wide : Bool) (s : State) :
    ∃ su, (su = s.setup ∨ su = setupWrite s.setup o (v.setWidth 32)) ∧
      exec (.registerWrite o v wide) s = .next { s with setup := su, dev := s.dev.registerWritten o v wide } := by
  unfold Dev.registerWritten
  by_cases hskip : s.dev.host.link ≠ .ready ∨ o % (if wide then 8 else 4) ≠ 0
  · rw [if_pos hskip]
    exact ⟨s.setup, .inl rfl, if_pos hskip⟩
  · rw [if_neg hskip]
    cases wide with
    | true => exact ⟨s.setup, .inl rfl, if_neg hskip⟩
    | false => exact ⟨setupWrite s.setup o (v.setWidth 32), .inr rfl, if_neg hskip⟩

/-! ### A locked setup holds -/

theorem Settled.setup_eq {s t : State} (h : Settled s (.next t)) : t.setup = s.setup := by
  obtain ⟨d, hd⟩ | hfault := h
  · cases hd
    rfl
  · cases hfault

theorem exec_setup_locked {c : Instr} {s t : State} (hlock : s.setup.lock = true) (hreset : ∀ v, c ≠ .deviceReset v)
    (hpor : c ≠ .fireboxPor) (h : exec c s = .next t) : t.setup = s.setup := by
  cases hc : c.changesSetup with
  | false => exact Settled.setup_eq (h ▸ exec_settled c s hc)
  | true =>
    obtain ⟨v, rfl⟩ | ⟨o, v, wide, rfl⟩ | ⟨v, rfl⟩ | rfl := changesSetup_cases c hc
    · cases (sysLock_locked v hlock).symm.trans h
      rfl
    · obtain ⟨su, hsu, hexec⟩ := exec_registerWrite o v wide s
      rw [setupWrite_locked o _ hlock, or_self] at hsu
      cases hexec.symm.trans h
      exact hsu
    · exact absurd rfl (hreset v)
    · exact absurd rfl hpor

/-- A step idles, or executes the command at the front of the queue. -/
theorem step_cases {s t : State} (h : step s = .next t) :
    t = s ∨ ∃ c rest, s.pending = c :: rest ∧ exec c { s with pending := rest } = .next t := by
  unfold step at h
  split at h
  case h_1 =>
    cases h
    exact .inl rfl
  case h_2 c rest hpending => exact .inr ⟨c, rest, hpending, h⟩

theorem step_setup_locked {s t : State} (hlock : s.setup.lock = true)
    (hreset : ∀ v, s.pending.head? ≠ some (.deviceReset v)) (hpor : s.pending.head? ≠ some .fireboxPor)
    (h : step s = .next t) : t.setup = s.setup := by
  obtain rfl | ⟨c, rest, hpending, hexec⟩ := step_cases h
  · rfl
  · simp only [hpending, List.head?_cons, ne_eq, Option.some.injEq] at hreset hpor
    exact exec_setup_locked (s := { s with pending := rest }) hlock hreset hpor hexec

/-! ### Registers that are never locked -/

/-- A command completes with the same effect whatever the setup registers hold, and leaves them. -/
def IgnoresSetup (c : Instr) : Prop :=
  ∀ (s t : State) (u : Setup), exec c s = .next t → exec c { s with setup := u } = .next { t with setup := u }

theorem IgnoresSetup.onHost {c : Instr} {g : Dev → Dev} (hc : ∀ s, exec c s = s.onHost fun _ d => g d) : IgnoresSetup c := by
  intro s t u h
  rw [hc] at h ⊢
  by_cases hlink : s.dev.host.link = .ready
  · rw [onHost_ready s _ hlink] at h
    cases h
    exact onHost_ready { s with setup := u } _ hlink
  · rw [onHost_notReady s _ hlink] at h
    cases h
    exact onHost_notReady { s with setup := u } _ hlink

theorem IgnoresSetup.onHostAt {c : Instr} {lim n : Nat} {g : Dev → Dev}
    (hc : ∀ s, exec c s = s.onHostAt lim n fun _ d => g d) : IgnoresSetup c := by
  by_cases hn : n < lim
  · exact IgnoresSetup.onHost fun s => (hc s).trans (if_pos hn)
  · intro s t u h
    rw [hc, onHostAt_ge _ _ hn] at h
    cases h

/-- The ring, interrupt, calibration, Tally fallback and tagging registers. -/
theorem unlockedRegisters_ignoreSetup (n : Nat) (v : Word) (f : Bool) :
    ∀ c ∈ [Instr.ringEnable n, .ringPause n, .ringReset n, .hostDbSq n v, .hostDbCq n v, .acqCalStart v, .acqCalStatusWrite v,
      .tallyFbClear n, .tallyFbFreeze n f, .tallyTagClear], IgnoresSetup c := by
  simp only [List.forall_mem_cons, List.not_mem_nil, false_imp_iff, implies_true, and_true]
  exact ⟨.onHostAt fun _ => rfl, .onHostAt fun _ => rfl, .onHostAt fun _ => rfl, .onHostAt fun _ => rfl, .onHostAt fun _ => rfl,
    .onHost fun _ => rfl, .onHost fun _ => rfl, .onHostAt fun _ => rfl, .onHostAt fun _ => rfl, .onHost fun _ => rfl⟩

/-- Settles O6: a locked setup outlives each of the four commands of set-up but the resets; the other clauses are the effect of
SYS_LOCK and of commands that do not look at the setup registers. -/
theorem lockedSetupHolds : Obligations.LockedSetupHolds := by
  unfold Obligations.LockedSetupHolds
  refine ⟨fun _ _ => sysLock_sets, fun _ _ => step_setup_locked, fun s t u o v wide h => ?registerWrite,
    fun s t u n v f c hc => unlockedRegisters_ignoreSetup n v f c hc s t u⟩
  case registerWrite =>
    obtain ⟨_, -, hexec⟩ := exec_registerWrite o v wide s
    obtain ⟨_, -, hexec'⟩ := exec_registerWrite o v wide { s with setup := u }
    cases hexec.symm.trans h
    exact ⟨_, hexec', rfl⟩

end Sys2Proof.Machine
end

/-! ## The queue and the setup registers -/

section
/-! PROOF. A well-formed command names a unit that exists, so it does not stop the block; a command completes or faults, and
neither touches the queue; what SYS_LOCK, a register write and the resets make of the setup registers. -/

namespace Sys2Proof.Machine

/-! ### A meaning that does not fault -/

section
variable {s : State} {lim n : Nat} {f : Setup → Dev → Dev}

theorem onHost_ne_fault (s : State) (f : Setup → Dev → Dev) : s.onHost f ≠ .fault .noSuchInstance := by
  unfold State.onHost
  split <;> nofun

theorem onDevAt_ne_fault (h : decide (n < lim) = true) : s.onDevAt lim n f ≠ .fault .noSuchInstance := by
  rw [onDevAt_lt s f (of_decide_eq_true h)]
  nofun

theorem onHostAt_ne_fault (h : decide (n < lim) = true) : s.onHostAt lim n f ≠ .fault .noSuchInstance := by
  rw [State.onHostAt, if_pos (of_decide_eq_true h)]
  exact onHost_ne_fault s f

theorem onDesc_ne_fault {op : Nat} {x : Desc} {g : OpFn} (h : x.wf = true) : s.onDesc op x g ≠ .fault .noSuchInstance := by
  obtain ⟨d, hd⟩ := onDesc_completes op x g s (Bool.and_eq_true_iff.mp h).1
  rw [hd]
  nofun

end

/-- Each command's unit numbers are bounded by what makes it well-formed. -/
theorem exec_ne_fault {c : Instr} (s : State) (h : c.wf = true) : exec c s ≠ .fault .noSuchInstance := by
  cases c with
  | create | destroy | configure | bankWrite | bankSwap | bankRead | bankCopy | enable | disable | setPoint | setProfile | setRound
  | clear | recover | queryState | queryRead | eventWait | queryResources | queryHandles | streamStart | streamBuf | streamStop
  | imgSherd | imgStatus | imgActivate | imgRollback | nop | fence | warmStart | kilnRead | debugUnlock =>
    exact onDesc_ne_fault h
  | sysLock => simp only [exec, execSysLock]; split <;> nofun
  | registerWrite => simp only [exec, execRegisterWrite]; (repeat' split) <;> nofun
  | deviceReset => simp only [exec, execDeviceReset]; split <;> nofun
  | tallyFbCntRead set counter =>
    obtain ⟨hset, hcounter⟩ := Bool.and_eq_true_iff.mp h
    rw [exec, execTallyFbCntRead, if_pos (of_decide_eq_true hcounter)]
    exact onHostAt_ne_fault hset
  | coneTrip sensor cone =>
    obtain ⟨hsensor, hcone⟩ := Bool.and_eq_true_iff.mp h
    rw [exec, execConeTrip, if_pos (of_decide_eq_true hcone)]
    exact onDevAt_ne_fault hsensor
  | acqCalStart | wheelTurnLoRead | tallyTagClear | hostAuditRead | hostInflightRead | wheelCountRead | acqCalStatusWrite
  | sysClkRead | sysClkWrite | sysRstRead | sysRstWrite | bar4Write =>
    exact onHost_ne_fault _ _
  | hostDbSq | hostDbCq | ringEnable | ringPause | ringReset | tallyFbCycLoRead | tallyFbClear | tallyFbFreeze | acqFsCountRead =>
    exact onHostAt_ne_fault h
  | linkTrainingDone | configSpaceReady | hostInterfaceReset | mainsEdge | wheelMissedEdge | turnBoundary | mgmtHeartbeat
  | mgmtWatchdogTimeout | mgmtWdColdStart | ledgerClose | ledgUnmetered | estimatorStep | tallyGather | scrub | sramLineRead
  | loopStarved | throwMemError | svScanStart | svConversionDone | tdConversionDone | calDone | flueKeepalive | flueTakeover
  | flueTakeoverReport | fireboxSilence | vdrvUv | holdupRelease | holdupChargeEnd | holdupBleedStart | holdupBleedGate
  | holdupBleedEnd | faultnLow | faultnHigh | sitterRelease | blackBoxTrigger | blackBoxCommitDone | blackBoxRearm
  | sherdWriteDone | handoverCopyDone | handoverHoldCommands | handoverBoundary | newImageStart | fireboxImageSwitch
  | fireboxSelfRevert | imageConfirmed | failedBoot | safeHold | fireboxPorRelease | fireboxPor | fireboxRailsGood
  | supervisorChecked | hkSuppliesGood | hkStartFail | hkRetry | bootRomInitDone | mgmtReady | hearthSupplyFault | refClockLoss
  | refClockRestore | mboxCommand | mboxReread | mboxDiscard | mboxFrameError | mboxRead | alertResponseRead | attentionPulse
  | twoWireTimeout | twoWireAbort | busStuckClear | arbitrationLost | moduleDiscovery | modulePollCycle | moduleWrite
  | coapPostCmd | coapPutImg | vdrvUvRelease | pcieLinkDown | attentionPulseCollision | jtagInstructionLoad =>
    nofun
  | descriptorFetchDone | fsConversionDone | urgentTrigger | pdOutput | railOcp | phaseFailure | srcQualified | srcLoss
  | srcBlockingConfirmed | srcWindowLoss | seqMemberFault =>
    exact onDevAt_ne_fault (Bool.and_eq_true_iff.mp h).1
  | coneConfirm => exact onDevAt_ne_fault (Bool.and_eq_true_iff.mp h).1
  | completionPost | irqCoalesceTimeout | battUnanchored | impedanceWindowClose | bankRebuild | sampleTrigger | injectedStart
  | loopDispatch | loopFerr | pdWindowCrossing | sensorPeriod | calFamilyDone | flueCrcFail | unitWatchdog | carrierStart
  | sheddingEnd | shedHoldEnd | bootstrapUv | surgeDetect | firingEnd | railPgConfirm | railStartTimeout | railOffReached
  | railStopLate | railOv | railUvTime | feedPrechargeDone | feedPrechargeTimeout | feedPgConfirm | feedPgLoss | feedGateTimeout
  | feedShort | feedFaultTimer | feedBackstop | feedPowerLimit | feedOvReverse | feedFaultRecord | feedBleedStart | feedBleedEnd
  | feedResLate | feedRetryDelay | feedRetryClear | feedBackfeed | branchEnergyTrip | branchHardTrip | branchOnsetReset
  | branchRampTimeout | branchOpeningEnd | branchHealthWindow | srcConductionConfirmed | srcStuck | srcFailed | srcAutoReturn
  | srcNoneTimeout | battCutoff | cutoffRelease | battHibernate | reducedSampling | seqDelayUpEnd | seqDelayDownEnd | seqStepUp
  | seqStepOff | seqRiseTimeout | seqFallTimeout | seqDschWinEnd | seqMinOffEnd | faultnQuiet | sensorBiasFault | slotEraseDone
  | pllUnlock | ethFrameReceived | netLink | dtlsHandshake | dtlsIdleClose | coapGetId | streamEmission | branchPgConfirm
  | branchPgLoss | branchBackstop | branchOvReverse | branchRetryDelay | branchRetryClear | pllRelock | netifLinkTimeout
  | dadComplete | reducedSamplingTurn | dischargeThermalOff =>
    exact onDevAt_ne_fault h

/-! ### What a command answers -/

/-- Every command answers a state with the queue as it is, or faults on a unit number. -/
theorem exec_cases (c : Instr) (s : State) :
    (∃ t, exec c s = .next t ∧ t.pending = s.pending) ∨ exec c s = .fault .noSuchInstance := by
  cases hc : c.changesSetup with
  | false =>
    obtain ⟨d, hd⟩ | hfault := exec_settled c s hc
    · exact .inl ⟨_, hd, rfl⟩
    · exact .inr hfault
  | true =>
    left
    obtain ⟨v, rfl⟩ | ⟨o, v, wide, rfl⟩ | ⟨v, rfl⟩ | rfl := changesSetup_cases c hc
    · simp only [exec, execSysLock]
      split <;> exact ⟨_, rfl, rfl⟩
    · obtain ⟨su, -, hexec⟩ := exec_registerWrite o v wide s
      exact ⟨_, hexec, rfl⟩
    · simp only [exec, execDeviceReset]
      split <;> exact ⟨_, rfl, rfl⟩
    · exact ⟨_, rfl, rfl⟩

theorem exec_completes {c : Instr} (s : State) (h : c.wf = true) : ∃ t, exec c s = .next t ∧ t.pending = s.pending :=
  (exec_cases c s).resolve_right (exec_ne_fault s h)

/-- Settles O1: a step is a match on the queue. -/
theorem stepRunsFrontCommand : Obligations.StepRunsFrontCommand := by
  unfold Obligations.StepRunsFrontCommand
  intro c rest s hpending
  simp only [step, hpending]

/-- Settles O2: a step is a match on the queue. -/
theorem emptyQueueIdles : Obligations.EmptyQueueIdles := by
  unfold Obligations.EmptyQueueIdles
  intro s hpending
  simp only [step, hpending]

/-- Settles O3: every answer keeps the queue, and a well-formed command does not fault. -/
theorem wellFormedCommandsComplete : Obligations.WellFormedCommandsComplete := by
  unfold Obligations.WellFormedCommandsComplete
  exact ⟨fun _ s => exec_completes s, fun c s => (exec_cases c s).imp_left fun ⟨t, ht, _⟩ => ⟨t, ht⟩⟩

/-- Settles O4: an idle step keeps the queue; any other completes its command and leaves the queue's rest. -/
theorem wellFormedQueueNeverStops : Obligations.WellFormedQueueNeverStops := by
  unfold Obligations.WellFormedQueueNeverStops
  intro s hwf
  cases hpending : s.pending with
  | nil => exact ⟨s, emptyQueueIdles s hpending, hwf⟩
  | cons c rest =>
    obtain ⟨hc, hrest⟩ := List.forall_mem_cons.mp (hpending ▸ hwf : ∀ c' ∈ c :: rest, c'.wf = true)
    obtain ⟨t, hexec, ht⟩ := exec_completes { s with pending := rest } hc
    refine ⟨t, (stepRunsFrontCommand c rest s hpending).trans hexec, ?_⟩
    unfold QueueWf
    rwa [ht]

/-- Settles O5: the queue is empty at reset. -/
theorem resetQueueWellFormed : Obligations.ResetQueueWellFormed := by
  unfold Obligations.ResetQueueWellFormed QueueWf
  intro c hc
  exact absurd hc List.not_mem_nil

/-! ### The setup registers -/

/-- Settles O7: every command but those four is a change of the device alone. -/
theorem onlySetupCommandsChangeSetup : Obligations.OnlySetupCommandsChangeSetup := by
  unfold Obligations.OnlySetupCommandsChangeSetup
  intro c s t h hc
  exact Settled.setup_eq (h ▸ exec_settled c s hc)

/-- Settles O24: the commands outside `Instr.changesWheel` leave the Wheel. -/
theorem onlyWheelCommandsChangeWheel : Obligations.OnlyWheelCommandsChangeWheel := by
  unfold Obligations.OnlyWheelCommandsChangeWheel
  intro c s t hc h
  exact exec_wheel_kept hc h

end Sys2Proof.Machine
end

/-! ## SYS_LOCK and the writes of the setup registers -/

section
/-! PROOF. A field of a narrow write is that field of the value; so a write of an RWL register that is not locked puts its fields in
place, and SYS_LOCK sets its key's bit. -/

namespace Sys2Proof.Machine

/-! ### SYS_LOCK, writes of the RWL registers, the resets -/

/-- A field of the 32 bits that a narrow write brings is that field of the value. -/
theorem ofNat_bits_narrow (v : BitVec 64) {lo n : Nat} (h : lo + n ≤ 32) :
    BitVec.ofNat n (bits (v.setWidth 32) lo n) = v.extractLsb' lo n := by
  apply BitVec.eq_of_getLsbD_eq
  intro i hi
  simp only [bits, bitsN, BitVec.getLsbD_ofNat, Nat.testBit_mod_two_pow, Nat.testBit_div_two_pow, BitVec.toNat_setWidth,
    BitVec.getLsbD_extractLsb', hi, decide_true, Bool.true_and, (by omega : i + lo < 32), Nat.add_comm lo i]
  rfl

theorem bit_narrow (v : BitVec 64) {i : Nat} (h : i < 32) : bit (v.setWidth 32) i = v.getLsbD i := by
  rw [bit_eq_getLsbD, BitVec.getLsbD_setWidth, decide_eq_true h, Bool.true_and]

/-- A narrow write of an RWL register, while it is not locked, changes the setup registers alone. -/
theorem registerWrite_setup {s : State} {o : Nat} (v : BitVec 64) (hlink : s.dev.host.link = .ready) (hlock : s.setup.lock = false)
    (ho : o ∈ [0x24, 0x28, 0x40, 0x100]) :
    exec (.registerWrite o v false) s = .next { s with setup := s.setup.write o (v.setWidth 32) } := by
  fin_cases ho <;> simp [exec, execRegisterWrite, setupWrite, bar0Write, hlink, hlock]

theorem sysLock_effect {s : State} (v : Word) (hlink : s.dev.host.link = .ready) :
    exec (.sysLock v) s = .next { s with setup := { s.setup with lock := s.setup.lock || v.getLsbD 0 } } := by
  cases hv : v.getLsbD 0 with
  | true => rw [sysLock_sets hlink hv, Bool.or_true]
  | false => rw [Bool.or_false]; exact if_neg fun h => by rw [bit_eq_getLsbD, hv] at h; cases h.2

/-- Settles O8: each clause is one command's effect. -/
theorem setupCommandsTakeEffect : Obligations.SetupCommandsTakeEffect := by
  unfold Obligations.SetupCommandsTakeEffect
  refine ⟨fun s v => sysLock_effect v, fun s v hlink hlock => ?writes, fun s v hheld => ⟨_, if_neg hheld⟩, fun s => ⟨_, rfl⟩⟩
  case writes =>
    have hwrite {o : Nat} := registerWrite_setup (o := o) v hlink hlock
    refine ⟨(hwrite (by simp)).trans ?_, (hwrite (by simp)).trans ?_, (hwrite (by simp)).trans ?_, (hwrite (by simp)).trans ?_⟩ <;>
      simp [Setup.write, ofNat_bits_narrow, bit_narrow, ← BitVec.setWidth_eq_extractLsb']

end Sys2Proof.Machine
end

/-! ## The doorbells -/

section
/-! PROOF. What a submission makes of the submitted limit, and what each doorbell makes of its ring, by the ring's state. -/

namespace Sys2Proof.Machine

/-! ### The submitted limit (R56) -/

@[simp] theorem Ring.submit_f (r : Ring) (t : BitVec 16) : (r.submit t).f = r.f := rfl

/-- Within the credit window, and not behind what was submitted before, the limit is T itself. -/
theorem Ring.submit_u {r : Ring} {t : BitVec 16} (hroom : (t - r.f).toNat ≤ r.n) (hcredit : (t - r.h).toNat ≤ r.n)
    (hforward : (r.u - r.f).toNat ≤ (t - r.f).toNat) : (r.submit t).u = t := by
  simp only [Ring.submit, if_pos hcredit, hroom, and_true]
  split
  · rfl
  · next hnot =>
    have hsame : r.u - r.f = t - r.f := BitVec.eq_of_toNat_eq (by omega)
    exact sub_left_inj.mp hsame

theorem Ring.fenceNew_of_ne {r : Ring} (h : r.state ≠ .fenced) : r.fenceNew = r := if_neg h

theorem Ring.fenceNew_fenced {r : Ring} (h : r.state = .fenced) :
    r.fenceNew = { r with q := r.q ++ List.replicate (r.u - r.f).toNat (unreadEntry .fenced) } := if_pos h

/-! ### The submission doorbell (R55, R56, R66) -/

section
variable {n : Nat} {v : Word} {d : Dev}

theorem submitDoorbell_dropped (h : (d.host.ring n).state = .disabled ∨ (d.host.ring n).state = .resetting) :
    submitDoorbell n v d = Dev.tally { d.tally 32 5 1 with host := d.host.dropDoorbell } 32 6 1 := if_pos h

/-- A doorbell that no descriptor can stand behind fences its ring. -/
theorem submitDoorbell_over (hdis : (d.host.ring n).state ≠ .disabled) (hres : (d.host.ring n).state ≠ .resetting)
    (hover : (d.host.ring n).n < ((v.setWidth 16 : BitVec 16) - (d.host.ring n).f).toNat) :
    submitDoorbell n v d = (d.tally 32 5 1).fenceRing n 2 := by
  simp only [submitDoorbell, hdis, hres, or_self, if_false, if_pos hover]

theorem submitDoorbell_taken (hdis : (d.host.ring n).state ≠ .disabled) (hres : (d.host.ring n).state ≠ .resetting)
    (hroom : ((v.setWidth 16 : BitVec 16) - (d.host.ring n).f).toNat ≤ (d.host.ring n).n) :
    submitDoorbell n v d = { d.tally 32 5 1 with
      host := (d.host.modRing n fun r => (r.submit (v.setWidth 16)).fenceNew).notePeak } := by
  simp only [submitDoorbell, hdis, hres, or_self, if_false, if_neg (Nat.not_lt.mpr hroom)]
  rfl

theorem fenceRing_fenced (reason : Nat) (h : (d.host.ring n).state = .fenced) : d.fenceRing n reason = d := by
  simp [Dev.fenceRing, h]

/-! ### The completion doorbell -/

theorem consumeDoorbell_dropped (h : (d.host.ring n).state = .disabled) :
    consumeDoorbell n v d = Dev.tally { d with host := d.host.dropDoorbell } 32 6 1 := if_pos h

theorem consumeDoorbell_taken (h : (d.host.ring n).state ≠ .disabled) :
    consumeDoorbell n v d = Dev.tally { d with host := d.host.modRing n fun r => { r with h := v.setWidth 16 } } 32 5 1 := if_neg h

end

/-! ### The rows -/

section
variable {s : State} {n : Nat} {v : Word} (hn : n < 128) (hlink : s.dev.host.link = .ready)
include hn hlink

theorem hostDbSq_answers : Answers (.hostDbSq n v) s (submitDoorbell n v s.dev) :=
  answers_of_onHostAt (f := fun _ d => submitDoorbell n v d) rfl hn hlink

theorem hostDbCq_answers : Answers (.hostDbCq n v) s (consumeDoorbell n v s.dev) :=
  answers_of_onHostAt (f := fun _ d => consumeDoorbell n v d) rfl hn hlink

end

theorem runs_cases {st : RingState} (h : st = .active ∨ st = .paused) : st ≠ .disabled ∧ st ≠ .resetting ∧ st ≠ .fenced := by
  rcases h with rfl | rfl <;> decide

theorem dropDoorbell_eq (h : HostIf) : h.dropDoorbell = { h with droppedDb := min (h.droppedDb + 1) 255 } := rfl

/-- Settles O9: each clause is a doorbell's effect in the ring states that it names. -/
theorem doorbells : Obligations.Doorbells := by
  unfold Obligations.Doorbells
  refine ⟨fun s n v hn hlink hstate => ?dropped, fun s n v hn hlink hstate hroom => ?taken,
    fun s n v hn hlink hstate hover => ?tooFar, fun s n v hn hlink hstate => ⟨fun hroom => ?fenced, fun hover => ?fencedTooFar⟩,
    fun s n v hn hlink hstate => ?cqDropped, fun s n v hn hlink hstate => ?cqTaken⟩
  case dropped =>
    refine ⟨_, hostDbSq_answers hn hlink, ?_⟩
    rw [submitDoorbell_dropped hstate]
    exact ⟨rfl, dropDoorbell_eq _⟩
  case taken =>
    obtain ⟨hdis, hres, hfen⟩ := runs_cases hstate
    refine ⟨_, hostDbSq_answers hn hlink, ?_⟩
    rw [submitDoorbell_taken hdis hres hroom]
    refine ⟨rfl, ?_⟩
    simp only [notePeak_ring, ring_modRing_self]
    rw [Ring.fenceNew_of_ne (by exact hfen)]
    exact ⟨rfl, rfl, rfl, rfl, rfl, fun m hm => ring_modRing_ne _ _ hm, Ring.submit_u hroom⟩
  case tooFar =>
    obtain ⟨hdis, hres, -⟩ := runs_cases hstate
    refine ⟨_, hostDbSq_answers hn hlink, ?_⟩
    rw [submitDoorbell_over hdis hres hover]
    refine ⟨?_, fenceRing_state (s.dev.tally 32 5 1) n 2 hstate⟩
    conv_lhs => rw [fenceRing_frame]
    rfl
  case fenced =>
    refine ⟨_, hostDbSq_answers hn hlink, ?_⟩
    rw [submitDoorbell_taken (by simp [hstate]) (by simp [hstate]) hroom]
    refine ⟨rfl, ?_⟩
    simp only [notePeak_ring, ring_modRing_self]
    rw [Ring.fenceNew_fenced (by exact hstate)]
    refine ⟨rfl, hstate, rfl, rfl, fun m hm => ring_modRing_ne _ _ hm, _, rfl, fun hcredit hforward => ?_⟩
    rw [Ring.submit_u hroom hcredit hforward, Ring.submit_f]
  case fencedTooFar =>
    refine ⟨_, hostDbSq_answers hn hlink, ?_⟩
    rw [submitDoorbell_over (by simp [hstate]) (by simp [hstate]) hover, fenceRing_fenced 2 (by exact hstate)]
    rfl
  case cqDropped =>
    refine ⟨_, hostDbCq_answers hn hlink, ?_⟩
    rw [consumeDoorbell_dropped hstate]
    exact ⟨rfl, dropDoorbell_eq _⟩
  case cqTaken =>
    refine ⟨_, hostDbCq_answers hn hlink, ?_⟩
    rw [consumeDoorbell_taken hstate]
    exact ⟨rfl, ring_modRing_self _ _ _, fun m hm => ring_modRing_ne _ _ hm⟩

end Sys2Proof.Machine
end

/-! ## Descriptors fetched, completions posted -/

section
/-! PROOF. A sweep changes the ring alone, and leaves its entries where every held opcode is in the catalogue; from this, what a read
of descriptors and a posted completion make of the ring. -/

namespace Sys2Proof.Machine

/-! ### The sweep of unknown opcodes (R53, R57, R76) -/

/-- Every held entry carries an opcode of the catalogue. -/
def AllKnown (es : List Entry) : Prop := ∀ e ∈ es, e.st = .held → catalogue.contains e.raw.op = true

theorem sweepEntries_known (all : Bool) {es : List Entry} (h : AllKnown es) : sweepEntries all es = es := by
  induction es with
  | nil => rfl
  | cons e es ih =>
    obtain ⟨he, hes⟩ := List.forall_mem_cons.mp h
    have hknown : (e.st == .held && !catalogue.contains e.raw.op) = false := by
      by_cases hst : e.st = .held
      · rw [he hst, Bool.not_true, Bool.and_false]
      · simp [hst]
    simp only [sweepEntries, ih hes, hknown, ite_self, Bool.false_eq_true, if_false]

theorem sweepEntries_done (all : Bool) {e : Entry} {es : List Entry} (he : e.isDone = true) (h : AllKnown es) :
    sweepEntries all (e :: es) = e :: es := by
  simp only [sweepEntries, he, if_true, sweepEntries_known all h]

/-- A held entry of an unknown opcode ends with RANGE. -/
def Entry.ranged (e : Entry) : Entry := { e with st := .done ⟨.range, e.raw.d.handle, 0, [], 0⟩ }

theorem sweepEntries_unknown (all : Bool) {e : Entry} {es : List Entry} (hst : e.st = .held)
    (hop : catalogue.contains e.raw.op = false) (h : AllKnown es) : sweepEntries all (e :: es) = e.ranged :: es := by
  have hdone : e.isDone = false := by simp only [Entry.isDone, hst]
  simp only [sweepEntries, hdone, hst, hop, sweepEntries_known all h, Entry.ranged, Bool.not_false, BEq.rfl, Bool.and_self,
    Bool.false_eq_true, if_false, if_true]

theorem sweepRing_host_frame (n : Nat) (d : Dev) :
    (sweepRing n d).host = { d.host with rings := (sweepRing n d).host.rings, peak := (sweepRing n d).host.peak } := by
  unfold sweepRing
  split <;> rfl

theorem sweepRing_ring_ne {m n : Nat} (d : Dev) (h : m ≠ n) : (sweepRing n d).host.ring m = d.host.ring m := by
  unfold sweepRing
  split
  · simp only [notePeak_ring]
    exact ring_modRing_ne _ _ h
  · rfl

theorem sweepRing_serves {n : Nat} {d : Dev} (h : d.ringServes (d.host.ring n) = true) :
    (sweepRing n d).host.ring n =
      { d.host.ring n with q := sweepEntries ((d.host.ring n).cls != 0) (d.host.ring n).q } := by
  rw [sweepRing, if_pos h]
  simp only [notePeak_ring, ring_modRing_self]

/-- A sweep leaves a ring that it has nothing to do for. -/
theorem sweepRing_ring_self {n : Nat} {d : Dev}
    (h : sweepEntries ((d.host.ring n).cls != 0) (d.host.ring n).q = (d.host.ring n).q) :
    (sweepRing n d).host.ring n = d.host.ring n := by
  by_cases hserves : d.ringServes (d.host.ring n) = true
  · rw [sweepRing_serves hserves, h]
  · rw [sweepRing, if_neg hserves]

theorem sweepRing_known {n : Nat} {d : Dev} (h : AllKnown (d.host.ring n).q) (m : Nat) :
    (sweepRing n d).host.ring m = d.host.ring m := by
  by_cases hm : m = n
  · rw [hm, sweepRing_ring_self (sweepEntries_known _ h)]
  · exact sweepRing_ring_ne d hm

/-! ### A read of descriptors (R53, R57, R66) -/

/-- The entries that a read brings to a ring. -/
def Ring.fetchedEntries (r : Ring) (n stamp : Nat) (ds : List RawDesc) : List Entry :=
  (ds.take r.fetchRoom).mapIdx fun k x => ⟨{ x with d := { x.d with src := .ring n } }, .held, stamp + k⟩

theorem Ring.append_eq (r : Ring) (n stamp : Nat) (ds : List RawDesc) :
    r.append n stamp ds = { r with q := r.q ++ r.fetchedEntries n stamp ds } := rfl

theorem Ring.length_fetchedEntries (r : Ring) (n stamp : Nat) (ds : List RawDesc) :
    (r.fetchedEntries n stamp ds).length = min ds.length r.fetchRoom := by
  rw [fetchedEntries, List.length_mapIdx, List.length_take, Nat.min_comm]

theorem Ring.mem_fetchedEntries {r : Ring} {n stamp : Nat} {ds : List RawDesc} {e : Entry}
    (h : e ∈ r.fetchedEntries n stamp ds) : e.st = .held ∧ e.raw.d.src = .ring n ∧ ∃ x ∈ ds, e.raw.op = x.op := by
  obtain ⟨k, hk, rfl⟩ := List.mem_mapIdx.mp h
  exact ⟨rfl, rfl, _, List.mem_of_mem_take (List.getElem_mem hk), rfl⟩

theorem Ring.fetchRoom_le (r : Ring) :
    r.fetchRoom ≤ 8 ∧ r.fetchRoom ≤ (r.u - r.f).toNat ∧ (r.cls = 0 → r.fetchRoom ≤ 16 - r.q.length) := by
  unfold fetchRoom
  dsimp only
  split
  · exact ⟨by omega, by omega, fun _ => by omega⟩
  · next hcls => exact ⟨by omega, by omega, fun h => absurd h hcls⟩

theorem fetchInto_ring_self (h : HostIf) (n : Nat) (ds : List RawDesc) :
    (h.fetchInto n ds).ring n = (h.ring n).append n h.fetched ds :=
  ring_modRing_self h n fun r => r.append n h.fetched ds

theorem fetchInto_ring_ne (h : HostIf) {m n : Nat} (ds : List RawDesc) (hm : m ≠ n) :
    (h.fetchInto n ds).ring m = h.ring m :=
  ring_modRing_ne h (fun r => r.append n h.fetched ds) hm

/-- The device that a read has brought descriptors to, before the sweep. -/
def Dev.fetchedInto (d : Dev) (n : Nat) (ds : List RawDesc) : Dev :=
  Dev.tally { d.tally 32 2 1 with host := (d.host.fetchInto n ds).notePeak } 32 0 (min ds.length (d.host.ring n).fetchRoom)

section
variable {n : Nat} {d : Dev} (hmay : d.mayFetch (d.host.ring n) = true)
include hmay

theorem fetchReturns_ok (ds : List RawDesc) : fetchReturns n (.ok ds) d = sweepRing n (d.fetchedInto n ds) := by
  rw [fetchReturns, if_pos hmay]
  rfl

theorem mayFetch_active : (d.host.ring n).state = .active :=
  eq_of_beq (Bool.and_eq_true_iff.mp hmay).1

/-- A read that failed fences the ring. -/
theorem fetchReturns_failed {res : FetchResult} (hres : res = .unsupportedRequest ∨ res = .completerAbort ∨ res = .poisoned) :
    fetchReturns n res d = { d with
        host := (fetchReturns n res d).host, tal := (fetchReturns n res d).tal, sag := (fetchReturns n res d).sag } ∧
      ((fetchReturns n res d).host.ring n).state = .fenced ∧ ((fetchReturns n res d).host.ring n).reason = 3 := by
  have hactive := mayFetch_active hmay
  have hfences (h : HostIf) (t : Tally) (hring : (h.ring n).state = .active) :
      let e := ({ d with host := h, tal := t } : Dev).fenceRing n 3
      e = { d with host := e.host, tal := e.tal, sag := e.sag } ∧ (e.host.ring n).state = .fenced ∧ (e.host.ring n).reason = 3 := by
    obtain ⟨hstate, hreason, -⟩ := fenceRing_state { d with host := h, tal := t } n 3 (.inl hring)
    refine ⟨?_, hstate, hreason⟩
    conv_lhs => rw [fenceRing_frame]
  rw [fetchReturns, if_pos hmay]
  rcases hres with rfl | rfl | rfl <;> exact hfences _ _ hactive

end

theorem fetchedInto_ring_self (d : Dev) (n : Nat) (ds : List RawDesc) :
    (d.fetchedInto n ds).host.ring n = (d.host.ring n).append n d.host.fetched ds :=
  fetchInto_ring_self d.host n ds

theorem fetchedInto_ring_ne (d : Dev) {m n : Nat} (ds : List RawDesc) (hm : m ≠ n) :
    (d.fetchedInto n ds).host.ring m = d.host.ring m :=
  fetchInto_ring_ne d.host ds hm

theorem sweepFetched_frame (d : Dev) (n : Nat) (ds : List RawDesc) :
    sweepRing n (d.fetchedInto n ds) = { d with
      host := (sweepRing n (d.fetchedInto n ds)).host, tal := (sweepRing n (d.fetchedInto n ds)).tal } := by
  conv_lhs => rw [sweepRing_frame]
  rw [sweepRing_frame]
  rfl

/-- Settles O11: the entries that a read brings, the sweep of one that is not in the catalogue, and the fence of a failed read. -/
theorem descriptorFetch : Obligations.DescriptorFetch := by
  unfold Obligations.DescriptorFetch
  intro s n hn hmay
  have hanswers (res : FetchResult) : Answers (.descriptorFetchDone n res) s (fetchReturns n res s.dev) := onDevAt_lt s _ hn
  refine ⟨fun ds hds hheld => ?known, fun x hx hq hroom hserves => ?unknown, fun res hres => ⟨_, hanswers res, fetchReturns_failed hmay hres⟩⟩
  case known =>
    refine ⟨_, hanswers _, ?_⟩
    rw [fetchReturns_ok hmay]
    have hknown : AllKnown ((s.dev.fetchedInto n ds).host.ring n).q := by
      rw [fetchedInto_ring_self, Ring.append_eq]
      intro e he hst
      rcases List.mem_append.mp he with hold | hnew
      · exact hheld e hold hst
      · obtain ⟨-, -, x, hx, hop⟩ := Ring.mem_fetchedEntries hnew
        rw [hop]
        exact hds x hx
    obtain ⟨h8, hsub, hcls⟩ := (s.dev.host.ring n).fetchRoom_le
    refine ⟨sweepFetched_frame _ _ _, fun m hm => ?_, (s.dev.host.ring n).fetchedEntries n s.dev.host.fetched ds, ?_⟩
    · rw [sweepRing_ring_ne _ hm, fetchedInto_ring_ne _ _ hm]
    · have hlen := (s.dev.host.ring n).length_fetchedEntries n s.dev.host.fetched ds
      rw [sweepRing_known hknown, fetchedInto_ring_self, Ring.append_eq]
      refine ⟨rfl, fun e he => ?_, hlen, by omega, by omega, fun h0 h16 => ?_⟩
      · obtain ⟨hst, hsrc, -⟩ := Ring.mem_fetchedEntries he
        exact ⟨hst, hsrc⟩
      · have := hcls h0
        rw [List.length_append]
        omega
  case unknown =>
    refine ⟨_, hanswers _, ?_⟩
    rw [fetchReturns_ok hmay]
    refine ⟨sweepFetched_frame _ _ _, fun m hm => ?_, ?_⟩
    · rw [sweepRing_ring_ne _ hm, fetchedInto_ring_ne _ _ hm]
    · obtain ⟨k, hk⟩ := Nat.exists_eq_succ_of_ne_zero hroom
      have hring : (s.dev.fetchedInto n [x]).host.ring n = { s.dev.host.ring n with
          q := [⟨{ x with d := { x.d with src := .ring n } }, .held, s.dev.host.fetched⟩] } := by
        rw [fetchedInto_ring_self, Ring.append_eq, Ring.fetchedEntries, hk, hq]
        simp
      rw [sweepRing_serves (by rw [hring]; exact hserves), hring]
      dsimp only
      rw [sweepEntries_unknown _ rfl hx (fun _ h => absurd h List.not_mem_nil)]
      exact ⟨_, rfl, rfl, rfl⟩

/-! ### Posting a completion (R59, R62) -/

/-- A signal of a vector reaches a ring by its own vector. -/
theorem signal_ring (h : HostIf) (v n : Nat) :
    (h.signal v).ring n = if (h.ring n).vec.toNat == v then { h.ring n with unsignalled := 0 } else h.ring n := by
  unfold HostIf.signal
  dsimp only
  have hmap := tget_tmapAll_dflt ({} : Ring) h.rings (fun _ r => if r.vec.toNat == v then { r with unsignalled := 0 } else r) n
    (ite_self _)
  split <;> exact hmap

theorem signal_dma (h : HostIf) (v : Nat) : (h.signal v).dma = h.dma := by
  unfold HostIf.signal
  dsimp only
  split <;> rfl

theorem Ring.settle_of {r : Ring} (h : r.state ≠ .resetting ∨ r.q ≠ []) : r.settle = r := by
  refine if_neg fun ⟨hstate, hq⟩ => ?_
  rcases h with h | h
  · exact h hstate
  · exact h hq

theorem Ring.settle_empty {r : Ring} (hstate : r.state = .resetting) (hq : r.q = []) : r.settle = r.disable := if_pos ⟨hstate, hq⟩

theorem Ring.settle_unsignalled_vec (r : Ring) : r.settle.vec = r.vec := by
  unfold settle
  split <;> rfl

/-- The ring whose oldest completion has been written. -/
def Ring.posted (r : Ring) : Ring := Ring.settle { r with c := r.c + 1, q := r.q.drop 1, unsignalled := r.unsignalled + 1 }

/-- What a completion writes to host memory: its output first (R59). -/
def Ring.writesOf (r : Ring) (turn : Nat) (c : Cpl) : List DmaWrite :=
  (if c.out = [] then [] else [⟨c.outAddr, c.out⟩]) ++
    [⟨r.cqb + BitVec.ofNat 64 (16 * (r.c.toNat % r.n)), completionBytes (decide (r.c.toNat / r.n % 2 = 0)) turn c⟩]

theorem phaseOf_eq (k n : Nat) : phaseOf k n = decide (k / n % 2 = 0) := by
  rw [phaseOf, Bool.beq_eq_decide_eq]

/-- The host interface as a posted completion leaves it. -/
def HostIf.posted (h : HostIf) (n turn : Nat) (e : Entry) (c : Cpl) : HostIf :=
  let r := h.ring n
  let p := { h with dma := h.dma ++ r.writesOf turn c, served := n }.modRing n Ring.posted
  if e.raw.d.flags.toNat % 2 == 1 || max 1 r.irqCount.toNat ≤ r.unsignalled + 1 then p.signal r.vec.toNat else p

theorem postCompletion_posts {n : Nat} {d : Dev} {e : Entry} {c : Cpl}
    (h : ((sweepRing n d).host.ring n).postable = some (e, c)) :
    postCompletion n d = { (sweepRing n d).tally 32 1 1 with
      host := (sweepRing n d).host.posted n (sweepRing n d).wheel.turn.toNat e c } := by
  unfold postCompletion HostIf.posted Ring.writesOf
  simp only [h, phaseOf_eq, List.isEmpty_iff, Bool.or_eq_true, decide_eq_true_eq]
  rfl

theorem postCompletion_none {n : Nat} {d : Dev} (h : ((sweepRing n d).host.ring n).postable = none) :
    postCompletion n d = sweepRing n d := by
  unfold postCompletion
  simp only [h]

theorem Ring.posted_vec (r : Ring) : r.posted.vec = r.vec := Ring.settle_unsignalled_vec _

section
variable {h : HostIf} {n turn : Nat} {e : Entry} {c : Cpl}

theorem HostIf.posted_dma : (h.posted n turn e c).dma = h.dma ++ (h.ring n).writesOf turn c := by
  unfold HostIf.posted
  dsimp only
  split
  · exact signal_dma _ _
  · rfl

/-- The ring that a completion is posted on, up to the count of those not signalled. -/
theorem HostIf.posted_ring : ∃ u, (h.posted n turn e c).ring n = { (h.ring n).posted with unsignalled := u } ∧
    (e.raw.d.flags.toNat % 2 = 1 → u = 0) := by
  have hring : ({ h with dma := h.dma ++ (h.ring n).writesOf turn c, served := n }.modRing n Ring.posted).ring n =
      (h.ring n).posted := ring_modRing_self _ _ _
  unfold HostIf.posted
  dsimp only
  split
  case isTrue => exact ⟨0, by rw [signal_ring, hring, if_pos (by rw [Ring.posted_vec, beq_self_eq_true])], fun _ => rfl⟩
  case isFalse hquiet => exact ⟨_, hring, fun hintr => absurd (by simp [hintr]) hquiet⟩

end

/-- Settles O12: the sweep makes the oldest entry ended if it was not, the posting writes it and takes it from the ring. -/
theorem completionPosted : Obligations.CompletionPosted := by
  unfold Obligations.CompletionPosted
  refine ⟨fun s n e c rest hn hq hended hknown hstate hroom => ?posts, fun s n hn hnone hknown => ?nothing⟩
  case posts =>
    have hswept : ∃ e', e'.raw = e.raw ∧ e'.st = .done c ∧
        (sweepRing n s.dev).host.ring n = { s.dev.host.ring n with q := e' :: rest } := by
      rcases hended with hdone | ⟨hheld, hop, rfl, hserves⟩
      · refine ⟨e, rfl, hdone, ?_⟩
        rw [sweepRing_ring_self, ← hq]
        rw [hq]
        exact sweepEntries_done _ (by simp only [Entry.isDone, hdone]) hknown
      · refine ⟨e.ranged, rfl, rfl, ?_⟩
        rw [sweepRing_serves hserves, hq, sweepEntries_unknown _ hheld hop hknown]
    obtain ⟨e', hraw, hdone, hring⟩ := hswept
    have hpost : ((sweepRing n s.dev).host.ring n).postable = some (e', c) := by
      rw [hring]
      simp only [Ring.postable, hdone]
      exact if_pos ⟨hroom, hstate⟩
    refine ⟨_, onDevAt_lt s _ hn, ?_⟩
    rw [postCompletion_posts hpost, sweepRing_wheel]
    obtain ⟨u, hposted, hintr⟩ := HostIf.posted_ring (h := (sweepRing n s.dev).host) (n := n)
      (turn := s.dev.wheel.turn.toNat) (e := e') (c := c)
    rw [hraw] at hintr
    have hdma := HostIf.posted_dma (h := (sweepRing n s.dev).host) (n := n) (turn := s.dev.wheel.turn.toNat) (e := e') (c := c)
    rw [hring] at hposted hdma
    refine ⟨?frame, ?dma, fun hstays => ?stays, fun hreset hrest => ?ends, fun hodd => ?signalled⟩
    case frame =>
      obtain ⟨h, hsweep⟩ : ∃ h, sweepRing n s.dev = { s.dev with host := h } := ⟨_, sweepRing_frame _ _⟩
      rw [hsweep]
      rfl
    case dma =>
      rw [List.append_assoc]
      refine hdma.trans ?_
      rw [sweepRing_host_frame]
      rfl
    case stays =>
      rw [hposted, Ring.posted, Ring.settle_of (by exact hstays)]
      exact ⟨rfl, rfl, rfl⟩
    case ends =>
      rw [hposted, Ring.posted, Ring.settle_empty (by exact hreset) (by exact hrest)]
      exact ⟨rfl, rfl, rfl⟩
    case signalled =>
      rw [hposted]
      exact hintr hodd
  case nothing =>
    have hring := sweepRing_known hknown
    refine ⟨_, onDevAt_lt s _ hn, ?_⟩
    rw [postCompletion_none (by rw [hring]; exact hnone)]
    refine ⟨?_, hring⟩
    conv_lhs => rw [sweepRing_frame, sweepRing_host_frame]

end Sys2Proof.Machine
end

/-! ## Registers: reads that clear, plain reads, writes -/

section
/-! PROOF. What a read with an effect answers and clears; the words that plain reads of BAR0 and BAR4 answer; and what a write makes
of a register that takes it. -/

namespace Sys2Proof.Machine

/-! ### Reads that clear -/

theorem HostIf.auditWord_eq (h : HostIf) :
    h.auditWord = h.lastRing.toNat + (if h.auditValid then 128 else 0) + 256 * h.faults + 2 ^ 24 * h.droppedDb := by
  unfold auditWord b2n
  split <;> omega

theorem HostIf.inflightWord_eq (h : HostIf) : h.inflightWord = h.inflight + 2 ^ 8 * h.peak + 2 ^ 16 * h.bar4Wr := by
  unfold inflightWord
  omega

theorem Wheel.countWord_eq (w : Wheel) : w.countWord = w.missed + 2 ^ 12 * w.rejected + 2 ^ 24 * w.switches := by
  unfold countWord
  omega

theorem Conv.countWord_eq (cv : Conv) : cv.countWord = cv.late + 2 ^ 8 * cv.dropped + 2 ^ 16 * cv.injMerged := by
  unfold countWord
  omega

@[simp] theorem conv_modConv_self (d : Dev) (c : Nat) (f : Conv → Conv) : (d.modConv c f).conv c = f (d.conv c) :=
  tget_tmod_self _ _ _ _

theorem conv_modConv_ne (d : Dev) {c k : Nat} (f : Conv → Conv) (h : k ≠ c) : (d.modConv c f).conv k = d.conv k :=
  tget_tmod_ne _ _ _ h

section
variable {s : State} (hlink : s.dev.host.link = .ready)
include hlink

theorem hostAuditRead_answers : Answers .hostAuditRead s { s.dev with host := { s.dev.host with
    rdData := BitVec.ofNat 32 s.dev.host.auditWord, faults := 0, droppedDb := 0 } } :=
  onHost_ready s _ hlink

theorem hostInflightRead_answers : Answers .hostInflightRead s { s.dev with host := { s.dev.host with
    rdData := BitVec.ofNat 32 s.dev.host.inflightWord, peak := 0, bar4Wr := 0 } } :=
  onHost_ready s _ hlink

theorem wheelCountRead_answers : Answers .wheelCountRead s { s.dev with
    wheel := { s.dev.wheel with missed := 0, rejected := 0, switches := 0 }
    host := { s.dev.host with rdData := BitVec.ofNat 32 s.dev.wheel.countWord } } :=
  onHost_ready s _ hlink

theorem wheelTurnLoRead_answers : Answers .wheelTurnLoRead s { s.dev with
    wheel := { s.dev.wheel with turnHi := (s.dev.wheel.turn >>> 32).setWidth 16 }
    host := { s.dev.host with rdData := s.dev.wheel.turn.setWidth 32 } } :=
  onHost_ready s _ hlink

theorem sysClkRead_answers : Answers .sysClkRead s { s.dev with
    pow := { s.dev.pow with unlocks := 0 }, host := { s.dev.host with rdData := BitVec.ofNat 32 (sysClk s.dev) } } :=
  onHost_ready s _ hlink

theorem sysRstRead_answers : Answers .sysRstRead s { s.dev with
    pow := { s.dev.pow with hkFails := 0 }, host := { s.dev.host with rdData := BitVec.ofNat 32 (sysRst s.dev) } } :=
  onHost_ready s _ hlink

/-- The device after a read of a fast converter's counts. -/
abbrev countsRead (d : Dev) (c : Nat) : Dev :=
  { d.modConv c fun cv => { cv with late := 0, dropped := 0, injMerged := 0 } with
    host := { d.host with rdData := BitVec.ofNat 32 (d.conv c).countWord } }

theorem acqFsCountRead_answers {c : Nat} (hc : c < 12) : Answers (.acqFsCountRead c) s (countsRead s.dev c) :=
  onHostAt_ready s _ hc hlink

/-! ### Plain reads of BAR0 (R50) -/

theorem bar0Read_ready {o : Nat} (ho : o % 4 = 0) : bar0Read s o = some (BitVec.ofNat 32 (bar0Word s o)) := by
  rw [bar0Read, if_pos ho, State.served, if_pos hlink]

end

section
variable {s : State} {o : Nat}

theorem bar0Word_sys (h : o < 0x100) : bar0Word s o = sysRead s o := if_pos h

theorem bar0Word_wheel (h : 0x100 ≤ o) (h' : o < 0x200) : bar0Word s o = wheelRead s o := by
  rw [bar0Word, if_neg (by omega), if_pos h']

theorem bar0Word_host (h : 0x200 ≤ o) (h' : o < 0x300) :
    bar0Word s o = hostRead s.dev.host s.dev.plane.mgmtRunning o := by
  rw [bar0Word, if_neg (by omega), if_neg (by omega), if_pos h']

theorem bar0Word_acq (h : 0x300 ≤ o) (h' : o < 0x1000) : bar0Word s o = acqRead s.dev o := by
  rw [bar0Word, if_neg (by omega), if_neg (by omega), if_neg (by omega), if_pos h']

theorem bar0Word_beyond (h : (0x2810 ≤ o ∧ o < 0x4000) ∨ 0x8000 ≤ o) : bar0Word s o = 0 := by
  rw [bar0Word, if_neg (by omega), if_neg (by omega), if_neg (by omega), if_neg (by omega), if_neg (by omega), if_neg (by omega),
    if_neg (by omega), if_neg (by omega)]

/-- The registers of ring `n` lie 32 bytes apart. -/
theorem bar0Word_ring {n : Nat} (hn : n < 128) (ho : o < 32) :
    bar0Word s (0x1000 + 32 * n + o) = (s.dev.host.ring n).read o := by
  have hpage : (0x1000 + 32 * n + o - 0x1000) / 32 = n := by omega
  have hoffset : (0x1000 + 32 * n + o - 0x1000) % 32 = o := by omega
  rw [bar0Word, if_neg (by omega), if_neg (by omega), if_neg (by omega), if_neg (by omega), if_pos (by omega), hpage, hoffset]

theorem bar0Word_conv {c : Nat} (hc : c < 12) : bar0Word s (0x340 + 4 * c) = (s.dev.conv c).countWord := by
  have hslot : (0x340 + 4 * c - 0x340) / 4 = c := by omega
  rw [bar0Word_acq (by omega) (by omega), acqRead, if_neg (by omega), if_pos (by omega), hslot]

theorem sysRead_reserved (h : 0x58 ≤ o) : sysRead s o = 0 := by
  rw [sysRead, if_neg (by omega), if_neg (by omega), if_neg (by omega), if_neg (by omega), if_neg (by omega), if_neg (by omega),
    if_neg (by omega), if_neg (by omega), if_neg (by omega), if_neg (by omega)]

theorem wheelRead_reserved (h : 0x11C ≤ o) : wheelRead s o = 0 := by
  simp only [wheelRead]
  rw [if_neg (by omega), if_neg (by omega), if_neg (by omega), if_neg (by omega), if_neg (by omega), if_neg (by omega),
    if_neg (by omega)]

theorem hostRead_reserved (host : HostIf) (ready : Bool) (h : 0x20C ≤ o) : hostRead host ready o = 0 := by
  rw [hostRead, if_neg (by omega), if_neg (by omega), if_neg (by omega)]

/-- Reserved offsets read 0 (R6). -/
theorem bar0Word_reserved (h : (0x58 ≤ o ∧ o < 0x100) ∨ (0x11C ≤ o ∧ o < 0x200) ∨ (0x20C ≤ o ∧ o < 0x300) ∨
    (0x2810 ≤ o ∧ o < 0x4000) ∨ 0x8000 ≤ o) : bar0Word s o = 0 := by
  rcases h with ⟨h, h'⟩ | ⟨h, h'⟩ | ⟨h, h'⟩ | h
  · rw [bar0Word_sys h', sysRead_reserved h]
  · rw [bar0Word_wheel (by omega) h', wheelRead_reserved h]
  · rw [bar0Word_host (by omega) h', hostRead_reserved _ _ h]
  · exact bar0Word_beyond h

end

theorem ofNat_toNat_mod (v : BitVec 64) : BitVec.ofNat 32 (v.toNat % 2 ^ 32) = v.setWidth 32 := by
  apply BitVec.eq_of_toNat_eq
  simp

theorem ofNat_toNat_div (v : BitVec 64) : BitVec.ofNat 32 (v.toNat / 2 ^ 32) = v.extractLsb' 32 32 := by
  apply BitVec.eq_of_toNat_eq
  simp [BitVec.extractLsb'_toNat, Nat.shiftRight_eq_div_pow]

theorem Ring.read_config (r : Ring) :
    r.read 0x10 = r.size.toNat + 2 ^ 4 * r.cls.toNat + 2 ^ 6 * r.vec.toNat + 2 ^ 16 * r.evmask.toNat := by
  simp only [Ring.read]
  omega

theorem Setup.flueWord_eq (su : Setup) : su.flueWord = su.flueTime.toNat + 2 ^ 10 * su.flueSeq.toNat := by
  unfold flueWord
  omega

theorem Setup.wdWord_eq (su : Setup) :
    su.wdWord = su.wdTurns.toNat + (if su.wdDown then 2 ^ 16 else 0) + 2 ^ 17 * su.wdSeq.toNat := by
  unfold wdWord b2n
  split <;> omega

theorem Setup.wheelWord_eq (su : Setup) :
    su.wheelWord = (if su.wheelNominal then 1 else 0) + 2 * su.wheelSrc.toNat + 8 * su.wheelDelay.toNat := by
  unfold wheelWord b2n
  omega

/-! ### Plain reads of BAR4 (R51) -/

theorem bar4Byte_outside {d : Dev} {o : Nat} (h : ∀ x ∈ bar4Areas d, o < x.1 ∨ x.1 + x.2.length ≤ o)
    (hline : d.linePoisoned ((0x580000 + o) / 64 % 16) ((0x580000 + o) / 1024) = false) : bar4Byte d o = 0 := by
  have hnone : (bar4Areas d).find? (fun x => decide (x.1 ≤ o) && decide (o < x.1 + x.2.length)) = none := by
    refine List.find?_eq_none.mpr fun x hx => ?_
    have := h x hx
    simp only [Bool.and_eq_true, decide_eq_true_eq]
    omega
  simp only [bar4Byte, hline, hnone, Bool.false_eq_true, if_false]

/-- Settles O14: each clause is a read's answer, from the word of its register. -/
theorem readToClear : Obligations.ReadToClear := by
  unfold Obligations.ReadToClear
  refine ⟨fun s hlink => HostIf.auditWord_eq _ ▸ hostAuditRead_answers hlink,
    fun s hlink => HostIf.inflightWord_eq _ ▸ hostInflightRead_answers hlink,
    fun s hlink => Wheel.countWord_eq _ ▸ wheelCountRead_answers hlink, fun s c hc hlink => ?fsCount,
    fun s hlink => sysClkRead_answers hlink, fun s hlink => sysRstRead_answers hlink,
    fun s hlink => ⟨fun p hp => ?same, fun c hc => ?sameCount, ?id, ?flue, ?wd, ?wheel, ?hi, fun n hn => ?ring, fun o ho hres => ?reserved,
      fun o => if_pos hlink, fun o n hout => ?bar4⟩,
    fun s hlink o n => ⟨?notReady, if_neg hlink, if_neg hlink⟩⟩
  case fsCount =>
    refine ⟨_, acqFsCountRead_answers hlink hc, rfl, ?_, conv_modConv_self _ _ _, fun k hk => conv_modConv_ne _ _ hk⟩
    rw [countsRead, Conv.countWord_eq]
  case same =>
    simp only [List.mem_cons, List.not_mem_nil, or_false] at hp
    rcases hp with rfl | rfl | rfl | rfl | rfl | rfl
    · exact ⟨_, hostAuditRead_answers hlink, bar0Read_ready hlink rfl⟩
    · exact ⟨_, hostInflightRead_answers hlink, bar0Read_ready hlink rfl⟩
    · exact ⟨_, wheelCountRead_answers hlink, bar0Read_ready hlink rfl⟩
    · refine ⟨_, wheelTurnLoRead_answers hlink, (bar0Read_ready hlink rfl).trans (congrArg some ?_)⟩
      apply BitVec.eq_of_toNat_eq
      simp [bar0Word_wheel, wheelRead]
    · exact ⟨_, sysClkRead_answers hlink, bar0Read_ready hlink rfl⟩
    · exact ⟨_, sysRstRead_answers hlink, bar0Read_ready hlink rfl⟩
  case sameCount =>
    refine ⟨_, acqFsCountRead_answers hlink hc, ?_⟩
    rw [bar0Read_ready hlink (by omega), bar0Word_conv hc]
  case id => exact bar0Read_ready hlink rfl
  case flue => exact Setup.flueWord_eq _ ▸ bar0Read_ready hlink rfl
  case wd => exact Setup.wdWord_eq _ ▸ bar0Read_ready hlink rfl
  case wheel => exact Setup.wheelWord_eq _ ▸ bar0Read_ready hlink rfl
  case hi => exact bar0Read_ready hlink rfl
  case ring =>
    have hread {o : Nat} (ho : o < 32) (ho4 : o % 4 = 0) :
        bar0Read s (0x1000 + 32 * n + o) = some (BitVec.ofNat 32 ((s.dev.host.ring n).read o)) := by
      rw [bar0Read_ready hlink (by omega), bar0Word_ring hn ho]
    refine ⟨?_, ?_, ?_⟩
    · rw [← ofNat_toNat_mod]
      exact hread (o := 0) (by decide) rfl
    · rw [← ofNat_toNat_div, show 0x1004 + 32 * n = 0x1000 + 32 * n + 4 by omega]
      exact hread (by decide) rfl
    · rw [← Ring.read_config, show 0x1010 + 32 * n = 0x1000 + 32 * n + 0x10 by omega]
      exact hread (by decide) rfl
  case reserved => rw [bar0Read_ready hlink ho, bar0Word_reserved hres]; rfl
  case bar4 =>
    refine (if_pos hlink).trans (congrArg some (List.eq_replicate_iff.mpr ⟨by simp, ?_⟩))
    rw [List.forall_mem_map]
    exact fun k hk => bar4Byte_outside (hout k (List.mem_range.mp hk)).1 (hout k (List.mem_range.mp hk)).2
  case notReady =>
    unfold bar0Read
    split
    · exact if_neg hlink
    · rfl

/-! ### Writes of registers that clear (R51) -/

/-- Settles O16: each clause is a write's effect. -/
theorem writeToClear : Obligations.WriteToClear := by
  unfold Obligations.WriteToClear
  refine ⟨fun s v hlink => ?clk, fun s v hlink => ?rst, fun s o v hlink hcount => ?bar4⟩
  case clk =>
    rw [← bit_eq_getLsbD]
    exact onHost_ready s _ hlink
  case rst =>
    simp only [← bit_eq_getLsbD]
    exact onHost_ready s _ hlink
  case bar4 =>
    have hsat : satAdd 16 s.dev.host.bar4Wr 1 = s.dev.host.bar4Wr + 1 := by
      unfold satAdd
      omega
    rw [← hsat]
    exact onHost_ready s _ hlink

/-! ### Writes of a ring's registers (R54) -/

theorem setupWrite_beyond (su : Setup) {o : Nat} (v : Word) (h : 0x1000 ≤ o) : setupWrite su o v = su := by
  unfold setupWrite Setup.write
  split
  · rfl
  · rw [if_neg (by omega), if_neg (by omega), if_neg (by omega), if_neg (by omega)]

/-- The device after a write to a register of ring `n` that makes `f` of the ring. -/
abbrev ringWritten (d : Dev) (n : Nat) (f : Ring → Ring) : Dev := { d with host := d.host.modRing n f }

section
variable {s : State} {n o : Nat} (v : BitVec 64) (hn : n < 128) (hlink : s.dev.host.link = .ready)
include hn hlink

theorem ringWrite_answers (ho : o < 32) (h4 : o % 4 = 0) (hctl : o ≠ 0x18) :
    Answers (.registerWrite (0x1000 + 32 * n + o) v false) s (ringWritten s.dev n fun r => r.write o (v.setWidth 32)) := by
  have hskip : ¬(s.dev.host.link ≠ .ready ∨ (0x1000 + 32 * n + o) % (if false = true then 8 else 4) ≠ 0) := by
    simp only [hlink, ne_eq, not_true_eq_false, false_or, Bool.false_eq_true, if_false, not_not]
    omega
  have hpage : (0x1000 + 32 * n + o - 0x1000) / 32 = n := by omega
  have hoffset : (0x1000 + 32 * n + o - 0x1000) % 32 = o := by omega
  refine (if_neg hskip).trans ?_
  rw [if_neg Bool.false_ne_true, setupWrite_beyond _ _ (by omega), bar0Write, if_neg (by omega), if_neg (by omega), if_neg (by omega), if_neg (by omega),
    if_pos (by omega), hpage, hoffset, ringRegWrite, if_neg hctl]

theorem ringWriteWide_answers (ho : o < 32) (h8 : o % 8 = 0) :
    Answers (.registerWrite (0x1000 + 32 * n + o) v true) s (ringWritten s.dev n fun r => r.writeWide o v) := by
  have hskip : ¬(s.dev.host.link ≠ .ready ∨ (0x1000 + 32 * n + o) % (if true = true then 8 else 4) ≠ 0) := by
    simp only [hlink, ne_eq, not_true_eq_false, false_or, if_true, not_not]
    omega
  have hpage : (0x1000 + 32 * n + o - 0x1000) / 32 = n := by omega
  have hoffset : (0x1000 + 32 * n + o - 0x1000) % 32 = o := by omega
  refine (if_neg hskip).trans ?_
  rw [if_pos rfl, bar0WriteWide, if_pos (by omega), hpage, hoffset]

end

theorem Ring.write_busy {r : Ring} {o : Nat} (v : Word) (hirq : o ≠ 0x14) (h : r.state ≠ .disabled) : r.write o v = r := by
  rw [Ring.write, if_neg hirq, if_pos h]

theorem Ring.write_irq (r : Ring) (v : Word) :
    r.write 0x14 v = { r with irqCount := v.setWidth 8, irqTime := BitVec.ofNat 16 (bits v 8 16) } := rfl

theorem Ring.write_config {r : Ring} (v : Word) (h : r.state = .disabled) :
    r.write 0x10 v = { r with
      size := v.setWidth 4, cls := BitVec.ofNat 2 (bits v 4 2), vec := BitVec.ofNat 7 (bits v 6 7)
      evmask := BitVec.ofNat 16 (bits v 16 16) } := by
  simp [Ring.write, h]

theorem Ring.writeWide_base {r : Ring} (v : BitVec 64) (h : r.state = .disabled) :
    r.writeWide 0x00 v = { r with sqb := baseOf v } := by
  simp [Ring.writeWide, h]

theorem baseOf_toNat (v : BitVec 64) : (baseOf v).toNat = v.toNat / 4096 * 4096 := by
  have := v.isLt
  rw [baseOf, BitVec.toNat_ofNat, Nat.mod_eq_of_lt (by omega)]

theorem setWidth_narrow (v : BitVec 64) {n : Nat} (h : n ≤ 32) : (v.setWidth 32).setWidth n = v.extractLsb' 0 n := by
  rw [BitVec.setWidth_setWidth_of_le _ h, BitVec.setWidth_eq_extractLsb' (by omega)]

/-- A write that leaves its ring leaves every ring. -/
theorem ring_modRing_id (h : HostIf) {n : Nat} {f : Ring → Ring} (hf : f (h.ring n) = h.ring n) (m : Nat) :
    (h.modRing n f).ring m = h.ring m := by
  by_cases hm : m = n
  · rw [hm, ring_modRing_self, hf]
  · exact ring_modRing_ne h f hm

/-- Settles O17: each clause is a write's effect on its ring. -/
theorem ringRegisterWrites : Obligations.RingRegisterWrites := by
  unfold Obligations.RingRegisterWrites
  intro s n v hn hlink
  refine ⟨fun o ho hbusy => ?busy, fun hdis => ?config, fun hdis => ?base, ?irq⟩
  case busy =>
    have hreg : o < 32 ∧ o % 4 = 0 ∧ o ≠ 0x18 ∧ o ≠ 0x14 := by fin_cases ho <;> decide
    obtain ⟨hlt, h4, hctl, hirq⟩ := hreg
    exact ⟨_, ringWrite_answers v hn hlink hlt h4 hctl, rfl, ring_modRing_id _ (Ring.write_busy _ hirq hbusy)⟩
  case config =>
    refine ⟨_, ringWrite_answers v hn hlink (by decide) rfl (by decide), rfl, ?_, fun m hm => ring_modRing_ne _ _ hm⟩
    rw [ring_modRing_self, Ring.write_config _ hdis, setWidth_narrow _ (by decide), ofNat_bits_narrow _ (by decide),
      ofNat_bits_narrow _ (by decide), ofNat_bits_narrow _ (by decide)]
  case base =>
    refine ⟨_, ringWriteWide_answers (o := 0) v hn hlink (by decide) rfl, rfl, ?_⟩
    rw [ring_modRing_self, Ring.writeWide_base _ hdis]
    exact ⟨baseOf_toNat v, rfl, fun m hm => ring_modRing_ne _ _ hm⟩
  case irq =>
    refine ⟨_, ringWrite_answers v hn hlink (by decide) rfl (by decide), rfl, ?_, fun m hm => ring_modRing_ne _ _ hm⟩
    rw [ring_modRing_self, Ring.write_irq, setWidth_narrow _ (by decide), ofNat_bits_narrow _ (by decide)]

end Sys2Proof.Machine
end

/-! ## Link, power-up, clocks and the management watchdog -/

section
/-! PROOF. What the events of start-up change. A choice of an image and a takeover run long operations: what those leave as it is
is said once, by a view of the device without what they may change. -/

namespace Sys2Proof.Machine

/-- A command answers a device that equals what it answers. -/
theorem Answers.congr {c : Instr} {s : State} {d e : Dev} (h : Answers c s d) (he : d = e) : Answers c s e := he ▸ h

/-! ### The link and the host interface (R545, R48) -/

theorem linkTrained_high (sp w : BitVec 2) {d : Dev} (h : d.pow.phase = .image ∨ d.pow.phase = .up) :
    linkTrained sp w true d = { d with
      pow := { d.pow with pcieRef := true }
      host := { d.host with
        perstN := true
        link := if d.host.link = .ready then .ready else .trained
        speed := if sp = 0 then 1 else sp
        width := if w = 0 then 1 else if w = 3 then 2 else w } } := by
  have hspeed : ∀ v : BitVec 2, BitVec.ofNat 2 (max 1 v.toNat) = if v = 0 then 1 else v := by decide
  have hwidth : ∀ v : BitVec 2, BitVec.ofNat 2 (min 2 (max 1 v.toNat)) = if v = 0 then 1 else if v = 3 then 2 else v := by decide
  simp [linkTrained, h, hspeed, hwidth]

theorem unringed_ne_ring (src : Option Src) (n : Nat) : unringed src ≠ some (.ring n) := by
  unfold unringed
  split
  · nofun
  · next h => exact fun e => h n e

/-- What a reset of the host interface leaves: no wait and no write names a ring any more. -/
theorem hostInterfaceReset_unringed (conv : Bool) (d : Dev) :
    (hostInterfaceReset conv d).waits.map (·.kind) = d.waits.map (·.kind) ∧
    (∀ w ∈ (hostInterfaceReset conv d).waits, ∀ n, w.src ≠ some (.ring n)) ∧
    (hostInterfaceReset conv d).img.writes.length = d.img.writes.length ∧
    ∀ w ∈ (hostInterfaceReset conv d).img.writes, ∀ n, w.src ≠ some (.ring n) := by
  refine ⟨List.map_map, fun w hw n => ?_, List.length_map _, fun w hw n => ?_⟩ <;>
  · obtain ⟨x, -, rfl⟩ := List.mem_map.mp hw
    exact unringed_ne_ring x.src n

/-- Settles O18: each event of the link by its own meaning; the resets by what they leave of the waits and the writes. -/
theorem hostLink : Obligations.HostLink := by
  unfold Obligations.HostLink
  refine ⟨fun s sp w hphase => ?_, fun s sp w => rfl, fun s htrained => ?_, fun s conv pn => ?_, fun s rc => ?_⟩
  · exact Answers.congr rfl (linkTrained_high sp w hphase)
  · exact Answers.congr rfl (if_pos htrained)
  · obtain ⟨hkinds, hwaits, hlen, hwrites⟩ := hostInterfaceReset_unringed conv s.dev
    cases conv
    · exact ⟨_, rfl, rfl, rfl, nofun, fun _ => ⟨rfl, rfl, rfl, rfl⟩, hkinds, hwaits, hlen, hwrites, fun _ => rfl⟩
    · exact ⟨_, rfl, rfl, rfl, fun _ => ⟨rfl, rfl, rfl, rfl⟩, nofun, hkinds, hwaits, hlen, hwrites, fun _ => rfl⟩
  · exact ⟨_, rfl, rfl, rfl, fun _ => rfl⟩

/-! ### The choice of an image -/

/-- The device without what the choice or a cold start of an image may change. -/
def Dev.sansImage (d : Dev) : Dev :=
  { d with host := {}, tal := {}, sag := {}, img := {}, twb := {}, led := {}, plane := { d.plane with mgmtRunning := false } }

@[simp] theorem raise_sansImage (d : Dev) (code detail : Nat) (h : Word) : (d.raise code detail h).sansImage = d.sansImage := by
  rw [raise_frame]; rfl

@[simp] theorem setReady_sansImage (on : Bool) (d : Dev) : (setReady on d).sansImage = d.sansImage := by
  unfold setReady
  split <;> rfl

@[simp] theorem rejectUnsound_sansImage (d : Dev) (s : Nat) : (rejectUnsound d s).sansImage = d.sansImage := by
  unfold rejectUnsound
  split <;> rfl

theorem foldl_rejectUnsound_sansImage (l : List Nat) (d : Dev) : (l.foldl rejectUnsound d).sansImage = d.sansImage := by
  induction l generalizing d with
  | nil => rfl
  | cons s l ih => rw [List.foldl_cons, ih, rejectUnsound_sansImage]

@[simp] theorem startCold_sansImage (slot last : Nat) (d : Dev) : (startCold slot last d).sansImage = d.sansImage := by
  unfold startCold
  rw [setReady_sansImage]
  rfl

@[simp] theorem mgmtHalt_sansImage (d : Dev) : (mgmtHalt d).sansImage = d.sansImage := by
  unfold mgmtHalt
  rw [setReady_sansImage]
  dsimp only
  split
  · split <;> rfl
  · rfl

/-- A TRIAL slot that is passed over after its third start is rejected (R457). -/
def trialPassed (d : Dev) : Dev :=
  match d.roleSlot .trial with
  | some t => if 3 ≤ d.img.trialStarts ∧ d.greenReady.isNone = true then (rejectSlot t d).raise 0x0E06 1 0 else d
  | none => d

/-- The candidates of a choice that are passed over are rejected where they are not sound. -/
def candidatesPassed (d : Dev) : Dev :=
  ((powerOnCandidates d).takeWhile fun s => some s != powerOnImage d).foldl rejectUnsound d

theorem chooseImage_eq (d : Dev) : chooseImage d =
    match powerOnImage (trialPassed d) with
    | some s => startCold s 0 (candidatesPassed (trialPassed d))
    | none => { candidatesPassed (trialPassed d) with img := { (candidatesPassed (trialPassed d)).img with noCandidate := true } } := rfl

@[simp] theorem trialPassed_sansImage (d : Dev) : (trialPassed d).sansImage = d.sansImage := by
  unfold trialPassed
  split
  · split
    · exact raise_sansImage _ _ _ _
    · rfl
  · rfl

@[simp] theorem candidatesPassed_sansImage (d : Dev) : (candidatesPassed d).sansImage = d.sansImage :=
  foldl_rejectUnsound_sansImage _ d

theorem chooseImage_sansImage (d : Dev) : (chooseImage d).sansImage = d.sansImage := by
  have hpassed : (candidatesPassed (trialPassed d)).sansImage = d.sansImage := by simp
  rw [chooseImage_eq]
  split
  · rw [startCold_sansImage, hpassed]
  · exact hpassed

theorem restartCold_sansImage (d : Dev) : (restartCold d).sansImage = d.sansImage := by
  unfold restartCold
  split
  · exact startCold_sansImage _ _ _
  · rw [mgmtHalt_sansImage]
    exact rejectUnsound_sansImage _ _

/-! ### Power-up (R507, R508) -/

/-- The device as the boot ROM's initialisation leaves it, before it chooses the image. -/
def bootInit (sound : List Nat) (d : Dev) : Dev :=
  { d with
    pow := { d.pow with phase := .image, coreLock := true, throwLock := true }
    sram := if d.sram.untested then { d.sram with retired := d.sram.retired.filter fun b => !sound.contains b, untested := false }
      else d.sram
    plane := { d.plane with hearthRestarted := d.plane.takeover } }

theorem bootDone_boot (sound : List Nat) {d : Dev} (h : d.pow.phase = .boot) : bootDone sound d = chooseImage (bootInit sound d) :=
  if_pos h

/-- Settles O19: each step is the `if` on the phase that it begins in; the boot's end chooses an image, which leaves power, handles,
the Wheel and the memory as they are. -/
theorem powerUpSteps : Obligations.PowerUpSteps := by
  unfold Obligations.PowerUpSteps
  refine ⟨fun s straps h => .congr rfl (if_pos h), fun s h => .congr rfl (if_pos h), fun s ok h => .congr rfl (if_pos h),
    fun s h hen => .congr rfl (if_pos ⟨h, hen⟩), fun s h hen => .congr rfl (if_pos ⟨h, hen⟩),
    fun s h hen => .congr rfl (if_pos ⟨h, hen⟩), fun s sound h => ⟨_, .congr rfl (bootDone_boot sound h), ?_⟩,
    fun s straps h => .congr rfl (if_neg h),
    fun s h => ⟨.congr rfl (if_neg (mt And.left h)), .congr rfl (if_neg (mt And.left h)), .congr rfl (if_neg (mt And.left h))⟩⟩
  have hkept := chooseImage_sansImage (bootInit sound s.dev)
  have hsram : (chooseImage (bootInit sound s.dev)).sram = (bootInit sound s.dev).sram := (congrArg Dev.sram hkept :)
  refine ⟨congrArg (·.pow.phase) hkept, congrArg (·.pow.coreLock) hkept, congrArg (·.pow.throwLock) hkept,
    (congrArg Dev.slots hkept :), (congrArg Dev.wheel hkept :), fun hu => ?_, fun hu => ?_⟩
  · rw [hsram, bootInit, if_pos hu]
  · rw [hsram, bootInit, if_neg (ne_true_of_eq_false hu)]

/-! ### Clocks (R513) -/

theorem locked_setLock_self (p : Power) (k : Nat) (on : Bool) : (p.setLock k on).locked k = on := by
  unfold Power.locked Power.setLock
  split
  · rfl
  · split <;> rfl

theorem locked_setLock_ne (p : Power) {j k : Nat} (on : Bool) (hj : 1 ≤ j ∧ j ≤ 3) (hk : 1 ≤ k ∧ k ≤ 3) (h : j ≠ k) :
    (p.setLock k on).locked j = p.locked j := by
  have hk' : k = 1 ∨ k = 2 ∨ k = 3 := by omega
  have hj' : j = 1 ∨ j = 2 ∨ j = 3 := by omega
  rcases hk' with rfl | rfl | rfl <;> rcases hj' with rfl | rfl | rfl <;> simp_all [Power.locked, Power.setLock]

/-- SYS_CLK_FAIL leaves all but the ring, the counters and what is once a turn. -/
theorem clkFail_frame (k : Nat) (d : Dev) :
    clkFail k d = { d with
      host := (clkFail k d).host, tal := (clkFail k d).tal, sag := (clkFail k d).sag, onceTurn := (clkFail k d).onceTurn } :=
  raiseOnceTurn_frame d 0x1201 0x1201 k 0

theorem setLock_unlocks (p : Power) (k : Nat) (on : Bool) : (p.setLock k on).unlocks = p.unlocks := by
  unfold Power.setLock
  split
  · rfl
  · split <;> rfl

theorem refLoss_ok {d : Dev} (h : d.pow.refOk = true) :
    refLoss d = clkFail 0 { d with pow := { d.pow with refReturn := false, refOk := false, refFail := true } } := if_pos h

theorem pllUnlock_locked {k : Nat} {d : Dev} (h : d.pow.locked k = true) :
    pllUnlock k d = clkFail k { d with pow := { d.pow.setLock k false with unlocks := satAdd 8 d.pow.unlocks 1 } } := if_pos h

/-- Settles O21: a loss or an unlock sets its bits and raises SYS_CLK_FAIL, whose frame says what else it may change. -/
theorem clocks : Obligations.Clocks := by
  unfold Obligations.Clocks
  refine ⟨fun s hok => ?_, fun s hok hheld hrails => ?_, fun s k h1 h3 hlocked => ?_, fun s k h1 h3 hheld hrails => ?_⟩
  · refine ⟨_, .congr rfl (refLoss_ok hok), ?_, ?_⟩ <;> rw [clkFail_frame]
  · exact .congr rfl (by simp [refRestore, hok, hheld, hrails])
  · have hexec : Answers (.pllUnlock k) s (if k = 0 then s.dev else pllUnlock k s.dev) := onDevAt_lt s _ (by omega)
    refine ⟨_, hexec.congr ((if_neg (by omega)).trans (pllUnlock_locked hlocked)), ?_⟩
    rw [clkFail_frame]
    exact ⟨rfl, locked_setLock_self _ k false, rfl, fun j hj1 hj3 hne => locked_setLock_ne _ false ⟨hj1, hj3⟩ ⟨h1, h3⟩ hne⟩
  · have hexec : Answers (.pllRelock k) s (if k = 0 then s.dev else pllRelock k s.dev) := onDevAt_lt s _ (by omega)
    refine ⟨_, hexec.congr ((if_neg (by omega)).trans (if_neg (not_or_intro hheld hrails))), rfl, locked_setLock_self _ k true,
      setLock_unlocks _ k true, fun j hj1 hj3 hne => locked_setLock_ne _ true ⟨hj1, hj3⟩ ⟨h1, h3⟩ hne⟩

end Sys2Proof.Machine
end

/-! ## The chain of down orders and the management watchdog -/

section
/-! PROOF. A chain of down orders stops elements and ends commands; the plane, but for the chain itself, and the images it leaves as
they are. This is said once per operation, up to the chain; the watchdog and the takeover then keep what they set. -/

namespace Sys2Proof.Machine

/-! ### What the operations of an order leave of the plane and the images -/

@[simp] theorem foldl_plane_img {α : Type} {f : Dev → α → Dev} {l : List α} {d : Dev}
    (h : ∀ d a, (f d a).plane = d.plane ∧ (f d a).img = d.img) : (l.foldl f d).plane = d.plane ∧ (l.foldl f d).img = d.img := by
  induction l generalizing d with
  | nil => exact ⟨rfl, rfl⟩
  | cons a l ih => rw [List.foldl_cons, ih.1, ih.2]; exact h d a


@[simp] theorem Dev.coapReply_plane_img (d : Dev) (k mid : Nat) (resp : List Byte) :
    (Dev.coapReply d k mid resp).plane = d.plane ∧ (Dev.coapReply d k mid resp).img = d.img := by
  unfold Dev.coapReply
  (repeat' split) <;> simp

@[simp] theorem Dev.deliver_plane_img (d : Dev) (src : Option Src) (c : Cpl) :
    (Dev.deliver d src c).plane = d.plane ∧ (Dev.deliver d src c).img = d.img := by
  unfold Dev.deliver
  (repeat' split) <;> simp

@[simp] theorem Dev.answerWait_plane_img (d : Dev) (w : Wait) (c : Cpl) :
    (Dev.answerWait d w c).plane = d.plane ∧ (Dev.answerWait d w c).img = d.img := by
  unfold Dev.answerWait
  split <;> simp

@[simp] theorem Dev.endWaits_plane_img (d : Dev) (p : Wait → Bool) (f : Wait → Cpl) :
    (Dev.endWaits d p f).plane = d.plane ∧ (Dev.endWaits d p f).img = d.img := by
  simp [Dev.endWaits]

@[simp] theorem Dev.endKind_plane_img (d : Dev) (k : WaitKind) (h : Word) (st : Status) :
    (Dev.endKind d k h st).plane = d.plane ∧ (Dev.endKind d k h st).img = d.img := by
  simp [Dev.endKind]

@[simp] theorem endSeqEnables_plane_img (d : Dev) (q : Nat) (st : Status) :
    (endSeqEnables d q st).plane = d.plane ∧ (endSeqEnables d q st).img = d.img := by
  simp [endSeqEnables]

@[simp] theorem dropRuntime_plane_img (d : Dev) (t i : Nat) :
    (dropRuntime d t i).plane = d.plane ∧ (dropRuntime d t i).img = d.img := by
  unfold dropRuntime
  split <;> simp

@[simp] theorem laneSync_plane_img (d : Dev) :
    (laneSync d).plane = d.plane ∧ (laneSync d).img = d.img := by
  unfold laneSync
  simp [apply_ite Dev.plane, apply_ite Dev.img]

@[simp] theorem pdStop_plane_img (d : Dev) (g : Nat) :
    (pdStop d g).plane = d.plane ∧ (pdStop d g).img = d.img := by
  unfold pdStop
  split <;> simp

@[simp] theorem releasePd_plane_img (d : Dev) (key : Nat) :
    (releasePd d key).plane = d.plane ∧ (releasePd d key).img = d.img := by
  unfold releasePd
  simp [apply_ite Dev.plane, apply_ite Dev.img]

@[simp] theorem releaseSlots_plane_img (d : Dev) (key : Nat) :
    (releaseSlots d key).plane = d.plane ∧ (releaseSlots d key).img = d.img := by
  simp [releaseSlots]

@[simp] theorem releaseResources_plane_img (d : Dev) (key : Nat) :
    (releaseResources d key).plane = d.plane ∧ (releaseResources d key).img = d.img := by
  simp [releaseResources]

@[simp] theorem witGone_plane_img (src : Word) (d : Dev) :
    (witGone src d).plane = d.plane ∧ (witGone src d).img = d.img := by
  unfold witGone
  simp [apply_ite Dev.plane, apply_ite Dev.img]

@[simp] theorem finishDestroy_plane_img (d : Dev) (t i : Nat) :
    (finishDestroy d t i).plane = d.plane ∧ (finishDestroy d t i).img = d.img := by
  simp [finishDestroy]

@[simp] theorem seqHstate_plane_img (d : Dev) (q : Nat) (on : Bool) :
    (seqHstate d q on).plane = d.plane ∧ (seqHstate d q on).img = d.img := by
  simp [seqHstate]

@[simp] theorem monDisable_plane_img (d : Dev) (m : Nat) :
    (monDisable d m).plane = d.plane ∧ (monDisable d m).img = d.img := by
  unfold monDisable
  split <;> simp

@[simp] theorem stepSwitch_plane_img (d : Dev) (st : List Word) (on : Bool) :
    (stepSwitch d st on).plane = d.plane ∧ (stepSwitch d st on).img = d.img := by
  unfold stepSwitch
  split <;> simp

@[simp] theorem seqUnload_plane_img (d : Dev) (q : Nat) :
    (seqUnload d q).plane = d.plane ∧ (seqUnload d q).img = d.img := by
  refine foldl_plane_img fun d st => ?_
  dsimp only
  (repeat' split) <;> simp

@[simp] theorem downDone_plane_img (d : Dev) (q : Nat) :
    (downDone d q).plane = d.plane ∧ (downDone d q).img = d.img := by
  unfold downDone
  dsimp only
  (repeat' split) <;> simp

@[simp] theorem applySetPoints_plane_img (d : Dev) (l : Nat) :
    (applySetPoints d l).plane = d.plane ∧ (applySetPoints d l).img = d.img := by
  simp [applySetPoints]

@[simp] theorem demandOut_plane_img (d : Dev) (i l : Nat) (v : Int) :
    (demandOut d i l v).plane = d.plane ∧ (demandOut d i l v).img = d.img := by
  unfold demandOut
  split <;> simp

@[simp] theorem phaseOut_plane_img (d : Dev) (l p : Nat) (v : Int) :
    (phaseOut d l p v).plane = d.plane ∧ (phaseOut d l p v).img = d.img := by
  unfold phaseOut
  (repeat' split) <;> simp

@[simp] theorem portSet_plane_img (l : Nat) (d : Dev) (k : Nat) :
    (portSet l d k).plane = d.plane ∧ (portSet l d k).img = d.img := by
  unfold portSet
  dsimp only
  (repeat' split) <;> simp

@[simp] theorem portsSet_plane_img (d : Dev) (l : Nat) :
    (portsSet d l).plane = d.plane ∧ (portsSet d l).img = d.img := by
  simp [portsSet]

@[simp] theorem swapLoop_plane_img (d : Dev) (l : Nat) (run : BitVec 32) :
    (swapLoop d l run).plane = d.plane ∧ (swapLoop d l run).img = d.img := by
  unfold swapLoop
  split <;> simp

@[simp] theorem disableLoop_plane_img (d : Dev) (l : Nat) :
    (disableLoop d l).plane = d.plane ∧ (disableLoop d l).img = d.img := by
  unfold disableLoop
  split <;> simp

@[simp] theorem disableRailLoops_plane_img (d : Dev) (i : Nat) :
    (disableRailLoops d i).plane = d.plane ∧ (disableRailLoops d i).img = d.img := by
  simp [disableRailLoops]

@[simp] theorem dischargeOff_plane_img (d : Dev) (i : Nat) :
    (dischargeOff d i).plane = d.plane ∧ (dischargeOff d i).img = d.img := by
  unfold dischargeOff
  split <;> simp

@[simp] theorem elementOff_plane_img (d : Dev) (t i result : Nat) :
    (elementOff d t i result).plane = d.plane ∧ (elementOff d t i result).img = d.img := by
  unfold elementOff
  dsimp only
  (repeat' split) <;> simp

@[simp] theorem gatesLow_plane_img (d : Dev) (i : Nat) :
    (gatesLow d i).plane = d.plane ∧ (gatesLow d i).img = d.img := by
  simp [gatesLow]

@[simp] theorem railOff_plane_img (d : Dev) (i : Nat) :
    (railOff d i).plane = d.plane ∧ (railOff d i).img = d.img := by
  simp [railOff]

@[simp] theorem stepEnds_plane_img (d : Dev) (q s : Nat) :
    (stepEnds d q s).plane = d.plane ∧ (stepEnds d q s).img = d.img := by
  unfold stepEnds
  dsimp only
  (repeat' split) <;> simp

@[simp] theorem drivePin_plane_img (d : Dev) (st : List Word) (active : Bool) :
    (drivePin d st active).plane = d.plane ∧ (drivePin d st active).img = d.img := by
  unfold drivePin
  split <;> simp

@[simp] theorem Dev.endEnables_plane_img (d : Dev) (h : Word) (st : Status) :
    (Dev.endEnables d h st).plane = d.plane ∧ (Dev.endEnables d h st).img = d.img := by
  simp [Dev.endEnables]

@[simp] theorem chanOff_plane_img (d : Dev) (c : Nat) :
    (chanOff d c).plane = d.plane ∧ (chanOff d c).img = d.img := by
  unfold chanOff
  dsimp only
  (repeat' split) <;> simp

@[simp] theorem chanPgOff_plane_img (d : Dev) (c : Nat) :
    (chanPgOff d c).plane = d.plane ∧ (chanPgOff d c).img = d.img := by
  unfold chanPgOff
  split <;> simp

@[simp] theorem chanStop_plane_img (d : Dev) (c : Nat) :
    (chanStop d c).plane = d.plane ∧ (chanStop d c).img = d.img := by
  unfold chanStop
  dsimp only
  (repeat' split) <;> simp

@[simp] theorem dischargeOn_plane_img (d : Dev) (i : Nat) :
    (dischargeOn d i).plane = d.plane ∧ (dischargeOn d i).img = d.img := by
  unfold dischargeOn
  split <;> simp

@[simp] theorem enterPhase_plane_img (d : Dev) (i p : Nat) (st : PhaseState) (at_ : Nat) :
    (enterPhase d i p st at_).plane = d.plane ∧ (enterPhase d i p st at_).img = d.img := by
  unfold enterPhase
  (repeat' split) <;> simp

@[simp] theorem railPgOff_plane_img (d : Dev) (i : Nat) :
    (railPgOff d i).plane = d.plane ∧ (railPgOff d i).img = d.img := by
  unfold railPgOff
  split <;> simp

@[simp] theorem railStop_plane_img (d : Dev) (i : Nat) :
    (railStop d i).plane = d.plane ∧ (railStop d i).img = d.img := by
  unfold railStop
  simp [apply_ite Dev.plane, apply_ite Dev.img]

@[simp] theorem elemStop_plane_img (d : Dev) (h : Word) :
    (elemStop d h).plane = d.plane ∧ (elemStop d h).img = d.img := by
  unfold elemStop
  split <;> simp

@[simp] theorem stopStep_plane_img (d : Dev) (q s : Nat) :
    (stopStep d q s).plane = d.plane ∧ (stopStep d q s).img = d.img := by
  unfold stopStep
  dsimp only
  (repeat' split) <;> simp

@[simp] theorem downFrom_plane_img (fuel : Nat) (d : Dev) (q below : Nat) (first : Bool) :
    (downFrom fuel d q below first).plane = d.plane ∧ (downFrom fuel d q below first).img = d.img := by
  induction fuel generalizing d below first with
  | zero => exact ⟨rfl, rfl⟩
  | succ n ih =>
    unfold downFrom
    split
    · simp
    · dsimp only
      (repeat' split) <;> simp [ih]

@[simp] theorem seqAdvance_plane_img (d : Dev) (q below : Nat) (first : Bool) :
    (seqAdvance d q below first).plane = d.plane ∧ (seqAdvance d q below first).img = d.img := by
  simp [seqAdvance]

@[simp] theorem seqOff_plane_img (d : Dev) (q cause : Nat) (brown : Option Nat) :
    (seqOff d q cause brown).plane = d.plane ∧ (seqOff d q cause brown).img = d.img := by
  unfold seqOff
  dsimp only
  (repeat' split) <;> simp

@[simp] theorem releaseStuck_plane_img (d : Dev) :
    (releaseStuck d).plane = d.plane ∧ (releaseStuck d).img = d.img := by
  unfold releaseStuck
  simp [apply_ite Dev.plane, apply_ite Dev.img]

@[simp] theorem abortEnables_plane_img (d : Dev) :
    (abortEnables d).plane = d.plane ∧ (abortEnables d).img = d.img := by
  simp [abortEnables]

@[simp] theorem railTaken_plane_img (d : Dev) (i : Nat) :
    (railTaken d i).plane = d.plane ∧ (railTaken d i).img = d.img := by
  unfold railTaken
  dsimp only
  (repeat' split) <;> simp

@[simp] theorem Dev.freeBits_plane_img (d : Dev) (n : Nat) :
    (Dev.freeBits d n).2.plane = d.plane ∧ (Dev.freeBits d n).2.img = d.img := by
  simp [Dev.freeBits]

@[simp] theorem Dev.recordTick_plane_img (d : Dev) :
    (Dev.recordTick d).2.plane = d.plane ∧ (Dev.recordTick d).2.img = d.img := by
  unfold Dev.recordTick
  split <;> simp

@[simp] theorem writeRailRecord_plane_img (d : Dev) (i cause pos : Nat) (before : RailRun) :
    (writeRailRecord d i cause pos before).plane = d.plane ∧ (writeRailRecord d i cause pos before).img = d.img := by
  unfold writeRailRecord
  split <;> simp


/-! ### The chain -/

/-- The plane without the chain of down orders and stops. -/
def Plane.sansChain (p : Plane) : Plane := { p with downOrders := [], downRunning := none, stopList := [], stopping := none }

theorem Plane.sansChain_stops (p : Plane) (stops : List (Nat × Nat)) (stopping : Option (Nat × Nat)) :
    ({ p with stopList := stops, stopping := stopping } : Plane).sansChain = p.sansChain := rfl

theorem Plane.sansChain_orders (p : Plane) (orders : List Nat) (running : Option Nat) :
    ({ p with downOrders := orders, downRunning := running } : Plane).sansChain = p.sansChain := rfl

/-- An update of the chain alone is not seen without the chain. -/
theorem chainUpdate_img {d e : Dev} {p : Plane} (hp : p.sansChain = e.plane.sansChain) (h : e.plane = d.plane ∧ e.img = d.img) :
    ({ e with plane := p } : Dev).plane.sansChain = d.plane.sansChain ∧ ({ e with plane := p } : Dev).img = d.img :=
  ⟨hp.trans (congrArg Plane.sansChain h.1), h.2⟩

theorem stopNext_nil (d : Dev) : stopNext [] d = { d with plane := { d.plane with stopList := [], stopping := none } } := rfl

theorem stopNext_past {t i : Nat} {rest : List (Nat × Nat)} {d : Dev}
    (h : (elemGone d t i || (d.seqNaming (d.handleOf t i)).isSome) = true) : stopNext ((t, i) :: rest) d = stopNext rest d := by
  rw [stopNext, if_pos h]

theorem stopNext_chain_img (l : List (Nat × Nat)) (d : Dev) :
    (stopNext l d).plane.sansChain = d.plane.sansChain ∧ (stopNext l d).img = d.img := by
  induction l generalizing d with
  | nil => exact chainUpdate_img (Plane.sansChain_stops _ _ _) ⟨rfl, rfl⟩
  | cons p l ih =>
    obtain ⟨t, i⟩ := p
    have hstop := elemStop_plane_img d (d.handleOf t i)
    by_cases hpast : (elemGone d t i || (d.seqNaming (d.handleOf t i)).isSome) = true
    · exact (stopNext_past hpast).symm ▸ ih d
    · by_cases hgone : elemGone (elemStop d (d.handleOf t i)) t i = true
      · rw [stopNext_gone t i l d hpast hgone, (ih _).1, (ih _).2, hstop.1, hstop.2]; exact ⟨rfl, rfl⟩
      · rw [stopNext_waits t i l d hpast hgone]; exact chainUpdate_img (Plane.sansChain_stops _ _ _) hstop

/-- One sequence of the chain takes its off request. -/
def orderOff (d : Dev) (q : Nat) : Dev := if d.live tSeq q then seqOff d q (if d.plane.takeover then 4 else 5) none else d

theorem orderNext_cons (q : Nat) (rest : List Nat) (d : Dev) : orderNext (q :: rest) d =
    if ((orderOff d q).sq q).run = .falling ∧ (orderOff d q).live tSeq q = true then
      { orderOff d q with plane := { (orderOff d q).plane with downOrders := rest, downRunning := some q } }
    else orderNext rest (orderOff d q) := rfl

@[simp] theorem orderOff_plane_img (d : Dev) (q : Nat) : (orderOff d q).plane = d.plane ∧ (orderOff d q).img = d.img := by
  unfold orderOff
  split <;> simp

theorem orderNext_chain_img (l : List Nat) (d : Dev) :
    (orderNext l d).plane.sansChain = d.plane.sansChain ∧ (orderNext l d).img = d.img := by
  induction l generalizing d with
  | nil => exact stopNext_chain_img _ { d with plane := { d.plane with downOrders := [], downRunning := none } }
  | cons q l ih =>
    have hoff := orderOff_plane_img d q
    rw [orderNext_cons]
    split
    · exact chainUpdate_img (Plane.sansChain_orders _ _ _) hoff
    · rw [(ih _).1, (ih _).2, hoff.1, hoff.2]; exact ⟨rfl, rfl⟩

theorem chainCheck_chain_img (d : Dev) :
    (chainCheck d).plane.sansChain = d.plane.sansChain ∧ (chainCheck d).img = d.img := by
  unfold chainCheck
  (repeat' split) <;> simp [orderNext_chain_img, stopNext_chain_img]

theorem startChain_chain_img (d : Dev) (first : Nat) (others : Bool) (stops : List (Nat × Nat)) :
    (startChain d first others stops).plane.sansChain = d.plane.sansChain ∧ (startChain d first others stops).img = d.img :=
  orderNext_chain_img _ { d with plane := { d.plane with stopList := stops, stopping := none } }


/-! ### Settling -/

/-- With the plane lost the watchdog holds FAULT_N. -/
theorem wdRelease_lost {d : Dev} (h : d.plane.mgmtLost = true) : wdRelease d = d := by simp [wdRelease, h]

theorem settle_img (d : Dev) : (settle d).img = d.img := by
  have hchain := chainCheck_chain_img (releaseStuck d)
  unfold settle wdRelease
  split <;> simp [hchain]

theorem settle_takeover (d : Dev) : (settle d).plane.takeover = d.plane.takeover := by
  have hchain : (chainCheck (releaseStuck d)).plane.takeover = (releaseStuck d).plane.takeover :=
    (congrArg Plane.takeover (chainCheck_chain_img (releaseStuck d)).1 :)
  unfold settle wdRelease
  split <;> simp [hchain]

theorem settle_lost {d : Dev} (h : d.plane.mgmtLost = true) : (settle d).plane.sansChain = d.plane.sansChain := by
  have hchain := (chainCheck_chain_img (releaseStuck d)).1
  have hlost : (chainCheck (releaseStuck d)).plane.mgmtLost = true :=
    (congrArg Plane.mgmtLost hchain).trans (by simp [Plane.sansChain, h])
  rw [settle, wdRelease_lost hlost, hchain, (releaseStuck_plane_img d).1]

/-! ### The watchdog (R19, R516) and the takeover (R10) -/

@[simp] theorem setReady_running (on : Bool) (d : Dev) : (setReady on d).plane.mgmtRunning = on := by
  unfold setReady
  split
  · assumption
  · simp

@[simp] theorem mgmtHalt_running (d : Dev) : (mgmtHalt d).plane.mgmtRunning = false := setReady_running _ _

theorem restartCold_running (d : Dev) : (restartCold d).plane.mgmtRunning = false := by
  unfold restartCold
  split
  · exact setReady_running _ _
  · exact mgmtHalt_running _

theorem heartbeat_plane (d : Dev) : (heartbeat d).plane =
    { d.plane with wdArmed := true, wdCount := 0, beatThisTurn := true, mgmtLost := false, lostTurns := 0 } := by
  unfold heartbeat
  dsimp only
  split <;> simp

@[simp] theorem heartbeat_slots (d : Dev) : (heartbeat d).slots = d.slots := by
  unfold heartbeat
  dsimp only
  split <;> simp

theorem wdRelease_frame (d : Dev) : wdRelease d = { d with plane := { d.plane with wdFaultN := (wdRelease d).plane.wdFaultN } } := by
  unfold wdRelease
  split <;> rfl

theorem settle_startChain_lost {d : Dev} {first : Nat} {others : Bool} {stops : List (Nat × Nat)} (h : d.plane.mgmtLost = true) :
    (settle (startChain d first others stops)).plane.sansChain = d.plane.sansChain := by
  have hchain := (startChain_chain_img d first others stops).1
  have hlost : (startChain d first others stops).plane.mgmtLost = d.plane.mgmtLost := (congrArg Plane.mgmtLost hchain :)
  rw [settle_lost (hlost.trans h), hchain]

/-- The plane as it is lost under DOWN: MGMT_LOST is raised and the watchdog holds FAULT_N. -/
def lostDown (d : Dev) : Dev :=
  let d := Dev.raise { d with plane := { d.plane with mgmtLost := true, lostTurns := 0 } } 0x1204 2 0
  { d with plane := { d.plane with wdFaultN := true } }

theorem wdTimeout_due {su : Setup} {d : Dev} (harmed : d.plane.wdArmed = true) (hlost : d.plane.mgmtLost = false)
    (hcount : max 1 su.wdTurns.toNat ≤ d.plane.wdCount) :
    (d.plane.wdArmed && !d.plane.mgmtLost && decide (su.turns ≤ d.plane.wdCount)) = true := by
  simp [harmed, hlost, Setup.turns, hcount]

theorem wdTimeout_hold {su : Setup} {d : Dev} (harmed : d.plane.wdArmed = true) (hlost : d.plane.mgmtLost = false)
    (hcount : max 1 su.wdTurns.toNat ≤ d.plane.wdCount) (hdown : su.wdDown = false) :
    wdTimeout su d = Dev.raise { d with plane := { d.plane with mgmtLost := true, lostTurns := 0 } } 0x1204 1 0 := by
  exact (if_pos (wdTimeout_due harmed hlost hcount)).trans (if_neg (ne_true_of_eq_false hdown))

theorem wdTimeout_down {su : Setup} {d : Dev} (harmed : d.plane.wdArmed = true) (hlost : d.plane.mgmtLost = false)
    (hcount : max 1 su.wdTurns.toNat ≤ d.plane.wdCount) (hdown : su.wdDown = true) :
    wdTimeout su d = if (lostDown d).plane.takeover then settle (lostDown d)
      else settle (startChain (lostDown d) su.wdSeq.toNat (!(lostDown d).live tSeq su.wdSeq.toNat) []) := by
  exact (if_pos (wdTimeout_due harmed hlost hcount)).trans (if_pos hdown)

theorem lostDown_plane (d : Dev) :
    (lostDown d).plane = { d.plane with mgmtLost := true, lostTurns := 0, wdFaultN := true } := by
  simp [lostDown]

theorem wdColdStart_due {su : Setup} {d : Dev} (hlost : d.plane.mgmtLost = true) (hdown : su.wdDown = false)
    (hturns : 4 * max 1 su.wdTurns.toNat ≤ d.plane.lostTurns) (hstart : d.img.start = none) :
    wdColdStart su d = restartCold { d with plane := { d.plane with lostTurns := 0 }, pow := { d.pow with wdStart := true } } := by
  have hdue : (!su.wdDown && d.plane.mgmtLost && decide (4 * su.turns ≤ d.plane.lostTurns) && d.img.start.isNone) = true := by
    simp [hdown, hlost, hstart, Setup.turns, hturns]
  exact if_pos hdue

/-- The device as a takeover begins, before the records, the rails and the orders (R10). -/
def takenOver (d : Dev) : Dev :=
  { d with
    plane := { d.plane with takeover := true, hearthRestarted := false }
    img := { d.img with start := none, fbDue := none } }

/-- The running or faulted rails, whose records a takeover writes. -/
def upRails (d : Dev) : List Nat := (d.liveIndices tRail).filter fun i => (d.rail i).run.running || (d.rail i).run == .faulted

/-- The device as a takeover has written the records and taken the rails. -/
def railsTaken (d : Dev) : Dev :=
  let e := (upRails d).foldl (fun d i => writeRailRecord d i 0x000A 0xFF (d.rail i).run) (abortEnables (takenOver d))
  (e.liveIndices tRail).foldl railTaken { e with thr := { e.thr with loops := tmapAll {} e.thr.loops fun _ r => { r with awaiting := [] } } }

theorem flueTakeover_trained {su : Setup} {d : Dev} (htake : d.plane.takeover = false) (h : d.pow.phase = .image ∨ d.pow.phase = .up) :
    flueTakeover su d = settle (startChain (railsTaken d) su.flueSeq.toNat true stopOrder) := by
  have hidle : ¬ (d.plane.takeover || !(d.pow.phase == .image || d.pow.phase == .up || d.pow.hearth)) = true := by
    rcases h with h | h <;> simp [h, htake]
  exact if_neg hidle

theorem railsTaken_plane_img (d : Dev) : (railsTaken d).plane = (takenOver d).plane ∧ (railsTaken d).img = (takenOver d).img := by
  have hrecords := foldl_plane_img (l := upRails d) (d := abortEnables (takenOver d))
    (f := fun d i => writeRailRecord d i 0x000A 0xFF (d.rail i).run) fun d i => writeRailRecord_plane_img d i _ _ _
  refine ⟨?_, ?_⟩
  · exact (foldl_plane_img railTaken_plane_img).1.trans (hrecords.1.trans (abortEnables_plane_img _).1)
  · exact (foldl_plane_img railTaken_plane_img).2.trans (hrecords.2.trans (abortEnables_plane_img _).2)

/-- Settles O23: each clause by the equation of its event; what a timeout or a takeover sets stands through the chain of orders. -/
theorem watchdogs : Obligations.Watchdogs := by
  unfold Obligations.Watchdogs
  refine ⟨fun s hrun => ?_, fun s harmed hlost hcount hdown => .congr rfl (wdTimeout_hold harmed hlost hcount hdown),
    fun s harmed hlost hcount hdown => ?_, fun s hlost hdown hturns hstart => ?_, fun s => rfl, fun s htake hphase => ?_⟩
  · refine ⟨_, .congr rfl (if_pos hrun), ?_⟩
    have hplane := heartbeat_plane (s.dev.tally 44 7 1)
    rw [wdRelease_frame]
    simp [hplane]
  · have hplane : (wdTimeout s.setup s.dev).plane.sansChain = (lostDown s.dev).plane.sansChain := by
      rw [wdTimeout_down harmed hlost hcount hdown]
      split
      · exact settle_lost (by simp [lostDown_plane])
      · exact settle_startChain_lost (by simp [lostDown_plane])
    rw [lostDown_plane] at hplane
    exact ⟨_, rfl, (congrArg Plane.mgmtLost hplane :), (congrArg Plane.wdFaultN hplane :), wdTimeout_wheel _ _⟩
  · have heq := wdColdStart_due hlost hdown hturns hstart
    refine ⟨wdColdStart s.setup s.dev, rfl, ?_, ?_, wdColdStart_wheel _ _⟩
    · rw [heq]
      exact (congrArg (·.pow.wdStart) (restartCold_sansImage _) :)
    · rw [heq]
      exact restartCold_running _
  · obtain ⟨hplane, himg⟩ := railsTaken_plane_img s.dev
    generalize hrails : railsTaken s.dev = e at hplane himg
    have hchain := startChain_chain_img e s.setup.flueSeq.toNat true stopOrder
    have htaken : (startChain e s.setup.flueSeq.toNat true stopOrder).plane.takeover = e.plane.takeover :=
      (congrArg Plane.takeover hchain.1 :)
    refine ⟨flueTakeover s.setup s.dev, rfl, ?_, ?_, flueTakeover_wheel _ _⟩
    · rw [flueTakeover_trained htake hphase, hrails, settle_takeover, htaken, hplane]
      rfl
    · rw [flueTakeover_trained htake hphase, hrails, settle_img, hchain.2, himg]
      rfl

end Sys2Proof.Machine
end

/-! ## The Wheel -/

section
/-! PROOF. A turn boundary, a missed edge and a mains edge, each by the equation of the Wheel in its state. -/

namespace Sys2Proof.Machine

/-! ### The turn boundary (R30, R36 to R39, R42) -/

theorem Wheel.advance_frame (su : Setup) (w : Wheel) : w.advance su = { w with
    turn := w.turn + 1, tick := 0, missedTurn := 0
    coastEnded := w.coastFlag, slewEnded := w.slewFlag
    coastRound := w.coastRound || w.coastFlag, slewRound := w.slewRound || w.slewFlag
    coastFlag := w.state == .free || w.state == .acquire || w.state == .coast
    slewFlag := w.state == .slew
    nominal60 := su.wheelNominal, delay := su.wheelDelay, src := su.wheelSrc
    input := if su.wheelSrc = w.src then w.input else su.wheelSrc == 1
    switchPending := if su.wheelSrc = w.src then w.switchPending else false
    held := (w.advance su).held, period := (w.advance su).period } := by
  unfold Wheel.advance
  by_cases hsrc : su.wheelSrc = w.src
  · simp only [hsrc, if_true]
    split <;> rfl
  · simp only [hsrc, if_false]
    split <;> rfl

theorem Wheel.switched_frame (now : Nat) (w : Wheel) : w.switched now = { w with
    input := (w.switched now).input, switchPending := (w.switched now).switchPending, switches := (w.switched now).switches } := by
  unfold Wheel.switched
  split <;> rfl

theorem Wheel.switched_pending (now : Nat) {w : Wheel} (h : w.switchPending = true) :
    w.switched now = { w with input := !w.input, switchPending := false, switches := satAdd 8 w.switches 1 } :=
  if_pos (by simp [h])

/-- The Wheel of the turn that begins, before its round is looked at. -/
def Wheel.begun (w : Wheel) (su : Setup) (now : Nat) : Wheel := (w.advance su).switched now

theorem Wheel.afterBoundary_mid {w : Wheel} (su : Setup) (now : Nat) (h : (w.turn + 1 - w.base).toNat % max 1 w.length.toNat ≠ 0) :
    w.afterBoundary su now = w.begun su now := by
  refine if_neg ?_
  rw [Wheel.switched_frame, Wheel.advance_frame]
  simpa [Wheel.atRoundBoundary] using h

theorem Wheel.afterBoundary_round {w : Wheel} (su : Setup) (now : Nat) (h : (w.turn + 1 - w.base).toNat % max 1 w.length.toNat = 0) :
    w.afterBoundary su now = ({ w.begun su now with coastRound := false, slewRound := false } : Wheel).applyLength := by
  refine if_pos ?_
  rw [Wheel.switched_frame, Wheel.advance_frame]
  simpa [Wheel.atRoundBoundary] using h

theorem Wheel.applyLength_keep {w : Wheel} (h : w.lengthChange = false) :
    ({ w with coastRound := false, slewRound := false } : Wheel).applyLength = { w with coastRound := false, slewRound := false } :=
  if_neg (ne_true_of_eq_false h)

theorem Wheel.applyLength_change {w : Wheel} (h : w.lengthChange = true) :
    ({ w with coastRound := false, slewRound := false } : Wheel).applyLength =
      { w with coastRound := false, slewRound := false, length := w.lengthPending, base := w.turn, lengthChange := false } :=
  if_pos h

theorem Wheel.applyLength_flags (w : Wheel) : w.applyLength.coastRound = w.coastRound ∧ w.applyLength.slewRound = w.slewRound := by
  unfold Wheel.applyLength
  split <;> exact ⟨rfl, rfl⟩

/-- A turn boundary leaves of the turn's Wheel all but the round. -/
theorem Wheel.afterBoundary_frame (w : Wheel) (su : Setup) (now : Nat) : ∃ coast slew len base change, w.afterBoundary su now =
    { w.begun su now with coastRound := coast, slewRound := slew, length := len, base := base, lengthChange := change } := by
  by_cases h : (w.turn + 1 - w.base).toNat % max 1 w.length.toNat = 0
  · rw [Wheel.afterBoundary_round su now h]
    unfold Wheel.applyLength
    split
    · exact ⟨_, _, _, _, _, rfl⟩
    · exact ⟨_, _, _, _, _, rfl⟩
  · exact ⟨_, _, _, _, _, Wheel.afterBoundary_mid su now h⟩

/-- Settles O27: the turn's Wheel by what the advance and the switch of the input leave of it, the round by whether the boundary is one. -/
theorem turnBoundaries : Obligations.TurnBoundaries := by
  unfold Obligations.TurnBoundaries
  intro s time
  refine ⟨s.dev.atTick 0 (turnBoundary s.setup time), rfl, ?_⟩
  have hwheel : (s.dev.atTick 0 (turnBoundary s.setup time)).wheel = s.dev.wheel.afterBoundary s.setup (max s.dev.now time) := by
    simp [Dev.atTick, turnBoundary_wheel_eq]
  generalize s.dev.atTick 0 (turnBoundary s.setup time) = d at hwheel ⊢
  generalize s.dev.wheel = w at hwheel ⊢
  generalize s.setup = su at hwheel ⊢
  generalize max s.dev.now time = now at hwheel ⊢
  rw [hwheel]
  obtain ⟨coast, slew, len, base, change, hframe⟩ := w.afterBoundary_frame su now
  have hbegun : w.begun su now = _ := (w.advance su).switched_frame now
  rw [Wheel.advance_frame] at hbegun
  refine ⟨by rw [hframe, hbegun], by rw [hframe, hbegun], by rw [hframe, hbegun], by rw [hframe, hbegun], by rw [hframe, hbegun],
    by rw [hframe, hbegun], by rw [hframe, hbegun], by rw [hframe, hbegun], by rw [hframe, hbegun], by rw [hframe, hbegun],
    by rw [hframe, hbegun], by rw [hframe, hbegun], by rw [hframe, hbegun], by rw [hframe, hbegun], ?_, ?_, ?_, ?_⟩
  · intro hsrc hsu hpending
    have hstays : (w.advance su).switchPending = true := by rw [Wheel.advance_frame]; simp [hsrc, hsu, hpending]
    have hswitched : w.begun su now = _ := Wheel.switched_pending now hstays
    rw [hframe, hswitched, Wheel.advance_frame]
    simp [hsrc, hsu, satAdd]
  · intro hno
    by_cases hround : (w.turn + 1 - w.base).toNat % max 1 w.length.toNat = 0
    · have hkeep : (w.begun su now).lengthChange = false := by rw [hbegun]; exact hno.resolve_left (not_not_intro hround)
      rw [Wheel.afterBoundary_round su now hround, Wheel.applyLength_keep hkeep, hbegun]
      exact ⟨rfl, rfl⟩
    · rw [Wheel.afterBoundary_mid su now hround, hbegun]
      exact ⟨rfl, rfl⟩
  · intro hround hchange
    have hpending : (w.begun su now).lengthChange = true := by rw [hbegun]; exact hchange
    rw [Wheel.afterBoundary_round su now hround, Wheel.applyLength_change hpending, hbegun]
    exact ⟨rfl, rfl, rfl⟩
  · intro hround
    rw [Wheel.afterBoundary_round su now hround]
    exact Wheel.applyLength_flags _

/-! ### The missed edge (R31, R33, R35) -/

theorem raiseWheelState_frame (d : Dev) (old : WheelState) : d.raiseWheelState old =
    { d with host := (d.raiseWheelState old).host, tal := (d.raiseWheelState old).tal, sag := (d.raiseWheelState old).sag } := by
  unfold Dev.raiseWheelState
  split
  · rfl
  · exact raise_frame _ _ _ _

/-- The Wheel as a SLEW or LOCKED window ends without a valid edge. -/
def Wheel.missedOne (w : Wheel) : Wheel :=
  { w with missed := satAdd 12 w.missed 1, missedRow := w.missedRow + 1, missedTurn := w.missedTurn + 1, r := slewTowardZero w.r }

theorem missedEdge_counted {d : Dev} (h : d.wheel.state = .slew ∨ d.wheel.state = .locked) : missedEdge d =
    (Dev.raiseOnceTurn { d with wheel := if d.wheel.missedRow + 1 = 2 then d.wheel.missedOne.loseLock else d.wheel.missedOne }
      0x0103 0x0103 (d.wheel.missedTurn + 1) 0).raiseWheelState d.wheel.state := if_pos h

/-- Settles O26: a missed edge counts and loses the lock at the second in a row; the two events leave the Wheel. -/
theorem missedEdges : Obligations.MissedEdges := by
  unfold Obligations.MissedEdges
  refine ⟨fun s hslew hlocked => .congr rfl (if_neg (not_or_intro hslew hlocked)), fun s hstate => ?_⟩
  refine ⟨_, .congr rfl (missedEdge_counted hstate), ?_⟩
  rw [raiseWheelState_frame, raiseOnceTurn_frame]
  refine ⟨rfl, ?_⟩
  by_cases hsecond : s.dev.wheel.missedRow = 1
  · have hcount : s.dev.wheel.missedRow + 1 = 2 := by omega
    simp only [hcount, if_true]
    refine ⟨rfl, rfl, rfl, rfl, fun hne => absurd hsecond hne, fun _ => ⟨rfl, by simp [Wheel.loseLock, Wheel.enter], rfl, fun hnever => ?_⟩⟩
    simp [Wheel.loseLock, Wheel.enter, Wheel.missedOne, hnever, nominalPeriod]
  · have hcount : s.dev.wheel.missedRow + 1 ≠ 2 := by omega
    simp only [hcount, if_false]
    exact ⟨rfl, rfl, rfl, rfl, fun _ => ⟨rfl, rfl, rfl, rfl⟩, fun h => absurd h hsecond⟩

/-! ### The mains edge (R28 to R33) -/

/-- A rounding whose direction is open is off by less than one. -/
theorem roundOpen_near (n : Int) {den : Nat} (h : 0 < den) :
    -(den : Int) < den * roundOpen n den - n ∧ den * roundOpen n den - n < den := by
  have hdiv := Int.mul_ediv_add_emod n den
  have hlow : 0 ≤ n % (den : Int) := Int.emod_nonneg n (by omega)
  have hhigh : n % (den : Int) < den := Int.emod_lt_of_pos n (by omega)
  unfold roundOpen
  split
  · omega
  · rw [mul_add]
    split <;> omega

/-- The fields that a noted edge and a valid edge leave as they are. -/
theorem Wheel.edgeNoted_frame (w : Wheel) (ac valid : Bool) (time comp : Nat) : w.edgeNoted ac valid time comp =
    { w with mains := (w.edgeNoted ac valid time comp).mains, acSense := (w.edgeNoted ac valid time comp).acSense } := by
  cases ac <;> rfl

theorem Wheel.edgeNoted_inputOf_self (w : Wheel) (ac valid : Bool) (time comp : Nat) : (w.edgeNoted ac valid time comp).inputOf ac =
    { w.inputOf ac with
      lastRaw := some time, lastComp := some comp, lastValid := if valid then some comp else (w.inputOf ac).lastValid } := by
  cases ac <;> rfl

theorem Wheel.edgeNoted_inputOf_not (w : Wheel) (ac valid : Bool) (time comp : Nat) :
    (w.edgeNoted ac valid time comp).inputOf (!ac) = w.inputOf (!ac) := by
  cases ac <;> rfl

theorem Wheel.acquireEdge_frame (w : Wheel) (period : Option Nat) : w.acquireEdge period =
    { w with runEdges := (w.acquireEdge period).runEdges, runPeriods := (w.acquireEdge period).runPeriods } := by
  unfold Wheel.acquireEdge
  split
  · rfl
  · rfl
  · split <;> rfl

theorem Wheel.validEdge_kept (w : Wheel) (e : Int) (period : Option Nat) :
    (w.validEdge e period).turn = w.turn ∧ (w.validEdge e period).length = w.length ∧ (w.validEdge e period).base = w.base ∧
    (w.validEdge e period).missedRow = 0 ∧ (w.validEdge e period).rejected = w.rejected ∧
    (w.validEdge e period).mains = w.mains ∧ (w.validEdge e period).acSense = w.acSense := by
  unfold Wheel.validEdge
  dsimp only
  rw [Wheel.acquireEdge_frame]
  split
  · exact ⟨rfl, rfl, rfl, rfl, rfl, rfl, rfl⟩
  · exact ⟨rfl, rfl, rfl, rfl, rfl, rfl, rfl⟩
  · (repeat' split) <;> exact ⟨rfl, rfl, rfl, rfl, rfl, rfl, rfl⟩
  · split <;> exact ⟨rfl, rfl, rfl, rfl, rfl, rfl, rfl⟩
  · split <;> exact ⟨rfl, rfl, rfl, rfl, rfl, rfl, rfl⟩

/-- A valid edge in FREE or COAST begins a run in ACQUIRE. -/
theorem Wheel.validEdge_begins {w : Wheel} (e : Int) (period : Option Nat) (h : w.state = .free ∨ w.state = .coast) :
    (w.validEdge e period).state = .acquire ∧ (w.validEdge e period).runEdges = 1 ∧ (w.validEdge e period).period = w.period := by
  rcases h with h | h <;> simp [Wheel.validEdge, h, Wheel.enter]

theorem Wheel.validEdge_slew {w : Wheel} (e : Int) (period : Option Nat) (h : w.state = .slew) :
    (w.validEdge e period).period = w.period ∧
    (-64 ≤ e ∧ e ≤ 64 → (w.validEdge e period).state = .locked ∧ (w.validEdge e period).r = 0) ∧
    (¬(-64 ≤ e ∧ e ≤ 64) → (w.validEdge e period).state = .slew ∧ (w.validEdge e period).r = e) := by
  by_cases hnear : -64 ≤ e ∧ e ≤ 64
  · simp [Wheel.validEdge, h, hnear, Wheel.enter]
  · simp [Wheel.validEdge, h, if_neg hnear]
    omega

theorem Wheel.validEdge_locked {w : Wheel} (e : Int) (period : Option Nat) (h : w.state = .locked) :
    (w.validEdge e period).period = (w.period + roundOpen ((period.getD w.period : Int) - w.period) 8).toNat ∧
    (-1024 ≤ e ∧ e ≤ 1024 → (w.validEdge e period).state = .locked) ∧
    (¬(-1024 ≤ e ∧ e ≤ 1024) → (w.validEdge e period).state = .slew ∧ (w.validEdge e period).r = e) := by
  by_cases hnear : -1024 ≤ e ∧ e ≤ 1024
  · simp [Wheel.validEdge, h, hnear]
  · simp [Wheel.validEdge, h, if_neg hnear, Wheel.enter]
    omega

/-- The Wheel with an accepted edge in its period list. -/
def Wheel.counted (w : Wheel) (period : Option Nat) : Wheel :=
  { w with missedRow := 0, lastPeriods := ((match period with | some p => [p] | none => []) ++ w.lastPeriods).take 8 }

theorem Wheel.acquireEdge_counted (w : Wheel) (period last : Option Nat) :
    ((w.counted last).acquireEdge period).state = (w.acquireEdge period).state ∧
    ((w.counted last).acquireEdge period).runEdges = (w.acquireEdge period).runEdges ∧
    ((w.counted last).acquireEdge period).runPeriods = (w.acquireEdge period).runPeriods := by
  unfold Wheel.acquireEdge Wheel.counted
  cases period with
  | none => exact ⟨rfl, rfl, rfl⟩
  | some t =>
    cases w.runPeriods with
    | nil => exact ⟨rfl, rfl, rfl⟩
    | cons p ps =>
      dsimp only
      split <;> exact ⟨rfl, rfl, rfl⟩

/-- What a run of eight edges leaves: LOCKED where the edge is near, else SLEW from its error. -/
def Wheel.acquired (w : Wheel) (e : Int) : Wheel :=
  let w := { w with period := meanPeriod w.runPeriods w.period, runEdges := 0, runPeriods := [] }
  if -64 ≤ e ∧ e ≤ 64 then { (w.enter .locked) with r := 0 } else { (w.enter .slew) with r := e }

theorem Wheel.validEdge_eq_acquire {w : Wheel} (e : Int) (period : Option Nat) (h : w.state = .acquire) : w.validEdge e period =
    if ((w.counted period).acquireEdge period).runEdges = 8 then ((w.counted period).acquireEdge period).acquired e
    else (w.counted period).acquireEdge period := by
  have hstate : (w.counted period).state = .acquire := h
  unfold Wheel.validEdge
  change (match (w.counted period).state with | .free => _ | .coast => _ | .acquire => _ | .slew => _ | .locked => _) = _
  rw [hstate]
  rfl

/-- A valid edge in ACQUIRE that does not complete its run. -/
theorem Wheel.validEdge_acquire {w : Wheel} (e : Int) {period : Option Nat} (h : w.state = .acquire)
    (hrun : (w.acquireEdge period).runEdges ≠ 8) :
    (w.validEdge e period).state = .acquire ∧ (w.validEdge e period).runEdges = (w.acquireEdge period).runEdges ∧
    (w.validEdge e period).runPeriods = (w.acquireEdge period).runPeriods := by
  obtain ⟨hstate, hedges, hperiods⟩ := w.acquireEdge_counted period period
  rw [Wheel.validEdge_eq_acquire e period h, if_neg (hedges ▸ hrun)]
  exact ⟨hstate.trans (by rw [Wheel.acquireEdge_frame]; exact h), hedges, hperiods⟩

/-- The eighth edge of a run ends ACQUIRE. -/
theorem Wheel.validEdge_acquired {w : Wheel} (e : Int) {period : Option Nat} (h : w.state = .acquire)
    (hrun : (w.acquireEdge period).runEdges = 8) :
    (w.validEdge e period).state = (if -64 ≤ e ∧ e ≤ 64 then .locked else .slew) ∧
    (w.validEdge e period).r = (if -64 ≤ e ∧ e ≤ 64 then 0 else e) := by
  rw [Wheel.validEdge_eq_acquire e period h, if_pos ((w.acquireEdge_counted period period).2.1.trans hrun)]
  unfold Wheel.acquired
  dsimp only
  split <;> exact ⟨rfl, rfl⟩

theorem Wheel.acquireEdge_none (w : Wheel) : w.acquireEdge none = { w with runEdges := 1, runPeriods := [] } := rfl

theorem Wheel.acquireEdge_first {w : Wheel} (t : Nat) (h : w.runPeriods = []) :
    w.acquireEdge (some t) = { w with runEdges := 2, runPeriods := [t] } := by
  simp [Wheel.acquireEdge, h]

theorem Wheel.acquireEdge_next {w : Wheel} (t : Nat) {p : Nat} {ps : List Nat} (h : w.runPeriods = p :: ps)
    (hnear : 1000 * (max p t - min p t) ≤ 5 * p) :
    w.acquireEdge (some t) = { w with runEdges := w.runEdges + 1, runPeriods := t :: p :: ps } := by
  simp only [Wheel.acquireEdge, h, if_pos hnear]

theorem Wheel.acquireEdge_broken {w : Wheel} (t : Nat) {p : Nat} {ps : List Nat} (h : w.runPeriods = p :: ps)
    (hfar : 5 * p < 1000 * (max p t - min p t)) :
    w.acquireEdge (some t) = { w with runEdges := 2, runPeriods := [t] } := by
  simp only [Wheel.acquireEdge, h, if_neg (Nat.not_le.mpr hfar)]

/-! ### What an edge does to the device -/

section
variable {ac : Bool} {high time tick : Nat} {d : Dev}

theorem mainsEdge_refused (h : d.wheel.edgeTaken ac high time = false) : mainsEdge ac high time tick d = d :=
  if_pos (by simp [h])

/-- A noted edge of the other input may ask for the switch: a valid one has just been given, so only the silence of the input in use
stands in question (R30). -/
theorem Wheel.edgeNoted_mayFallBack {w : Wheel} (valid : Bool) (time comp : Nat) (h : ac ≠ w.selected) :
    (valid && (w.edgeNoted ac valid time comp).mayFallBack comp) =
      (w.src == 2 && valid && decide ((w.inputOf (!ac)).lastValid.getD 0 + 2 * w.period ≤ comp)) := by
  have hframe := w.edgeNoted_frame ac valid time comp
  have hsel : (w.edgeNoted ac valid time comp).selected = !ac := by
    have : (w.edgeNoted ac valid time comp).selected = w.selected := by rw [hframe]; rfl
    rw [this]
    cases ac <;> simpa using h.symm
  have hsrc : (w.edgeNoted ac valid time comp).src = w.src := by rw [hframe]
  have hperiod : (w.edgeNoted ac valid time comp).period = w.period := by rw [hframe]
  cases valid
  · simp
  · simp [Wheel.mayFallBack, hsel, hsrc, hperiod, Wheel.edgeNoted_inputOf_not, Wheel.edgeNoted_inputOf_self]

variable (htaken : d.wheel.edgeTaken ac high time = true)
include htaken

theorem mainsEdge_other (h : ac ≠ d.wheel.selected) : mainsEdge ac high time tick d =
    { d with wheel := { d.wheel.edgeNoted ac (d.wheel.edgeInterval ac (time - d.wheel.delay.toNat * 10)) time
        (time - d.wheel.delay.toNat * 10) with
      tick := tick
      switchPending := d.wheel.switchPending || (d.wheel.src == 2 && d.wheel.edgeInterval ac (time - d.wheel.delay.toNat * 10) &&
        decide ((d.wheel.inputOf (!ac)).lastValid.getD 0 + 2 * d.wheel.period ≤ time - d.wheel.delay.toNat * 10)) } } := by
  have hpending : ∀ valid comp, (d.wheel.edgeNoted ac valid time comp).switchPending = d.wheel.switchPending := by
    intro valid comp
    rw [Wheel.edgeNoted_frame]
  have hne : (ac != d.wheel.selected) = true := by simpa using h
  simp only [mainsEdge, htaken, hne, if_neg h, hpending]
  simp
  rw [Wheel.edgeNoted_mayFallBack _ _ _ h]
  rfl

theorem mainsEdge_invalid (h : ac = d.wheel.selected)
    (hbad : (d.wheel.edgeInterval ac (time - d.wheel.delay.toNat * 10) && d.wheel.inWindow (phaseError tick)) = false) :
    mainsEdge ac high time tick d =
      { d with wheel := { d.wheel.edgeNoted ac false time (time - d.wheel.delay.toNat * 10) with
        tick := tick, rejected := min (d.wheel.rejected + 1) 4095 } } := by
  have hrejected : ∀ valid comp, (d.wheel.edgeNoted ac valid time comp).rejected = d.wheel.rejected := by
    intro valid comp
    rw [Wheel.edgeNoted_frame]
  have hsame : (ac != d.wheel.selected) = false := by simpa using h
  simp only [mainsEdge, htaken, hsame, Bool.false_or, hbad, if_pos h, hrejected]
  rfl

theorem mainsEdge_valid (h : ac = d.wheel.selected)
    (hok : (d.wheel.edgeInterval ac (time - d.wheel.delay.toNat * 10) && d.wheel.inWindow (phaseError tick)) = true) :
    mainsEdge ac high time tick d =
      Dev.raiseWheelState { d with wheel := { (d.wheel.edgeNoted ac true time (time - d.wheel.delay.toNat * 10)).validEdge
        (phaseError tick) ((d.wheel.inputOf ac).lastComp.map fun t => time - d.wheel.delay.toNat * 10 - t) with tick := tick } }
        d.wheel.state := by
  have hsame : (ac != d.wheel.selected) = false := by simpa using h
  simp only [mainsEdge, htaken, hsame, Bool.false_or, hok, if_pos h]
  rfl

end

/-- A valid edge in LOCKED moves the period by an eighth of its error, to within the rounding (R33). -/
theorem Wheel.validEdge_locked_period {w : Wheel} (e : Int) (t : Nat) (h : w.state = .locked) :
    -8 < 8 * (((w.validEdge e (some t)).period : Int) - w.period) - ((t : Int) - w.period) ∧
    8 * (((w.validEdge e (some t)).period : Int) - w.period) - ((t : Int) - w.period) < 8 := by
  have hperiod := (Wheel.validEdge_locked e (some t) h).1
  have hround := roundOpen_near ((t : Int) - w.period) (den := 8) (by decide)
  simp only [Option.getD_some] at hperiod
  omega

/-- A noted edge leaves the state, the period and the run of ACQUIRE. -/
theorem Wheel.edgeNoted_run (w : Wheel) (ac valid : Bool) (time comp : Nat) :
    (w.edgeNoted ac valid time comp).state = w.state ∧ (w.edgeNoted ac valid time comp).period = w.period ∧
    (w.edgeNoted ac valid time comp).runPeriods = w.runPeriods ∧ (w.edgeNoted ac valid time comp).runEdges = w.runEdges := by
  rw [Wheel.edgeNoted_frame]
  exact ⟨rfl, rfl, rfl, rfl⟩

/-- What a valid edge leaves and what it notes. -/
theorem Wheel.validEdge_noted (w : Wheel) (ac : Bool) (time comp : Nat) (e : Int) (period : Option Nat) :
    ((w.edgeNoted ac true time comp).validEdge e period).turn = w.turn ∧
    ((w.edgeNoted ac true time comp).validEdge e period).length = w.length ∧
    ((w.edgeNoted ac true time comp).validEdge e period).base = w.base ∧
    ((w.edgeNoted ac true time comp).validEdge e period).missedRow = 0 ∧
    ((w.edgeNoted ac true time comp).validEdge e period).rejected = w.rejected ∧
    (((w.edgeNoted ac true time comp).validEdge e period).inputOf ac).lastValid = some comp := by
  obtain ⟨hturn, hlength, hbase, hrow, hrejected, hmains, hsense⟩ := (w.edgeNoted ac true time comp).validEdge_kept e period
  have hinput : ((w.edgeNoted ac true time comp).validEdge e period).inputOf ac = (w.edgeNoted ac true time comp).inputOf ac := by
    simp only [Wheel.inputOf, hmains, hsense]
  rw [hturn, hlength, hbase, hrow, hrejected, hinput, Wheel.edgeNoted_inputOf_self, Wheel.edgeNoted_frame]
  exact ⟨rfl, rfl, rfl, rfl, rfl, rfl⟩

/-- Settles O25: an edge by whether it is taken, whose it is and whether it is valid; a valid one by the state of the Wheel. -/
theorem mainsEdges : Obligations.MainsEdges := by
  unfold Obligations.MainsEdges
  intro s ac high time tick
  refine ⟨fun hrefused => .congr rfl (mainsEdge_refused hrefused), fun htaken hother => .congr rfl (mainsEdge_other htaken hother),
    fun htaken hsame hbad => .congr rfl (mainsEdge_invalid htaken hsame hbad), fun htaken hsame hok => ?_⟩
  refine ⟨_, .congr rfl (mainsEdge_valid htaken hsame hok), ?_⟩
  dsimp only
  generalize s.dev.wheel = w
  generalize time - w.delay.toNat * 10 = comp
  generalize phaseError tick = e
  obtain ⟨hturn, hlength, hbase, hrow, hrejected, hlast⟩ := w.validEdge_noted ac time comp e ((w.inputOf ac).lastComp.map (comp - ·))
  refine ⟨hturn, hlength, hbase, hrow, hrejected, hlast, ?_⟩
  have hperiod : (w.inputOf ac).lastComp.isSome = true →
      (w.inputOf ac).lastComp.map (comp - ·) = some (comp - (w.inputOf ac).lastComp.getD 0) := by
    cases (w.inputOf ac).lastComp <;> simp
  have hnone : ¬(w.inputOf ac).lastComp.isSome = true → (w.inputOf ac).lastComp.map (comp - ·) = none := by
    cases (w.inputOf ac).lastComp <;> simp
  generalize (w.inputOf ac).lastComp.map (comp - ·) = period at hperiod hnone ⊢
  generalize comp - (w.inputOf ac).lastComp.getD 0 = T at hperiod ⊢
  obtain ⟨hstate, hper, hruns, hedges⟩ := w.edgeNoted_run ac true time comp
  generalize w.edgeNoted ac true time comp = v at hstate hper hruns hedges ⊢
  rw [← hstate, ← hper, ← hruns, ← hedges]
  refine ⟨Wheel.validEdge_begins e period, fun hslew => Wheel.validEdge_slew e period hslew, fun hlocked => ?_, fun hacq hunknown => ?_,
    fun hacq hempty hknown => ?_, fun hacq p ps hps hknown => ⟨fun hfar => ?_, fun hnear hedge => ?_, fun hnear hedge => ?_⟩⟩
  · obtain ⟨-, hin, hout⟩ := Wheel.validEdge_locked e period hlocked
    exact ⟨hin, hout, fun hknown => hperiod hknown ▸ Wheel.validEdge_locked_period e T hlocked⟩
  · rw [hnone hunknown]
    exact Wheel.validEdge_acquire e hacq (by simp [Wheel.acquireEdge_none])
  · have hfirst := Wheel.acquireEdge_first T hempty
    rw [hperiod hknown]
    simpa [hfirst] using Wheel.validEdge_acquire (period := some T) e hacq (by simp [hfirst])
  · have hbroken := Wheel.acquireEdge_broken T hps hfar
    rw [hperiod hknown]
    simpa [hbroken] using Wheel.validEdge_acquire (period := some T) e hacq (by simp [hbroken])
  · have hnext := Wheel.acquireEdge_next T hps hnear
    rw [hperiod hknown]
    simpa [hnext] using Wheel.validEdge_acquire (period := some T) e hacq (by simp [hnext]; omega)
  · have hnext := Wheel.acquireEdge_next T hps hnear
    rw [hperiod hknown]
    exact Wheel.validEdge_acquired e hacq (by simp [hnext]; omega)

end Sys2Proof.Machine
end

/-! ## Descriptors: rows, checks, the device-wide opcodes and the queries -/

section
/-! PROOF. Each row of the catalogue executes its descriptor in the same way; the checks of R76 end it with a status; and the
device-wide opcodes and the queries by their own branches. -/

namespace Sys2Proof.Machine

/-! ### The rows of the catalogue -/

/-- Each row's command is its descriptor, with its opcode's effect. -/
theorem exec_opcodeRow : ∀ r ∈ opcodeRows, ∀ (x : Desc) (s : State), exec (r.2.1 x) s = s.onDesc r.1 x r.2.2 := by
  simp only [opcodeRows, List.forall_mem_cons]
  repeat' apply And.intro
  case right => exact fun _ h => nomatch h
  all_goals exact fun _ _ => rfl

theorem opOf_opcodeRow : ∀ r ∈ opcodeRows, opOf r.1 = r.2.2 := by
  simp only [opcodeRows, List.forall_mem_cons]
  repeat' apply And.intro
  case right => exact fun _ h => nomatch h
  all_goals rfl

theorem opcodeRow_catalogue : ∀ r ∈ opcodeRows, catalogue.contains r.1 = true := by
  simp only [opcodeRows, List.forall_mem_cons]
  repeat' apply And.intro
  case right => exact fun _ h => nomatch h
  all_goals decide

section
variable {op : Nat} {x : Desc} {s : State} {f : OpFn} {c : Instr}

/-- A descriptor that begins and fails a check ends with that check's status. -/
theorem completes_of_descCheck {st : Status} {e : Dev} {k : Nat} (hc : exec c s = s.onDesc op x f)
    (hring : ∀ n, x.src = .ring n → n < 128) (hbegins : begins op x s.dev = some (e, k)) (hcheck : descCheck e op x = some st) :
    Completes c s x k st 0 e := by
  rw [Completes, Answers, hc, onDesc_row s op x f hring]
  simp only [descRow, hbegins, runOp, hcheck]
  rfl

theorem answers_of_turnedAway (hc : exec c s = s.onDesc op x f) (hring : ∀ n, x.src = .ring n → n < 128)
    (hnone : begins op x s.dev = none) : Answers c s (turnedAway op 0 x s.dev) := by
  rw [Answers, hc, onDesc_row s op x f hring]
  simp only [descRow, hnone]

theorem onDesc_noRing {n : Nat} (hsrc : x.src = .ring n) (hn : 128 ≤ n) : s.onDesc op x f = .fault .noSuchInstance := by
  simp [State.onDesc, hsrc, State.onDevAt, Nat.not_lt.mpr hn]

theorem onDesc_mailbox {peer : Bool} (hsrc : x.src = .mailbox peer) :
    s.onDesc op x f = .next { s with dev := descRow op f 0 { x with src := .mailbox peer } s.dev } := by
  have hx : { x with src := .mailbox peer } = x := by rw [← hsrc]
  rw [hx, State.onDesc, hsrc]
  rfl

theorem onDesc_coap {k mid : Nat} {img : Bool} (hsrc : x.src = .coap k mid img) :
    s.onDesc op x f = .next { s with dev := descRow op f 0 { x with src := .coap k mid img } s.dev } := by
  have hx : { x with src := .coap k mid img } = x := by rw [← hsrc]
  rw [hx, State.onDesc, hsrc]
  rfl

end

/-- A POST whose blocks are not of SZX 6 is not executed (R405). -/
theorem coapSized_ne {szx k mid block : Nat} {f : Dev → Dev} {d : Dev} (h : szx ≠ 6) :
    coapSized szx k mid block f d =
      match coapBegins k mid d with
      | some d => d.coapReply k mid [0x8D]
      | none => coapTurnsAway k mid block d :=
  if_neg h

/-- Settles O28: a row that runs by its opcode's effect, one that does not by its check or by where it came from. -/
theorem descriptorsExecute : Obligations.DescriptorsExecute := by
  unfold Obligations.DescriptorsExecute
  intro r hr x s
  have hexec := exec_opcodeRow r hr x s
  refine ⟨fun d k hruns => answers_of_runs hexec hruns rfl, fun hring => ⟨fun e k st hbegins hcheck =>
    completes_of_descCheck hexec hring hbegins hcheck, fun hnone => answers_of_turnedAway hexec hring hnone⟩,
    fun n hsrc hn => hexec.trans (onDesc_noRing hsrc hn), fun peer hsrc => ?_, fun k mid hsrc => ⟨?_, fun szx block hszx => ⟨fun d hd => ?_, fun hnone => ?_⟩⟩⟩
  · rw [hexec, onDesc_mailbox hsrc, ← opOf_opcodeRow r hr]
    rfl
  · rw [hexec, onDesc_coap hsrc, ← opOf_opcodeRow r hr]
    rfl
  · refine .congr rfl ((coapSized_ne hszx).trans ?_)
    rw [hd]
  · refine .congr rfl ((coapSized_ne hszx).trans ?_)
    rw [hnone]

/-! ### The checks of R76 -/

section
variable {d : Dev} {op : Nat} {x : Desc}

theorem descCheck_of_wordCheck {st : Status} (h : wordCheck d op x = some st) : descCheck d op x = some st := by
  simp only [descCheck, h]

theorem descCheck_of_handleCheck {st : Status} (hword : wordCheck d op x = none) (hop : op ≠ 0x0101)
    (h : handleCheck d op x.handle = some st) : descCheck d op x = some st := by
  simp only [descCheck, hword, if_neg hop, h]

theorem wordCheck_flags (h : 16 ≤ x.flags.toNat) : wordCheck d op x = some .range := if_pos (by simp [h])

section
variable (hop : catalogue.contains op = true) (hflags : x.flags.toNat < 16)
include hop hflags

theorem wordCheck_class (h : d.classTakes x.src op = false ∨ d.recoveryTakes op = false) : wordCheck d op x = some .state := by
  have hknown : (!catalogue.contains op || decide (16 ≤ x.flags.toNat)) = false := by
    rw [hop, decide_eq_false (Nat.not_le.mpr hflags)]
    rfl
  have hrefused : (!d.classTakes x.src op || !d.recoveryTakes op) = true := by
    rcases h with h | h <;> simp [h]
  simp only [wordCheck, hknown, hrefused]
  rfl

theorem wordCheck_flue (hclass : d.classTakes x.src op = true) (hrecovery : d.recoveryTakes op = true) (h : d.flueTakes op = false) :
    wordCheck d op x = some .fenced := by
  have hknown : (!catalogue.contains op || decide (16 ≤ x.flags.toNat)) = false := by
    rw [hop, decide_eq_false (Nat.not_le.mpr hflags)]
    rfl
  simp only [wordCheck, hknown, hclass, hrecovery, h]
  rfl

end

variable {h : Word}

theorem handleCheck_device (hdev : deviceWide.contains op = true) (hh : h ≠ 0) : handleCheck d op h = some .badHandle := by
  simp only [handleCheck, if_neg hh, hdev, if_true]

theorem handleCheck_zero (hdev : deviceWide.contains op = false) (hstate : op ≠ 0x0401) (hread : op ≠ 0x0402) :
    handleCheck d op 0 = some .badHandle := by
  have hnot : ¬(deviceWide.contains op || op == 0x0401 || op == 0x0402) = true := by simp_all
  simp only [handleCheck, if_true, if_neg hnot]

section
variable (hdev : deviceWide.contains op = false) (hh : h ≠ 0)
include hdev hh

theorem handleCheck_form (hbad : typeLimit (hType h) ≤ hIndex h ∨ hGen h = 0) : handleCheck d op h = some .badHandle := by
  have hform : (!handleValid h || hGen h == 0 || !opTakesType op (hType h)) = true := by
    rcases hbad with hbad | hbad <;> simp [handleValid, hbad]
  simp only [handleCheck, if_neg hh, hdev, hform, if_true]
  rfl

variable (hindex : hIndex h < typeLimit (hType h)) (hgen : hGen h ≠ 0) (htype : opTakesType op (hType h) = true)
include hindex hgen htype

/-- A handle of a good form is judged by its slot. -/
theorem handleCheck_slot : handleCheck d op h =
    if hGen h ≠ (d.slot (hType h) (hIndex h)).issues then some .stale
    else if !(d.slot (hType h) (hIndex h)).isLive then some .badHandle
    else if (d.slot (hType h) (hIndex h)).hstate == .fenced && !fencedTakes op then some .fenced
    else none := by
  have hform : (!handleValid h || hGen h == 0 || !opTakesType op (hType h)) = false := by simp [handleValid, hindex, hgen, htype]
  simp only [handleCheck, if_neg hh, hdev, hform]
  rfl

end
end

/-- Settles O30: the checks in their order, each by its own lemma. -/
theorem descriptorChecks : Obligations.DescriptorChecks := by
  unfold Obligations.DescriptorChecks
  intro r hr x s e k hring hbegins
  have hop := opcodeRow_catalogue r hr
  have hends {st : Status} (h : descCheck e r.1 x = some st) : Completes (r.2.1 x) s x k st 0 e :=
    completes_of_descCheck (exec_opcodeRow r hr x s) hring hbegins h
  have hword {st : Status} (h : wordCheck e r.1 x = some st) : Completes (r.2.1 x) s x k st 0 e := hends (descCheck_of_wordCheck h)
  refine ⟨fun hflags => hword (wordCheck_flags hflags), fun hflags hclass => hword (wordCheck_class hop hflags (.inl hclass)),
    fun hflags hrec => hword (wordCheck_class hop hflags (.inr hrec)),
    fun hflags hclass hrec hflue => hword (wordCheck_flue hop hflags hclass hrec hflue), fun hnone hcreate => ?_⟩
  have hhandle {st : Status} (h : handleCheck e r.1 x.handle = some st) : Completes (r.2.1 x) s x k st 0 e :=
    hends (descCheck_of_handleCheck hnone hcreate h)
  refine ⟨fun hdev hh => hhandle (handleCheck_device hdev hh), fun hdev hzero hstate hread => hhandle (hzero ▸ handleCheck_zero hdev hstate hread),
    fun hdev hh => ⟨fun hbad => hhandle (handleCheck_form hdev hh hbad), fun hindex hgen htype => ?_⟩⟩
  have hslot := handleCheck_slot (d := e) hdev hh hindex hgen htype
  refine ⟨fun hstale => hhandle (hslot.trans (if_pos hstale)), fun hissue hlive => hhandle (hslot.trans ?_),
    fun hissue hlive hfenced hstate hread hdestroy => hhandle (hslot.trans ?_)⟩
  · rw [if_neg (not_not_intro hissue), if_pos (by rw [hlive]; rfl)]
  · have htakes : fencedTakes r.1 = false := by simp [fencedTakes, hstate, hread, hdestroy]
    rw [if_neg (not_not_intro hissue), if_neg (by rw [hlive]; decide), if_pos (by rw [hfenced, htakes]; rfl)]

/-! ### The device-wide opcodes -/

/-- Purging what a takeover held leaves the plane. -/
theorem dropSlot_plane (d : Dev) (t i : Nat) : (dropSlot d t i).plane = d.plane := by simp [dropSlot]

theorem purgeGhosts_plane (d : Dev) : (purgeGhosts d).plane = d.plane := by
  unfold purgeGhosts
  split
  · exact List.foldlRecOn (motive := fun e : Dev => e.plane = d.plane) _ _ rfl fun e he k _ => (dropSlot_plane e _ _).trans he
  · rfl

section
variable {d : Dev} {x : Desc}

theorem opSetRound_range (h : parN x 0 = 0 ∨ 65535 < parN x 0) : opSetRound d x = d.ends x .range 0 := if_pos h

theorem opSetRound_ok (hlow : 1 ≤ parN x 0) (hhigh : parN x 0 ≤ 65535) : opSetRound d x = Dev.ends
    { d with wheel := { d.wheel with
      lengthPending := BitVec.ofNat 16 (parN x 0), lengthChange := BitVec.ofNat 16 (parN x 0) != d.wheel.length } } x .ok
    (d.wheel.nextBoundary.toNat + (if d.wheel.lengthChange then 2 ^ 63 else 0)) := by
  have hresult : b2n d.wheel.lengthChange * 2 ^ 63 = if d.wheel.lengthChange then 2 ^ 63 else 0 := by
    cases d.wheel.lengthChange <;> rfl
  rw [← hresult]
  exact if_neg (by omega)

theorem ofCode_none {n : Nat} (h : 3 ≤ n) : Profile.ofCode n = none := by
  match n, h with
  | n + 3, _ => rfl

theorem opSetProfile_range (h : 3 ≤ parN x 0) : opSetProfile d x = d.ends x .range 0 := by
  simp only [opSetProfile, ofCode_none h]

theorem opSetProfile_budget {p : Profile} (hp : Profile.ofCode (parN x 0) = some p) (h : replaceAll p.ceiling d.thr.placed = none) :
    opSetProfile d x = d.ends x .budget 0 := by
  simp only [opSetProfile, hp, h]
  rfl

theorem opSetProfile_ok {p : Profile} (hp : Profile.ofCode (parN x 0) = some p) (h : replaceAll p.ceiling d.thr.placed ≠ none) :
    opSetProfile d x = Dev.ends
      { d with plane := { d.plane with profilePending := p, profileChanging := p != d.plane.profile } } x .ok
      (d.wheel.nextBoundary.toNat + (if d.plane.profileChanging then 2 ^ 63 else 0)) := by
  have hresult : b2n d.plane.profileChanging * 2 ^ 63 = if d.plane.profileChanging then 2 ^ 63 else 0 := by
    cases d.plane.profileChanging <;> rfl
  have hfits : ¬(replaceAll p.ceiling d.thr.placed).isNone = true := by simpa using h
  simp only [opSetProfile, hp, if_neg hfits, hresult]

theorem opRecover_ends : opRecover d x = (recover d).1.ends x (recover d).2 0 := rfl

theorem recover_ok (htake : d.plane.takeover = true) (hback : d.plane.hearthRestarted = true) : recover d =
    ({ purgeGhosts d with plane := { d.plane with takeover := false, hearthRestarted := false } }, .ok) := by
  simp only [recover, htake, hback, if_true, purgeGhosts_plane]

theorem recover_absent (htake : d.plane.takeover = true) (hback : d.plane.hearthRestarted = false) : recover d = (d, .fenced) := by
  simp [recover, htake, hback]

theorem recover_fenced (htake : d.plane.takeover = false) (h : d.sag.fenced.contains 9 = true) : recover d = (d, .fenced) := by
  simp only [recover, htake, h]
  rfl

theorem recover_state (htake : d.plane.takeover = false) (h : d.sag.fenced.contains 9 = false) : recover d = (d, .state) := by
  simp only [recover, htake, h]
  rfl

theorem opEventWait_ring {n : Nat} (h : x.src = .ring n) :
    opEventWait d x = ({ d with host := d.host.modRing n Ring.pump }, .waits) := by
  simp only [opEventWait, h]

theorem Ring.pump_empty {r : Ring} (h : r.evq = []) : r.pump = r := by simp only [Ring.pump, h]

theorem Ring.pump_waited {r : Ring} {ev : QEvent} {es : List QEvent} (h : r.evq = ev :: es) (hwait : r.q.any Entry.waitsEvent = true) :
    r.pump = { r with evq := es, q := endFirst Entry.waitsEvent (eventCpl ev) r.q } := by
  simp only [Ring.pump, h, hwait, if_true]

theorem opStreamBuf_range (h : parN x 2 < 4096) : opStreamBuf d x = d.ends x .range 0 := if_pos h

theorem opStreamBuf_fenced (hlen : 4096 ≤ parN x 2) (h : d.sag.fenced.contains 10 = true) : opStreamBuf d x = d.ends x .fenced 0 :=
  (if_neg (Nat.not_lt.mpr hlen)).trans (if_pos h)

theorem opStreamBuf_waits (hlen : 4096 ≤ parN x 2) (h : d.sag.fenced.contains 10 = false) : opStreamBuf d x = (d, .waits) :=
  (if_neg (Nat.not_lt.mpr hlen)).trans (if_neg (ne_true_of_eq_false h))

theorem opDebugUnlock_range (h : sourceBytes x 0 (parN x 2) = none) : opDebugUnlock d x = d.ends x .range 0 := by
  simp only [opDebugUnlock, h]

theorem opDebugUnlock_token {b : List Byte} (h : sourceBytes x 0 (parN x 2) = some b) :
    opDebugUnlock d x = (debugUnlock b d).1.ends x (debugUnlock b d).2 0 := by
  simp only [opDebugUnlock, h]

theorem debugUnlock_bad {b : List Byte} (h : tokenOk b = false) :
    debugUnlock b d = ({ d with pow := { d.pow with tokenFails := d.pow.tokenFails + 1 } }, .auth) := if_neg (ne_true_of_eq_false h)

theorem debugUnlock_good {b : List Byte} (h : tokenOk b = true) : debugUnlock b d =
    (Dev.raise { d with pow := { d.pow with debug := true, scope := BitVec.ofNat 3 (byteField b 8 4) } } 0x1203 (byteField b 8 4) 0, .ok) :=
  if_pos h

end

/-- Settles O31: each opcode's reply, branch by branch. -/
theorem deviceOpcodes : Obligations.DeviceOpcodes := by
  unfold Obligations.DeviceOpcodes
  refine ⟨fun x s d k h => ⟨fun hv => completes_of_ends rfl h (opSetRound_range hv),
      fun hlow hhigh => completes_of_ends rfl h (opSetRound_ok hlow hhigh)⟩,
    fun x s d k h => ⟨fun hv => completes_of_ends rfl h (opSetProfile_range hv), fun p hp =>
      ⟨fun hnone => completes_of_ends rfl h (opSetProfile_budget hp hnone), fun hsome => completes_of_ends rfl h (opSetProfile_ok hp hsome)⟩⟩,
    fun x s d k h => ⟨fun htake hback => ?_, fun htake hback => completes_of_ends rfl h ?_, fun htake hfenced => completes_of_ends rfl h ?_,
      fun htake hopen => completes_of_ends rfl h ?_⟩,
    fun x s d k n h hsrc => ⟨_, answers_of_waits rfl h (opEventWait_ring hsrc), rfl, fun m hm => ring_modRing_ne _ _ hm, fun hnone => ?_,
      fun ev es hev hwait => ?_⟩,
    fun x s d k h => ⟨fun hlen => completes_of_ends rfl h (opStreamBuf_range hlen),
      fun hlen hfenced => completes_of_ends rfl h (opStreamBuf_fenced hlen hfenced),
      fun hlen hopen => answers_of_waits rfl h (opStreamBuf_waits hlen hopen)⟩,
    fun x s d k h => ⟨fun hnone => completes_of_ends rfl h (opDebugUnlock_range hnone), fun b hb => ⟨fun hbad => ?_, fun hgood => ?_⟩⟩⟩
  · exact ⟨_, completes_of_ends rfl h (by rw [opRecover_ends, recover_ok htake hback]), rfl, rfl⟩
  · rw [opRecover_ends, recover_absent htake hback]
  · rw [opRecover_ends, recover_fenced htake hfenced]
  · rw [opRecover_ends, recover_state htake hopen]
  · rw [ring_modRing_self, Ring.pump_empty hnone]
  · rw [ring_modRing_self, Ring.pump_waited hev hwait]
  · exact completes_of_ends rfl h (by rw [opDebugUnlock_token hb, debugUnlock_bad hbad])
  · exact completes_of_ends rfl h (by rw [opDebugUnlock_token hb, debugUnlock_good hgood])

/-! ### The queries (R83, R548, R550, R551) -/

section
variable {d : Dev} {x : Desc}

theorem readOut_range {i : Nat} {b : List Byte} (h : destOk x (parN x (i + 2)) = false) : readOut d x i b = d.ends x .range 0 :=
  if_neg (ne_true_of_eq_false h)

theorem readOut_ok {i : Nat} {b : List Byte} (h : destOk x (parN x (i + 2)) = true) :
    readOut d x i b = d.endsWith x (paramAddr x.params i) (b.take (parN x (i + 2))) := if_pos h

/-- Whether a selector of the named handle's type exists. -/
def knowsSelector (x : Desc) : Bool := (selectorsOf (if x.handle = 0 then 0 else hType x.handle)).contains (parN x 3)

theorem opQueryRead_unknown (h : knowsSelector x = false) : opQueryRead d x = d.ends x .range 0 :=
  if_pos (by simpa [knowsSelector] using h)

theorem opQueryRead_known (h : knowsSelector x = true) : opQueryRead d x =
    if hType x.handle = tSensor then sensorRead d x else readOut d x 0 (blockOf d x.handle (parN x 3)) :=
  if_neg (by simpa [knowsSelector] using h)

theorem sensorRead_fenced (h : d.sag.fenced.contains 9 = true) : sensorRead d x = readOut d x 0 (blockOf d x.handle 0) := if_pos h

theorem sensorRead_open (h : d.sag.fenced.contains 9 = false) : sensorRead d x =
    if !destOk x (parN x 2) then d.ends x .range 0
    else (requestTd (hIndex x.handle) (d.addWait x.src (.convert (paramAddr x.params 0) (parN x 2)) x.handle), .waits) :=
  if_neg (ne_true_of_eq_false h)

theorem sensorRead_range (h : destOk x (parN x 2) = false) : sensorRead d x = d.ends x .range 0 := by
  cases hf : d.sag.fenced.contains 9
  · rw [sensorRead_open hf, h]; rfl
  · rw [sensorRead_fenced hf, readOut_range h]

theorem opQueryState_open (h : d.sag.fenced.contains 9 = false) : opQueryState d x =
    d.ends x .ok (if x.handle = 0 then deviceState d else stateWord d (hType x.handle) (hIndex x.handle)) := by
  unfold opQueryState
  split
  · rfl
  · simp only [Dev.knownOf, h]; rfl

theorem opQueryState_ok : ∃ n, opQueryState d x = d.ends x .ok n := by
  unfold opQueryState
  split
  · exact ⟨_, rfl⟩
  · split <;> exact ⟨_, rfl⟩

theorem opQueryHandles_range (h : typeLimit (parN x 0) = 0 ∨ destOk x (parN x 3) = false) : opQueryHandles d x = d.ends x .range 0 :=
  if_pos (by rcases h with h | h <;> simp [h])

theorem opQueryHandles_ok (ht : typeLimit (parN x 0) ≠ 0) (h : destOk x (parN x 3) = true) : opQueryHandles d x =
    (d, .done ⟨.ok, x.handle, BitVec.ofNat 64 (d.liveHandles (parN x 0)).length,
      bytesOfWords ((d.liveHandles (parN x 0)).take (parN x 3 / 4)), paramAddr x.params 1⟩) :=
  if_neg (by simp [h, ht])

theorem opQueryResources_ok (h : destOk x (parN x 2) = true) : opQueryResources d x =
    d.endsWith x (paramAddr x.params 0) (((resourceWords d).flatMap (leBytes 4)).take (parN x 2)) :=
  readOut_ok h

theorem opImgStatus_ok (h : destOk x (parN x 2) = true) : opImgStatus d x =
    (d, .done ⟨.ok, x.handle, BitVec.ofNat 64 (byteField (imgStatus d) 1 1), (imgStatus d).take (parN x 2), paramAddr x.params 0⟩) :=
  if_pos h

theorem opKilnRead_none (h : kilnRecord d (parN x 0) = none) : opKilnRead d x = d.ends x .range 0 := by simp only [opKilnRead, h]

theorem opKilnRead_some {b : List Byte} (h : kilnRecord d (parN x 0) = some b) : opKilnRead d x = readOut d x 1 b := by
  simp only [opKilnRead, h]

theorem opKilnRead_range (h : kilnRecord d (parN x 0) = none ∨ destOk x (parN x 3) = false) : opKilnRead d x = d.ends x .range 0 := by
  cases hb : kilnRecord d (parN x 0) with
  | none => exact opKilnRead_none hb
  | some b => rw [opKilnRead_some hb, readOut_range (h.resolve_left (by simp [hb]))]

end

/-- Settles O32: each query's reply by whether the selector is known, the buffer can be served and the Flue stands. -/
theorem queriesAnswer : Obligations.QueriesAnswer := by
  unfold Obligations.QueriesAnswer
  refine ⟨fun x s d k h hopen => completes_of_ends rfl h (opQueryState_open hopen), fun x s d k h => ?_,
    fun x s d k h => ⟨fun hk => completes_of_ends rfl h (opQueryRead_unknown hk), fun hk ht hdest => ?_, fun hk ht hdest => ?_,
      fun hk ht hdest => ?_, fun hk ht hf hdest => ?_, fun hk ht hf hdest => ?_⟩,
    fun x s d k h hdest => completes_of_ends rfl h (readOut_range hdest),
    fun x s d k h hdest => ⟨_, answers_of_runs rfl h (opQueryResources_ok hdest), rfl, rfl⟩,
    fun x s d k h => ⟨fun hbad => completes_of_ends rfl h (opQueryHandles_range hbad),
      fun ht hdest => answers_of_runs rfl h (opQueryHandles_ok ht hdest)⟩,
    fun x s d k h => ⟨fun hbad => completes_of_ends rfl h (opKilnRead_range hbad),
      fun b hb hdest => answers_of_runs rfl h ((opKilnRead_some hb).trans (readOut_ok hdest))⟩,
    fun x s d k h hdest => completes_of_ends rfl h (if_neg (ne_true_of_eq_false hdest)),
    fun x s d k h hdest => answers_of_runs rfl h (opImgStatus_ok hdest)⟩
  · obtain ⟨n, hn⟩ := opQueryState_ok (d := d) (x := x)
    exact ⟨n, completes_of_ends rfl h hn⟩
  · exact completes_of_ends rfl h ((opQueryRead_known hk).trans ((if_neg ht).trans (readOut_range hdest)))
  · exact answers_of_runs rfl h ((opQueryRead_known hk).trans ((if_neg ht).trans (readOut_ok hdest)))
  · exact completes_of_ends rfl h ((opQueryRead_known hk).trans ((if_pos ht).trans (sensorRead_range hdest)))
  · exact answers_of_runs rfl h ((opQueryRead_known hk).trans ((if_pos ht).trans ((sensorRead_fenced hf).trans (readOut_ok hdest))))
  · refine answers_of_waits rfl h ((opQueryRead_known hk).trans ((if_pos ht).trans ((sensorRead_open hf).trans ?_)))
    rw [hdest]; rfl

end Sys2Proof.Machine
end

/-! ## SET_POINT, CLEAR and FENCE -/

section
/-! PROOF. What an object's run-time state is after it is changed; then each opcode's reply by the type of its handle. -/

namespace Sys2Proof.Machine

/-! ### Run-time state after a change -/

@[simp] theorem rail_modRail_self (d : Dev) (i : Nat) (f : Rail → Rail) : (d.modRail i f).rail i = f (d.rail i) := tget_tmod_self ..

theorem rail_modRail_ne (d : Dev) {i j : Nat} (f : Rail → Rail) (h : j ≠ i) : (d.modRail i f).rail j = d.rail j := tget_tmod_ne _ _ _ h

@[simp] theorem loop_modLoop_self (d : Dev) (i : Nat) (f : LoopRt → LoopRt) : (d.modLoop i f).loop i = f (d.loop i) := tget_tmod_self ..

theorem loop_modLoop_ne (d : Dev) {i j : Nat} (f : LoopRt → LoopRt) (h : j ≠ i) : (d.modLoop i f).loop j = d.loop j := tget_tmod_ne _ _ _ h

@[simp] theorem witRt_modWit_self (d : Dev) (k : Nat) (f : WitRt → WitRt) : (d.modWit k f).witRt k = f (d.witRt k) := tget_tmod_self ..

/-! ### SET_POINT (R134, R165, R193) -/

section
variable {d : Dev} {x : Desc}

theorem opSetPoint_loop (h : hType x.handle = tLoop) : opSetPoint d x = answered x (loopSetPoint d x (hIndex x.handle)) := by
  simp only [opSetPoint, h, tLoop]

theorem opSetPoint_rail (h : hType x.handle = tRail) : opSetPoint d x = answered x (railSetPoint d x (hIndex x.handle)) := by
  simp only [opSetPoint, h, tRail]

theorem opSetPoint_source (h : hType x.handle = tSource) :
    opSetPoint d x = answered x (srcSetPoint x.src d (hIndex x.handle) (bits (par x 0) 0 4)) := by
  simp only [opSetPoint, h, tSource]

theorem opSetPoint_string (h : hType x.handle = tString) :
    opSetPoint d x = answered x (battSetPoint d (hIndex x.handle) (parN x 0) (parN x 1) (parN x 2)) := by
  simp only [opSetPoint, h, tString]

theorem opSetPoint_none (hloop : hType x.handle ≠ tLoop) (hrail : hType x.handle ≠ tRail) (hsource : hType x.handle ≠ tSource)
    (hstring : hType x.handle ≠ tString) : opSetPoint d x = d.ends x .state 0 := by
  unfold opSetPoint
  split
  · exact absurd ‹_› hloop
  · exact absurd ‹_› hrail
  · exact absurd ‹_› hsource
  · exact absurd ‹_› hstring
  · rfl

variable {i : Nat}

theorem loopSetPoint_range (h : lcKcount (d.slot tLoop i).cfg ≤ bits (par x 0) 0 9) : loopSetPoint d x i = (d, .done .range 0) :=
  if_pos h

section
variable (hcoef : bits (par x 0) 0 9 < lcKcount (d.slot tLoop i).cfg)
include hcoef

theorem loopSetPoint_busy (h : (d.slot tLoop i).swap = true) : loopSetPoint d x i = (d, .done .busy 0) :=
  (if_neg (Nat.not_le.mpr hcoef)).trans (if_pos h)

variable (hswap : (d.slot tLoop i).swap = false)
include hswap

/-- A LOOP that does not run takes its set point at once, in both banks. -/
theorem loopSetPoint_idle (h : (d.slot tLoop i).hstate = .disabled ∨ (d.loop i).latch ≠ .running) :
    loopSetPoint d x i =
      (d.modSlot tLoop i fun s => { s with
        bankA := setCoef s.bankA (bits (par x 0) 0 9) (sx 16 (bits (par x 1) 0 16))
        bankB := setCoef s.bankB (bits (par x 0) 0 9) (sx 16 (bits (par x 1) 0 16)) },
       .done .ok (twos 16 (sx 16 (bits (par x 1) 0 16)))) := by
  have hidle : ((d.slot tLoop i).hstate == .disabled || (d.loop i).latch != .running) = true := by
    rcases h with h | h <;> simp [h]
  exact (if_neg (Nat.not_le.mpr hcoef)).trans ((if_neg (ne_true_of_eq_false hswap)).trans (if_pos hidle))

theorem loopSetPoint_running (hstate : (d.slot tLoop i).hstate ≠ .disabled) (hlatch : (d.loop i).latch = .running) :
    loopSetPoint d x i =
      ((d.modLoop i fun r => { r with setPoints := r.setPoints ++ [(bits (par x 0) 0 9, sx 16 (bits (par x 1) 0 16))] }).addWait x.src
        (.setPoint (sx 16 (bits (par x 1) 0 16))) x.handle, .waits) := by
  have hruns : ((d.slot tLoop i).hstate == .disabled || (d.loop i).latch != .running) = false := by simp [hstate, hlatch]
  exact (if_neg (Nat.not_le.mpr hcoef)).trans ((if_neg (ne_true_of_eq_false hswap)).trans (if_neg (ne_true_of_eq_false hruns)))

end

/-- A RAIL's set point in mV, and its full scale. -/
def setMv (x : Desc) : Nat := bits (par x 0) 0 16

theorem railSetPoint_range (h : 100 * setMv x < 5 * bits (d.railW i 7) 16 16 ∨ 95 * bits (d.railW i 7) 16 16 < 100 * setMv x) :
    railSetPoint d x i = (d, .done .range 0) := if_pos h

section
variable (hlow : 5 * bits (d.railW i 7) 16 16 ≤ 100 * setMv x) (hhigh : 100 * setMv x ≤ 95 * bits (d.railW i 7) 16 16)
include hlow hhigh

theorem railSetPoint_idle (h : ((abortSetPoint d x.handle).rail i).run ≠ .on) : railSetPoint d x i =
    ((abortSetPoint d x.handle).modRail i fun r => { r with vset := setMv x }, .done .ok (setMv x)) :=
  (if_neg (by unfold setMv at *; omega)).trans (if_neg h)

/-- The rail as its ramp to a new set point begins. -/
def rampBegun (d : Dev) (x : Desc) (i : Nat) : Dev :=
  (abortSetPoint d x.handle).modRail i fun r => { r with
    vset := setMv x, target := refOf (setMv x) (bits (d.railW i 7) 16 16)
    step := (abortSetPoint d x.handle).rampStep i (bits ((abortSetPoint d x.handle).railW i 30) 0 16) 10, ramping := true }

theorem railSetPoint_on (h : ((abortSetPoint d x.handle).rail i).run = .on) : railSetPoint d x i =
    if ((abortSetPoint d x.handle).rail i).ref = refOf (setMv x) (bits (d.railW i 7) 16 16) then
      ((rampBegun d x i).modRail i fun r => { r with ramping := false }, .done .ok (setMv x))
    else ((rampBegun d x i).addWait x.src (.setPoint (setMv x)) x.handle, .waits) := by
  have href : ((rampBegun d x i).rail i).ref = ((abortSetPoint d x.handle).rail i).ref := by rw [rampBegun, rail_modRail_self]
  rw [← href]
  exact (if_neg (by unfold setMv at *; omega)).trans (if_pos h)

end
end

/-! ### CLEAR -/

section
variable {d : Dev} {x : Desc}

theorem opClear_loop (h : hType x.handle = tLoop) : opClear d x = (loopClear d (hIndex x.handle) (par x 0)).ends x .ok 0 := by
  simp only [opClear, h, tLoop]

theorem opClear_rail (h : hType x.handle = tRail) : opClear d x = answered x (railClear d (hIndex x.handle) (par x 0)) := by
  simp only [opClear, h, tRail]

theorem opClear_feed (h : hType x.handle = tFeed) : opClear d x = (feedClear d (hIndex x.handle) (par x 0)).ends x .ok 0 := by
  simp only [opClear, h, tFeed]

theorem opClear_branch (h : hType x.handle = tBranch) : opClear d x = (branchClear d (hIndex x.handle) (par x 0)).ends x .ok 0 := by
  simp only [opClear, h, tBranch]

theorem opClear_source (h : hType x.handle = tSource) : opClear d x =
    ((if bit (par x 0) 2 then clearFaults (hIndex x.handle) else id) (srcClear d (hIndex x.handle) (par x 0))).ends x .ok 0 := by
  simp only [opClear, h, tSource]

theorem opClear_seq (h : hType x.handle = tSeq) : opClear d x = (seqClear d (hIndex x.handle) (par x 0)).ends x .ok 0 := by
  simp only [opClear, h, tSeq]

theorem opClear_mon (h : hType x.handle = tMon) : opClear d x = (monClear d (hIndex x.handle) (par x 0)).ends x .ok 0 := by
  simp only [opClear, h, tMon]

theorem opClear_string (h : hType x.handle = tString) : opClear d x = answered x (battClear d (hIndex x.handle) (par x 0)) := by
  simp only [opClear, h, tString]

theorem opClear_wit (h : hType x.handle = tHist ∨ hType x.handle = tExtr) :
    opClear d x = (witClear d (slotKey (hType x.handle) (hIndex x.handle)) (par x 0)).ends x .ok 0 := by
  rcases h with h | h <;> simp only [opClear, h, tHist, tExtr]

theorem opClear_none (h : hType x.handle = tSensor ∨ hType x.handle = tStream) : opClear d x = d.ends x .ok 0 := by
  rcases h with h | h <;> simp only [opClear, h, tSensor, tStream]

variable {i : Nat} {v : Word}

/-- The loop as bit 0 of a CLEAR leaves it. -/
def LoopRt.clearLatch (r : LoopRt) : LoopRt := { r with latch := .running, ferr := 0, missed := 0 }

/-- The loop as bit 1 of a CLEAR leaves it. -/
def LoopRt.clearStats (r : LoopRt) : LoopRt :=
  { r with runs := 0, skipped := 0, overrun := 0, accSat := 0, dSat := 0, trips := 0, maxWait := 0, lastSwapRun := 0 }

theorem loopClear_frame : loopClear d i v = { d with thr := (loopClear d i v).thr } := by
  unfold loopClear
  (repeat' split) <;> rfl

theorem loopClear_loop : (loopClear d i v).loop i =
    (if bit v 1 then LoopRt.clearStats else id)
      (if bit v 0 = true ∧ (d.loop i).latch ≠ .running then (d.loop i).clearLatch else d.loop i) := by
  by_cases hstats : bit v 1 = true <;> by_cases hlatch : bit v 0 = true ∧ (d.loop i).latch ≠ .running <;>
    simp [loopClear, hstats, hlatch, LoopRt.clearStats, LoopRt.clearLatch]

theorem railClear_keep (h : bit v 1 = false) : railClear d i v = (d, .done .ok 0) := if_pos (by simp [h])

theorem railClear_state (hbit : bit v 1 = true) (h : (d.slot tRail i).hstate ≠ .disabled) : railClear d i v = (d, .done .state 0) :=
  (if_neg (by simp [hbit])).trans (if_pos (by simpa using h))

theorem modPhases_frame (l : List Nat) (f : Phase → Phase) (d : Dev) :
    l.foldl (fun d p => d.modPhase p f) d = { d with pwm := (l.foldl (fun d p => d.modPhase p f) d).pwm } :=
  List.foldlRecOn (motive := fun e : Dev => e = { d with pwm := e.pwm }) _ _ rfl fun e he p _ => by
    rw [he]; rfl

theorem railClear_disabled (hbit : bit v 1 = true) (h : (d.slot tRail i).hstate = .disabled) :
    ∃ p, railClear d i v = ({ d with pwm := p }, .done .ok 0) := by
  refine ⟨_, ((if_neg (by simp [hbit])).trans (if_neg (by simpa using h))).trans (congrArg (·, Answer.done .ok 0) (modPhases_frame _ _ d))⟩

theorem witClear_frame (k : Nat) : witClear d k v = { d with wit := (witClear d k v).wit } := by
  unfold witClear
  split <;> rfl

theorem witClear_run {k : Nat} (h : bit v 0 = true) : ((witClear d k v).witRt k).run = { first := d.wheel.turn, cleared := true } := by
  simp [witClear, h]

end

/-- SET_POINT of a LOOP completes or waits by whether the loop runs. -/
theorem setPoint_loop {x : Desc} {s : State} {d : Dev} {k : Nat} (h : Runs 0x0303 x s d k) (ht : hType x.handle = tLoop)
    {r : Dev × Answer} (hr : loopSetPoint d x (hIndex x.handle) = r) : Answers (.setPoint x) s (replied x k (answered x r)) :=
  answers_of_runs rfl h ((opSetPoint_loop ht).trans (congrArg (answered x) hr))

/-- Settles O37: the replies of the three opcodes, by the type of the handle. -/
theorem setPointClearFence : Obligations.SetPointClearFence := by
  unfold Obligations.SetPointClearFence
  refine ⟨fun x s d k h => ⟨fun ht => ?_, fun ht => ?_, fun ht => ?_, fun ht => ?_, fun ht => ?_, fun ht => ?_, fun hl hr hs hb => ?_⟩,
    fun x s d k h => ⟨fun ht => ?_, fun ht hv => ?_, fun ht hv => ?_, fun ht hv => ?_, fun ht => ?_, fun ht => ?_, fun ht hv => ?_, fun ht hv => ?_,
      fun ht => ?_, fun ht hv => ?_, fun ht hv => ?_, fun ht => ?_, fun ht => ?_, fun ht => ?_⟩,
    fun x s d k h => completes_of_ends rfl h rfl⟩
  · rw [ht]
    exact fun hcoef => setPoint_loop h ht (loopSetPoint_range hcoef)
  · rw [ht]
    exact fun hcoef hswap => setPoint_loop h ht (loopSetPoint_busy hcoef hswap)
  · rw [ht]
    refine fun hcoef hswap => ⟨fun hidle => ⟨_, setPoint_loop h ht (loopSetPoint_idle hcoef hswap hidle), rfl, ?_⟩,
      fun hstate hlatch => ⟨_, setPoint_loop h ht (loopSetPoint_running hcoef hswap hstate hlatch), rfl, ?_⟩⟩
    · exact ⟨congrArg Slot.bankA (slot_modSlot_self ..), congrArg Slot.bankB (slot_modSlot_self ..)⟩
    · exact congrArg LoopRt.setPoints (loop_modLoop_self d (hIndex x.handle) _)
  · have hrail {r : Dev × Answer} (hr : railSetPoint d x (hIndex x.handle) = r) : Answers (.setPoint x) s (replied x k (answered x r)) :=
      answers_of_runs rfl h ((opSetPoint_rail ht).trans (congrArg (answered x) hr))
    refine ⟨fun hbad => hrail (railSetPoint_range hbad), fun hlow hhigh hoff => hrail (railSetPoint_idle hlow hhigh hoff),
      fun hlow hhigh hon => ⟨fun hne => ?_, fun heq => ?_⟩⟩
    · exact hrail ((railSetPoint_on hlow hhigh hon).trans (if_neg hne))
    · exact hrail ((railSetPoint_on hlow hhigh hon).trans (if_pos heq))
  · exact answers_of_runs rfl h (opSetPoint_source ht)
  · exact answers_of_runs rfl h (opSetPoint_string ht)
  · exact completes_of_ends rfl h (opSetPoint_none hl hr hs hb)
  · refine ⟨_, completes_of_ends rfl h (opClear_loop ht), loopClear_frame, ?_⟩
    rw [loopClear_loop]
    cases hlatch : bit (par x 0) 0 <;> cases hstats : bit (par x 0) 1 <;>
      by_cases hruns : (d.loop (hIndex x.handle)).latch = .running <;> simp [hruns, LoopRt.clearStats, LoopRt.clearLatch]
  · exact answers_of_runs rfl h ((opClear_rail ht).trans (congrArg (answered x) (railClear_keep hv)))
  · rw [ht]
    exact fun hstate => answers_of_runs rfl h ((opClear_rail ht).trans (congrArg (answered x) (railClear_state hv hstate)))
  · rw [ht]
    intro hstate
    obtain ⟨p, hp⟩ := railClear_disabled hv hstate
    exact ⟨_, answers_of_runs rfl h ((opClear_rail ht).trans (congrArg (answered x) hp)), rfl⟩
  · exact completes_of_ends rfl h (opClear_feed ht)
  · exact completes_of_ends rfl h (opClear_branch ht)
  · exact completes_of_ends rfl h (by rw [opClear_source ht, hv]; rfl)
  · exact completes_of_ends rfl h (by rw [opClear_source ht, hv]; rfl)
  · exact completes_of_ends rfl h (opClear_seq ht)
  · exact completes_of_ends rfl h (by rw [opClear_mon ht, monClear, if_pos hv])
  · exact completes_of_ends rfl h (by rw [opClear_mon ht, monClear, if_neg (ne_true_of_eq_false hv)])
  · exact completes_of_ends rfl h (opClear_none ht)
  · exact answers_of_runs rfl h (opClear_string ht)
  · exact ⟨_, completes_of_ends rfl h (opClear_wit ht), witClear_frame _, fun hv => witClear_run hv⟩

end Sys2Proof.Machine
end

/-! ## Firmware: sherds, starts, the handover -/

section
/-! PROOF. The checks of a sherd in their order, and what a written one leaves; what asks for a start and what it waits for; the steps of
a handover, each by the phase that it begins in. -/

namespace Sys2Proof.Machine

/-! ### Slots -/

@[simp] theorem imgSlot_modImg_self (d : Dev) (n : Nat) (f : ImgSlot → ImgSlot) : (d.modImg n f).imgSlot n = f (d.imgSlot n) :=
  tget_tmod_self ..

theorem imgSlot_modImg_ne (d : Dev) {i n : Nat} (f : ImgSlot → ImgSlot) (h : i ≠ n) : (d.modImg n f).imgSlot i = d.imgSlot i :=
  tget_tmod_ne _ _ _ h

theorem imgSlot_congr {d e : Dev} (h : d.img = e.img) (i : Nat) : d.imgSlot i = e.imgSlot i := congrArg (fun m : Img => tget ({} : ImgSlot) m.slots i) h

/-! ### A sherd arrives (R446, R447) -/

section
variable {d : Dev} {src : Src} {n slot : Nat} {restart : Bool} {b : List Byte}

theorem imgRefused_status (d : Dev) (st : Status) (result : Nat) : (imgRefused d st result).2 = .done st result := rfl

theorem imgRefused_img (d : Dev) {st : Status} (result : Nat) (h : st ≠ .auth) : (imgRefused d st result).1.img = d.img := by
  simp [imgRefused, h]

theorem imgRefused_auth_img (d : Dev) (result : Nat) :
    (imgRefused d .auth result).1.img = { d.img with authFails := min (d.img.authFails + 1) 65535 } := by
  simp [imgRefused, satAdd]

/-- With no slot to write no greenware is held. -/
theorem roleSlot_of_sherdSlot_none (h : d.sherdSlot = none) : d.roleSlot .greenware = none := by
  unfold Dev.sherdSlot at h
  split at h
  · cases h
  · assumption

theorem imgSherd_noSlot (h : d.sherdSlot = none) (hn : n < 4096) : imgSherd src n restart b d = imgRefused d .state 4096 := by
  simp [imgSherd, h, roleSlot_of_sherdSlot_none h, Nat.not_le.mpr hn]

/-- The slot that is written is the greenware, where there is one. -/
theorem roleSlot_of_sherdSlot (h : d.sherdSlot = some slot) :
    d.roleSlot .greenware = none ∨ d.roleSlot .greenware = some slot := by
  unfold Dev.sherdSlot at h
  split at h
  · next hg => exact .inr (hg.trans h)
  · next hg => exact .inl hg

theorem imgSherd_beyond (h : d.sherdSlot = some slot) (hn : 4096 ≤ n) : imgSherd src n restart b d =
    imgRefused d .range (if (d.roleSlot .greenware).isSome then (d.imgSlot slot).missing else 4096) := by
  rcases roleSlot_of_sherdSlot h with hg | hg <;> simp [imgSherd, h, hg, hn]

/-- A payload sherd of verified greenware that no start takes. -/
structure PayloadSherd (d : Dev) (slot n : Nat) : Prop where
  nonzero : n ≠ 0
  inRange : n < 4096
  green : (d.imgSlot slot).role = .greenware
  slotIs : d.roleSlot .greenware = some slot
  head : (d.imgSlot slot).hasHead = true
  verified : (d.imgSlot slot).verified = true
  past : (d.imgSlot slot).msherds ≤ n
  within : n < (d.imgSlot slot).total
  free : d.taking = false
  noTrial : d.roleSlot .trial = none

theorem manifestWith_verified {g : ImgSlot} (h : g.verified = true) : manifestWith g n b = none := by
  simp [manifestWith, h]

theorem PayloadSherd.imgSherd (h : PayloadSherd d slot n) : imgSherd src n restart b d =
    if !sherdHashOk (manifestBytes (d.imgSlot slot) []) n b then imgRefused d .auth (d.imgSlot slot).missing
    else if ((d.imgSlot slot).sherd n).isSome then (d, .done .ok (d.imgSlot slot).missing)
    else (Dev.addWait { d with img := { d.img with writes := d.img.writes ++ [⟨some src, slot, n, b⟩] } } src .sherd 0, .waits) := by
  obtain ⟨hzero, hrange, hgreen, hslot, hhead, hver, hpast, hwithin, hfree, htrial⟩ := h
  have hsherd : d.sherdSlot = some slot := by simp [Dev.sherdSlot, hslot]
  simp [Machine.imgSherd, hsherd, hslot, hzero, hgreen, hhead, hver, hfree, htrial, Nat.not_le.mpr hrange, Nat.not_le.mpr hwithin,
    Nat.not_lt.mpr hpast, manifestWith_verified hver]

end

/-! ### A sherd by CoAP (R405, R446) -/

section
variable {s : State} {j mid szx n : Nat} {restart : Bool} {b : List Byte} {d : Dev}

/-- The descriptor that a PUT to /k/img stands for. -/
abbrev putDesc (j mid : Nat) : Desc := ⟨.coap j mid true, 0, 0, [], []⟩

theorem begins_put (h : coapBegins j mid s.dev = some d) : begins 0x0601 (putDesc j mid) s.dev = some (d, 0) := by
  simp [begins, h]

theorem coapPutImg_begins (h : coapBegins j mid s.dev = some d) (hcheck : descCheck d 0x0601 (putDesc j mid) = none) :
    Answers (.coapPutImg j mid 6 n restart b) s
      (replied (putDesc j mid) 0 (answered (putDesc j mid) (imgSherd (.coap j mid true) n restart ((b ++ zeros 1024).take 1024) d))) := by
  have hwake : wakeNamed d (0 : Word) = d := if_neg (by decide)
  refine .congr rfl ((if_pos rfl).trans ?_)
  simp only [descRow, begins_put h, runOp, hcheck]
  exact congrArg (fun e => replied (putDesc j mid) 0 (putSherd n restart b e (putDesc j mid))) hwake

theorem coapPutImg_sized (h : coapBegins j mid s.dev = some d) (hszx : szx ≠ 6) :
    Answers (.coapPutImg j mid szx n restart b) s (d.coapReply j mid [0x8D]) := by
  refine .congr rfl ((coapSized_ne hszx).trans ?_)
  rw [h]

/-- A PUT whose Message ID has been executed receives its stored response, whatever the size of its blocks (R408). -/
theorem coapPutImg_stored {y : Session} {resp : List Byte} (hy : s.dev.coapSession j = some y) (hresp : y.storedFor mid = some resp) :
    Answers (.coapPutImg j mid szx n restart b) s (coapResend y.port resp 0 (coapHeard y.port s.dev)) := by
  have hbegins : coapBegins j mid s.dev = none := by simp [coapBegins, hy, hresp]
  have haway : coapTurnsAway j mid 0 s.dev = coapResend y.port resp 0 (coapHeard y.port s.dev) := by
    simp only [coapTurnsAway, hy, hresp]
  by_cases hszx : szx = 6
  · refine .congr rfl ((if_pos hszx).trans ?_)
    simp only [descRow, begins, hbegins, Option.map_none]
    exact haway
  · refine .congr rfl ((coapSized_ne hszx).trans ?_)
    rw [hbegins]
    exact haway

end

/-! ### A sherd is written, a slot erased (R444, R448) -/

section
variable {d : Dev} {w : SherdWrite} {rest : List SherdWrite} {ok : Bool}

/-- The oldest write has ended. -/
def writeEnded (d : Dev) (rest : List SherdWrite) (ok : Bool) : Dev :=
  Dev.tally { d with img := { d.img with writes := rest } } 47 3 (b2n (!ok))

theorem writeEnded_sherdSlot : (writeEnded d rest ok).sherdSlot = d.sherdSlot := rfl

theorem writeEnded_imgSlot (i : Nat) : (writeEnded d rest ok).imgSlot i = d.imgSlot i := rfl

/-- The commands that wait for a written sherd are answered. -/
def sherdAnswer (w : SherdWrite) (d : Dev) (st : Status) : Dev :=
  d.endWaits (fun x => x.kind == WaitKind.sherd && x.src == w.src) fun _ =>
    plainCpl st 0 (if (d.imgSlot w.slot).role = .greenware then (d.imgSlot w.slot).missing else 4096)

theorem sherdAnswer_img (d : Dev) (st : Status) : (sherdAnswer w d st).img = d.img := by
  rw [sherdAnswer, endWaits_frame]

theorem sherdAnswer_slots (d : Dev) (st : Status) : (sherdAnswer w d st).slots = d.slots := by
  rw [sherdAnswer, endWaits_frame]

theorem imgRefused_slots (d : Dev) (st : Status) (result : Nat) : (imgRefused d st result).1.slots = d.slots := by
  unfold imgRefused
  dsimp only
  split <;> simp

theorem sherdWriteDone_none (h : d.img.writes = []) : sherdWriteDone ok d = d := by
  simp only [sherdWriteDone, h]

theorem sherdWriteDone_lost (h : d.img.writes = w :: rest) (hslot : d.sherdSlot ≠ some w.slot) :
    sherdWriteDone ok d = sherdAnswer w (writeEnded d rest ok) .noResource := by
  have hother : ((writeEnded d rest ok).sherdSlot != some w.slot) = true := by simpa [writeEnded_sherdSlot] using hslot
  simp only [sherdWriteDone, h]
  exact if_pos hother

theorem sherdWriteDone_bad (h : d.img.writes = w :: rest) (hslot : d.sherdSlot = some w.slot) :
    sherdWriteDone false d = sherdAnswer w (imgRefused (writeEnded d rest false) .noResource 0).1 .noResource := by
  have hsame : ¬ ((writeEnded d rest false).sherdSlot != some w.slot) = true := by simpa [writeEnded_sherdSlot] using hslot
  simp only [sherdWriteDone, h]
  exact (if_neg hsame).trans (if_pos rfl)

/-- A slot with an accepted sherd that is not the first. -/
def ImgSlot.withSherd (x : ImgSlot) (n : Nat) (b : List Byte) (verified : Bool) : ImgSlot :=
  { x with role := .greenware, sherds := x.sherds ++ [(n, b)], verified := x.verified || verified, erased := false }

/-- The greenware with an accepted sherd that is not the first: IMG_READY is raised where it is complete. -/
def sherdHeld (w : SherdWrite) (d : Dev) : Dev :=
  let e := d.modImg w.slot fun x => x.withSherd w.num w.bytes (manifestWith (d.imgSlot w.slot) w.num w.bytes).isSome
  if (e.imgSlot w.slot).complete then e.raise 0x0E01 (e.imgSlot w.slot).total 0 else e

theorem sherdWriteDone_held (h : d.img.writes = w :: rest) (hslot : d.sherdSlot = some w.slot) (hnum : w.num ≠ 0)
    (hnew : ((d.imgSlot w.slot).sherd w.num).isNone = true)
    (hgood : (manifestWith (d.imgSlot w.slot) w.num w.bytes).bind manifestRefusal = none) :
    sherdWriteDone true d = sherdAnswer w (sherdHeld w (writeEnded d rest true)) .ok := by
  have hsame : ¬ ((writeEnded d rest true).sherdSlot != some w.slot) = true := by simpa [writeEnded_sherdSlot] using hslot
  have hmissing : ¬ (((writeEnded d rest true).imgSlot w.slot).sherd w.num).isSome = true := by
    rw [writeEnded_imgSlot]
    simpa using hnew
  simp only [sherdWriteDone, h]
  refine (if_neg hsame).trans ((if_neg nofun).trans ((if_neg hmissing).trans ?_))
  split
  · next st hst => exact absurd (hgood.symm.trans hst) nofun
  · simp only [if_neg hnum]
    rfl

theorem sherdHeld_img (d : Dev) : (sherdHeld w d).img =
    (d.modImg w.slot fun x => x.withSherd w.num w.bytes (manifestWith (d.imgSlot w.slot) w.num w.bytes).isSome).img := by
  unfold sherdHeld
  dsimp only
  split <;> simp

theorem sherdHeld_slots (d : Dev) : (sherdHeld w d).slots = d.slots := by
  unfold sherdHeld
  dsimp only
  split <;> simp [Dev.modImg]

theorem slotEraseDone_erases {n : Nat} (h : (d.imgSlot n).role = .rejected ∨ (d.imgSlot n).role = .free ∧ (d.imgSlot n).erased = false) :
    slotEraseDone n d = (d.modImg n fun _ => {}).tally 47 2 1 := if_pos h

end

/-- Settles O38: a sherd by the checks in their order, a write by how it ends, a slot by its role. -/
theorem sherds : Obligations.Sherds := by
  unfold Obligations.Sherds
  refine ⟨fun x s d k h => ⟨fun b hb => answers_of_runs rfl h (by rw [opImgSherd, hb]), fun hnone => answers_of_runs rfl h (by rw [opImgSherd, hnone])⟩,
    fun s j mid n restart b d h => ⟨fun hcheck => coapPutImg_begins h hcheck, fun szx hszx => coapPutImg_sized h hszx⟩,
    fun s j mid szx n restart b resp y hy hresp => coapPutImg_stored hy hresp, fun d src n restart b hnone hn => ?_,
    fun d src n slot restart b hslot => ⟨fun hn => ?_, fun h0 hn hrole hgreen hhead hver hpast hwithin hfree htrial => ?_⟩,
    fun s h ok => .congr rfl (sherdWriteDone_none h), fun s w rest ok h hlost => ?_, fun s w rest h hgreen hnum hnew hgood => ?_,
    fun s n hn hrole => ?_⟩
  · rw [imgSherd_noSlot hnone hn]
    exact ⟨rfl, imgRefused_img d 4096 nofun⟩
  · rw [imgSherd_beyond hslot hn]
    rfl
  · have hpayload := PayloadSherd.imgSherd (src := src) (restart := restart) (b := b)
      ⟨h0, hn, hrole, hgreen, hhead, hver, hpast, hwithin, hfree, htrial⟩
    refine ⟨fun hbad => ?_, fun hok hheld => ?_, fun hok hnew => ?_⟩
    · rw [hpayload, hbad]
      exact ⟨rfl, imgRefused_auth_img d _⟩
    · rw [hpayload, hok]
      exact if_pos hheld
    · have hwaits := hpayload.trans ((if_neg (by rw [hok]; nofun)).trans (if_neg (ne_true_of_eq_false hnew)))
      rw [hwaits]
      exact ⟨rfl, rfl, rfl⟩
  · by_cases hslot : s.dev.sherdSlot = some w.slot
    · obtain rfl : ok = false := hlost.resolve_left (not_not_intro hslot)
      refine ⟨_, .congr rfl (sherdWriteDone_bad h hslot), ?_, ?_⟩
      · rw [sherdAnswer_img, imgRefused_img _ _ (by decide)]; rfl
      · rw [sherdAnswer_slots, imgRefused_slots]; rfl
    · refine ⟨_, .congr rfl (sherdWriteDone_lost h hslot), ?_, ?_⟩
      · rw [sherdAnswer_img]; rfl
      · rw [sherdAnswer_slots]; rfl
  · have hslot : s.dev.sherdSlot = some w.slot := by simp [Dev.sherdSlot, hgreen]
    have himg := sherdAnswer_img (w := w) (sherdHeld w (writeEnded s.dev rest true)) .ok
    rw [sherdHeld_img] at himg
    refine ⟨_, .congr rfl (sherdWriteDone_held h hslot hnum hnew hgood), congrArg Img.writes himg, ?_, ?_, fun j hj => ?_, ?_⟩
    · rw [imgSlot_congr himg, imgSlot_modImg_self]; rfl
    · rw [imgSlot_congr himg, imgSlot_modImg_self]; rfl
    · rw [imgSlot_congr himg, imgSlot_modImg_ne _ _ hj]; rfl
    · rw [sherdAnswer_slots, sherdHeld_slots]; rfl
  · exact ⟨_, .congr (onDevAt_lt s _ hn) (slotEraseDone_erases hrole), rfl, imgSlot_modImg_self .., fun j hj => imgSlot_modImg_ne _ _ hj⟩

/-! ### The commands that ask for a start (R451, R459) -/

section
variable {d : Dev} {src : Src} {p : Word} {g : Nat}

theorem imgActivate_refused (h : d.greenReady = none ∨ d.img.start ≠ none) : imgActivate src p d = imgRefused d .state 0 := by
  unfold imgActivate
  split
  · rfl
  · next hg => exact if_pos (Option.isSome_iff_ne_none.mpr (h.resolve_left (by rw [hg]; nofun)))

theorem imgActivate_candidate (hg : d.greenReady = some g) (hstart : d.img.start = none) (hcheck : imageCheck d g true = none) :
    imgActivate src p d =
      if !wouldHandOver d g && !bit p 0 then imgRefused d .version 0
      else beginStart { slot := g, last := if wouldHandOver d g then 1 else 2, cold := !wouldHandOver d g, green := true } src .activate d := by
  simp only [imgActivate, hg, hstart, hcheck]
  rfl

theorem imgRollback_refused (h : d.rollbackTarget = none ∨ d.img.start ≠ none) : imgRollback src d = imgRefused d .state 0 := by
  unfold imgRollback
  split
  · rfl
  · next hg => exact if_pos (Option.isSome_iff_ne_none.mpr (h.resolve_left (by rw [hg]; nofun)))

theorem imgRollback_target (hg : d.rollbackTarget = some g) (hstart : d.img.start = none) (hcheck : imageCheck d g false = none) :
    imgRollback src d = beginStart
      { slot := g, last := if wouldHandOver d g then 4 else 5, cold := !wouldHandOver d g, green := false, fbAt := true
        fbSwitch := needsSwitch d g } src .rollback d := by
  simp only [imgRollback, hg, hstart, hcheck]
  rfl

theorem warmStart_busy (h : d.img.start ≠ none) : warmStart src d = (d, .done .state 0) := if_pos (Option.isSome_iff_ne_none.mpr h)

theorem warmStart_green (hstart : d.img.start = none) (hg : d.greenReady = some g) (hcheck : imageCheck d g true = none)
    (hwarm : wouldHandOver d g = true) :
    warmStart src d = beginStart { slot := g, last := 1, cold := false, green := true } src .warmStart d := by
  simp [warmStart, hstart, hg, hcheck, hwarm, Option.filter]

theorem warmStart_unfit {st : Status} (hstart : d.img.start = none) (hg : d.greenReady = none)
    (h : imageCheck d d.img.run false = some st) : warmStart src d = (d, .done st 0) := by
  simp [warmStart, hstart, hg, h]

theorem warmStart_run (hstart : d.img.start = none) (hg : d.greenReady = none) (h : imageCheck d d.img.run false = none) :
    warmStart src d = beginStart { slot := d.img.run, last := 7, cold := false, green := false } src .warmStart d := by
  simp [warmStart, hstart, hg, h]

end

section
variable {x : Desc} {s : State} {d : Dev} {k : Nat} {r : Dev × Answer}

theorem answers_imgActivate (h : Runs 0x0603 x s d k) (hr : imgActivate x.src (par x 0) d = r) :
    Answers (.imgActivate x) s (replied x k (answered x r)) := answers_of_runs rfl h (congrArg (answered x) hr)

theorem answers_imgRollback (h : Runs 0x0604 x s d k) (hr : imgRollback x.src d = r) :
    Answers (.imgRollback x) s (replied x k (answered x r)) := answers_of_runs rfl h (congrArg (answered x) hr)

theorem answers_warmStart (h : Runs 0x0703 x s d k) (hr : warmStart x.src d = r) :
    Answers (.warmStart x) s (replied x k (answered x r)) := answers_of_runs rfl h (congrArg (answered x) hr)

end

/-- Settles O39: each command by whether a start runs and a candidate passes. -/
theorem startsAsked : Obligations.StartsAsked := by
  unfold Obligations.StartsAsked
  have hrefused (d : Dev) (st : Status) (hst : st ≠ .auth) : (imgRefused d st 0).1.img = d.img := imgRefused_img d 0 hst
  refine ⟨fun x s d k h => ⟨fun hno => ?_, fun g hg hstart hcheck => ?_⟩, fun x s d k h => ⟨fun hno => ?_, fun g hg hstart hcheck => ?_⟩,
    fun x s d k h => ⟨fun hbusy => ?_, fun g hstart hg hcheck hwarm => ?_, fun hstart hg => ⟨fun st hst => ?_, fun hcheck => ?_⟩⟩⟩
  · exact ⟨_, answers_imgActivate h (imgActivate_refused hno), hrefused d .state (by decide)⟩
  · have hcand := imgActivate_candidate (src := x.src) (p := par x 0) hg hstart hcheck
    refine ⟨fun hwarm => ?_, fun hcold hbit => ?_, fun hcold hbit => ⟨_, ?_, hrefused d .version (by decide)⟩⟩
    · rw [hwarm] at hcand
      exact answers_imgActivate h hcand
    · rw [hcold, hbit] at hcand
      exact answers_imgActivate h hcand
    · rw [hcold, hbit] at hcand
      exact answers_imgActivate h hcand
  · exact ⟨_, answers_imgRollback h (imgRollback_refused hno), hrefused d .state (by decide)⟩
  · exact answers_imgRollback h (imgRollback_target hg hstart hcheck)
  · exact answers_warmStart h (warmStart_busy hbusy)
  · exact answers_warmStart h (warmStart_green hstart hg hcheck hwarm)
  · exact answers_warmStart h (warmStart_unfit hstart hg hst)
  · exact answers_warmStart h (warmStart_run hstart hg hcheck)

/-! ### What the operations of a start leave (R452 to R456) -/

theorem putLine_sram (d : Dev) (b i : Nat) (ws : List (BitVec 64)) : ∃ m, d.putLine b i ws = { d with sram := m } := by
  unfold Dev.putLine
  dsimp only
  split <;> exact ⟨_, rfl⟩

theorem putLine_putLine_sram (d : Dev) (a b i j : Nat) (vs ws : List (BitVec 64)) :
    ∃ m, (d.putLine a i vs).putLine b j ws = { d with sram := m } := by
  obtain ⟨m, hm⟩ := putLine_sram d a i vs
  rw [hm]
  obtain ⟨n, hn⟩ := putLine_sram { d with sram := m } b j ws
  exact ⟨n, hn⟩

theorem writeLine_sram (d : Dev) (b i : Nat) (old : Option (List (BitVec 64))) (ws : List (BitVec 64)) :
    ∃ m, d.writeLine b i old ws = { d with sram := m } := by
  unfold Dev.writeLine Dev.rewriteP
  split
  · exact putLine_sram ..
  · dsimp only
    split
    · split <;> exact putLine_putLine_sram ..
    · exact putLine_putLine_sram ..

theorem clearRegion_sram (r : Nat) (d : Dev) : ∃ m, clearRegion r d = { d with sram := m } :=
  List.foldlRecOn (motive := fun e : Dev => ∃ m, e = { d with sram := m }) _ _ ⟨d.sram, rfl⟩ fun e he p _ => by
    obtain ⟨m, rfl⟩ := he
    obtain ⟨n, hn⟩ := writeLine_sram { d with sram := m } p.bank p.index none
      (readWords (({ d with sram := m } : Dev).storedLine p.bank p.index).words).words
    exact ⟨n, hn⟩

theorem pdRestart_frame (d : Dev) (g : Nat) : ∃ a t, pdRestart d g = { d with acq := a, tal := t } ∧ a.calBusy = d.acq.calBusy := by
  unfold pdRestart
  split
  · refine List.foldlRecOn (motive := fun e : Dev => ∃ a t, e = { d with acq := a, tal := t } ∧ a.calBusy = d.acq.calBusy) _ _
      ⟨_, _, rfl, rfl⟩ fun e he k _ => ?_
    obtain ⟨a, t, rfl, hbusy⟩ := he
    exact ⟨_, _, rfl, hbusy⟩
  · exact ⟨_, _, rfl, rfl⟩

theorem pdRestarts_frame (l : List Nat) (d : Dev) :
    ∃ a t, l.foldl pdRestart d = { d with acq := a, tal := t } ∧ a.calBusy = d.acq.calBusy :=
  List.foldlRecOn (motive := fun e : Dev => ∃ a t, e = { d with acq := a, tal := t } ∧ a.calBusy = d.acq.calBusy) _ _
    ⟨_, _, rfl, rfl⟩ fun e he g _ => by
      obtain ⟨a, t, rfl, hbusy⟩ := he
      obtain ⟨b, u, hg, hb⟩ := pdRestart_frame { d with acq := a, tal := t } g
      exact ⟨b, u, hg, hb.trans hbusy⟩

/-- The precision channels as their calibration begins. -/
def pdCalBegun (d : Dev) : Dev :=
  let d := (List.range 8).foldl pdRestart d
  { d with acq := { d.acq with
    pdCalTurn := true
    pd := (List.range 32).foldl (fun t n => tmod {} t n fun c =>
      { c with calHold := true, direct := c.direct ||| 0x08000000, notched := c.notched ||| 0x08000000 }) d.acq.pd } }

theorem pdCalBegun_frame (d : Dev) : ∃ a t, pdCalBegun d = { d with acq := a, tal := t } ∧ a.calBusy = d.acq.calBusy := by
  obtain ⟨a, t, hpd, hbusy⟩ := pdRestarts_frame (List.range 8) d
  unfold pdCalBegun
  rw [hpd]
  exact ⟨_, _, rfl, hbusy⟩

theorem pdCalIf_frame (p : Bool) (d : Dev) :
    ∃ a t, (if p then pdCalBegun d else d) = { d with acq := a, tal := t } ∧ a.calBusy = d.acq.calBusy := by
  split
  · exact pdCalBegun_frame d
  · exact ⟨_, _, rfl, rfl⟩

/-- A calibration that is asked for runs, or has been running. -/
theorem calStart_frame (v : Word) (d : Dev) (h : bit v 0 = true) :
    ∃ a t, calStart v d = { d with acq := a, tal := t } ∧ a.calBusy = true := by
  unfold calStart
  split
  · next hno => exact ⟨_, _, rfl, by simpa [h] using hno⟩
  · exact pdCalIf_frame _ _

/-- What a completion or an event leaves of the link and of what a mailbox holds. -/
def KeepsHeld (d e : Dev) : Prop := e.host.link = d.host.link ∧ ∀ p, (e.twb.box p).held = (d.twb.box p).held

theorem KeepsHeld.refl (d : Dev) : KeepsHeld d d := ⟨rfl, fun _ => rfl⟩

theorem KeepsHeld.trans {d e f : Dev} (h : KeepsHeld d e) (g : KeepsHeld e f) : KeepsHeld d f :=
  ⟨g.1.trans h.1, fun p => (g.2 p).trans (h.2 p)⟩

theorem modBox_held (d : Dev) (peer : Bool) {f : Mbox → Mbox} (hf : ∀ b, (f b).held = b.held) : KeepsHeld d (d.modBox peer f) := by
  refine ⟨rfl, fun p => ?_⟩
  cases peer <;> cases p <;> simp [Dev.modBox, TwoWire.box, hf]

theorem noteAttn_held (d : Dev) (peer : Bool) (reason : Nat) : KeepsHeld d (d.noteAttn peer reason) :=
  modBox_held d peer (f := fun b => { b with attn := b.attn ||| BitVec.ofNat 4 (2 ^ reason) }) fun _ => rfl

theorem alert_held (d : Dev) : KeepsHeld d { d with twb := { d.twb with alert := true, pulseDue := true } } :=
  ⟨rfl, fun p => by cases p <;> rfl⟩

theorem attend_held (d : Dev) (reason : Nat) : KeepsHeld d (d.attend reason) := by
  have hnoted : KeepsHeld d (if reason = 0 then d else d.noteAttn true reason) := by
    split
    · exact .refl d
    · exact noteAttn_held d true reason
  exact (hnoted.trans (noteAttn_held _ false reason)).trans (alert_held _)

theorem deliver_held (d : Dev) (src : Option Src) (c : Cpl) : KeepsHeld d (d.deliver src c) := by
  unfold Dev.deliver
  split
  · exact ⟨rfl, fun _ => rfl⟩
  · next peer =>
    have hresponse := modBox_held d peer (f := fun b => { b with
      st := .response, pos := 0, resp := mboxFrame 0x81 (completionBytes true d.wheel.turn.toNat c ++ c.out) }) fun _ => rfl
    dsimp only
    split
    · exact hresponse.trans (noteAttn_held _ true 0)
    · exact hresponse.trans (attend_held _ 0)
  · rw [coapReply_frame]
    exact ⟨rfl, fun _ => rfl⟩
  · exact .refl d

theorem answerWait_held (d : Dev) (w : Wait) (c : Cpl) : KeepsHeld d (d.answerWait w c) := by
  unfold Dev.answerWait
  split
  · exact ⟨rfl, fun _ => rfl⟩
  · exact deliver_held d w.src c

theorem endWaits_held (d : Dev) (p : Wait → Bool) (f : Wait → Cpl) : KeepsHeld d (d.endWaits p f) :=
  List.foldlRecOn (motive := KeepsHeld d) _ _ ⟨rfl, fun _ => rfl⟩ fun _ he w _ => he.trans (answerWait_held _ w (f w))

theorem raise_held (d : Dev) (code detail : Nat) (h : Word) : KeepsHeld d (d.raise code detail h) := by
  have hlink : ∀ (x : HostIf) (b : Bool) (t : Nat), (x.raise b code detail h t).link = x.link := by
    intro x b t
    unfold HostIf.raise
    split <;> rfl
  refine ⟨?_, fun p => by simp⟩
  unfold Dev.raise
  dsimp only
  (repeat' split) <;> exact hlink _ _ _

theorem setReady_frame (on : Bool) (d : Dev) :
    ∃ t, setReady on d = { d with plane := { d.plane with mgmtRunning := on }, twb := t } := by
  unfold setReady
  split
  · next h => exact ⟨d.twb, by rw [← h]⟩
  · exact ⟨_, attend_frame _ 3⟩

theorem setReady_held (on : Bool) (d : Dev) : KeepsHeld d (setReady on d) := by
  unfold setReady
  split
  · exact .refl d
  · exact attend_held { d with plane := { d.plane with mgmtRunning := on } } 3

/-- No wait of a kind stands after all of it have ended. -/
theorem endWaits_kinds (d : Dev) {p : Wait → Bool} {f : Wait → Cpl} {q : WaitKind → Bool} (hp : ∀ w : Wait, p w = q w.kind)
    (hlost : q .lost = false) : ∀ w ∈ (d.endWaits p f).waits, q w.kind = false := by
  refine List.foldlRecOn (motive := fun e : Dev => ∀ w ∈ e.waits, q w.kind = false) _ _ (fun w hw => ?_) fun e he x _ w hw => ?_
  · simpa [hp] using (List.mem_filter.mp hw).2
  · unfold Dev.answerWait at hw
    split at hw
    · rcases List.mem_append.mp hw with hw | hw
      · exact he w hw
      · rw [List.mem_singleton.mp hw]; exact hlost
    · rw [deliver_frame] at hw
      exact he w hw

theorem runHeld_none {peer : Bool} {d : Dev} (h : (d.twb.box peer).held = none) : runHeld peer d = d := by
  simp only [runHeld, h]

theorem runHelds_none {d : Dev} (h : ∀ peer, (d.twb.box peer).held = none) : runHeld true (runHeld false d) = d := by
  rw [runHeld_none (h false), runHeld_none (h true)]

/-! ### The steps of a handover (R452 to R456, R389) -/

section
variable {d : Dev} {st : StartRt}

/-- The images as the copy of a start has ended: T, the Firebox image in the other bank, and the switch that is due. -/
def copiedImg (st : StartRt) (tick : Nat) (d : Dev) : Img :=
  let t := d.wheel.turn + (if tick + 16384 ≤ 65536 then 1 else 2)
  let v := (d.imgSlot st.slot).field 24 4
  let differs := st.green && v != d.fbVersion d.img.fbRun
  { d.img with
    start := some { st with phase := .copied, turn := t }
    banks := if st.green then tset {} d.img.banks d.fbOther { version := some v } else d.img.banks
    fbDue := if differs then some (d.fbOther, t + 1) else if st.fbSwitch then some (d.fbOther, t) else none }

theorem copyDone_copying (tick : Nat) (hst : d.img.start = some st) (hphase : st.phase = .copying) :
    ∃ m, copyDone tick d = { d with img := copiedImg st tick d, sram := m } := by
  simp only [copyDone, hst, if_pos hphase]
  exact clearRegion_sram (1 - d.img.region) { d with img := copiedImg st tick d }

theorem holdCommands_copied (hst : d.img.start = some st) (hphase : st.phase = .copied) :
    holdCommands d = { d with img := { d.img with start := some { st with phase := .holding } } } := by
  simp only [holdCommands, hst, if_pos hphase]

theorem heartbeat_frame (d : Dev) : ∃ p m h t g, heartbeat d = { d with plane := p, img := m, host := h, tal := t, sag := g } := by
  unfold heartbeat
  dsimp only
  split
  · exact ⟨_, _, _, _, _, raise_frame _ _ _ _⟩
  · exact ⟨_, _, _, _, _, rfl⟩

/-- The old image's last boundary: its heartbeat, unless the start is cold. -/
def lastBeat (st : StartRt) (d : Dev) : Dev := if st.cold then d else heartbeat d

theorem lastBeat_frame (st : StartRt) (d : Dev) : ∃ p m h t g, lastBeat st d = { d with plane := p, img := m, host := h, tal := t, sag := g } := by
  unfold lastBeat
  split
  · exact ⟨_, _, _, _, _, rfl⟩
  · exact heartbeat_frame d

theorem handoverBoundary_due (hst : d.img.start = some st) (hdue : st.phase = .holding ∧ st.turn = d.wheel.turn) :
    handoverBoundary d = setReady false { lastBeat st d with
      img := { (lastBeat st d).img with start := some { st with phase := .handedOver } }
      led := { (lastBeat st d).led with handover := true } } := by
  simp only [handoverBoundary, hst, if_pos hdue]
  rfl

theorem startRoles_frame (st : StartRt) (d : Dev) : ∃ m h t g, startRoles st d = { d with img := m, host := h, tal := t, sag := g } := by
  unfold startRoles
  split
  · exact ⟨_, _, _, _, rfl⟩
  · split
    · split <;> exact ⟨_, _, _, _, rfl⟩
    · split
      · dsimp only
        split
        · exact ⟨_, _, _, _, raise_frame _ _ _ _⟩
        · split <;> exact ⟨_, _, _, _, raise_frame _ _ _ _⟩
      · exact ⟨_, _, _, _, rfl⟩

/-- The device as the new image has begun to run: the roles, the record of the start, the sessions. -/
def imageRuns (st : StartRt) (cold : Bool) (d : Dev) : Dev :=
  let d' := startRoles st d
  { d' with
    img := { d'.img with
      run := st.slot, last := st.last, lastTurn := d'.wheel.turn, safeHold := false, noCandidate := false
      region := if st.last = 0 then 0 else 1 - d'.img.region
      start := some { st with phase := .started, cold := cold } }
    net := { d'.net with
      shaking := []
      sessions := if cold then [] else d'.net.sessions.map fun p => (p.1, { p.2 with isOpen := false }) } }

/-- … and as its memory, its cores and its estimators have restarted. -/
def imageStarted (st : StartRt) (cold : Bool) (d : Dev) : Dev :=
  battHintsClear (coresRestart (clearRegion (imageRuns st cold d).img.region (imageRuns st cold d)))

theorem imageStarted_frame (st : StartRt) (cold : Bool) (d : Dev) :
    ∃ m g b, imageStarted st cold d = { imageRuns st cold d with sram := m, sag := g, strs := b } := by
  obtain ⟨m, hm⟩ := clearRegion_sram (imageRuns st cold d).img.region (imageRuns st cold d)
  unfold imageStarted
  rw [hm]
  exact ⟨_, _, _, rfl⟩

theorem newImageStart_due (ok : Bool) (hst : d.img.start = some st) (hphase : st.phase = .handedOver) : newImageStart ok d =
    (if st.cold || !ok then
      coldStart (st.last == 3 || st.last == 0 || (st.last == 7 && st.cold)) (imageStarted st (st.cold || !ok) d)
     else imageStarted st (st.cold || !ok) d).raise 0x0E03 st.last 0 := by
  simp only [newImageStart, hst, if_pos hphase]
  rfl

theorem newImageStart_early (ok : Bool) (hst : d.img.start = some st) (hphase : st.phase ≠ .handedOver) : newImageStart ok d = d := by
  simp only [newImageStart, hst, if_neg hphase]

theorem startRoles_green (h : st.green = true) : startRoles st d =
    { d.modImg st.slot fun s => { s with role := .trial } with img := { (d.modImg st.slot fun s => { s with role := .trial }).img with
      trialStarts := 1, confirm := 0, missedBeat := false, noBeat := st.last == 0 || st.cold } } := if_pos h

end

/-! ### MGMT_READY -/

/-- A start has ended: the plane runs. -/
def readyRuns (d : Dev) : Dev :=
  let d := if d.hasWait .warmStart 0 then { d with sag := { d.sag with heldRestart := true } } else d
  setReady true { d with img := { d.img with start := none }, pow := { d.pow with phase := .up } }

/-- The failures of the housekeeping supplies that wait to be delivered are. -/
def hkReported (d : Dev) : Dev :=
  if d.pow.hkReport then Dev.raise { d with pow := { d.pow with hkReport := false } } 0x1202 d.pow.hkFails 0 else d

/-- The commands that asked for the start complete, and the supplies' failures are delivered. -/
def readyAnswered (d : Dev) : Dev := hkReported ((readyRuns d).endWaits (fun w => w.kind.isStart) fun _ => plainCpl .ok 0 0)

theorem mgmtReady_started {d : Dev} {st : StartRt} (hst : d.img.start = some st) (hphase : st.phase = .started) :
    mgmtReady d = if (readyAnswered d).host.link = .down then calStart 1 (readyAnswered d) else readyAnswered d := by
  have hnew : newImageStart true d = d := newImageStart_early true hst (by rw [hphase]; decide)
  simp only [mgmtReady, hnew, hst, if_pos hphase]
  rfl

theorem readyRuns_frame (d : Dev) : ∃ g t, readyRuns d = { d with
    sag := g, twb := t, img := { d.img with start := none }, pow := { d.pow with phase := .up }
    plane := { d.plane with mgmtRunning := true } } := by
  unfold readyRuns
  dsimp only
  split
  · obtain ⟨t, ht⟩ := setReady_frame true
      { d with sag := { d.sag with heldRestart := true }, img := { d.img with start := none }, pow := { d.pow with phase := .up } }
    exact ⟨_, t, ht⟩
  · obtain ⟨t, ht⟩ := setReady_frame true { d with img := { d.img with start := none }, pow := { d.pow with phase := .up } }
    exact ⟨_, t, ht⟩

theorem readyRuns_held (d : Dev) : KeepsHeld d (readyRuns d) := by
  unfold readyRuns
  dsimp only
  split <;> exact setReady_held true _

theorem hkReported_frame (d : Dev) : ∃ p h t g, hkReported d = { d with pow := p, host := h, tal := t, sag := g } ∧ p.phase = d.pow.phase := by
  unfold hkReported
  split
  · exact ⟨_, _, _, _, raise_frame _ _ _ _, rfl⟩
  · exact ⟨_, _, _, _, rfl, rfl⟩

theorem hkReported_held (d : Dev) : KeepsHeld d (hkReported d) := by
  unfold hkReported
  split
  · exact raise_held { d with pow := { d.pow with hkReport := false } } _ _ _
  · exact .refl d

theorem readyAnswered_held (d : Dev) : KeepsHeld d (readyAnswered d) :=
  ((readyRuns_held d).trans (endWaits_held _ _ _)).trans (hkReported_held _)

/-- The plane that a start leaves running. -/
theorem readyAnswered_runs (d : Dev) : (readyAnswered d).plane.mgmtRunning = true ∧ (readyAnswered d).img = { d.img with start := none } ∧
    (readyAnswered d).pow.phase = .up ∧ ∀ w ∈ (readyAnswered d).waits, w.kind.isStart = false := by
  have hwaits := endWaits_kinds (readyRuns d) (p := fun w => w.kind.isStart) (f := fun _ => plainCpl .ok 0 0) (fun _ => rfl) rfl
  obtain ⟨g, t, hruns⟩ := readyRuns_frame d
  obtain ⟨p, h, u, v, hhk, hphase⟩ := hkReported_frame ((readyRuns d).endWaits (fun w => w.kind.isStart) fun _ => plainCpl .ok 0 0)
  unfold readyAnswered
  rw [hhk]
  refine ⟨?_, ?_, hphase.trans ?_, hwaits⟩ <;> rw [endWaits_frame, hruns]

/-- Settles O40: each step by the phase that it begins in. -/
theorem handover : Obligations.Handover := by
  unfold Obligations.Handover
  refine ⟨fun s hnone => ⟨fun t => .congr rfl ?_, .congr rfl ?_, .congr rfl ?_, fun ok => .congr rfl ?_, fun hheld => .congr rfl ?_⟩,
    fun s st tick hst hphase => ?_, fun s st hst hphase => ⟨_, .congr rfl (holdCommands_copied hst hphase), rfl, rfl, ?_⟩,
    fun s st hst hphase hturn => ?_, fun s st ok hst hphase => ?_, fun s st hst hphase hheld => ?_⟩
  · simp only [copyDone, hnone]
  · simp only [holdCommands, hnone]
  · simp only [handoverBoundary, hnone]
  · simp only [newImageStart, hnone]
  · simp only [mgmtReady, newImageStart, hnone]
    exact runHelds_none hheld
  · obtain ⟨m, hm⟩ := copyDone_copying tick hst hphase
    refine ⟨_, .congr rfl hm, rfl, rfl, fun htick => ?_, fun htick => ?_, fun hgreen => ?_, fun hgreen => if_neg (ne_true_of_eq_false hgreen)⟩
    · simp [copiedImg, show tick + 16384 ≤ 65536 by omega]
    · simp [copiedImg, show ¬ tick + 16384 ≤ 65536 by omega]
    · simp [Dev.fbVersion, Dev.fbBank, copiedImg, hgreen]
  · simp [Dev.serves, Dev.holdsCommands]
  · obtain ⟨p, m, h, t, g, hbeat⟩ := lastBeat_frame st s.dev
    obtain ⟨b, hready⟩ := setReady_frame false { lastBeat st s.dev with
      img := { (lastBeat st s.dev).img with start := some { st with phase := .handedOver } }
      led := { (lastBeat st s.dev).led with handover := true } }
    refine ⟨_, .congr rfl ((handoverBoundary_due hst ⟨hphase, hturn⟩).trans hready), rfl, rfl, ?_, ?_, ?_, ?_⟩ <;> rw [hbeat]
  · obtain ⟨m, g, b, hstarted⟩ := imageStarted_frame st (st.cold || !ok) s.dev
    obtain ⟨m', h, t, g', hroles⟩ := startRoles_frame st s.dev
    have hcoldIs (hcold : st.cold = true ∨ ok = false) : (st.cold || !ok) = true := by rcases hcold with h | h <;> simp [h]
    have hnew := newImageStart_due ok hst hphase
    refine ⟨imageStarted st (st.cold || !ok) s.dev, ?_, ?_, ?_, ?_, ?_, ?_, fun hgreen => ?_, fun hcold => ?_, fun hwarm hok => ⟨?_, ?_⟩,
      fun hcold => ⟨_, .congr rfl (hnew.trans (by rw [if_pos (hcoldIs hcold)]))⟩⟩
    · rw [hstarted]; rfl
    · rw [hstarted]; rfl
    · rw [hstarted, imageRuns, hroles]
    · rw [hstarted]; rfl
    · rw [hstarted]; rfl
    · rw [hstarted, imageRuns, hroles]
    · rw [hstarted, imageRuns, startRoles_green hgreen]
      exact ⟨(congrArg ImgSlot.role (imgSlot_modImg_self s.dev st.slot fun x => { x with role := .trial }) :), rfl, rfl⟩
    · rw [hstarted, hcoldIs hcold]; rfl
    · rw [hstarted, imageRuns, hroles, hwarm, hok]; rfl
    · exact .congr rfl (hnew.trans (by rw [hwarm, hok]; rfl))
  · obtain ⟨hrun, himg, hup, hwaits⟩ := readyAnswered_runs s.dev
    obtain ⟨hlink, hbox⟩ := readyAnswered_held s.dev
    have hready := mgmtReady_started hst hphase
    rw [hlink] at hready
    by_cases hdown : s.dev.host.link = .down
    · rw [if_pos hdown] at hready
      obtain ⟨a, t, hcal, hbusy⟩ := calStart_frame 1 (readyAnswered s.dev) (by decide)
      rw [hcal] at hready
      refine ⟨_, .congr rfl ((congrArg (fun d => runHeld true (runHeld false d)) hready).trans
        (runHelds_none fun peer => (hbox peer).trans (hheld peer))), hrun, (congrArg Img.start himg :), hup, (congrArg Img.run himg :), hwaits, fun _ => hbusy⟩
    · rw [if_neg hdown] at hready
      refine ⟨_, .congr rfl ((congrArg (fun d => runHeld true (runHeld false d)) hready).trans
        (runHelds_none fun peer => (hbox peer).trans (hheld peer))), hrun, (congrArg Img.start himg :), hup, (congrArg Img.run himg :), hwaits,
        fun h => absurd h hdown⟩

end Sys2Proof.Machine
end

/-! ## Fast converters (spec 04) -/

section
/-! PROOF. Starts, injected sequences and conversions of the fast converters (R91, R93, R96, R97). -/

namespace Sys2Proof.Machine

/-! ### A converter after a change of it -/

@[simp] theorem Dev.tally_conv (d : Dev) (s c n k : Nat) : (d.tally s c n).conv k = d.conv k := rfl

@[simp] theorem raiseOnceTurn_conv (d : Dev) (key code detail : Nat) (h : Word) (c : Nat) :
    (d.raiseOnceTurn key code detail h).conv c = d.conv c := by
  rw [raiseOnceTurn_frame]; rfl

/-- The device with the last word of an FS input. -/
def Dev.setFsWord (d : Dev) (input : Nat) (w : Word) : Dev :=
  { d with acq := { d.acq with fsWord := tset 0 d.acq.fsWord input w } }

@[simp] theorem Dev.setFsWord_fsLast (d : Dev) (input : Nat) (w : Word) : (d.setFsWord input w).fsLast input = w :=
  tget_tset_self ..

@[simp] theorem Dev.setFsWord_conv (d : Dev) (input : Nat) (w : Word) (c : Nat) : (d.setFsWord input w).conv c = d.conv c := rfl

@[simp] theorem Dev.setFsWord_sag (d : Dev) (input : Nat) (w : Word) : (d.setFsWord input w).sag = d.sag := rfl

/-! ### Changes of the acquisition alone -/

/-- `e` differs from `d` in the acquisition state and in the Tallies alone. -/
def AcqChange (d e : Dev) : Prop := e = { d with acq := e.acq, tal := e.tal }

namespace AcqChange

theorem trans {d e f : Dev} (h : AcqChange d e) (h' : AcqChange e f) : AcqChange d f := by
  unfold AcqChange at *
  rw [h', h]

theorem modConv (d : Dev) (c : Nat) (f : Conv → Conv) : AcqChange d (d.modConv c f) := rfl

theorem tally (d : Dev) (s c n : Nat) : AcqChange d (d.tally s c n) := rfl

theorem setFsWord (d : Dev) (input : Nat) (w : Word) : AcqChange d (d.setFsWord input w) := rfl

end AcqChange

/-! ### Advance of a converter -/

/-- A start with inputs left, or no start, on a converter at work: nothing advances. -/
theorem Conv.advance_of_busy {cv : Conv} (h : ∀ y, cv.current = some y → y.inputs ≠ []) (hb : cv.busy = true) :
    cv.advance = cv := by
  unfold Conv.advance
  cases hc : cv.current with
  | none => exact if_pos hb
  | some y => simp [h y hc, hb]

/-- An ended start on a converter without injected work gives place to the first that waits. -/
theorem Conv.advance_of_ended {cv : Conv} {y : FsStart} (hc : cv.current = some y) (hy : y.inputs = [])
    (hr : cv.injRunning = []) (hp : cv.injPending = []) :
    cv.advance = { cv with current := cv.waiting.head?, waiting := cv.waiting.drop 1 } := by
  simp [Conv.advance, Conv.busy, hc, hy, hr, hp]

/-! ### A start on one converter -/

section
variable {d : Dev} {c g k : Nat}

theorem startOn_nothing (h : (newStart d c g k).inputs = []) : startOn d c g k = (d, false) :=
  if_pos (List.isEmpty_iff.2 h)

theorem startOn_idle (h : (newStart d c g k).inputs ≠ []) (hb : (d.conv c).busy = false) :
    startOn d c g k = ((d.modConv c fun cv => { cv with current := some (newStart d c g k) }).tally (8 + c) 0 1, false) := by
  simp [startOn, h, hb]

theorem startOn_dropped (h : (newStart d c g k).inputs ≠ []) (hb : (d.conv c).busy = true)
    (hw : ∃ y ∈ (d.conv c).waiting, y.gen = g) :
    startOn d c g k = ((((d.modConv c fun cv => { cv with dropped := satAdd 8 cv.dropped 1 }).raiseOnceTurn
      (0x0204 * 4096 + c) 0x0204 c 0).tally (8 + c) 5 1), true) := by
  simp [startOn, h, hb, hw]

theorem startOn_waits (h : (newStart d c g k).inputs ≠ []) (hb : (d.conv c).busy = true)
    (hw : ∀ y ∈ (d.conv c).waiting, y.gen ≠ g) :
    startOn d c g k = ((d.modConv c fun cv => { cv with waiting := cv.waiting ++ [newStart d c g k] }).tally (8 + c) 0 1, false) := by
  have hn : ((d.conv c).waiting.any fun s => s.gen == g) = false := by simpa using hw
  simp [startOn, h, hb, hn]
end

/-! ### Triggers -/

/-- A start of a defined generator, as `sampleTrigger` begins it: the counts taken before, then every converter. -/
def Dev.triggered (d : Dev) (g : Nat) : Dev × List Nat :=
  startAll (railStarts g (chanStarts g (ledStart g { d with
    acq := { d.acq with genCount := tset 0 d.acq.genCount g ((tget 0 d.acq.genCount g + 1) % 64) } }))) g
    (tget 0 d.acq.genCount g)

theorem sampleTrigger_undefined {d : Dev} {g : Nat} (h : d.genDefined g = false) : sampleTrigger g d = d :=
  if_pos (by rw [h]; rfl)

/-- A fold of operations keeps what each of them keeps. -/
theorem foldl_keeps {α β : Type} (view : Dev → β) {f : Dev → α → Dev} (h : ∀ d a, view (f d a) = view d) (l : List α) (d : Dev) :
    view (l.foldl f d) = view d := by
  induction l generalizing d with
  | nil => rfl
  | cons a l ih => exact (ih _).trans (h d a)

@[simp] theorem addPhases_plane (d : Dev) (i n : Nat) : (addPhases d i n).plane = d.plane := by
  refine foldl_keeps (·.plane) (fun d k => ?_) _ _
  simp

@[simp] theorem shedOne_plane (d : Dev) (i : Nat) : (shedOne d i).plane = d.plane := by
  unfold shedOne
  split <;> rfl

@[simp] theorem shedAdd_plane (d : Dev) (i : Nat) (mayShed : Bool) : (shedAdd d i mayShed).plane = d.plane := by
  unfold shedAdd
  dsimp only
  (repeat' split) <;> simp

@[simp] theorem railCurrentSample_plane (d : Dev) (i : Nat) : (railCurrentSample d i).plane = d.plane :=
  shedAdd_plane ..

@[simp] theorem witTake_plane (turn : BitVec 48) (q sub : Nat) (src : Word) (num : Int) (den : Nat) (dflt : Bool) (d : Dev)
    (key : Nat) : (witTake turn q sub src num den dflt d key).plane = d.plane := by
  unfold witTake
  dsimp only
  (repeat' split) <;> rfl

@[simp] theorem witValue_plane (src : Word) (q sub : Nat) (num : Int) (den : Nat) (dflt : Bool) (d : Dev) :
    (witValue src q sub num den dflt d).plane = d.plane := by
  unfold witValue witValueAt
  split
  · rfl
  · exact foldl_keeps (·.plane) (witTake_plane _ q sub src num den dflt) _ _

@[simp] theorem ledRail_plane (d : Dev) (g i : Nat) : (ledRail d g i).plane = d.plane := by
  unfold ledRail
  split <;> rfl

@[simp] theorem ledStart_plane (g : Nat) (d : Dev) : (ledStart g d).plane = d.plane := by
  have haccs (d : Dev) (n : Nat) : ((sfMembers (d.srcCfg n)).foldl (fun d x =>
      if rqTrig (sfIn (d.srcCfg n) x 1) = g then d.modAcc 0x01 x fun a => { a with starts := a.starts + 1 } else d) d).plane
        = d.plane :=
    foldl_keeps (·.plane) (fun d x => by split <;> rfl) _ _
  exact (foldl_keeps (·.plane) haccs _ _).trans (foldl_keeps (·.plane) (fun d i => ledRail_plane d g i) _ _)

@[simp] theorem chanStarts_plane (g : Nat) (d : Dev) : (chanStarts g d).plane = d.plane :=
  foldl_keeps (·.plane) (fun d c => by split <;> simp) _ _

@[simp] theorem railStarts_plane (g : Nat) (d : Dev) : (railStarts g d).plane = d.plane := by
  refine foldl_keeps (·.plane) (fun d i => ?_) _ _
  dsimp only
  (repeat' split) <;> simp

@[simp] theorem startOn_plane (d : Dev) (c g k : Nat) : (startOn d c g k).1.plane = d.plane := by
  unfold startOn
  dsimp only
  (repeat' split) <;> simp

@[simp] theorem startAll_plane (d : Dev) (g k : Nat) : (startAll d g k).1.plane = d.plane := by
  refine List.foldlRecOn fsConvs _ (motive := fun p : Dev × List Nat => p.1.plane = d.plane) rfl fun p hp c _ => ?_
  exact (startOn_plane ..).trans hp

@[simp] theorem triggered_plane (d : Dev) (g : Nat) : (d.triggered g).1.plane = d.plane := by
  simp [Dev.triggered]

section
variable {d : Dev} {g : Nat}

theorem sampleTrigger_takeover (h : d.genDefined g = true) (ht : d.plane.takeover = true) :
    sampleTrigger g d = (d.triggered g).1 := by
  have hplane : (d.triggered g).1.plane = d.plane := triggered_plane d g
  cases hp : d.triggered g with
  | mk e dropped =>
    replace hplane : e.plane = d.plane := by rwa [hp] at hplane
    unfold Dev.triggered at hp
    simp [sampleTrigger, h, hp, hplane, ht]

/-- The loops' part of a trigger, after the starts `r` of count `k`: missed limits, then the runs that are ready. -/
def triggerLoops (g k : Nat) (r : Dev × List Nat) : Dev :=
  let d := limitMisses g k r.2 r.1
  orderReady r.1.thr.ready
    (((d.liveIndices tLoop).filter fun l => lcTrig (d.slot tLoop l).cfg == g).foldl (loopStart g k r.2) d)

theorem sampleTrigger_normal (h : d.genDefined g = true) (ht : d.plane.takeover = false) :
    sampleTrigger g d = triggerLoops g (tget 0 d.acq.genCount g) (d.triggered g) := by
  have hplane : (d.triggered g).1.plane = d.plane := triggered_plane d g
  cases hp : d.triggered g with
  | mk e dropped =>
    replace hplane : e.plane = d.plane := by rwa [hp] at hplane
    unfold Dev.triggered at hp
    simp [sampleTrigger, triggerLoops, h, hp, hplane, ht]
end

/-! ### The end of a conversion -/

/-- An FS word as it is stored: with the default mark where its fence stands (Table 4.10). -/
def Dev.fsMarked (d : Dev) (w : Word) : Word := if d.sag.fenced.contains 9 then w ||| 0x00100000 else w

/-- The device after the conversion of an injected sequence's next input (R97). -/
def injConverted (d : Dev) (c input : Nat) (rest : List (Nat × Nat)) (w : Word) : Dev :=
  ((((d.modConv c fun cv => Conv.advance { cv with injRunning := rest }).tally (8 + c) 3 1).setFsWord input w).setFsWord input
    (d.fsMarked w))

/-- Converter `cv` after the next conversion of its start (R93). -/
def Conv.converted (cv : Conv) (y : FsStart) (rest : List Nat) (late : Bool) : Conv :=
  Conv.advance { cv with
    late := if !y.begun && late then satAdd 8 cv.late 1 else cv.late
    current := some { y with inputs := rest, late := if y.begun then y.late else late, begun := true } }

/-- The device after the conversion of a start's next input (R93). -/
def startConverted (d : Dev) (c input : Nat) (y : FsStart) (rest : List Nat) (late : Bool) (w : Word) : Dev :=
  (((((d.tally (8 + c) 1 1).tally (8 + c) 4 (b2n (!y.begun && late))).modConv c fun cv => cv.converted y rest late).setFsWord
    input w).setFsWord input (d.fsMarked w))

section
variable {d : Dev} {c : Nat} {code : Int} {isOver late : Bool} {pos : Nat}

theorem fsConversionDone_nothing (h : (d.conv c).injRunning = []) (hy : ∀ y, (d.conv c).current = some y → y.inputs = []) :
    fsConversionDone c code isOver late pos d = d := by
  have : convEnds d c code isOver late = (d, none) := by
    unfold convEnds
    dsimp only
    cases hc : (d.conv c).current with
    | none => simp [h]
    | some y => simp [h, hy y hc]
  simp only [fsConversionDone, this]

theorem fsConversionDone_injected {ch input : Nat} {rest : List (Nat × Nat)} (h : (d.conv c).injRunning = (ch, input) :: rest) :
    fsConversionDone c code isOver late pos d =
      let w := fsResult (d.fsFactors c) code isOver true false (injSe (d.conv c) input) input
      injDeliver ch input (d.fsMarked w) (injConverted d c input rest w) := by
  have : convEnds d c code isOver late =
      let w := fsResult (d.fsFactors c) code isOver true false (injSe (d.conv c) input) input
      (((d.modConv c fun cv => Conv.advance { cv with injRunning := rest }).tally (8 + c) 3 1).setFsWord input w,
        some ⟨input, w, some ch⟩) := by
    unfold convEnds
    dsimp only
    simp only [h]
    rfl
  simp only [fsConversionDone, this]
  rfl

theorem fsConversionDone_start {y : FsStart} {input : Nat} {rest : List Nat} (h : (d.conv c).injRunning = [])
    (hc : (d.conv c).current = some y) (hy : y.inputs = input :: rest) :
    fsConversionDone c code isOver late pos d =
      let w := fsResult y.factors code isOver false (if y.begun then y.late else late) (y.se.contains input) input
      (startConverted d c input y rest late w).inTurn pos (fsDeliver input (d.fsMarked w) pos) := by
  have : convEnds d c code isOver late =
      let w := fsResult y.factors code isOver false (if y.begun then y.late else late) (y.se.contains input) input
      ((((d.tally (8 + c) 1 1).tally (8 + c) 4 (b2n (!y.begun && late))).modConv c fun cv => cv.converted y rest late).setFsWord
        input w, some ⟨input, w, none⟩) := by
    unfold convEnds
    dsimp only
    simp only [h, hc, hy]
    rfl
  simp only [fsConversionDone, this]
  rfl
end

/-! ### Injected starts -/

section
variable {d : Dev} {c ch : Nat}

theorem urgentTrigger_none (h : (d.conv c).inj = []) : urgentTrigger c ch d = d := if_pos (by rw [h]; rfl)

theorem urgentTrigger_merged (h : (d.conv c).inj ≠ []) (hp : ch ∈ (d.conv c).injPending) :
    urgentTrigger c ch d = (d.modConv c fun cv => { cv with injMerged := satAdd 8 cv.injMerged 1 }).tally (8 + c) 6 1 :=
  (if_neg (by simpa using h)).trans (if_pos (by simpa using hp))

theorem urgentTrigger_new (h : (d.conv c).inj ≠ []) (hp : ch ∉ (d.conv c).injPending) :
    urgentTrigger c ch d = d.modConv c fun cv => { cv with injPending := sortNat (ch :: cv.injPending) } :=
  (if_neg (by simpa using h)).trans (if_neg (by simpa using hp))

theorem injectedStart_nothing (h : (d.conv c).injRunning ≠ [] ∨ (d.conv c).injPending = []) : injectedStart c d = d := by
  unfold injectedStart
  dsimp only
  split
  · rename_i hr hp
    exact absurd h (by simp [hr, hp])
  · rfl

theorem injectedStart_runs {rest : List Nat} (hr : (d.conv c).injRunning = []) (hp : (d.conv c).injPending = ch :: rest) :
    injectedStart c d = (d.modConv c fun cv => Conv.advance
      { cv with injPending := rest, injRunning := injInputs d cv ch }).tally (8 + c) 2 1 := by
  unfold injectedStart
  dsimp only
  simp only [hr, hp]
end

/-- A conversion changes the acquisition state and the Tallies alone. -/
theorem acqChange_injConverted (d : Dev) (c input : Nat) (rest : List (Nat × Nat)) (w : Word) :
    AcqChange d (injConverted d c input rest w) :=
  (((AcqChange.modConv ..).trans (.tally ..)).trans (.setFsWord ..)).trans (.setFsWord ..)

theorem acqChange_startConverted (d : Dev) (c input : Nat) (y : FsStart) (rest : List Nat) (late : Bool) (w : Word) :
    AcqChange d (startConverted d c input y rest late w) :=
  ((((AcqChange.tally ..).trans (.tally ..)).trans (.modConv ..)).trans (.setFsWord ..)).trans (.setFsWord ..)

/-- Settles O42, from the equations of the triggers, the conversions and the injected starts. -/
theorem fastConverters : Obligations.FastConverters := by
  unfold Obligations.FastConverters
  refine ⟨fun s g hg h => .congr (onDevAt_lt s _ hg) (sampleTrigger_undefined h), ?_, ?_, ?_, ?_, ?_, ?_⟩
  · intro s g hg h k r
    refine ⟨fun ht => .congr (onDevAt_lt s _ hg) (sampleTrigger_takeover h ht), fun ht => ?_⟩
    have hr : s.dev.triggered g = r := rfl
    have hnormal := sampleTrigger_normal h ht
    rw [hr] at hnormal
    exact .congr (onDevAt_lt s _ hg) hnormal
  · intro d c g k
    refine ⟨rfl, rfl, rfl, startOn_nothing, fun hi hb => ?_, fun hi hb hw => ?_, fun hi hb hw => ?_⟩
    · simp [startOn_idle hi hb]
    · simp [startOn_dropped hi hb hw, satAdd]
    · simp [startOn_waits hi hb hw]
  · intro s c code isOver late pos hc cv
    refine ⟨fun h hy => .congr (onDevAt_lt s _ hc) (fsConversionDone_nothing h hy), fun ch input rest h => ?_,
      fun y input rest h hy hi => ?_⟩
    · intro w w'
      exact ⟨injConverted s.dev c input rest w, .congr (onDevAt_lt s _ hc) (fsConversionDone_injected h),
        acqChange_injConverted .., by simp [injConverted, Dev.fsMarked, w'], by simp [injConverted, cv]⟩
    · intro isLate w w'
      exact ⟨startConverted s.dev c input y rest late w, .congr (onDevAt_lt s _ hc) (fsConversionDone_start h hy hi),
        acqChange_startConverted .., by simp [startConverted, Dev.fsMarked, w'],
        by simp [startConverted, Conv.converted, satAdd, isLate, cv]⟩
  · exact fun cv => ⟨Conv.advance_of_busy, fun y => Conv.advance_of_ended⟩
  · intro s c ch hc
    refine ⟨fun h => .congr (onDevAt_lt s _ hc) (urgentTrigger_none h), fun h => ?_⟩
    by_cases hp : ch ∈ (s.dev.conv c).injPending
    · exact ⟨_, .congr (onDevAt_lt s _ hc) (urgentTrigger_merged h hp), rfl, by simp [satAdd], fun hn => absurd hp hn⟩
    · exact ⟨_, .congr (onDevAt_lt s _ hc) (urgentTrigger_new h hp), rfl, fun hm => absurd hm hp, by simp⟩
  · intro s c hc
    exact ⟨fun h => .congr (onDevAt_lt s _ hc) (injectedStart_nothing h), fun ch rest hr hp =>
      ⟨_, .congr (onDevAt_lt s _ hc) (injectedStart_runs hr hp), rfl, by simp⟩⟩
end Sys2Proof.Machine

end

/-! ## Slow converters (spec 04) -/

section
/-! PROOF. The supervisor's scan, the precision channels and the thermal queue (R98, R104 to R108). -/

namespace Sys2Proof.Machine

/-! ### Supervisor -/

section
variable {d : Dev} {code input : Nat} {rest : List Nat} {isOver under : Bool}

theorem svScanStart_nothing (h : d.acq.svPaused = true ∨ d.acq.svScan ≠ []) : svScanStart d = d :=
  if_pos (by simpa using h)

theorem svScanStart_starts (hp : d.acq.svPaused = false) (hs : d.acq.svScan = []) :
    svScanStart d = Dev.tally { d with acq := { d.acq with svScan := scanInputs d, svScanUncal := !d.acq.calSv.valid } } 20 0 1 :=
  if_neg (by simp [hp, hs])

theorem svConversionDone_nothing (h : d.acq.svPaused = true ∨ d.acq.svScan = []) : svConversionDone code isOver under d = d := by
  unfold svConversionDone
  rcases h with h | h <;> simp [h]

/-- The word of the next input of the supervisor's scan. -/
def Dev.svWordOf (d : Dev) (code : Nat) (isOver under : Bool) (input : Nat) : Word :=
  svResult d.acq.calSv code isOver under d.acq.svScanUncal (d.sag.fenced.contains 9) input

@[simp] theorem svStore_svLast (w : Word) : (svStore input rest w isOver under d).svLast input = w := tget_tset_self ..

@[simp] theorem svStore_monOfInput (w : Word) (k : Nat) : (svStore input rest w isOver under d).monOfInput k = d.monOfInput k :=
  rfl

theorem svStore_svScanUncal (w : Word) : (svStore input rest w isOver under d).acq.svScanUncal = d.acq.svScanUncal := rfl

/-- What a stored result of the supervisor does: it reaches the MONITOR of its input (R98). -/
def Dev.svDelivered (d : Dev) (uncal : Bool) (input : Nat) (w : Word) : Dev :=
  match d.monOfInput input with
  | some m => monResult (d.tally 20 3 (b2n uncal)) m w
  | none => d

theorem svConversionDone_next (hp : d.acq.svPaused = false) (hs : d.acq.svScan = input :: rest) :
    svConversionDone code isOver under d =
      (svStore input rest (d.svWordOf code isOver under input) isOver under d).svDelivered d.acq.svScanUncal input
        (d.svWordOf code isOver under input) := by
  unfold svConversionDone Dev.svDelivered Dev.svWordOf
  rw [if_neg (by rw [hp]; decide), hs]
  dsimp only
  rw [svStore_svScanUncal] <;> rfl

theorem svConversionDone_unmonitored (hp : d.acq.svPaused = false) (hs : d.acq.svScan = input :: rest)
    (hm : d.monOfInput input = none) :
    svConversionDone code isOver under d = svStore input rest (d.svWordOf code isOver under input) isOver under d := by
  rw [svConversionDone_next hp hs]
  generalize d.svWordOf code isOver under input = w
  unfold Dev.svDelivered
  rw [svStore_monOfInput, hm]

theorem svConversionDone_monitored {m : Nat} (hp : d.acq.svPaused = false) (hs : d.acq.svScan = input :: rest)
    (hm : d.monOfInput input = some m) :
    svConversionDone code isOver under d =
      monResult ((svStore input rest (d.svWordOf code isOver under input) isOver under d).tally 20 3 (b2n d.acq.svScanUncal)) m
        (d.svWordOf code isOver under input) := by
  rw [svConversionDone_next hp hs]
  generalize d.svWordOf code isOver under input = w
  unfold Dev.svDelivered
  rw [svStore_monOfInput, hm]
end

/-! ### Precision channels -/

@[simp] theorem pdChan_modPd_self (d : Dev) (n : Nat) (f : PdChan → PdChan) : (d.modPd n f).pdChan n = f (d.pdChan n) :=
  tget_tmod_self ..

@[simp] theorem Dev.tally_pdChan (d : Dev) (s c n k : Nat) : (d.tally s c n).pdChan k = d.pdChan k := rfl

@[simp] theorem pdAfterCal_pdChan (d : Dev) (g n : Nat) : (pdAfterCal d g).pdChan n = d.pdChan n := by
  unfold pdAfterCal pdStop
  (repeat' split) <;> rfl

theorem acqChange_pdAfterCal (d : Dev) (g : Nat) : AcqChange d (pdAfterCal d g) := by
  unfold pdAfterCal pdStop AcqChange
  (repeat' split) <;> rfl

theorem AcqChange.modPd (d : Dev) (n : Nat) (f : PdChan → PdChan) : AcqChange d (d.modPd n f) := rfl

theorem AcqChange.refl (d : Dev) : AcqChange d d := rfl

theorem acqChange_pdOutput (n : Nat) (raw : Int) (isOver : Bool) (pos : Nat) (settled dflt : Bool) (d : Dev) :
    AcqChange d (pdOutput n raw isOver pos settled dflt d) := by
  unfold pdOutput
  dsimp only
  split
  · exact .refl d
  · have htallies (d : Dev) (b w x y z : Nat) : AcqChange d ((((d.tally b 0 w).tally b 1 x).tally b 2 y).tally b 3 z) :=
      (((AcqChange.tally ..).trans (.tally ..)).trans (.tally ..)).trans (.tally ..)
    split
    · exact ((htallies ..).trans (.modPd ..)).trans (acqChange_pdAfterCal ..)
    · exact (htallies ..).trans (.modPd ..)

/-- Whether a calibration holds the precision channels (R112). -/
def Dev.pdCalibrating (d : Dev) : Prop := d.acq.calBusy = true ∧ d.acq.calFamilies.toNat / 4 % 2 = 1

section
variable {n : Nat} {raw : Int} {isOver settled dflt : Bool} {pos : Nat} {d : Dev}

theorem pdOutput_held (h : d.pdCalibrating ∨ (d.pdChan n).calHold = true ∧ settled = false) :
    pdOutput n raw isOver pos settled dflt d = d := by
  refine if_pos ?_
  rcases h with ⟨hb, hf⟩ | ⟨hh, hs⟩
  · simp [hb, hf]
  · simp [hh, hs]

/-- What an output leaves in its channel: the direct word, the settling flag, and no hold. -/
theorem pdOutput_pdChan (hstop : d.acq.pdStopped.contains (n / 4) = false) (hcal : ¬d.pdCalibrating)
    (h : (d.pdChan n).calHold = false ∨ settled = true) :
    let c := (pdOutput n raw isOver pos settled dflt d).pdChan n
    let f := tget ({} : Factors) d.acq.calPd n
    let v := if isOver then (if 0 ≤ raw then 2 ^ 23 - 1 else -(2 ^ 23)) else pdValue f raw
    c.direct = pdResult v isOver (!f.valid) false ((d.pdChan n).settling && !settled) dflt ∧ c.calHold = false ∧
      c.settling = ((d.pdChan n).settling && !settled) := by
  have hgo : (d.acq.pdStopped.contains (n / 4) || (d.acq.calBusy && d.acq.calFamilies.toNat / 4 % 2 == 1) ||
      ((d.pdChan n).calHold && !settled)) = false := by
    have hcal' : (d.acq.calBusy && d.acq.calFamilies.toNat / 4 % 2 == 1) = false := by
      simpa [Dev.pdCalibrating] using hcal
    rw [hstop, hcal']
    rcases h with h | h <;> simp [h]
  have hset : (((d.pdChan n).settling || (d.pdChan n).calHold) && !settled) = ((d.pdChan n).settling && !settled) := by
    rcases h with h | h <;> simp [h]
  have hhold : ((d.pdChan n).calHold && ((d.pdChan n).settling && !settled)) = false := by
    rcases h with h | h <;> simp [h]
  unfold pdOutput
  dsimp only
  rw [if_neg (by rw [hgo]; decide), hset]
  split <;> simpa using hhold

theorem pdCrossing_running (h : d.acq.pdStopped.contains (n / 4) = false) : pdCrossing n d = d :=
  if_neg (by rw [h]; decide)

theorem pdCrossing_unowned (h : d.acq.pdStopped.contains (n / 4) = true)
    (ho : ∀ k < 4, (d.pdChan (n / 4 * 4 + k)).owner = none) : pdCrossing n d = d := by
  unfold pdCrossing
  rw [if_pos h]
  have : (List.range 4).filterMap (fun k => (d.pdChan (n / 4 * 4 + k)).owner) = [] := by
    simpa using ho
  rw [this]
  rfl

theorem pdCrossing_owned {i : Nat} (h : d.acq.pdStopped.contains (n / 4) = true) (hi : i < 8)
    (ho : ∀ k < 4, (d.pdChan (n / 4 * 4 + k)).owner = some (slotKey tString i)) : pdCrossing n d = battWake d i := by
  unfold pdCrossing
  rw [if_pos h]
  have : (List.range 4).filterMap (fun k => (d.pdChan (n / 4 * 4 + k)).owner) = List.replicate 4 (slotKey tString i) := by
    have h0 : (d.pdChan (n / 4 * 4)).owner = some (slotKey tString i) := ho 0 (by decide)
    have h1 := ho 1 (by decide)
    have h2 := ho 2 (by decide)
    have h3 := ho 3 (by decide)
    simp [List.range, List.range.loop, List.filterMap, h0, h1, h2, h3]
  rw [this]
  have ht : slotKey tString i / 4096 = tString := by unfold slotKey; omega
  have hk : slotKey tString i % 4096 = i := by unfold slotKey; omega
  simp [List.eraseDups, List.replicate, List.eraseDupsBy, List.eraseDupsBy.loop, ht, hk]
end

/-! ### Thermal queue -/

/-- A flagged thermal word has the value 0. -/
theorem tdResult_value_of_flag {n : Nat} {v : Int} {opn short exc : Bool}
    (h : opn = true ∨ short = true ∨ exc = true) : bits (tdResult n v opn short exc) 0 16 = 0 := by
  have hany : (opn || short || exc) = true := by simpa [or_assoc] using h
  have hb (b : Bool) : b2n b ≤ 1 := by cases b <;> decide
  have := hb opn
  have := hb short
  have := hb exc
  simp only [tdResult, hany, if_true, bits, bitsN, BitVec.toNat_ofNat]
  omega

section
variable {v : Int} {uv n : Nat} {rest : List Nat} {opn short exc ok : Bool} {d : Dev}

theorem tdConversionDone_empty (h : d.acq.tdQueue = []) : tdConversionDone v uv opn short exc ok d = d := by
  simp only [tdConversionDone, h]

theorem tdStore_slots (w : Word) : (tdStore n rest w opn short exc d).slots = d.slots := rfl

theorem tdStore_live (w : Word) : (tdStore n rest w opn short exc d).live tSensor n = d.live tSensor n := by
  unfold Dev.live Dev.slot
  rw [tdStore_slots]

theorem tdStore_sensHandle (w : Word) : (tdStore n rest w opn short exc d).sensHandle n = d.sensHandle n := by
  unfold Dev.sensHandle Dev.handleOf
  rw [tdStore_live]
  unfold Dev.slot
  rw [tdStore_slots]

/-- What a stored thermal result does: it answers the SENSOR that asked, while it lives (R106). -/
def Dev.tdDelivered (d e : Dev) (n : Nat) (w : Word) (v : Int) (uv : Nat) (opn short exc ok : Bool) : Dev :=
  if e.live tSensor n then tdAnswer (d.sensHandle n) w (tdSensor n v uv opn short exc ok e) else e

theorem tdConversionDone_next (h : d.acq.tdQueue = n :: rest) : tdConversionDone v uv opn short exc ok d =
    d.tdDelivered (tdStore n rest (tdResult n v opn short exc) opn short exc d) n (tdResult n v opn short exc) v uv opn short exc ok := by
  unfold tdConversionDone
  rw [h]
  dsimp only
  rw [tdStore_sensHandle]
  rfl

theorem tdConversionDone_gone (h : d.acq.tdQueue = n :: rest) (hl : d.live tSensor n = false) :
    tdConversionDone v uv opn short exc ok d = tdStore n rest (tdResult n v opn short exc) opn short exc d := by
  rw [tdConversionDone_next h]
  generalize tdResult n v opn short exc = w
  exact if_neg (by rw [tdStore_live, hl]; decide)

theorem tdConversionDone_live (h : d.acq.tdQueue = n :: rest) (hl : d.live tSensor n = true) :
    tdConversionDone v uv opn short exc ok d =
      tdAnswer (d.sensHandle n) (tdResult n v opn short exc)
        (tdSensor n v uv opn short exc ok (tdStore n rest (tdResult n v opn short exc) opn short exc d)) := by
  rw [tdConversionDone_next h]
  generalize tdResult n v opn short exc = w
  exact if_pos (by rw [tdStore_live, hl])

@[simp] theorem tdStore_tdWord (w : Word) : tget 0 (tdStore n rest w opn short exc d).acq.tdWord n = w := tget_tset_self ..

/-- The period of a SENSOR in its configuration. -/
def Dev.sensPeriod (d : Dev) (n : Nat) : Nat := bits ((d.slot tSensor n).w 3) 0 16

theorem sensorPeriod_nothing (h : d.enabled tSensor n = false ∨ d.sensPeriod n = 0 ∨ (d.sens n).turns < d.sensPeriod n) :
    sensorPeriod n d = d := by
  refine if_neg ?_
  unfold Dev.sensPeriod at h
  rcases h with h | h | h <;> simp [h]
 
theorem sensorPeriod_due (he : d.enabled tSensor n = true) (hp : d.sensPeriod n ≠ 0) (ht : d.sensPeriod n ≤ (d.sens n).turns) :
    sensorPeriod n d = requestTd n (d.modSens n fun s => { s with turns := 0 }) :=
  if_pos (by unfold Dev.sensPeriod at *; simp [*])
end

/-- A request changes the queue of the thermal converter and the Tallies alone. -/
theorem acqChange_requestTd (n : Nat) (d : Dev) : AcqChange d (requestTd n d) := by
  unfold requestTd AcqChange
  (repeat' split) <;> rfl

@[simp] theorem requestTd_heat (n : Nat) (d : Dev) : (requestTd n d).heat = d.heat := by
  rw [acqChange_requestTd n d]

theorem requestTd_queued {n : Nat} {d : Dev} (ht : d.plane.takeover = false) (hq : n ∉ d.acq.tdQueue) :
    (requestTd n d).acq.tdQueue = d.acq.tdQueue ++ [n] := by
  simp [requestTd, ht, hq]

theorem requestTd_acq {n : Nat} {d : Dev} (h : d.plane.takeover = true ∨ n ∈ d.acq.tdQueue) :
    (requestTd n d).acq = d.acq := by
  unfold requestTd
  rcases h with h | h
  · rw [if_pos h]
  · split
    · rfl
    · rw [if_pos (by simpa using h)]; rfl

/-- A due period restarts its count. -/
theorem sens_modSens_self (d : Dev) (n : Nat) (f : SensorRt → SensorRt) : (d.modSens n f).sens n = f (d.sens n) :=
  tget_tmod_self ..

/-- Settles O43, from the equations of the three kinds of slow converter. -/
theorem slowConverters : Obligations.SlowConverters := by
  unfold Obligations.SlowConverters
  refine ⟨fun s => ⟨fun h => .congr rfl (svScanStart_nothing h), fun hp hs => ?_⟩, ?_, ?_, ?_, ?_,
    fun n v opn short exc _ h => tdResult_value_of_flag h, ?_⟩
  · exact ⟨_, .congr rfl (svScanStart_starts hp hs), rfl, rfl⟩
  · intro s code isOver under
    refine ⟨fun h => .congr rfl (svConversionDone_nothing h), fun input rest hp hs => ?_⟩
    exact ⟨fun hm => .congr rfl (svConversionDone_unmonitored hp hs hm),
      fun m hm => .congr rfl (svConversionDone_monitored hp hs hm), svStore_svLast _, rfl⟩
  · intro s n v isOver settled pos hn
    refine ⟨fun h => .congr (onDevAt_lt s _ hn) (if_pos h), fun h => ?_⟩
    refine ⟨_, .congr (onDevAt_lt s _ hn) (if_neg (by rw [h]; decide)), acqChange_pdOutput .., pdOutput_held, ?_⟩
    exact fun hcal hset => pdOutput_pdChan h hcal hset
  · intro s n hn
    exact ⟨fun h => .congr (onDevAt_lt s _ hn) (pdCrossing_running h),
      fun h ho => .congr (onDevAt_lt s _ hn) (pdCrossing_unowned h ho),
      fun i hi h ho => .congr (onDevAt_lt s _ hn) (pdCrossing_owned h hi ho)⟩
  · intro s v uv opn short exc ok
    exact ⟨fun h => .congr rfl (tdConversionDone_empty h), fun n rest h =>
      ⟨fun hl => .congr rfl (tdConversionDone_gone h hl), fun hl => .congr rfl (tdConversionDone_live h hl),
        tdStore_tdWord _, rfl⟩⟩
  · intro s n hn
    refine ⟨fun h => .congr (onDevAt_lt s _ hn) (sensorPeriod_nothing h), fun he hp ht => ?_⟩
    refine ⟨_, .congr (onDevAt_lt s _ hn) (sensorPeriod_due he hp ht), ?_, ?_, fun ht hq => requestTd_queued ht hq,
      fun h => requestTd_acq h⟩
    · rw [acqChange_requestTd n]; rfl
    · unfold Dev.sens
      rw [requestTd_heat]
      exact congrArg SensorRt.turns (sens_modSens_self s.dev n _)

end Sys2Proof.Machine

end

/-! ## Self-calibration (spec 04) -/

section
/-! PROOF. A calibration begins, proceeds by family and ends (R109 to R113). -/

namespace Sys2Proof.Machine

/-! ### The start -/

/-- The acquisition state with the precision channels' own part erased. -/
def Acq.sansPd (a : Acq) : Acq := { a with pd := [], pdStopped := [], pdCalTurn := false }

theorem pdRestart_sansPd (d : Dev) (g : Nat) : (pdRestart d g).acq.sansPd = d.acq.sansPd := by
  unfold pdRestart
  split
  · refine (foldl_keeps (·.acq.sansPd) (fun d k => ?_) _ _).trans ?_ <;> rfl
  · rfl

/-- Every precision channel holds its word and settles afresh (R112). -/
def pdHeld (d : Dev) : Dev :=
  { d with acq := { d.acq with
    pdCalTurn := true
    pd := (List.range 32).foldl (fun t n => tmod {} t n fun c =>
      { c with calHold := true, direct := c.direct ||| 0x08000000, notched := c.notched ||| 0x08000000 }) d.acq.pd } }

theorem pdHeld_sansPd (d : Dev) : (pdHeld d).acq.sansPd = d.acq.sansPd := by
  simp only [Acq.sansPd, pdHeld]

theorem pdCalBegun_sansPd (d : Dev) : (pdCalBegun d).acq.sansPd = d.acq.sansPd := by
  have hheld : pdCalBegun d = pdHeld ((List.range 8).foldl pdRestart d) := rfl
  rw [hheld, pdHeld_sansPd]
  exact foldl_keeps (·.acq.sansPd) pdRestart_sansPd _ _

/-- The families that a write of ACQ_CAL_START selects: all three where it names none (Table 4.13). -/
def calFamiliesOf (v : Word) : BitVec 3 := if bits v 1 3 = 0 then 7 else BitVec.ofNat 3 (bits v 1 3)

theorem calStart_nothing {v : Word} {d : Dev} (h : bit v 0 = false ∨ d.acq.calBusy = true) : calStart v d = d :=
  if_pos (by simpa using h)

theorem pdCalIf_sansPd (p : Bool) (d : Dev) : (if p then pdCalBegun d else d).acq.sansPd = d.acq.sansPd := by
  cases p
  · rfl
  · exact pdCalBegun_sansPd d

/-- A start marks its families BUSY, without failures, and keeps drift and factors; then it may hold the precision
channels. -/
theorem calStart_begins {v : Word} {d : Dev} (h : bit v 0 = true) (hb : d.acq.calBusy = false) :
    ∃ e : Dev, (calStart v d).acq.sansPd = e.acq.sansPd ∧ e.acq.calBusy = true ∧ e.acq.calLeft = calFamiliesOf v ∧
      e.acq.calFamilies = calFamiliesOf v ∧ e.acq.svFail = false ∧ e.acq.fsFail = false ∧ e.acq.pdFail = false ∧
      e.acq.drift = d.acq.drift ∧ e.acq.calSv = d.acq.calSv ∧ e.acq.calFs = d.acq.calFs ∧ e.acq.calPd = d.acq.calPd := by
  have hgo : (!bit v 0 || d.acq.calBusy) = false := by rw [h, hb]; rfl
  unfold calStart
  rw [hgo, if_neg Bool.false_ne_true]
  exact ⟨_, pdCalIf_sansPd _ _, rfl, rfl, rfl, rfl, rfl, rfl, rfl, rfl, rfl, rfl⟩

/-! ### Failure and drift -/

/-- `e` differs from `d` in the acquisition state and in what a raised event changes. -/
def CalChange (d e : Dev) : Prop := e = { d with acq := e.acq, host := e.host, tal := e.tal, sag := e.sag }

theorem CalChange.trans {d e f : Dev} (h : CalChange d e) (h' : CalChange e f) : CalChange d f := by
  unfold CalChange at *
  rw [h', h]

theorem CalChange.raise (d : Dev) (code detail : Nat) (h : Word) : CalChange d (d.raise code detail h) := by
  unfold CalChange
  rw [raise_frame]

theorem AcqChange.calChange {d e : Dev} (h : AcqChange d e) : CalChange d e := by
  unfold CalChange AcqChange at *
  rw [h]

/-- CAL_FAILED of the first failed converter, where one is noted. -/
def failRaised (d : Dev) : Dev := match d.acq.firstFail with | some n => d.raise 0x0202 n 0 | none => d

/-- DRIFT and CAL_DRIFT of the first drifted factor, where one is noted. -/
def driftRaised (d : Dev) : Dev :=
  match d.acq.firstDrift with
  | some n => Dev.raise { d with acq := { d.acq with drift := true } } 0x0203 n 0
  | none => d

theorem raiseCal_eq (d : Dev) : raiseCal d = driftRaised (failRaised d) := rfl

theorem failRaised_frame (d : Dev) : CalChange d (failRaised d) ∧ (failRaised d).acq = d.acq := by
  unfold failRaised
  split
  · exact ⟨.raise .., by simp⟩
  · exact ⟨rfl, rfl⟩

theorem driftRaised_frame (d : Dev) :
    CalChange d (driftRaised d) ∧ (driftRaised d).acq = { d.acq with drift := (driftRaised d).acq.drift } := by
  unfold driftRaised
  split
  · exact ⟨CalChange.trans (e := { d with acq := { d.acq with drift := true } }) rfl (.raise ..), by simp⟩
  · exact ⟨rfl, rfl⟩

/-- The end of a family changes the acquisition state in its drift flag alone. -/
theorem raiseCal_frame (d : Dev) :
    CalChange d (raiseCal d) ∧ (raiseCal d).acq = { d.acq with drift := (raiseCal d).acq.drift } := by
  obtain ⟨hfail, hacq⟩ := failRaised_frame d
  obtain ⟨hdrift, hacq'⟩ := driftRaised_frame (failRaised d)
  rw [hacq] at hacq'
  exact ⟨hfail.trans hdrift, hacq'⟩

theorem raiseCal_quiet {d : Dev} (hf : d.acq.firstFail = none) (hd : d.acq.firstDrift = none) : raiseCal d = d := by
  simp [raiseCal, hf, hd]

/-! ### Steps over the converters of a family -/

/-- A fold whose every step turns `Q a` into `P a`, and keeps both of every other element, reaches `P` of them all. -/
theorem foldl_reaches {α σ : Type} {f : σ → α → σ} {Q P : α → σ → Prop} (hstep : ∀ s a, Q a s → P a (f s a))
    (hQ : ∀ s a b, b ≠ a → Q b s → Q b (f s a)) (hP : ∀ s a b, b ≠ a → P b s → P b (f s a)) :
    ∀ (l : List α) (s : σ), l.Nodup → (∀ a ∈ l, Q a s) → ∀ a ∈ l, P a (l.foldl f s)
  | [], _, _, _, a, ha => absurd ha List.not_mem_nil
  | b :: l, s, hl, hs, a, ha => by
    obtain ⟨hb, hl⟩ := List.nodup_cons.1 hl
    rcases List.mem_cons.1 ha with rfl | hmem
    · refine List.foldlRecOn l f (motive := P a) (hstep s a (hs a (by simp))) fun t ht c hc => ?_
      exact hP t c a (fun e => hb (e ▸ hc)) ht
    · refine foldl_reaches hstep hQ hP l _ hl (fun c hc => ?_) a hmem
      exact hQ s b c (fun e => hb (e ▸ hc)) (hs c (by simp [hc]))

/-! ### The fast converters' yields -/

/-- The yield of converter or channel `n` among those of its family: a failure where none came. -/
def yieldAt (ys : List CalYield) (n : Nat) : CalYield := ys.getD n ⟨false, 0, 0, []⟩

/-- The device with what the fast converters' yields change erased. -/
def Dev.sansFsYield (d : Dev) : Dev :=
  { d with acq := { d.acq with calFs := [], fsFail := false, firstDrift := none, firstFail := none } }

theorem applyFs_sansFsYield (temp : Int) (d : Dev) (cy : Nat × CalYield) : (applyFs temp d cy).sansFsYield = d.sansFsYield := by
  unfold applyFs noteDrift noteFail
  dsimp only
  (repeat' split) <;> simp only [Dev.sansFsYield]

section
variable {temp : Int} {d : Dev} {c k : Nat} {y : CalYield}

theorem applyFs_skipped (h : d.acq.fsSkipped.toNat / 2 ^ c % 2 = 1) : applyFs temp d (c, y) = d := if_pos h

theorem applyFs_fsFactors_fit (h : d.acq.fsSkipped.toNat / 2 ^ c % 2 = 0) (hy : yieldFitsFs y = true) :
    (applyFs temp d (c, y)).fsFactors c = yieldFactors y 16 temp d.wheel.turn := by
  unfold applyFs noteDrift Dev.fsFactors
  rw [if_neg (by dsimp only; omega), if_pos hy]
  dsimp only
  split <;> simp

theorem applyFs_misfit (h : d.acq.fsSkipped.toNat / 2 ^ c % 2 = 0) (hy : yieldFitsFs y = false) :
    applyFs temp d (c, y) = noteFail { d with acq := { d.acq with fsFail := true } } c := by
  unfold applyFs
  rw [if_neg (by dsimp only; omega), if_neg (by rw [hy]; decide)]

theorem applyFs_fsFactors_ne (h : k ≠ c) : (applyFs temp d (c, y)).fsFactors k = d.fsFactors k := by
  unfold applyFs noteDrift noteFail Dev.fsFactors
  dsimp only
  (repeat' split) <;> simp [tget_tset_ne, h]

theorem applyFs_fsFail (h : d.acq.fsFail = true) : (applyFs temp d (c, y)).acq.fsFail = true := by
  unfold applyFs noteDrift noteFail
  dsimp only
  (repeat' split) <;> simp [h]
end

/-- Converter `c` of `e` as its yield has left it, against the state `d` before the family's end (R112, R113). -/
def FsApplied (d : Dev) (ys : List CalYield) (temp : Int) (c : Nat) (e : Dev) : Prop :=
  (d.acq.fsSkipped.toNat / 2 ^ c % 2 = 1 → e.fsFactors c = d.fsFactors c) ∧
  (d.acq.fsSkipped.toNat / 2 ^ c % 2 = 0 → yieldFitsFs (yieldAt ys c) = true →
    e.fsFactors c = yieldFactors (yieldAt ys c) 16 temp d.wheel.turn) ∧
  (d.acq.fsSkipped.toNat / 2 ^ c % 2 = 0 → yieldFitsFs (yieldAt ys c) = false →
    e.fsFactors c = d.fsFactors c ∧ e.acq.fsFail = true)

/-- The device after the fast converters' yields. -/
def fsYielded (ys : List CalYield) (temp : Int) (d : Dev) : Dev :=
  (fsConvs.map fun c => (c, yieldAt ys c)).foldl (applyFs temp) d

theorem fsYielded_sansFsYield (ys : List CalYield) (temp : Int) (d : Dev) : (fsYielded ys temp d).sansFsYield = d.sansFsYield :=
  foldl_keeps Dev.sansFsYield (applyFs_sansFsYield temp) _ _

theorem fsYielded_applied (ys : List CalYield) (temp : Int) (d : Dev) {c : Nat} (hc : c < 12) :
    FsApplied d ys temp c (fsYielded ys temp d) := by
  unfold fsYielded
  rw [List.foldl_map]
  refine foldl_reaches (Q := fun c e => e.sansFsYield = d.sansFsYield ∧ e.fsFactors c = d.fsFactors c)
    (P := FsApplied d ys temp) ?_ ?_ ?_ fsConvs d List.nodup_range (fun c _ => ⟨rfl, rfl⟩) c (List.mem_range.2 hc)
  · rintro e c ⟨hview, hc⟩
    have hskip : e.acq.fsSkipped = d.acq.fsSkipped := (congrArg (·.acq.fsSkipped) hview :)
    have hturn : e.wheel.turn = d.wheel.turn := (congrArg (·.wheel.turn) hview :)
    unfold FsApplied
    rw [← hskip, ← hturn]
    refine ⟨fun h => by rw [applyFs_skipped h, hc], fun h hy => applyFs_fsFactors_fit h hy, fun h hy => ?_⟩
    rw [applyFs_misfit h hy]
    exact ⟨hc, rfl⟩
  · rintro e a b hne ⟨hview, hb⟩
    exact ⟨(applyFs_sansFsYield ..).trans hview, (applyFs_fsFactors_ne hne).trans hb⟩
  · rintro e a b hne ⟨hskip, hfit, hmis⟩
    unfold FsApplied
    rw [applyFs_fsFactors_ne hne]
    exact ⟨hskip, hfit, fun h hy => ⟨(hmis h hy).1, applyFs_fsFail (hmis h hy).2⟩⟩

/-! ### The precision channels' yields -/

/-- The device with what the precision channels' yields change erased. -/
def Dev.sansPdYield (d : Dev) : Dev :=
  { d with acq := { d.acq with calPd := [], pdFail := false, firstDrift := none, firstFail := none } }

theorem applyPd_sansPdYield (d : Dev) (cy : Nat × CalYield) : (applyPd d cy).sansPdYield = d.sansPdYield := by
  unfold applyPd noteDrift noteFail
  dsimp only
  (repeat' split) <;> simp only [Dev.sansPdYield]

/-- The factors of precision channel `n`. -/
def Dev.pdFactors (d : Dev) (n : Nat) : Factors := tget ({} : Factors) d.acq.calPd n

section
variable {d : Dev} {n k : Nat} {y : CalYield}

theorem applyPd_pdFactors_fit (hy : yieldFitsPd y = true) :
    (applyPd d (n, y)).pdFactors n = ⟨y.offset, y.gain, [], d.acq.calTemp, 0, true⟩ := by
  unfold applyPd noteDrift Dev.pdFactors
  rw [if_pos hy]
  dsimp only
  split <;> simp

theorem applyPd_misfit (hy : yieldFitsPd y = false) :
    applyPd d (n, y) = noteFail { d with acq := { d.acq with pdFail := true } } (16 + n) :=
  if_neg (by rw [hy]; decide)

theorem applyPd_pdFactors_ne (h : k ≠ n) : (applyPd d (n, y)).pdFactors k = d.pdFactors k := by
  unfold applyPd noteDrift noteFail Dev.pdFactors
  dsimp only
  (repeat' split) <;> simp [tget_tset_ne, h]

theorem applyPd_pdFail (h : d.acq.pdFail = true) : (applyPd d (n, y)).acq.pdFail = true := by
  unfold applyPd noteDrift noteFail
  dsimp only
  (repeat' split) <;> simp [h]
end

/-- Channel `n` of `e` as its yield has left it, against the state `d` before step 5 (R109, R113). -/
def PdApplied (d : Dev) (ys : List CalYield) (n : Nat) (e : Dev) : Prop :=
  (yieldFitsPd (yieldAt ys n) = true →
    e.pdFactors n = ⟨(yieldAt ys n).offset, (yieldAt ys n).gain, [], d.acq.calTemp, 0, true⟩) ∧
  (yieldFitsPd (yieldAt ys n) = false → e.pdFactors n = d.pdFactors n ∧ e.acq.pdFail = true)

/-- The device after the precision channels' yields. -/
def pdYielded (ys : List CalYield) (d : Dev) : Dev :=
  ((List.range 32).map fun n => (n, yieldAt ys n)).foldl applyPd d

theorem pdYielded_sansPdYield (ys : List CalYield) (d : Dev) : (pdYielded ys d).sansPdYield = d.sansPdYield :=
  foldl_keeps Dev.sansPdYield applyPd_sansPdYield _ _

theorem pdYielded_applied (ys : List CalYield) (d : Dev) {n : Nat} (hn : n < 32) : PdApplied d ys n (pdYielded ys d) := by
  unfold pdYielded
  rw [List.foldl_map]
  refine foldl_reaches (Q := fun n e => e.acq.calTemp = d.acq.calTemp ∧ e.pdFactors n = d.pdFactors n)
    (P := PdApplied d ys) ?_ ?_ ?_ (List.range 32) d List.nodup_range (fun n _ => ⟨rfl, rfl⟩) n (List.mem_range.2 hn)
  · rintro e n ⟨htemp, hn⟩
    unfold PdApplied
    rw [← htemp]
    refine ⟨fun hy => applyPd_pdFactors_fit hy, fun hy => ?_⟩
    rw [applyPd_misfit hy]
    exact ⟨hn, rfl⟩
  · rintro e a b hne ⟨htemp, hb⟩
    exact ⟨(congrArg (·.acq.calTemp) (applyPd_sansPdYield e (a, yieldAt ys a)) :).trans htemp, (applyPd_pdFactors_ne hne).trans hb⟩
  · rintro e a b hne ⟨hfit, hmis⟩
    unfold PdApplied
    rw [applyPd_pdFactors_ne hne]
    exact ⟨hfit, fun hy => ⟨(hmis hy).1, applyPd_pdFail (hmis hy).2⟩⟩

/-! ### The end of a family -/

/-- The device in which the end of a family is noted, before its factors apply. -/
def familyEnded (f : Nat) (m : Int) (d : Dev) : Dev :=
  calFresh { d with acq := { d.acq with
    calLeft := d.acq.calLeft &&& ~~~(BitVec.ofNat 3 (2 ^ f)), calTemp := roundDegrees m } }

section
variable {f : Nat} {ys : List CalYield} {m : Int} {d : Dev}

theorem calFamilyDone_nothing (h : d.acq.calBusy = false ∨ d.acq.calLeft.toNat / 2 ^ f % 2 = 0) :
    calFamilyDone f ys m d = d :=
  if_pos (by simpa using h)

theorem calFamilyDone_due (hb : d.acq.calBusy = true) (hl : d.acq.calLeft.toNat / 2 ^ f % 2 = 1) :
    calFamilyDone f ys m d = raiseCal (
      if f = 0 then applySv (roundDegrees m) { familyEnded f m d with acq := { (familyEnded f m d).acq with svPaused := false } }
        (yieldAt ys 0)
      else if f = 1 then fsYielded ys (roundDegrees m) (familyEnded f m d)
      else { familyEnded f m d with acq := { (familyEnded f m d).acq with pdYield := ys } }) :=
  if_neg (by simp [hb, hl])
end

theorem AcqChange.of_acq {d e : Dev} (h : e = { d with acq := e.acq }) : AcqChange d e := by
  unfold AcqChange
  rw [h]

/-- A family's end before its factors apply changes the acquisition state alone. -/
theorem familyEnded_acqChange (f : Nat) (m : Int) (d : Dev) : AcqChange d (familyEnded f m d) := rfl

theorem applySv_acqChange (temp : Int) (d : Dev) (y : CalYield) : AcqChange d (applySv temp d y) := by
  unfold applySv noteDrift noteFail AcqChange
  dsimp only
  (repeat' split) <;> rfl

theorem acqChange_of_sansFsYield {d e : Dev} (h : e.sansFsYield = d.sansFsYield) : AcqChange d e := by
  have he : e = { e.sansFsYield with acq := e.acq } := rfl
  rw [h] at he
  exact .of_acq he

theorem acqChange_of_sansPdYield {d e : Dev} (h : e.sansPdYield = d.sansPdYield) : AcqChange d e := by
  have he : e = { e.sansPdYield with acq := e.acq } := rfl
  rw [h] at he
  exact .of_acq he

section
variable {temp : Int} {d : Dev} {y : CalYield}

theorem applySv_kept : (applySv temp d y).acq.calLeft = d.acq.calLeft ∧ (applySv temp d y).acq.svPaused = d.acq.svPaused := by
  unfold applySv noteDrift noteFail
  dsimp only
  (repeat' split) <;> exact ⟨rfl, rfl⟩

theorem applySv_fit (hy : yieldFitsFs y = true) : (applySv temp d y).acq.calSv = yieldFactors y 4 temp d.wheel.turn := by
  unfold applySv noteDrift
  rw [if_pos hy]
  dsimp only
  split <;> rfl

theorem applySv_misfit (hy : yieldFitsFs y = false) :
    applySv temp d y = noteFail { d with acq := { d.acq with svFail := true } } 12 :=
  if_neg (by rw [hy]; decide)
end

/-- What a family's end leaves beside the drift flag. -/
theorem raiseCal_kept (d : Dev) :
    (raiseCal d).acq.calLeft = d.acq.calLeft ∧ (raiseCal d).acq.svPaused = d.acq.svPaused ∧
      (raiseCal d).acq.calSv = d.acq.calSv ∧ (raiseCal d).acq.svFail = d.acq.svFail ∧
      (raiseCal d).acq.calFs = d.acq.calFs ∧ (raiseCal d).acq.fsFail = d.acq.fsFail := by
  obtain ⟨-, hacq⟩ := raiseCal_frame d
  rw [hacq]
  exact ⟨rfl, rfl, rfl, rfl, rfl, rfl⟩

/-! ### Step 5 -/

/-- The device after the precision channels' factors, where their family is selected. -/
def pdApplied (d : Dev) : Dev :=
  if d.acq.calFamilies.toNat / 4 % 2 = 1 then pdYielded d.acq.pdYield (calFresh d) else calFresh d

/-- The device in which the copy is written and BUSY is clear. -/
def calClosed (first : Bool) (d : Dev) : Dev :=
  { d with acq := { d.acq with calBusy := false, first := first, pdYield := [] }, kiln := { d.kiln with cal := calCopy d.acq } }

/-- The device in which groups without an owner have stopped again. -/
def pdIdled (d : Dev) : Dev := if d.acq.calFamilies.toNat / 4 % 2 = 1 then (List.range 8).foldl pdAfterCal d else d

theorem calDone_nothing {d : Dev} (h : d.acq.calBusy = false ∨ d.acq.calLeft ≠ 0) : calDone d = d :=
  if_neg (by
    rcases h with h | h
    · simp [h]
    · simpa using fun _ => h)

theorem calDone_due {d : Dev} (hb : d.acq.calBusy = true) (hl : d.acq.calLeft = 0) :
    calDone d =
      let e := pdIdled (calClosed d.kiln.cal.isEmpty (raiseCal (pdApplied d)))
      e.raise 0x0201 e.acq.calFamilies.toNat 0 :=
  if_pos (by simp [hb, hl])

theorem pdApplied_sansPdYield (d : Dev) : (pdApplied d).sansPdYield = d.sansPdYield := by
  unfold pdApplied
  split
  · exact (pdYielded_sansPdYield ..).trans rfl
  · rfl

theorem pdAfterCal_sansPd (d : Dev) (g : Nat) : (pdAfterCal d g).acq.sansPd = d.acq.sansPd := by
  unfold pdAfterCal pdStop
  (repeat' split) <;> rfl

theorem pdIdled_sansPd (d : Dev) : (pdIdled d).acq.sansPd = d.acq.sansPd := by
  unfold pdIdled
  split
  · exact foldl_keeps (·.acq.sansPd) pdAfterCal_sansPd _ _
  · rfl

theorem pdIdled_acqChange (d : Dev) : AcqChange d (pdIdled d) := by
  unfold pdIdled
  split
  · exact List.foldlRecOn (List.range 8) pdAfterCal (motive := AcqChange d) (.refl d) fun e he g _ =>
      he.trans (acqChange_pdAfterCal e g)
  · exact .refl d

theorem CalChange.closed {d e f : Dev} {first : Bool} (h : CalChange d e) (h' : CalChange (calClosed first e) f) :
    f = { d with acq := f.acq, kiln := { d.kiln with cal := calCopy e.acq }, host := f.host, tal := f.tal, sag := f.sag } := by
  unfold CalChange calClosed at *
  rw [h', h]

/-- What step 5 leaves, in terms of the device `e` whose factors have applied: the copy is of `e`'s factors. -/
theorem calDone_frame {d : Dev} (hb : d.acq.calBusy = true) (hl : d.acq.calLeft = 0) :
    ∃ e r : Dev, e = raiseCal (pdApplied d) ∧ calDone d = r ∧
      r.acq.sansPd = { e.acq with calBusy := false, first := d.kiln.cal.isEmpty, pdYield := [] }.sansPd ∧
      r = { d with acq := r.acq, kiln := { d.kiln with cal := calCopy r.acq }, host := r.host, tal := r.tal, sag := r.sag } := by
  refine ⟨_, _, rfl, calDone_due hb hl, ?_, ?_⟩
  · simp only [Dev.raise_acq]
    exact pdIdled_sansPd _
  · dsimp only
    have happ : CalChange d (raiseCal (pdApplied d)) :=
      (acqChange_of_sansPdYield (pdApplied_sansPdYield d)).calChange.trans (raiseCal_frame _).1
    generalize hfirst : d.kiln.cal.isEmpty = first
    generalize raiseCal (pdApplied d) = e at happ
    have hidle := pdIdled_acqChange (calClosed first e)
    have hpd := pdIdled_sansPd (calClosed first e)
    generalize pdIdled (calClosed first e) = r at hidle hpd
    have hcopy : calCopy r.acq = calCopy e.acq := (congrArg calCopy hpd :)
    have hr := happ.closed (hidle.calChange.trans (.raise r 0x0201 r.acq.calFamilies.toNat 0))
    rw [← hcopy] at hr
    simpa only [Dev.raise_acq] using hr

/-- The factors that step 5 leaves. -/
theorem pdApplied_factors {d : Dev} :
    (d.acq.calFamilies.toNat / 4 % 2 = 1 → ∀ n, n < 32 → PdApplied d d.acq.pdYield n (pdApplied d)) ∧
      (d.acq.calFamilies.toNat / 4 % 2 = 0 → (pdApplied d).acq.calPd = d.acq.calPd) := by
  unfold pdApplied
  refine ⟨fun h n hn => ?_, fun h => ?_⟩
  · rw [if_pos h]
    exact pdYielded_applied d.acq.pdYield (calFresh d) hn
  · rw [if_neg (by omega)]
    rfl

theorem answers_calFamilyDone (s : State) {f : Nat} (ys : List CalYield) (m : Int) (hf : f < 3) :
    Answers (.calFamilyDone f ys m) s (calFamilyDone f ys m s.dev) :=
  onDevAt_lt s _ hf

/-- Settles O44, from the equations of the start, the families' ends and step 5. -/
theorem selfCalibration : Obligations.SelfCalibration := by
  unfold Obligations.SelfCalibration
  refine ⟨fun s v hr h => .congr (onHost_ready s _ hr) (calStart_nothing h), ?_,
    fun s f ys m hf h => .congr (onDevAt_lt s _ hf) (calFamilyDone_nothing h), ?_, ?_, ?_,
    fun s h => .congr rfl (calDone_nothing h), ?_, ?_⟩
  · intro s v hr h hb
    obtain ⟨a, t, hstart, -⟩ := calStart_frame v s.dev h
    obtain ⟨e, hview, hbusy, hleft, hfam, hsv, hfs, hpd, hdrift, hcalSv, hcalFs, hcalPd⟩ := calStart_begins h hb
    rw [hstart] at hview
    refine ⟨_, .congr (onHost_ready s _ hr) hstart, rfl, ?_⟩
    exact ⟨(congrArg Acq.calBusy hview).trans hbusy, (congrArg Acq.calLeft hview).trans hleft,
      (congrArg Acq.calFamilies hview).trans (hfam.trans ((congrArg Acq.calLeft hview).trans hleft).symm),
      (congrArg Acq.svFail hview).trans hsv, (congrArg Acq.fsFail hview).trans hfs, (congrArg Acq.pdFail hview).trans hpd,
      (congrArg Acq.drift hview).trans hdrift, (congrArg Acq.calSv hview).trans hcalSv,
      (congrArg Acq.calFs hview).trans hcalFs, (congrArg Acq.calPd hview).trans hcalPd⟩
  · intro s ys m hb hl
    have hdone := (calFamilyDone_due (f := 2) (ys := ys) (m := m) hb hl).trans
      (congrArg raiseCal ((if_neg (by decide)).trans (if_neg (by decide))))
    exact .congr (answers_calFamilyDone s ys m (by decide)) (hdone.trans (raiseCal_quiet rfl rfl))
  · intro s y m hb hl
    have hl' : s.dev.acq.calLeft.toNat / 2 ^ 0 % 2 = 1 := by simpa using hl
    refine ⟨_, .congr (answers_calFamilyDone s [y] m (by decide)) ((calFamilyDone_due hb hl').trans (congrArg raiseCal (if_pos rfl))), ?_⟩
    have hy0 : yieldAt [y] 0 = y := rfl
    rw [hy0]
    generalize hbase : ({ familyEnded 0 m s.dev with acq := { (familyEnded 0 m s.dev).acq with svPaused := false } } : Dev) = base
    have hchange : AcqChange s.dev base := by rw [← hbase]; rfl
    have hsame : base.acq.calLeft = s.dev.acq.calLeft &&& 6 ∧ base.acq.svPaused = false ∧ base.acq.calSv = s.dev.acq.calSv ∧
        base.wheel.turn = s.dev.wheel.turn := by rw [← hbase]; exact ⟨rfl, rfl, rfl, rfl⟩
    obtain ⟨hleft, hpaused, hsv, hturn⟩ := hsame
    obtain ⟨hkleft, hkpaused, hksv, hkfail, -⟩ := raiseCal_kept (applySv (roundDegrees m) base y)
    refine ⟨((hchange.trans (applySv_acqChange ..)).calChange).trans (raiseCal_frame _).1, ?_, ?_, fun hy => ?_, fun hy => ?_⟩
    · rw [hkleft, applySv_kept.1, hleft]
    · rw [hkpaused, applySv_kept.2, hpaused]
    · rw [hksv, applySv_fit hy, hturn]
    · rw [hksv, hkfail, applySv_misfit hy, ← hsv]
      exact ⟨rfl, rfl⟩
  · intro s ys m hb hl
    have hl' : s.dev.acq.calLeft.toNat / 2 ^ 1 % 2 = 1 := by simpa using hl
    refine ⟨_, .congr (answers_calFamilyDone s ys m (by decide)) ((calFamilyDone_due hb hl').trans (congrArg raiseCal
      ((if_neg (by decide)).trans (if_pos rfl)))), ?_⟩
    have hview := fsYielded_sansFsYield ys (roundDegrees m) (familyEnded 1 m s.dev)
    have happ (c : Nat) (hc : c < 12) := fsYielded_applied ys (roundDegrees m) (familyEnded 1 m s.dev) hc
    generalize fsYielded ys (roundDegrees m) (familyEnded 1 m s.dev) = e at hview happ
    obtain ⟨hkleft, -, hksv, -, hkfs, hkfail⟩ := raiseCal_kept e
    refine ⟨(((familyEnded_acqChange 1 m s.dev).trans (acqChange_of_sansFsYield hview)).calChange).trans (raiseCal_frame _).1,
      hkleft.trans (congrArg (·.acq.calLeft) hview :), hksv.trans (congrArg (·.acq.calSv) hview :), fun c hc => ?_⟩
    obtain ⟨hskip, hfit, hmis⟩ := happ c hc
    have hfactors : (raiseCal e).fsFactors c = e.fsFactors c := by
      unfold Dev.fsFactors
      rw [hkfs]
    dsimp only
    rw [hfactors, hkfail]
    exact ⟨hskip, hfit, hmis⟩
  · intro s hb hl
    obtain ⟨e, r, rfl, hdone, hview, hframe⟩ := calDone_frame hb hl
    obtain ⟨-, hacq⟩ := raiseCal_frame (pdApplied s.dev)
    rw [hacq] at hview
    have hpd := pdApplied_sansPdYield s.dev
    obtain ⟨hsel, hunsel⟩ := pdApplied_factors (d := s.dev)
    have hcalPd : r.acq.calPd = (pdApplied s.dev).acq.calPd := (congrArg Acq.calPd hview :)
    have hpdFail : r.acq.pdFail = (pdApplied s.dev).acq.pdFail := (congrArg Acq.pdFail hview :)
    refine ⟨r, .congr rfl hdone, hframe, (congrArg Acq.calBusy hview :), (congrArg Acq.first hview :),
      (congrArg Acq.calFs hview :).trans (congrArg (·.acq.calFs) hpd :),
      (congrArg Acq.calSv hview :).trans (congrArg (·.acq.calSv) hpd :), fun h n hn => ?_, fun h => hcalPd.trans (hunsel h)⟩
    rw [hcalPd, hpdFail]
    exact hsel h n hn
  · intro s v hr
    exact ⟨fun h => .congr (onHost_ready s _ hr) (if_pos h), fun h => .congr (onHost_ready s _ hr) (if_neg (by rw [h]; decide))⟩
end Sys2Proof.Machine

end

/-! ## Loops at run time (spec 05) -/

section
/-! PROOF. Runs, dispatch and supervision of the loops (R125, R131 to R136, R142). -/

namespace Sys2Proof.Machine

/-! ### What the Witness and the sampler leave unchanged -/

/-- The device without the Witness and the Tallies. -/
def Dev.sansWit (d : Dev) : Dev := { d with wit := {}, tal := {} }

theorem witTake_sansWit (turn : BitVec 48) (q sub : Nat) (src : Word) (num : Int) (den : Nat) (dflt : Bool) (d : Dev)
    (key : Nat) : (witTake turn q sub src num den dflt d key).sansWit = d.sansWit := by
  unfold witTake
  dsimp only
  (repeat' split) <;> simp only [Dev.sansWit, Dev.modWit, Dev.tally]

theorem witValue_sansWit (src : Word) (q sub : Nat) (num : Int) (den : Nat) (dflt : Bool) (d : Dev) :
    (witValue src q sub num den dflt d).sansWit = d.sansWit := by
  unfold witValue witValueAt
  split
  · rfl
  · exact foldl_keeps Dev.sansWit (witTake_sansWit _ q sub src num den dflt) _ _

@[simp] theorem witValue_thr (src : Word) (q sub : Nat) (num : Int) (den : Nat) (dflt : Bool) (d : Dev) :
    (witValue src q sub num den dflt d).thr = d.thr :=
  (congrArg Dev.thr (witValue_sansWit src q sub num den dflt d) :)

@[simp] theorem witValue_slots (src : Word) (q sub : Nat) (num : Int) (den : Nat) (dflt : Bool) (d : Dev) :
    (witValue src q sub num den dflt d).slots = d.slots :=
  (congrArg Dev.slots (witValue_sansWit src q sub num den dflt d) :)

/-- The device without what the instruction sampler changes. -/
def Dev.sansSampler (d : Dev) : Dev := { d with tal := {}, host := {}, sag := {}, fresh := 0 }

theorem raise_sansSampler (d : Dev) (code detail : Nat) (h : Word) : (d.raise code detail h).sansSampler = d.sansSampler := by
  rw [raise_frame]
  rfl

theorem tagIssue_sansSampler (lane : Nat) (builtin cancelled : Bool) (h : Word) (d : Dev) (i : Nat × Nat × Bool) :
    (tagIssue lane builtin cancelled h d i).sansSampler = d.sansSampler := by
  unfold tagIssue
  dsimp only
  split
  · rfl
  · split
    · rfl
    · split
      · rw [raise_sansSampler]
        simp only [Dev.sansSampler, Dev.tally, Dev.freeBits]
      · simp only [Dev.sansSampler, Dev.tally, Dev.freeBits]

theorem laneRun_sansSampler (lane : Nat) (counts : Nat × Nat × Nat × Nat) (builtin : Bool) (h : Word)
    (ops : List (Nat × Nat × Bool)) (d : Dev) : (laneRun lane counts builtin h ops d).sansSampler = d.sansSampler := by
  unfold laneRun
  exact (foldl_keeps Dev.sansSampler (tagIssue_sansSampler lane builtin false h) _ _).trans (by simp only [Dev.sansSampler, Dev.tally])

theorem romOps_sansSampler (n : Nat) (d : Dev) : (romOps n d).2.sansSampler = d.sansSampler :=
  List.foldlRecOn (List.range n) _ (motive := fun p : List (Nat × Nat × Bool) × Dev => p.2.sansSampler = d.sansSampler) rfl
    fun _ hp _ _ => hp

/-- A device of the same view differs in the sampler's fields alone. -/
theorem eq_of_sansSampler {d e : Dev} (h : e.sansSampler = d.sansSampler) :
    e = { d with tal := e.tal, host := e.host, sag := e.sag, fresh := e.fresh } := by
  have he : e = { e.sansSampler with tal := e.tal, host := e.host, sag := e.sag, fresh := e.fresh } := rfl
  rw [h] at he
  exact he

/-! ### A run becomes ready -/

section
variable {d : Dev} {l : Nat} {vals : List Int}

theorem loopReady_new (h : LoopId.user l ∉ d.thr.ready) :
    loopReady l vals d =
      let e := d.modLoop l fun r => { r with ready := some vals }
      { e with thr := { e.thr with ready := e.thr.ready ++ [.user l] } } := by
  have hc : (d.modLoop l fun r => { r with ready := some vals }).thr.ready.contains (LoopId.user l) = false := by
    simpa [Dev.modLoop] using h
  simp only [loopReady, pushReady, hc]
  rfl

theorem loopReady_overrun (h : LoopId.user l ∈ d.thr.ready) :
    loopReady l vals d =
      let e := (d.modLoop l fun r => { r with ready := some vals }).modLoop l fun r =>
        { r with overrun := satAdd 32 r.overrun 1, missed := r.missed + 1, overrunsTurn := r.overrunsTurn + 1 }
      e.raiseOnceTurn (0x0303 * 256 + l) 0x0303 (e.loop l).overrunsTurn (e.handleOf tLoop l) := by
  have hc : (d.modLoop l fun r => { r with ready := some vals }).thr.ready.contains (LoopId.user l) = true := by
    simpa [Dev.modLoop] using h
  simp only [loopReady, pushReady, hc]
  rfl

@[simp] theorem raiseOnceTurn_loop (key code detail : Nat) (h : Word) : (d.raiseOnceTurn key code detail h).loop l = d.loop l := by
  rw [raiseOnceTurn_frame]
  rfl

@[simp] theorem Dev.modLoop_ready (f : LoopRt → LoopRt) : (d.modLoop l f).thr.ready = d.thr.ready := rfl
end

/-! ### The loop's banks, set points and ports -/

/-- The device without its waiting commands and what an answer to one changes. -/
def Dev.sansWaits (d : Dev) : Dev := { d with waits := [], host := {}, tal := {}, twb := {}, net := {} }

theorem endWaits_sansWaits (d : Dev) (p : Wait → Bool) (f : Wait → Cpl) : (d.endWaits p f).sansWaits = d.sansWaits := by
  rw [endWaits_frame]
  rfl

@[simp] theorem endWaits_thr (d : Dev) (p : Wait → Bool) (f : Wait → Cpl) : (d.endWaits p f).thr = d.thr :=
  (congrArg Dev.thr (endWaits_sansWaits d p f) :)

@[simp] theorem endWaits_slots (d : Dev) (p : Wait → Bool) (f : Wait → Cpl) : (d.endWaits p f).slots = d.slots :=
  (congrArg Dev.slots (endWaits_sansWaits d p f) :)

@[simp] theorem endWaits_slot (d : Dev) (p : Wait → Bool) (f : Wait → Cpl) (t i : Nat) : (d.endWaits p f).slot t i = d.slot t i := by
  simp [Dev.slot]

@[simp] theorem endWaits_loop (d : Dev) (p : Wait → Bool) (f : Wait → Cpl) (l : Nat) : (d.endWaits p f).loop l = d.loop l := by
  simp [Dev.loop]

@[simp] theorem Dev.modLoop_slot (d : Dev) (l : Nat) (f : LoopRt → LoopRt) (t i : Nat) : (d.modLoop l f).slot t i = d.slot t i := rfl

theorem tget_mem {α : Type} {dflt : α} {t : List (Nat × α)} {k : Nat} (h : tget dflt t k ≠ dflt) : (k, tget dflt t k) ∈ t := by
  induction t with
  | nil => exact absurd rfl h
  | cons p t ih =>
    obtain ⟨j, v⟩ := p
    by_cases hj : j = k
    · simp [tget, hj]
    · rw [tget, if_neg hj] at h ⊢
      exact List.mem_cons_of_mem _ (ih h)

theorem mem_tinsert {α : Type} {t : List (Nat × α)} {k : Nat} {v : α} {p : Nat × α} (h : p ∈ tinsert t k v) :
    p = (k, v) ∨ p ∈ t := by
  induction t with
  | nil => simpa [tinsert] using h
  | cons q t ih =>
    obtain ⟨j, w⟩ := q
    rw [tinsert] at h
    split at h
    · exact List.mem_cons.1 h
    · split at h
      · rcases List.mem_cons.1 h with h | h
        · exact .inl h
        · exact .inr (List.mem_cons_of_mem _ h)
      · rcases List.mem_cons.1 h with rfl | h
        · simp
        · exact (ih h).imp_right (List.mem_cons_of_mem _)

/-- A change that gives an entry its own value back lists nothing new. -/
theorem mem_of_mem_tmod {α : Type} [DecidableEq α] {dflt : α} {t : List (Nat × α)} {k : Nat} {f : α → α} {p : Nat × α}
    (hf : f (tget dflt t k) = tget dflt t k) (h : p ∈ tmod dflt t k f) : p ∈ t := by
  rw [tmod, hf, tset] at h
  split at h
  · exact List.mem_of_mem_filter h
  · next hne =>
    rcases mem_tinsert h with rfl | h
    · exact tget_mem hne
    · exact h

/-- A change that gives a slot its own value back leaves every slot as it is. -/
theorem modSlot_slot_of_same (d : Dev) {t i : Nat} {f : Slot → Slot} (hf : f (d.slot t i) = d.slot t i) (u j : Nat) :
    (d.modSlot t i f).slot u j = d.slot u j := by
  by_cases hk : slotKey u j = slotKey t i
  · simp only [Dev.slot, Dev.modSlot, hk, tget_tmod_self]
    exact hf
  · exact slot_modSlot_ne d f hk

theorem railOfLoop_eq_none {d : Dev} {l : Nat} :
    d.railOfLoop l = none ↔ ∀ r ∈ d.liveIndices tRail, (d.railLoops r).contains l = false := by
  simp [Dev.railOfLoop]

/-- No rail names a loop after a change that gives a slot its own value back, where none did before. -/
theorem modSlot_railOfLoop_none {d : Dev} {t i l : Nat} {f : Slot → Slot} (hf : f (d.slot t i) = d.slot t i)
    (h : d.railOfLoop l = none) : (d.modSlot t i f).railOfLoop l = none := by
  rw [railOfLoop_eq_none] at h ⊢
  intro r hr
  have hmem : r ∈ d.liveIndices tRail := by
    obtain ⟨p, hp, rfl⟩ := List.mem_map.1 hr
    obtain ⟨hp, hlive⟩ := List.mem_filter.1 hp
    exact List.mem_map_of_mem (List.mem_filter.2 ⟨mem_of_mem_tmod hf hp, hlive⟩)
  have hsame : (d.modSlot t i f).railLoops r = d.railLoops r := by
    unfold Dev.railLoops Dev.railW
    rw [modSlot_slot_of_same d hf]
  rw [hsame]
  exact h r hmem

theorem railOfLoop_congr {d e : Dev} (h : e.slots = d.slots) (l : Nat) : e.railOfLoop l = d.railOfLoop l := by
  unfold Dev.railOfLoop Dev.liveIndices Dev.railLoops Dev.railW Dev.slot
  rw [h]

/-! ### A run that finds neither a rail, nor a bank to swap, nor a set point, nor a preload -/

section
variable {d : Dev} {l : Nat}

theorem swapLoop_none (run : BitVec 32) (h : (d.slot tLoop l).swap = false) : swapLoop d l run = d := if_neg (by rw [h]; decide)

theorem swapLoop_swaps (run : BitVec 32) (h : (d.slot tLoop l).swap = true) :
    ∃ p f, swapLoop d l run = ((d.modSlot tLoop l fun s => { s with activeB := !s.activeB, swap := false }).modLoop l fun r =>
      { r with lastSwapRun := run }).endWaits p f :=
  ⟨_, _, if_pos h⟩

@[simp] theorem applySetPoints_loop : (applySetPoints d l).loop l = { d.loop l with setPoints := [] } := by
  simp [applySetPoints]

/-- Without set points a boundary leaves every slot, and the rails' loops, as they are. -/
theorem applySetPoints_slot (h : (d.loop l).setPoints = []) (t i : Nat) : (applySetPoints d l).slot t i = d.slot t i := by
  simp only [applySetPoints, endWaits_slot, Dev.modLoop_slot]
  exact modSlot_slot_of_same d (by rw [h]; rfl) t i

theorem applySetPoints_railOfLoop (h : (d.loop l).setPoints = []) (hr : d.railOfLoop l = none) :
    (applySetPoints d l).railOfLoop l = none := by
  unfold applySetPoints
  rw [railOfLoop_congr (endWaits_slots ..), railOfLoop_congr (Dev.modLoop_slots ..)]
  exact modSlot_railOfLoop_none (by rw [h]; rfl) hr
/-- What such a run finds: its own counts moved on, the slots as they were, and no rail. -/
theorem loopFound_plain (wait : Nat) (hr : d.railOfLoop l = none) (hs : (d.slot tLoop l).swap = false)
    (hsp : (d.loop l).setPoints = []) (hp : (d.loop l).preload = none) :
    ((loopFound l wait d).loop l = { d.loop l with
      ready := none, runs := (d.loop l).runs + 1, missed := 0, maxWait := max (d.loop l).maxWait wait, setPoints := [] }) ∧
      (∀ t i, (loopFound l wait d).slot t i = d.slot t i) ∧ (loopFound l wait d).railOfLoop l = none := by
  generalize hm : (d.modLoop l fun r => { r with ready := none, runs := r.runs + 1, missed := 0, maxWait := max r.maxWait wait }) = m
  have hloop : m.loop l = { d.loop l with
      ready := none, runs := (d.loop l).runs + 1, missed := 0, maxWait := max (d.loop l).maxWait wait } := by
    rw [← hm, loop_modLoop_self]
  have hslot (t i : Nat) : m.slot t i = d.slot t i := by rw [← hm, Dev.modLoop_slot]
  have hmr : m.railOfLoop l = none := by rw [← hm, railOfLoop_congr (Dev.modLoop_slots ..), hr]
  have hmsp : (m.loop l).setPoints = [] := by rw [hloop]; exact hsp
  have hrail := applySetPoints_railOfLoop hmsp hmr
  have hswap := swapLoop_none (d := m) (l := l) (m.loop l).runs (by rw [hslot]; exact hs)
  have hfound : loopFound l wait d = applySetPoints m l := by
    have hpre : ((applySetPoints m l).loop l).preload = none := by rw [applySetPoints_loop, hloop]; exact hp
    simp only [loopFound, hm, hswap, hrail, takePreload, hpre]
  rw [hfound]
  exact ⟨by rw [applySetPoints_loop, hloop], fun t i => (applySetPoints_slot hmsp t i).trans (hslot t i), hrail⟩

theorem portSet_none {k : Nat} (h : lcKind (d.slot tLoop l).cfg k = 0) : portSet l d k = d := by
  simp only [portSet, h]

/-- An observation changes the count of following errors alone, and no slot. -/
theorem observe_kept (e : Option Nat) (k : Int) (muted : Bool) :
    (observe l e k muted d).slots = d.slots ∧ ∃ n, (observe l e k muted d).loop l = { d.loop l with ferr := n } := by
  cases e with
  | none => exact ⟨rfl, (d.loop l).ferr, rfl⟩
  | some e =>
    have hthr := witValue_thr (d.handleOf tLoop l) 0x40 0 e 1 false d
    have hslots := witValue_slots (d.handleOf tLoop l) 0x40 0 e 1 false d
    unfold observe
    dsimp only
    generalize witValue (d.handleOf tLoop l) 0x40 0 e 1 false d = w at hthr hslots ⊢
    have hloop : w.loop l = d.loop l := by simp only [Dev.loop, hthr]
    by_cases hq : (muted || !lcFerrEn (w.slot tLoop l).cfg) = true
    · rw [if_pos hq]
      exact ⟨hslots, (d.loop l).ferr, hloop⟩
    · rw [if_neg hq, loop_modLoop_self, hloop]
      exact ⟨hslots, _, rfl⟩

/-- A loop's runtime after a run that ended in the context `c` and counts (R125, R142). -/
def LoopRt.ran (c : RunCtx) (r : LoopRt) : LoopRt :=
  { r with
    s := c.s, dSat := satAdd 32 r.dSat c.dSat, accSat := satAdd 32 r.accSat c.accSat, outDefaulted := false
    outs := (List.range 4).map fun k => (c.outs.getD k none).getD (r.outs.getD k 0) }

/-- What a run leaves of its loop, where no rail names the loop and no output has a port. -/
theorem loopLeft_plain (wait pos : Nat) (k0 : Int) (c : RunCtx) (hr : d.railOfLoop l = none)
    (hk : ∀ k < 4, lcKind (d.slot tLoop l).cfg k = 0) :
    ∃ n, (loopLeft l wait pos k0 c d).loop l = { LoopRt.ran c (d.loop l) with ferr := n } := by
  have hmuted : loopMuted l d = false := by simp only [loopMuted, hr]
  unfold loopLeft
  rw [hmuted]
  dsimp only
  generalize hm : d.modLoop l _ = m
  have hmloop : m.loop l = LoopRt.ran c (d.loop l) := by
    rw [← hm, loop_modLoop_self]
    rfl
  have hmslots : m.slots = d.slots := by rw [← hm, Dev.modLoop_slots]
  have hwthr := witValue_thr (m.handleOf tLoop l) 0x41 0 wait 1 false m
  have hwslots := witValue_slots (m.handleOf tLoop l) 0x41 0 wait 1 false m
  generalize witValue (m.handleOf tLoop l) 0x41 0 wait 1 false m = w at hwthr hwslots ⊢
  have hwloop : w.loop l = m.loop l := by simp only [Dev.loop, hwthr]
  obtain ⟨hoslots, n, holoop⟩ := observe_kept (d := w) (l := l) c.ferr k0 false
  generalize observe l c.ferr k0 false w = o at hoslots holoop ⊢
  have hslots : o.slots = d.slots := hoslots.trans (hwslots.trans hmslots)
  have hports : ((List.range 4).filter fun k => (c.outs.getD k none).isSome).foldl (portSet l) o = o := by
    refine List.foldlRecOn _ _ (motive := fun e => e = o) rfl fun e he k hk4 => ?_
    rw [he]
    refine portSet_none ?_
    have hslot : o.slot tLoop l = d.slot tLoop l := by simp only [Dev.slot, hslots]
    rw [hslot]
    exact hk k (List.mem_range.1 (List.mem_of_mem_filter hk4))
  rw [if_neg Bool.false_ne_true, hports, railOfLoop_congr hslots, hr]
  exact ⟨n, by rw [holoop, hwloop, hmloop]⟩
/-- What a whole run leaves of its loop, where no rail names it, nothing waits for the run, and no output has a port. -/
theorem loopRun_plain (lane wait pos : Nat) {ins : List Int} (hi : (d.loop l).ready = some ins) (hr : d.railOfLoop l = none)
    (hs : (d.slot tLoop l).swap = false) (hsp : (d.loop l).setPoints = []) (hp : (d.loop l).preload = none)
    (hk : ∀ k < 4, lcKind (d.slot tLoop l).cfg k = 0) :
    ∃ n, (loopRun l lane wait pos d).loop l =
      { LoopRt.ran ((loopCtx d l ins).run (lcProgram (d.slot tLoop l).cfg)) { d.loop l with
        ready := none, runs := (d.loop l).runs + 1, missed := 0, maxWait := max (d.loop l).maxWait wait, setPoints := [] } with
        ferr := n } := by
  obtain ⟨hloop, hslot, hrail⟩ := loopFound_plain wait hr hs hsp hp
  simp only [loopRun, hi]
  generalize loopFound l wait d = e at hloop hslot hrail ⊢
  have hctx : loopCtx e l ins = loopCtx d l ins := by simp only [loopCtx, hslot, hloop]
  rw [hctx, hslot]
  generalize hm : laneRun lane _ false _ _ e = m
  have hview : m.sansSampler = e.sansSampler := by rw [← hm, laneRun_sansSampler]
  have hthr : m.thr = e.thr := (congrArg Dev.thr hview :)
  have hslots : m.slots = e.slots := (congrArg Dev.slots hview :)
  have hmslot : m.slot tLoop l = d.slot tLoop l := by simp only [Dev.slot, hslots]; exact hslot tLoop l
  have hmloop : m.loop l = e.loop l := by simp only [Dev.loop, hthr]
  obtain ⟨n, hleft⟩ := loopLeft_plain (d := m) (l := l) wait pos ((loopCtx d l ins).k.getD (lcFerrK (d.slot tLoop l).cfg) 0)
    ((loopCtx d l ins).run (lcProgram (d.slot tLoop l).cfg)) ((railOfLoop_congr hslots l).trans hrail) (by rw [hmslot]; exact hk)
  exact ⟨n, by rw [hleft, hmloop, hloop]⟩

/-! ### Dispatch -/

theorem loopDispatch_idle {lane wait pos : Nat}
    (h : d.plane.takeover = true ∨ ∀ id ∈ d.thr.ready, ∀ p ∈ d.thr.placed, p.id = id → p.lane ≠ lane) :
    loopDispatch lane wait pos d = d := by
  unfold loopDispatch
  dsimp only
  rcases h with h | h
  · rw [if_pos h]
  · split
    · rfl
    · have hnone : (d.thr.ready.find? fun id => d.thr.placed.any fun p => p.id == id && p.lane == lane) = none := by
        simpa using h
      simp only [hnone]

/-- The device in which the ready run of `id` has left the queue. -/
def Dev.dequeued (d : Dev) (id : LoopId) : Dev := { d with thr := { d.thr with ready := d.thr.ready.filter (· != id) } }

section
variable {lane wait pos : Nat} {id : LoopId} {before after : List LoopId}

/-- The first ready run of a lane. -/
theorem find_ready_of_first (h : d.thr.ready = before ++ id :: after)
    (hb : ∀ x ∈ before, ∀ p ∈ d.thr.placed, p.id = x → p.lane ≠ lane) (hid : ∃ p ∈ d.thr.placed, p.id = id ∧ p.lane = lane) :
    (d.thr.ready.find? fun id => d.thr.placed.any fun p => p.id == id && p.lane == lane) = some id := by
  rw [h, List.find?_append]
  have hnone : (before.find? fun id => d.thr.placed.any fun p => p.id == id && p.lane == lane) = none := by simpa using hb
  have hsome : (d.thr.placed.any fun p => p.id == id && p.lane == lane) = true := by simpa using hid
  rw [hnone, Option.none_or]
  exact List.find?_cons_of_pos hsome

theorem loopDispatch_user {l : Nat} (ht : d.plane.takeover = false)
    (hf : (d.thr.ready.find? fun id => d.thr.placed.any fun p => p.id == id && p.lane == lane) = some (.user l)) :
    loopDispatch lane wait pos d = loopRun l lane wait pos (d.dequeued (.user l)) := by
  unfold loopDispatch
  simp only [ht, hf]
  rfl

/-- A balance loop's program on its lane: the device in which its instructions have passed the sampler. -/
def balanceIssued (lane i k : Nat) (d : Dev) : Dev :=
  let r := romOps 12 (d.dequeued (.balance i k))
  laneRun lane (12, 0, 0, 0) true ((d.dequeued (.balance i k)).handleOf (ownerKey (.balance i k) / 4096)
    (ownerKey (.balance i k) % 4096)) r.1 r.2

theorem loopDispatch_balance {i k : Nat} (ht : d.plane.takeover = false)
    (hf : (d.thr.ready.find? fun id => d.thr.placed.any fun p => p.id == id && p.lane == lane) = some (.balance i k)) :
    loopDispatch lane wait pos d = wordsArrive (balanceRun (balanceIssued lane i k d) i k) i pos := by
  unfold loopDispatch balanceIssued
  simp only [ht, hf]
  rfl

theorem balanceIssued_frame (lane i k : Nat) :
    balanceIssued lane i k d = { d.dequeued (.balance i k) with
      tal := (balanceIssued lane i k d).tal, host := (balanceIssued lane i k d).host
      sag := (balanceIssued lane i k d).sag, fresh := (balanceIssued lane i k d).fresh } :=
  eq_of_sansSampler ((laneRun_sansSampler ..).trans (romOps_sansSampler ..))

/-- A limit loop's program on its lane. -/
def limitIssued (lane c : Nat) (d : Dev) : Dev :=
  let r := romOps 16 (d.dequeued (.limit c))
  laneRun lane (16, 0, 2, 2) true ((d.dequeued (.limit c)).handleOf (ownerKey (.limit c) / 4096)
    (ownerKey (.limit c) % 4096)) r.1 (r.2.modChan c fun x => { x with limMissed := 0 })

theorem loopDispatch_limit {c : Nat} (ht : d.plane.takeover = false)
    (hf : (d.thr.ready.find? fun id => d.thr.placed.any fun p => p.id == id && p.lane == lane) = some (.limit c)) :
    loopDispatch lane wait pos d =
      if c < 40 then feedLimitRun (limitIssued lane c d) c else branchLimitRun (limitIssued lane c d) (c - 40) := by
  unfold loopDispatch limitIssued
  simp only [ht, hf]
  rfl
end

@[simp] theorem chan_modChan_self (d : Dev) (c : Nat) (f : Chan → Chan) : (d.modChan c f).chan c = f (d.chan c) := by
  unfold Dev.chan Dev.modChan
  split <;> simp

theorem chan_modChan_ne (d : Dev) {c k : Nat} (f : Chan → Chan) (h : k ≠ c) : (d.modChan c f).chan k = d.chan k := by
  unfold Dev.chan Dev.modChan
  split <;> split
  · exact tget_tmod_ne _ _ _ h
  · rfl
  · rfl
  · exact tget_tmod_ne _ _ _ (by omega)

/-- What the current-limit loop's run finds: its missed runs at 0, the run out of the queue, and the rest of it unchanged. -/
theorem limitIssued_kept (lane c : Nat) :
    ((limitIssued lane c d).chan c).limMissed = 0 ∧ (limitIssued lane c d).thr = (d.dequeued (.limit c)).thr ∧
      (limitIssued lane c d).acq = d.acq ∧ (limitIssued lane c d).wheel = d.wheel := by
  unfold limitIssued
  have hrom := romOps_sansSampler 16 (d.dequeued (.limit c))
  dsimp only
  generalize romOps 16 (d.dequeued (.limit c)) = r at hrom ⊢
  have hlane := laneRun_sansSampler lane (16, 0, 2, 2) true ((d.dequeued (.limit c)).handleOf (ownerKey (.limit c) / 4096)
    (ownerKey (.limit c) % 4096)) r.1 (r.2.modChan c fun x => { x with limMissed := 0 })
  generalize laneRun lane (16, 0, 2, 2) true _ r.1 _ = e at hlane ⊢
  have hchan : e.chan c = (r.2.modChan c fun x => { x with limMissed := 0 }).chan c := (congrArg (·.chan c) hlane :)
  refine ⟨by rw [hchan, chan_modChan_self], (congrArg Dev.thr hlane :).trans ?_, (congrArg Dev.acq hlane :).trans ?_,
    (congrArg Dev.wheel hlane :).trans ?_⟩
  · exact (Dev.modChan_thr ..).trans (congrArg Dev.thr hrom :)
  · exact (Dev.modChan_acq ..).trans (congrArg Dev.acq hrom :)
  · exact (Dev.modChan_wheel ..).trans (congrArg Dev.wheel hrom :)

/-! ### ACTION -/

/-- A swap leaves a loop's outputs and counts, the configurations and the queue of ready runs as they are. -/
theorem swapLoop_kept (run : BitVec 32) :
    (swapLoop d l run).thr.ready = d.thr.ready ∧ ((swapLoop d l run).slot tLoop l).cfg = (d.slot tLoop l).cfg ∧
      ((swapLoop d l run).loop l).outs = (d.loop l).outs ∧ ((swapLoop d l run).loop l).trips = (d.loop l).trips := by
  cases h : (d.slot tLoop l).swap with
  | false => rw [swapLoop_none run h]; exact ⟨rfl, rfl, rfl, rfl⟩
  | true =>
    obtain ⟨p, f, hswap⟩ := swapLoop_swaps run h
    rw [hswap]
    simp

theorem foldl_setCoef_cfg (sp : List (Nat × Int)) (s : Slot) :
    (sp.foldl (fun s p => { s with bankA := setCoef s.bankA p.1 p.2, bankB := setCoef s.bankB p.1 p.2 }) s).cfg = s.cfg :=
  List.foldlRecOn sp _ (motive := fun t : Slot => t.cfg = s.cfg) rfl fun _ ht _ _ => ht

/-- So do the set points that take effect at a boundary. -/
theorem applySetPoints_kept :
    (applySetPoints d l).thr.ready = d.thr.ready ∧ ((applySetPoints d l).slot tLoop l).cfg = (d.slot tLoop l).cfg := by
  simp [applySetPoints, foldl_setCoef_cfg]

/-- The loop latched by HOLD (`force = false`) or FORCE, before its ports are set (R145). -/
def loopLatched (l : Nat) (force : Bool) (d : Dev) : Dev :=
  let m := d.modLoop l fun r => { r with trips := satAdd 32 r.trips 1 }
  let e := applySetPoints (swapLoop m l ((m.loop l).runs + 1)) l
  (e.dequeued (.user l)).modLoop l fun r =>
    { r.drop with latch := if force then .force else .hold, outs := if force then safeOuts (e.slot tLoop l).cfg else r.outs }

theorem loopLatched_kept (l : Nat) (force : Bool) (d : Dev) :
    let e := loopLatched l force d
    (e.loop l).latch = (if force then .force else .hold) ∧ LoopId.user l ∉ e.thr.ready ∧
      (e.loop l).outs = (if force then safeOuts (d.slot tLoop l).cfg else (d.loop l).outs) ∧
      (e.loop l).trips = satAdd 32 (d.loop l).trips 1 := by
  unfold loopLatched
  generalize hm : (d.modLoop l fun r => { r with trips := satAdd 32 r.trips 1 }) = m
  have hmloop : m.loop l = { d.loop l with trips := satAdd 32 (d.loop l).trips 1 } := by rw [← hm, loop_modLoop_self]
  have hmcfg : m.slot tLoop l = d.slot tLoop l := by rw [← hm, Dev.modLoop_slot]
  obtain ⟨-, hswapCfg, hswapOuts, hswapTrips⟩ := swapLoop_kept (d := m) (l := l) ((m.loop l).runs + 1)
  dsimp only
  generalize swapLoop m l ((m.loop l).runs + 1) = w at hswapCfg hswapOuts hswapTrips ⊢
  obtain ⟨-, hcfg⟩ := applySetPoints_kept (d := w) (l := l)
  have hloop := applySetPoints_loop (d := w) (l := l)
  generalize applySetPoints w l = e at hcfg hloop ⊢
  have hself : ((e.dequeued (.user l)).loop l) = e.loop l := rfl
  rw [loop_modLoop_self, hself, hloop, hcfg, hswapCfg, hmcfg]
  refine ⟨rfl, by simp [Dev.modLoop, Dev.dequeued], ?_, ?_⟩
  · dsimp only
    rw [hswapOuts, hmloop]
  · dsimp only [LoopRt.drop]
    rw [hswapTrips, hmloop]

theorem applyAction_hold (cause : Nat) (h : lcAction (d.slot tLoop l).cfg = 0) :
    applyAction l cause d = loopLatched l false d := by
  simp only [applyAction, h]
  rfl

theorem applyAction_force (cause : Nat) (h : lcAction (d.slot tLoop l).cfg = 1) :
    applyAction l cause d = portsSet (loopLatched l true d) l := by
  simp only [applyAction, h]
  rfl
end

/-- Settles O45, from the equations of a ready run, the dispatch, the run itself and ACTION. -/
theorem loopRuns : Obligations.LoopRuns := by
  unfold Obligations.LoopRuns
  refine ⟨fun d l vals => ⟨?_, fun h => ?_, fun h => ?_⟩, fun s lane wait pos hl h => .congr (onDevAt_lt s _ hl) (loopDispatch_idle h),
    ?_, ?_, fun d l run => ⟨swapLoop_none run, fun h => ?_⟩, ?_, ?_, fun s i k => rfl, ?_, ?_, ?_⟩
  · by_cases h : LoopId.user l ∈ d.thr.ready
    · simp [loopReady_overrun h]
    · rw [loopReady_new h]
      exact (congrArg LoopRt.ready (loop_modLoop_self d l fun r => { r with ready := some vals }) :)
  · rw [loopReady_new h]
    rfl
  · rw [loopReady_overrun h]
    simp
  · intro s lane wait pos id before after hl ht hr hb hid ready
    have hfind := find_ready_of_first hr hb hid
    refine ⟨?_, ?_, ?_⟩
    · rintro l rfl
      exact .congr (onDevAt_lt s _ hl) (loopDispatch_user ht hfind)
    · rintro i k rfl
      exact ⟨_, .congr (onDevAt_lt s _ hl) (loopDispatch_balance ht hfind), balanceIssued_frame ..⟩
    · rintro c rfl
      exact ⟨_, .congr (onDevAt_lt s _ hl) (loopDispatch_limit ht hfind), limitIssued_kept ..⟩
  · intro d l lane wait pos ins hi hr hs hsp hp hk
    obtain ⟨n, hrun⟩ := loopRun_plain lane wait pos hi hr hs hsp hp hk
    dsimp only
    rw [hrun]
    exact ⟨rfl, rfl, rfl, rfl, rfl, rfl, rfl, rfl⟩
  · obtain ⟨p, f, hswap⟩ := swapLoop_swaps run h
    rw [hswap]
    simp
  · exact fun s l hl => ⟨fun h => .congr (onDevAt_lt s _ hl) (if_neg (by rw [h]; decide)),
      fun h => .congr (onDevAt_lt s _ hl) (if_pos h)⟩
  · exact fun s l => ⟨fun h => .congr rfl (if_neg (by rw [h]; decide)), fun h => .congr rfl (if_pos h)⟩
  · exact fun s c => ⟨fun h => .congr rfl (if_neg (by rw [h]; decide)), fun h => .congr rfl (if_pos h)⟩
  · intro d l cause
    refine ⟨fun h => ?_, fun h => ?_, fun h => if_pos h⟩
    · rw [applyAction_hold cause h]
      exact loopLatched_kept l false d
    · obtain ⟨hlatch, hready, houts, -⟩ := loopLatched_kept l true d
      exact ⟨_, applyAction_force cause h, hlatch, houts, hready⟩
  · exact fun s lane id coef => ⟨rfl, fun h => .congr rfl ((if_neg (by decide)).trans (if_neg (by rw [h]; decide))),
      fun h => .congr rfl ((if_neg (by decide)).trans (if_pos h))⟩

end Sys2Proof.Machine

end

/-! ## Regulators (spec 06) -/

section
/-! PROOF. Start, stop and faults of a rail (R179 to R184, R192). -/

namespace Sys2Proof.Machine

/-! ### What a LOOP that is disabled, and its ports, leave unchanged -/

/-- A slot without what a LOOP's disabling changes of it. -/
def Slot.core (s : Slot) : Slot := { s with hstate := .disabled, activeB := false, swap := false, bankA := [], bankB := [] }

/-- A rail without the demand that its loops give it. -/
def Rail.core (r : Rail) : Rail := { r with demand := 0, lastDemand := 0, demandDefaulted := false }

/-- A phase without its KIND 1 value. -/
def Phase.core (x : Phase) : Phase := { x with kind1 := none }

/-- `e` differs from `d` in what LOOPs write through their ports, in the LOOPs themselves, and in waiting commands that
were answered. -/
structure PortKept (d e : Dev) : Prop where
  slot : ∀ t i, (e.slot t i).core = (d.slot t i).core
  rail : ∀ i, (e.rail i).core = (d.rail i).core
  phase : ∀ p, (e.phase p).core = (d.phase p).core
  pwm : e.pwm = { d.pwm with rails := e.pwm.rails, phases := e.pwm.phases }
  waits : ∀ w ∈ e.waits, w ∈ d.waits ∨ w.kind = .lost
  frame : e = { d with
    slots := e.slots, waits := e.waits, host := e.host, tal := e.tal, twb := e.twb, net := e.net, thr := e.thr, pwm := e.pwm
    feeds := e.feeds, branches := e.branches }

namespace PortKept

theorem refl (d : Dev) : PortKept d d := ⟨fun _ _ => rfl, fun _ => rfl, fun _ => rfl, rfl, fun _ => .inl, rfl⟩

theorem trans {d e f : Dev} (h : PortKept d e) (h' : PortKept e f) : PortKept d f where
  slot t i := (h'.slot t i).trans (h.slot t i)
  rail i := (h'.rail i).trans (h.rail i)
  phase p := (h'.phase p).trans (h.phase p)
  pwm := by rw [h'.pwm, h.pwm]
  waits w hw := (h'.waits w hw).elim (h.waits w) .inr
  frame := by rw [h'.frame, h.frame]

theorem foldl {α : Type} {f : Dev → α → Dev} (h : ∀ d a, PortKept d (f d a)) (l : List α) (d : Dev) :
    PortKept d (l.foldl f d) :=
  List.foldlRecOn l f (motive := PortKept d) (refl d) fun e he a _ => he.trans (h e a)

theorem modSlot (d : Dev) (t i : Nat) {f : Slot → Slot} (hf : (f (d.slot t i)).core = (d.slot t i).core) :
    PortKept d (d.modSlot t i f) where
  slot u j := by
    by_cases hk : slotKey u j = slotKey t i
    · simp only [Dev.slot, Dev.modSlot, hk, tget_tmod_self]
      exact hf
    · rw [slot_modSlot_ne d f hk]
  rail _ := rfl
  phase _ := rfl
  pwm := rfl
  waits _ := .inl
  frame := rfl

theorem modLoop (d : Dev) (l : Nat) (f : LoopRt → LoopRt) : PortKept d (d.modLoop l f) :=
  ⟨fun _ _ => rfl, fun _ => rfl, fun _ => rfl, rfl, fun _ => .inl, rfl⟩

theorem dequeued (d : Dev) (id : LoopId) : PortKept d (d.dequeued id) :=
  ⟨fun _ _ => rfl, fun _ => rfl, fun _ => rfl, rfl, fun _ => .inl, rfl⟩

end PortKept

/-- What remains waiting after some have ended was waiting before, or waits as a lost answer. -/
theorem endWaits_waits (d : Dev) (p : Wait → Bool) (f : Wait → Cpl) :
    ∀ w ∈ (d.endWaits p f).waits, w ∈ d.waits ∨ w.kind = .lost := by
  refine List.foldlRecOn (motive := fun e : Dev => ∀ w ∈ e.waits, w ∈ d.waits ∨ w.kind = .lost) _ _
    (fun w hw => .inl (List.mem_of_mem_filter hw)) fun e he x _ w hw => ?_
  unfold Dev.answerWait at hw
  split at hw
  · rcases List.mem_append.mp hw with hw | hw
    · exact he w hw
    · rw [List.mem_singleton.mp hw]
      exact .inr rfl
  · rw [deliver_frame] at hw
    exact he w hw

theorem portKept_endWaits (d : Dev) (p : Wait → Bool) (f : Wait → Cpl) : PortKept d (d.endWaits p f) := by
  have hwaits := endWaits_waits d p f
  have hview := endWaits_sansWaits d p f
  have hframe := endWaits_frame d p f
  generalize d.endWaits p f = e at hwaits hview hframe
  have hpwm : e.pwm = d.pwm := (congrArg Dev.pwm hview :)
  exact ⟨fun t i => (congrArg (fun x : Dev => (x.slot t i).core) hview :),
    fun i => (congrArg (fun x : Dev => (x.rail i).core) hview :),
    fun q => (congrArg (fun x : Dev => (x.phase q).core) hview :),
    by rw [hpwm], hwaits, by rw [hframe]⟩

@[simp] theorem phase_modPhase_self (d : Dev) (p : Nat) (f : Phase → Phase) : (d.modPhase p f).phase p = f (d.phase p) :=
  tget_tmod_self ..

theorem phase_modPhase_ne (d : Dev) {p q : Nat} (f : Phase → Phase) (h : q ≠ p) : (d.modPhase p f).phase q = d.phase q :=
  tget_tmod_ne _ _ _ h

theorem PortKept.modPhase (d : Dev) (p : Nat) (v : Option Int) : PortKept d (d.modPhase p fun x => { x with kind1 := v }) where
  slot _ _ := rfl
  rail _ := rfl
  phase q := by
    by_cases hq : q = p
    · rw [hq, phase_modPhase_self]
      rfl
    · rw [phase_modPhase_ne d _ hq]
  pwm := rfl
  waits _ := .inl
  frame := rfl

theorem PortKept.modRail (d : Dev) (i : Nat) {f : Rail → Rail} (hf : ∀ r : Rail, (f r).core = r.core) :
    PortKept d (d.modRail i f) where
  slot _ _ := rfl
  rail j := by
    by_cases hj : j = i
    · rw [hj, rail_modRail_self]
      exact hf _
    · rw [rail_modRail_ne d _ hj]
  phase _ := rfl
  pwm := rfl
  waits _ := .inl
  frame := rfl

theorem portKept_modChan (d : Dev) (c : Nat) (f : Chan → Chan) : PortKept d (d.modChan c f) := by
  unfold Dev.modChan
  split <;> exact ⟨fun _ _ => rfl, fun _ => rfl, fun _ => rfl, rfl, fun _ => .inl, rfl⟩

theorem portKept_portSet (l : Nat) (d : Dev) (k : Nat) : PortKept d (portSet l d k) := by
  unfold portSet
  dsimp only
  split
  · unfold phaseOut
    split
    · split
      · exact .modPhase ..
      · exact .refl d
    · exact .refl d
  · unfold demandOut
    split
    · exact .modRail d _ fun _ => rfl
    · exact .refl d
  · split
    · exact portKept_modChan ..
    · exact .refl d
  · exact .refl d

theorem portKept_portsSet (d : Dev) (l : Nat) : PortKept d (portsSet d l) := PortKept.foldl (portKept_portSet l) _ _

theorem foldl_setCoef_core (sp : List (Nat × Int)) (s : Slot) :
    (sp.foldl (fun s p => { s with bankA := setCoef s.bankA p.1 p.2, bankB := setCoef s.bankB p.1 p.2 }) s).core = s.core :=
  List.foldlRecOn sp _ (motive := fun t : Slot => t.core = s.core) rfl fun _ ht _ _ => ht

theorem portKept_applySetPoints (d : Dev) (l : Nat) : PortKept d (applySetPoints d l) := by
  unfold applySetPoints
  exact ((PortKept.modSlot d tLoop l (foldl_setCoef_core _ _)).trans (.modLoop ..)).trans (portKept_endWaits ..)

theorem portKept_swapLoop (d : Dev) (l : Nat) (run : BitVec 32) : PortKept d (swapLoop d l run) := by
  unfold swapLoop
  split
  · exact ((PortKept.modSlot d tLoop l rfl).trans (.modLoop ..)).trans (portKept_endWaits ..)
  · exact .refl d

theorem portKept_disableLoop (d : Dev) (l : Nat) : PortKept d (disableLoop d l) := by
  unfold disableLoop
  split
  · exact .refl d
  · exact (((((portKept_swapLoop ..).trans (portKept_applySetPoints ..)).trans (.modSlot _ tLoop l rfl)).trans
      (.dequeued _ (.user l))).trans (.modLoop ..)).trans (portKept_portsSet ..)

theorem portKept_disableRailLoops (d : Dev) (i : Nat) : PortKept d (disableRailLoops d i) :=
  PortKept.foldl portKept_disableLoop _ _

namespace PortKept
variable {d e : Dev} (h : PortKept d e)
include h

theorem cfg (t i : Nat) : (e.slot t i).cfg = (d.slot t i).cfg := (congrArg Slot.cfg (h.slot t i) :)

theorem live (t i : Nat) : e.live t i = d.live t i := (congrArg Slot.live (h.slot t i) :)

theorem handleOf (t i : Nat) : e.handleOf t i = d.handleOf t i := (congrArg (fun s => mkHandle t i s.gen) (h.slot t i) :)

theorem railW (i n : Nat) : e.railW i n = d.railW i n := (congrArg (word · n) (h.cfg tRail i) :)

theorem railPhases (i : Nat) : e.railPhases i = d.railPhases i := (congrArg rcPhases (h.cfg tRail i) :)

theorem railDsch (i : Nat) : e.railDsch i = d.railDsch i := by
  unfold Dev.railDsch
  rw [h.railW]

theorem railLoops (i : Nat) : e.railLoops i = d.railLoops i := by
  unfold Dev.railLoops
  rw [h.railW, h.railW]

theorem hasWait {k : WaitKind} {a : Word} (hk : k ≠ .lost) (hd : d.hasWait k a = false) : e.hasWait k a = false := by
  unfold Dev.hasWait at *
  rw [List.any_eq_false] at *
  intro w hw
  rcases h.waits w hw with hw | hlost
  · exact hd w hw
  · simp [hlost, Ne.symm hk]

end PortKept

/-! ### Which handles are disabled -/

/-- Every slot of `e` is in its state of `d`, or was not FENCED and is DISABLED. -/
def Halts (d e : Dev) : Prop :=
  ∀ t i, (e.slot t i).hstate = (d.slot t i).hstate ∨ (d.slot t i).hstate ≠ .fenced ∧ (e.slot t i).hstate = .disabled

theorem Halts.refl (d : Dev) : Halts d d := fun _ _ => .inl rfl

theorem Halts.of_same {d e : Dev} (h : ∀ t i, (e.slot t i).hstate = (d.slot t i).hstate) : Halts d e := fun t i => .inl (h t i)

theorem Halts.trans {d e f : Dev} (h : Halts d e) (h' : Halts e f) : Halts d f := by
  intro t i
  rcases h t i with h | ⟨hf, h⟩ <;> rcases h' t i with h' | ⟨hf', h'⟩
  · exact .inl (h'.trans h)
  · exact .inr ⟨h ▸ hf', h'⟩
  · exact .inr ⟨hf, h'.trans h⟩
  · exact .inr ⟨hf, h'⟩

theorem Halts.disabled {d e : Dev} (h : Halts d e) {t i : Nat} (hd : (d.slot t i).hstate = .disabled) :
    (e.slot t i).hstate = .disabled :=
  (h t i).elim (fun h => h.trans hd) fun h => h.2

theorem Halts.unfenced {d e : Dev} (h : Halts d e) {t i : Nat} (hd : (d.slot t i).hstate ≠ .fenced) :
    (e.slot t i).hstate ≠ .fenced := by
  rcases h t i with h | ⟨-, h⟩
  · rwa [h]
  · rw [h]
    decide

theorem portSet_slots (l : Nat) (d : Dev) (k : Nat) : (portSet l d k).slots = d.slots := by
  unfold portSet phaseOut demandOut
  dsimp only
  (repeat' split) <;> simp

theorem portsSet_slots (d : Dev) (l : Nat) : (portsSet d l).slots = d.slots :=
  foldl_keeps Dev.slots (portSet_slots l) _ _

/-- A change of one slot that keeps its state keeps every slot's. -/
theorem modSlot_hstate_of_same (d : Dev) {t i : Nat} {f : Slot → Slot} (hf : (f (d.slot t i)).hstate = (d.slot t i).hstate)
    (u j : Nat) : ((d.modSlot t i f).slot u j).hstate = (d.slot u j).hstate := by
  by_cases hk : slotKey u j = slotKey t i
  · simp only [Dev.slot, Dev.modSlot, hk, tget_tmod_self]
    exact hf
  · rw [slot_modSlot_ne d f hk]

theorem foldl_setCoef_hstate (sp : List (Nat × Int)) (s : Slot) :
    (sp.foldl (fun s p => { s with bankA := setCoef s.bankA p.1 p.2, bankB := setCoef s.bankB p.1 p.2 }) s).hstate = s.hstate :=
  List.foldlRecOn sp _ (motive := fun t : Slot => t.hstate = s.hstate) rfl fun _ ht _ _ => ht

theorem applySetPoints_hstate (d : Dev) (l t i : Nat) : ((applySetPoints d l).slot t i).hstate = (d.slot t i).hstate := by
  simp only [applySetPoints, endWaits_slot, Dev.modLoop_slot]
  exact modSlot_hstate_of_same d (foldl_setCoef_hstate _ _) t i

theorem swapLoop_hstate (d : Dev) (l : Nat) (run : BitVec 32) (t i : Nat) :
    ((swapLoop d l run).slot t i).hstate = (d.slot t i).hstate := by
  cases h : (d.slot tLoop l).swap with
  | false => rw [swapLoop_none run h]
  | true =>
    obtain ⟨p, f, hswap⟩ := swapLoop_swaps run h
    rw [hswap, endWaits_slot, Dev.modLoop_slot]
    exact modSlot_hstate_of_same d rfl t i

/-- A LOOP's disabling: its slot DISABLED unless FENCED, every other slot's state kept. -/
theorem disableLoop_slot (d : Dev) (l : Nat) (h : (d.slot tLoop l).hstate ≠ .fenced) (t i : Nat) :
    ((disableLoop d l).slot t i).hstate = if slotKey t i = slotKey tLoop l then .disabled else (d.slot t i).hstate := by
  unfold disableLoop
  rw [if_neg h]
  dsimp only
  generalize hm : applySetPoints (swapLoop d l ((d.loop l).runs + 1)) l = m
  have hstate : (m.slot t i).hstate = (d.slot t i).hstate := by rw [← hm, applySetPoints_hstate, swapLoop_hstate]
  simp only [Dev.slot, portsSet_slots] at *
  by_cases hk : slotKey t i = slotKey tLoop l
  · rw [if_pos hk]
    simp [Dev.modLoop, Dev.modSlot, hk]
  · rw [if_neg hk]
    simp only [Dev.modLoop, Dev.modSlot]
    rw [tget_tmod_ne _ _ _ hk]
    exact hstate

theorem halts_disableLoop (d : Dev) (l : Nat) : Halts d (disableLoop d l) := by
  by_cases h : (d.slot tLoop l).hstate = .fenced
  · rw [show disableLoop d l = d from if_pos h]
    exact .refl d
  · intro t i
    rw [disableLoop_slot d l h]
    by_cases hk : slotKey t i = slotKey tLoop l
    · rw [if_pos hk]
      exact .inr ⟨by simpa only [Dev.slot, hk] using h, rfl⟩
    · rw [if_neg hk]
      exact .inl rfl

theorem halts_disableLoops (ls : List Nat) (d : Dev) : Halts d (ls.foldl disableLoop d) :=
  List.foldlRecOn ls disableLoop (motive := Halts d) (.refl d) fun e he l _ => he.trans (halts_disableLoop e l)

/-- Each of a list of loops that is not FENCED ends DISABLED. -/
theorem disableLoops_disabled {ls : List Nat} {d : Dev} {l : Nat} (hl : l ∈ ls) (h : (d.slot tLoop l).hstate ≠ .fenced) :
    ((ls.foldl disableLoop d).slot tLoop l).hstate = .disabled := by
  induction ls generalizing d with
  | nil => exact absurd hl List.not_mem_nil
  | cons k ls ih =>
    rcases List.mem_cons.1 hl with rfl | hl
    · refine (halts_disableLoops ls (disableLoop d l)).disabled ?_
      rw [disableLoop_slot d l h, if_pos rfl]
    · exact ih hl ((halts_disableLoop d k).unfenced h)

/-! ### The rails that a LOOP does not drive -/

theorem portSet_rail {d : Dev} {l j : Nat} (h : l ∉ d.railLoops j) (k : Nat) : (portSet l d k).rail j = d.rail j := by
  unfold portSet phaseOut demandOut
  dsimp only
  split
  · (repeat' split) <;> rfl
  · split
    · next hx =>
      refine rail_modRail_ne d _ fun hj => ?_
      subst hj
      simp [h] at hx
    · rfl
  · split
    · simp [Dev.rail]
    · rfl
  · rfl

theorem portsSet_rail {d : Dev} {l j : Nat} (h : l ∉ d.railLoops j) : (portsSet d l).rail j = d.rail j := by
  refine (List.foldlRecOn (List.range 4) (portSet l)
    (motive := fun e : Dev => e.slots = d.slots ∧ e.rail j = d.rail j) ⟨rfl, rfl⟩ fun e he k _ => ?_).2
  obtain ⟨hslots, hrail⟩ := he
  have hloops : e.railLoops j = d.railLoops j := by
    unfold Dev.railLoops Dev.railW Dev.slot
    rw [hslots]
  exact ⟨(portSet_slots l e k).trans hslots, (portSet_rail (hloops ▸ h) k).trans hrail⟩

@[simp] theorem endWaits_pwm (d : Dev) (p : Wait → Bool) (f : Wait → Cpl) : (d.endWaits p f).pwm = d.pwm :=
  (congrArg Dev.pwm (endWaits_sansWaits d p f) :)

theorem applySetPoints_pwm (d : Dev) (l : Nat) : (applySetPoints d l).pwm = d.pwm := by
  simp [applySetPoints]

theorem swapLoop_pwm (d : Dev) (l : Nat) (run : BitVec 32) : (swapLoop d l run).pwm = d.pwm := by
  unfold swapLoop
  split
  · simp
  · rfl

theorem disableLoop_rail {d : Dev} {l j : Nat} (h : l ∉ d.railLoops j) : (disableLoop d l).rail j = d.rail j := by
  unfold disableLoop
  split
  · rfl
  · dsimp only
    have hkept := ((portKept_swapLoop d l ((d.loop l).runs + 1)).trans (portKept_applySetPoints _ l)).trans
      (.modSlot _ tLoop l (f := fun s => { s with hstate := .disabled }) rfl)
    have hpwm : (applySetPoints (swapLoop d l ((d.loop l).runs + 1)) l).pwm = d.pwm := by
      rw [applySetPoints_pwm, swapLoop_pwm]
    rw [portsSet_rail]
    · simp only [Dev.rail, Dev.modLoop_pwm, Dev.modSlot_pwm]
      rw [hpwm]
    · rw [← hkept.railLoops] at h
      exact h

theorem disableLoops_rail {ls : List Nat} {d : Dev} {j : Nat} (h : ∀ l ∈ ls, l ∉ d.railLoops j) :
    (ls.foldl disableLoop d).rail j = d.rail j := by
  refine (List.foldlRecOn ls disableLoop (motive := fun e : Dev => e.railLoops j = d.railLoops j ∧ e.rail j = d.rail j)
    ⟨rfl, rfl⟩ fun e he l hl => ?_).2
  obtain ⟨hloops, hrail⟩ := he
  exact ⟨((portKept_disableLoop e l).railLoops j).trans hloops, (disableLoop_rail (hloops ▸ h l hl)).trans hrail⟩

/-! ### Gates and the discharge switch -/

/-- A fold of one idempotent change over phases reaches exactly those listed. -/
theorem modPhases_phase {f : Phase → Phase} (hf : ∀ x, f (f x) = f x) (l : List Nat) (d : Dev) (q : Nat) :
    (l.foldl (fun d p => d.modPhase p f) d).phase q = if q ∈ l then f (d.phase q) else d.phase q := by
  induction l generalizing d with
  | nil => rfl
  | cons p l ih =>
    rw [List.foldl_cons, ih]
    by_cases hq : q = p
    · subst hq
      rw [phase_modPhase_self]
      by_cases hm : q ∈ l <;> simp [hm, hf]
    · rw [phase_modPhase_ne d f hq]
      simp [hq]

/-- A phase as `gatesLow` leaves it. -/
def Phase.low (x : Phase) : Phase :=
  if x.state = .fenced then x else { x with state := .off, periods := 0, adding := false, duty := 0, onTime := 0, edges := none }

theorem gatesLow_phase (d : Dev) (i q : Nat) :
    (gatesLow d i).phase q = if q ∈ d.railPhases i then (d.phase q).low else d.phase q := by
  refine modPhases_phase (f := Phase.low) (fun x => ?_) _ _ _
  unfold Phase.low
  split <;> simp_all

theorem gatesLow_frame (d : Dev) (i : Nat) : gatesLow d i = { d with pwm := { d.pwm with phases := (gatesLow d i).pwm.phases } } :=
  List.foldlRecOn (motive := fun e : Dev => e = { d with pwm := { d.pwm with phases := e.pwm.phases } }) (d.railPhases i) _ rfl
    fun e he p _ => by
      rw [he]
      rfl

theorem recordTick_frame (d : Dev) : ∃ t n, d.recordTick = (t, { d with fresh := n }) := by
  unfold Dev.recordTick
  split
  · exact ⟨_, d.fresh, rfl⟩
  · exact ⟨_, _, rfl⟩

/-- A record written changes the Kiln's copies of its rail, and the free choices where no tick is given. -/
theorem writeRailRecord_frame (d : Dev) (i cause pos : Nat) (before : RailRun) :
    ∃ k n, writeRailRecord d i cause pos before = { d with kiln := { d.kiln with rails := k }, fresh := n } ∧
      (tget ({} : Copies) k i).count = satAdd 8 (tget ({} : Copies) d.kiln.rails i).count 1 := by
  unfold writeRailRecord
  split
  · exact ⟨_, d.fresh, rfl, by simp⟩
  · obtain ⟨t, n, htick⟩ := recordTick_frame d
    rw [htick]
    exact ⟨_, n, rfl, by simp [Copies.write]⟩

theorem mem_isortInsert {α : Type} {lt : α → α → Bool} {x y : α} {l : List α} :
    y ∈ isort.isortInsert lt x l ↔ y = x ∨ y ∈ l := by
  induction l with
  | nil => simp [isort.isortInsert]
  | cons z l ih =>
    unfold isort.isortInsert
    split
    · simp only [List.mem_cons, ih]
      tauto
    · simp

theorem mem_isort {α : Type} {lt : α → α → Bool} {y : α} {l : List α} : y ∈ isort lt l ↔ y ∈ l := by
  induction l with
  | nil => simp [isort]
  | cons x l ih => rw [isort, mem_isortInsert, ih, List.mem_cons]

@[simp] theorem mem_sortNat {n : Nat} {l : List Nat} : n ∈ sortNat l ↔ n ∈ l := mem_isort

/-- The discharge switch turned on: the rail's mark and its switch, and nothing else. -/
theorem dischargeOn_kept (d : Dev) (i : Nat) :
    (∃ b, ((dischargeOn d i).rail i) = { d.rail i with discharge := b }) ∧
    (∀ j, j ≠ i → (dischargeOn d i).rail j = d.rail j) ∧ (dischargeOn d i).pwm.phases = d.pwm.phases ∧
    (∀ n, d.railDsch i = some n → n ∈ (dischargeOn d i).pwm.discharge ∧ ((dischargeOn d i).rail i).discharge = true) ∧
    dischargeOn d i = { d with pwm := (dischargeOn d i).pwm } := by
  unfold dischargeOn
  cases hn : d.railDsch i with
  | none => exact ⟨⟨_, rfl⟩, fun _ _ => rfl, rfl, fun _ h => absurd h (by simp), rfl⟩
  | some n =>
    refine ⟨⟨true, (rail_modRail_self d i (fun r => { r with discharge := true }) :)⟩, fun j hj => (rail_modRail_ne d (fun r => { r with discharge := true }) hj :), rfl, ?_, rfl⟩
    rintro m hm
    obtain rfl : n = m := by simpa using hm
    refine ⟨?_, (congrArg Rail.discharge (rail_modRail_self d i fun r => { r with discharge := true }) :)⟩
    dsimp only
    split
    · next h => simpa using h
    · simp

theorem dischargeOff_kept (d : Dev) (i : Nat) :
    (∃ b, ((dischargeOff d i).rail i) = { d.rail i with discharge := b }) ∧
    (∀ j, j ≠ i → (dischargeOff d i).rail j = d.rail j) ∧ (dischargeOff d i).pwm.phases = d.pwm.phases ∧
    (∀ n, d.railDsch i = some n → n ∉ (dischargeOff d i).pwm.discharge) ∧
    dischargeOff d i = { d with pwm := (dischargeOff d i).pwm } := by
  unfold dischargeOff
  cases hn : d.railDsch i with
  | none => exact ⟨⟨_, rfl⟩, fun _ _ => rfl, rfl, fun _ h => absurd h (by simp), rfl⟩
  | some n =>
    refine ⟨⟨false, (rail_modRail_self d i (fun r => { r with discharge := false }) :)⟩, fun j hj => (rail_modRail_ne d (fun r => { r with discharge := false }) hj :), rfl, ?_, rfl⟩
    rintro m hm
    obtain rfl : n = m := by simpa using hm
    simp

/-! ### The entry to FAULTED -/

/-- Power-good deasserted changes the rail's mark, and what a raised event changes. -/
theorem railPgOff_kept (d : Dev) (i : Nat) :
    (railPgOff d i).rail i = { d.rail i with pg := false } ∧ (∀ j, j ≠ i → (railPgOff d i).rail j = d.rail j) ∧
      railPgOff d i = { d with
        pwm := { d.pwm with rails := (railPgOff d i).pwm.rails }, host := (railPgOff d i).host
        tal := (railPgOff d i).tal, sag := (railPgOff d i).sag } := by
  unfold railPgOff
  split
  · rw [raise_frame]
    exact ⟨rail_modRail_self d i _, fun j hj => rail_modRail_ne d _ hj, rfl⟩
  · next h =>
    have hpg : (d.rail i).pg = false := by simpa using h
    refine ⟨?_, fun _ _ => rfl, rfl⟩
    rw [← hpg]

@[simp] theorem endWaits_rail (d : Dev) (p : Wait → Bool) (f : Wait → Cpl) (i : Nat) : (d.endWaits p f).rail i = d.rail i := by
  simp [Dev.rail]

@[simp] theorem endWaits_phase (d : Dev) (p : Wait → Bool) (f : Wait → Cpl) (q : Nat) : (d.endWaits p f).phase q = d.phase q := by
  simp [Dev.phase]

@[simp] theorem endWaits_kiln (d : Dev) (p : Wait → Bool) (f : Wait → Cpl) : (d.endWaits p f).kiln = d.kiln :=
  (congrArg Dev.kiln (endWaits_sansWaits d p f) :)

@[simp] theorem raise_rail (d : Dev) (code detail : Nat) (h : Word) (i : Nat) : (d.raise code detail h).rail i = d.rail i := by
  simp [Dev.rail]

/-- A rail as it enters FAULTED. -/
def Rail.faulted (r : Rail) : Rail := { r with run := .faulted, surge := none, ramping := false, preLeft := 0, limited := false }

/-- The rail faulted, once its gates are low and its loops disabled: switch on, power-good off, FAULTED, the event, and its
commands answered. -/
def faultEntered (d : Dev) (i cause : Nat) : Dev :=
  let d := railPgOff (dischargeOn d i) i
  let d := d.modRail i Rail.faulted
  let d := d.raise 0x0402 cause (d.railHandle i)
  let d := d.endKind .enable (d.railHandle i) .state
  d.endWaits (fun w => w.handle == d.railHandle i && (match w.kind with | .setPoint _ => true | _ => false))
    fun w => plainCpl .aborted w.handle 0

/-- The rail's gates low and its loops disabled, once its record is written. -/
def faultStopped (d : Dev) (i cause pos : Nat) : Dev :=
  disableRailLoops (gatesLow (writeRailRecord d i cause pos (d.rail i).run) i) i

theorem railFault_idle {d : Dev} {i : Nat} (h : (d.rail i).run.running = false) (cause pos : Nat) : railFault d i cause pos = d :=
  if_neg (by rw [h]; decide)

theorem railFault_running {d : Dev} {i : Nat} (h : (d.rail i).run.running = true) (cause pos : Nat) :
    railFault d i cause pos = faultEntered (faultStopped d i cause pos) i cause :=
  if_pos h

/-- What the entry to FAULTED does to the rails, the phases, the switches and the Kiln. -/
theorem faultEntered_kept (d : Dev) (i cause : Nat) :
    let e := faultEntered d i cause
    (∃ b, e.rail i = ({ d.rail i with discharge := b, pg := false } : Rail).faulted) ∧ (∀ j, j ≠ i → e.rail j = d.rail j) ∧
      e.pwm.phases = d.pwm.phases ∧ e.slots = d.slots ∧ e.kiln = d.kiln ∧
      (∀ n, d.railDsch i = some n → n ∈ e.pwm.discharge ∧ (e.rail i).discharge = true) := by
  obtain ⟨⟨b, hon⟩, honNe, honPh, honSw, honFrame⟩ := dischargeOn_kept d i
  obtain ⟨hpg, hpgNe, hpgFrame⟩ := railPgOff_kept (dischargeOn d i) i
  unfold faultEntered
  dsimp only [Dev.endKind]
  generalize railPgOff (dischargeOn d i) i = m at hpg hpgNe hpgFrame ⊢
  have hrail : (m.modRail i Rail.faulted).rail i = ({ d.rail i with discharge := b, pg := false } : Rail).faulted := by
    rw [rail_modRail_self, hpg, hon]
  simp only [endWaits_rail, raise_rail, endWaits_pwm, endWaits_slots, endWaits_kiln, Dev.raise_pwm, Dev.raise_slots,
    Dev.raise_kiln, hrail]
  refine ⟨⟨b, rfl⟩, fun j hj => ?_, ?_, ?_, ?_, fun n hn => ?_⟩
  · rw [rail_modRail_ne m _ hj, hpgNe j hj, honNe j hj]
  · exact (congrArg (·.pwm.phases) hpgFrame :).trans honPh
  · exact (congrArg Dev.slots hpgFrame :).trans (congrArg Dev.slots honFrame :)
  · exact (congrArg Dev.kiln hpgFrame :).trans (congrArg Dev.kiln honFrame :)
  · obtain ⟨hsw, hmark⟩ := honSw n hn
    refine ⟨(congrArg (·.pwm.discharge) hpgFrame : m.pwm.discharge = _) ▸ hsw, ?_⟩
    rw [hon] at hmark
    exact hmark

/-- What has stopped before the entry to FAULTED: every phase low but for its KIND 1 value, every loop disabled, the record
written. -/
theorem faultStopped_kept (d : Dev) (i cause pos : Nat) :
    let e := faultStopped d i cause pos
    (∀ p, (e.phase p).core = (if p ∈ d.railPhases i then (d.phase p).low else d.phase p).core) ∧
      (∀ j, (e.rail j).core = (d.rail j).core) ∧ (∀ j, (∀ l ∈ d.railLoops i, l ∉ d.railLoops j) → e.rail j = d.rail j) ∧
      (∀ l ∈ d.railLoops i, (d.slot tLoop l).hstate ≠ .fenced → (e.slot tLoop l).hstate = .disabled) ∧
      e.railDsch i = d.railDsch i ∧ (tget {} e.kiln.rails i).count = satAdd 8 (tget {} d.kiln.rails i).count 1 := by
  obtain ⟨k, n, hrec, hcount⟩ := writeRailRecord_frame d i cause pos (d.rail i).run
  have hlow := gatesLow_frame (writeRailRecord d i cause pos (d.rail i).run) i
  have hphase := gatesLow_phase (writeRailRecord d i cause pos (d.rail i).run) i
  have hkept := portKept_disableRailLoops (gatesLow (writeRailRecord d i cause pos (d.rail i).run) i) i
  unfold faultStopped
  rw [hrec] at hlow hphase hkept ⊢
  generalize gatesLow _ i = g at hlow hphase hkept ⊢
  have hslots : g.slots = d.slots := (congrArg Dev.slots hlow :)
  have hrails : g.pwm.rails = d.pwm.rails := (congrArg (·.pwm.rails) hlow :)
  have hgloops (j : Nat) : g.railLoops j = d.railLoops j := by
    unfold Dev.railLoops Dev.railW Dev.slot
    rw [hslots]
  have hgrail (j : Nat) : g.rail j = d.rail j := by
    unfold Dev.rail
    rw [hrails]
  refine ⟨fun p => ?_, fun j => ?_, fun j hj => ?_, fun l hl hf => ?_, ?_, ?_⟩
  · exact (hkept.phase p).trans (congrArg Phase.core (hphase p))
  · exact (hkept.rail j).trans (congrArg Rail.core (hgrail j))
  · unfold disableRailLoops
    rw [disableLoops_rail, hgrail]
    simpa only [hgloops] using hj
  · unfold disableRailLoops
    rw [hgloops]
    refine disableLoops_disabled hl ?_
    unfold Dev.slot
    rw [hslots]
    exact hf
  · rw [hkept.railDsch]
    unfold Dev.railDsch Dev.railW Dev.slot
    rw [hslots]
  · rw [hkept.frame]
    exact (congrArg (fun x : Dev => (tget ({} : Copies) x.kiln.rails i).count) hlow :).trans hcount

/-! ### The end of a stop -/

/-- A rail as the end of its stop leaves it. -/
def Rail.stopped (r : Rail) : Rail :=
  { r with run := .off, ramping := false, surge := none, ref := 0, light := false, dem := false }

theorem railOff_eq (d : Dev) (i : Nat) :
    railOff d i = elementOff ((disableRailLoops (dischargeOff (gatesLow d i) i) i).modRail i Rail.stopped) tRail i 0 := rfl

/-- Without a forced DESTROY waiting an element that is off is DISABLED, unless FENCED, and nothing else of the drivers
changes. -/
theorem elementOff_kept (d : Dev) (t i result : Nat) (h : d.hasWait .destroyForce (d.handleOf t i) = false) :
    (elementOff d t i result).pwm = d.pwm ∧
      ∀ u j, ((elementOff d t i result).slot u j).hstate =
        if slotKey u j = slotKey t i ∧ (d.slot t i).hstate ≠ .fenced then .disabled else (d.slot u j).hstate := by
  unfold elementOff
  dsimp only
  generalize hm : (d.modSlot t i fun s => if s.hstate = .fenced then s else { s with hstate := .disabled }) = m
  have hkeep : PortKept d (m.endWaits (fun w => w.kind == WaitKind.disable && w.handle == d.handleOf t i)
      fun w => plainCpl .ok w.handle result) := by
    refine PortKept.trans ?_ (portKept_endWaits ..)
    rw [← hm]
    refine .modSlot d t i ?_
    split <;> rfl
  rw [if_neg (by rw [hkeep.hasWait (by decide) h]; decide)]
  refine ⟨by rw [endWaits_pwm, ← hm]; rfl, fun u j => ?_⟩
  rw [endWaits_slot, ← hm]
  by_cases hk : slotKey u j = slotKey t i
  · simp only [Dev.slot, Dev.modSlot, hk, tget_tmod_self, true_and]
    split <;> simp_all
  · rw [slot_modSlot_ne d _ hk, if_neg fun h => hk h.1]

theorem railOff_kept {d : Dev} {i : Nat} (h : d.hasWait .destroyForce (d.railHandle i) = false) :
    let e := railOff d i
    (e.rail i).run = .off ∧ (e.rail i).ref = 0 ∧ (∀ n, d.railDsch i = some n → n ∉ e.pwm.discharge) ∧
      (∀ l ∈ d.railLoops i, (d.slot tLoop l).hstate ≠ .fenced → (e.slot tLoop l).hstate = .disabled) ∧
      ((d.slot tRail i).hstate ≠ .fenced → (e.slot tRail i).hstate = .disabled) := by
  have hlow := gatesLow_frame d i
  obtain ⟨-, -, -, hoffSw, hoffFrame⟩ := dischargeOff_kept (gatesLow d i) i
  rw [railOff_eq]
  have hgslots : (dischargeOff (gatesLow d i) i).slots = d.slots :=
    (congrArg Dev.slots hoffFrame :).trans (congrArg Dev.slots hlow :)
  have hgwaits : (dischargeOff (gatesLow d i) i).waits = d.waits :=
    (congrArg Dev.waits hoffFrame :).trans (congrArg Dev.waits hlow :)
  have hdsch : (gatesLow d i).railDsch i = d.railDsch i := (congrArg (·.railDsch i) hlow :)
  rw [hdsch] at hoffSw
  generalize dischargeOff (gatesLow d i) i = g at hgslots hgwaits hoffSw ⊢
  have hkept := portKept_disableRailLoops g i
  have hloops : g.railLoops i = d.railLoops i := by
    unfold Dev.railLoops Dev.railW Dev.slot
    rw [hgslots]
  have hstate (u j : Nat) : (g.slot u j).hstate = (d.slot u j).hstate := by
    unfold Dev.slot
    rw [hgslots]
  have hdisabled (l : Nat) (hl : l ∈ d.railLoops i) (hf : (d.slot tLoop l).hstate ≠ .fenced) :
      ((disableRailLoops g i).slot tLoop l).hstate = .disabled := by
    unfold disableRailLoops
    rw [hloops]
    exact disableLoops_disabled hl (by rw [hstate]; exact hf)
  have hhalts : Halts g (disableRailLoops g i) := halts_disableLoops _ _
  have hwait : (disableRailLoops g i).hasWait .destroyForce (d.railHandle i) = false := by
    refine hkept.hasWait (by decide) ?_
    unfold Dev.hasWait at h ⊢
    rw [hgwaits]
    exact h
  have hhandle : (disableRailLoops g i).handleOf tRail i = d.railHandle i := by
    rw [hkept.handleOf]
    unfold Dev.railHandle Dev.handleOf Dev.slot
    rw [hgslots]
  generalize disableRailLoops g i = m at hkept hdisabled hhalts hwait hhandle ⊢
  have hmslots : (m.modRail i Rail.stopped).slots = m.slots := rfl
  obtain ⟨hpwm, hslot⟩ := elementOff_kept (m.modRail i Rail.stopped) tRail i 0 (by
    rw [show (m.modRail i Rail.stopped).handleOf tRail i = d.railHandle i from hhandle]
    exact hwait)
  have hrail : (elementOff (m.modRail i Rail.stopped) tRail i 0).rail i = (m.rail i).stopped := by
    unfold Dev.rail at *
    rw [hpwm]
    exact rail_modRail_self m i _
  refine ⟨by rw [hrail]; rfl, by rw [hrail]; rfl, fun n hn => ?_, fun l hl hf => ?_, fun hf => ?_⟩
  · rw [hpwm]
    have hdis : m.pwm.discharge = g.pwm.discharge := by rw [hkept.pwm]
    exact hdis ▸ hoffSw n hn
  · rw [hslot]
    split
    · rfl
    · exact hdisabled l hl hf
  · rw [hslot, if_pos]
    exact ⟨rfl, hhalts.unfenced (by rw [hstate]; exact hf)⟩

/-- A phase that is low but for its KIND 1 value. -/
theorem low_of_core {x y : Phase} (h : y.core = x.low.core) (hx : x.state ≠ .fenced) :
    y.state = .off ∧ y.duty = 0 ∧ y.onTime = 0 ∧ y.edges = none := by
  unfold Phase.low at h
  rw [if_neg hx] at h
  exact ⟨(congrArg Phase.state h :), (congrArg Phase.duty h :), (congrArg Phase.onTime h :), (congrArg Phase.edges h :)⟩

/-- Phases of one core differ in their KIND 1 value alone. -/
theorem eq_of_core {x y : Phase} (h : y.core = x.core) : y = { x with kind1 := y.kind1 } := by
  have hy : y = { y.core with kind1 := y.kind1 } := rfl
  rw [h] at hy
  exact hy

theorem railFault_kept {d : Dev} {i : Nat} (hrun : (d.rail i).run.running = true) (cause pos : Nat) :
    let e := railFault d i cause pos
    (e.rail i).run = .faulted ∧ (e.rail i).pg = false ∧ (e.rail i).surge = none ∧ (e.rail i).ramping = false ∧
    (∀ p ∈ d.railPhases i, (d.phase p).state ≠ .fenced →
      (e.phase p).state = .off ∧ (e.phase p).duty = 0 ∧ (e.phase p).onTime = 0 ∧ (e.phase p).edges = none) ∧
    (∀ p ∈ d.railPhases i, (d.phase p).state = .fenced → ∃ v, e.phase p = { d.phase p with kind1 := v }) ∧
    (∀ n, d.railDsch i = some n → n ∈ e.pwm.discharge ∧ (e.rail i).discharge = true) ∧
    (∀ l ∈ d.railLoops i, (d.slot tLoop l).hstate ≠ .fenced → (e.slot tLoop l).hstate = .disabled) ∧
    (tget {} e.kiln.rails i).count = satAdd 8 (tget {} d.kiln.rails i).count 1 ∧
    (∀ j, j ≠ i → (∀ l ∈ d.railLoops i, l ∉ d.railLoops j) → e.rail j = d.rail j) := by
  obtain ⟨hphase, -, hrails, hloops, hdsch, hcount⟩ := faultStopped_kept d i cause pos
  rw [railFault_running hrun]
  generalize faultStopped d i cause pos = m at hphase hrails hloops hdsch hcount ⊢
  obtain ⟨⟨b, hrail⟩, hne, hph, hslots, hkiln, hsw⟩ := faultEntered_kept m i cause
  rw [hdsch] at hsw
  dsimp only
  generalize faultEntered m i cause = e at hrail hne hph hslots hkiln hsw ⊢
  have hephase (p : Nat) : e.phase p = m.phase p := by
    unfold Dev.phase
    rw [hph]
  refine ⟨by rw [hrail]; rfl, by rw [hrail]; rfl, by rw [hrail]; rfl, by rw [hrail]; rfl, fun p hp hf => ?_, fun p hp hf => ?_, hsw,
    fun l hl hf => ?_, by rw [hkiln, hcount], fun j hj hl => (hne j hj).trans (hrails j hl)⟩
  · have hcore := hphase p
    rw [if_pos hp, ← hephase] at hcore
    exact low_of_core hcore hf
  · have hcore := hphase p
    rw [if_pos hp, ← hephase, Phase.low, if_pos hf] at hcore
    exact ⟨_, eq_of_core hcore⟩
  · unfold Dev.slot
    rw [hslots]
    exact hloops l hl hf

/-! ### Power-good, the bounds and the switches -/

section
variable {d : Dev} {i : Nat}

theorem railPgConfirm_starts (hw : inPgWindow d i = true) (h : (d.rail i).run = .starting) (hp : (d.rail i).preLeft = 0)
    (hr : (d.rail i).ramping = false) :
    railPgConfirm i d = ((d.modRail i fun r => { r with run := .on, pg := true, dem := false, prebiased := false }).raise 0x0401 1
      (d.railHandle i)).endKind .enable (d.railHandle i) .ok := by
  have hgo : railPgConfirm i d =
      let e := (d.modRail i fun r => { r with run := .on, pg := true, dem := false, prebiased := false }).raise 0x0401 1
        (d.railHandle i)
      e.endKind .enable (e.railHandle i) .ok :=
    (if_neg (by rw [hw]; decide)).trans (if_pos ⟨h, hp, hr⟩)
  rw [hgo]
  dsimp only
  have hh : ((d.modRail i fun r => { r with run := .on, pg := true, dem := false, prebiased := false }).raise 0x0401 1
      (d.railHandle i)).railHandle i = d.railHandle i := by
    simp [Dev.railHandle, Dev.handleOf, Dev.slot]
  rw [hh]

theorem railPgConfirm_again (hw : inPgWindow d i = true) (h : (d.rail i).run = .on) (hp : (d.rail i).pg = false) :
    railPgConfirm i d = (d.modRail i fun r => { r with pg := true }).raise 0x0401 1 (d.railHandle i) :=
  (if_neg (by rw [hw]; decide)).trans ((if_neg (by rw [h]; rintro ⟨h, -⟩; exact absurd h (by decide))).trans (if_pos ⟨h, hp⟩))

theorem railPgConfirm_outside (hw : inPgWindow d i = false) : railPgConfirm i d = d := if_pos (by rw [hw]; rfl)

/-- Neither a start that waits for power-good nor an ON rail without it: nothing happens. -/
theorem railPgConfirm_nothing (hs : ¬((d.rail i).run = .starting ∧ (d.rail i).preLeft = 0 ∧ (d.rail i).ramping = false))
    (ho : ¬((d.rail i).run = .on ∧ (d.rail i).pg = false)) : railPgConfirm i d = d := by
  cases hw : inPgWindow d i with
  | false => exact railPgConfirm_outside hw
  | true => exact (if_neg (by rw [hw]; decide)).trans ((if_neg hs).trans (if_neg ho))

/-- The rail past its fall time, before the command that waits is answered (R183). -/
def stopLate (d : Dev) (i : Nat) : Dev :=
  let d := d.raise 0x0406 (roundOpen (d.railVout i) 10).toNat (d.railHandle i)
  let d := writeRailRecord d i 0x0009 0xFF .stopping
  (dischargeOn (gatesLow d i) i).modRail i fun r => { r with fallExpired := true, ramping := false }

theorem railStopLate_due (h : (d.rail i).run = .stopping) (hf : (d.rail i).fallExpired = false) :
    railStopLate i d =
      let e := stopLate d i
      let e := e.modSlot tRail i fun s =>
        if s.hstate = .enabled ∧ e.hasWait .disable (e.railHandle i) then { s with hstate := .disabled } else s
      e.endKind .disable (e.railHandle i) .ok := by
  refine (if_pos ⟨h, hf⟩).trans ?_
  rw [h]
  rfl

theorem railStopLate_nothing (h : (d.rail i).run ≠ .stopping ∨ (d.rail i).fallExpired = true) : railStopLate i d = d :=
  if_neg (by
    rintro ⟨hr, hf⟩
    rcases h with h | h
    · exact h hr
    · rw [h] at hf
      exact absurd hf (by decide))

/-- What the end of the fall time changes of the drivers; the slots and the waiting commands stand. -/
theorem stopLate_kept (d : Dev) (i : Nat) :
    let e := stopLate d i
    (e.rail i).fallExpired = true ∧ (e.rail i).run = (d.rail i).run ∧ (e.rail i).ramping = false ∧
      (∀ p ∈ d.railPhases i, e.phase p = (d.phase p).low) ∧
      (∀ n, d.railDsch i = some n → n ∈ e.pwm.discharge ∧ (e.rail i).discharge = true) ∧ e.slots = d.slots ∧
      e.waits = d.waits := by
  unfold stopLate
  dsimp only
  generalize hr : d.raise 0x0406 (roundOpen (d.railVout i) 10).toNat (d.railHandle i) = r
  obtain ⟨k, n, hrec, -⟩ := writeRailRecord_frame r i 0x0009 0xFF .stopping
  rw [hrec]
  have hlow := gatesLow_frame { r with kiln := { r.kiln with rails := k }, fresh := n } i
  have hphase := gatesLow_phase { r with kiln := { r.kiln with rails := k }, fresh := n } i
  generalize gatesLow _ i = g at hlow hphase ⊢
  have hgslots : g.slots = d.slots := by rw [hlow, ← hr]; exact Dev.raise_slots ..
  have hgwaits : g.waits = d.waits := by rw [hlow, ← hr]; exact Dev.raise_waits ..
  have hgrail : g.rail i = d.rail i := by
    rw [hlow, ← hr]
    exact raise_rail ..
  have hdsch : g.railDsch i = d.railDsch i := by
    unfold Dev.railDsch Dev.railW Dev.slot
    rw [hgslots]
  obtain ⟨⟨b, hon⟩, -, honPh, honSw, honFrame⟩ := dischargeOn_kept g i
  rw [rail_modRail_self]
  refine ⟨rfl, ?_, rfl, fun p hp => ?_, fun m hm => ?_, (congrArg Dev.slots honFrame :).trans hgslots,
    (congrArg Dev.waits honFrame :).trans hgwaits⟩
  · rw [hon, hgrail]
  · have hp' : p ∈ ({ r with kiln := { r.kiln with rails := k }, fresh := n } : Dev).railPhases i := by
      have : r.railPhases i = d.railPhases i := by rw [← hr]; simp [Dev.railPhases, Dev.slot]
      exact this ▸ hp
    have hrp : r.phase p = d.phase p := by rw [← hr]; simp [Dev.phase]
    have hg : (dischargeOn g i).phase p = g.phase p := by
      unfold Dev.phase
      rw [honPh]
    refine hg.trans ?_
    rw [hphase, if_pos hp']
    exact congrArg Phase.low hrp
  · rw [← hdsch] at hm
    exact honSw m hm
end

/-- A discharge switch that has turned itself off: out of the set, and unmarked at every rail that has it. -/
theorem thermalOff_discharge (n : Nat) (d : Dev) :
    let e := thermalOff false n d
    n ∉ e.pwm.discharge ∧ (∀ m, m ≠ n → (m ∈ e.pwm.discharge ↔ m ∈ d.pwm.discharge)) ∧
      ∀ i ∈ d.liveIndices tRail, d.railDsch i = some n → (e.rail i).discharge = false := by
  have hfold : ∀ (l : List Nat) (e : Dev), e.slots = d.slots →
      let r := l.foldl (fun d i => if d.railDsch i = some n then d.modRail i fun r => { r with discharge := false } else d) e
      r.slots = d.slots ∧ r.pwm.discharge = e.pwm.discharge ∧
        ∀ i, d.railDsch i = some n → i ∈ l ∨ (e.rail i).discharge = false → (r.rail i).discharge = false := by
    intro l
    induction l with
    | nil => exact fun e he => ⟨he, rfl, fun i _ h => h.elim (fun h => absurd h List.not_mem_nil) id⟩
    | cons k l ih =>
      intro e he
      have hdsch (i : Nat) : e.railDsch i = d.railDsch i := by
        unfold Dev.railDsch Dev.railW Dev.slot
        rw [he]
      rw [List.foldl_cons]
      by_cases hk : e.railDsch k = some n
      · rw [if_pos hk]
        obtain ⟨hs, hdis, hoff⟩ := ih (e.modRail k fun r => { r with discharge := false }) he
        refine ⟨hs, hdis, fun i hi h => hoff i hi ?_⟩
        by_cases hik : i = k
        · subst hik
          exact .inr (by rw [rail_modRail_self])
        · rw [rail_modRail_ne e _ hik]
          exact h.imp_left fun h => (List.mem_cons.1 h).resolve_left hik
      · rw [if_neg hk]
        obtain ⟨hs, hdis, hoff⟩ := ih e he
        refine ⟨hs, hdis, fun i hi h => hoff i hi (h.imp_left fun h => (List.mem_cons.1 h).resolve_left ?_)⟩
        rintro rfl
        exact hk ((hdsch i).trans hi)
  obtain ⟨-, hdis, hoff⟩ := hfold (d.liveIndices tRail) d rfl
  unfold thermalOff
  rw [if_neg (by decide)]
  dsimp only
  refine ⟨by simp, fun m hm => ?_, fun i hi hd => hoff i hd (.inl hi)⟩
  rw [hdis]
  simp [hm]

theorem phaseOcp_iff {d : Dev} {i pos : Nat} :
    phaseOcp d i pos = true ↔ (d.rail i).surge = none ∧ pos < (d.railPhases i).length ∧
      max 1 (d.railB i 3 16 16) ≤ (d.phase ((d.railPhases i).getD pos 0)).peaks := by
  simp only [phaseOcp, Bool.and_eq_true, decide_eq_true_eq, Option.isNone_iff_eq_none, and_assoc]

section
variable {d : Dev} {i : Nat}

theorem railOffReached_stopping (h : (d.rail i).run = .stopping) : railOffReached i d = railOff d i := by
  simp only [railOffReached, h]

theorem railOffReached_discharges (h : (d.rail i).run = .faulted ∨ (d.rail i).run ≠ .stopping ∧ (d.rail i).discharge = true) :
    railOffReached i d = dischargeOff d i := by
  rcases h with h | ⟨hr, hd⟩
  · simp only [railOffReached, h]
  · cases hrun : (d.rail i).run <;> simp_all [railOffReached]

theorem railOffReached_nothing (hs : (d.rail i).run ≠ .stopping) (hf : (d.rail i).run ≠ .faulted)
    (hd : (d.rail i).discharge = false) : railOffReached i d = d := by
  cases hrun : (d.rail i).run <;> simp_all [railOffReached]
end

theorem answers_railStopLate (s : State) {i : Nat} (tick : Nat) (hi : i < 24) :
    Answers (.railStopLate i tick) s (s.dev.atTick tick fun d => settle (railStopLate i d)) := onDevAt_lt s _ hi

/-- The fall time has passed: what waits for the stop is answered, and the rail's handle with it (R183). -/
theorem railStopLate_kept (d : Dev) (i : Nat) (h : (d.rail i).run = .stopping) (hf : (d.rail i).fallExpired = false) :
    let e := railStopLate i d
    (e.rail i).fallExpired = true ∧ (e.rail i).run = .stopping ∧ (e.rail i).ramping = false ∧
      (∀ p ∈ d.railPhases i, (d.phase p).state ≠ .fenced → (e.phase p).state = .off ∧ (e.phase p).onTime = 0) ∧
      (∀ n, d.railDsch i = some n → n ∈ e.pwm.discharge ∧ (e.rail i).discharge = true) ∧
      ((d.slot tRail i).hstate = .enabled → d.hasWait .disable (d.railHandle i) = true → (e.slot tRail i).hstate = .disabled) ∧
      ((d.slot tRail i).hstate = .enabled → d.hasWait .disable (d.railHandle i) = false → (e.slot tRail i).hstate = .enabled) := by
  obtain ⟨hfall, hrun, hramp, hphase, hsw, hslots, hwaits⟩ := stopLate_kept d i
  rw [railStopLate_due h hf]
  dsimp only
  generalize stopLate d i = m at hfall hrun hramp hphase hsw hslots hwaits ⊢
  have hwait : m.hasWait .disable (m.railHandle i) = d.hasWait .disable (d.railHandle i) := by
    unfold Dev.hasWait Dev.railHandle Dev.handleOf Dev.slot
    rw [hslots, hwaits]
  have hslot : m.slot tRail i = d.slot tRail i := by
    unfold Dev.slot
    rw [hslots]
  rw [hwait]
  simp only [Dev.endKind, endWaits_rail, endWaits_phase, endWaits_pwm, endWaits_slot, Dev.modSlot_pwm, slot_modSlot_self, hslot]
  refine ⟨hfall, hrun.trans h, hramp, fun p hp hs => ?_, hsw, fun he hw => ?_, fun he hw => ?_⟩
  · have hlow := low_of_core (congrArg Phase.core (hphase p hp)) hs
    exact ⟨hlow.1, hlow.2.2.1⟩
  · rw [if_pos ⟨he, hw⟩]
  · rw [if_neg (by simp [hw])]
    exact he

theorem atTick_settle_railStopLate {d : Dev} {i : Nat} (tick : Nat)
    (h : (d.rail i).run ≠ .stopping ∨ (d.rail i).fallExpired = true) :
    (d.atTick tick fun d => settle (railStopLate i d)) = d.atTick tick settle := by
  have hsame : railStopLate i { d with tickNow := some (tick % 65536) } = { d with tickNow := some (tick % 65536) } :=
    railStopLate_nothing h
  simp only [Dev.atTick, hsame]

/-- Settles O46, from the rules of a rail's fault, its stop and its power-good. -/
theorem railRuns : Obligations.RailRuns := by
  unfold Obligations.RailRuns
  refine ⟨?_, fun d i cause pos h => railFault_idle h cause pos, fun d i cause pos h => railFault_kept h cause pos,
    fun d i => railOff_kept, fun s n hn => .congr (onDevAt_lt s _ hn) (if_pos hn),
    fun s n hn => ⟨_, onDevAt_lt s _ hn, thermalOff_discharge n s.dev⟩⟩
  intro s i tick hi r h nothing
  refine ⟨?_, ?_, ?_, ?_, ?_, ?_, ?_, ?_, ?_, ?_, ?_, ?_, ?_, ?_, ?_, ?_, ?_⟩
  · exact fun hw hr hp hm => .congr (onDevAt_lt s _ hi) (railPgConfirm_starts hw hr hp hm)
  · exact fun hw hr hp => .congr (onDevAt_lt s _ hi) (railPgConfirm_again hw hr hp)
  · exact fun hr hp => .congr (onDevAt_lt s _ hi) (railPgConfirm_nothing (fun h => absurd (hr.symm.trans h.1) (by decide))
      fun h => absurd (hp.symm.trans h.2) (by decide))
  · refine fun hr h => .congr (onDevAt_lt s _ hi) (railPgConfirm_nothing ?_ fun h => hr h.1)
    rintro ⟨hs, hp, hm⟩
    rcases h with h | h | h
    · exact h hs
    · exact h hp
    · exact absurd (hm.symm.trans h) (by decide)
  · exact fun hw => .congr (onDevAt_lt s _ hi) (railPgConfirm_outside hw)
  · exact fun hr => .congr (onDevAt_lt s _ hi) (congrArg (fun d : Dev => { d with tickNow := none }) (if_pos hr))
  · exact fun hr => .congr (onDevAt_lt s _ hi) (congrArg (fun d : Dev => { d with tickNow := none }) (if_neg hr))
  · exact onDevAt_lt s _ hi
  · exact fun hr hv => .congr (onDevAt_lt s _ hi) (congrArg (fun d : Dev => { d with tickNow := none })
      (if_pos (Bool.and_eq_true_iff.2 ⟨beq_iff_eq.2 hr, decide_eq_true hv⟩)))
  · refine fun hv => .congr (onDevAt_lt s _ hi) (congrArg (fun d : Dev => { d with tickNow := none }) (if_neg fun hu => ?_))
    obtain ⟨hr, hlt⟩ := Bool.and_eq_true_iff.1 hu
    exact hv.elim (fun h => h (beq_iff_eq.1 hr)) fun h => absurd (of_decide_eq_true hlt) (not_lt.2 h)
  · intro pos hpos full
    refine ⟨fun hsurge hfull => .congr (onDevAt_lt s _ hi) (congrArg (fun d : Dev => { d with tickNow := none })
      (if_pos (phaseOcp_iff.2 ⟨hsurge, hpos, hfull⟩))), fun h => ?_⟩
    refine .congr (onDevAt_lt s _ hi) (congrArg (fun d : Dev => { d with tickNow := none }) (if_neg fun ho => ?_))
    obtain ⟨hsurge, -, hfull⟩ := phaseOcp_iff.1 ho
    exact h.elim (fun h => h hsurge) fun h => h hfull
  · refine fun pos hpos => .congr (onDevAt_lt s _ hi) (congrArg (fun d : Dev => { d with tickNow := none }) (if_neg fun ho => ?_))
    exact absurd (phaseOcp_iff.1 ho).2.1 (not_lt.2 hpos)
  · exact fun hr => .congr (onDevAt_lt s _ hi) (congrArg settle (railOffReached_stopping hr))
  · exact fun hr => .congr (onDevAt_lt s _ hi) (congrArg settle (railOffReached_discharges hr))
  · exact fun hr hf hd => .congr (onDevAt_lt s _ hi) (congrArg settle (railOffReached_nothing hr hf hd))
  · exact fun hr => .congr (answers_railStopLate s tick hi) (atTick_settle_railStopLate tick hr)
  · exact fun hr hf => ⟨railStopLate i { s.dev with tickNow := some (tick % 65536) },
      .congr (answers_railStopLate s tick hi) (by simp only [Dev.atTick]),
      railStopLate_kept { s.dev with tickNow := some (tick % 65536) } i hr hf⟩
end Sys2Proof.Machine

end

/-! ## Phases (spec 06) -/

section
/-! PROOF. Carrier periods, shedding, Surge and phase failures (R150 to R155, R163, R168 to R174, R185 to R188). -/

namespace Sys2Proof.Machine

/-! ### A phase enters a state -/

@[simp] theorem raiseOnceTurn_phase (d : Dev) (key code detail : Nat) (h : Word) (p : Nat) :
    (d.raiseOnceTurn key code detail h).phase p = d.phase p := by
  rw [raiseOnceTurn_frame]
  rfl

section
variable {d : Dev} {i p at_ : Nat} {st : PhaseState}

theorem enterPhase_bootLow (h : (d.phase p).bootLow = true) :
    (enterPhase d i p st at_).phase p = { d.phase p with
      state := .refresh, periods := 0, adding := false, duty := 0, onTime := 0, edges := none, entered := at_ } := by
  unfold enterPhase
  rw [if_pos h, raiseOnceTurn_phase, phase_modPhase_self]
  rfl

theorem enterPhase_firing (h : (d.phase p).bootLow = false) :
    (enterPhase d i p .firing at_).phase p = { d.phase p with
      state := .firing, periods := 0, adding := false, duty := 0, edges := none, entered := at_
      onTime := if (d.rail i).surge = some true then 0 else rcPeriod (d.slot tRail i).cfg } := by
  unfold enterPhase
  rw [if_neg (by rw [h]; decide), if_pos rfl, phase_modPhase_self]

theorem enterPhase_active (h : (d.phase p).bootLow = false) :
    (enterPhase d i p .active at_).phase p = { d.phase p with
      state := .active, periods := 0, adding := false, duty := 0, onTime := 0, edges := none } := by
  unfold enterPhase
  rw [if_neg (by rw [h]; decide), if_neg (by decide), phase_modPhase_self]

theorem enterPhase_phase_ne {q : Nat} (h : q ≠ p) : (enterPhase d i p st at_).phase q = d.phase q := by
  unfold enterPhase
  split
  · rw [raiseOnceTurn_phase, phase_modPhase_ne _ _ h]
    rfl
  · split <;> rw [phase_modPhase_ne _ _ h]

/-- The entry of a phase changes the phases alone of the drivers, and no slot. -/
theorem enterPhase_kept :
    (enterPhase d i p st at_).pwm = { d.pwm with phases := (enterPhase d i p st at_).pwm.phases } ∧
      (enterPhase d i p st at_).slots = d.slots := by
  unfold enterPhase
  split
  · rw [raiseOnceTurn_frame]
    exact ⟨rfl, rfl⟩
  · split <;> exact ⟨rfl, rfl⟩

theorem enterPhase_rail (j : Nat) : (enterPhase d i p st at_).rail j = d.rail j := by
  unfold Dev.rail
  rw [enterPhase_kept.1]

theorem enterPhase_railPhases (j : Nat) : (enterPhase d i p st at_).railPhases j = d.railPhases j := by
  unfold Dev.railPhases Dev.slot
  rw [enterPhase_kept.2]
end

/-- The state in which a phase with these marks enters ACTIVE (R169). -/
theorem enterPhase_active_state (d : Dev) (i p at_ : Nat) :
    ((enterPhase d i p .active at_).phase p).state = if (d.phase p).bootLow then .refresh else .active := by
  cases h : (d.phase p).bootLow with
  | true => rw [enterPhase_bootLow h]; rfl
  | false => rw [enterPhase_active h]; rfl

/-! ### Shedding and adding -/

/-- A rail without the hold of its shedding. -/
def Rail.unheld (r : Rail) : Rail := { r with shedHold := false }

/-- Phases are added out of SHED alone, and no rail or slot changes. -/
theorem addPhases_kept (d : Dev) (i n : Nat) :
    (addPhases d i n).slots = d.slots ∧ (addPhases d i n).pwm.rails = d.pwm.rails ∧
      ∀ q, (d.phase q).state ≠ .shed → (addPhases d i n).phase q = d.phase q := by
  refine List.foldlRecOn ((d.positions i fun p => p.state == .shed && !p.adding).take n) _
    (motive := fun e : Dev => e.slots = d.slots ∧ e.pwm.rails = d.pwm.rails ∧
      ∀ q, (d.phase q).state ≠ .shed → e.phase q = d.phase q) ⟨rfl, rfl, fun _ _ => rfl⟩ fun e he k hk => ?_
  obtain ⟨hslots, hrails, hphase⟩ := he
  have hshed : (d.phase ((d.railPhases i).getD k 0)).state = .shed := by
    have := (List.mem_filter.1 (List.mem_of_mem_take hk)).2
    simp only [Bool.and_eq_true, beq_iff_eq] at this
    exact this.1
  have hph : e.railPhases i = d.railPhases i := by
    unfold Dev.railPhases Dev.slot
    rw [hslots]
  refine ⟨hslots, hrails, fun q hq => ?_⟩
  have hne : q ≠ (e.railPhases i).getD k 0 := by
    rintro rfl
    rw [hph] at hq
    exact hq hshed
  exact (phase_modPhase_ne e _ hne).trans (hphase q hq)

/-- `e` has the rails of `d` but for their holds, its slots, and its phases that are not SHED. -/
structure AddsOnly (d e : Dev) : Prop where
  slots : e.slots = d.slots
  rail : ∀ j, (e.rail j).unheld = (d.rail j).unheld
  phase : ∀ q, (d.phase q).state ≠ .shed → e.phase q = d.phase q

theorem AddsOnly.refl (d : Dev) : AddsOnly d d := ⟨rfl, fun _ => rfl, fun _ _ => rfl⟩

theorem addsOnly_held (d : Dev) (i n : Nat) : AddsOnly d ((addPhases d i n).modRail i fun r => { r with shedHold := true }) := by
  obtain ⟨hslots, hrails, hphase⟩ := addPhases_kept d i n
  refine ⟨hslots, fun j => ?_, hphase⟩
  have hrail (j : Nat) : (addPhases d i n).rail j = d.rail j := by
    unfold Dev.rail
    rw [hrails]
  by_cases hj : j = i
  · rw [hj, rail_modRail_self, hrail]
    rfl
  · rw [rail_modRail_ne _ _ hj, hrail]

/-- Without shedding, a rail that does not stop adds phases and takes a hold, or stands. -/
theorem addsOnly_shedAdd {d : Dev} {i : Nat} (h : (d.rail i).run ≠ .stopping) : AddsOnly d (shedAdd d i false) := by
  unfold shedAdd
  dsimp only
  split
  · split
    · exact addsOnly_held ..
    · simp only [Bool.false_and, Bool.false_eq_true, if_false]
      exact .refl d
  · rw [if_neg (by simp [h])]
    exact .refl d

/-- The rails' holds apart, what sheds and adds changes phases alone. -/
theorem shedAdd_rail (d : Dev) (i : Nat) (mayShed : Bool) (j : Nat) :
    ((shedAdd d i mayShed).rail j).unheld = (d.rail j).unheld := by
  have hone : (shedOne d i).pwm.rails = d.pwm.rails := by
    unfold shedOne
    split <;> rfl
  have honeRail (j : Nat) : (shedOne d i).rail j = d.rail j := by
    unfold Dev.rail
    rw [hone]
  unfold shedAdd
  dsimp only
  split
  · split
    · exact (addsOnly_held ..).rail j
    · split
      · by_cases hj : j = i
        · rw [hj, rail_modRail_self, honeRail]
          rfl
        · rw [rail_modRail_ne _ _ hj, honeRail]
      · rfl
  · split
    · rw [honeRail]
    · rfl

/-! ### The end of a firing -/

/-- A Surge's end once no phase fires: the loop preloaded, phases added (R172). -/
def surgeEnded (d : Dev) (i pos : Nat) : Dev :=
  let d := d.modRail i fun r => { r with surge := none, surgeEnd := some (0, pos) }
  shedAdd (preloadLoop d (d.selectedLoop i) (preloadValue d i (d.rail i).vset (d.railIsum i))) i false

theorem phaseFireEnd_eq (d : Dev) (i p pos : Nat) :
    phaseFireEnd d i p pos =
      if (enterPhase d i p .active 0).railFiring i then enterPhase d i p .active 0
      else surgeEnded (enterPhase d i p .active 0) i pos := rfl

theorem preloadLoop_kept (d : Dev) (l : Nat) (v : Int) :
    (preloadLoop d l v).slots = d.slots ∧ (preloadLoop d l v).pwm = d.pwm := by
  unfold preloadLoop
  split <;> exact ⟨rfl, rfl⟩

theorem surgeEnded_rail (d : Dev) (i pos : Nat) :
    ((surgeEnded d i pos).rail i).surge = none ∧ ((surgeEnded d i pos).rail i).surgeEnd = some (0, pos) := by
  unfold surgeEnded
  dsimp only
  generalize hm : (d.modRail i fun r => { r with surge := none, surgeEnd := some (0, pos) }) = m
  have hrail : m.rail i = { d.rail i with surge := none, surgeEnd := some (0, pos) } := by rw [← hm, rail_modRail_self]
  have hview := shedAdd_rail (preloadLoop m (m.selectedLoop i) (preloadValue m i (m.rail i).vset (m.railIsum i))) i false i
  have hpre : (preloadLoop m (m.selectedLoop i) (preloadValue m i (m.rail i).vset (m.railIsum i))).rail i = m.rail i := by
    unfold Dev.rail
    rw [(preloadLoop_kept ..).2]
  generalize (shedAdd _ i false).rail i = r at hview ⊢
  rw [hpre, hrail] at hview
  exact ⟨(congrArg Rail.surge hview :), (congrArg Rail.surgeEnd hview :)⟩

theorem surgeEnded_phase {d : Dev} {i pos q : Nat} (hrun : (d.rail i).run ≠ .stopping) (hq : (d.phase q).state ≠ .shed) :
    (surgeEnded d i pos).phase q = d.phase q := by
  unfold surgeEnded
  dsimp only
  generalize hm : (d.modRail i fun r => { r with surge := none, surgeEnd := some (0, pos) }) = m
  have hrail : m.rail i = { d.rail i with surge := none, surgeEnd := some (0, pos) } := by rw [← hm, rail_modRail_self]
  have hphase : m.phase q = d.phase q := by rw [← hm]; rfl
  have hpre := (preloadLoop_kept m (m.selectedLoop i) (preloadValue m i (m.rail i).vset (m.railIsum i))).2
  generalize preloadLoop m (m.selectedLoop i) (preloadValue m i (m.rail i).vset (m.railIsum i)) = r at hpre ⊢
  have hrp : r.phase q = d.phase q := by
    unfold Dev.phase
    rw [hpre]
    exact hphase
  have hrr : (r.rail i).run = (d.rail i).run := by
    unfold Dev.rail at hrail ⊢
    rw [hpre, hrail]
  exact ((addsOnly_shedAdd (by rw [hrr]; exact hrun)).phase q (by rw [hrp]; exact hq)).trans hrp

/-- A phase whose firing ends is ACTIVE, or refreshes first (R169, R172). -/
theorem phaseFireEnd_state {d : Dev} {i p pos : Nat} (hrun : (d.rail i).run ≠ .stopping) :
    ((phaseFireEnd d i p pos).phase p).state = if (d.phase p).bootLow then .refresh else .active := by
  have hstate := enterPhase_active_state d i p 0
  rw [phaseFireEnd_eq]
  split
  · exact hstate
  · rw [surgeEnded_phase (by rw [enterPhase_rail]; exact hrun)]
    · exact hstate
    · rw [hstate]
      split <;> decide

/-! ### A carrier start -/

/-- A phase at its carrier start, before what its state waits for comes. -/
def Dev.ticked (d : Dev) (p : Nat) : Dev := d.modPhase p fun x => { x with periods := x.periods + 1 }

@[simp] theorem ticked_phase (d : Dev) (p : Nat) : (d.ticked p).phase p = { d.phase p with periods := (d.phase p).periods + 1 } :=
  phase_modPhase_self ..

section
variable {d : Dev} {i p : Nat}

theorem phaseStep_quiet (h : (d.phase p).state = .active ∨ (d.phase p).state = .shedding ∨ (d.phase p).state = .off ∨
    (d.phase p).state = .fenced) : phaseStep d i p = d.ticked p := by
  have hs : ((d.ticked p).phase p).state = (d.phase p).state := by rw [ticked_phase]
  unfold phaseStep
  rw [show (d.modPhase p fun x => { x with periods := x.periods + 1 }) = d.ticked p from rfl]
  dsimp only
  rw [hs]
  rcases h with h | h | h | h <;> rw [h]

theorem phaseStep_refresh (h : (d.phase p).state = .refresh) (hs : (d.rail i).surge = none) :
    phaseStep d i p = enterPhase (d.ticked p) i p .active 0 := by
  have hst : ((d.ticked p).phase p).state = .refresh := by rw [ticked_phase]; exact h
  have hsurge : ((d.ticked p).rail i).surge.isNone = true := by
    rw [show (d.ticked p).rail i = d.rail i from rfl, hs]
    rfl
  unfold phaseStep
  rw [show (d.modPhase p fun x => { x with periods := x.periods + 1 }) = d.ticked p from rfl]
  simp only [hst, hsurge, if_true]

theorem phaseStep_refresh_surge (h : (d.phase p).state = .refresh) (hs : (d.rail i).surge ≠ none) :
    phaseStep d i p =
      if ((d.ticked p).phase p).lasted 1 0 then enterPhase (d.ticked p) i p .firing 0 else d.ticked p := by
  have hst : ((d.ticked p).phase p).state = .refresh := by rw [ticked_phase]; exact h
  have hsurge : ((d.ticked p).rail i).surge.isNone = false := by
    rw [show (d.ticked p).rail i = d.rail i from rfl]
    simpa [Option.isSome_iff_ne_none] using hs
  unfold phaseStep
  rw [show (d.modPhase p fun x => { x with periods := x.periods + 1 }) = d.ticked p from rfl]
  simp only [hst, hsurge, Bool.false_eq_true, if_false]

theorem phaseStep_shed (h : (d.phase p).state = .shed) (ha : (d.phase p).adding = true) :
    phaseStep d i p = enterPhase (d.ticked p) i p .active 0 := by
  have hst : ((d.ticked p).phase p).state = .shed := by rw [ticked_phase]; exact h
  have hadd : ((d.ticked p).phase p).adding = true := by rw [ticked_phase]; exact ha
  unfold phaseStep
  rw [show (d.modPhase p fun x => { x with periods := x.periods + 1 }) = d.ticked p from rfl]
  simp only [hst, hadd, if_true]

theorem phaseStep_firing (h : (d.phase p).state = .firing) :
    phaseStep d i p = if ((d.ticked p).phase p).lasted 2 0 then phaseFireEnd (d.ticked p) i p ((d.ticked p).phase p).place
      else d.ticked p := by
  have hst : ((d.ticked p).phase p).state = .firing := by rw [ticked_phase]; exact h
  unfold phaseStep
  rw [show (d.modPhase p fun x => { x with periods := x.periods + 1 }) = d.ticked p from rfl]
  simp only [hst]
end

/-- A carrier placed, and its phase loaded. -/
def Dev.placed (d : Dev) (i p place : Nat) : Dev := phaseLoad (d.modPhase p fun x => { x with place := place }) i p

theorem placed_state (d : Dev) (i p place : Nat) : ((d.placed i p place).phase p).state = (d.phase p).state := by
  unfold Dev.placed phaseLoad
  split
  · rw [phase_modPhase_self, phase_modPhase_self]
  · rw [phase_modPhase_self]

/-- A phase that does not switch takes its place alone. -/
theorem placed_unloaded {d : Dev} {i p place : Nat} (h : (d.phase p).state ≠ .active) (h' : (d.phase p).state ≠ .shedding) :
    (d.placed i p place).phase p = { d.phase p with place := place } := by
  unfold Dev.placed phaseLoad
  rw [if_neg (by rw [phase_modPhase_self]; exact fun hx => hx.elim h h'), phase_modPhase_self]

/-- A phase that switches loads its duty and edges. -/
theorem placed_loaded {d : Dev} {i p place : Nat} (h : (d.phase p).state = .active ∨ (d.phase p).state = .shedding) :
    let m := d.modPhase p fun x => { x with place := place }
    d.placed i p place = m.modPhase p fun x =>
      { x with duty := phaseDuty m i p, onTime := onTimeOf m i p (phaseDuty m i p)
               edges := gateEdges m i (onTimeOf m i p (phaseDuty m i p)) } :=
  if_pos (by rw [phase_modPhase_self]; exact h)

/-- The rail of a carrier, once the comparators' marks of the ended period are taken, and at position 0 its period has
passed. -/
def carrierBegun (d : Dev) (i p : Nat) (iMax iMin : Int) : Dev :=
  let k := (d.railPhases i).idxOf p
  let w := phaseWatch ((d.tally 43 0 1).tally 43 2 (b2n ((d.phase p).state == .firing))) i k p iMax iMin
  if k = 0 then railPeriod w i else w

section
variable {d : Dev} {i p : Nat} {iMax iMin : Int}

theorem carrierStart_unowned (h : (d.phase p).owner = none) : carrierStart p iMax iMin d = d := by
  simp only [carrierStart, h]

/-- CARRIER_START of a rail's phase, from the device that its marks leave. -/
theorem carrierStart_owned (h : (d.phase p).owner = some (slotKey tRail i)) (hi : i < 24) :
    carrierStart p iMax iMin d =
      let e := carrierBegun d i p iMax iMin
      if loopLost e i then railFault (e.modRail i fun r => { r with demandDefaulted := true }) i 0x0007 0xFF
      else if (e.rail i).run.running = false ∨ e.pwm.vdrvLow = true then e
      else (phaseStep e i p).placed i p (nextPlace (phaseStep e i p) i ((d.railPhases i).idxOf p)
        (match (e.phase p).state with | .off => true | .refresh => true | .shed => true | _ => false)) := by
  have hk : slotKey tRail i % 4096 = i := by unfold slotKey; omega
  unfold carrierStart
  rw [h]
  dsimp only
  rw [hk]
  rfl

variable {k : Nat} {joins : Bool}

/-- A phase in its place and its count of periods apart, a carrier's next place is the same. -/
theorem nextPlace_ticked : nextPlace (d.ticked p) i k joins = nextPlace d i k joins := by
  have hphase (q : Nat) : ((d.ticked p).phase q).place = (d.phase q).place ∧ ((d.ticked p).phase q).state = (d.phase q).state := by
    by_cases hq : q = p
    · rw [hq, ticked_phase]
      exact ⟨rfl, rfl⟩
    · unfold Dev.ticked
      rw [phase_modPhase_ne d _ hq]
      exact ⟨rfl, rfl⟩
  have hslot : (d.ticked p).slot tRail i = d.slot tRail i := rfl
  have hphases : (d.ticked p).railPhases i = d.railPhases i := rfl
  have hpos : (d.ticked p).positions i (fun x => x.state.isActive) = d.positions i fun x => x.state.isActive := by
    simp only [Dev.positions, hphase, hphases]
  unfold nextPlace
  dsimp only
  rw [hslot, hphases, hpos, (hphase _).1]

/-- Whether a start finds its carrier's phase not switching. -/
def PhaseState.parked : PhaseState → Bool
  | .off => true | .refresh => true | .shed => true | _ => false

/-- The duty of a phase before the reduction of shedding (R163). -/
def rawDuty (r : Rail) (x : Phase) : Int :=
  let duty := min (max (match x.kind1 with | some v => v | none => r.demand + x.trim / 65536) 0) r.dmaxEff
  match r.openLoop with
  | some (k, n) => duty * (n - min k n : Nat) / max 1 n
  | none => duty

theorem phaseDuty_eq (d : Dev) (i p : Nat) :
    phaseDuty d i p = if (d.phase p).state = .shedding then
      rawDuty (d.rail i) (d.phase p) * (4 - (min 4 (d.phase p).periods : Nat)) / 4 else rawDuty (d.rail i) (d.phase p) := rfl

theorem rawDuty_congr (r : Rail) {x y : Phase} (hk : x.kind1 = y.kind1) (ht : x.trim = y.trim) : rawDuty r x = rawDuty r y := by
  unfold rawDuty
  rw [hk, ht]

theorem onTimeOf_congr {e : Dev} (duty : Int) (hs : e.slot tRail i = d.slot tRail i) (hr : e.rail i = d.rail i)
    (hb : (e.phase p).bootLow = (d.phase p).bootLow) : onTimeOf e i p duty = onTimeOf d i p duty := by
  unfold onTimeOf
  rw [hs, hr, hb]

theorem gateEdges_congr {e : Dev} (t : Nat) (hs : e.slot tRail i = d.slot tRail i) : gateEdges e i t = gateEdges d i t := by
  unfold gateEdges Dev.railEdge Dev.railW
  rw [hs]

/-- An ACTIVE phase at its carrier start: one more period, its next place, and the duty word loaded. -/
theorem placed_ticked_active (place : Nat) (h : (d.phase p).state = .active) :
    (d.ticked p).placed i p place = { d with pwm := ((d.ticked p).placed i p place).pwm } ∧
      ((d.ticked p).placed i p place).phase p = { d.phase p with
        periods := (d.phase p).periods + 1, place := place, duty := phaseDuty d i p, onTime := onTimeOf d i p (phaseDuty d i p)
        edges := gateEdges d i (onTimeOf d i p (phaseDuty d i p)) } := by
  have hact : ((d.ticked p).phase p).state = .active := by rw [ticked_phase]; exact h
  rw [placed_loaded (.inl hact)]
  refine ⟨rfl, ?_⟩
  rw [phase_modPhase_self, phase_modPhase_self]
  generalize hm : ((d.ticked p).modPhase p fun x => { x with place := place }) = m
  have hmx : m.phase p = { d.phase p with periods := (d.phase p).periods + 1, place := place } := by
    rw [← hm, phase_modPhase_self, ticked_phase]
  have hms : m.slot tRail i = d.slot tRail i := by rw [← hm]; rfl
  have hmr : m.rail i = d.rail i := by rw [← hm]; rfl
  have hduty : phaseDuty m i p = phaseDuty d i p := by
    rw [phaseDuty_eq, phaseDuty_eq, hmx, hmr, if_neg (by rw [h]; decide), if_neg (by rw [h]; decide)]
    exact rawDuty_congr _ rfl rfl
  rw [hduty, onTimeOf_congr _ hms hmr (by rw [hmx]), gateEdges_congr _ hms, ticked_phase]

/-- A SHEDDING phase at its carrier start: one more period, and a duty reduced by it (R168). -/
theorem placed_ticked_shedding (place : Nat) (h : (d.phase p).state = .shedding) :
    let e := (d.ticked p).placed i p place
    (e.phase p).state = .shedding ∧ (e.phase p).periods = (d.phase p).periods + 1 ∧
      (e.phase p).duty = phaseDuty (d.modPhase p fun x => { x with state := .active }) i p
        * (4 - (min 4 ((d.phase p).periods + 1) : Nat)) / 4 := by
  have hshed : ((d.ticked p).phase p).state = .shedding := by rw [ticked_phase]; exact h
  dsimp only
  rw [placed_loaded (.inr hshed), phase_modPhase_self, phase_modPhase_self]
  generalize hm : ((d.ticked p).modPhase p fun x => { x with place := place }) = m
  have hmx : m.phase p = { d.phase p with periods := (d.phase p).periods + 1, place := place } := by
    rw [← hm, phase_modPhase_self, ticked_phase]
  have hmr : m.rail i = d.rail i := by rw [← hm]; rfl
  refine ⟨hshed, by rw [ticked_phase], ?_⟩
  rw [phaseDuty_eq, phaseDuty_eq, hmx, hmr, if_pos h, phase_modPhase_self,
    if_neg (show ¬PhaseState.active = .shedding by decide)]
  rfl

theorem lasted_iff {x : Phase} {n own : Nat} : x.lasted n own = true ↔ n < x.periods ∨ x.periods = n ∧ x.entered ≤ own := by
  simp [Phase.lasted]

/-- What a carrier start of a running rail leaves of its phase, from each state in which it finds it (Table 6.6). -/
theorem carrier_phase (k : Nat) :
    let x := d.phase p
    let e := (phaseStep d i p).placed i p (nextPlace (phaseStep d i p) i k x.state.parked)
    (x.state = .active → e = { d with pwm := e.pwm } ∧ e.phase p = { x with
      periods := x.periods + 1, place := nextPlace d i k false
      duty := phaseDuty d i p, onTime := onTimeOf d i p (phaseDuty d i p)
      edges := gateEdges d i (onTimeOf d i p (phaseDuty d i p)) }) ∧
    (x.state = .shedding → (e.phase p).state = .shedding ∧ (e.phase p).periods = x.periods + 1 ∧
      (e.phase p).duty = phaseDuty (d.modPhase p fun x => { x with state := .active }) i p
        * (4 - (min 4 (x.periods + 1) : Nat)) / 4) ∧
    (x.state = .refresh → (d.rail i).surge = none → x.bootLow = false → (e.phase p).state = .active) ∧
    (x.state = .refresh → (d.rail i).surge ≠ none → x.periods = 0 → 0 < x.entered → (e.phase p).state = .refresh) ∧
    (x.state = .refresh → (d.rail i).surge ≠ none → 0 < x.periods ∨ x.entered = 0 → x.bootLow = false →
      (e.phase p).state = .firing ∧ (e.phase p).duty = 0) ∧
    (x.bootLow = true → (x.state = .refresh ∨ x.state = .shed ∧ x.adding = true) →
      (e.phase p).state = .refresh ∧ (e.phase p).onTime = (if x.state = .shed then 0 else (e.phase p).onTime)) ∧
    (x.state = .shed → x.adding = true → x.bootLow = false → (e.phase p).state = .active) ∧
    (x.state = .firing → x.periods + 1 < 2 ∨ (x.periods + 1 = 2 ∧ 0 < x.entered) → (e.phase p).state = .firing) ∧
    (x.state = .firing → 2 < x.periods + 1 ∨ (x.periods + 1 = 2 ∧ x.entered = 0) → x.bootLow = false →
      (d.rail i).run ≠ .stopping → (e.phase p).state = .active) ∧
    (x.state = .off ∨ x.state = .fenced → (e.phase p).state = x.state ∧
      (e.phase p).duty = x.duty ∧ (e.phase p).onTime = x.onTime ∧ (e.phase p).edges = x.edges) := by
  intro x e
  have hstate : (e.phase p).state = ((phaseStep d i p).phase p).state := placed_state ..
  have hboot : ((d.ticked p).phase p).bootLow = x.bootLow := by rw [ticked_phase]
  have hperiods : ((d.ticked p).phase p).periods = x.periods + 1 := by rw [ticked_phase]
  have hentered : ((d.ticked p).phase p).entered = x.entered := by rw [ticked_phase]
  have hactive : ((enterPhase (d.ticked p) i p .active 0).phase p).state = if x.bootLow then .refresh else .active := by
    rw [enterPhase_active_state, hboot]
  refine ⟨fun h => ?_, fun h => ?_, fun h hs hb => ?_, fun h hs hp he => ?_, fun h hs hpe hb => ?_, fun hb h => ?_,
    fun h ha hb => ?_, fun h hpe => ?_, fun h hpe hb hr => ?_, fun h => ?_⟩
  · have he : e = (d.ticked p).placed i p (nextPlace d i k false) := by
      simp only [e, x, phaseStep_quiet (.inl h), nextPlace_ticked, h, PhaseState.parked]
    rw [he]
    exact placed_ticked_active _ h
  · have he : e = (d.ticked p).placed i p (nextPlace d i k false) := by
      simp only [e, x, phaseStep_quiet (.inr (.inl h)), nextPlace_ticked, h, PhaseState.parked]
    rw [he]
    exact placed_ticked_shedding _ h
  · rw [hstate, phaseStep_refresh h hs, hactive, hb]
    rfl
  · rw [hstate, phaseStep_refresh_surge h hs, if_neg, ticked_phase]
    · exact h
    · rw [lasted_iff, hperiods, hentered]
      omega
  · have hstep : phaseStep d i p = enterPhase (d.ticked p) i p .firing 0 := by
      rw [phaseStep_refresh_surge h hs, if_pos]
      rw [lasted_iff, hperiods, hentered]
      omega
    have hfire := enterPhase_firing (i := i) (at_ := 0) (hboot.trans hb)
    have hnot : ((phaseStep d i p).phase p).state = .firing := by rw [hstep, hfire]
    refine ⟨hstate.trans hnot, ?_⟩
    rw [show e.phase p = _ from placed_unloaded (by rw [hnot]; decide) (by rw [hnot]; decide), hstep, hfire]
  · rcases h with h | ⟨h, ha⟩
    · rw [if_neg (by rw [h]; decide)]
      refine ⟨?_, rfl⟩
      rw [hstate]
      by_cases hs : (d.rail i).surge = none
      · rw [phaseStep_refresh h hs, hactive, hb]
        rfl
      · rw [phaseStep_refresh_surge h hs]
        split
        · rw [enterPhase_bootLow (hboot.trans hb)]
        · rw [ticked_phase]
          exact h
    · have hlow := enterPhase_bootLow (i := i) (st := .active) (at_ := 0) (hboot.trans hb)
      rw [← phaseStep_shed h ha] at hlow
      have hnot : ((phaseStep d i p).phase p).state = .refresh := by rw [hlow]
      refine ⟨hstate.trans hnot, ?_⟩
      rw [if_pos h, show e.phase p = _ from placed_unloaded (by rw [hnot]; decide) (by rw [hnot]; decide), hlow]
  · rw [hstate, phaseStep_shed h ha, hactive, hb]
    rfl
  · rw [hstate, phaseStep_firing h, if_neg, ticked_phase]
    · exact h
    · rw [lasted_iff, hperiods, hentered]
      omega
  · rw [hstate, phaseStep_firing h, if_pos]
    · rw [phaseFireEnd_state (d := d.ticked p) hr, hboot, hb]
      rfl
    · rw [lasted_iff, hperiods, hentered]
      omega
  · have hq : phaseStep d i p = d.ticked p := phaseStep_quiet (.inr (.inr h))
    have hst : ((d.ticked p).phase p).state = x.state := by rw [ticked_phase]
    rw [hstate, hq, hst, show e.phase p = _ from placed_unloaded (by rw [hq, hst]; rcases h with h | h <;> rw [h] <;> decide)
      (by rw [hq, hst]; rcases h with h | h <;> rw [h] <;> decide), hq, ticked_phase]
    exact ⟨rfl, rfl, rfl, rfl⟩
end

/-! ### The comparators and the rail's period -/

/-- What the comparators and samples of the ended period mark (R171, R177, R181, R184 to R186). -/
theorem phaseWatch_marks (d : Dev) (i k p : Nat) (iMax iMin : Int) :
    let x := d.phase p
    let y := (phaseWatch d i k p iMax iMin).phase p
    let peak := x.onTime ≠ 0 ∧ (peakLimit d i : Int) ≤ iMax
    (y.atPeak = true ↔ peak) ∧
    (y.atNeg = true ↔ negLimited d i = true ∧ iMin ≤ -(d.railB i 8 16 16 : Int)) ∧
    (peak → (d.rail i).surge = none → startLimited d i = false → y.peaks = x.peaks + 1) ∧
    (¬peak ∨ (d.rail i).surge ≠ none ∨ startLimited d i = true → y.peaks = 0) ∧
    y = { x with atPeak := y.atPeak, atNeg := y.atNeg, peaks := y.peaks, openCount := y.openCount, senseCount := y.senseCount } := by
  intro x y peak
  have hpeak : (decide ((peakLimit d i : Int) ≤ iMax) && x.onTime != 0) = true ↔ peak := by
    simp only [Bool.and_eq_true, decide_eq_true_eq, bne_iff_ne, peak]
    exact and_comm
  have hy : y = _ := phase_modPhase_self ..
  refine ⟨by rw [hy]; exact hpeak, by rw [hy]; simp, fun hp hs hl => ?_, fun h => ?_, by rw [hy]⟩
  · rw [hy]
    refine if_pos ?_
    rw [hpeak.2 hp, hs, hl]
    rfl
  · rw [hy]
    refine if_neg fun ho => ?_
    simp only [Bool.and_eq_true, Bool.not_eq_true', Option.isNone_iff_eq_none] at ho
    obtain ⟨⟨hp, hs⟩, hl⟩ := ho
    rcases h with h | h | h
    · exact h (hpeak.1 (by simpa using hp))
    · exact h hs
    · rw [hl] at h
      exact absurd h (by decide)

/-- The current limit that a rail's period derives (R187). -/
def dmaxNext (d : Dev) (i : Nat) : Int :=
  let r := d.rail i
  let dmax : Int := sx 16 (d.railB i 7 16 16)
  let derated := decide ((d.okPhases i).length < (d.railPhases i).length) || decide (r.throttlePct < 100)
  if r.run.running && (derated || r.limited) then
    (if railLimit d i < 100 * d.railIsum i then max 0 (min dmax r.dmaxEff - 64)
     else if 10000 * d.railIsum i < 98 * railLimit d i then min dmax (r.dmaxEff + 64) else min dmax r.dmaxEff)
  else dmax

/-- A record written, or none, leaves the drivers as they are. -/
theorem recordIf_pwm (c : Bool) (d : Dev) (i cause pos : Nat) (before : RailRun) :
    (if c then writeRailRecord d i cause pos before else d).pwm = d.pwm := by
  obtain ⟨k, n, hrec, -⟩ := writeRailRecord_frame d i cause pos before
  rw [hrec]
  cases c <;> rfl

theorem railPeriod_kept (d : Dev) (i : Nat) :
    let r := d.rail i
    let e := railPeriod d i
    (e.rail i).dmaxEff = dmaxNext d i ∧ (e.rail i).limited = decide (dmaxNext d i < sx 16 (d.railB i 7 16 16)) ∧
      (e.rail i).openLoop = r.openLoop.map (fun p => (p.1 + 1, p.2)) ∧ (e.rail i).run = r.run ∧ e.pwm.phases = d.pwm.phases := by
  obtain ⟨f, hpwm, heff, hlim, hopen, hrun⟩ : ∃ f : Rail → Rail, (railPeriod d i).pwm = (d.modRail i f).pwm ∧
      (f (d.rail i)).dmaxEff = dmaxNext d i ∧ (f (d.rail i)).limited = decide (dmaxNext d i < sx 16 (d.railB i 7 16 16)) ∧
      (f (d.rail i)).openLoop = (d.rail i).openLoop.map (fun p => (p.1 + 1, p.2)) ∧ (f (d.rail i)).run = (d.rail i).run :=
    ⟨_, recordIf_pwm .., rfl, rfl, rfl, rfl⟩
  have hrail : (railPeriod d i).rail i = f (d.rail i) := by
    rw [← rail_modRail_self d i f]
    unfold Dev.rail
    rw [hpwm]
  dsimp only
  rw [hrail, hpwm]
  exact ⟨heff, hlim, hopen, hrun, rfl⟩

theorem dmaxNext_free {d : Dev} {i : Nat} (h : (d.rail i).run.running = false ∨
    (¬((d.okPhases i).length < (d.railPhases i).length ∨ (d.rail i).throttlePct < 100) ∧ (d.rail i).limited = false)) :
    dmaxNext d i = sx 16 (d.railB i 7 16 16) := by
  refine if_neg ?_
  rcases h with h | ⟨hd, hl⟩
  · simp [h]
  · rw [hl]
    simp only [not_or] at hd
    simp [hd.1, hd.2]

theorem dmaxNext_limited {d : Dev} {i : Nat} (hr : (d.rail i).run.running = true)
    (h : ((d.okPhases i).length < (d.railPhases i).length ∨ (d.rail i).throttlePct < 100) ∨ (d.rail i).limited = true) :
    let dmax : Int := sx 16 (d.railB i 7 16 16)
    dmaxNext d i = if railLimit d i < 100 * d.railIsum i then max 0 (min dmax (d.rail i).dmaxEff - 64)
      else if 10000 * d.railIsum i < 98 * railLimit d i then min dmax ((d.rail i).dmaxEff + 64) else min dmax (d.rail i).dmaxEff := by
  refine if_pos ?_
  rw [hr, Bool.true_and]
  simpa using h

/-! ### Surge -/

theorem surgeKind_cases (d : Dev) (i : Nat) (mv slope : Int) :
    let ref := d.railRefMv i
    let win : Int := surgeWindowOf d i
    let thr : Int := surgeSlopeOf d i
    (1000 * mv < ref * (1000 - win) → surgeKind d i mv slope = some false) ∧
    (ref * (1000 - win) ≤ 1000 * mv → ref * (1000 + win) < 1000 * mv → surgeKind d i mv slope = some true) ∧
    (ref * (1000 - win) ≤ 1000 * mv → 1000 * mv ≤ ref * (1000 + win) →
      (10000 * slope < -(ref * thr) → surgeKind d i mv slope = some false) ∧
      (-(ref * thr) ≤ 10000 * slope → ref * thr < 10000 * slope → surgeKind d i mv slope = some true) ∧
      (-(ref * thr) ≤ 10000 * slope → 10000 * slope ≤ ref * thr → surgeKind d i mv slope = none)) := by
  intro ref win thr
  refine ⟨fun h => if_pos h, fun h h' => (if_neg (not_lt.2 h)).trans (if_pos h'), fun h h' => ?_⟩
  have hin : surgeKind d i mv slope = if 10000 * slope < -(ref * thr) then some false
      else if ref * thr < 10000 * slope then some true else none :=
    (if_neg (not_lt.2 h)).trans (if_neg (not_lt.2 h'))
  exact ⟨fun hs => hin.trans (if_pos hs), fun hs hs' => hin.trans ((if_neg (not_lt.2 hs)).trans (if_pos hs')),
    fun hs hs' => hin.trans ((if_neg (not_lt.2 hs)).trans (if_neg (not_lt.2 hs')))⟩

theorem surgeArmed_iff {d : Dev} {i pos : Nat} :
    surgeArmed d i pos = true ↔ (d.rail i).run = .on ∧ (d.rail i).surge = none ∧ (d.rail i).limited = false ∧
      (∀ p ∈ d.railPhases i, (d.phase p).state ≠ .fenced) ∧ d.pwm.vdrvLow = false ∧
      (∀ n e, (d.rail i).surgeEnd = some (n, e) → 2 ≤ n ∨ (n = 1 ∧ e ≤ pos)) := by
  have hok : (d.okPhases i).length = (d.railPhases i).length ↔ ∀ p ∈ d.railPhases i, (d.phase p).state ≠ .fenced := by
    unfold Dev.okPhases
    rw [List.length_filter_eq_length_iff]
    simp
  unfold surgeArmed
  cases hs : (d.rail i).surgeEnd with
  | none => simp [hok, and_assoc, hs]
  | some q => simp [hok, and_assoc, hs, Prod.ext_iff]

/-- What happens to a phase when a Surge is detected at place `own` of its period (R171, R173). -/
def surgePhase (i pos : Nat) (d : Dev) (p : Nat) : Dev :=
  let own := ownPlace d i p pos
  match (d.phase p).state with
  | .active => enterPhase d i p .firing own
  | .shedding => enterPhase d i p .firing own
  | .shed => if youngShed d i (d.phase p) then enterPhase d i p .firing own
             else d.modPhase p fun x => { x with state := .refresh, periods := 0, adding := false, entered := own }
  | _ => d

/-- The rail's part of a detected Surge. -/
def surgeMarked (d : Dev) (i : Nat) (isOver : Bool) : Dev :=
  d.modRail i fun r =>
    { r with surge := some isOver, surgeWin := surgeWindowOf d i, surgesTurn := r.surgesTurn + 1, dem := false, demCount := 0 }

section
variable {d : Dev} {i pos : Nat} {mv slope : Int}

theorem surgeDetect_nothing (h : surgeArmed d i pos = false ∨ surgeKind d i mv slope = none) : surgeDetect i mv slope pos d = d := by
  unfold surgeDetect
  split
  · rfl
  · next o ho =>
    rcases h with h | h
    · rw [h, if_neg Bool.false_ne_true]
    · rw [h] at ho
      exact absurd ho (by simp)

theorem surgeDetect_fires {o : Bool} (ha : surgeArmed d i pos = true) (hk : surgeKind d i mv slope = some o) :
    surgeDetect i mv slope pos d =
      railUrgent (((d.railPhases i).foldl (surgePhase i pos) (surgeMarked d i o)).tally 43 1 1) i := by
  unfold surgeDetect
  rw [hk]
  exact if_pos ha

/-- The triggers of a Surge change the acquisition alone. -/
theorem railUrgent_pwm (d : Dev) (i : Nat) : (railUrgent d i).pwm = d.pwm := by
  refine foldl_keeps Dev.pwm (fun d c => ?_) _ _
  split
  · unfold urgentTrigger
    dsimp only
    (repeat' split) <;> rfl
  · rfl
end

section
variable {d : Dev} {i pos p : Nat}

/-- A phase's part of a Surge changes no other phase, no rail and no slot. -/
theorem surgePhase_kept : (surgePhase i pos d p).pwm = { d.pwm with phases := (surgePhase i pos d p).pwm.phases } ∧
    (surgePhase i pos d p).slots = d.slots ∧ ∀ q, q ≠ p → (surgePhase i pos d p).phase q = d.phase q := by
  unfold surgePhase
  split
  · exact ⟨enterPhase_kept.1, enterPhase_kept.2, fun q hq => enterPhase_phase_ne hq⟩
  · exact ⟨enterPhase_kept.1, enterPhase_kept.2, fun q hq => enterPhase_phase_ne hq⟩
  · split
    · exact ⟨enterPhase_kept.1, enterPhase_kept.2, fun q hq => enterPhase_phase_ne hq⟩
    · exact ⟨rfl, rfl, fun q hq => phase_modPhase_ne d _ hq⟩
  · exact ⟨rfl, rfl, fun _ _ => rfl⟩

/-- A ready phase fires, or takes a refresh first (R169, R171). -/
theorem surgePhase_ready (h : (d.phase p).state = .active ∨ (d.phase p).state = .shedding ∨
    (d.phase p).state = .shed ∧ youngShed d i (d.phase p) = true) :
    ((surgePhase i pos d p).phase p).state = (if (d.phase p).bootLow then .refresh else .firing) ∧
      ((surgePhase i pos d p).phase p).onTime =
        if (d.phase p).bootLow ∨ (d.rail i).surge = some true then 0 else rcPeriod (d.slot tRail i).cfg := by
  have hfire : surgePhase i pos d p = enterPhase d i p .firing (ownPlace d i p pos) := by
    unfold surgePhase
    rcases h with h | h | ⟨h, hy⟩
    · rw [h]
    · rw [h]
    · rw [h]
      exact if_pos hy
  rw [hfire]
  cases hb : (d.phase p).bootLow with
  | true => rw [enterPhase_bootLow hb]; simp
  | false => rw [enterPhase_firing hb]; simp

/-- A phase SHED for longer takes a refresh (R173). -/
theorem surgePhase_shed (h : (d.phase p).state = .shed) (hy : youngShed d i (d.phase p) = false) :
    ((surgePhase i pos d p).phase p).state = .refresh := by
  have hmod : surgePhase i pos d p = d.modPhase p fun x =>
      { x with state := .refresh, periods := 0, adding := false, entered := ownPlace d i p pos } := by
    unfold surgePhase
    rw [h]
    exact if_neg (by rw [hy]; decide)
  rw [hmod, phase_modPhase_self]
end

/-- What a Surge makes of a phase `x` of a rail whose Surge is an overshoot `o` and whose configuration is `ws`. -/
def SurgedPhase (young : Phase → Bool) (o : Bool) (ws : List Word) (x y : Phase) : Prop :=
  ((x.state = .active ∨ x.state = .shedding ∨ x.state = .shed ∧ young x = true) →
    y.state = (if x.bootLow then .refresh else .firing) ∧ y.onTime = (if x.bootLow ∨ o = true then 0 else rcPeriod ws)) ∧
  (x.state = .shed → young x = false → y.state = .refresh)

/-- The phases of a rail without duplicates, after a Surge is detected. -/
theorem surgePhases_phase {l : List Nat} {i pos : Nat} {o : Bool} (hl : l.Nodup) {d : Dev} (hs : (d.rail i).surge = some o) :
    ∀ p ∈ l, SurgedPhase (youngShed d i) o (d.slot tRail i).cfg (d.phase p) ((l.foldl (surgePhase i pos) d).phase p) := by
  refine foldl_reaches (f := surgePhase i pos)
    (Q := fun p e => e.phase p = d.phase p ∧ e.slots = d.slots ∧ e.pwm.rails = d.pwm.rails)
    (P := fun p e => SurgedPhase (youngShed d i) o (d.slot tRail i).cfg (d.phase p) (e.phase p)) ?_ ?_ ?_ l d hl
    fun p _ => ⟨rfl, rfl, rfl⟩
  · rintro e p ⟨hx, hslots, hrails⟩
    have hslot : e.slot tRail i = d.slot tRail i := by
      unfold Dev.slot
      rw [hslots]
    have hrail : (e.rail i).surge = some o := by
      unfold Dev.rail at hs ⊢
      rw [hrails, hs]
    have hyoung : youngShed e i = youngShed d i := by
      unfold youngShed
      rw [hslot]
    refine ⟨fun h => ?_, fun h hy => surgePhase_shed (by rw [hx]; exact h) (by rw [hx, hyoung]; exact hy)⟩
    obtain ⟨hst, hon⟩ := surgePhase_ready (d := e) (i := i) (pos := pos) (p := p) (by rw [hx, hyoung]; exact h)
    rw [hst, hon, hx, hslot, hrail]
    exact ⟨rfl, by simp⟩
  · rintro e a b hne ⟨hx, hslots, hrails⟩
    obtain ⟨hpwm, hsl, hph⟩ := surgePhase_kept (d := e) (i := i) (pos := pos) (p := a)
    exact ⟨(hph b hne).trans hx, hsl.trans hslots, by rw [hpwm]; exact hrails⟩
  · intro e a b hne h
    rw [surgePhase_kept.2.2 b hne]
    exact h

theorem surgePhases_rail (l : List Nat) (i pos : Nat) (d : Dev) (j : Nat) : (l.foldl (surgePhase i pos) d).rail j = d.rail j :=
  foldl_keeps (·.rail j) (fun d p => by
    unfold Dev.rail
    rw [surgePhase_kept.1]) _ _

/-! ### The end of a firing -/

/-- The output is back inside half the window, or the phase's two carrier periods are over (R172). -/
def firingOver (d : Dev) (i p : Nat) (mv : Int) (pos : Nat) : Prop :=
  2000 * ((mv - d.railRefMv i).natAbs : Int) ≤ d.railRefMv i * ((d.rail i).surgeWin : Int) ∨
    (d.phase p).lasted 2 (ownPlace d i p pos) = true

section
variable {d : Dev} {i p pos : Nat} {mv : Int}

theorem firingEnd_idle (h : (d.phase p).state ≠ .firing ∨ (d.phase p).owner = none) : firingEnd p mv pos d = d := by
  unfold firingEnd
  split
  · next hs ho => exact (h.elim (fun h => h hs) fun h => by rw [h] at ho; exact absurd ho (by simp)).elim
  · rfl

theorem firingEnd_owned (hi : i < 24) (hs : (d.phase p).state = .firing) (ho : (d.phase p).owner = some (slotKey tRail i)) :
    firingEnd p mv pos d = if 2000 * ((mv - d.railRefMv i).natAbs : Int) ≤ d.railRefMv i * ((d.rail i).surgeWin : Int) ||
        (d.phase p).lasted 2 (ownPlace d i p pos) then phaseFireEnd d i p pos else d := by
  have hk : slotKey tRail i % 4096 = i := by unfold slotKey; omega
  unfold firingEnd
  rw [hs, ho]
  dsimp only
  rw [hk]

theorem firingEnd_early (hi : i < 24) (hs : (d.phase p).state = .firing) (ho : (d.phase p).owner = some (slotKey tRail i))
    (h : ¬firingOver d i p mv pos) : firingEnd p mv pos d = d := by
  rw [firingEnd_owned hi hs ho]
  exact if_neg fun hb => h (by simpa [firingOver] using hb)

theorem firingEnd_over (hi : i < 24) (hs : (d.phase p).state = .firing) (ho : (d.phase p).owner = some (slotKey tRail i))
    (h : firingOver d i p mv pos) : firingEnd p mv pos d = phaseFireEnd d i p pos := by
  rw [firingEnd_owned hi hs ho]
  exact if_pos (by simpa [firingOver] using h)
end

/-! ### What a fault keeps of the ready runs and of the supply's mark -/

theorem portsSet_thr (d : Dev) (l : Nat) : (portsSet d l).thr = d.thr := by
  refine foldl_keeps Dev.thr (fun d k => ?_) _ _
  unfold portSet phaseOut demandOut
  dsimp only
  (repeat' split) <;> simp

/-- A LOOP that is disabled makes no run ready. -/
theorem disableLoop_ready {d : Dev} {l : Nat} {id : LoopId} (h : id ∉ d.thr.ready) : id ∉ (disableLoop d l).thr.ready := by
  unfold disableLoop
  split
  · exact h
  · dsimp only
    rw [portsSet_thr]
    have hready : (applySetPoints (swapLoop d l ((d.loop l).runs + 1)) l).thr.ready = d.thr.ready :=
      applySetPoints_kept.1.trans (swapLoop_kept _).1
    intro hm
    exact h (hready ▸ List.mem_of_mem_filter hm)

theorem faultStopped_ready {d : Dev} {i cause pos : Nat} {id : LoopId} (h : id ∉ d.thr.ready) :
    id ∉ (faultStopped d i cause pos).thr.ready := by
  refine List.foldlRecOn _ disableLoop (motive := fun e : Dev => id ∉ e.thr.ready) ?_ fun e he l _ => disableLoop_ready he
  rw [gatesLow_frame]
  obtain ⟨k, n, hrec, -⟩ := writeRailRecord_frame d i cause pos (d.rail i).run
  rw [hrec]
  exact h

theorem faultStopped_vdrvLow (d : Dev) (i cause pos : Nat) : (faultStopped d i cause pos).pwm.vdrvLow = d.pwm.vdrvLow := by
  unfold faultStopped
  rw [(portKept_disableRailLoops ..).pwm, gatesLow_frame]
  obtain ⟨k, n, hrec, -⟩ := writeRailRecord_frame d i cause pos (d.rail i).run
  rw [hrec]

theorem dischargeOn_vdrvLow (d : Dev) (i : Nat) : (dischargeOn d i).pwm.vdrvLow = d.pwm.vdrvLow := by
  unfold dischargeOn
  split <;> rfl

theorem faultEntered_vdrvLow_ready (d : Dev) (i cause : Nat) :
    (faultEntered d i cause).pwm.vdrvLow = d.pwm.vdrvLow ∧ (faultEntered d i cause).thr = d.thr := by
  obtain ⟨-, -, hpgFrame⟩ := railPgOff_kept (dischargeOn d i) i
  obtain ⟨-, -, -, -, honFrame⟩ := dischargeOn_kept d i
  have hon := dischargeOn_vdrvLow d i
  unfold faultEntered
  dsimp only [Dev.endKind]
  simp only [endWaits_pwm, endWaits_thr, Dev.raise_pwm, Dev.raise_thr]
  generalize railPgOff (dischargeOn d i) i = m at hpgFrame ⊢
  exact ⟨(congrArg (·.pwm.vdrvLow) hpgFrame : m.pwm.vdrvLow = _).trans hon,
    (congrArg Dev.thr hpgFrame : m.thr = _).trans (congrArg Dev.thr honFrame :)⟩

theorem railFault_ready {d : Dev} {i cause pos : Nat} {id : LoopId} (h : id ∉ d.thr.ready) :
    id ∉ (railFault d i cause pos).thr.ready := by
  by_cases hrun : (d.rail i).run.running = true
  · rw [railFault_running hrun, (faultEntered_vdrvLow_ready ..).2]
    exact faultStopped_ready h
  · rw [railFault_idle (by simpa using hrun)]
    exact h

/-! ### The drivers' supply -/

/-- A fault of one rail leaves the run states of the others, and the supply's mark. -/
theorem railFault_others (d : Dev) (i cause pos : Nat) :
    (∀ j, j ≠ i → ((railFault d i cause pos).rail j).run = (d.rail j).run) ∧
      (railFault d i cause pos).pwm.vdrvLow = d.pwm.vdrvLow := by
  by_cases h : (d.rail i).run.running = true
  · obtain ⟨-, hcore, -⟩ := faultStopped_kept d i cause pos
    have hlow := faultStopped_vdrvLow d i cause pos
    rw [railFault_running h]
    generalize faultStopped d i cause pos = m at hcore hlow ⊢
    obtain ⟨-, hne, -⟩ := faultEntered_kept m i cause
    refine ⟨fun j hj => ?_, (faultEntered_vdrvLow_ready ..).1.trans hlow⟩
    rw [hne j hj]
    exact (congrArg Rail.run (hcore j) :)
  · rw [railFault_idle (by simpa using h)]
    exact ⟨fun _ _ => rfl, rfl⟩

/-- The run state of a rail that a loss of the drivers' supply finds. -/
def RailRun.supplyLost (r : RailRun) : RailRun := if r.running then .faulted else r

theorem railFault_run (d : Dev) (i cause pos : Nat) : ((railFault d i cause pos).rail i).run = (d.rail i).run.supplyLost := by
  unfold RailRun.supplyLost
  split
  · next h => exact (railFault_kept h cause pos).1
  · next h => rw [railFault_idle (by simpa using h)]

/-- Every rail of a list faults if it runs, and the supply's mark stands. -/
theorem railFaults_run (l : List Nat) (d : Dev) :
    let e := l.foldl (fun d i => railFault d i 0x000C 0xFF) d
    e.pwm.vdrvLow = d.pwm.vdrvLow ∧ ∀ i, (e.rail i).run = if i ∈ l then (d.rail i).run.supplyLost else (d.rail i).run := by
  induction l generalizing d with
  | nil => exact ⟨rfl, fun _ => rfl⟩
  | cons k l ih =>
    obtain ⟨hlow, hrun⟩ := ih (railFault d k 0x000C 0xFF)
    obtain ⟨hne, hklow⟩ := railFault_others d k 0x000C 0xFF
    refine ⟨hlow.trans hklow, fun i => ?_⟩
    rw [List.foldl_cons, hrun]
    by_cases hk : i = k
    · subst hk
      rw [railFault_run]
      have hidem : (d.rail i).run.supplyLost.supplyLost = (d.rail i).run.supplyLost := by
        cases (d.rail i).run <;> rfl
      simp [hidem]
    · rw [hne i hk]
      simp [hk]

/-! ### A phase fails -/

/-- A phase of an ENABLED rail fenced, and its balance runs with it (R185 to R187). -/
def phaseFenced (i pos : Nat) (d : Dev) : Dev :=
  (d.modPhase ((d.railPhases i).getD pos 0) fun x =>
    { x with state := .fenced, duty := 0, onTime := 0, edges := none, adding := false }).dequeued (.balance i pos)

/-- The device after a phase has failed, before a rail without phases left faults. -/
def phaseFailed (i pos : Nat) (sense : Bool) (d : Dev) : Dev :=
  let p := (d.railPhases i).getD pos 0
  let cause := if sense then 0x0005 else 0x0004
  let d := phaseFenced i pos d
  let nok := (d.okPhases i).length
  let d := d.raise 0x0404 (p + cause * 256) (d.railHandle i)
  let d := d.raise 0x0403 nok (d.railHandle i)
  (writeRailRecord d i cause pos (d.rail i).run).modRail i fun r => { r with failAge := some 0 }

/-- The conditions of PHASE_FAILURE (R185, R186). -/
def phaseHit (d : Dev) (i pos : Nat) (sense : Bool) : Prop :=
  let x := d.phase ((d.railPhases i).getD pos 0)
  x.state = .active ∧ pos < (d.railPhases i).length ∧ 8 ≤ (if sense then x.senseCount else x.openCount) ∧
    (sense = true ∨ (d.rail i).run = .on)

section
variable {d : Dev} {i pos : Nat} {sense : Bool}

theorem phaseFailure_nothing (h : ¬phaseHit d i pos sense) : phaseFailure i pos sense d = d := if_neg h

theorem phaseFailure_hit (h : phaseHit d i pos sense) :
    phaseFailure i pos sense d =
      if ((phaseFenced i pos d).okPhases i).length = 0 then
        railFault (phaseFailed i pos sense d) i (if sense then 0x0005 else 0x0004) pos
      else phaseFailed i pos sense d :=
  if_pos h

theorem phaseFailed_kept (i pos : Nat) (sense : Bool) (d : Dev) :
    let p := (d.railPhases i).getD pos 0
    let e := phaseFailed i pos sense d
    e.phase p = { d.phase p with state := .fenced, duty := 0, onTime := 0, edges := none, adding := false } ∧
      LoopId.balance i pos ∉ e.thr.ready ∧ e.rail i = { d.rail i with failAge := some 0 } ∧ e.railPhases i = d.railPhases i := by
  unfold phaseFailed
  dsimp only
  generalize hf : phaseFenced i pos d = f
  have hphase : f.phase ((d.railPhases i).getD pos 0) = { d.phase ((d.railPhases i).getD pos 0) with
      state := .fenced, duty := 0, onTime := 0, edges := none, adding := false } := by
    rw [← hf]
    exact (phase_modPhase_self d _ _ :)
  have hready : LoopId.balance i pos ∉ f.thr.ready := by
    rw [← hf]
    simp [phaseFenced, Dev.dequeued]
  have hrail : f.rail i = d.rail i := by rw [← hf]; rfl
  have hphases : f.railPhases i = d.railPhases i := by rw [← hf]; rfl
  generalize hr : ((f.raise 0x0404 _ (f.railHandle i)).raise 0x0403 _ _) = r
  have hrphase : r.phase ((d.railPhases i).getD pos 0) = f.phase ((d.railPhases i).getD pos 0) := by
    rw [← hr]
    simp [Dev.phase]
  have hrthr : r.thr = f.thr := by rw [← hr]; simp
  have hrrail : r.rail i = f.rail i := by rw [← hr]; simp
  have hrphases : r.railPhases i = f.railPhases i := by
    rw [← hr]
    simp [Dev.railPhases, Dev.slot]
  obtain ⟨k, n, hrec, -⟩ := writeRailRecord_frame r i (if sense then 0x0005 else 0x0004) pos (r.rail i).run
  rw [hrec, rail_modRail_self]
  refine ⟨hrphase.trans hphase, ?_, ?_, hrphases.trans hphases⟩
  · exact fun hm => hready (hrthr ▸ hm)
  · exact congrArg (fun r : Rail => { r with failAge := some 0 }) (hrrail.trans hrail)

/-- The phases of a rail that are left once one is fenced. -/
theorem phaseFenced_okPhases : (phaseFenced i pos d).okPhases i =
    (d.okPhases i).filter fun q => decide (q ≠ (d.railPhases i).getD pos 0) := by
  have hphases : (phaseFenced i pos d).railPhases i = d.railPhases i := rfl
  unfold Dev.okPhases
  rw [hphases, List.filter_filter]
  refine List.filter_congr fun q _ => ?_
  have hself : ((phaseFenced i pos d).phase ((d.railPhases i).getD pos 0)).state = .fenced :=
    congrArg Phase.state (phase_modPhase_self d ((d.railPhases i).getD pos 0) fun x =>
      { x with state := .fenced, duty := 0, onTime := 0, edges := none, adding := false } :)
  have hne (h : q ≠ (d.railPhases i).getD pos 0) : (phaseFenced i pos d).phase q = d.phase q := (phase_modPhase_ne d _ h :)
  generalize (d.railPhases i).getD pos 0 = p at hself hne
  by_cases hq : q = p
  · simp [hq, hself]
  · simp [hne hq, hq]
end

theorem answers_vdrvUv (s : State) : Answers .vdrvUv s
    ((s.dev.liveIndices tRail).foldl (fun d i => railFault d i 0x000C 0xFF)
      { s.dev with pwm := { s.dev.pwm with vdrvLow := true } }) := onDev_eq s fun _ => vdrvUv

theorem answers_phaseFailure (s : State) {i : Nat} (pos : Nat) (sense : Bool) (tick : Nat) (hi : i < 24) :
    Answers (.phaseFailure i pos sense tick) s
      { phaseFailure i pos sense { s.dev with tickNow := some (tick % 65536) } with tickNow := none } := onDevAt_lt s _ hi

/-- What a failed phase leaves: itself fenced, and its rail faulted where no other is left (R187). -/
theorem phaseFailure_kept {d : Dev} {i pos : Nat} {sense : Bool} (h : phaseHit d i pos sense) :
    let p := (d.railPhases i).getD pos 0
    let e := phaseFailure i pos sense d
    (e.phase p).state = .fenced ∧ (e.phase p).duty = 0 ∧ (e.phase p).onTime = 0 ∧ LoopId.balance i pos ∉ e.thr.ready ∧
      (d.okPhases i = [p] → (d.rail i).run.running = true → (e.rail i).run = .faulted) ∧
      (∀ q ∈ d.okPhases i, q ≠ p → (e.rail i).run = (d.rail i).run ∧ (e.rail i).failAge = some 0) := by
  obtain ⟨hphase, hready, hrail, hphases⟩ := phaseFailed_kept i pos sense d
  have hmem : (d.railPhases i).getD pos 0 ∈ d.railPhases i := by
    rw [List.getD_eq_getElem _ _ h.2.1]
    exact List.getElem_mem _
  have hok := phaseFenced_okPhases (d := d) (i := i) (pos := pos)
  dsimp only
  rw [phaseFailure_hit h]
  generalize (d.railPhases i).getD pos 0 = p at hphase hmem hok ⊢
  generalize phaseFailed i pos sense d = m at hphase hready hrail hphases ⊢
  by_cases hnone : ((phaseFenced i pos d).okPhases i).length = 0
  · obtain ⟨v, hv⟩ : ∃ v, (railFault m i (if sense then 0x0005 else 0x0004) pos).phase p = { m.phase p with kind1 := v } := by
      by_cases hrun : (m.rail i).run.running = true
      · obtain ⟨-, -, -, -, -, hfenced, -⟩ := railFault_kept hrun (if sense then 0x0005 else 0x0004) pos
        exact hfenced p (hphases ▸ hmem) (by rw [hphase])
      · rw [railFault_idle (by simpa using hrun)]
        exact ⟨_, rfl⟩
    rw [if_pos hnone, hv, hphase]
    refine ⟨rfl, rfl, rfl, railFault_ready hready, fun _ hrun => ?_, fun q hq hne => ?_⟩
    · exact (railFault_kept (by rw [hrail]; exact hrun) _ _).1
    · rw [hok] at hnone
      have := List.eq_nil_of_length_eq_zero hnone
      have hin : q ∈ (d.okPhases i).filter fun q => decide (q ≠ p) := List.mem_filter.2 ⟨hq, by simpa using hne⟩
      rw [this] at hin
      exact absurd hin List.not_mem_nil
  · rw [if_neg hnone, hphase, hrail]
    refine ⟨rfl, rfl, rfl, hready, fun hp => ?_, fun _ _ _ => ⟨rfl, rfl⟩⟩
    rw [hok, hp] at hnone
    simp at hnone

/-- What a detected Surge leaves of its rail and of the rail's phases. -/
theorem surgeFired_kept {d : Dev} {i pos : Nat} {o : Bool} (hl : (d.railPhases i).Nodup) :
    let m := surgeMarked d i o
    let e := railUrgent (((d.railPhases i).foldl (surgePhase i pos) m).tally 43 1 1) i
    e.rail i = { d.rail i with
        surge := some o, surgeWin := surgeWindowOf d i, surgesTurn := (d.rail i).surgesTurn + 1, dem := false, demCount := 0 } ∧
      ∀ p ∈ d.railPhases i, SurgedPhase (youngShed d i) o (d.slot tRail i).cfg (d.phase p) (e.phase p) := by
  intro m e
  have hm : m.rail i = _ := rail_modRail_self d i _
  have hpwm : e.pwm = ((d.railPhases i).foldl (surgePhase i pos) m).pwm := railUrgent_pwm _ i
  have hphases := surgePhases_phase (pos := pos) (i := i) hl (congrArg Rail.surge hm)
  have hrail := surgePhases_rail (d.railPhases i) i pos m i
  unfold Dev.rail Dev.phase at *
  rw [hpwm]
  exact ⟨hrail.trans hm, hphases⟩

/-- Settles O47, from the equations of carrier starts, Surges, the supply and failed phases. -/
theorem phasesSwitch : Obligations.PhasesSwitch := by
  unfold Obligations.PhasesSwitch
  refine ⟨?_, phaseWatch_marks, ?_, surgeKind_cases, ?_, fun s => ⟨rfl, ?_⟩, ?_⟩
  · intro s p iMax iMin hp
    refine ⟨fun h => .congr (onDevAt_lt s _ hp) (carrierStart_unowned h), fun i ho hi => ?_,
      fun hs h4 => .congr (onDevAt_lt s _ hp) (if_pos ⟨hs, h4⟩), fun h => .congr (onDevAt_lt s _ hp) (if_neg ?_),
      fun low => onDevAt_lt s _ hp, fun mv pos => ⟨fun h => .congr (onDevAt_lt s _ hp) (firingEnd_idle h), ?_⟩⟩
    · intro k w d x
      have hstart := carrierStart_owned (iMax := iMax) (iMin := iMin) ho hi
      rw [show carrierBegun s.dev i p iMax iMin = d from rfl] at hstart
      refine ⟨fun hl => .congr (onDevAt_lt s _ hp) (hstart.trans (if_pos hl)), fun hl hr => .congr (onDevAt_lt s _ hp)
        (hstart.trans ((if_neg (by rw [hl]; decide)).trans (if_pos hr))), fun hl hr hv => ?_⟩
      refine ⟨_, .congr (onDevAt_lt s _ hp) (hstart.trans ((if_neg (by rw [hl]; decide)).trans (if_neg ?_))), carrier_phase k⟩
      rw [hr, hv]
      decide
    · rintro ⟨hs, h4⟩
      exact h.elim (fun h => h hs) fun h => absurd h4 (not_le.2 h)
    · intro i hi hs ho back d
      refine ⟨fun hb => .congr (onDevAt_lt s _ hp) (firingEnd_early hi hs ho hb), fun hb hf => ?_, fun hb hf => ?_⟩
      · exact .congr (onDevAt_lt s _ hp) ((firingEnd_over hi hs ho hb).trans ((phaseFireEnd_eq ..).trans (if_pos hf)))
      · have hend := (firingEnd_over hi hs ho hb).trans ((phaseFireEnd_eq ..).trans (if_neg (by rw [hf]; decide)))
        obtain ⟨hsurge, hat⟩ := surgeEnded_rail d i pos
        refine ⟨_, .congr (onDevAt_lt s _ hp) hend, hsurge, hat, fun hrun => ?_⟩
        have hstate := phaseFireEnd_state (p := p) (pos := pos) hrun
        rw [phaseFireEnd_eq, if_neg (by rw [hf]; decide)] at hstate
        exact hstate
  · intro d i r e dmax derated lim
    obtain ⟨heff, hlim, hopen, hrun, hphases⟩ := railPeriod_kept d i
    refine ⟨fun h => heff.trans (dmaxNext_free h), fun hr h => ?_, ?_, hopen, hrun, hphases⟩
    · have hnext := heff.trans (dmaxNext_limited hr h)
      exact ⟨fun h => hnext.trans (if_pos h), fun h h' => hnext.trans ((if_neg (not_lt.2 h')).trans (if_pos h)),
        fun h h' => hnext.trans ((if_neg (not_lt.2 h')).trans (if_neg (not_lt.2 h)))⟩
    · rw [hlim, heff]
      exact decide_eq_true_iff
  · intro s i hi
    refine ⟨fun h => .congr (onDevAt_lt s _ hi) (if_neg (by rw [h]; decide)), fun h => .congr (onDevAt_lt s _ hi) (if_pos h), ?_⟩
    intro mv slope pos armed
    refine ⟨fun h => .congr (onDevAt_lt s _ hi) (surgeDetect_nothing (h.imp_left fun h => ?_)), fun o ha hk hnodup => ?_⟩
    · exact Bool.eq_false_iff.2 fun hs => h (surgeArmed_iff.1 hs)
    · obtain ⟨hrail, hphases⟩ := surgeFired_kept (i := i) (pos := pos) (o := o) hnodup
      refine ⟨_, .congr (onDevAt_lt s _ hi) (surgeDetect_fires (surgeArmed_iff.2 ha) hk), ?_⟩
      generalize railUrgent (((s.dev.railPhases i).foldl (surgePhase i pos) (surgeMarked s.dev i o)).tally 43 1 1) i = e
        at hrail hphases ⊢
      rw [hrail]
      exact ⟨rfl, rfl, rfl, fun p hp h => (hphases p hp).1 h, fun p hp h hy => (hphases p hp).2 h hy⟩
  · obtain ⟨hlow, hrun⟩ := railFaults_run (s.dev.liveIndices tRail) { s.dev with pwm := { s.dev.pwm with vdrvLow := true } }
    refine ⟨_, answers_vdrvUv s, hlow, fun i hi => (hrun i).trans (if_pos hi)⟩
  · intro s i pos tick sense hi p hit
    have hiff : hit ↔ phaseHit { s.dev with tickNow := some (tick % 65536) } i pos sense :=
      ⟨fun ⟨hpos, hact, h⟩ => ⟨hact, hpos, h⟩, fun ⟨hact, hpos, h⟩ => ⟨hpos, hact, h⟩⟩
    constructor
    · intro h
      have hnone := phaseFailure_nothing (mt hiff.2 h)
      have := answers_phaseFailure s pos sense tick hi
      rwa [hnone] at this
    · intro h
      exact ⟨_, answers_phaseFailure s pos sense tick hi, phaseFailure_kept (hiff.1 h)⟩
end Sys2Proof.Machine

end

/-! ## What feeds and branches share (spec 07, 08) -/

section
/-! PROOF. What a channel's events leave: power-good, a trip, the record of a fault, an attempt and the end of a stop. -/

namespace Sys2Proof.Machine

/-! ### What the events of a channel leave alone -/

/-- What the events of a channel leave: all but the channels, the acquisition, the waits and what reports them. -/
def ChanFrame (d e : Dev) : Prop := e = { d with
  feeds := e.feeds, branches := e.branches, acq := e.acq, waits := e.waits, host := e.host, tal := e.tal, sag := e.sag
  twb := e.twb, net := e.net, wit := e.wit, fresh := e.fresh, onceTurn := e.onceTurn }

/-- A step of an event that changes no channel. -/
structure ChanKept (d e : Dev) : Prop where
  frame : ChanFrame d e
  feeds : e.feeds = d.feeds
  branches : e.branches = d.branches

namespace ChanFrame
variable {d e f : Dev}

theorem refl (d : Dev) : ChanFrame d d := rfl

theorem trans (h : ChanFrame d e) (h' : ChanFrame e f) : ChanFrame d f := by
  unfold ChanFrame at *
  rw [h', h]

theorem modChan (d : Dev) (c : Nat) (f : Chan → Chan) : ChanFrame d (d.modChan c f) := by
  unfold ChanFrame Dev.modChan
  split <;> rfl

theorem slots (h : ChanFrame d e) : e.slots = d.slots := (congrArg Dev.slots h :)
theorem wheel (h : ChanFrame d e) : e.wheel = d.wheel := (congrArg Dev.wheel h :)
theorem plane (h : ChanFrame d e) : e.plane = d.plane := (congrArg Dev.plane h :)
theorem sitter (h : ChanFrame d e) : e.sitter = d.sitter := (congrArg Dev.sitter h :)
theorem kiln (h : ChanFrame d e) : e.kiln = d.kiln := (congrArg Dev.kiln h :)
theorem tickNow (h : ChanFrame d e) : e.tickNow = d.tickNow := (congrArg Dev.tickNow h :)

theorem slot (h : ChanFrame d e) (t i : Nat) : e.slot t i = d.slot t i := by
  unfold Dev.slot
  rw [h.slots]

theorem isFenced (h : ChanFrame d e) (t i : Nat) : e.isFenced t i = d.isFenced t i := by
  unfold Dev.isFenced
  rw [h.slot]

theorem handleOf (h : ChanFrame d e) (t i : Nat) : e.handleOf t i = d.handleOf t i := by
  unfold Dev.handleOf
  rw [h.slot]

theorem chanHandle (h : ChanFrame d e) (c : Nat) : e.chanHandle c = d.chanHandle c := h.handleOf _ _

theorem chanCfg (h : ChanFrame d e) (c : Nat) : e.chanCfg c = d.chanCfg c := congrArg Slot.cfg (h.slot _ _)

theorem chanRetries (h : ChanFrame d e) (c : Nat) : e.chanRetries c = d.chanRetries c := by
  unfold Dev.chanRetries Dev.chanSlot
  rw [h.slot]

theorem seqNaming (h : ChanFrame d e) (w : Word) : e.seqNaming w = d.seqNaming w := by
  unfold Dev.seqNaming Dev.seqWith Dev.liveIndices
  simp only [h.slots, h.slot]
end ChanFrame

namespace ChanKept
variable {d e f : Dev}

theorem trans (h : ChanKept d e) (h' : ChanKept e f) : ChanKept d f :=
  ⟨h.frame.trans h'.frame, h'.feeds.trans h.feeds, h'.branches.trans h.branches⟩

theorem chan (h : ChanKept d e) (c : Nat) : e.chan c = d.chan c := by
  unfold Dev.chan
  rw [h.feeds, h.branches]

theorem refl (d : Dev) : ChanKept d d := ⟨.refl d, rfl, rfl⟩

theorem tally (d : Dev) (s k n : Nat) : ChanKept d (d.tally s k n) := ⟨rfl, rfl, rfl⟩

theorem raise (d : Dev) (code detail : Nat) (h : Word) : ChanKept d (d.raise code detail h) := by
  have hf := raise_frame d code detail h
  exact ⟨by unfold ChanFrame; rw [hf], (congrArg Dev.feeds hf :), (congrArg Dev.branches hf :)⟩

theorem raiseOnceTurn (d : Dev) (key code detail : Nat) (h : Word) : ChanKept d (d.raiseOnceTurn key code detail h) := by
  have hf := raiseOnceTurn_frame d key code detail h
  exact ⟨by unfold ChanFrame; rw [hf], (congrArg Dev.feeds hf :), (congrArg Dev.branches hf :)⟩

theorem endWaits (d : Dev) (p : Wait → Bool) (g : Wait → Cpl) : ChanKept d (d.endWaits p g) := by
  have hf := endWaits_frame d p g
  exact ⟨by unfold ChanFrame; rw [hf], (congrArg Dev.feeds hf :), (congrArg Dev.branches hf :)⟩

theorem endEnables (d : Dev) (h : Word) (st : Status) : ChanKept d (d.endEnables h st) := endWaits d _ _

theorem freeBits (d : Dev) (n : Nat) : ChanKept d (d.freeBits n).2 := ⟨rfl, rfl, rfl⟩

theorem urgentTrigger (k ch : Nat) (d : Dev) : ChanKept d (urgentTrigger k ch d) := by
  unfold Machine.urgentTrigger
  dsimp only
  split
  · exact refl d
  · split <;> exact ⟨rfl, rfl, rfl⟩

theorem witValue (src : Word) (q sub : Nat) (num : Int) (den : Nat) (dflt : Bool) (d : Dev) :
    ChanKept d (witValue src q sub num den dflt d) := by
  have hf := witValue_sansWit src q sub num den dflt d
  refine ⟨?_, (congrArg Dev.feeds hf :), (congrArg Dev.branches hf :)⟩
  generalize Machine.witValue src q sub num den dflt d = e at hf
  cases e
  cases d
  simp only [Dev.sansWit, Dev.mk.injEq] at hf
  simp only [ChanFrame, Dev.mk.injEq]
  grind
end ChanKept

/-! ### Power-good -/

theorem chanPgOff_frame (d : Dev) (c : Nat) : ChanFrame d (chanPgOff d c) := by
  unfold chanPgOff
  split
  · exact (ChanFrame.modChan d c _).trans (ChanKept.raise _ _ _ _).frame
  · exact .refl d

theorem chanPgOff_chan (d : Dev) (c : Nat) :
    ∃ whole, (chanPgOff d c).chan c = { d.chan c with pg := false, pgWhole := whole } := by
  unfold chanPgOff
  split
  · exact ⟨false, ((ChanKept.raise _ _ _ _).chan c).trans (chan_modChan_self d c _)⟩
  · next h => exact ⟨(d.chan c).pgWhole, by rw [← Bool.eq_false_iff.2 h]⟩

theorem chanPgOn_pg (d : Dev) (c : Nat) : ((chanPgOn d c).chan c).pg = true := by
  unfold chanPgOn
  split
  · next h => exact h
  · rw [((ChanKept.raise _ _ _ _).trans (.endEnables _ _ _)).chan, chan_modChan_self]

/-! ### A fault found -/

theorem chanNote_kept (d : Dev) (c : Nat) : ChanFrame d (chanNote d c) ∧ ∃ tick b, (∀ t, d.tickNow = some t → tick = t) ∧
    (chanNote d c).chan c = { d.chan c with
      before := (d.chan c).run, attempt := (d.chan c).retry, faultTurn := d.wheel.turn, faultTick := tick, shown := some b
      iInj := none, vInj := none, eLet := 0, wantStart := false } := by
  obtain ⟨tick, e, hr, he, ht⟩ : ∃ tick e, d.recordTick = (tick, e) ∧ ChanKept d e ∧ ∀ t, d.tickNow = some t → tick = t := by
    unfold Dev.recordTick
    split
    · next t h => exact ⟨t, d, rfl, .refl d, fun t' h' => by rw [h] at h'; exact Option.some.inj h'⟩
    · next h => exact ⟨_, _, rfl, .freeBits d 16, fun t h' => by rw [h] at h'; contradiction⟩
  unfold chanNote
  rw [hr]
  refine ⟨he.frame.trans (.modChan e c _), tick, faultBlock e c, ht, ?_⟩
  rw [← he.chan c, ← he.frame.wheel]
  exact chan_modChan_self e c _

/-- What a trip leaves of the channel (R209, R210). -/
structure Tripped (c cause : Nat) (base : Int) (turn : BitVec 48) (tickNow : Option Nat) (x y : Chan) : Prop where
  run : y.run = if c < 40 then .bleed else .opening
  after : y.after = .off
  before : y.before = x.run
  causes : y.causes = [(cause, base)]
  pg : y.pg = false
  turn : y.faultTurn = turn
  tick : ∀ t, tickNow = some t → y.faultTick = t
  retry : y.retry = x.retry
  bleedOn : y.bleedOn = false
  eLet : y.eLetRunning = true
  health : y.win = x.win ∧ y.windows = x.windows ∧ y.warn = x.warn ∧ y.alarm = x.alarm ∧ y.healthValid = x.healthValid ∧
    y.overWarn = x.overWarn

theorem chanTrip_kept (d : Dev) (c cause : Nat) (base : Int) : ChanFrame d (chanTrip d c cause base) ∧
    Tripped c cause base d.wheel.turn d.tickNow (d.chan c) ((chanTrip d c cause base).chan c) := by
  have hu := ChanKept.urgentTrigger (chanConv c) c d
  have hp := chanPgOff_frame (urgentTrigger (chanConv c) c d) c
  obtain ⟨w, hpc⟩ := chanPgOff_chan (urgentTrigger (chanConv c) c d) c
  rw [hu.chan] at hpc
  have hf := hu.frame.trans hp
  obtain ⟨hn, tick, b, ht, hnc⟩ := chanNote_kept (chanPgOff (urgentTrigger (chanConv c) c d) c) c
  rw [hpc, hf.wheel] at hnc
  rw [hf.tickNow] at ht
  unfold chanTrip
  generalize chanNote (chanPgOff (urgentTrigger (chanConv c) c d) c) c = e at hn hnc ⊢
  refine ⟨(hf.trans hn).trans (.modChan e c _), ?_⟩
  dsimp only
  rw [chan_modChan_self, hnc]
  exact ⟨rfl, rfl, rfl, rfl, rfl, rfl, ht, rfl, rfl, rfl, rfl, rfl, rfl, rfl, rfl, rfl⟩

section
variable {d : Dev} {c cause : Nat} {base : Int}

theorem chanFound_joins (h : (d.chan c).causes ≠ []) :
    chanFound d c cause base = d.modChan c fun x => { x with causes := (cause, base) :: x.causes } :=
  if_pos (by simpa using h)

theorem chanFound_nothing (h : (d.chan c).causes = []) (hg : (d.chan c).run.gateOn = false) : chanFound d c cause base = d :=
  (if_neg (by simp [h])).trans (if_neg (by simp [hg]))

theorem chanFound_trips (h : (d.chan c).causes = []) (hg : (d.chan c).run.gateOn = true) :
    chanFound d c cause base = chanTrip d c cause base :=
  (if_neg (by simp [h])).trans (if_pos hg)

theorem chanFound_frame (d : Dev) (c cause : Nat) (base : Int) : ChanFrame d (chanFound d c cause base) := by
  unfold chanFound
  dsimp only
  split
  · exact .modChan d c _
  · split
    · exact (chanTrip_kept d c cause base).1
    · exact .refl d
end

/-! ### The record of a fault -/

theorem foldl_lowest (rest : List (Nat × Int)) : ∀ first : Nat × Int, lowestCause first rest ∈ first :: rest ∧
    ∀ k ∈ first :: rest, (lowestCause first rest).1 ≤ k.1 := by
  induction rest with
  | nil => exact fun first => ⟨List.mem_singleton_self _, fun k hk => by rw [List.mem_singleton.1 hk]; exact le_rfl⟩
  | cons b rest ih =>
    intro first
    have hstep : lowestCause first (b :: rest) = lowestCause (if b.1 < first.1 then b else first) rest := rfl
    rw [hstep]
    obtain ⟨hmem, hle⟩ := ih (if b.1 < first.1 then b else first)
    have hhead := hle _ List.mem_cons_self
    constructor
    · split at hmem <;> grind
    · intro k hk
      rcases List.mem_cons.1 hk with rfl | hk
      · split at hhead <;> grind
      · rcases List.mem_cons.1 hk with rfl | hk
        · split at hhead <;> grind
        · exact hle k (List.mem_cons_of_mem _ hk)

theorem chanComplete_kept (d : Dev) (c cause : Nat) (base : Int) (tail : Nat) : ChanFrame d (chanComplete d c cause base tail) ∧
    ∃ b, (chanComplete d c cause base tail).chan c = { d.chan c with
      fault := b, lastCause := cause, causes := [], eBase := base, shown := none } := by
  have hfinish (e : Dev) (he : ChanKept d e) (peak : Nat) (t : Nat) (ev k n : Nat) (h : Word) :
      let f := e.modChan c fun x => { x with
        fault := faultHead e c cause peak ++ zeros 4 ++ leBytes 4 t ++ zeros 4, lastCause := cause, causes := [], eBase := base
        shown := none }
      ChanFrame d ((f.raise ev n h).tally 44 k 1) ∧ ∃ b, ((f.raise ev n h).tally 44 k 1).chan c = { d.chan c with
        fault := b, lastCause := cause, causes := [], eBase := base, shown := none } := by
    intro f
    have hk : ChanKept f ((f.raise ev n h).tally 44 k 1) := (ChanKept.raise _ _ _ _).trans (.tally _ _ _ _)
    refine ⟨(he.frame.trans (.modChan e c _)).trans hk.frame, faultHead e c cause peak ++ zeros 4 ++ leBytes 4 t ++ zeros 4, ?_⟩
    rw [hk.chan, ← he.chan c]
    exact chan_modChan_self e c _
  unfold chanComplete
  dsimp only
  split
  · exact hfinish d (.refl d) ..
  · exact hfinish _ (.freeBits d 16) ..

/-- The retry decision of a recorded cause (R211): `y` is the channel after it. -/
structure Decided (d : Dev) (c cause : Nat) (x y : Chan) : Prop where
  frame : y = { x with after := y.after, waitSitter := y.waitSitter, retry := y.retry }
  stays : x.stopping = true ∨ d.isFenced (chanType c) (chanIndex c) = true → y.after = x.after ∧ y.retry = x.retry
  waits : x.stopping = false → d.isFenced (chanType c) (chanIndex c) = false → cause < (if c < 40 then 10 else 8) →
    x.retry < d.chanRetries c → y.after = .wait ∧ y.retry = x.retry + 1
  locks : x.stopping = false → d.isFenced (chanType c) (chanIndex c) = false → cause < (if c < 40 then 10 else 8) →
    d.chanRetries c ≤ x.retry → y.after = .lockout ∧ y.retry = x.retry
  sitter : x.stopping = false → d.isFenced (chanType c) (chanIndex c) = false → cause = causeSitter c →
    d.seqNaming (d.chanHandle c) = none → y.after = .wait ∧ y.waitSitter = true

theorem causeRetried_iff {c cause : Nat} : causeRetried c cause = true ↔ cause < (if c < 40 then 10 else 8) := by
  unfold causeRetried
  split <;> exact decide_eq_true_iff

theorem causeSitter_notRetried {c cause : Nat} (h : cause < (if c < 40 then 10 else 8)) : cause ≠ causeSitter c := by
  unfold causeSitter
  split at h <;> rename_i hc
  · rw [if_pos hc]
    omega
  · rw [if_neg hc]
    omega

theorem chanDecide_kept (d : Dev) (c cause : Nat) : ChanFrame d (chanDecide d c cause) ∧
    Decided d c cause (d.chan c) ((chanDecide d c cause).chan c) := by
  unfold chanDecide
  dsimp only
  split
  · next h =>
    have h : (d.chan c).stopping = true ∨ d.isFenced (chanType c) (chanIndex c) = true := by simpa using h
    have hno (hs : (d.chan c).stopping = false) (hf : d.isFenced (chanType c) (chanIndex c) = false) : False := by
      simp [hs, hf] at h
    exact ⟨.refl d, rfl, fun _ => ⟨rfl, rfl⟩, fun hs hf => (hno hs hf).elim, fun hs hf => (hno hs hf).elim,
      fun hs hf => (hno hs hf).elim⟩
  next h =>
  have hstays (h' : (d.chan c).stopping = true ∨ d.isFenced (chanType c) (chanIndex c) = true) : False := h (by simpa using h')
  split
  · next hc =>
    have he := ChanKept.endEnables d (d.chanHandle c) .aborted
    have hno (hr : cause < (if c < 40 then 10 else 8)) : False := causeSitter_notRetried hr hc
    split
    · next hq =>
      rw [he.chan]
      refine ⟨he.frame, rfl, fun h' => (hstays h').elim, fun _ _ hr => (hno hr).elim, fun _ _ hr => (hno hr).elim,
        fun _ _ _ hnone => ?_⟩
      rw [Dev.chanInSeq, he.frame.seqNaming, he.frame.chanHandle, hnone] at hq
      contradiction
    · rw [chan_modChan_self, he.chan]
      exact ⟨he.frame.trans (.modChan _ _ _), rfl, fun h' => (hstays h').elim, fun _ _ hr => (hno hr).elim,
        fun _ _ hr => (hno hr).elim, fun _ _ _ _ => ⟨rfl, rfl⟩⟩
  next hc =>
  split
  · next hr =>
    have hno (hlt : cause < (if c < 40 then 10 else 8)) : False := by
      rw [causeRetried_iff.2 hlt] at hr
      contradiction
    exact ⟨.refl d, rfl, fun _ => ⟨rfl, rfl⟩, fun _ _ hlt => (hno hlt).elim, fun _ _ hlt => (hno hlt).elim,
      fun _ _ h' => (hc h').elim⟩
  · split
    · next hlt =>
      rw [chan_modChan_self]
      exact ⟨.modChan d c _, rfl, fun h' => (hstays h').elim, fun _ _ _ _ => ⟨rfl, rfl⟩,
        fun _ _ _ hge => absurd hlt (not_lt.2 hge), fun _ _ h' => (hc h').elim⟩
    · next hge =>
      rw [chan_modChan_self]
      exact ⟨.modChan d c _, rfl, fun h' => (hstays h').elim, fun _ _ _ hlt => absurd hlt hge, fun _ _ _ _ => ⟨rfl, rfl⟩,
        fun _ _ h' => (hc h').elim⟩

/-- What the record of a fault leaves of a channel (R210, R211). -/
structure Recorded (d : Dev) (c : Nat) (k : Nat × Int) (x y : Chan) : Prop where
  fields : y.causes = [] ∧ y.lastCause = k.1 ∧ y.eBase = k.2 ∧ y.run = x.run
  stays : x.stopping = true ∨ d.isFenced (chanType c) (chanIndex c) = true → y.after = x.after ∧ y.retry = x.retry
  waits : x.stopping = false → d.isFenced (chanType c) (chanIndex c) = false → k.1 < (if c < 40 then 10 else 8) →
    x.retry < d.chanRetries c → y.after = .wait ∧ y.retry = x.retry + 1
  locks : x.stopping = false → d.isFenced (chanType c) (chanIndex c) = false → k.1 < (if c < 40 then 10 else 8) →
    d.chanRetries c ≤ x.retry → y.after = .lockout ∧ y.retry = x.retry
  sitter : x.stopping = false → d.isFenced (chanType c) (chanIndex c) = false → k.1 = causeSitter c →
    d.seqNaming (d.chanHandle c) = none → y.after = .wait ∧ y.waitSitter = true

theorem chanRecord_none {d : Dev} {c tail : Nat} (h : (d.chan c).causes = []) : chanRecord d c tail = d := by
  unfold chanRecord
  rw [h]

theorem chanRecord_eq {d : Dev} {c tail : Nat} {first : Nat × Int} {rest : List (Nat × Int)} (h : (d.chan c).causes = first :: rest) :
    chanRecord d c tail = chanDecide (chanComplete d c (lowestCause first rest).1 (lowestCause first rest).2 tail) c
      (lowestCause first rest).1 := by
  unfold chanRecord
  rw [h]

theorem chanRecord_kept {d : Dev} {c tail : Nat} {first : Nat × Int} {rest : List (Nat × Int)}
    (h : (d.chan c).causes = first :: rest) : ChanFrame d (chanRecord d c tail) ∧
      Recorded d c (lowestCause first rest) (d.chan c) ((chanRecord d c tail).chan c) := by
  rw [chanRecord_eq h]
  generalize lowestCause first rest = k
  obtain ⟨hf, b, hx⟩ := chanComplete_kept d c k.1 k.2 tail
  generalize chanComplete d c k.1 k.2 tail = e at hf hx ⊢
  obtain ⟨hdf, frame, stays, waits, locks, sitter⟩ := chanDecide_kept e c k.1
  rw [hf.isFenced, hx] at stays waits locks sitter
  rw [hf.chanRetries] at waits locks
  rw [hf.seqNaming, hf.chanHandle] at sitter
  refine ⟨hf.trans hdf, ?_, stays, waits, locks, sitter⟩
  rw [frame, hx]
  exact ⟨rfl, rfl, rfl, rfl⟩

/-! ### Attempts -/

theorem chanAttempt_chan (d : Dev) (c : Nat) : (chanAttempt d c).chan c = { d.chan c with
    run := if c < 40 then .precharge else .ramp, wantStart := false, waitSitter := false, stopping := false
    attemptPeak := none, retryDue := false, onsets := { power := (d.chan c).onsets.power } } :=
  ((ChanKept.endWaits _ _ _).chan c).trans (chan_modChan_self d c _)

/-- Whether an attempt that is wanted may begin (R213). -/
def mayAttempt (d : Dev) (c : Nat) : Prop :=
  (d.chan c).backfeed = false ∧ d.sitter = false ∧ (d.plane.takeover = false ∨ (d.chan c).run ≠ .wait) ∧
    ((d.chan c).run = .off ∨ (d.chan c).run = .wait ∨ (d.chan c).run = .lockout)

section
variable {d : Dev} {c : Nat}

/-- The test of an attempt, as a proposition. -/
theorem chanWant_eq (d : Dev) (c : Nat) [Decidable (mayAttempt d c)] : chanWant d c =
    if mayAttempt d c then chanAttempt (d.modChan c fun x => { x with wantStart := true }) c
    else d.modChan c fun x => { x with wantStart := true } := by
  unfold chanWant chanTry
  have hm := ChanFrame.modChan d c fun x => { x with wantStart := true }
  have hx := chan_modChan_self d c fun x => { x with wantStart := true }
  dsimp only
  rw [hx, hm.sitter, hm.plane]
  refine if_congr ?_ rfl rfl
  simp only [mayAttempt, Bool.and_eq_true, Bool.or_eq_true, Bool.not_eq_true', Bool.and_eq_false_iff, beq_iff_eq,
    beq_eq_false_iff_ne, true_and, and_assoc, or_assoc, ne_eq]

theorem chanWant_waits (h : ¬mayAttempt d c) : chanWant d c = d.modChan c fun x => { x with wantStart := true } := by
  classical
  rw [chanWant_eq, if_neg h]

theorem chanWant_begins (h : mayAttempt d c) : chanWant d c = chanAttempt (d.modChan c fun x => { x with wantStart := true }) c := by
  classical
  rw [chanWant_eq, if_pos h]

/-! ### The end of a stop -/

theorem chanStopEnds_off (h : (d.chan c).after = .off) : chanStopEnds d c = chanOff d c := by
  unfold chanStopEnds
  rw [h]

theorem chanStopEnds_wait (h : (d.chan c).after = .wait) : chanStopEnds d c =
    if ((d.chan c).waitSitter && !d.sitter) || (!(d.chan c).waitSitter && (d.chan c).retryDue) then
      chanWant (d.modChan c fun x => { x with run := .wait, bleedOn := false }) c
    else d.modChan c fun x => { x with run := .wait, bleedOn := false } := by
  unfold chanStopEnds
  rw [h]
  dsimp only
  rw [chan_modChan_self, (ChanFrame.modChan d c _).sitter]

theorem chanStopEnds_lockout (h : (d.chan c).after = .lockout) : ((chanStopEnds d c).chan c).run = .lockout := by
  unfold chanStopEnds
  rw [h]
  dsimp only
  rw [((ChanKept.raise _ _ _ _).trans (.endEnables _ _ _)).chan, chan_modChan_self]
end

/-- Settles O49, from the record, the attempt and the end of a stop. -/
theorem faultsRetry : Obligations.FaultsRetry := by
  unfold Obligations.FaultsRetry
  refine ⟨fun first rest => foldl_lowest rest first, ?_, ?_, ?_, ?_⟩
  · intro d c tail first rest _ h
    obtain ⟨-, ⟨hc, hl, he, hr⟩, stays, waits, locks, sitter⟩ := chanRecord_kept (tail := tail) h
    exact ⟨hc, hl, he, hr, stays, fun hs hf => ⟨waits hs hf, locks hs hf, sitter hs hf⟩⟩
  · intro d c _ y due
    have hiff : ((d.chan c).waitSitter && !d.sitter || !(d.chan c).waitSitter && (d.chan c).retryDue) = true ↔ due := by
      simp [due]
    exact ⟨chanStopEnds_off, fun h hn => (chanStopEnds_wait h).trans (if_neg (mt hiff.1 hn)),
      fun h hd => (chanStopEnds_wait h).trans (if_pos (hiff.2 hd)), chanStopEnds_lockout⟩
  · intro d c _ hrun
    constructor
    · intro h
      refine chanWant_waits fun ⟨hb, hs, ht, _⟩ => ?_
      rcases h with h | h | ⟨h, hw⟩
      · simp [h] at hs
      · simp [h] at hb
      · simp [h, hw] at ht
    · intro hs hb ht
      dsimp only
      rw [chanWant_begins ⟨hb, hs, ht, hrun⟩, chanAttempt_chan]
      exact ⟨rfl, rfl, rfl, rfl⟩
  · intro d c _
    obtain ⟨w, h⟩ := chanPgOff_chan d c
    exact ⟨chanPgOn_pg d c, by rw [h]⟩
end Sys2Proof.Machine

end

/-! ## Feeds (spec 07) -/

section
/-! PROOF. What each event of a feed does (R201 to R213). -/

namespace Sys2Proof.Machine

/-! ### Events at a tick of the turn -/

section
variable {d : Dev} {t : Nat} {f g : Dev → Dev}

theorem atTick_congr (h : f { d with tickNow := some (t % 65536) } = g { d with tickNow := some (t % 65536) }) :
    d.atTick t f = d.atTick t g := congrArg (fun d : Dev => { d with tickNow := none }) h

theorem atTick_nothing (h : f { d with tickNow := some (t % 65536) } = { d with tickNow := some (t % 65536) }) :
    d.atTick t f = { d with tickNow := none } := congrArg (fun d : Dev => { d with tickNow := none }) h
end

/-! ### The retry of feeds and branches -/

section
variable {d : Dev} {c : Nat}

theorem chanRetryDelay_early
    (h : (d.chan c).waitSitter = true ∨ (d.wheel.turn - (d.chan c).faultTurn).toNat < d.chanRetryTurns c) : chanRetryDelay d c = d :=
  if_pos (by simpa using h)

/-- The delay of a retry has passed since the fault (R211). -/
def retryPast (d : Dev) (c : Nat) : Prop :=
  (d.chan c).waitSitter = false ∧ d.chanRetryTurns c ≤ (d.wheel.turn - (d.chan c).faultTurn).toNat

theorem retryPast_test (h : retryPast d c) :
    ¬((d.chan c).waitSitter || decide ((d.wheel.turn - (d.chan c).faultTurn).toNat < d.chanRetryTurns c)) = true := by
  obtain ⟨hw, hle⟩ := h
  rw [hw, decide_eq_false (not_lt.2 hle)]
  decide

theorem chanRetryDelay_wait (h : retryPast d c) (hr : (d.chan c).run = .wait) : chanRetryDelay d c = chanWant d c := by
  unfold chanRetryDelay
  dsimp only
  rw [if_neg (retryPast_test h), hr]

theorem chanRetryDelay_stop (h : retryPast d c) (hr : (d.chan c).run = .bleed ∨ (d.chan c).run = .opening)
    (ha : (d.chan c).after = .wait) : chanRetryDelay d c = d.modChan c fun x => { x with retryDue := true } := by
  unfold chanRetryDelay
  dsimp only
  rw [if_neg (retryPast_test h)]
  rcases hr with hr | hr <;> rw [hr] <;> exact if_pos ha

theorem chanRetryDelay_nothing (h : retryPast d c)
    (hr : (d.chan c).run ∈ [.off, .precharge, .ramp, .on, .limiting, .lockout]) : chanRetryDelay d c = d := by
  unfold chanRetryDelay
  dsimp only
  rw [if_neg (retryPast_test h)]
  cases hx : (d.chan c).run <;> rw [hx] at hr <;> simp at hr ⊢

theorem chanRetryClear_done (h : d.chanRetryClear c ≤ (d.chan c).pgTurns) :
    chanRetryClear d c = d.modChan c fun x => { x with retry := 0 } := if_pos h

theorem chanRetryClear_early (h : (d.chan c).pgTurns < d.chanRetryClear c) : chanRetryClear d c = d := if_neg (not_le.2 h)
end

/-! ### Conditions of a feed -/

theorem enhanced_iff {r : ChanRun} : r.enhanced = true ↔ r ∈ [.ramp, .on, .limiting] := by cases r <;> decide

theorem idle_iff {r : ChanRun} : r.idle = true ↔ r ∈ [.off, .wait, .lockout] := by cases r <;> decide

section
variable {d : Dev} {n : Nat}

theorem feedFaultTimer_fires {low : Bool} (hr : (d.chan n).effRun ∈ [.ramp, .on, .limiting])
    (ht : startsReach d n (d.chan n).timer (d.feedBank n).tflt = true) : feedFaultTimer n low d =
      chanFound d n (if (d.chan n).effRun = .limiting ∨ (d.chan n).level < 2147483647 then 0x0004 else if low then 0x0008 else 0x0009)
        ((d.chan n).onsets.timer.getD 0) := by
  unfold feedFaultTimer
  dsimp only
  rw [if_pos (by rw [enhanced_iff.2 hr, ht]; rfl)]
  refine congrArg (fun k => chanFound d n k _) (if_congr ?_ rfl rfl)
  rw [Bool.or_eq_true, beq_iff_eq, decide_eq_true_iff]

theorem feedFaultTimer_nothing {low : Bool}
    (h : (d.chan n).effRun ∉ [.ramp, .on, .limiting] ∨ startsReach d n (d.chan n).timer (d.feedBank n).tflt = false) :
    feedFaultTimer n low d = d := by
  refine if_neg fun hb => ?_
  obtain ⟨hr, ht⟩ := Bool.and_eq_true_iff.1 hb
  rcases h with h | h
  · exact h (enhanced_iff.1 hr)
  · rw [ht] at h
    contradiction

theorem feedBackstop_fires (hg : (d.chan n).effRun.gateOn = true) (ht : startsReach d n (d.chan n).backstop 20 = true) :
    feedBackstop n d = chanFound d n 0x0003 ((d.chan n).onsets.slow.getD 0) := if_pos (by rw [hg, ht]; rfl)

theorem feedBackstop_nothing (h : (d.chan n).effRun.gateOn = false ∨ startsReach d n (d.chan n).backstop 20 = false) :
    feedBackstop n d = d := if_neg (by rcases h with h | h <;> rw [h] <;> simp)

theorem feedPowerLimit_fires (hg : (d.chan n).effRun.gateOn = true) (ht : (d.feedBank n).tpwr ≤ (d.chan n).powerTurns) :
    feedPowerLimit n d = chanFound d n 0x0006 ((some ((d.chan n).onsets.power.getD 0 + (d.chan n).acc.energy)).getD 0) :=
  if_pos (by rw [hg, decide_eq_true ht]; rfl)

theorem feedPowerLimit_nothing (h : (d.chan n).effRun.gateOn = false ∨ (d.chan n).powerTurns < (d.feedBank n).tpwr) :
    feedPowerLimit n d = d := by
  refine if_neg fun hb => ?_
  obtain ⟨hg, ht⟩ := Bool.and_eq_true_iff.1 hb
  rcases h with h | h
  · rw [hg] at h
    contradiction
  · exact absurd (of_decide_eq_true ht) (not_le.2 h)

theorem feedPgConfirm_ramp (h : (d.chan n).run = .ramp) :
    feedPgConfirm n d = chanPgOn (d.modChan n fun x => { x with run := .on }) n := by
  unfold feedPgConfirm
  rw [h]

theorem feedPgConfirm_on (h : (d.chan n).run = .on ∨ (d.chan n).run = .limiting) :
    feedPgConfirm n d = chanPgOn d n ∧ feedPgLoss n d = chanPgOff d n := by
  unfold feedPgConfirm feedPgLoss
  rcases h with h | h <;> rw [h] <;> exact ⟨rfl, rfl⟩

theorem feedPgLoss_nothing (ho : (d.chan n).run ≠ .on) (hl : (d.chan n).run ≠ .limiting) : feedPgLoss n d = d := by
  unfold feedPgLoss
  split
  · exact absurd (by assumption) ho
  · exact absurd (by assumption) hl
  · rfl

theorem feedPgConfirm_nothing (hr : (d.chan n).run ≠ .ramp) (ho : (d.chan n).run ≠ .on) (hl : (d.chan n).run ≠ .limiting) :
    feedPgConfirm n d = d := by
  unfold feedPgConfirm
  split
  · exact absurd (by assumption) hr
  · exact absurd (by assumption) ho
  · exact absurd (by assumption) hl
  · rfl

theorem feedBleedEnd_bleed (h : (d.chan n).run = .bleed) : feedBleedEnd n d = chanStopEnds (chanRecord d n (d.feedEattUj n)) n :=
  if_pos h

theorem feedBleedEnd_nothing (h : (d.chan n).run ≠ .bleed) : feedBleedEnd n d = d := if_neg h

/-- A feed that no SEQUENCE names is noted alone (R213). -/
theorem feedBackfeed_kept (hn : n < 40) (hr : (d.chan n).run ∈ [.off, .wait, .lockout]) :
    (feedBackfeed n d).chan n = { d.chan n with backfeed := true, overThisTurn := true } ∧ ChanFrame d (feedBackfeed n d) ∧
      feedBackfeed n d = { d with
        feeds := (feedBackfeed n d).feeds, host := (feedBackfeed n d).host, tal := (feedBackfeed n d).tal
        sag := (feedBackfeed n d).sag, onceTurn := (feedBackfeed n d).onceTurn } := by
  rw [show feedBackfeed n d = _ from if_pos (idle_iff.2 hr)]
  have hm := ChanFrame.modChan d n fun x => { x with backfeed := true, overThisTurn := true }
  have hx := chan_modChan_self d n fun x => { x with backfeed := true, overThisTurn := true }
  have hfeeds : (d.modChan n fun x => { x with backfeed := true, overThisTurn := true }) = { d with
      feeds := (d.modChan n fun x => { x with backfeed := true, overThisTurn := true }).feeds } := by
    unfold Dev.modChan
    rw [if_pos hn]
  generalize (d.modChan n fun x => { x with backfeed := true, overThisTurn := true }) = e at hm hx hfeeds ⊢
  have hk := ChanKept.raiseOnceTurn e (0x0505 * 4096 + n) 0x0505 (d.chanVolt16 n) (d.chanHandle n)
  refine ⟨(hk.chan n).trans hx, hm.trans hk.frame, ?_⟩
  have hf := raiseOnceTurn_frame e (0x0505 * 4096 + n) 0x0505 (d.chanVolt16 n) (d.chanHandle n)
  generalize Dev.raiseOnceTurn e (0x0505 * 4096 + n) 0x0505 (d.chanVolt16 n) (d.chanHandle n) = r at hf ⊢
  rw [hf, hfeeds]

theorem seqBackfeed_unnamed {h : Word} (hq : d.seqNaming h = none) : seqBackfeed d h = d := by
  unfold seqBackfeed
  rw [hq]
end

/-- A feed that a cause is found on (R210). -/
theorem chanFound_trips_chan {d : Dev} {c cause : Nat} {base : Int} (h : (d.chan c).causes = []) (hg : (d.chan c).run.gateOn = true) :
    Tripped c cause base d.wheel.turn d.tickNow (d.chan c) ((chanFound d c cause base).chan c) := by
  rw [chanFound_trips h hg]
  exact (chanTrip_kept d c cause base).2

/-- A command on one unit answers what its function gives. -/
theorem answersAt {c : Instr} {s : State} {lim n : Nat} {f : Dev → Dev} {e : Dev} (hn : n < lim)
    (hc : exec c s = s.onDevAt lim n fun _ => f) (h : f s.dev = e) : Answers c s e := h ▸ hc.trans (onDevAt_lt s _ hn)

/-- Settles O48: each event is its model function, whose branches the conditions pick. -/
theorem feedEvents : Obligations.FeedEvents := by
  unfold Obligations.FeedEvents
  constructor
  · intro s n tick hn x found nothing
    refine ⟨fun h => answersAt hn rfl (if_pos h), fun h => answersAt hn rfl (if_neg h),
      fun h => answersAt hn rfl (atTick_congr (if_pos h)), fun h => answersAt hn rfl (atTick_nothing (if_neg h)),
      fun h => answersAt hn rfl (feedPgConfirm_ramp h),
      fun h => ⟨answersAt hn rfl (feedPgConfirm_on h).1, answersAt hn rfl (feedPgConfirm_on h).2⟩,
      fun hr ho hl => answersAt hn rfl (feedPgConfirm_nothing hr ho hl), fun ho hl => answersAt hn rfl (feedPgLoss_nothing ho hl),
      fun low h => answersAt hn rfl (atTick_congr (if_pos h)), fun low h => answersAt hn rfl (atTick_nothing (if_neg h)),
      answersAt hn rfl rfl, answersAt hn rfl rfl, answersAt hn rfl rfl,
      fun low hr ht => answersAt hn rfl (atTick_congr (feedFaultTimer_fires hr ht)),
      fun low h => answersAt hn rfl (atTick_nothing (feedFaultTimer_nothing h)),
      fun hg ht => answersAt hn rfl (atTick_congr (feedBackstop_fires hg ht)),
      fun h => answersAt hn rfl (atTick_nothing (feedBackstop_nothing h)),
      fun hg ht => answersAt hn rfl (atTick_congr (feedPowerLimit_fires hg ht)),
      fun h => answersAt hn rfl (atTick_nothing (feedPowerLimit_nothing h)),
      fun h => answersAt hn rfl (chanRecord_none h), fun _ => answersAt hn rfl rfl,
      fun hr hb => answersAt hn rfl (if_pos ⟨hr, hb⟩), fun h => answersAt hn rfl (if_neg ?_),
      fun hr hc => answersAt hn rfl (congrArg settle ?_), fun hr _ => answersAt hn rfl (congrArg settle (feedBleedEnd_bleed hr)),
      fun h => answersAt hn rfl (congrArg settle (feedBleedEnd_nothing h)), fun hr hl => answersAt hn rfl (if_pos ⟨hr, hl⟩),
      fun h => answersAt hn rfl (if_neg ?_), fun h => answersAt hn rfl (if_neg (mt idle_iff.1 h)), fun hr hq => ?_, ?_,
      fun h => answersAt hn rfl (chanRetryClear_done h), fun h => answersAt hn rfl (chanRetryClear_early h)⟩
    · rintro ⟨hr, hb⟩
      rcases h with h | h
      · exact h hr
      · exact absurd (hb.symm.trans h) (by decide)
    · rw [feedBleedEnd_bleed hr, chanRecord_none hc]
    · rintro ⟨hr, hl⟩
      rcases h with h | h
      · exact h hr
      · exact absurd (hl.symm.trans h) (by decide)
    · obtain ⟨hx, hframe, heq⟩ := feedBackfeed_kept hn hr
      have hnamed : (feedBackfeed n s.dev).seqNaming (s.dev.handleOf tFeed n) = none := by
        rw [hframe.seqNaming, ← hq]
        unfold Dev.chanHandle chanType chanIndex
        rw [if_pos hn, if_pos hn]
      exact ⟨_, answersAt hn rfl ((if_pos (idle_iff.2 hr)).trans (seqBackfeed_unnamed hnamed)), hx, heq⟩
    · refine ⟨fun h => answersAt hn rfl (chanRetryDelay_early h), fun hw hle => ⟨fun h => ?_, fun h ha => ?_, fun h => ?_⟩⟩
      · exact answersAt hn rfl (chanRetryDelay_wait ⟨hw, hle⟩ h)
      · exact answersAt hn rfl (chanRetryDelay_stop ⟨hw, hle⟩ (.inl h) ha)
      · exact answersAt hn rfl (chanRetryDelay_nothing ⟨hw, hle⟩ h)
  · intro d c cause base _
    refine ⟨chanFound_joins, chanFound_nothing, fun h hg => ?_⟩
    obtain ⟨hrun, hafter, hbefore, hcauses, hpg, hturn, htick, hretry, hbleed, hlet, -⟩ := chanFound_trips_chan h hg
    exact ⟨hrun, hafter, hbefore, hcauses, hpg, hturn, htick, hretry, hbleed, hlet⟩
end Sys2Proof.Machine

end

/-! ## Prime branches (spec 08) -/

section
/-! PROOF. What each event of a branch does: the estimator, the fault's copy, the health windows and their levels. -/

namespace Sys2Proof.Machine

theorem armed_iff {r : ChanRun} : r.armed = true ↔ r ∈ [.ramp, .on] := by cases r <;> decide

/-! ### Trips (R234, R235) -/

section
variable {d : Dev} {n : Nat}

/-- The mark of a trip in the channel, before the cause is found. -/
def Chan.tripNoted (x : Chan) : Chan := { x with onsetTrip := true, acc := { x.acc with limited := true } }

theorem branchTrip_armed {cause : Nat} (h : (d.chan (40 + n)).effRun ∈ [.ramp, .on]) : branchTrip n cause d =
    chanFound (d.modChan (40 + n) Chan.tripNoted) (40 + n) cause ((d.chan (40 + n)).onsets.timer.getD 0) :=
  if_pos (armed_iff.2 h)

theorem branchTrip_nothing {cause : Nat} (h : (d.chan (40 + n)).effRun ∉ [.ramp, .on]) : branchTrip n cause d = d :=
  if_neg (mt armed_iff.1 h)

theorem branchOvReverse_armed {reverse : Bool} (h : (d.chan (40 + n)).effRun ∈ [.ramp, .on]) : branchOvReverse n reverse d =
    if reverse then chanFound d (40 + n) 0x0004 ((d.chan (40 + n)).onsets.rev.getD 0)
    else chanFound d (40 + n) 0x0003 ((d.chan (40 + n)).onsets.ov.getD 0) :=
  if_neg (by simp [armed_iff.2 h])

theorem branchOvReverse_nothing {reverse : Bool} (h : (d.chan (40 + n)).effRun ∉ [.ramp, .on]) : branchOvReverse n reverse d = d :=
  if_pos (by rw [Bool.eq_false_iff.2 (mt armed_iff.1 h)]; rfl)

theorem branchBackstop_fires (hr : (d.chan (40 + n)).effRun = .ramp)
    (ht : startsReach d (40 + n) (d.chan (40 + n)).backstop 20 = true) :
    branchBackstop n d = chanFound d (40 + n) 0x0005 ((d.chan (40 + n)).onsets.slow.getD 0) :=
  if_pos (by rw [hr, ht]; rfl)

theorem branchBackstop_nothing
    (h : (d.chan (40 + n)).effRun ≠ .ramp ∨ startsReach d (40 + n) (d.chan (40 + n)).backstop 20 = false) : branchBackstop n d = d := by
  refine if_neg fun hb => ?_
  obtain ⟨hr, ht⟩ := Bool.and_eq_true_iff.1 hb
  rcases h with h | h
  · exact h (eq_of_beq hr)
  · rw [ht] at h
    contradiction

theorem branchPgConfirm_ramp (h : (d.chan (40 + n)).run = .ramp) : branchPgConfirm n d =
    chanPgOn (d.modChan (40 + n) fun x => { x with run := .on, level := 2147483647, acc := { x.acc with notOn := true } })
      (40 + n) := by
  unfold branchPgConfirm
  rw [h]

theorem branchPgConfirm_on (h : (d.chan (40 + n)).run = .on) : branchPgConfirm n d = chanPgOn d (40 + n) := by
  unfold branchPgConfirm
  rw [h]

theorem branchPgConfirm_nothing (hr : (d.chan (40 + n)).run ≠ .ramp) (ho : (d.chan (40 + n)).run ≠ .on) :
    branchPgConfirm n d = d := by
  unfold branchPgConfirm
  split
  · exact absurd (by assumption) hr
  · exact absurd (by assumption) ho
  · rfl

/-! ### The end of an onset (R234) -/

theorem raiseOnceTurn_mem (d : Dev) (key code detail : Nat) (h : Word) : key ∈ (d.raiseOnceTurn key code detail h).onceTurn := by
  unfold Dev.raiseOnceTurn
  split
  · next hc => exact List.contains_iff_mem.1 hc
  · have hf := raise_frame { d with onceTurn := key :: d.onceTurn } code detail h
    rw [congrArg Dev.onceTurn hf]
    exact List.mem_cons_self

/-- The channel once its onset has ended. -/
def Chan.onsetOver (x : Chan) : Chan := { x with onset := false, onsetTrip := false, e := 0, onsetPeak := 0 }

theorem branchOnsetReset_kept (d : Dev) (n : Nat) :
    let e := branchOnsetReset n d
    e.chan (40 + n) = (d.chan (40 + n)).onsetOver ∧ e.branches = (d.modChan (40 + n) Chan.onsetOver).branches ∧
      ((d.chan (40 + n)).onsetTrip = false → 0x0604 * 4096 + n ∈ e.onceTurn) ∧
      ((d.chan (40 + n)).onsetTrip = true → e.host = d.host) := by
  obtain ⟨peak, fresh, hp⟩ : ∃ peak fresh, (if (d.chan (40 + n)).onset then
      (fitU 16 (currentOf d (40 + n) 1 (d.chan (40 + n)).onsetPeak), d) else d.freeBits 16) = (peak, { d with fresh := fresh }) := by
    split
    · exact ⟨_, d.fresh, rfl⟩
    · exact ⟨_, _, rfl⟩
  have hself := chan_modChan_self { d with fresh := fresh } (40 + n) Chan.onsetOver
  have hbranches : (({ d with fresh := fresh } : Dev).modChan (40 + n) Chan.onsetOver).branches =
      (d.modChan (40 + n) Chan.onsetOver).branches := by
    unfold Dev.modChan
    split <;> rfl
  unfold branchOnsetReset
  dsimp only
  rw [hp]
  dsimp only
  cases ht : (d.chan (40 + n)).onsetTrip
  · rw [if_pos (by decide)]
    have hk := ChanKept.raiseOnceTurn (({ d with fresh := fresh } : Dev).modChan (40 + n) Chan.onsetOver) (0x0604 * 4096 + n) 0x0604
      peak ((({ d with fresh := fresh } : Dev).modChan (40 + n) Chan.onsetOver).chanHandle (40 + n))
    exact ⟨(hk.chan _).trans hself, hk.branches.trans hbranches, fun _ => raiseOnceTurn_mem .., fun h => absurd h (by decide)⟩
  · rw [if_neg (by decide)]
    refine ⟨hself, hbranches, fun h => absurd h (by decide), fun _ => ?_⟩
    unfold Dev.modChan
    split <;> rfl

/-! ### The record of a fault and its copy (R239, R240) -/

theorem branchRecord_stored {first : Nat × Int} {rest : List (Nat × Int)} (h : (d.chan (40 + n)).causes = first :: rest) :
    branchRecord n d = branchStore n (chanRecord d (40 + n) (d.branchEtripUj n)) :=
  if_neg (by simp [h])

theorem branchStore_kept (d : Dev) (n : Nat) :
    let e := branchStore n d
    e.chan (40 + n) = d.chan (40 + n) ∧ (tget {} e.kiln.branches n).count = satAdd 8 (tget {} d.kiln.branches n).count 1 ∧
      (tget {} e.kiln.branches n).newer = faultBlock e (40 + n) := by
  have hcopy : tget {} (branchStore n d).kiln.branches n = (tget {} d.kiln.branches n).write (faultBlock d (40 + n)) :=
    tget_tmod_self {} d.kiln.branches n fun c => c.write (faultBlock d (40 + n))
  refine ⟨rfl, congrArg Copies.count hcopy, ?_⟩
  rw [hcopy]
  rfl
end

/-! ### Health windows (R241, R242) -/

/-- What the levels and the trips of a channel leave, or change, of its health. -/
def Chan.levels (x : Chan) : RippleWin × Nat × Bool × Bool × Bool × Nat :=
  (x.win, x.windows, x.healthValid, x.warn, x.alarm, x.overWarn)

theorem chanFound_levels (d : Dev) (c cause : Nat) (base : Int) : ((chanFound d c cause base).chan c).levels = (d.chan c).levels := by
  by_cases h : (d.chan c).causes = []
  · cases hg : (d.chan c).run.gateOn
    · rw [chanFound_nothing h hg]
    · obtain ⟨hwin, hwindows, hwarn, halarm, hvalid, hover⟩ := (chanFound_trips_chan (cause := cause) (base := base) h hg).health
      unfold Chan.levels
      rw [hwin, hwindows, hwarn, halarm, hvalid, hover]
  · rw [chanFound_joins h, chan_modChan_self]
    rfl

/-- The levels of a branch after a valid window of resistance `r` (R243). -/
theorem healthLevels_levels {d : Dev} {n base tBase : Nat} {r : Int} (hb : d.baseline n = some (base, tBase)) :
    let x := d.chan (40 + n)
    let b := d.branchBank n
    let lvl (pct : Nat) : Int := base * (100 + pct) + 100 * b.riseAbs
    let w := levelStep b.confirm (decide (lvl b.risePct < 100 * r)) (decide (100 * r < lvl b.risePct)) x.overWarn x.underWarn x.warn
    let a := levelStep b.confirm (decide (lvl b.alarmPct < 100 * r)) (decide (100 * r < lvl b.alarmPct)) x.overAlarm x.underAlarm
      x.alarm
    ((healthLevels d n r).chan (40 + n)).levels = (x.win, x.windows, x.healthValid, w.2.2, a.2.2, w.1) := by
  intro x b lvl w a
  unfold healthLevels
  rw [hb]
  dsimp only
  have hm : ((d.modChan (40 + n) fun x => { x with
      overWarn := w.1, underWarn := w.2.1, warn := w.2.2, overAlarm := a.1, underAlarm := a.2.1, alarm := a.2.2 }).chan
      (40 + n)).levels = (x.win, x.windows, x.healthValid, w.2.2, a.2.2, w.1) := by
    rw [chan_modChan_self]
    rfl
  have hstop (p : Bool) (e : Dev) (k : Nat) (h : (e.chan (40 + n)).levels = (x.win, x.windows, x.healthValid, w.2.2, a.2.2, w.1)) :
      ((if p then chanFound e (40 + n) k 0 else e).chan (40 + n)).levels = (x.win, x.windows, x.healthValid, w.2.2, a.2.2, w.1) := by
    split
    · rw [chanFound_levels, h]
    · exact h
  have hraised (e : Dev) (k : Nat) (h : Word) : ((e.raise 0x0605 k h).chan (40 + n)).levels = (e.chan (40 + n)).levels := by
    rw [(ChanKept.raise _ _ _ _).chan]
  refine hstop _ _ _ ?_
  split
  · exact (hraised ..).trans hm
  · split
    · exact (hraised ..).trans hm
    · split
      · exact (hraised ..).trans hm
      · exact hm

theorem baselineStep_levels (d : Dev) (n : Nat) (r t : Int) :
    ((baselineStep d n r t).chan (40 + n)).levels = (d.chan (40 + n)).levels := by
  unfold baselineStep
  dsimp only
  split
  · rfl
  · split
    · rw [chan_modChan_self]
      rfl
    · rw [(ChanKept.raise _ _ _ _).chan]
      exact (congrArg Chan.levels (chan_modChan_self d (40 + n) fun x => { x with baseSum := [] }) :)

/-- The window, the count of windows and their validity after the levels of a window. -/
theorem healthLevels_windows (d : Dev) (n : Nat) (r : Int) : ((healthLevels d n r).chan (40 + n)).win = (d.chan (40 + n)).win ∧
    ((healthLevels d n r).chan (40 + n)).windows = (d.chan (40 + n)).windows ∧
    ((healthLevels d n r).chan (40 + n)).healthValid = (d.chan (40 + n)).healthValid := by
  cases hb : d.baseline n with
  | none =>
    unfold healthLevels
    rw [hb]
    exact ⟨rfl, rfl, rfl⟩
  | some b =>
    have h := healthLevels_levels (r := r) (hb : d.baseline n = some (b.1, b.2))
    exact ⟨congrArg (·.1) h, congrArg (·.2.1) h, congrArg (·.2.2.1) h⟩

theorem healthWindow_early {d : Dev} {n : Nat}
    (h : bcHealth (d.slot tBranch n).cfg = false ∨ (d.chan (40 + n)).win.turns < (d.branchBank n).avg) : healthWindow n d = d :=
  if_pos (by simpa using h)

theorem splice_ne_nil (bs new : List Byte) (off : Nat) (h : new ≠ []) : splice bs new off ≠ [] := by
  unfold splice
  simp [h]

/-- The flags of a health block are its second byte. -/
theorem healthBytes_flags (fl ripple rOut rRet rBase loop tBase : Nat) (turn : BitVec 48) (windows : Nat) :
    byteField (healthBytes fl ripple rOut rRet rBase loop tBase turn windows) 1 1 = fl % 256 := by
  simp [byteField, healthBytes, ofLe]

/-- The bytes of a valid window, whose branch stands as `y` does (Table 8.10). -/
def windowBytes (y : Chan) (comp ret : Bool) (ripple rOut rRet loop : Nat) (turn : BitVec 48) : List Byte :=
  healthBytes (1 + b2n y.warn * 4 + b2n y.alarm * 8 + b2n comp * 32 + b2n ret * 64) ripple rOut rRet 0 loop 0 turn 0

theorem windowBytes_flags (y : Chan) (comp ret : Bool) (ripple rOut rRet loop : Nat) (turn : BitVec 48) :
    byteField (windowBytes y comp ret ripple rOut rRet loop turn) 1 1 % 4 = 1 := by
  unfold windowBytes
  rw [healthBytes_flags]
  omega

theorem windowBytes_ne_nil (y : Chan) (comp ret : Bool) (ripple rOut rRet loop : Nat) (turn : BitVec 48) :
    windowBytes y comp ret ripple rOut rRet loop turn ≠ [] := by
  unfold windowBytes healthBytes
  simp

/-- The device after a valid window of a branch. -/
def validWindow (n : Nat) (r t v : Int) (k : Nat) (b : List Byte) (d : Dev) : Dev :=
  let l := baselineStep (d.modChan (40 + n) fun x => { x with windows := satAdd 16 x.windows 1, healthValid := true }) n r t
  (witValue (l.chanHandle (40 + n)) 0x19 0 v k false (healthLevels l n r)).modChan (40 + n) fun x => { x with health := b }

/-- What a window does once its channel is renewed: the baseline, the levels, the Witness, and the block's bytes (R242, R243). -/
theorem validWindow_kept (d : Dev) (n : Nat) (r t v : Int) (k : Nat) (b : List Byte) :
    let y := (validWindow n r t v k b d).chan (40 + n)
    y.win = (d.chan (40 + n)).win ∧ y.windows = satAdd 16 (d.chan (40 + n)).windows 1 ∧ y.healthValid = true ∧ y.health = b := by
  intro y
  let m := d.modChan (40 + n) fun x => { x with windows := satAdd 16 x.windows 1, healthValid := true }
  let l := baselineStep m n r t
  let e := witValue (l.chanHandle (40 + n)) 0x19 0 v k false (healthLevels l n r)
  have hm : m.chan (40 + n) = { d.chan (40 + n) with windows := satAdd 16 (d.chan (40 + n)).windows 1, healthValid := true } :=
    chan_modChan_self d (40 + n) _
  have hl : (l.chan (40 + n)).levels = (m.chan (40 + n)).levels := baselineStep_levels m n r t
  obtain ⟨hwin, hwindows, hvalid⟩ := healthLevels_windows l n r
  have he : e.chan (40 + n) = (healthLevels l n r).chan (40 + n) := (ChanKept.witValue ..).chan _
  have hy : y = { e.chan (40 + n) with health := b } := chan_modChan_self e (40 + n) _
  rw [hm] at hl
  rw [hy, he]
  exact ⟨hwin.trans (congrArg (·.1) hl), hwindows.trans (congrArg (·.2.1) hl), hvalid.trans (congrArg (·.2.2.1) hl), rfl⟩

/-- What a closed window leaves of its channel (R242). -/
theorem healthWindow_closed {d : Dev} {n : Nat} (hb : bcHealth (d.slot tBranch n).cfg = true)
    (hle : (d.branchBank n).avg ≤ (d.chan (40 + n)).win.turns) :
    let x := d.chan (40 + n)
    let e := healthWindow n d
    let y := e.chan (40 + n)
    y.win = {} ∧ y.health ≠ [] ∧
      (2 * x.win.used < x.win.turns → y.windows = x.windows ∧ y.warn = x.warn ∧ y.alarm = x.alarm ∧ y.healthValid = x.healthValid ∧
        e.kiln = d.kiln) ∧
      (x.win.turns ≤ 2 * x.win.used → y.windows = satAdd 16 x.windows 1 ∧ y.healthValid = true ∧ byteField y.health 1 1 % 4 = 1) := by
  intro x e y
  have hgo : ¬(!bcHealth (d.slot tBranch n).cfg || decide ((d.chan (40 + n)).win.turns < (d.branchBank n).avg)) = true := by
    rw [hb, decide_eq_false (not_lt.2 hle)]
    decide
  by_cases hu : 2 * x.win.used < x.win.turns
  · obtain ⟨b, hbne, he⟩ : ∃ b : List Byte, b ≠ [] ∧ e = Dev.raise ((d.modChan (40 + n) fun x => { x with win := {} }).modChan (40 + n)
        fun x => { x with health := b }) 0x0605 3 (((d.modChan (40 + n) fun x => { x with win := {} }).modChan (40 + n)
        fun x => { x with health := b }).chanHandle (40 + n)) :=
      ⟨_, splice_ne_nil _ _ _ (List.cons_ne_nil _ _), (if_neg hgo).trans (if_pos hu)⟩
    have hy : y = { x with win := {}, health := b } := by
      show e.chan (40 + n) = _
      rw [he, (ChanKept.raise _ _ _ _).chan, chan_modChan_self, chan_modChan_self]
    have hk : e.kiln = d.kiln := by
      rw [he]
      exact (((ChanFrame.modChan _ _ _).trans (.modChan _ _ _)).trans (ChanKept.raise _ _ _ _).frame).kiln
    rw [hy]
    exact ⟨rfl, hbne, fun _ => ⟨rfl, rfl, rfl, rfl, hk⟩, fun h => absurd hu (not_lt.2 h)⟩
  · obtain ⟨r, t, v, k, b, hflags, hne, he⟩ : ∃ (r t v : Int) (k : Nat) (b : List Byte), byteField b 1 1 % 4 = 1 ∧ b ≠ [] ∧
        e = validWindow n r t v k b (d.modChan (40 + n) fun x => { x with win := {} }) :=
      ⟨_, _, _, _, _, windowBytes_flags .., windowBytes_ne_nil _ _ _ _ _ _ _ _, (if_neg hgo).trans (if_neg hu)⟩
    obtain ⟨hwin, hwindows, hvalid, hhealth⟩ := validWindow_kept (d.modChan (40 + n) fun x => { x with win := {} }) n r t v k b
    rw [← he, chan_modChan_self] at hwin hwindows
    rw [← he] at hvalid hhealth
    refine ⟨hwin, fun h => hne (hhealth.symm.trans h), fun h => absurd h hu, fun _ => ⟨hwindows, hvalid, ?_⟩⟩
    rw [show y.health = b from hhealth]
    exact hflags

theorem branchWindow_early {d : Dev} {n : Nat}
    (h : bcHealth (d.slot tBranch n).cfg = false ∨ (d.chan (40 + n)).win.turns < (d.branchBank n).avg) : branchWindow n d =
      if (d.chan (40 + n)).health.isEmpty then d else d.publish (d.chanHandle (40 + n)) 2 (branchHealthBlock d n) := by
  unfold branchWindow
  rw [healthWindow_early h]

theorem branchWindow_published {d : Dev} {n : Nat} (h : ((healthWindow n d).chan (40 + n)).health ≠ []) : branchWindow n d =
    (healthWindow n d).publish ((healthWindow n d).chanHandle (40 + n)) 2 (branchHealthBlock (healthWindow n d) n) :=
  if_neg (by simpa using h)

/-- A turn whose ripple is too weak is counted alone (R242). -/
theorem windowAdd_weak (w : RippleWin) {ok : Bool} {ripMin dur : Nat} {i o r : Cx × Cx}
    (h : ok = false ∨ ¬((ripMin * 1000000) ^ 2 ≤ i.1.sq ∨ (ripMin * 1000000) ^ 2 ≤ i.2.sq)) :
    w.add ok ripMin dur i o r = { w with turns := w.turns + 1 } := by
  refine if_neg fun hb => ?_
  obtain ⟨hok, hs⟩ := Bool.and_eq_true_iff.1 hb
  rcases h with h | h
  · rw [hok] at h
    contradiction
  · rw [Bool.or_eq_true, decide_eq_true_iff, decide_eq_true_iff] at hs
    exact h hs

theorem windowAdd_strong (w : RippleWin) {ok : Bool} {ripMin dur : Nat} {i o r : Cx × Cx} (hok : ok = true)
    (h : (ripMin * 1000000) ^ 2 ≤ i.1.sq ∨ (ripMin * 1000000) ^ 2 ≤ i.2.sq) :
    (w.add ok ripMin dur i o r).used = w.used + 1 ∧ (w.add ok ripMin dur i o r).turns = w.turns + 1 ∧
      (w.add ok ripMin dur i o r).w = w.w + i.1.sq + i.2.sq := by
  unfold RippleWin.add
  dsimp only
  have hs : (ok && (decide ((ripMin * 1000000) ^ 2 ≤ i.1.sq) || decide ((ripMin * 1000000) ^ 2 ≤ i.2.sq))) = true := by
    rw [hok, Bool.true_and, Bool.or_eq_true, decide_eq_true_iff, decide_eq_true_iff]
    exact h
  rw [if_pos hs]
  exact ⟨rfl, rfl, rfl⟩

/-! ### The prediction of the estimator (R235) -/

theorem branchEnergyTrip_fires {d : Dev} {n uj mv : Nat} {ma slope : Int} (h : branchPredicts d n uj mv ma slope = true) :
    branchEnergyTrip n uj mv ma slope d = branchTrip n 0x0002 d := if_pos h

theorem branchEnergyTrip_nothing {d : Dev} {n uj mv : Nat} {ma slope : Int}
    (h : (d.chan (40 + n)).effRun ∉ [.ramp, .on] ∨ branchPredicts d n uj mv ma slope = false) :
    branchEnergyTrip n uj mv ma slope d = d := by
  rcases h with h | h
  · unfold branchEnergyTrip
    rw [branchTrip_nothing h, ite_self]
  · exact if_neg (by rw [h]; decide)

/-- The prediction does not depend on the tick. -/
theorem branchPredicts_tick (d : Dev) (t : Option Nat) (n uj mv : Nat) (ma slope : Int) :
    branchPredicts { d with tickNow := t } n uj mv ma slope = branchPredicts d n uj mv ma slope := rfl

/-- A level that is not exceeded stays withdrawn. -/
theorem levelStep_below {confirm : Nat} (h : 0 < confirm) (below : Bool) (o u : Nat) :
    (levelStep confirm false below o u false).1 = 0 ∧ (levelStep confirm false below o u false).2.2 = false := by
  simp [levelStep, h.ne']

/-- Settles O50: each event is its model function; the record and the windows by what they leave of the channel. -/
theorem branchEvents : Obligations.BranchEvents := by
  unfold Obligations.BranchEvents
  refine ⟨?_, fun w ok ripMin dur i o r => ⟨windowAdd_weak w, windowAdd_strong w⟩, ?_, ?_, ?_⟩
  · intro s n tick hn c x nothing note
    refine ⟨?_, fun h => ⟨answersAt hn rfl (atTick_congr (branchTrip_armed h)), answersAt hn rfl (atTick_congr (branchOvReverse_armed h)),
      answersAt hn rfl (atTick_congr (branchOvReverse_armed h))⟩,
      fun h => ⟨answersAt hn rfl (atTick_nothing (branchTrip_nothing h)), fun _ =>
        answersAt hn rfl (atTick_nothing (branchOvReverse_nothing h))⟩,
      ⟨_, answersAt hn rfl rfl, branchOnsetReset_kept s.dev n⟩,
      fun low h => answersAt hn rfl (atTick_congr (if_pos h)), fun low h => answersAt hn rfl (atTick_nothing (if_neg h)),
      fun h => answersAt hn rfl (congrArg settle (if_pos h)), fun h => answersAt hn rfl (congrArg settle (if_neg h)),
      fun h => answersAt hn rfl (branchPgConfirm_ramp h),
      fun h => ⟨answersAt hn rfl (branchPgConfirm_on h), answersAt hn rfl (if_pos h)⟩,
      fun hr ho => answersAt hn rfl (branchPgConfirm_nothing hr ho), fun h => answersAt hn rfl (if_neg h),
      fun hr ht => answersAt hn rfl (atTick_congr (branchBackstop_fires hr ht)),
      fun h => answersAt hn rfl (atTick_nothing (branchBackstop_nothing h)), ?_,
      fun h => answersAt hn rfl (chanRetryClear_done h), fun h => answersAt hn rfl (chanRetryClear_early h),
      fun h => ⟨fun hh => answersAt hn rfl ((branchWindow_early h).trans (if_pos (by simpa using hh))),
        fun hh => answersAt hn rfl ((branchWindow_early h).trans (if_neg (by simpa using hh)))⟩, fun hb hle => ?_⟩
    · intro uj mv ma slope e t pred
      have hp : branchPredicts s.dev n uj mv ma slope = true ↔ e.1 * 2000000000000 * 65536 ≤ pred * (e.2 : Int) := decide_eq_true_iff
      have htick := branchPredicts_tick s.dev (some (tick % 65536)) n uj mv ma slope
      refine ⟨fun hr h => ?_, fun h => answersAt hn rfl (atTick_nothing (branchEnergyTrip_nothing (h.imp_right fun h => ?_)))⟩
      · exact answersAt hn rfl (atTick_congr ((branchEnergyTrip_fires (htick.trans (hp.2 h))).trans (branchTrip_armed hr)))
      · exact htick.trans (Bool.eq_false_iff.2 (mt hp.1 (not_le.2 h)))
    · refine ⟨fun h => answersAt hn rfl (chanRetryDelay_early h), fun hw hle => ⟨fun h => ?_, fun h ha => ?_, fun h => ?_⟩⟩
      · exact answersAt hn rfl (chanRetryDelay_wait ⟨hw, hle⟩ h)
      · exact answersAt hn rfl (chanRetryDelay_stop ⟨hw, hle⟩ (.inr h) ha)
      · refine answersAt hn rfl (chanRetryDelay_nothing ⟨hw, hle⟩ ?_)
        simp only [List.mem_cons, List.not_mem_nil, or_false] at h ⊢
        tauto
    · obtain ⟨hwin, hhealth, hfew, hmany⟩ := healthWindow_closed hb hle
      exact ⟨_, answersAt hn rfl (branchWindow_published hhealth), hwin, hfew, hmany⟩
  · intro d n first rest _ h e
    obtain ⟨hframe, hrec⟩ := chanRecord_kept (tail := d.branchEtripUj n) h
    obtain ⟨-, hlast, -, -⟩ := hrec.fields
    obtain ⟨hchan, hcount, hnewer⟩ := branchStore_kept (chanRecord d (40 + n) (d.branchEtripUj n)) n
    rw [show e = _ from branchRecord_stored h, hchan]
    rw [hframe.kiln] at hcount
    exact ⟨hlast, hcount, hnewer⟩
  · intro d n r base tBase _ hb hw ha hwarn halarm hconf
    have h := healthLevels_levels (r := r) hb
    dsimp only at h
    rw [decide_eq_false (not_lt.2 hw.le), decide_eq_false (not_lt.2 ha.le), hwarn, halarm] at h
    simp only [levelStep_below hconf] at h
    exact ⟨congrArg (·.2.2.2.1) h, congrArg (·.2.2.2.2.1) h, congrArg (·.2.2.2.2.2) h⟩
  · intro d n r base tBase _ hb hw hwarn
    have h := healthLevels_levels (r := r) hb
    dsimp only at h
    rw [decide_eq_true hw, hwarn] at h
    rw [show ((healthLevels d n r).chan (40 + n)).warn = _ from congrArg (·.2.2.2.1) h]
    simp [levelStep]
end Sys2Proof.Machine

end

/-! ## Source selection (spec 09) -/

section
/-! PROOF. The counterexample to O51: a SET_POINT that waits is applied as a lost input leaves the set in NONE, and starts a
transfer to an input that is AVAILABLE though it is no member. -/

namespace Sys2Proof.Machine

theorem Answers.unique {c : Instr} {s : State} {d e : Dev} (h : Answers c s d) (h' : Answers c s e) : d = e := by
  unfold Answers at h h'
  rw [h] at h'
  exact congrArg State.dev (Host.Outcome.next.inj h')

/-- A SOURCE_SET without members whose input 1 reads AVAILABLE; a SET_POINT of 1 waits for the end of a transfer. -/
def strayInput : State :=
  let d : Dev := {
    slots := [(slotKey tSource 0, { live := true, hstate := .enabled })]
    src := [(0, { ins := [(0, { st := .selected }), (1, { st := .available })] })] }
  { pending := [], setup := {}, dev := { d with waits := [⟨none, .setPoint 1, d.srcHandle 0⟩] } }

/-- The loss of input 0 ends with input 1 being made, not with the set idle. -/
theorem strayInput_makes : ∃ d, Answers (.srcLoss 0 0 1 0) strayInput d ∧ (d.srcSet 0).xfer = .making :=
  ⟨_, rfl, by decide⟩

/-- Refutes O51: with no member AVAILABLE and no floating BAT, a loss need not leave the set idle, since a SET_POINT that waits
is applied (R258). -/
theorem not_sourceTransfers : ¬ Obligations.SourceTransfers := by
  unfold Obligations.SourceTransfers
  rintro ⟨-, -, htransfer, -⟩
  obtain ⟨-, -, hloss, -⟩ := htransfer strayInput 0 0 0 (by decide) (by decide)
  obtain ⟨-, -, hnone⟩ := hloss 1 (by decide)
  obtain ⟨d, hd, -, hidle, -⟩ := hnone (by decide) (by decide) (by decide) (by decide)
  obtain ⟨e, he, hmaking⟩ := strayInput_makes
  rw [hd.unique he, hmaking] at hidle
  exact absurd hidle (by decide)
end Sys2Proof.Machine

end

/-! ## Outputs from reset (spec 20) -/

section
/-! PROOF. From every reset of the Firebox the outputs are at their inactive levels (Table 20.6, R337, R518). -/

namespace Sys2Proof.Machine

/-- What every reset of the Firebox leaves of the parts that drive an output. -/
structure OutputsReset (d : Dev) : Prop where
  slots : d.slots = []
  pwm : ∃ low, d.pwm = { vdrvLow := low }
  feeds : d.feeds = []
  branches : d.branches = []
  src : d.src = []
  pins : d.seq.pins = []
  plane : d.plane = {}
  sitter : d.sitter = false
  twb : d.twb.alert = false
  pow : d.pow.hkEn = false ∧ d.pow.debug = false
  net : d.net.sent = [] ∧ d.net.streams = []

theorem outputsReset_reset : OutputsReset State.reset.dev :=
  ⟨rfl, ⟨_, rfl⟩, rfl, rfl, rfl, rfl, rfl, rfl, rfl, ⟨rfl, rfl⟩, rfl, rfl⟩

theorem outputsReset_fireboxPor (d : Dev) : OutputsReset (fireboxPor d) :=
  ⟨rfl, ⟨d.pwm.vdrvLow, rfl⟩, rfl, rfl, rfl, rfl, rfl, rfl, rfl, ⟨rfl, rfl⟩, rfl, rfl⟩

theorem outputsReset_deviceReset (straps : BitVec 7) (d : Dev) : OutputsReset (deviceReset straps d) :=
  ⟨rfl, ⟨d.pwm.vdrvLow, rfl⟩, rfl, rfl, rfl, rfl, rfl, rfl, rfl, ⟨rfl, rfl⟩, rfl, rfl⟩

namespace OutputsReset
variable {d : Dev}

theorem phase (h : OutputsReset d) (p : Nat) : d.phase p = {} := by
  obtain ⟨low, hp⟩ := h.pwm
  unfold Dev.phase
  rw [hp]
  rfl

theorem chan (h : OutputsReset d) (c : Nat) : d.chan c = {} := by
  unfold Dev.chan
  rw [h.feeds, h.branches]
  split <;> rfl

theorem srcSet (h : OutputsReset d) (n : Nat) : d.srcSet n = {} := by
  unfold Dev.srcSet
  rw [h.src]
  rfl

theorem liveIndices (h : OutputsReset d) (t : Nat) : d.liveIndices t = [] := by
  unfold Dev.liveIndices
  rw [h.slots]
  rfl

theorem faultSources (h : OutputsReset d) : d.faultSources d.srcStuckSource = 0 := by
  unfold Dev.faultSources Dev.srcStuckSource Dev.stuckSource
  rw [h.liveIndices, h.liveIndices, h.sitter, h.plane]
  rfl
end OutputsReset

/-- Settles O60, from what the three resets leave of the parts that drive an output. -/
theorem outputsFromReset : Obligations.OutputsFromReset := by
  unfold Obligations.OutputsFromReset
  refine ⟨rfl, rfl, rfl, fun d h => ?_⟩
  have hd : OutputsReset d := by
    rcases h with rfl | ⟨s, hs⟩ | ⟨s, straps, hp, hs⟩
    · exact outputsReset_reset
    · exact Answers.unique (rfl : Answers .fireboxPor { s with setup := {} } (fireboxPor s.dev)) hs ▸ outputsReset_fireboxPor s.dev
    · have : Answers (.deviceReset straps) { s with setup := {} } (deviceReset straps s.dev) := if_neg hp
      exact this.unique hs ▸ outputsReset_deviceReset straps s.dev
  obtain ⟨low, hpwm⟩ := hd.pwm
  refine ⟨fun p => ?_, by rw [hpwm], fun c => ?_, fun n x => ?_, fun e => ?_, hd.faultSources, hd.twb, hd.pow.1, hd.net.1, hd.net.2,
    hd.pow.2⟩
  · rw [hd.phase]
    exact ⟨rfl, rfl⟩
  · rw [hd.chan]
    exact ⟨rfl, rfl⟩
  · rw [hd.srcSet]
    exact ⟨rfl, rfl, rfl, rfl⟩
  · rw [hd.pins]
    rfl
end Sys2Proof.Machine

end

/-! ## Waits that end, and the sets (spec 03, 09) -/

section
/-! PROOF. What the end of waits leaves, and a SOURCE_SET after a change of it. -/

namespace Sys2Proof.Machine

/-! ### Waits that have ended -/

theorem endWaits_left (d : Dev) (p : Wait → Bool) (f : Wait → Cpl) :
    ∀ w ∈ (d.endWaits p f).waits, w ∈ d.waits ∧ p w = false ∨ w.kind = .lost := by
  refine List.foldlRecOn (motive := fun e : Dev => ∀ w ∈ e.waits, w ∈ d.waits ∧ p w = false ∨ w.kind = .lost) _ _
    (fun w hw => .inl ?_) fun e he x _ w hw => ?_
  · obtain ⟨hmem, hp⟩ := List.mem_filter.1 hw
    exact ⟨hmem, by simpa using hp⟩
  · unfold Dev.answerWait at hw
    split at hw
    · rcases List.mem_append.1 hw with hw | hw
      · exact he w hw
      · rw [List.mem_singleton.1 hw]
        exact .inr rfl
    · rw [deliver_frame] at hw
      exact he w hw

/-- The waits of a kind on a handle are over once they were ended. -/
theorem endWaits_noWait (d : Dev) {p : Wait → Bool} (f : Wait → Cpl) {k : WaitKind} {h : Word} (hk : k ≠ .lost)
    (hp : ∀ w : Wait, w.kind = k → w.handle = h → p w = true) : (d.endWaits p f).hasWait k h = false := by
  unfold Dev.hasWait
  refine List.any_eq_false.2 fun w hw hb => ?_
  obtain ⟨hkind, hh⟩ := Bool.and_eq_true_iff.1 hb
  rcases endWaits_left d p f w hw with ⟨-, hfalse⟩ | hlost
  · rw [hp w (eq_of_beq hkind) (eq_of_beq hh)] at hfalse
    contradiction
  · exact hk ((eq_of_beq hkind).symm.trans hlost)

theorem endWaits_noWait_of (d : Dev) (p : Wait → Bool) (f : Wait → Cpl) {k : WaitKind} {h : Word} (hk : k ≠ .lost)
    (hd : d.hasWait k h = false) : (d.endWaits p f).hasWait k h = false := by
  unfold Dev.hasWait at *
  refine List.any_eq_false.2 fun w hw hb => ?_
  rcases endWaits_left d p f w hw with ⟨hmem, -⟩ | hlost
  · exact List.any_eq_false.1 hd w hmem hb
  · exact hk ((eq_of_beq (Bool.and_eq_true_iff.1 hb).1).symm.trans hlost)

/-! ### A SOURCE_SET after a change of it -/

@[simp] theorem srcSet_modSrc_self (d : Dev) (n : Nat) (f : SrcRt → SrcRt) : (d.modSrc n f).srcSet n = f (d.srcSet n) :=
  tget_tmod_self ..

@[simp] theorem endWaits_src (d : Dev) (p : Wait → Bool) (f : Wait → Cpl) : (d.endWaits p f).src = d.src :=
  (congrArg Dev.src (endWaits_sansWaits d p f) :)

end Sys2Proof.Machine

end

/-! ## Battery strings: the estimator's step (spec 11) -/

section
/-! PROOF. What one step of the estimator leaves of its string (R300 to R311). -/

namespace Sys2Proof.Machine

@[simp] theorem str_modStr_self (d : Dev) (i : Nat) (f : StrRt → StrRt) : (d.modStr i f).str i = f (d.str i) :=
  tget_tmod_self ..

/-- The part of a string that its estimator's step is stated by. -/
def StrRt.core (r : StrRt) : StrRt :=
  { qStep := r.qStep, disStep := r.disStep, bStep := r.bStep, stepTurn := r.stepTurn, q := r.q, stepDue := r.stepDue, age := r.age
    anchorTurn := r.anchorTurn, unanchored := r.unanchored, disagree := r.disagree, cutStep := r.cutStep, soc := r.soc, u := r.u }

/-- Between two devices the objects, the Wheel and the core of string `i` stand. -/
structure StrStill (i : Nat) (d e : Dev) : Prop where
  slots : e.slots = d.slots
  wheel : e.wheel = d.wheel
  core : (e.str i).core = (d.str i).core

/-- The service state stands as well. -/
structure StrQuiet (i : Nat) (d e : Dev) : Prop extends StrStill i d e where
  service : (e.str i).service = (d.str i).service

namespace StrQuiet
variable {i : Nat} {d e f : Dev}

theorem refl (d : Dev) : StrQuiet i d d := ⟨⟨rfl, rfl, rfl⟩, rfl⟩

theorem trans (h : StrQuiet i d e) (h' : StrQuiet i e f) : StrQuiet i d f :=
  ⟨⟨h'.slots.trans h.slots, h'.wheel.trans h.wheel, h'.core.trans h.core⟩, h'.service.trans h.service⟩

theorem of_strs (hslots : e.slots = d.slots) (hwheel : e.wheel = d.wheel) (h : e.strs = d.strs) : StrQuiet i d e := by
  refine ⟨⟨hslots, hwheel, ?_⟩, ?_⟩ <;> unfold Dev.str <;> rw [h]

theorem modStr (d : Dev) {g : StrRt → StrRt} (hcore : ∀ r, (g r).core = r.core) (hservice : ∀ r, (g r).service = r.service) :
    StrQuiet i d (d.modStr i g) := by
  refine ⟨⟨rfl, rfl, ?_⟩, ?_⟩ <;> rw [str_modStr_self]
  · exact hcore _
  · exact hservice _

/-- What stands from a change of the string's other fields on, stands from before it. -/
theorem of_modStr {g : StrRt → StrRt} (h : StrQuiet i (d.modStr i g) e) (hcore : ∀ r, (g r).core = r.core)
    (hservice : ∀ r, (g r).service = r.service) : StrQuiet i d e :=
  (modStr d hcore hservice).trans h

theorem modStr_of (h : StrQuiet i d e) {g : StrRt → StrRt} (hcore : ∀ r, (g r).core = r.core)
    (hservice : ∀ r, (g r).service = r.service) : StrQuiet i d (e.modStr i g) :=
  h.trans (modStr e hcore hservice)

theorem freeBits (d : Dev) (n : Nat) : StrQuiet i d (d.freeBits n).2 := of_strs rfl rfl rfl

theorem raise (d : Dev) (code detail : Nat) (h : Word) : StrQuiet i d (d.raise code detail h) := .of_strs (by simp) (by simp) (by simp)

theorem event (d : Dev) (j code detail : Nat) : StrQuiet i d (battEvent d j code detail) := raise ..

theorem witValue (src : Word) (q sub : Nat) (num : Int) (den : Nat) (dflt : Bool) (d : Dev) :
    StrQuiet i d (witValue src q sub num den dflt d) :=
  .of_strs (by simp) (by simp) (congrArg Dev.strs (witValue_sansWit src q sub num den dflt d) :)

theorem publish (d : Dev) (h : Word) (sel : Nat) (bs : List Byte) : StrQuiet i d (d.publish h sel bs) :=
  .of_strs (by simp) (by simp) (by simp)

theorem learnFails (d : Dev) (code : Nat) : StrQuiet i d (learnFails d i code) := by
  unfold Machine.learnFails
  split
  · exact of_modStr (event ..) (fun _ => rfl) fun _ => rfl
  · exact refl d

theorem battSave (d : Dev) : StrQuiet i d (battSave d i) := by
  unfold Machine.battSave
  split
  · exact refl d
  · exact (modStr d (g := fun r => { r with bSave := r.b }) (fun _ => rfl) fun _ => rfl).trans (of_strs rfl rfl rfl)

/-- The tests that a running cycle may fail (R313). -/
theorem learnTests (d : Dev) (p q r : Prop) [Decidable p] [Decidable q] [Decidable r] : StrQuiet i d
    (if p then Machine.learnFails d i 1 else if q then Machine.learnFails d i 3 else if r then Machine.learnFails d i 4 else d) := by
  split
  · exact learnFails ..
  · split
    · exact learnFails ..
    · split
      · exact learnFails ..
      · exact refl d

theorem learnStep (d : Dev) (dq t ceff : Int) : StrQuiet i d (learnStep d i dq t ceff) := by
  unfold Machine.learnStep
  dsimp only
  split
  · exact refl d
  · split
    · split <;> exact modStr d (fun _ => rfl) fun _ => rfl
    · exact of_modStr (learnTests ..) (fun _ => rfl) fun _ => rfl

theorem cycleStep (d : Dev) (dis : Int) : StrQuiet i d (cycleStep d i dis) := by
  unfold Machine.cycleStep
  dsimp only
  split
  · exact modStr d (fun _ => rfl) fun _ => rfl
  · exact of_modStr (battSave _) (fun _ => rfl) fun _ => rfl

theorem restStep (d : Dev) : StrQuiet i d (restStep d i) := by
  unfold Machine.restStep
  dsimp only
  split
  · exact modStr d (fun _ => rfl) fun _ => rfl
  · exact (freeBits d 32).modStr_of (fun _ => rfl) fun _ => rfl

theorem battTelem (d : Dev) : StrQuiet i d (battTelem d i) := by
  have hset : ∃ e b, StrQuiet i d e ∧ Machine.battTelem d i = e.modStr i fun r => { r with telem := b } := by
    unfold Machine.battTelem
    dsimp only
    cases hv : (d.str i).vSyn with
    | some v => exact ⟨d, _, refl d, rfl⟩
    | none => exact ⟨(d.freeBits 16).2, _, freeBits d 16, rfl⟩
  obtain ⟨e, b, he, heq⟩ := hset
  rw [heq]
  exact he.modStr_of (fun _ => rfl) fun _ => rfl

theorem battShow (d : Dev) : StrQuiet i d (battShow d i) :=
  (((witValue ..).trans (witValue ..)).trans (witValue ..)).trans (publish ..)

theorem setOfInput (h : StrQuiet i d e) (x : Nat) : e.setOfInput x = d.setOfInput x := by
  unfold Dev.setOfInput Dev.srcCfg Dev.liveIndices Dev.slot
  rw [h.slots]

theorem lowActs (d : Dev) (h : d.setOfInput inBat = none) : StrQuiet i d (lowActs d i) := by
  unfold Machine.lowActs
  rw [h]
  exact refl d

theorem meanStep (d : Dev) : StrQuiet i d (meanStep d i) := modStr d (fun _ => rfl) fun _ => rfl
end StrQuiet

namespace StrStill
variable {i : Nat} {d e f : Dev}

theorem trans (h : StrStill i d e) (h' : StrStill i e f) : StrStill i d f :=
  ⟨h'.slots.trans h.slots, h'.wheel.trans h.wheel, h'.core.trans h.core⟩

theorem modStr (d : Dev) {g : StrRt → StrRt} (hcore : ∀ r, (g r).core = r.core) : StrStill i d (d.modStr i g) :=
  ⟨rfl, rfl, by rw [str_modStr_self]; exact hcore _⟩

theorem groupStart (d : Dev) (j : Nat) : StrStill i d (groupStart d j) := by
  obtain ⟨a, t, he, -⟩ := pdRestart_frame d (d.strGroup j)
  unfold Machine.groupStart
  rw [he]
  exact ⟨rfl, rfl, rfl⟩

theorem of_modStr {g : StrRt → StrRt} (h : StrStill i (d.modStr i g) e) (hcore : ∀ r, (g r).core = r.core) : StrStill i d e :=
  (modStr d hcore).trans h

theorem modStr_of (h : StrStill i d e) {g : StrRt → StrRt} (hcore : ∀ r, (g r).core = r.core) : StrStill i d (e.modStr i g) :=
  h.trans (modStr e hcore)

theorem hibEvent (d : Dev) (j v : Nat) : StrStill i d (hibEvent d j v) := by
  unfold Machine.hibEvent
  rw [raiseOnceTurn_frame d (0x0906 * 16 + j) 0x0906 v (d.strHandle j)]
  exact ⟨rfl, rfl, rfl⟩

theorem battWake (d : Dev) : StrStill i d (battWake d i) := by
  unfold Machine.battWake
  dsimp only
  split
  · refine StrStill.trans ?_ (hibEvent ..)
    refine ((groupStart d i).modStr_of ?_).modStr_of ?_ <;> exact fun _ => rfl
  · exact (groupStart d i).modStr_of fun _ => rfl
  · exact (StrQuiet.refl d).toStrStill

theorem battFullRate (d : Dev) : StrStill i d (battFullRate d i) := by
  unfold Machine.battFullRate
  split
  · exact battWake d
  · exact modStr d fun _ => rfl

theorem battEnter (d : Dev) (s : Service) : StrStill i d (battEnter d i s) := by
  unfold Machine.battEnter
  dsimp only
  have hfull : StrStill i d (if s = .normal then Machine.battFullRate d i else d) := by
    split
    · exact battFullRate d
    · exact (StrQuiet.refl d).toStrStill
  refine hfull.trans (of_modStr (StrQuiet.toStrStill (.trans (.event ..) (.battSave _))) fun _ => rfl)

theorem battService (d : Dev) (s : Service) : StrStill i d (battService d i s) := by
  unfold Machine.battService
  split
  · exact (StrQuiet.refl d).toStrStill
  · exact battEnter d s

theorem battStarted (d : Dev) : StrStill i d (battStarted d i) := by
  unfold Machine.battStarted
  dsimp only
  split
  · exact battService ..
  · exact (StrQuiet.refl d).toStrStill
end StrStill

theorem battEnter_service (d : Dev) (i : Nat) (s : Service) : ((battEnter d i s).str i).service = s := by
  unfold battEnter
  rw [((StrQuiet.event (i := i) ..).trans (.battSave _)).service, str_modStr_self]

theorem battService_service (d : Dev) (i : Nat) (s : Service) : ((battService d i s).str i).service = s := by
  unfold battService
  split
  · next h => exact h
  · exact battEnter_service ..

theorem battStarted_quiet {d : Dev} {i : Nat} (h : (d.str i).service ≠ .start) : battStarted d i = d :=
  if_neg fun h' => h h'.1

/-! ### The end of a step -/

/-- What ends a step changes nothing of the string's core, and its service state from START alone. -/
theorem battEnded_kept {d : Dev} {i : Nat} {ceff dq : Int} (hbat : d.setOfInput inBat = none) :
    StrStill i d (battEnded d i ceff dq) ∧
      ((d.str i).service ≠ .start → ((battEnded d i ceff dq).str i).service = (d.str i).service) := by
  have hend (e : Dev) (he : StrQuiet i d e) : StrStill i d (battShow (battTelem (battStarted (lowActs e i) i) i) i) ∧
      ((d.str i).service ≠ .start → ((battShow (battTelem (battStarted (lowActs e i) i) i) i).str i).service = (d.str i).service) := by
    have hlow := he.trans (.lowActs e ((he.setOfInput _).trans hbat))
    have hshow := (StrQuiet.battTelem (i := i) (battStarted (lowActs e i) i)).trans (.battShow _)
    refine ⟨(hlow.toStrStill.trans (.battStarted _)).trans hshow.toStrStill, fun hs => ?_⟩
    rw [hshow.service, battStarted_quiet (by rw [hlow.service]; exact hs), hlow.service]
  unfold battEnded
  dsimp only
  split
  · exact hend _ (.of_modStr (.event ..) (fun _ => rfl) fun _ => rfl)
  · exact hend _ (.modStr d (fun _ => rfl) fun _ => rfl)

/-! ### The cut-off and the anchor of a step (R306, R307, R310) -/

theorem battDisagree_kept (d : Dev) (i : Nat) (on : Bool) : (battDisagree d i on).slots = d.slots ∧
    (battDisagree d i on).wheel = d.wheel ∧ ((battDisagree d i on).str i).core = { (d.str i).core with disagree := on } ∧
    ((battDisagree d i on).str i).service = (d.str i).service := by
  unfold battDisagree
  split
  · next h => exact ⟨rfl, rfl, by rw [← h]; rfl, rfl⟩
  · obtain ⟨⟨hslots, hwheel, hcore⟩, hservice⟩ := StrQuiet.event (i := i) (d.modStr i fun r => { r with
      disagree := on, learn := { r.learn with disagree := r.learn.disagree || (on && r.learn.st == .running) } }) i 0x0904 (b2n on)
    rw [str_modStr_self] at hcore hservice
    exact ⟨hslots, hwheel, hcore, hservice⟩

theorem battUnanchor_kept (d : Dev) (i : Nat) (on : Bool) : (battUnanchor d i on).slots = d.slots ∧
    (battUnanchor d i on).wheel = d.wheel ∧ ((battUnanchor d i on).str i).core = { (d.str i).core with unanchored := on } := by
  unfold battUnanchor
  split
  · next h => exact ⟨rfl, rfl, by rw [← h]; rfl⟩
  · obtain ⟨⟨hslots, hwheel, hcore⟩, -⟩ := StrQuiet.event (i := i) (d.modStr i fun r => { r with
      unanchored := on, unSteps := 0 }) i 0x0903 (b2n on)
    rw [str_modStr_self] at hcore
    exact ⟨hslots, hwheel, hcore⟩

theorem cutoffStep_kept (d : Dev) (i : Nat) : (cutoffStep d i).slots = d.slots ∧ (cutoffStep d i).wheel = d.wheel ∧
    ((cutoffStep d i).str i).core = { (d.str i).core with cutStep := false, soc := 0, u := 2 ^ 48 / 100, disagree := false } ∧
    ((cutoffStep d i).str i).service = .recovery := by
  have hj : (battJump (d.modStr i fun r => { r with cutStep := false }) i 0 (2 ^ 48 / 100)).slots = d.slots ∧
      (battJump (d.modStr i fun r => { r with cutStep := false }) i 0 (2 ^ 48 / 100)).wheel = d.wheel ∧
      ((battJump (d.modStr i fun r => { r with cutStep := false }) i 0 (2 ^ 48 / 100)).str i).core =
        { (d.str i).core with cutStep := false, soc := 0, u := 2 ^ 48 / 100 } := by
    refine ⟨rfl, rfl, ?_⟩
    unfold battJump
    rw [str_modStr_self, str_modStr_self]
    rfl
  unfold cutoffStep
  dsimp only
  generalize battJump (d.modStr i fun r => { r with cutStep := false }) i 0 (2 ^ 48 / 100) = e at hj ⊢
  obtain ⟨hslots, hwheel, hcore⟩ := hj
  obtain ⟨hslots', hwheel', hcore', -⟩ := battDisagree_kept e i false
  have hs := (StrQuiet.learnFails (i := i) (battDisagree e i false) 8).toStrStill.trans
    (.battService (learnFails (battDisagree e i false) i 8) .recovery)
  refine ⟨hs.slots.trans (hslots'.trans hslots), hs.wheel.trans (hwheel'.trans hwheel), ?_, battService_service ..⟩
  rw [hs.core, hcore', hcore]

/-- The end of a learning cycle, by the code of its result (R313). -/
theorem learnEnds_quiet (d : Dev) (i code c soh : Nat) (a : Int) (turn : BitVec 48) : StrQuiet i d
    (if code ≠ 0 then
      learnFails (if code = 11 then d.modStr i fun r => { r with learn := { r.learn with cMeas := c } } else d) i code
    else
      let d := d.modStr i fun r =>
        { r with soh := soh, learned := satAdd 8 r.learned 1
                 learn := { (r.learn.arm turn a) with last := 0, cMeas := c, sohBefore := r.soh, sohAfter := soh } }
      battEvent (battSave d i) i 0x0905 0) := by
  split
  · refine StrQuiet.trans ?_ (.learnFails _ _)
    split
    · exact .modStr d (fun _ => rfl) fun _ => rfl
    · exact .refl d
  · exact .of_modStr ((StrQuiet.battSave _).trans (.event ..)) (fun _ => rfl) fun _ => rfl

theorem learnAnchor_quiet (d : Dev) (i : Nat) (a : Int) (turn : BitVec 48) : StrQuiet i d (learnAnchor d i a turn) := by
  unfold learnAnchor
  dsimp only
  cases hl : (d.str i).learn.st with
  | idle => exact .modStr d (fun _ => rfl) fun _ => rfl
  | armed => exact .modStr d (fun _ => rfl) fun _ => rfl
  | running =>
    dsimp only
    by_cases hd : (d.str i).learn.disagree = true
    · rw [if_pos hd]
      exact .learnFails d 7
    · rw [if_neg hd]
      by_cases hspan : (if (d.str i).learn.charge then a - (d.str i).learn.startSoc else (d.str i).learn.startSoc - a) * 10 < 6 * 2 ^ 48
      · rw [if_pos hspan]
        exact .refl d
      · rw [if_neg hspan]
        exact learnEnds_quiet ..

/-- The end of an anchor: its record, its event, and the service state that it ends. -/
theorem anchorTold_still (d : Dev) (i w : Nat) : StrStill i d
    (if ((battEvent (battSave d i) i 0x0902 w).str i).service = .recovery then
      battService (battEvent (battSave d i) i 0x0902 w) i .normal else battEvent (battSave d i) i 0x0902 w) := by
  have htold : StrQuiet i d (battEvent (battSave d i) i 0x0902 w) := (StrQuiet.battSave d).trans (.event ..)
  split
  · exact htold.toStrStill.trans (.battService ..)
  · exact htold.toStrStill

/-- An anchor leaves a string anchored at its turn (R307). -/
theorem takeAnchor_kept (d : Dev) (i : Nat) (soc sigma : Int) (turn : BitVec 48) :
    let e := takeAnchor d i soc sigma turn
    e.slots = d.slots ∧ e.wheel = d.wheel ∧ (e.str i).core = { (d.str i).core with
      soc := soc, u := sigma, unanchored := false, disagree := false, age := 0, anchorTurn := turn } := by
  intro e
  have hj : ((battJump d i soc sigma).str i).core = { (d.str i).core with soc := soc, u := sigma } := by
    unfold battJump
    rw [str_modStr_self]
    rfl
  obtain ⟨hs1, hw1, hc1⟩ := battUnanchor_kept (battJump d i soc sigma) i false
  have hl := learnAnchor_quiet (battUnanchor (battJump d i soc sigma) i false) i soc turn
  obtain ⟨hs2, hw2, hc2, -⟩ := battDisagree_kept (learnAnchor (battUnanchor (battJump d i soc sigma) i false) i soc turn) i false
  rw [hl.core, hc1, hj] at hc2
  replace hs2 := (hs2.trans hl.slots).trans hs1
  replace hw2 := (hw2.trans hl.wheel).trans hw1
  generalize hm : battDisagree (learnAnchor (battUnanchor (battJump d i soc sigma) i false) i soc turn) i false = m at hs2 hw2 hc2
  have hstill : StrStill i (m.modStr i fun r => { r with age := 0, anchorTurn := turn, learn := { r.learn with disagree := false } }) e := by
    rw [← hm]
    show StrStill i _ (takeAnchor d i soc sigma turn)
    unfold takeAnchor
    dsimp only
    exact anchorTold_still ..
  refine ⟨hstill.slots.trans hs2, hstill.wheel.trans hw2, ?_⟩
  rw [hstill.core, str_modStr_self]
  show { (m.str i).core with age := 0, anchorTurn := turn } = _
  rw [hc2]

/-- A step's run of candidates leaves the core, or anchors the string at `turn`. -/
structure AnchorKept (i : Nat) (turn : BitVec 48) (d e : Dev) : Prop where
  slots : e.slots = d.slots
  wheel : e.wheel = d.wheel
  core : (e.str i).core = (d.str i).core ∨ ∃ soc u, (e.str i).core = { (d.str i).core with
    soc := soc, u := u, unanchored := false, disagree := false, age := 0, anchorTurn := turn }

theorem AnchorKept.of_quiet {i : Nat} {turn : BitVec 48} {d e : Dev} (h : StrQuiet i d e) : AnchorKept i turn d e :=
  ⟨h.slots, h.wheel, .inl h.core⟩

theorem AnchorKept.ite {i : Nat} {turn : BitVec 48} {d e f : Dev} {p : Prop} [Decidable p] (h : AnchorKept i turn d e)
    (h' : AnchorKept i turn d f) : AnchorKept i turn d (if p then e else f) := by
  split
  · exact h
  · exact h'

theorem anchorRun_kept (d : Dev) (i n : Nat) (sum start a b : Int) (turn : BitVec 48) (p : Prop) [Decidable p] :
    AnchorKept i turn d (if p then
      takeAnchor (d.modStr i fun r => { r with runN := n, runSum := sum, runSoc := start }) i a b turn
      else d.modStr i fun r => { r with runN := n, runSum := sum, runSoc := start }) := by
  have hm : StrQuiet i d (d.modStr i fun r => { r with runN := n, runSum := sum, runSoc := start }) := .modStr d (fun _ => rfl) fun _ => rfl
  generalize (d.modStr i fun r => { r with runN := n, runSum := sum, runSoc := start }) = m at hm ⊢
  split
  · obtain ⟨hs, hw, hc⟩ := takeAnchor_kept m i a b turn
    exact ⟨hs.trans hm.slots, hw.trans hm.wheel, .inr ⟨_, _, by rw [hc, hm.core]⟩⟩
  · exact .of_quiet hm

theorem anchorStep_kept (d : Dev) (i : Nat) (t : Int) (turn : BitVec 48) : AnchorKept i turn d (anchorStep d i t turn) := by
  have hreset : AnchorKept i turn d (d.modStr i fun r => { r with runN := 0, runSum := 0 }) :=
    .of_quiet (.modStr d (fun _ => rfl) fun _ => rfl)
  unfold anchorStep
  dsimp only
  cases anchorCandidate d i t with
  | none => exact hreset
  | some p =>
    dsimp only
    exact .ite (.ite (anchorRun_kept ..) hreset) hreset

/-! ### The step -/

theorem battCounted_kept (d : Dev) (i : Nat) (t rate ceff dq db : Int) :
    let r := d.str i
    let e := battCounted d i t rate ceff dq db
    e.slots = d.slots ∧ e.wheel = d.wheel ∧ ∃ soc u, (e.str i).core = { r.core with
      soc := soc, u := u, age := r.age + 1, qStep := r.qEnd, disStep := r.disEnd, bStep := r.bEnd, stepTurn := d.wheel.turn - 1 } := by
  refine ⟨rfl, rfl, ?_⟩
  unfold battCounted
  dsimp only
  rw [str_modStr_self]
  exact ⟨_, _, rfl⟩

/-- The learning, the cycles and the rest of a step (R304, R305, R312, R315). -/
theorem counted_quiet (d : Dev) (i : Nat) (dq t ceff dis : Int) :
    StrQuiet i d ((restStep (cycleStep (learnStep d i dq t ceff) i dis) i).modStr i fun r =>
      { r with sigma := (anchorCandidate (restStep (cycleStep (learnStep d i dq t ceff) i dis) i) i t).map (·.2) }) := by
  have h : StrQuiet i d (restStep (cycleStep (learnStep d i dq t ceff) i dis) i) :=
    ((StrQuiet.learnStep d dq t ceff).trans (.cycleStep _ dis)).trans (.restStep _)
  exact h.modStr_of (fun _ => rfl) fun _ => rfl

/-- What follows the count: a cut-off that waits takes its step, or the string is anchored, or neither. -/
theorem battAnchored_kept (d : Dev) (i : Nat) (t ceff dq dis : Int) :
    let c := (d.str i).core
    let e := battAnchored d i t ceff dq dis
    e.slots = d.slots ∧ e.wheel = d.wheel ∧
    ((d.str i).cutStep = true → (e.str i).core = { c with cutStep := false, soc := 0, u := 2 ^ 48 / 100, disagree := false } ∧
      (e.str i).service = .recovery) ∧
    ((d.str i).cutStep = false → ∃ on, (e.str i).core = { c with disagree := on } ∨ ∃ soc u, (e.str i).core = { c with
      soc := soc, u := u, unanchored := false, disagree := false, age := 0, anchorTurn := d.wheel.turn - 1 }) := by
  intro c e
  obtain ⟨m, on, hslots, hwheel, hcore, he⟩ : ∃ m on, m.slots = d.slots ∧ m.wheel = d.wheel ∧
      (m.str i).core = { c with disagree := on } ∧
      e = if (m.str i).cutStep then cutoffStep m i else anchorStep m i t (m.wheel.turn - 1) := by
    refine ⟨_, decide ((d.str i).soc < 0) || decide (2 ^ 48 < (d.str i).soc), ?_, ?_, ?_, rfl⟩
    all_goals
      obtain ⟨hslots, hwheel, hcore, -⟩ := battDisagree_kept d i (decide ((d.str i).soc < 0) || decide (2 ^ 48 < (d.str i).soc))
      have hq := counted_quiet (battDisagree d i (decide ((d.str i).soc < 0) || decide (2 ^ 48 < (d.str i).soc))) i dq t ceff dis
    · exact hq.slots.trans hslots
    · exact hq.wheel.trans hwheel
    · exact hq.core.trans hcore
  have hcut : (m.str i).cutStep = (d.str i).cutStep := (congrArg StrRt.cutStep hcore :)
  rw [he, hcut]
  cases hd : (d.str i).cutStep with
  | true =>
    obtain ⟨hs, hw, hc, hv⟩ := cutoffStep_kept m i
    rw [hcore] at hc
    rw [if_pos rfl]
    exact ⟨hs.trans hslots, hw.trans hwheel, fun _ => ⟨hc, hv⟩, nofun⟩
  | false =>
    obtain ⟨hs, hw, hc⟩ := anchorStep_kept m i t (d.wheel.turn - 1)
    rw [hcore] at hc
    rw [if_neg Bool.false_ne_true, hwheel]
    exact ⟨hs.trans hslots, hw.trans hwheel, nofun, fun _ => ⟨on, hc⟩⟩

theorem battStep_parts (d : Dev) (i : Nat) : ∃ m t rate ceff dq db dis, m.slots = d.slots ∧ m.wheel = d.wheel ∧
    (∃ iMean vMean, m.str i = { d.str i with iMean := iMean, vMean := vMean, t := t, stepDue := false }) ∧
    battStep d i = battEnded (battAnchored (battCounted m i t rate ceff dq db) i t ceff dq dis) i ceff dq := by
  unfold battStep
  dsimp only
  refine ⟨_, _, _, _, _, _, _, ?_, ?_, ?_, rfl⟩
  · rfl
  · rfl
  · rw [str_modStr_self]
    unfold meanStep
    dsimp only
    rw [str_modStr_self]
    exact ⟨_, _, rfl⟩

/-- What a step leaves of the core `r` of a string that has counted to `c`, in turn `turn`. -/
theorem stepped_core {r c e : StrRt} {turn : BitVec 48} {soc u : Int}
    (hc : c.core = { r.core with
      stepDue := false, soc := soc, u := u, age := r.age + 1, qStep := r.qEnd, disStep := r.disEnd, bStep := r.bEnd, stepTurn := turn })
    (hcut : c.cutStep = true → e.core = { c.core with cutStep := false, soc := 0, u := 2 ^ 48 / 100, disagree := false } ∧
      e.service = .recovery)
    (hrun : c.cutStep = false → ∃ on, e.core = { c.core with disagree := on } ∨ ∃ soc u, e.core = { c.core with
      soc := soc, u := u, unanchored := false, disagree := false, age := 0, anchorTurn := turn }) :
    e.qStep = r.qEnd ∧ e.disStep = r.disEnd ∧ e.bStep = r.bEnd ∧ e.stepTurn = turn ∧ e.q = r.q ∧ e.stepDue = false ∧
    (e.age = r.age + 1 ∨ e.age = 0 ∧ e.anchorTurn = turn ∧ e.unanchored = false ∧ e.disagree = false) ∧
    (r.cutStep = true → e.soc = 0 ∧ e.u = 2 ^ 48 / 100 ∧ e.service = .recovery ∧ e.disagree = false ∧ e.cutStep = false) := by
  rw [hc] at hcut hrun
  have hcs : c.cutStep = r.cutStep := (congrArg StrRt.cutStep hc :)
  rw [hcs] at hcut hrun
  cases hstep : r.cutStep with
  | true =>
    obtain ⟨he, hv⟩ := hcut hstep
    exact ⟨(congrArg StrRt.qStep he :), (congrArg StrRt.disStep he :), (congrArg StrRt.bStep he :),
      (congrArg StrRt.stepTurn he :), (congrArg StrRt.q he :), (congrArg StrRt.stepDue he :),
      .inl (congrArg StrRt.age he :), fun _ => ⟨(congrArg StrRt.soc he :), (congrArg StrRt.u he :),
        hv, (congrArg StrRt.disagree he :), (congrArg StrRt.cutStep he :)⟩⟩
  | false =>
    obtain ⟨on, he⟩ := hrun hstep
    rcases he with he | ⟨soc, u, he⟩ <;>
      refine ⟨(congrArg StrRt.qStep he :), (congrArg StrRt.disStep he :), (congrArg StrRt.bStep he :),
        (congrArg StrRt.stepTurn he :), (congrArg StrRt.q he :), (congrArg StrRt.stepDue he :), ?_, nofun⟩
    · exact .inl (congrArg StrRt.age he :)
    · exact .inr ⟨(congrArg StrRt.age he :), (congrArg StrRt.anchorTurn he :), (congrArg StrRt.unanchored he :),
        (congrArg StrRt.disagree he :)⟩

/-- The estimator's step of a string, where no SOURCE_SET has a BAT input (R300 to R311). -/
theorem battStep_kept (d : Dev) (i : Nat) (hbat : d.setOfInput inBat = none) :
    let r := d.str i
    let e := (battStep d i).str i
    e.qStep = r.qEnd ∧ e.disStep = r.disEnd ∧ e.bStep = r.bEnd ∧ e.stepTurn = d.wheel.turn - 1 ∧ e.q = r.q ∧ e.stepDue = false ∧
    (e.age = r.age + 1 ∨ e.age = 0 ∧ e.anchorTurn = d.wheel.turn - 1 ∧ e.unanchored = false ∧ e.disagree = false) ∧
    (r.cutStep = true → e.soc = 0 ∧ e.u = 2 ^ 48 / 100 ∧ e.service = .recovery ∧ e.disagree = false ∧ e.cutStep = false) := by
  obtain ⟨m, t, rate, ceff, dq, db, dis, hslots, hwheel, ⟨iMean, vMean, hr⟩, he⟩ := battStep_parts d i
  generalize battStep d i = b at he ⊢
  replace he : b.str i = _ := congrArg (·.str i) he
  generalize b.str i = e at he ⊢
  dsimp only
  obtain ⟨hslots', hwheel', soc, u, hcore⟩ := battCounted_kept m i t rate ceff dq db
  obtain ⟨hslotsA, hwheelA, hcut, hrun⟩ := battAnchored_kept (battCounted m i t rate ceff dq db) i t ceff dq dis
  generalize battCounted m i t rate ceff dq db = c at *
  generalize battAnchored c i t ceff dq dis = a at *
  have hbat' : a.setOfInput inBat = none := by
    unfold Dev.setOfInput Dev.srcCfg Dev.liveIndices Dev.slot at hbat ⊢
    rw [hslotsA, hslots', hslots]
    exact hbat
  obtain ⟨hend, hserv⟩ := battEnded_kept (ceff := ceff) (dq := dq) hbat'
  rw [← he] at hserv
  have hendc : e.core = (a.str i).core := (congrArg StrRt.core he).trans hend.core
  rw [← hendc] at hcut hrun
  rw [hwheel', hwheel] at hrun
  rw [hr, hwheel] at hcore
  refine stepped_core hcore (fun hc => ?_) hrun
  obtain ⟨hcc, hv⟩ := hcut hc
  exact ⟨hcc, (hserv (by rw [hv]; decide)).trans hv⟩
end Sys2Proof.Machine

end

/-! ## Battery strings: what each event does (spec 11) -/

section
/-! PROOF. The events of a string, and the set that its cut-off holds (R308, R310, R317, R318, R322). -/

namespace Sys2Proof.Machine

/-! ### Devices that read alike -/

theorem strHandle_modStr (d : Dev) (i j : Nat) (f : StrRt → StrRt) : (d.modStr i f).strHandle j = d.strHandle j := rfl

theorem setOfInput_congr {d e : Dev} (h : e.slots = d.slots) (x : Nat) : e.setOfInput x = d.setOfInput x := by
  unfold Dev.setOfInput Dev.srcCfg Dev.liveIndices Dev.slot
  rw [h]

theorem brownoutSeq_congr {d e : Dev} (h : e.slots = d.slots) (n : Nat) : e.brownoutSeq n = d.brownoutSeq n := by
  unfold Dev.brownoutSeq Dev.srcCfg Dev.namesLive Dev.live Dev.slot
  rw [h]

/-! ### The unanchored event (R308) -/

theorem battUnanchor_eq {d : Dev} {i : Nat} {on : Bool} (h : (d.str i).unanchored ≠ on) : battUnanchor d i on =
    (d.modStr i fun r => { r with unanchored := on, unSteps := 0 }).raise 0x0903 (b2n on) (d.strHandle i) := if_neg h

theorem battUnanchored_due (i : Nat) (d : Dev) :
    let due := d.enabled tString i && d.plane.mgmtRunning && decide (d.anchorMax i ≤ (d.str i).age) && !(d.str i).unanchored
    (due = false → battUnanchored i d = d) ∧
    (due = true → battUnanchored i d =
      (d.modStr i fun r => { r with unanchored := true, unSteps := 0 }).raise 0x0903 1 (d.strHandle i)) := by
  unfold battUnanchored
  constructor <;> intro hdue <;> cases hun : (d.str i).unanchored <;> rw [hun] at hdue <;> simp only [Bool.not_true, Bool.not_false,
    Bool.and_false, Bool.and_true] at hdue
  · rw [if_neg (by rw [hdue]; decide)]
  · rw [show battUnanchor d i true = d from if_pos hun, ite_self]
  · rw [if_pos hdue, battUnanchor_eq (by rw [hun]; decide)]
    rfl
  · contradiction

/-! ### The impedance window (R304, R322) -/

theorem zMean_none {turns used w : Nat} {re im : Int} (h : 2 * used < turns) : zMean turns used w re im = none := if_pos (.inl h)

theorem zMean_some {turns used w : Nat} {re im : Int} (h : turns ≤ 2 * used) (hw : w ≠ 0) : (zMean turns used w re im).isSome = true := by
  unfold zMean
  rw [if_neg (by omega)]
  rfl

/-- A change of the impedance table alone. -/
theorem zUpdate_frame (d : Dev) (i h : Nat) (z : Int × Int) : ∃ t, zUpdate d i h z = { d with kiln := { d.kiln with impedance := t } } :=
  ⟨_, rfl⟩

/-- What a change of the service state leaves of the block and of its string's window. -/
structure WinKept (i : Nat) (d e : Dev) : Prop where
  src : e.src = d.src
  pwm : e.pwm = d.pwm
  impedance : e.kiln.impedance = d.kiln.impedance
  zWin : (e.str i).zWin = (d.str i).zWin

namespace WinKept
variable {i : Nat} {d e f : Dev}

theorem refl (d : Dev) : WinKept i d d := ⟨rfl, rfl, rfl, rfl⟩

theorem trans (h : WinKept i d e) (h' : WinKept i e f) : WinKept i d f :=
  ⟨h'.src.trans h.src, h'.pwm.trans h.pwm, h'.impedance.trans h.impedance, h'.zWin.trans h.zWin⟩

theorem of_strs (hsrc : e.src = d.src) (hpwm : e.pwm = d.pwm) (hkiln : e.kiln = d.kiln) (h : e.strs = d.strs) : WinKept i d e := by
  refine ⟨hsrc, hpwm, by rw [hkiln], ?_⟩
  unfold Dev.str
  rw [h]

theorem modStr (d : Dev) {g : StrRt → StrRt} (h : ∀ r, (g r).zWin = r.zWin) : WinKept i d (d.modStr i g) :=
  ⟨rfl, rfl, rfl, by rw [str_modStr_self]; exact h _⟩

theorem of_modStr {g : StrRt → StrRt} (h : WinKept i (d.modStr i g) e) (hg : ∀ r, (g r).zWin = r.zWin) : WinKept i d e :=
  (modStr d hg).trans h

theorem modStr_of (h : WinKept i d e) {g : StrRt → StrRt} (hg : ∀ r, (g r).zWin = r.zWin) : WinKept i d (e.modStr i g) :=
  h.trans (modStr e hg)

theorem event (d : Dev) (j code detail : Nat) : WinKept i d (battEvent d j code detail) :=
  of_strs (by simp [battEvent]) (by simp [battEvent]) (by simp [battEvent]) (by simp [battEvent])

theorem hibEvent (d : Dev) (j v : Nat) : WinKept i d (hibEvent d j v) :=
  of_strs (by simp [Machine.hibEvent]) (by simp [Machine.hibEvent]) (by simp [Machine.hibEvent]) (by simp [Machine.hibEvent])

theorem battSave (d : Dev) : WinKept i d (battSave d i) := by
  unfold Machine.battSave
  split
  · exact refl d
  · exact ⟨rfl, rfl, rfl, (modStr d (g := fun r => { r with bSave := r.b }) fun _ => rfl).zWin⟩

theorem groupStart (d : Dev) (j : Nat) : WinKept i d (groupStart d j) := by
  obtain ⟨a, t, he, -⟩ := pdRestart_frame d (d.strGroup j)
  unfold Machine.groupStart
  rw [he]
  exact ⟨rfl, rfl, rfl, rfl⟩

theorem battWake (d : Dev) : WinKept i d (battWake d i) := by
  unfold Machine.battWake
  dsimp only
  split
  · refine WinKept.trans ?_ (hibEvent ..)
    refine ((groupStart d i).modStr_of ?_).modStr_of ?_ <;> exact fun _ => rfl
  · exact (groupStart d i).modStr_of fun _ => rfl
  · exact refl d

theorem battFullRate (d : Dev) : WinKept i d (battFullRate d i) := by
  unfold Machine.battFullRate
  split
  · exact battWake d
  · exact modStr d fun _ => rfl

theorem battEnter (d : Dev) (s : Service) : WinKept i d (battEnter d i s) := by
  unfold Machine.battEnter
  dsimp only
  have hfull : WinKept i d (if s = .normal then Machine.battFullRate d i else d) := by
    split
    · exact battFullRate d
    · exact refl d
  exact hfull.trans (of_modStr (.trans (.event ..) (.battSave _)) fun _ => rfl)

theorem battStarted (d : Dev) : WinKept i d (battStarted d i) := by
  unfold Machine.battStarted battService
  dsimp only
  split
  · split
    · exact refl d
    · exact battEnter ..
  · exact refl d
end WinKept

/-- A window's means, offered to the impedance table. -/
def zLearn (d : Dev) (i : Nat) (z2 z6 : Option (Int × Int)) : Dev :=
  let d := match z2 with | some z => zUpdate d i 0 z | none => d
  match z6 with | some z => zUpdate d i 1 z | none => d

theorem zLearn_frame (d : Dev) (i : Nat) (z2 z6 : Option (Int × Int)) :
    ∃ t, zLearn d i z2 z6 = { d with kiln := { d.kiln with impedance := t } } := by
  have hset (d : Dev) (h : Nat) (z : Option (Int × Int)) : ∃ t, (match z with | some z => zUpdate d i h z | none => d) =
      { d with kiln := { d.kiln with impedance := t } } := by
    cases z with
    | some z => exact zUpdate_frame d i h z
    | none => exact ⟨d.kiln.impedance, rfl⟩
  unfold zLearn
  dsimp only
  obtain ⟨t, ht⟩ := hset d 0 z2
  rw [ht]
  exact hset _ 1 z6

/-- The window of a string closes: its means are kept, learned where the string is anchored well enough, and may end START. -/
theorem zWindowClose_full {i : Nat} {d : Dev}
    (h : (d.enabled tString i && d.plane.mgmtRunning && decide (d.battP i 5 0 16 50 ≤ (d.str i).zWin.turns)) = true) :
    let r := d.str i
    let w := r.zWin
    let z2 := zMean w.turns w.used2 w.w2 w.re2 w.im2
    let z6 := zMean w.turns w.used6 w.w6 w.re6 w.im6
    let e := d.modStr i fun r => { r with
      zWin := {}, zValid := r.zValid || z2.isSome || z6.isSome
      zLast := match z2 with | some z => some (d.wheel.turn, z.1) | none => r.zLast }
    zWindowClose i d = battStarted (if r.u ≤ 2 ^ 48 / 10 then zLearn e i z2 z6 else e) i :=
  if_pos h

theorem zWindowClose_unused {i : Nat} {d : Dev}
    (h : (d.enabled tString i && d.plane.mgmtRunning && decide (d.battP i 5 0 16 50 ≤ (d.str i).zWin.turns)) = true)
    (h2 : 2 * (d.str i).zWin.used2 < (d.str i).zWin.turns) (h6 : 2 * (d.str i).zWin.used6 < (d.str i).zWin.turns)
    (hs : (d.str i).service ≠ .start) : zWindowClose i d = d.modStr i fun r => { r with zWin := {} } := by
  rw [zWindowClose_full h, zMean_none h2, zMean_none h6]
  have he (e : Dev) : zLearn e i none none = e := rfl
  rw [he, ite_self, battStarted_quiet (by rw [str_modStr_self]; exact hs)]
  simp only [Option.isSome_none, Bool.or_false]

/-- What a full window leaves before it may end START. -/
structure WindowTaken (i : Nat) (d m : Dev) : Prop where
  acq : m.acq = d.acq
  src : m.src = d.src
  pwm : m.pwm = d.pwm
  zWin : (m.str i).zWin = {}
  service : (m.str i).service = (d.str i).service
  zValid : (d.str i).zWin.turns ≤ 2 * (d.str i).zWin.used2 → (d.str i).zWin.w2 ≠ 0 → (m.str i).zValid = true
  impedance : 2 ^ 48 / 10 < (d.str i).u → m.kiln.impedance = d.kiln.impedance

theorem zWindowClose_taken {i : Nat} {d : Dev}
    (h : (d.enabled tString i && d.plane.mgmtRunning && decide (d.battP i 5 0 16 50 ≤ (d.str i).zWin.turns)) = true) :
    ∃ m, WindowTaken i d m ∧ zWindowClose i d = battStarted m i := by
  refine ⟨_, ?_, zWindowClose_full h⟩
  have he (z2 z6 : Option (Int × Int)) (g : StrRt → StrRt) (hz : (g (d.str i)).zWin = {}) (hs : (g (d.str i)).service = (d.str i).service)
      (hv : (d.str i).zWin.turns ≤ 2 * (d.str i).zWin.used2 → (d.str i).zWin.w2 ≠ 0 → (g (d.str i)).zValid = true) :
      WindowTaken i d (if (d.str i).u ≤ 2 ^ 48 / 10 then zLearn (d.modStr i g) i z2 z6 else d.modStr i g) := by
    split
    · next hu =>
      obtain ⟨t, ht⟩ := zLearn_frame (d.modStr i g) i z2 z6
      rw [ht]
      have hstr : ({ d.modStr i g with kiln := { (d.modStr i g).kiln with impedance := t } } : Dev).str i = g (d.str i) :=
        str_modStr_self d i g
      exact ⟨rfl, rfl, rfl, by rw [hstr, hz], by rw [hstr, hs], fun h2 hw => by rw [hstr, hv h2 hw], fun hlt => absurd hu hlt.not_ge⟩
    · have hstr := str_modStr_self d i g
      exact ⟨rfl, rfl, rfl, by rw [hstr, hz], by rw [hstr, hs], fun h2 hw => by rw [hstr, hv h2 hw], fun _ => rfl⟩
  refine he _ _ _ rfl rfl fun h2 hw => ?_
  dsimp only
  rw [zMean_some h2 hw, Bool.or_true, Bool.true_or]

theorem zWindowClose_kept {i : Nat} {d : Dev}
    (h : (d.enabled tString i && d.plane.mgmtRunning && decide (d.battP i 5 0 16 50 ≤ (d.str i).zWin.turns)) = true) :
    let r := d.str i
    let w := r.zWin
    let e := zWindowClose i d
    (e.str i).zWin = {} ∧ e.src = d.src ∧ e.pwm = d.pwm ∧
    (r.service ≠ .start → e.acq = d.acq ∧ (w.turns ≤ 2 * w.used2 → w.w2 ≠ 0 → (e.str i).zValid = true)) ∧
    (2 ^ 48 / 10 < r.u → e.kiln.impedance = d.kiln.impedance) := by
  obtain ⟨m, hm, he⟩ := zWindowClose_taken h
  have hkept : WinKept i m (battStarted m i) := .battStarted m
  rw [he]
  refine ⟨hkept.zWin.trans hm.zWin, hkept.src.trans hm.src, hkept.pwm.trans hm.pwm, fun hs => ?_,
    fun hlt => hkept.impedance.trans (hm.impedance hlt)⟩
  rw [battStarted_quiet (by rw [hm.service]; exact hs)]
  exact ⟨hm.acq, hm.zValid⟩

/-- One turn of a window (R304). -/
theorem zWin_add (w : ZWin) (ok : Bool) (ripMin : Nat) (c v : Cx × Cx) :
    let e := w.add ok ripMin c v
    let lim := (ripMin * 1000000) ^ 2
    e.turns = w.turns + 1 ∧ (ok = false → e = { w with turns := w.turns + 1 }) ∧
    (ok = true → e.used2 = w.used2 + (if lim ≤ c.1.sq then 1 else 0) ∧ e.used6 = w.used6 + (if lim ≤ c.2.sq then 1 else 0)) := by
  unfold ZWin.add
  dsimp only
  cases ok with
  | false => exact ⟨rfl, fun _ => rfl, nofun⟩
  | true =>
    simp only [Bool.true_and, decide_eq_true_eq]
    by_cases h1 : (ripMin * 1000000) ^ 2 ≤ c.1.sq <;> by_cases h2 : (ripMin * 1000000) ^ 2 ≤ c.2.sq <;>
      simp [h1, h2]

/-! ### The cut-off and its release (R310) -/

theorem battCutoff_eq (i : Nat) (d : Dev) :
    let r := d.str i
    let trips := (d.slot tString i).hstate ≠ .disabled ∧ r.cut = false ∧
      (field (d.strCfg i) 10 16 16 * 8192 ≤ r.cutTime.1 ∨ field (d.strCfg i) 10 16 16 * 8192 ≤ r.cutTime.2.1 ∨
        field (d.strCfg i) 10 16 16 * 8192 ≤ r.cutTime.2.2)
    let e := (d.modStr i fun r => { r with cut := true, cutStep := true }).raise 0x0901
      (fitU 16 (roundOpen (d.strVolt i * 125) (2 ^ 23 * 100))) (d.strHandle i)
    (¬trips → battCutoff i d = d) ∧ (trips → d.setOfInput inBat = none → battCutoff i d = e) ∧
    (∀ n, trips → d.setOfInput inBat = some n → battCutoff i d = srcBatHold e n) := by
  intro r trips e
  have hcond : ((d.slot tString i).hstate != .disabled && !r.cut &&
      decide (field (d.strCfg i) 10 16 16 * 8192 ≤ max r.cutTime.1 (max r.cutTime.2.1 r.cutTime.2.2))) = true ↔ trips := by
    simp only [trips, Bool.and_eq_true, bne_iff_ne, ne_eq, Bool.not_eq_true', decide_eq_true_eq, le_max_iff, and_assoc]
  have hset : e.setOfInput inBat = d.setOfInput inBat := setOfInput_congr (by simp [e]) _
  have heq : battCutoff i d = if trips then (match e.setOfInput inBat with | some n => srcBatHold e n | none => e) else d := by
    unfold battCutoff
    exact if_congr hcond rfl rfl
  rw [heq, hset]
  refine ⟨fun h => if_neg h, fun h hn => ?_, fun n h hn => ?_⟩ <;> rw [if_pos h, hn]

/-- Whether another input than BAT has carried the set `o` for the turns that a release asks for. -/
def otherCarries (d : Dev) (i : Nat) (o : Option Nat) : Bool :=
  match o with
  | some n =>
    (match (d.srcSet n).selected with
      | some x => x != inBat && decide (field (d.strCfg i) 11 0 16 ≤ ((d.srcSet n).input x).turns)
      | none => false)
  | none => false

theorem cutoffRelease_other (i : Nat) (d : Dev) : cutoffRelease i d =
    if (d.str i).cut && otherCarries d i (d.setOfInput inBat) then d.modStr i fun r => { r with cut := false } else d := rfl

theorem otherCarries_selected {d : Dev} {n x : Nat} (i : Nat) (h : (d.srcSet n).selected = some x) :
    otherCarries d i (some n) = (x != inBat && decide (field (d.strCfg i) 11 0 16 ≤ ((d.srcSet n).input x).turns)) := by
  unfold otherCarries
  dsimp only
  rw [h]

theorem otherCarries_idle {d : Dev} {n : Nat} (i : Nat) (h : (d.srcSet n).selected = none) : otherCarries d i (some n) = false := by
  unfold otherCarries
  dsimp only
  rw [h]

theorem cutoffRelease_nothing {i : Nat} {d : Dev} (h : otherCarries d i (d.setOfInput inBat) = false) : cutoffRelease i d = d := by
  rw [cutoffRelease_other, h, Bool.and_false, if_neg Bool.false_ne_true]

theorem cutoffRelease_eq (i : Nat) (d : Dev) :
    let r := d.str i
    (∀ n x, d.setOfInput inBat = some n → (d.srcSet n).selected = some x → x ≠ inBat →
      (r.cut = true → field (d.strCfg i) 11 0 16 ≤ ((d.srcSet n).input x).turns →
        cutoffRelease i d = d.modStr i fun r => { r with cut := false }) ∧
      (((d.srcSet n).input x).turns < field (d.strCfg i) 11 0 16 → cutoffRelease i d = d)) ∧
    (r.cut = false ∨ d.setOfInput inBat = none → cutoffRelease i d = d) ∧
    (∀ n, d.setOfInput inBat = some n → (d.srcSet n).selected = none ∨ (d.srcSet n).selected = some inBat →
      cutoffRelease i d = d) := by
  refine ⟨fun n x hn hx hne => ⟨fun hcut ht => ?_, fun ht => ?_⟩, ?_, fun n hn hx => ?_⟩
  · rw [cutoffRelease_other, hn, otherCarries_selected i hx, hcut, bne_iff_ne.2 hne, decide_eq_true ht]
    exact if_pos rfl
  · refine cutoffRelease_nothing ?_
    rw [hn, otherCarries_selected i hx, decide_eq_false (by omega), Bool.and_false]
  · rintro (hcut | hnone)
    · rw [cutoffRelease_other, hcut, Bool.false_and, if_neg Bool.false_ne_true]
    · exact cutoffRelease_nothing (by rw [hnone]; rfl)
  · refine cutoffRelease_nothing ?_
    rw [hn]
    rcases hx with hx | hx
    · exact otherCarries_idle i hx
    · rw [otherCarries_selected i hx, bne_self_eq_false, Bool.false_and]

/-! ### BAT, held off its set -/

/-- BAT of set `n` is down, and no SEQUENCE is its brown-out. -/
structure BatDown (n : Nat) (d : Dev) : Prop where
  st : ((d.srcSet n).input inBat).st = .down
  brown : d.brownoutSeq n = none

namespace BatDown
variable {n : Nat} {d e : Dev}

theorem congr (h : BatDown n d) (hslots : e.slots = d.slots) (hsrc : e.srcSet n = d.srcSet n) : BatDown n e :=
  ⟨hsrc ▸ h.st, (brownoutSeq_congr hslots n).trans h.brown⟩

theorem modSrc (h : BatDown n d) {f : SrcRt → SrcRt} (hf : (f (d.srcSet n)).ins = (d.srcSet n).ins) : BatDown n (d.modSrc n f) := by
  refine ⟨?_, (brownoutSeq_congr (e := d.modSrc n f) rfl n).trans h.brown⟩
  rw [srcSet_modSrc_self]
  unfold SrcRt.input
  rw [hf]
  exact h.st

theorem floats (h : BatDown n d) : d.srcFloats n = false := by
  unfold Dev.srcFloats
  rw [h.st]
  rfl

theorem note (h : BatDown n d) (o x cause : Option Nat) : BatDown n (srcNote d n o x cause) := by
  obtain ⟨t, k, he⟩ := recordTick_frame d
  unfold srcNote
  rw [he]
  exact (h.congr (e := { d with fresh := k }) rfl rfl).modSrc rfl

theorem free (h : BatDown n d) (k : Nat) : BatDown n (d.freeBits k).2 := h.congr rfl rfl

/-- A value that is known, or left free. -/
theorem known (h : BatDown n d) (o : Option Nat) (k : Nat) : BatDown n (match o with | some v => (v, d) | none => d.freeBits k).2 := by
  cases o with
  | some v => exact h
  | none => exact h.free k

theorem block (h : BatDown n d) (outcome : Nat) (gap vbus : Option Nat) : BatDown n (srcBlock d n outcome gap vbus) := by
  unfold srcBlock
  dsimp only
  refine BatDown.modSrc ?_ ?_
  · cases gap with
    | some g => exact (h.known _ 8).known vbus 16
    | none => exact (((h.known _ 8).free 32).known vbus 16).free 16
  · rfl

theorem idle (h : BatDown n d) : BatDown n (srcIdle d n) := h.modSrc rfl

theorem start (h : BatDown n d) (o : Option Nat) (x : Nat) (cause : Option Nat) : BatDown n (srcStart d n o x cause) :=
  (h.note o (some x) cause).modSrc rfl
end BatDown

/-- Into BAT: it goes down. -/
theorem batDown_modIn {d : Dev} {n : Nat} (h : d.brownoutSeq n = none) {f : SrcInput → SrcInput} (hf : ∀ i, (f i).st = .down) :
    BatDown n (d.modIn n inBat f) := by
  refine ⟨?_, (brownoutSeq_congr (e := d.modIn n inBat f) rfl n).trans h⟩
  unfold Dev.modIn
  rw [srcSet_modSrc_self]
  unfold SrcRt.input
  rw [tget_tmod_self]
  exact hf _

theorem srcBrownout_unnamed {d : Dev} {n : Nat} (h : d.brownoutSeq n = none) :
    srcBrownout d n = d ∨ srcBrownout d n = d.modSrc n fun r => { r with brownStarted := true } := by
  unfold srcBrownout
  split
  · exact .inl rfl
  · dsimp only
    rw [(brownoutSeq_congr (e := d.modSrc n fun r => { r with brownStarted := true }) rfl n).trans h]
    exact .inr rfl

/-- With no brown-out a set enters NONE and nothing else of its transfer changes. -/
theorem srcEnterNone_batDown {d : Dev} {n : Nat} (h : BatDown n d) : BatDown n (srcEnterNone d n) ∧
    ((srcEnterNone d n).srcSet n).selected = (d.srcSet n).selected := by
  have hr : BatDown n ((d.modSrc n fun r => { r with inNone := true, huChg := false }).raise 0x0702 0 (d.srcHandle n)) ∧
      (((d.modSrc n fun r => { r with inNone := true, huChg := false }).raise 0x0702 0 (d.srcHandle n)).srcSet n).selected =
        (d.srcSet n).selected := by
    have hm : BatDown n (d.modSrc n fun r => { r with inNone := true, huChg := false }) := h.modSrc rfl
    have hsrc : ((d.modSrc n fun r => { r with inNone := true, huChg := false }).raise 0x0702 0 (d.srcHandle n)).srcSet n =
        { d.srcSet n with inNone := true, huChg := false } := by
      unfold Dev.srcSet
      rw [Dev.raise_src]
      exact srcSet_modSrc_self d n _
    exact ⟨hm.congr (by simp) (by rw [hsrc, srcSet_modSrc_self]), by rw [hsrc]⟩
  unfold srcEnterNone srcBankLow
  rw [h.floats, if_neg Bool.false_ne_true]
  generalize (d.modSrc n fun r => { r with inNone := true, huChg := false }).raise 0x0702 0 (d.srcHandle n) = e at hr ⊢
  split
  · rcases srcBrownout_unnamed hr.1.brown with he | he <;> rw [he]
    · exact hr
    · exact ⟨hr.1.modSrc rfl, by rw [srcSet_modSrc_self]; exact hr.2⟩
  · exact hr

/-- BAT is down, and a set that is idle has nothing selected. -/
structure BatIdle (n : Nat) (d : Dev) : Prop extends BatDown n d where
  selected : (d.srcSet n).xfer = .idle → (d.srcSet n).selected = none

/-- A start leaves a transfer, so nothing selected. -/
theorem srcStart_batIdle {d : Dev} {n : Nat} (h : BatDown n d) (o : Option Nat) (x : Nat) (cause : Option Nat) :
    BatIdle n (srcStart d n o x cause) := by
  refine ⟨h.start o x cause, fun hx => ?_⟩
  unfold srcStart at hx
  rw [srcSet_modSrc_self] at hx
  dsimp only at hx
  split at hx <;> contradiction

/-- A SET_POINT of a set that has nothing selected, and BAT down (R258, R266). -/
theorem srcForce_batIdle {d : Dev} {n : Nat} (h : BatDown n d) (hsel : (d.srcSet n).selected = none) (v : Nat) : BatIdle n (srcForce d n v).1 := by
  unfold srcForce
  dsimp only
  have hforce (o : Option Nat) : BatIdle n (d.modSrc n fun r => { r with forced := o }) :=
    ⟨h.modSrc rfl, fun _ => by rw [srcSet_modSrc_self]; exact hsel⟩
  split
  · exact hforce none
  · split
    · rw [hsel]
      dsimp only
      split
      · exact srcStart_batIdle (hforce (some v)).toBatDown ..
      · exact hforce (some v)
    · exact ⟨h, fun _ => hsel⟩

theorem BatIdle.answer {n : Nat} {d : Dev} (h : BatIdle n d) (w : Wait) (c : Cpl) : BatIdle n (d.answerWait w c) := by
  rw [answerWait_frame]
  exact ⟨h.toBatDown.congr rfl rfl, h.selected⟩

theorem srcApply_batDown {n : Nat} (fuel : Nat) {d : Dev} (h : BatIdle n d) : BatDown n (srcApply fuel d n) := by
  induction fuel generalizing d with
  | zero => exact h.toBatDown
  | succ fuel ih =>
    unfold srcApply
    dsimp only
    split
    · exact h.toBatDown
    · next hidle =>
      have hx : (d.srcSet n).xfer = .idle := by simpa using hidle
      split
      · exact h.toBatDown
      · next w _ =>
        have hw : BatDown n { d with waits := d.waits.erase w } := h.toBatDown.congr rfl rfl
        exact ih ((srcForce_batIdle hw (h.selected hx) _).answer ..)

theorem srcDeferred_batDown {d : Dev} {n : Nat} (h : BatIdle n d) : BatDown n (srcDeferred d n) := srcApply_batDown _ h

/-- The end of a transfer in NONE. -/
theorem srcEndNone_batDown {d : Dev} {n : Nat} (h : BatDown n d) (outcome : Nat) (gap vbus : Option Nat) :
    BatDown n (srcDeferred (srcEnterNone (srcIdle (srcBlock d n outcome gap vbus) n) n) n) := by
  obtain ⟨hn, hsel⟩ := srcEnterNone_batDown (h.block outcome gap vbus).idle
  refine srcDeferred_batDown ⟨hn, fun _ => hsel.trans ?_⟩
  unfold srcIdle
  rw [srcSet_modSrc_self]

theorem urgentTrigger_srcSet (c chan : Nat) (d : Dev) (n : Nat) :
    (urgentTrigger c chan d).slots = d.slots ∧ (urgentTrigger c chan d).srcSet n = d.srcSet n := by
  unfold urgentTrigger
  dsimp only
  split
  · exact ⟨rfl, rfl⟩
  · split <;> exact ⟨rfl, rfl⟩

theorem srcLost_bat {d : Dev} {n : Nat} (h : d.brownoutSeq n = none) (cause : Nat) : BatDown n (srcLost d n inBat cause) := by
  have hd : BatDown n (urgentTrigger 11 (44 + inBat) (d.modIn n inBat fun i => { i.enter .down with blocked := false })) := by
    obtain ⟨hslots, hsrc⟩ := urgentTrigger_srcSet 11 (44 + inBat) (d.modIn n inBat fun i => { i.enter .down with blocked := false }) n
    exact (batDown_modIn h fun _ => rfl).congr hslots hsrc
  unfold srcLost
  dsimp only
  generalize urgentTrigger 11 (44 + inBat) (d.modIn n inBat fun i => { i.enter .down with blocked := false }) = e at hd ⊢
  split
  · exact hd.start ..
  · split
    · exact hd.modSrc rfl
    · split
      · exact hd.modSrc rfl
      · exact srcEndNone_batDown (hd.note ..) ..

theorem srcMakeFails_bat {d : Dev} {n : Nat} (h : d.brownoutSeq n = none) : BatDown n (srcMakeFails d n inBat .down) := by
  have hd : BatDown n (d.modIn n inBat fun i => { i.enter .down with blocked := true }) := batDown_modIn h fun _ => rfl
  unfold srcMakeFails srcDriveNext
  generalize (d.modIn n inBat fun i => { i.enter .down with blocked := true }) = e at hd ⊢
  split
  · refine srcDeferred_batDown ⟨hd.modSrc rfl, fun hx => ?_⟩
    rw [srcSet_modSrc_self] at hx
    contradiction
  · exact srcEndNone_batDown hd ..

theorem srcWindowLoss_bat {d : Dev} {n : Nat} (h : d.brownoutSeq n = none) (hst : ((d.srcSet n).input inBat).st = .available) :
    BatDown n (srcWindowLoss n inBat d) := by
  have hd : BatDown n (d.modIn n inBat fun i => i.enter .down) := batDown_modIn h fun _ => rfl
  unfold srcWindowLoss
  dsimp only
  rw [if_pos hst]
  split
  · exact srcMakeFails_bat h
  · split
    · split
      · exact hd.modSrc rfl
      · exact srcEndNone_batDown hd ..
    · exact hd

theorem srcBatOpens_bat {d : Dev} {n : Nat} (h : d.brownoutSeq n = none) (hst : ((d.srcSet n).input inBat).st = .floating) :
    BatDown n (srcBatOpens d n) := by
  have hd : BatDown n (d.modIn n inBat fun i => i.enter .down) := batDown_modIn h fun _ => rfl
  unfold srcBatOpens Dev.srcFloats
  rw [hst, if_pos (by rfl)]
  dsimp only
  split
  · exact (srcEnterNone_batDown hd).1
  · exact hd

/-- BAT held off its set is down, or was no better. -/
theorem srcBatHold_st (d : Dev) (n : Nat) (h : d.brownoutSeq n = none) :
    (((srcBatHold d n).srcSet n).input inBat).st ∈ [SrcState.down, .failed, .stuckOn] := by
  have hdown {e : Dev} (he : BatDown n e) : ((e.srcSet n).input inBat).st ∈ [SrcState.down, .failed, .stuckOn] := by
    rw [he.st]
    decide
  unfold srcBatHold
  cases hst : ((d.srcSet n).input inBat).st with
  | selected => exact hdown (srcLost_bat h 1)
  | floating => exact hdown (srcBatOpens_bat h hst)
  | available => exact hdown (srcWindowLoss_bat h hst)
  | qualifying => exact hdown (batDown_modIn h fun _ => rfl)
  | down | failed | stuckOn =>
    dsimp only
    rw [hst]
    decide

theorem srcBatHold_selected {d : Dev} {n : Nat} (h : ((d.srcSet n).input inBat).st = .selected) : srcBatHold d n = srcLost d n inBat 1 := by
  unfold srcBatHold
  rw [h]

/-! ### Hibernation and reduced sampling (R317, R318) -/

theorem pdStop_frame (d : Dev) (g : Nat) : ∃ a t, pdStop d g = { d with acq := a, tal := t } ∧ g ∈ a.pdStopped := by
  unfold pdStop
  split
  · next h => exact ⟨d.acq, d.tal, rfl, List.contains_iff_mem.1 h⟩
  · exact ⟨_, _, rfl, (mem_sortNat ..).2 (List.mem_cons_self ..)⟩

/-- What a running cycle comes to when it fails (R313). -/
theorem learnFails_kept (d : Dev) (i code : Nat) :
    let e := learnFails d i code
    e.acq = d.acq ∧ (e.str i).q = (d.str i).q ∧
    ((d.str i).learn.st = .running → (e.str i).learn.st = .idle ∧ (e.str i).learn.last = code) := by
  intro e
  have hq : (e.str i).q = (d.str i).q := (congrArg StrRt.q (StrQuiet.learnFails d code).core :)
  refine ⟨?_, hq, fun h => ?_⟩
  · show (learnFails d i code).acq = d.acq
    unfold learnFails
    split
    · exact Dev.raise_acq ..
    · rfl
  · have he : e = battEvent (d.modStr i fun r => { r with learn := { r.learn with st := .idle, last := code } }) i 0x0905 code := if_pos h
    have hstr : e.str i = { d.str i with learn := { (d.str i).learn with st := .idle, last := code } } := by
      rw [he]
      unfold battEvent Dev.str
      rw [Dev.raise_strs]
      exact str_modStr_self d i _
    rw [hstr]
    exact ⟨rfl, rfl⟩

theorem battHibernate_none {i : Nat} {d : Dev} (h : d.plane.profile.hibernate = none) : battHibernate i d = d := by
  unfold battHibernate
  dsimp only
  rw [h]

/-- What a string must be to be stopped. -/
def CanStop (d : Dev) (i : Nat) : Prop := d.enabled tString i = true ∧ (d.str i).power = .awake ∧ groupOwn d i = true

/-- The device that hibernates string `i`. -/
def hibernated (i : Nat) (d : Dev) : Dev :=
  hibEvent ((learnFails (groupStop d i) i 5).modStr i fun r =>
    { r with power := .hibernating, run := { r.run with awake := false, hibernated := true, estimated := true } }) i 1

theorem battHibernate_some {i n : Nat} {d : Dev} (h : d.plane.profile.hibernate = some n) :
    ((CanStop d i ∧ (d.str i).service = .normal ∧ n ≤ (d.str i).lowTurns ∧ (d.str i).cutTime = (0, 0, 0)) →
      battHibernate i d = hibernated i d) ∧
    (¬(CanStop d i ∧ (d.str i).service = .normal ∧ n ≤ (d.str i).lowTurns ∧ (d.str i).cutTime = (0, 0, 0)) → battHibernate i d = d) := by
  have hcond : (d.enabled tString i && (d.str i).service == .normal && (d.str i).power == .awake && decide (n ≤ (d.str i).lowTurns) &&
      groupOwn d i && (d.str i).cutTime == (0, 0, 0)) = true ↔
      CanStop d i ∧ (d.str i).service = .normal ∧ n ≤ (d.str i).lowTurns ∧ (d.str i).cutTime = (0, 0, 0) := by
    unfold CanStop
    simp only [Bool.and_eq_true, beq_iff_eq, decide_eq_true_eq]
    tauto
  unfold battHibernate
  dsimp only
  rw [h]
  exact ⟨fun hc => if_pos (hcond.2 hc), fun hc => if_neg (hc ∘ hcond.1)⟩

theorem hibernated_kept (i : Nat) (d : Dev) :
    let e := hibernated i d
    (e.str i).power = .hibernating ∧ d.strGroup i ∈ e.acq.pdStopped ∧
    ((d.str i).learn.st = .running → (e.str i).learn.st = .idle ∧ (e.str i).learn.last = 5) ∧ (e.str i).q = (d.str i).q := by
  intro e
  obtain ⟨a, t, hstop, hmem⟩ := pdStop_frame d (d.strGroup i)
  obtain ⟨hacq, hq, hlearn⟩ := learnFails_kept (groupStop d i) i 5
  have hstr : (groupStop d i).str i = d.str i := by
    unfold groupStop
    rw [hstop]
    rfl
  have hga : (groupStop d i).acq = a := by
    unfold groupStop
    rw [hstop]
  rw [hstr] at hq hlearn
  rw [hga] at hacq
  have heacq : e.acq = a := (Dev.raiseOnceTurn_acq ..).trans hacq
  have hestr : e.str i = { (learnFails (groupStop d i) i 5).str i with
      power := .hibernating
      run := { ((learnFails (groupStop d i) i 5).str i).run with awake := false, hibernated := true, estimated := true } } := by
    show (hibernated i d).str i = _
    unfold hibernated hibEvent
    unfold Dev.str
    rw [Dev.raiseOnceTurn_strs]
    exact str_modStr_self _ i _
  rw [hestr, heacq]
  exact ⟨rfl, hmem, hlearn, hq⟩

/-- Whether the samples of string `i` are reduced. -/
def Slow (d : Dev) (i : Nat) : Prop :=
  CanStop d i ∧ (d.str i).service ≠ .normal ∧ (d.str i).reduced = false ∧ 16 ≤ (d.str i).lowTurns ∧ d.plane.profile ≠ .raku

theorem reducedSampling_eq (i : Nat) (d : Dev) :
    (¬Slow d i → reducedSampling i d = d) ∧
    (Slow d i → let e := reducedSampling i d
      (e.str i).power = .stopped ∧ (e.str i).reduced = true ∧ d.strGroup i ∈ e.acq.pdStopped ∧
      e = { d with strs := e.strs, acq := e.acq, tal := e.tal }) := by
  have hcond : (d.enabled tString i && (d.str i).service != .normal && (d.str i).power == .awake && !(d.str i).reduced &&
      decide (16 ≤ (d.str i).lowTurns) && d.plane.profile != .raku && groupOwn d i) = true ↔ Slow d i := by
    unfold Slow CanStop
    simp only [Bool.and_eq_true, beq_iff_eq, bne_iff_ne, decide_eq_true_eq, Bool.not_eq_true', ne_eq]
    tauto
  refine ⟨fun h => if_neg (h ∘ hcond.1), fun h => ?_⟩
  have he : reducedSampling i d = (groupStop d i).modStr i fun r =>
      { r with reduced := true, power := .stopped, run := { r.run with awake := false, stopped := true, estimated := true } } :=
    if_pos (hcond.2 h)
  obtain ⟨a, t, hstop, hmem⟩ := pdStop_frame d (d.strGroup i)
  unfold groupStop at he
  rw [he, hstop]
  dsimp only
  rw [str_modStr_self]
  exact ⟨rfl, rfl, hmem, rfl⟩

theorem pdChan_modPd_ne (d : Dev) {m n : Nat} (f : PdChan → PdChan) (h : m ≠ n) : (d.modPd n f).pdChan m = d.pdChan m :=
  tget_tmod_ne _ _ _ h

/-- A group that starts is stopped no more, and where it was, its channels settle (R105). -/
theorem pdRestart_settles (d : Dev) (g : Nat) :
    g ∉ (pdRestart d g).acq.pdStopped ∧
    (d.acq.pdStopped.contains g = true → ∀ k < 4, ((pdRestart d g).pdChan (4 * g + k)).settling = true) := by
  unfold pdRestart
  split
  · next h =>
    refine ⟨?_, fun _ k hk => ?_⟩
    · dsimp only
      have hkeep := foldl_keeps (fun d : Dev => d.acq.pdStopped) (f := fun (d : Dev) k => d.modPd (4 * g + k) fun c =>
        { c with settling := true, hist := [] }) (fun _ _ => rfl) (List.range 4)
      rw [hkeep]
      simp [Dev.tally]
    · dsimp only
      refine foldl_reaches (Q := fun _ _ => True) (P := fun k (d : Dev) => (d.pdChan (4 * g + k)).settling = true)
        (fun d a _ => ?_) (fun _ _ _ _ _ => trivial) (fun d a b hne hb => ?_) (List.range 4) _ List.nodup_range
        (fun _ _ => trivial) k (List.mem_range.2 hk)
      · rw [pdChan_modPd_self]
      · rw [pdChan_modPd_ne _ _ (by omega)]
        exact hb
  · next h => exact ⟨fun hm => h (List.contains_iff_mem.2 hm), fun hc => absurd hc h⟩

theorem reducedTurn_eq (i : Nat) (d : Dev) :
    let wakes := (d.str i).reduced = true ∧ (d.str i).power = .stopped ∧ (d.wheel.turn.toNat + 1) % 16 = i
    (¬wakes → reducedTurn i d = d) ∧
    (wakes → let e := reducedTurn i d
      (e.str i).power = .settling ∧ (e.str i).reduced = true ∧ d.strGroup i ∉ e.acq.pdStopped ∧
      (d.acq.pdStopped.contains (d.strGroup i) = true → ∀ k < 4, (e.pdChan (4 * d.strGroup i + k)).settling = true)) := by
  intro wakes
  have hcond : ((d.str i).reduced && (d.str i).power == .stopped && (d.wheel.turn.toNat + 1) % 16 == i) = true ↔ wakes := by
    simp only [wakes, Bool.and_eq_true, beq_iff_eq, and_assoc]
  refine ⟨fun h => if_neg (h ∘ hcond.1), fun h => ?_⟩
  have he : reducedTurn i d = (groupStart d i).modStr i fun r => { r with power := .settling, wakeCharge := 0 } := if_pos (hcond.2 h)
  obtain ⟨hstopped, hsettles⟩ := pdRestart_settles d (d.strGroup i)
  have hred : ((groupStart d i).str i).reduced = true := by
    obtain ⟨a, t, hstart, -⟩ := pdRestart_frame d (d.strGroup i)
    unfold groupStart
    rw [hstart]
    exact h.1
  rw [he]
  dsimp only
  rw [str_modStr_self]
  exact ⟨rfl, hred, hstopped, hsettles⟩

/-! ### The obligation -/

theorem estimatorStep_eq (d : Dev) :
    (d.plane.mgmtRunning = false ∨
        (∀ i ∈ d.liveIndices tString, d.enabled tString i = false ∨ (d.str i).stepDue = false) → estimatorStep d = d) ∧
    (d.plane.mgmtRunning = true → estimatorStep d =
      ((d.liveIndices tString).filter fun i => d.enabled tString i && (d.str i).stepDue).foldl battStep d) := by
  refine ⟨?_, fun h => if_pos h⟩
  rintro (h | h)
  · exact if_neg (by rw [h]; decide)
  · have hnil : ((d.liveIndices tString).filter fun i => d.enabled tString i && (d.str i).stepDue) = [] := by
      refine List.filter_eq_nil_iff.2 fun i hi hb => ?_
      obtain ⟨he, hs⟩ := Bool.and_eq_true_iff.1 hb
      rcases h i hi with h | h
      · rw [h] at he; contradiction
      · rw [h] at hs; contradiction
    unfold estimatorStep
    rw [hnil]
    exact ite_self _

theorem answers_onStr {c : Instr} {s : State} {i : Nat} {f : Dev → Dev} {e : Dev} (hn : i < 8)
    (hc : exec c s = s.onDevAt 8 i fun _ d => onStr i f d) (hlive : s.dev.live tString i = true) (h : f s.dev = e) : Answers c s e :=
  answersAt hn hc ((if_pos hlive).trans h)

theorem answers_notStr {c : Instr} {s : State} {i : Nat} {f : Dev → Dev} (hn : i < 8)
    (hc : exec c s = s.onDevAt 8 i fun _ d => onStr i f d) (hlive : s.dev.live tString i = false) : Answers c s s.dev :=
  answersAt hn hc (if_neg (by rw [hlive]; decide))

theorem battHibernate_answers {s : State} {i : Nat} (hn : i < 8) (hlive : s.dev.live tString i = true) :
    (s.dev.plane.profile.hibernate = none → Answers (.battHibernate i) s s.dev) ∧
    (∀ n, s.dev.plane.profile.hibernate = some n →
      (¬CanStop s.dev i ∨ (s.dev.str i).service ≠ .normal ∨ (s.dev.str i).lowTurns < n ∨ (s.dev.str i).cutTime ≠ (0, 0, 0)) →
      Answers (.battHibernate i) s s.dev) ∧
    (∀ n, s.dev.plane.profile.hibernate = some n → CanStop s.dev i → (s.dev.str i).service = .normal → n ≤ (s.dev.str i).lowTurns →
      (s.dev.str i).cutTime = (0, 0, 0) → Answers (.battHibernate i) s (hibernated i s.dev)) := by
  refine ⟨fun h => answers_onStr hn rfl hlive (battHibernate_none h), fun n h hno => ?_, fun n h hcan hs hl ht => ?_⟩
  · refine answers_onStr hn rfl hlive ((battHibernate_some h).2 ?_)
    rintro ⟨hcan, hs, hl, ht⟩
    rcases hno with hno | hno | hno | hno
    · exact hno hcan
    · exact hno hs
    · omega
    · exact hno ht
  · exact answers_onStr hn rfl hlive ((battHibernate_some h).1 ⟨hcan, hs, hl, ht⟩)

/-- Settles O53: each event of a string is its model function, whose branches the conditions pick. -/
theorem stringEvents : Obligations.StringEvents := by
  unfold Obligations.StringEvents
  refine ⟨fun s => ⟨fun h => .congr rfl ((estimatorStep_eq s.dev).1 h), fun h => .congr rfl ((estimatorStep_eq s.dev).2 h)⟩,
    battStep_kept, fun s i hn hlive c hc => ?_, fun s i hn hlive => ?_, zWin_add, fun s i hn hlive => ?_,
    fun d n h => ⟨srcBatHold_st d n h, srcBatHold_selected⟩, fun s i hn hlive => ?_⟩
  · fin_cases hc <;> exact answers_notStr hn rfl hlive
  · intro r w works due full
    obtain ⟨hnot, hdue⟩ := battUnanchored_due i s.dev
    refine ⟨fun h => answers_onStr hn rfl hlive (hnot h), fun h => answers_onStr hn rfl hlive (hdue h), fun h => ?_,
      fun h h2 h6 hs => answers_onStr hn rfl hlive (zWindowClose_unused h h2 h6 hs),
      fun h => ⟨_, answers_onStr hn rfl hlive rfl, zWindowClose_kept h⟩⟩
    exact answers_onStr hn rfl hlive (if_neg (by show ¬ full = true; rw [h]; decide))
  · intro r trips e
    obtain ⟨hno, hnone, hsome⟩ := battCutoff_eq i s.dev
    obtain ⟨hother, hcut, hidle⟩ := cutoffRelease_eq i s.dev
    refine ⟨fun h => answers_onStr hn rfl hlive (hno h), fun h hset => answers_onStr hn rfl hlive (hnone h hset),
      fun n h hset => answers_onStr hn rfl hlive (hsome n h hset), fun n x hset hx hne => ?_,
      fun h => answers_onStr hn rfl hlive (hcut h), fun n hset hx => answers_onStr hn rfl hlive (hidle n hset hx)⟩
    obtain ⟨hrel, hkeep⟩ := hother n x hset hx hne
    exact ⟨fun hc ht => answers_onStr hn rfl hlive (hrel hc ht), fun ht => answers_onStr hn rfl hlive (hkeep ht)⟩
  · intro r g can
    obtain ⟨hnone, hno, hhib⟩ := battHibernate_answers hn hlive
    obtain ⟨hnotslow, hslow⟩ := reducedSampling_eq i s.dev
    obtain ⟨hnotwake, hwake⟩ := reducedTurn_eq i s.dev
    refine ⟨hnone, hno, fun n h hcan hs hl ht => ⟨_, hhib n h hcan hs hl ht, hibernated_kept i s.dev⟩,
      fun h => answers_onStr hn rfl hlive (hnotslow h), fun h => ⟨_, answers_onStr hn rfl hlive rfl, hslow h⟩,
      fun h => answers_onStr hn rfl hlive (hnotwake h), fun h => ⟨_, answers_onStr hn rfl hlive rfl, hwake h⟩⟩

end Sys2Proof.Machine

end

/-! ## The Ledger and the tallies (spec 10, 19) -/

section
/-! PROOF. The close of a turn, the alarm, and the Tally reader (R272 to R290, R497 to R504). -/

namespace Sys2Proof.Machine

/-! ### What leaves the Ledger alone -/

theorem witValueAt_led (turn : BitVec 48) (src : Word) (q sub : Nat) (num : Int) (den : Nat) (dflt : Bool) (d : Dev) :
    (witValueAt turn src q sub num den dflt d).led = d.led := by
  unfold witValueAt
  split
  · rfl
  · refine foldl_keeps Dev.led (fun d key => ?_) _ d
    unfold witTake
    dsimp only
    split
    · split <;> rfl
    · rfl

theorem witLatchOne_led (d : Dev) (key : Nat) : (witLatchOne d key).1.led = d.led := by
  unfold witLatchOne
  dsimp only
  split
  · rfl
  · exact Dev.publish_led ..

theorem witLatchLate_led (d : Dev) : (witLatchLate d).led = d.led := by
  unfold witLatchLate
  split
  · rfl
  · exact foldl_keeps Dev.led witLatchOne_led _ d

@[simp] theorem modLed_led (d : Dev) (f : Led → Led) : (d.modLed f).led = f d.led := rfl

/-! ### The close (R281 to R286) -/

/-- What a close publishes. -/
def ledShown (d : Dev) : Dev :=
  let d := (d.publish 0 0x0800 d.led.turnBlock).publish 0 0x0801 d.led.accBlock
  if d.led.latched then (d.publish 0 0x0802 d.led.roundBlock).publish 0 0x0803 d.led.roundAccBlock else d

theorem ledShown_led (d : Dev) : (ledShown d).led = d.led := by
  unfold ledShown
  dsimp only
  split <;> simp only [Dev.publish_led]

theorem ledShown_host (d : Dev) : (ledShown d).host = d.host := by
  unfold ledShown
  dsimp only
  split <;> simp only [Dev.publish_host]

/-- The turn that is closed waits no longer. -/
def ledTaken (t : LedTurn) (d : Dev) : Dev := d.modLed fun l => { l with waiting := none, unmet := t.unmet }

theorem ledgerClose_nothing {d : Dev} (p h v : Nat) (hw : d.led.waiting = none) : ledgerClose p h v d = d := by
  unfold ledgerClose
  rw [hw]

theorem ledgerClose_fenced {d : Dev} {t : LedTurn} (p h v : Nat) (hw : d.led.waiting = some t) (hl : t.latch = none)
    (hf : d.led.fenced = true) : ledgerClose p h v d = ledTaken t d := by
  unfold ledgerClose
  rw [hw]
  dsimp only
  rw [hl]
  exact if_pos hf

theorem ledgerClose_runs {d : Dev} {t : LedTurn} (p h v : Nat) (hw : d.led.waiting = some t) (hf : d.led.fenced = false) :
    let c := (if t.reason = 0 then ledClosed else ledUnclosed) t (ownEnergy t p h v) (ledTaken t d)
    ledgerClose p h v d = ledShown (if t.latch.isSome then witLatchLate c else c) := by
  unfold ledgerClose
  rw [hw]
  exact if_neg (by show ¬ d.led.fenced = true; rw [hf]; decide)

theorem ledgerClose_led {d : Dev} {t : LedTurn} (p h v : Nat) (hw : d.led.waiting = some t) (hf : d.led.fenced = false) :
    (ledgerClose p h v d).led = ((if t.reason = 0 then ledClosed else ledUnclosed) t (ownEnergy t p h v) (ledTaken t d)).led := by
  rw [ledgerClose_runs p h v hw hf, ledShown_led]
  split
  · exact witLatchLate_led _
  · rfl

/-- The Ledger of a turn that stays unclosed. -/
theorem ledUnclosed_led (t : LedTurn) (own : Int) (d : Dev) : ∃ b a, (ledUnclosed t own d).led = ledLatch { d.led with
    lastClosed := false, turnBlock := b, accBlock := a
    round := { d.led.round with
      turns := d.led.round.turns + 1, coast := d.led.round.coast || t.coast, slew := d.led.round.slew || t.slew } } t := by
  have hraise : ((if d.led.lastClosed then d.raise 0x0802 t.reason 0 else d).tally 41 3 1).led = d.led := by
    rw [Dev.tally_led]
    split
    · exact Dev.raise_led ..
    · rfl
  unfold ledUnclosed
  dsimp only
  rw [modLed_led, hraise]
  exact ⟨_, _, rfl⟩

theorem ledUnclosed_host {t : LedTurn} (own : Int) {d : Dev} (h : d.led.lastClosed = false) : (ledUnclosed t own d).host = d.host := by
  unfold ledUnclosed
  dsimp only
  rw [h]
  rfl

/-- The Ledger once the turn's latch is taken. -/
theorem ledLatch_kept (l : Led) (t : LedTurn) :
    (ledLatch l t).waiting = l.waiting ∧ (ledLatch l t).lastClosed = l.lastClosed ∧ (ledLatch l t).unmet = l.unmet ∧
    (∀ n, t.latch = some n → (ledLatch l t).latched = true ∧ (ledLatch l t).round = {}) ∧
    (t.latch = none → ledLatch l t = { l with latched := false }) := by
  unfold ledLatch
  cases t.latch with
  | none => exact ⟨rfl, rfl, rfl, nofun, fun _ => rfl⟩
  | some n => exact ⟨rfl, rfl, rfl, fun _ _ => ⟨rfl, rfl⟩, nofun⟩

/-- What a close reports of the turn. -/
theorem closedTold_led (d : Dev) (p e : Prop) [Decidable p] [Decidable e] (x o : Nat) (turn : BitVec 48) (num : Int) (den : Nat) :
    (if e then (((if p then d.raise 0x0803 1 0 else d).tally 41 0 1).tally 41 1 x).tally 41 2 o
      else witValueAt turn 0 0x48 0 num den false
        ((((if p then d.raise 0x0803 1 0 else d).tally 41 0 1).tally 41 1 x).tally 41 2 o)).led = d.led := by
  have htold : ((((if p then d.raise 0x0803 1 0 else d).tally 41 0 1).tally 41 1 x).tally 41 2 o).led = d.led := by
    simp only [Dev.tally_led]
    split
    · exact Dev.raise_led ..
    · rfl
  split
  · exact htold
  · exact (witValueAt_led ..).trans htold

/-- The judgement of a turn: excused, beyond its bound, or within it. -/
structure Judged (excused beyond : Prop) (l m : Led) : Prop where
  ofExcused : excused → m.count = l.count ∧ m.good = l.good ∧ m.round.isOver = l.round.isOver ∧ m.round.resAudited = l.round.resAudited
  ofBeyond : ¬excused → beyond → m.count = l.count + 1 ∧ m.good = 0 ∧ m.round.isOver = l.round.isOver + 1
  ofWithin : ¬excused → ¬beyond → m.count = 0 ∧ m.good = l.good + 1 ∧ m.round.isOver = l.round.isOver

theorem judged_of {excused beyond : Prop} [Decidable beyond] {x : Bool} {l m : Led} {audited : Int} (hx : x = true ↔ excused)
    (hcount : m.count = if !x && decide beyond then l.count + 1 else if !x && !(!x && decide beyond) then 0 else l.count)
    (hgood : m.good = if !x && decide beyond then 0 else if !x && !(!x && decide beyond) then l.good + 1 else l.good)
    (hover : m.round.isOver = l.round.isOver + b2n (!x && decide beyond))
    (haudited : m.round.resAudited = if x then l.round.resAudited else audited) : Judged excused beyond l m := by
  refine ⟨fun h => ?_, fun h hb => ?_, fun h hb => ?_⟩
  · rw [hcount, hgood, hover, haudited, hx.2 h]
    exact ⟨rfl, rfl, rfl, rfl⟩
  · rw [hcount, hgood, hover, Bool.eq_false_iff.2 (h ∘ hx.1), decide_eq_true hb]
    exact ⟨rfl, rfl, rfl⟩
  · rw [hcount, hgood, hover, Bool.eq_false_iff.2 (h ∘ hx.1), decide_eq_false hb]
    exact ⟨rfl, rfl, rfl⟩

/-- The Ledger of a turn that is closed (R281 to R285). -/
theorem ledClosed_led (t : LedTurn) (own : Int) (d : Dev) :
    let as := t.accounts.map fun a => if a.kind = 0x0A then { a with value := own } else a
    let bat := usedSum as (fun a => a.kind == 1 && a.index == inBat) - usedSum as fun a => a.kind == 2
    let inp := usedSum as (fun a => a.kind == 1 && a.index != inBat) + bat
    let out := usedSum as fun a => a.kind == 4 || a.kind == 5 || a.kind == 6
    let loss := usedSum as fun a => a.kind == 8 || a.kind == 9 || a.kind == 0x0A
    let stored := usedSum as fun a => a.kind == 0x0B
    let res := inp - out - loss - stored
    let thr := sumInt ((as.filter fun a => a.used && a.kind == 1 && a.index != inBat).map fun a => max a.value 0) +
      max bat 0 + max (-stored) 0
    let bound := (t.profile.ledgerBound.1 * thr + t.profile.ledgerBound.2 * 1000 * 65536 * 10000).toNat
    let excused := t.excuse ≠ 0 ∨ ∃ a ∈ as, a.used = true ∧ a.est = true
    ∃ m, (ledClosed t own d).led = ledLatch m t ∧ m.waiting = d.led.waiting ∧ m.lastClosed = true ∧ m.unmet = d.led.unmet ∧
      m.round.turns = d.led.round.turns + 1 ∧ m.round.closed = d.led.round.closed + 1 ∧
      m.round.inp = d.led.round.inp + inp ∧ m.round.out = d.led.round.out + out ∧
      m.round.loss = d.led.round.loss + loss ∧ m.round.stored = d.led.round.stored + stored ∧
      m.round.residual = d.led.round.residual + res ∧ (m.lastNegative = true ↔ res < 0) ∧
      Judged excused (bound < res.natAbs * 10000) d.led m := by
  intro as bat inp out loss stored res thr bound excused
  have hexc : (b2n (as.any fun a => a.used && a.est) + t.excuse != 0) = true ↔ excused := by
    rw [bne_iff_ne]
    cases hany : as.any fun a => a.used && a.est with
    | true =>
      obtain ⟨a, ha, hb⟩ := List.any_eq_true.1 hany
      refine iff_of_true (by simp [b2n]) (.inr ⟨a, ha, ?_⟩)
      exact Bool.and_eq_true_iff.1 hb
    | false =>
      refine ⟨fun h => .inl (by simpa [b2n] using h), fun h => ?_⟩
      rcases h with h | ⟨a, ha, hu, he⟩
      · simpa [b2n] using h
      · have := List.any_eq_false.1 hany a ha
        rw [hu, he] at this
        exact absurd rfl this
  unfold ledClosed
  dsimp only
  rw [modLed_led, closedTold_led]
  refine ⟨_, rfl, rfl, rfl, rfl, rfl, rfl, rfl, rfl, rfl, rfl, rfl, decide_eq_true_iff, ?_⟩
  exact judged_of hexc rfl rfl rfl rfl

/-! ### The alarm (R285) -/

/-- What an alarm publishes. -/
def ledAlarmed (d : Dev) (on : Bool) : Dev :=
  let l := d.led
  let d := Dev.raise (d.modLed fun l => ledAlarm l on) 0x0801 (b2n on + b2n l.lastNegative * 2) 0
  let d := d.publish 0 0x0800 d.led.turnBlock
  if l.latched then d.publish 0 0x0802 d.led.roundBlock else d

theorem ledAlarmed_led (d : Dev) (on : Bool) : (ledAlarmed d on).led = ledAlarm d.led on := by
  unfold ledAlarmed
  dsimp only
  split <;> simp only [Dev.publish_led, Dev.raise_led, modLed_led]

theorem ledAlarm_kept (l : Led) (on : Bool) :
    (ledAlarm l on).alarm = on ∧ (ledAlarm l on).good = 0 ∧ (ledAlarm l on).count = (if on then l.count else 0) ∧
    (l.latched = false → (ledAlarm l on).round.declared = (l.round.declared || on)) := by
  unfold ledAlarm
  dsimp only
  split
  · next h => exact ⟨rfl, rfl, rfl, fun h' => absurd (h.symm.trans h') (by decide)⟩
  · exact ⟨rfl, rfl, rfl, fun _ => rfl⟩

theorem ledgUnmetered_eq (d : Dev) :
    let l := d.led
    let on := l.fenced = false ∧ l.alarm = false ∧ l.unmet ≤ l.count
    let off := l.fenced = false ∧ l.alarm = true ∧ l.unmet ≤ l.good
    (¬on → ¬off → ledgUnmetered d = d) ∧ (on → ledgUnmetered d = ledAlarmed d true) ∧ (off → ledgUnmetered d = ledAlarmed d false) := by
  intro l on off
  have heq : ledgUnmetered d = if l.fenced then d else if !l.alarm && decide (l.unmet ≤ l.count) then ledAlarmed d true
      else if l.alarm && decide (l.unmet ≤ l.good) then ledAlarmed d false else d := rfl
  rw [heq]
  cases hf : l.fenced with
  | true => simp [on, off, hf]
  | false => cases ha : l.alarm <;> simp +contextual [on, off, hf, ha]

/-! ### The Tally reader (R497 to R502) -/

/-- A device but for its tallies. -/
def Dev.sansTal (d : Dev) : Dev := { d with tal := {} }

theorem sansTal_withTal (d : Dev) (t : Tally) : Dev.sansTal { d with tal := t } = d.sansTal := rfl

theorem eq_of_sansTal {d e : Dev} (h : e.sansTal = d.sansTal) : e = { d with tal := e.tal } :=
  (congrArg (fun x : Dev => { x with tal := e.tal }) h :)

/-- The lane times are brought up to now, and nothing else changes. -/
theorem laneSync_kept (d : Dev) : (laneSync d).sansTal = d.sansTal ∧ (laneSync d).tal.total = d.tal.total ∧
    (laneSync d).tal.coast = d.tal.coast ∧ (laneSync d).tal.slew = d.tal.slew ∧ (laneSync d).tal.fb = d.tal.fb := by
  have hkeep {β : Type} (view : Dev → β) (hon : ∀ d l x, view { d with tal := { d.tal with laneOn := tset 0 d.tal.laneOn l x } } = view d)
      (htime : ∀ d l x y, view { d with tal := { d.tal with
        laneTime := tset 0 d.tal.laneTime l y, laneOn := tset 0 d.tal.laneOn l x } } = view d) : view (laneSync d) = view d := by
    unfold laneSync
    refine foldl_keeps view (fun d l => ?_) _ d
    dsimp only
    split
    · exact hon ..
    · split
      · exact htime ..
      · rfl
  exact ⟨hkeep Dev.sansTal (fun _ _ _ => rfl) fun _ _ _ _ => rfl,
    hkeep (·.tal.total) (fun _ _ _ => rfl) fun _ _ _ _ => rfl, hkeep (·.tal.coast) (fun _ _ _ => rfl) fun _ _ _ _ => rfl,
    hkeep (·.tal.slew) (fun _ _ _ => rfl) fun _ _ _ _ => rfl, hkeep (·.tal.fb) (fun _ _ _ => rfl) fun _ _ _ _ => rfl⟩

/-- The gathered block is no count. -/
theorem tallyEntries_gather (d : Dev) (b : List Byte) : tallyEntries { d with tal := { d.tal with gather := b } } = tallyEntries d := by
  have hcount (k c : Nat) : Dev.talCount { d with tal := { d.tal with gather := b } } k c = d.talCount k c := by
    unfold Dev.talCount Dev.talTotal Dev.talHeld Dev.laneTime
    rfl
  unfold tallyEntries
  simp only [hcount]

theorem tallyGather_eq (d : Dev) :
    (d.sag.fenced.contains 4 = true ∨ d.wheel.turn.toNat % d.plane.profile.gather ≠ 0 → tallyGather d = d) ∧
    (d.sag.fenced.contains 4 = false → d.wheel.turn.toNat % d.plane.profile.gather = 0 →
      let e := tallyGather d
      e = { d with tal := e.tal } ∧ e.tal.total = d.tal.total ∧
      e.tal.gather = tallyHeader d (d.tal.coast || d.wheel.coastFlag) (d.tal.slew || d.wheel.slewFlag) false 12288 2400 ++
        tallyEntries e) := by
  refine ⟨fun h => if_pos ?_, fun hf ht => ?_⟩
  · rcases h with h | h
    · exact Bool.or_eq_true_iff.2 (.inl h)
    · exact Bool.or_eq_true_iff.2 (.inr (bne_iff_ne.2 h))
  · obtain ⟨hd, htotal, hcoast, hslew, -⟩ := laneSync_kept d
    have hfence : ¬(d.tallyFenced || d.wheel.turn.toNat % d.plane.profile.gather != 0) = true := by
      unfold Dev.tallyFenced
      rw [hf, ht]
      decide
    unfold tallyGather
    rw [if_neg hfence]
    dsimp only
    refine ⟨eq_of_sansTal ((sansTal_withTal ..).trans hd), htotal, ?_⟩
    have hhead (c s : Bool) : tallyHeader (laneSync d) c s false 12288 2400 = tallyHeader d c s false 12288 2400 := by
      unfold tallyHeader
      rw [laneSync_wheel, (laneSync_plane_img d).1]
    rw [← hcoast, ← hslew, ← laneSync_wheel d]
    exact congrArg₂ (· ++ ·) (hhead _ _) (tallyEntries_gather (laneSync d) _).symm

theorem fbSet_modFb_self (d : Dev) (k : Nat) (f : FbSet → FbSet) : (d.modFb k f).fbSet k = f (d.fbSet k) := tget_tmod_self ..

theorem fbSet_modFb_ne (d : Dev) {j k : Nat} (f : FbSet → FbSet) (h : j ≠ k) : (d.modFb k f).fbSet j = d.fbSet j :=
  tget_tmod_ne _ _ _ h

/-- Set `k` of `d`, counted up to now. -/
structure FbNow (k : Nat) (d : Dev) (s : FbSet) : Prop where
  freeze : s.freeze = (d.fbSet k).freeze
  hi : s.hi = (d.fbSet k).hi
  cntHi : s.cntHi = (d.fbSet k).cntHi
  frozen : (d.fbSet k).freeze = true → s.cyc = (d.fbSet k).cyc ∧ s.cnt = (d.fbSet k).cnt
  counts : (d.fbSet k).freeze = false → s.cyc = ((d.fbSet k).cyc + (d.now - (d.fbSet k).since) * (if k < 4 then 4 else 16)) % 2 ^ 64

theorem fbFolded_now (d : Dev) (k : Nat) : FbNow k d (fbFolded (laneSync d) k) := by
  obtain ⟨hd, -, -, -, hfb⟩ := laneSync_kept d
  have hset : (laneSync d).fbSet k = d.fbSet k := by
    unfold Dev.fbSet
    rw [hfb]
  have hnow : (laneSync d).now = d.now := (congrArg Dev.now (eq_of_sansTal hd) :)
  unfold fbFolded
  dsimp only
  rw [hset, hnow]
  split
  · next h => exact ⟨rfl, rfl, rfl, fun _ => ⟨rfl, rfl⟩, fun h' => absurd (h.symm.trans h') (by decide)⟩
  · next h => exact ⟨rfl, rfl, rfl, fun h' => absurd h' h, fun _ => rfl⟩

/-- A set changes from what it has counted up to now, and no other does. -/
theorem fbChange_sets (k : Nat) (f : FbSet → FbSet) (d : Dev) : ∃ m, (fbChange k f d).fbSet k = { f (fbFolded (laneSync d) k) with mark := m } ∧
    ∀ j, j ≠ k → (fbChange k f d).fbSet j = d.fbSet j := by
  refine ⟨_, fbSet_modFb_self .., fun j hj => (fbSet_modFb_ne _ _ hj).trans ?_⟩
  obtain ⟨-, -, -, -, hfb⟩ := laneSync_kept d
  unfold Dev.fbSet
  rw [hfb]

theorem readsAs_fbSet (d : Dev) (v j : Nat) : (d.readsAs v).fbSet j = d.fbSet j := rfl

theorem readsAs_rdData (d : Dev) (v : Nat) : (d.readsAs v).host.rdData = BitVec.ofNat 32 v := rfl

theorem fbCycRead_kept (k : Nat) (d : Dev) :
    let o := d.fbSet k
    let e := fbCycRead k d
    e.host.rdData = BitVec.ofNat 32 (e.fbSet k).cyc ∧ (e.fbSet k).hi = BitVec.ofNat 32 ((e.fbSet k).cyc / 2 ^ 32) ∧
    (o.freeze = true → (e.fbSet k).cyc = o.cyc ∧ (e.fbSet k).cnt = o.cnt) ∧
    (o.freeze = false → (e.fbSet k).cyc = (o.cyc + (d.now - o.since) * (if k < 4 then 4 else 16)) % 2 ^ 64) ∧
    ∀ j, j ≠ k → e.fbSet j = d.fbSet j := by
  have hnow := fbFolded_now d k
  obtain ⟨m, hset, hne⟩ := fbChange_sets k (fun s => { s with hi := BitVec.ofNat 32 (s.cyc / 2 ^ 32) }) d
  unfold fbCycRead
  generalize fbChange k (fun s => { s with hi := BitVec.ofNat 32 (s.cyc / 2 ^ 32) }) d = e at hset hne ⊢
  generalize fbFolded (laneSync d) k = s at hnow hset
  simp only [readsAs_fbSet, readsAs_rdData, hset]
  exact ⟨trivial, trivial, hnow.frozen, hnow.counts, hne⟩

theorem fbCntRead_kept (k j : Nat) (d : Dev) (hj : j < (d.fbSet k).cntHi.length) :
    let o := d.fbSet k
    let e := fbCntRead k j d
    e.host.rdData = BitVec.ofNat 32 ((e.fbSet k).cnt.getD j 0) ∧ (e.fbSet k).cntHi.getD j 0 = (e.fbSet k).cnt.getD j 0 / 2 ^ 32 ∧
    (o.freeze = true → (e.fbSet k).cnt = o.cnt) := by
  have hnow := fbFolded_now d k
  obtain ⟨m, hset, hne⟩ := fbChange_sets k (fun s => { s with cntHi := s.cntHi.set j (s.cnt.getD j 0 / 2 ^ 32) }) d
  unfold fbCntRead
  generalize fbChange k (fun s => { s with cntHi := s.cntHi.set j (s.cnt.getD j 0 / 2 ^ 32) }) d = e at hset hne ⊢
  generalize fbFolded (laneSync d) k = s at hnow hset
  rw [← hnow.cntHi] at hj
  simp only [readsAs_fbSet, readsAs_rdData, hset]
  refine ⟨trivial, ?_, fun h => (hnow.frozen h).2⟩
  rw [List.getD_eq_getElem?_getD, List.getElem?_set_self hj, Option.getD_some]

theorem fbClear_kept (k : Nat) (d : Dev) :
    let o := d.fbSet k
    let e := (fbClear k d).fbSet k
    e.cyc = 0 ∧ e.cnt = [0, 0, 0, 0, 0, 0] ∧ e.freeze = o.freeze ∧ e.hi = o.hi := by
  have hnow := fbFolded_now d k
  obtain ⟨m, hset, -⟩ := fbChange_sets k (fun s => { s with cyc := 0, cnt := [0, 0, 0, 0, 0, 0] }) d
  unfold fbClear
  generalize fbFolded (laneSync d) k = s at hnow hset
  rw [hset]
  exact ⟨rfl, rfl, hnow.freeze, hnow.hi⟩

theorem fbFreeze_kept (k : Nat) (on : Bool) (d : Dev) :
    ((fbFreeze k on d).fbSet k).freeze = on ∧ ((d.fbSet k).freeze = true → ((fbFreeze k on d).fbSet k).cnt = (d.fbSet k).cnt) := by
  have hnow := fbFolded_now d k
  obtain ⟨m, hset, -⟩ := fbChange_sets k (fun s => { s with freeze := on }) d
  unfold fbFreeze
  generalize fbFolded (laneSync d) k = s at hnow hset
  rw [hset]
  exact ⟨rfl, fun h => (hnow.frozen h).2⟩

/-! ### The obligation -/

theorem answersHostAt {c : Instr} {s : State} {k : Nat} {f : Dev → Dev} (hk : k < 8) (hlink : s.dev.host.link = .ready)
    (hc : exec c s = s.onHostAt 8 k fun _ => f) : Answers c s (f s.dev) := hc.trans (onHostAt_ready s _ hk hlink)

theorem answersHostAt_notReady {c : Instr} {s : State} {k : Nat} {f : Dev → Dev} (hk : k < 8) (hlink : s.dev.host.link ≠ .ready)
    (hc : exec c s = s.onHostAt 8 k fun _ => f) : Answers c s s.dev := hc.trans (onHostAt_notReady s _ hk hlink)

theorem execTallyFbCntRead_lt (k : Nat) {j : Nat} (hj : j < 6) (s : State) :
    exec (.tallyFbCntRead k j) s = s.onHostAt 8 k fun _ => fbCntRead k j := if_pos hj

theorem fallback_answers {s : State} {k : Nat} (hk : k < 8) (hlink : s.dev.host.link = .ready) :
    Answers (.tallyFbCycLoRead k) s (fbCycRead k s.dev) ∧ (∀ j, j < 6 → Answers (.tallyFbCntRead k j) s (fbCntRead k j s.dev)) ∧
    Answers (.tallyFbClear k) s (fbClear k s.dev) ∧ (∀ on, Answers (.tallyFbFreeze k on) s (fbFreeze k on s.dev)) :=
  ⟨answersHostAt hk hlink rfl, fun _ hj => answersHostAt hk hlink (execTallyFbCntRead_lt k hj s), answersHostAt hk hlink rfl,
    fun _ => answersHostAt hk hlink rfl⟩

theorem fallback_notReady {s : State} {k : Nat} (hk : k < 8) (hlink : s.dev.host.link ≠ .ready) {j : Nat} (hj : j < 6) :
    ∀ c ∈ [Instr.tallyFbCycLoRead k, .tallyFbCntRead k j, .tallyFbClear k, .tallyFbFreeze k true, .tallyFbFreeze k false,
      .tallyTagClear], Answers c s s.dev := by
  intro c hc
  fin_cases hc
  · exact answersHostAt_notReady hk hlink rfl
  · exact answersHostAt_notReady hk hlink (execTallyFbCntRead_lt k hj s)
  · exact answersHostAt_notReady hk hlink rfl
  · exact answersHostAt_notReady hk hlink rfl
  · exact answersHostAt_notReady hk hlink rfl
  · exact onHost_notReady s _ hlink

/-- A close that latches its round. -/
theorem ledgerClose_latches {d : Dev} {t : LedTurn} {n : BitVec 48} (p h v : Nat) (hw : d.led.waiting = some t) (hl : t.latch = some n)
    (hf : d.led.fenced = false) :
    let l := (ledgerClose p h v d).led
    l.waiting = none ∧ l.latched = true ∧ l.round = {} ∧ (l.lastClosed = true ↔ t.reason = 0) ∧ l.unmet = t.unmet := by
  rw [ledgerClose_led p h v hw hf]
  have hlatch {m : Led} (hwait : m.waiting = none) (hlast : m.lastClosed = true ↔ t.reason = 0) (hunmet : m.unmet = t.unmet) :
      (ledLatch m t).waiting = none ∧ (ledLatch m t).latched = true ∧ (ledLatch m t).round = {} ∧
        ((ledLatch m t).lastClosed = true ↔ t.reason = 0) ∧ (ledLatch m t).unmet = t.unmet := by
    obtain ⟨hwait', hlast', hunmet', hround, -⟩ := ledLatch_kept m t
    obtain ⟨hlatched, hround⟩ := hround n hl
    exact ⟨hwait'.trans hwait, hlatched, hround, by rw [hlast']; exact hlast, hunmet'.trans hunmet⟩
  by_cases hr : t.reason = 0
  · rw [if_pos hr]
    obtain ⟨m, hm, hwait, hlast, hunmet, -⟩ := ledClosed_led t (ownEnergy t p h v) (ledTaken t d)
    rw [hm]
    exact hlatch hwait (iff_of_true hlast hr) hunmet
  · rw [if_neg hr]
    obtain ⟨b, a, hm⟩ := ledUnclosed_led t (ownEnergy t p h v) (ledTaken t d)
    rw [hm]
    exact hlatch rfl (iff_of_false Bool.false_ne_true hr) rfl

/-- A turn that stays unclosed (R280). -/
theorem ledgerClose_unclosed {d : Dev} {t : LedTurn} (p h v : Nat) (hw : d.led.waiting = some t) (hl : t.latch = none)
    (hf : d.led.fenced = false) (hr : t.reason ≠ 0) :
    let e := ledgerClose p h v d
    e.led.waiting = none ∧ e.led.lastClosed = false ∧ e.led.count = d.led.count ∧ e.led.good = d.led.good ∧
    e.led.round.turns = d.led.round.turns + 1 ∧ e.led.round.closed = d.led.round.closed ∧
    (d.led.lastClosed = false → e.host = d.host) := by
  intro e
  have hled : e.led = _ := ledgerClose_led p h v hw hf
  obtain ⟨b, a, hm⟩ := ledUnclosed_led t (ownEnergy t p h v) (ledTaken t d)
  rw [if_neg hr, hm, (ledLatch_kept _ t).2.2.2.2 hl] at hled
  rw [hled]
  refine ⟨rfl, rfl, rfl, rfl, rfl, rfl, fun hlast => ?_⟩
  have he : e = ledShown (ledUnclosed t (ownEnergy t p h v) (ledTaken t d)) := by
    have hruns := ledgerClose_runs p h v hw hf
    rw [if_neg hr, hl] at hruns
    exact hruns
  rw [he, ledShown_host, ledUnclosed_host (d := ledTaken t d) _ hlast]
  rfl

/-- Settles O54: the close, the alarm and the Tally reader, each by its model function. -/
theorem ledgerAndTallies : Obligations.LedgerAndTallies := by
  unfold Obligations.LedgerAndTallies
  refine ⟨fun s p h v => ⟨fun hw => .congr rfl (ledgerClose_nothing p h v hw), fun t hw hl hf => .congr rfl (ledgerClose_fenced p h v hw hl hf),
      fun t n hw hl hf => ⟨_, .congr rfl rfl, ledgerClose_latches p h v hw hl hf⟩,
      fun t hw hl hf hr => ⟨_, .congr rfl rfl, ledgerClose_unclosed p h v hw hl hf hr⟩, fun t hw hl hf hr => ?_⟩,
    fun s => ?_, fun s => ?_, fun s k hk hlink j hj => fallback_notReady hk hlink hj, fun s k hk hlink => ?_⟩
  · intro as bat inp out loss stored res thr bound excused
    obtain ⟨m, hm, hwait, hlast, hunmet, hturns, hclosed, hinp, hout, hloss, hstored, hres, hneg, hj⟩ :=
      ledClosed_led t (ownEnergy t p h v) (ledTaken t s.dev)
    have hled : (ledgerClose p h v s.dev).led = { m with latched := false } := by
      rw [ledgerClose_led p h v hw hf, if_pos hr, hm]
      exact (ledLatch_kept m t).2.2.2.2 hl
    refine ⟨_, .congr rfl rfl, ?_⟩
    rw [hled]
    exact ⟨hwait, hlast, hunmet, hturns, hclosed, hinp, hout, hloss, hstored, hres, hneg, hj.ofExcused, hj.ofBeyond,
      fun hx hb => hj.ofWithin hx (not_lt.2 hb)⟩
  · intro l on off
    obtain ⟨hno, hon, hoff⟩ := ledgUnmetered_eq s.dev
    refine ⟨fun h h' => .congr rfl (hno h h'), fun h => ⟨_, .congr rfl (hon h), ?_⟩, fun h => ⟨_, .congr rfl (hoff h), ?_⟩⟩ <;>
      rw [ledAlarmed_led]
    · obtain ⟨ha, hg, hc, hd⟩ := ledAlarm_kept s.dev.led true
      exact ⟨ha, hg, hc, fun hl => (hd hl).trans (Bool.or_true _)⟩
    · obtain ⟨ha, hg, hc, -⟩ := ledAlarm_kept s.dev.led false
      exact ⟨ha, hg, hc⟩
  · obtain ⟨hno, hyes⟩ := tallyGather_eq s.dev
    exact ⟨fun h => .congr rfl (hno h), fun hf ht => ⟨_, .congr rfl rfl, hyes hf ht⟩⟩
  · intro o
    obtain ⟨hcyc, hcnt, hclear, hfreeze⟩ := fallback_answers hk hlink
    exact ⟨⟨_, hcyc, fbCycRead_kept k s.dev⟩, fun j hj hlen => ⟨_, hcnt j hj, fbCntRead_kept k j s.dev hlen⟩,
      ⟨_, hclear, fbClear_kept k s.dev⟩, fun on => ⟨_, hfreeze on, fbFreeze_kept k on s.dev⟩, onHost_ready s _ hlink⟩

end Sys2Proof.Machine

end

/-! ## Sequences and FAULT_N (spec 12) -/

section
/-! PROOF. The events of an order, a start request, an off request, and FAULT_N (R340 to R356). -/

namespace Sys2Proof.Machine

/-! ### A SEQUENCE after a change of it -/

@[simp] theorem sq_modSeq_self (d : Dev) (q : Nat) (f : SeqRt → SeqRt) : (d.modSeq q f).sq q = f (d.sq q) := tget_tmod_self ..

@[simp] theorem step_modStep_self (d : Dev) (q k : Nat) (f : StepRt → StepRt) : (d.modStep q k f).step q k = f (d.step q k) := by
  unfold Dev.modStep Dev.step
  rw [sq_modSeq_self]
  exact tget_tmod_self ..

theorem sq_congr {d e : Dev} (h : e.seq = d.seq) (q : Nat) : e.sq q = d.sq q := by
  unfold Dev.sq
  rw [h]

theorem step_congr {d e : Dev} (h : e.seq = d.seq) (q k : Nat) : e.step q k = d.step q k := by
  unfold Dev.step
  rw [sq_congr h]

theorem endWaits_seq (d : Dev) (p : Wait → Bool) (f : Wait → Cpl) : (d.endWaits p f).seq = d.seq :=
  (congrArg Dev.seq (endWaits_sansWaits d p f) :)

theorem modSlot_seq (d : Dev) (t i : Nat) (f : Slot → Slot) : (d.modSlot t i f).seq = d.seq := rfl

theorem modSeq_seqHandle (d : Dev) (q j : Nat) (f : SeqRt → SeqRt) : (d.modSeq q f).seqHandle j = d.seqHandle j := rfl

theorem modStep_seqHandle (d : Dev) (q k j : Nat) (f : StepRt → StepRt) : (d.modStep q k f).seqHandle j = d.seqHandle j := rfl

theorem modSeq_seqCfg (d : Dev) (q j : Nat) (f : SeqRt → SeqRt) : (d.modSeq q f).seqCfg j = d.seqCfg j := rfl

theorem seqHandle_congr {d e : Dev} (h : e.slots = d.slots) (q : Nat) : e.seqHandle q = d.seqHandle q := by
  unfold Dev.seqHandle Dev.handleOf Dev.slot
  rw [h]

theorem raise_seqHandle (d : Dev) (code detail : Nat) (h : Word) (q : Nat) : (d.raise code detail h).seqHandle q = d.seqHandle q :=
  seqHandle_congr (Dev.raise_slots ..) q

/-! ### What nothing holds back settles at once -/

theorem foldl_nothing {α σ : Type} {f : σ → α → σ} {s : σ} (l : List α) (h : ∀ a ∈ l, f s a = s) : l.foldl f s = s := by
  induction l with
  | nil => rfl
  | cons a l ih =>
    rw [List.foldl_cons, h a (List.mem_cons_self ..)]
    exact ih fun b hb => h b (List.mem_cons_of_mem _ hb)

theorem releaseStuck_nothing {d : Dev}
    (h : ∀ q ∈ d.liveIndices tSeq, ∀ k < 32, (d.step q k).stuckSrc = false ∧ (d.step q k).drain = false) : releaseStuck d = d := by
  unfold releaseStuck
  refine foldl_nothing _ fun q hq => foldl_nothing _ fun k hk => ?_
  obtain ⟨hstuck, hdrain⟩ := h q hq k (List.mem_range.1 hk)
  dsimp only
  rw [hstuck, hdrain]
  rfl

theorem settle_nothing (d : Dev)
    (h : ∀ q ∈ d.liveIndices tSeq, ∀ k < 32, (d.step q k).stuckSrc = false ∧ (d.step q k).drain = false)
    (hdown : d.plane.downRunning = none) (hstop : d.plane.stopping = none) (hwd : d.plane.wdFaultN = false) : settle d = d := by
  have hchain : chainCheck d = d := by
    unfold chainCheck
    rw [hdown]
    dsimp only
    rw [hstop]
  unfold settle
  rw [releaseStuck_nothing h, hchain]
  exact if_neg (by rw [hwd, Bool.false_and, Bool.false_and, Bool.false_and]; decide)

/-! ### The events of an order -/

/-- An event of a live SEQUENCE is its branch, then what that sets going. -/
theorem answers_onSeq {c : Instr} {s : State} {q : Nat} {f : Dev → Dev} {e : Dev} (hq : q < 8)
    (hc : exec c s = s.onDevAt 8 q fun _ d => onSeq q f d) (hlive : s.dev.live tSeq q = true) (h : f s.dev = e) :
    Answers c s (settle e) :=
  answersAt hq hc ((if_pos hlive).trans (congrArg settle h))

theorem answers_notSeq {c : Instr} {s : State} {q : Nat} {f : Dev → Dev} (hq : q < 8)
    (hc : exec c s = s.onDevAt 8 q fun _ d => onSeq q f d) (hlive : s.dev.live tSeq q = false) : Answers c s s.dev :=
  answersAt hq hc (if_neg (by rw [hlive]; decide))

/-- The fall timeout of an EXTERNAL step that a MONITOR can still show: its discharge is applied (R347). -/
theorem seqFallTimeout_discharges {d : Dev} {q : Nat} (hrun : (d.sq q).run = .falling)
    (hst : (d.step q (d.sq q).cur).st = .stopping) (hext : stExt (d.stepCfg q (d.sq q).cur) = true)
    (htake : d.plane.takeover = false) (hmon : ∀ m, stMon (d.stepCfg q (d.sq q).cur) = some m → d.isFenced tMon m = false) :
    let e := seqFallTimeout q d
    let x := e.step q (d.sq q).cur
    x.late = true ∧ x.st = .discharging ∧ ∀ n, stDsch (d.stepCfg q (d.sq q).cur) = some n → n ∈ e.pwm.discharge := by
  have he : seqFallTimeout q d = stepSwitch ((markStep d q (d.sq q).cur fun x => { x with late := true }).modStep q (d.sq q).cur
      fun x => { x with st := .discharging }) (d.stepCfg q (d.sq q).cur) true := by
    unfold seqFallTimeout
    dsimp only
    rw [if_pos ⟨hrun, hst, .inr hext⟩, if_neg, if_pos hext, if_pos hext]
    split
    · next m hm =>
      rw [hmon m hm, Bool.false_and]
      decide
    · rw [htake]
      decide
  have hswitch (e : Dev) (st : List Word) : (stepSwitch e st true).seq = e.seq ∧
      ∀ n, stDsch st = some n → n ∈ (stepSwitch e st true).pwm.discharge := by
    unfold stepSwitch
    split
    · next n hn =>
      refine ⟨rfl, fun m hm => ?_⟩
      obtain rfl : n = m := Option.some.inj (hn.symm.trans hm)
      dsimp only
      rw [if_pos rfl]
      split
      · next h => exact List.contains_iff_mem.1 h
      · exact (mem_sortNat ..).2 (List.mem_cons_self ..)
    · next hn => exact ⟨rfl, fun m hm => absurd (hn.symm.trans hm) nofun⟩
  intro e x
  obtain ⟨hseq, hmem⟩ := hswitch ((markStep d q (d.sq q).cur fun x => { x with late := true }).modStep q (d.sq q).cur
      fun x => { x with st := .discharging }) (d.stepCfg q (d.sq q).cur)
  rw [← he] at hseq hmem
  have hx : x = { d.step q (d.sq q).cur with late := true, st := .discharging, markTurn := d.wheel.turn.setWidth 16 } := by
    show (seqFallTimeout q d).step q (d.sq q).cur = _
    rw [step_congr hseq, step_modStep_self]
    unfold markStep
    rw [step_modStep_self]
  rw [hx]
  exact ⟨rfl, rfl, hmem⟩

/-- A discharge window that ends in STRICT holds the order (R347). -/
theorem seqDschWinEnd_holds {d : Dev} {q : Nat} (hrun : (d.sq q).run = .falling) (hbegun : (d.step q (d.sq q).cur).begun = true)
    (hst : (d.step q (d.sq q).cur).st = .discharging) (hstrict : scStrict (d.seqCfg q) = true) :
    let e := seqDschWinEnd q d
    (e.sq q).run = .held ∧ (e.step q (d.sq q).cur).st = .held ∧ e.hasWait .disable (d.seqHandle q) = false := by
  intro e
  have he : e = (((d.modStep q (d.sq q).cur fun x => { x with st := .held }).modSeq q fun r => { r with run := .held }).raise 0x0A05
      (d.sq q).cur (d.seqHandle q)).endWaits (fun w => w.kind == WaitKind.disable && w.handle == d.seqHandle q)
      fun w => plainCpl .state w.handle (d.sq q).cur := by
    show seqDschWinEnd q d = _
    unfold seqDschWinEnd
    dsimp only
    rw [if_pos ⟨hrun, hbegun, hst⟩, if_pos hstrict]
    simp only [raise_seqHandle, modSeq_seqHandle, modStep_seqHandle]
  have hseq : e.seq = ((d.modStep q (d.sq q).cur fun x => { x with st := .held }).modSeq q fun r => { r with run := .held }).seq := by
    rw [he, endWaits_seq, Dev.raise_seq]
  refine ⟨?_, ?_, ?_⟩
  · rw [sq_congr hseq, sq_modSeq_self]
  · rw [step_congr hseq]
    unfold Dev.step
    rw [sq_modSeq_self]
    exact congrArg StepRt.st (step_modStep_self d q (d.sq q).cur fun x => { x with st := .held })
  · rw [he]
    exact endWaits_noWait _ _ (by decide) fun w hk hh => by rw [hk, hh]; simp

/-! ### Start requests (R341, R346) -/

/-- What a start request needs. -/
def MayStart (d : Dev) (q : Nat) : Prop :=
  (d.sq q).pending = true ∧ (d.sq q).run = .off ∧ d.isFenced tSeq q = false ∧ quietPassed d q = true ∧ (d.sq q).minOff = false ∧
    (∀ n, (d.sq q).brownHold = some n → d.setOnMains n = true) ∧ d.sitter = false

theorem mayStart_iff (d : Dev) (q : Nat) :
    ((d.sq q).pending && (d.sq q).run == .off && !d.isFenced tSeq q && quietPassed d q && !(d.sq q).minOff &&
      (d.sq q).brownHold.all (Dev.setOnMains d) && !d.sitter) = true ↔ MayStart d q := by
  unfold MayStart
  simp only [Bool.and_eq_true, beq_iff_eq, Bool.not_eq_true', Option.all_eq_true, and_assoc]

theorem tryStart_not {d : Dev} {q : Nat} (h : ¬MayStart d q) : tryStart d q = d := if_neg (h ∘ (mayStart_iff d q).1)

/-- An order that finds a step down, with a delay, waits for it. -/
theorem delayUp_waits (fuel : Nat) {d : Dev} {q k : Nat} (hk : k < scNstep (d.seqCfg q)) (hst : (d.step q k).st ≠ .up)
    (hdelay : stDelayUp (d.stepCfg q k) ≠ 0) :
    delayUp (fuel + 1) d q k = (d.modSeq q fun r => { r with cur := k }).modStep q k fun x => { x with st := .delay } := by
  have hstep : (d.modSeq q fun r => { r with cur := k }).step q k = d.step q k := by
    unfold Dev.step
    rw [sq_modSeq_self]
  unfold delayUp
  dsimp only
  rw [modSeq_seqCfg, if_neg (not_le.2 hk), if_neg (by rw [hstep]; exact hst)]
  exact if_neg hdelay

/-- The state of a SEQUENCE's handle changes nothing else of its slot. -/
theorem seqHstate_slot (d : Dev) (q : Nat) (on : Bool) : ((seqHstate d q on).slot tSeq q).cfg = (d.slot tSeq q).cfg ∧
    ((d.slot tSeq q).hstate ≠ .fenced → ((seqHstate d q on).slot tSeq q).hstate = if on then .enabled else .disabled) := by
  unfold seqHstate
  rw [slot_modSlot_self]
  split
  · next h => exact ⟨rfl, fun h' => absurd h h'⟩
  · exact ⟨rfl, fun _ => rfl⟩

theorem seqHstate_gen (d : Dev) (q : Nat) (on : Bool) : ((seqHstate d q on).slot tSeq q).gen = (d.slot tSeq q).gen := by
  unfold seqHstate
  rw [slot_modSlot_self]
  split <;> rfl

/-- A request that may proceed begins with the delay of step 0. -/
theorem tryStart_rises {d : Dev} {q : Nat} (h : MayStart d q) (hdelay : stDelayUp (d.stepCfg q 0) ≠ 0) (hn : 0 < scNstep (d.seqCfg q)) :
    let e := tryStart d q
    (e.sq q).run = .rising ∧ (e.sq q).pending = false ∧ (e.sq q).cur = 0 ∧ (e.step q 0).st = .delay ∧
    ((d.slot tSeq q).hstate ≠ .fenced → (e.slot tSeq q).hstate = .enabled) := by
  obtain ⟨m, hm, hsq, hcfg, hstate⟩ : ∃ m, tryStart d q = delayUp 33 m q 0 ∧ m.sq q = { d.sq q with
      run := .rising, pending := false, steps := tmapAll {} (d.sq q).steps fun _ x => { x with st := .off, begun := false } } ∧
      m.seqCfg q = d.seqCfg q ∧ ((d.slot tSeq q).hstate ≠ .fenced → (m.slot tSeq q).hstate = .enabled) := by
    refine ⟨_, if_pos ((mayStart_iff d q).2 h), ?_, (seqHstate_slot _ q true).1, (seqHstate_slot _ q true).2⟩
    exact sq_modSeq_self ..
  have hdown : (m.step q 0).st = .off := by
    unfold Dev.step
    rw [hsq, tget_tmapAll]
    split <;> rfl
  have hstepCfg : m.stepCfg q 0 = d.stepCfg q 0 := by
    unfold Dev.stepCfg
    rw [hcfg]
  have he : tryStart d q = (m.modSeq q fun r => { r with cur := 0 }).modStep q 0 fun x => { x with st := .delay } :=
    hm.trans (delayUp_waits 32 (by rw [hcfg]; exact hn) (by rw [hdown]; decide) (by rw [hstepCfg]; exact hdelay))
  rw [he]
  refine ⟨?_, ?_, ?_, congrArg StepRt.st (step_modStep_self ..), hstate⟩ <;> unfold Dev.modStep <;>
    rw [sq_modSeq_self, sq_modSeq_self]
  · rw [hsq]
  · rw [hsq]

/-! ### Off requests (R344) -/

theorem seqOff_not {d : Dev} {q cause : Nat} {brown : Option Nat} (h : (d.sq q).run ≠ .rising) (h' : (d.sq q).run ≠ .on) :
    seqOff d q cause brown = d := if_neg (not_or.2 ⟨h, h'⟩)

/-- The order ends where no step has begun. -/
theorem downFrom_none (fuel : Nat) {d : Dev} {q below : Nat} (first : Bool) (h : d.begunBelow q below = []) :
    downFrom (fuel + 1) d q below first = downDone d q := by
  unfold downFrom
  rw [h]
  rfl

/-- A down order completes, unlocked, for a SEQUENCE that no DESTROY waits for. -/
theorem downDone_sq {d : Dev} {q : Nat} (hlock : (d.sq q).lock = false) (hw : d.hasWait .destroyForce (d.seqHandle q) = false) :
    let e := downDone d q
    (e.sq q).run = .off ∧ (e.sq q).cause = (d.sq q).cause ∧ (e.sq q).minOff = true ∧ (e.sq q).ownFault = false := by
  obtain ⟨m, e, on, hm, hseq, hwaits⟩ : ∃ m e on,
      downDone d q = (if (seqHstate (Dev.endKind e .disable (d.seqHandle q) .ok) q on).hasWait .destroyForce (d.seqHandle q) then m
        else seqHstate (Dev.endKind e .disable (d.seqHandle q) .ok) q on) ∧
      ((e.sq q).run = .off ∧ (e.sq q).cause = (d.sq q).cause ∧ (e.sq q).minOff = true ∧ (e.sq q).ownFault = false) ∧
      e.waits = d.waits := by
    unfold downDone
    dsimp only
    rw [hlock, if_neg Bool.false_ne_true]
    refine ⟨_, _, _, rfl, ?_, Dev.raise_waits ..⟩
    rw [sq_congr (Dev.raise_seq ..), sq_modSeq_self, hlock]
    exact ⟨rfl, rfl, rfl, rfl⟩
  have hnone : (seqHstate (Dev.endKind e .disable (d.seqHandle q) .ok) q on).hasWait .destroyForce (d.seqHandle q) = false := by
    refine endWaits_noWait_of e _ _ (by decide) ?_
    unfold Dev.hasWait at hw ⊢
    rw [hwaits]
    exact hw
  rw [hm, if_neg (by rw [hnone]; decide)]
  have hsq : (seqHstate (Dev.endKind e .disable (d.seqHandle q) .ok) q on).sq q = e.sq q := sq_congr (endWaits_seq ..) q
  dsimp only
  rw [hsq]
  exact hseq

theorem seqOff_empty {d : Dev} {q cause : Nat} {brown : Option Nat} (h : (d.sq q).run = .rising ∨ (d.sq q).run = .on)
    (hb : ∀ k < 32, (d.step q k).begun = false) (hlock : (d.sq q).lock = false)
    (hw : d.hasWait .destroyForce (d.seqHandle q) = false) :
    let e := seqOff d q cause brown
    (e.sq q).run = .off ∧ (e.sq q).cause = cause ∧ (e.sq q).minOff = true ∧ (e.sq q).ownFault = false := by
  obtain ⟨m, p, hm, ⟨hcause, hlock', hb'⟩, hhandle, hwaits⟩ : ∃ m p, seqOff d q cause brown = seqAdvance (seqHstate m q p) q 32 true ∧
      ((m.sq q).cause = cause ∧ (m.sq q).lock = false ∧ ∀ k < 32, (m.step q k).begun = false) ∧
      m.seqHandle q = d.seqHandle q ∧ m.hasWait .destroyForce (d.seqHandle q) = false := by
    have hsq : (endSeqEnables d q .aborted).sq q = d.sq q := sq_congr (endWaits_seq ..) q
    refine ⟨_, _, if_pos h, ⟨?_, ?_, fun k hk => ?_⟩, ?_, endWaits_noWait_of d _ _ (by decide) hw⟩
    · rw [sq_modSeq_self]
    · rw [sq_modSeq_self, hsq]
      exact hlock
    · unfold Dev.step
      rw [sq_modSeq_self, hsq, tget_tmapAll_dflt _ _ _ _ (by rfl)]
      have hk' : (tget {} (d.sq q).steps k).begun = false := hb k hk
      split <;> exact hk'
    · exact seqHandle_congr (endWaits_slots ..) q
  have hseq : (seqHstate m q p).sq q = m.sq q := rfl
  have hnone : (seqHstate m q p).begunBelow q 32 = [] := by
    refine List.filter_eq_nil_iff.2 fun k hk => ?_
    rw [show (seqHstate m q p).step q k = m.step q k from rfl, hb' k (lt_of_lt_of_le (List.mem_range.1 hk) (by decide))]
    decide
  have hhandle' : (seqHstate m q p).seqHandle q = d.seqHandle q := by
    rw [← hhandle]
    unfold Dev.seqHandle Dev.handleOf
    rw [seqHstate_gen]
  obtain ⟨hrun, hc, hmin, hown⟩ := downDone_sq (d := seqHstate m q p) (q := q) (by rw [hseq]; exact hlock') (by rw [hhandle']; exact hwaits)
  rw [hm]
  unfold seqAdvance
  rw [downFrom_none 32 true hnone]
  exact ⟨hrun, hc.trans (by rw [hseq]; exact hcause), hmin, hown⟩

/-! ### FAULT_N (R351 to R356) -/

theorem faultnHigh_eq (time : Nat) (d : Dev) :
    let now := max d.now time
    (d.seq.fn.low = false → faultnHigh time d = { d with now := now }) ∧
    (d.seq.fn.low = true → faultnHigh time d = { d with now := now, seq := { d.seq with
      fn := { d.seq.fn with low := false, lowTurn := false, highSince := now } } }) :=
  ⟨fun h => if_neg (by show ¬ d.seq.fn.low = true; rw [h]; decide), fun h => if_pos h⟩

/-- A low on FAULT_N that is accepted. -/
theorem faultnLow_eq (time : Nat) (d : Dev) (own : Bool) (h : d.seq.fn.low = false) :
    let now := max d.now time
    let e : Dev := { d with now := now, seq := { d.seq with
      fn := { d.seq.fn with low := true, edges := d.seq.fn.edges + 1
                            cycles := (now :: d.seq.fn.cycles).filter fun t => decide (now < t + 100000000) }
      seqs := tmapAll {} d.seq.seqs fun _ r => { r with quiet := false } } }
    let f := (d.liveIndices tSeq).foldl (fun d q =>
      if scJoin (d.seqCfg q) then seqOff d q (if own then 1 else 2) none else d) (e.raise 0x0A07 (if own then 1 else 0) 0)
    faultnLow own time d = settle (if 5 ≤ f.cycles1s then (f.liveIndices tSeq).foldl chatterLock f else f) := by
  intro now e f
  have hlive : (e.raise 0x0A07 (b2n own) 0).liveIndices tSeq = d.liveIndices tSeq := by
    unfold Dev.liveIndices
    rw [Dev.raise_slots]
  have hf : ((e.raise 0x0A07 (b2n own) 0).liveIndices tSeq).foldl (fun d q =>
      if scJoin (d.seqCfg q) then seqOff d q (if own then 1 else 2) none else d) (e.raise 0x0A07 (b2n own) 0) = f := by
    rw [hlive]
    rfl
  rw [← hf]
  unfold faultnLow
  exact if_neg fun h' => Bool.false_ne_true (h.symm.trans h')

/-- Settles O55: each event of an order is its branch, then what that sets going. -/
theorem sequenceOrders : Obligations.SequenceOrders := by
  unfold Obligations.SequenceOrders
  refine ⟨fun s q step hq hlive c hc => ?_, settle_nothing, fun s q hq hlive => ?_, fun s q k hq hlive => ?_, fun d q => ?_,
    fun d q cause brown => ?_, fun s time => ?_⟩
  · fin_cases hc <;> exact answers_notSeq hq rfl hlive
  · intro r k x st
    refine ⟨fun h => answers_onSeq hq rfl hlive (if_pos h), fun h => answers_onSeq hq rfl hlive (if_neg (by tauto)),
      fun h => answers_onSeq hq rfl hlive (if_pos h), fun h => answers_onSeq hq rfl hlive (if_neg ?_),
      fun h => answers_onSeq hq rfl hlive (if_pos h), fun h => answers_onSeq hq rfl hlive (if_neg (by tauto)),
      fun h => answers_onSeq hq rfl hlive (if_pos h), fun h => answers_onSeq hq rfl hlive (if_neg ?_),
      fun h => answers_onSeq hq rfl hlive (if_pos h), fun h => answers_onSeq hq rfl hlive (if_neg ?_),
      fun hr hs he ht hm => ⟨_, answers_onSeq hq rfl hlive rfl, seqFallTimeout_discharges hr hs he ht hm⟩,
      fun h => answers_onSeq hq rfl hlive (if_neg ?_), fun hr hb hs hst => answers_onSeq hq rfl hlive ?_,
      fun hr hb hs hst => ⟨_, answers_onSeq hq rfl hlive rfl, seqDschWinEnd_holds hr hb hs hst⟩,
      fun h => answers_onSeq hq rfl hlive (if_neg ?_), answers_onSeq hq rfl hlive rfl, fun h => answers_onSeq hq rfl hlive (if_neg ?_),
      fun h h' => answers_onSeq hq rfl hlive (if_pos ⟨h, h'⟩)⟩
    · rintro ⟨hr, hs, hu⟩
      rw [hu] at h
      tauto
    · rintro ⟨hr, hb, hl⟩
      rw [hb, hl] at h
      tauto
    · rintro ⟨-, hb, hl, ho⟩
      rw [hb, hl, ho] at h
      tauto
    · rintro ⟨hr, hs, hk⟩
      rcases h with h | h | ⟨h, h'⟩
      · exact h hr
      · exact h hs
      · exact hk.elim h fun he => by rw [he] at h'; contradiction
    · unfold seqDschWinEnd
      dsimp only
      rw [if_pos ⟨hr, hb, hs⟩, if_neg (by rw [hst]; decide)]
    · rintro ⟨hr, hb, hs⟩
      rw [hb] at h
      tauto
    · rintro ⟨hl, hqu⟩
      rw [hl, hqu] at h
      tauto
  · intro r st reason hit
    have heq : seqMemberFault q k s.dev = if hit then
        (if (s.dev.step q k).st = .starting then failStep s.dev q k reason
          else if stFatal st then ownFault s.dev q k reason else markStep s.dev q k fun x => { x with member := true })
        else s.dev := rfl
    refine ⟨fun h => answers_onSeq hq rfl hlive (heq.trans (if_neg h)), fun h hs => answers_onSeq hq rfl hlive ?_,
      fun h hs hf => answers_onSeq hq rfl hlive ?_, fun h hs hf => answers_onSeq hq rfl hlive ?_⟩
    · rw [heq, if_pos h, if_pos hs]
    · rw [heq, if_pos h, if_neg hs, if_pos hf]
    · rw [heq, if_pos h, if_neg hs, if_neg (by rw [hf]; decide)]
  · exact ⟨tryStart_not, fun h hd hn => tryStart_rises h hd hn⟩
  · exact ⟨seqOff_not, fun h hb hl hw => seqOff_empty h hb hl hw⟩
  · intro now
    obtain ⟨hlow, hhigh⟩ := faultnHigh_eq time s.dev
    refine ⟨fun h => .congr rfl (hlow h), fun h => .congr rfl (hhigh h), fun h => .congr rfl ((if_pos h).trans (if_pos h)), fun h => ?_⟩
    · intro own e f
      have heq := faultnLow_eq time s.dev own h
      have hex (x : Dev) (hx : faultnLow own time s.dev = x) : Answers (.faultnLow time) s (x.attend 1) :=
        .congr rfl ((if_neg fun h' => Bool.false_ne_true (h.symm.trans h')).trans (congrArg (Dev.attend · 1) hx))
      exact ⟨fun hc => hex _ (heq.trans (congrArg settle (if_neg (not_le.2 hc)))), fun hc => hex _ (heq.trans (congrArg settle (if_pos hc)))⟩

end Sys2Proof.Machine

end

/-! ## What no operation on an element touches: the Sitter's latch, the shared SRAM, the fences of the units -/

section
/-! PROOF. The Sitter, the stored lines of the shared SRAM and the fences of the internal units are changed by few functions of the
model. Every other operation on elements, waits and orders keeps them; this is said once per operation. -/

namespace Sys2Proof.Machine

/-- What a fence of a unit leaves behind: the fenced units, how many fences there were, and their causes. -/
def Sag.standing (s : Sag) : List Nat × Nat × List (Nat × Nat) := (s.fenced, s.fences, s.cause)

@[simp] theorem Sag.meter_standing (s : Sag) (now : Nat) : (s.meter now).standing = s.standing := by
  unfold Sag.meter
  (repeat' split) <;> rfl

@[simp] theorem Dev.raise_standing (d : Dev) (code detail : Nat) (h : Word) : (d.raise code detail h).sag.standing = d.sag.standing := by
  unfold Dev.raise
  dsimp only
  (repeat' split) <;> simp

@[simp] theorem Dev.raiseOnceTurn_standing (d : Dev) (key code detail : Nat) (h : Word) :
    (d.raiseOnceTurn key code detail h).sag.standing = d.sag.standing := by
  unfold Dev.raiseOnceTurn
  split <;> simp

@[simp] theorem Dev.raiseOnceRound_standing (d : Dev) (key code detail : Nat) (h : Word) :
    (d.raiseOnceRound key code detail h).sag.standing = d.sag.standing := by
  unfold Dev.raiseOnceRound
  split <;> simp

theorem aside_trans {d e f : Dev} (hf : f.sitter = e.sitter ∧ f.sram = e.sram ∧ f.sag.standing = e.sag.standing)
    (he : e.sitter = d.sitter ∧ e.sram = d.sram ∧ e.sag.standing = d.sag.standing) :
    f.sitter = d.sitter ∧ f.sram = d.sram ∧ f.sag.standing = d.sag.standing :=
  ⟨hf.1.trans he.1, hf.2.1.trans he.2.1, hf.2.2.trans he.2.2⟩

theorem planeUpdate_aside (d : Dev) (p : Plane) : ({ d with plane := p } : Dev).sitter = d.sitter ∧
    ({ d with plane := p } : Dev).sram = d.sram ∧ ({ d with plane := p } : Dev).sag.standing = d.sag.standing := ⟨rfl, rfl, rfl⟩

theorem foldl_aside {α : Type} {f : Dev → α → Dev} {l : List α} {d : Dev}
    (h : ∀ d a, (f d a).sitter = d.sitter ∧ (f d a).sram = d.sram ∧ (f d a).sag.standing = d.sag.standing) :
    (l.foldl f d).sitter = d.sitter ∧ (l.foldl f d).sram = d.sram ∧ (l.foldl f d).sag.standing = d.sag.standing := by
  induction l generalizing d with
  | nil => exact ⟨rfl, rfl, rfl⟩
  | cons a l ih => exact aside_trans ih (h d a)

@[simp] theorem foldl_sitter {α : Type} {f : Dev → α → Dev} {l : List α} {d : Dev}
    (h : ∀ d a, (f d a).sitter = d.sitter) : (l.foldl f d).sitter = d.sitter := foldl_keeps Dev.sitter h l d

@[simp] theorem foldl_sram {α : Type} {f : Dev → α → Dev} {l : List α} {d : Dev}
    (h : ∀ d a, (f d a).sram = d.sram) : (l.foldl f d).sram = d.sram := foldl_keeps Dev.sram h l d

@[simp] theorem foldl_standing {α : Type} {f : Dev → α → Dev} {l : List α} {d : Dev}
    (h : ∀ d a, (f d a).sag.standing = d.sag.standing) : (l.foldl f d).sag.standing = d.sag.standing :=
  foldl_keeps (fun d => d.sag.standing) h l d

@[simp] theorem Dev.coapReply_aside (d : Dev) (k mid : Nat) (resp : List Byte) :
    (Dev.coapReply d k mid resp).sitter = d.sitter ∧
      (Dev.coapReply d k mid resp).sram = d.sram ∧ (Dev.coapReply d k mid resp).sag.standing = d.sag.standing := by
  unfold Dev.coapReply
  dsimp only
  (repeat' split) <;> simp

@[simp] theorem Dev.deliver_aside (d : Dev) (src : Option Src) (c : Cpl) :
    (Dev.deliver d src c).sitter = d.sitter ∧ (Dev.deliver d src c).sram = d.sram ∧ (Dev.deliver d src c).sag.standing = d.sag.standing := by
  unfold Dev.deliver
  dsimp only
  (repeat' split) <;> simp

@[simp] theorem Dev.answerWait_aside (d : Dev) (w : Wait) (c : Cpl) :
    (Dev.answerWait d w c).sitter = d.sitter ∧ (Dev.answerWait d w c).sram = d.sram ∧ (Dev.answerWait d w c).sag.standing = d.sag.standing := by
  unfold Dev.answerWait
  split <;> simp

@[simp] theorem Dev.endWaits_aside (d : Dev) (p : Wait → Bool) (f : Wait → Cpl) :
    (Dev.endWaits d p f).sitter = d.sitter ∧ (Dev.endWaits d p f).sram = d.sram ∧ (Dev.endWaits d p f).sag.standing = d.sag.standing := by
  simp [Dev.endWaits]

@[simp] theorem dropRuntime_aside (d : Dev) (t i : Nat) :
    (dropRuntime d t i).sitter = d.sitter ∧ (dropRuntime d t i).sram = d.sram ∧ (dropRuntime d t i).sag.standing = d.sag.standing := by
  unfold dropRuntime
  split <;> simp

@[simp] theorem laneSync_aside (d : Dev) :
    (laneSync d).sitter = d.sitter ∧ (laneSync d).sram = d.sram ∧ (laneSync d).sag.standing = d.sag.standing := by
  unfold laneSync
  simp [apply_ite Dev.sitter, apply_ite Dev.sram, apply_ite Dev.sag]

@[simp] theorem pdStop_aside (d : Dev) (g : Nat) :
    (pdStop d g).sitter = d.sitter ∧ (pdStop d g).sram = d.sram ∧ (pdStop d g).sag.standing = d.sag.standing := by
  unfold pdStop
  split <;> simp

@[simp] theorem releasePd_aside (d : Dev) (key : Nat) :
    (releasePd d key).sitter = d.sitter ∧ (releasePd d key).sram = d.sram ∧ (releasePd d key).sag.standing = d.sag.standing := by
  unfold releasePd
  simp [apply_ite Dev.sitter, apply_ite Dev.sram, apply_ite Dev.sag, apply_ite Sag.standing]

@[simp] theorem releaseSlots_aside (d : Dev) (key : Nat) :
    (releaseSlots d key).sitter = d.sitter ∧ (releaseSlots d key).sram = d.sram ∧ (releaseSlots d key).sag.standing = d.sag.standing := by
  simp [releaseSlots]

@[simp] theorem releaseResources_aside (d : Dev) (key : Nat) :
    (releaseResources d key).sitter = d.sitter ∧ (releaseResources d key).sram = d.sram ∧
      (releaseResources d key).sag.standing = d.sag.standing := by
  simp [releaseResources]

@[simp] theorem witGone_aside (src : Word) (d : Dev) :
    (witGone src d).sitter = d.sitter ∧ (witGone src d).sram = d.sram ∧ (witGone src d).sag.standing = d.sag.standing := by
  unfold witGone
  simp [apply_ite Dev.sitter, apply_ite Dev.sram, apply_ite Dev.sag, apply_ite Sag.standing]

@[simp] theorem finishDestroy_aside (d : Dev) (t i : Nat) :
    (finishDestroy d t i).sitter = d.sitter ∧ (finishDestroy d t i).sram = d.sram ∧ (finishDestroy d t i).sag.standing = d.sag.standing := by
  simp [finishDestroy]

@[simp] theorem monDisable_aside (d : Dev) (m : Nat) :
    (monDisable d m).sitter = d.sitter ∧ (monDisable d m).sram = d.sram ∧ (monDisable d m).sag.standing = d.sag.standing := by
  unfold monDisable
  split <;> simp

@[simp] theorem stepSwitch_aside (d : Dev) (st : List Word) (on : Bool) :
    (stepSwitch d st on).sitter = d.sitter ∧ (stepSwitch d st on).sram = d.sram ∧ (stepSwitch d st on).sag.standing = d.sag.standing := by
  unfold stepSwitch
  split <;> simp

@[simp] theorem seqUnload_aside (d : Dev) (q : Nat) :
    (seqUnload d q).sitter = d.sitter ∧ (seqUnload d q).sram = d.sram ∧ (seqUnload d q).sag.standing = d.sag.standing := by
  refine foldl_aside fun d st => ?_
  dsimp only
  (repeat' split) <;> simp

@[simp] theorem fenceWaits_aside (d : Dev) (t i : Nat) :
    (fenceWaits d t i).sitter = d.sitter ∧ (fenceWaits d t i).sram = d.sram ∧ (fenceWaits d t i).sag.standing = d.sag.standing := by
  unfold fenceWaits
  dsimp only
  (repeat' split) <;> simp

@[simp] theorem battEvent_aside (d : Dev) (i code detail : Nat) :
    (battEvent d i code detail).sitter = d.sitter ∧ (battEvent d i code detail).sram = d.sram ∧
      (battEvent d i code detail).sag.standing = d.sag.standing := by
  simp [battEvent]

@[simp] theorem learnFails_aside (d : Dev) (i code : Nat) :
    (learnFails d i code).sitter = d.sitter ∧ (learnFails d i code).sram = d.sram ∧ (learnFails d i code).sag.standing = d.sag.standing := by
  unfold learnFails
  split <;> simp

@[simp] theorem battFence_aside (d : Dev) (i : Nat) :
    (battFence d i).sitter = d.sitter ∧ (battFence d i).sram = d.sram ∧ (battFence d i).sag.standing = d.sag.standing := by
  simp [battFence]

@[simp] theorem Dev.freeBits_aside (d : Dev) (n : Nat) :
    (Dev.freeBits d n).2.sitter = d.sitter ∧ (Dev.freeBits d n).2.sram = d.sram ∧ (Dev.freeBits d n).2.sag.standing = d.sag.standing := by
  simp [Dev.freeBits]

@[simp] theorem chanComplete_aside (d : Dev) (c cause : Nat) (base : Int) (tail : Nat) :
    (chanComplete d c cause base tail).sitter = d.sitter ∧
      (chanComplete d c cause base tail).sram = d.sram ∧ (chanComplete d c cause base tail).sag.standing = d.sag.standing := by
  unfold chanComplete
  dsimp only
  (repeat' split) <;> simp

@[simp] theorem Dev.recordTick_aside (d : Dev) :
    (Dev.recordTick d).2.sitter = d.sitter ∧ (Dev.recordTick d).2.sram = d.sram ∧ (Dev.recordTick d).2.sag.standing = d.sag.standing := by
  unfold Dev.recordTick
  split <;> simp

@[simp] theorem chanNote_aside (d : Dev) (c : Nat) :
    (chanNote d c).sitter = d.sitter ∧ (chanNote d c).sram = d.sram ∧ (chanNote d c).sag.standing = d.sag.standing := by
  simp [chanNote]

@[simp] theorem chanIdleFault_aside (d : Dev) (c cause tail : Nat) :
    (chanIdleFault d c cause tail).sitter = d.sitter ∧
      (chanIdleFault d c cause tail).sram = d.sram ∧ (chanIdleFault d c cause tail).sag.standing = d.sag.standing := by
  simp [chanIdleFault]

@[simp] theorem chanPgOff_aside (d : Dev) (c : Nat) :
    (chanPgOff d c).sitter = d.sitter ∧ (chanPgOff d c).sram = d.sram ∧ (chanPgOff d c).sag.standing = d.sag.standing := by
  unfold chanPgOff
  split <;> simp

@[simp] theorem urgentTrigger_aside (c chan : Nat) (d : Dev) :
    (urgentTrigger c chan d).sitter = d.sitter ∧ (urgentTrigger c chan d).sram = d.sram ∧
      (urgentTrigger c chan d).sag.standing = d.sag.standing := by
  unfold urgentTrigger
  dsimp only
  (repeat' split) <;> simp

@[simp] theorem chanTrip_aside (d : Dev) (c cause : Nat) (base : Int) :
    (chanTrip d c cause base).sitter = d.sitter ∧ (chanTrip d c cause base).sram = d.sram ∧
      (chanTrip d c cause base).sag.standing = d.sag.standing := by
  simp [chanTrip]

@[simp] theorem chanFence_aside (d : Dev) (c tail : Nat) :
    (chanFence d c tail).sitter = d.sitter ∧ (chanFence d c tail).sram = d.sram ∧ (chanFence d c tail).sag.standing = d.sag.standing := by
  unfold chanFence
  dsimp only
  (repeat' split) <;> simp

@[simp] theorem branchStore_aside (n : Nat) (d : Dev) :
    (branchStore n d).sitter = d.sitter ∧ (branchStore n d).sram = d.sram ∧ (branchStore n d).sag.standing = d.sag.standing := by
  simp [branchStore]

theorem chanStored_aside {f : Dev → Nat → Nat → Dev} (h : ∀ d c k, (f d c k).sitter = d.sitter ∧ (f d c k).sram = d.sram ∧
    (f d c k).sag.standing = d.sag.standing) (d : Dev) (c : Nat) :
    (chanStored f d c).sitter = d.sitter ∧ (chanStored f d c).sram = d.sram ∧
      (chanStored f d c).sag.standing = d.sag.standing := by
  unfold chanStored
  dsimp only
  split <;> simp [h]

@[simp] theorem chanFenced_aside (d : Dev) (c : Nat) :
    (chanFenced d c).sitter = d.sitter ∧ (chanFenced d c).sram = d.sram ∧ (chanFenced d c).sag.standing = d.sag.standing := by
  exact chanStored_aside (fun d c k => chanFence_aside d c k) d c

@[simp] theorem ledNote_aside (d : Dev) :
    (ledNote d).sitter = d.sitter ∧ (ledNote d).sram = d.sram ∧ (ledNote d).sag.standing = d.sag.standing := by
  simp [ledNote]

@[simp] theorem chanRefLost_aside (d : Dev) (c : Nat) :
    (chanRefLost d c).sitter = d.sitter ∧ (chanRefLost d c).sram = d.sram ∧ (chanRefLost d c).sag.standing = d.sag.standing := by
  unfold chanRefLost
  split <;> simp

@[simp] theorem demandOut_aside (d : Dev) (i l : Nat) (v : Int) :
    (demandOut d i l v).sitter = d.sitter ∧ (demandOut d i l v).sram = d.sram ∧ (demandOut d i l v).sag.standing = d.sag.standing := by
  unfold demandOut
  split <;> simp

@[simp] theorem phaseOut_aside (d : Dev) (l p : Nat) (v : Int) :
    (phaseOut d l p v).sitter = d.sitter ∧ (phaseOut d l p v).sram = d.sram ∧ (phaseOut d l p v).sag.standing = d.sag.standing := by
  unfold phaseOut
  (repeat' split) <;> simp

@[simp] theorem portSet_aside (l : Nat) (d : Dev) (k : Nat) :
    (portSet l d k).sitter = d.sitter ∧ (portSet l d k).sram = d.sram ∧ (portSet l d k).sag.standing = d.sag.standing := by
  unfold portSet
  dsimp only
  (repeat' split) <;> simp

@[simp] theorem Dev.endKind_aside (d : Dev) (k : WaitKind) (h : Word) (st : Status) :
    (Dev.endKind d k h st).sitter = d.sitter ∧ (Dev.endKind d k h st).sram = d.sram ∧ (Dev.endKind d k h st).sag.standing = d.sag.standing := by
  simp [Dev.endKind]

@[simp] theorem applySetPoints_aside (d : Dev) (l : Nat) :
    (applySetPoints d l).sitter = d.sitter ∧ (applySetPoints d l).sram = d.sram ∧ (applySetPoints d l).sag.standing = d.sag.standing := by
  simp [applySetPoints]

@[simp] theorem portsSet_aside (d : Dev) (l : Nat) :
    (portsSet d l).sitter = d.sitter ∧ (portsSet d l).sram = d.sram ∧ (portsSet d l).sag.standing = d.sag.standing := by
  simp [portsSet]

@[simp] theorem swapLoop_aside (d : Dev) (l : Nat) (run : BitVec 32) :
    (swapLoop d l run).sitter = d.sitter ∧ (swapLoop d l run).sram = d.sram ∧ (swapLoop d l run).sag.standing = d.sag.standing := by
  unfold swapLoop
  split <;> simp

@[simp] theorem disableLoop_aside (d : Dev) (l : Nat) :
    (disableLoop d l).sitter = d.sitter ∧ (disableLoop d l).sram = d.sram ∧ (disableLoop d l).sag.standing = d.sag.standing := by
  unfold disableLoop
  split <;> simp

@[simp] theorem disableRailLoops_aside (d : Dev) (i : Nat) :
    (disableRailLoops d i).sitter = d.sitter ∧ (disableRailLoops d i).sram = d.sram ∧ (disableRailLoops d i).sag.standing = d.sag.standing := by
  simp [disableRailLoops]

@[simp] theorem dischargeOn_aside (d : Dev) (i : Nat) :
    (dischargeOn d i).sitter = d.sitter ∧ (dischargeOn d i).sram = d.sram ∧ (dischargeOn d i).sag.standing = d.sag.standing := by
  unfold dischargeOn
  split <;> simp

@[simp] theorem gatesLow_aside (d : Dev) (i : Nat) :
    (gatesLow d i).sitter = d.sitter ∧ (gatesLow d i).sram = d.sram ∧ (gatesLow d i).sag.standing = d.sag.standing := by
  exact foldl_aside fun d p => ⟨rfl, rfl, rfl⟩

@[simp] theorem railPgOff_aside (d : Dev) (i : Nat) :
    (railPgOff d i).sitter = d.sitter ∧ (railPgOff d i).sram = d.sram ∧ (railPgOff d i).sag.standing = d.sag.standing := by
  unfold railPgOff
  split <;> simp

@[simp] theorem writeRailRecord_aside (d : Dev) (i cause pos : Nat) (before : RailRun) :
    (writeRailRecord d i cause pos before).sitter = d.sitter ∧
      (writeRailRecord d i cause pos before).sram = d.sram ∧ (writeRailRecord d i cause pos before).sag.standing = d.sag.standing := by
  unfold writeRailRecord
  split <;> simp

@[simp] theorem railFault_aside (d : Dev) (i cause pos : Nat) :
    (railFault d i cause pos).sitter = d.sitter ∧ (railFault d i cause pos).sram = d.sram ∧
      (railFault d i cause pos).sag.standing = d.sag.standing := by
  unfold railFault
  dsimp only
  (repeat' split) <;> simp

@[simp] theorem railDemand_aside (d : Dev) (i l : Nat) (v : Int) (defaulted : Bool) :
    (railDemand d i l v defaulted).sitter = d.sitter ∧
      (railDemand d i l v defaulted).sram = d.sram ∧ (railDemand d i l v defaulted).sag.standing = d.sag.standing := by
  unfold railDemand
  simp [apply_ite Dev.sitter, apply_ite Dev.sram, apply_ite Dev.sag, apply_ite Sag.standing]

@[simp] theorem portDeliver_aside (l : Nat) (dflt : Bool) (d : Dev) (k : Nat) :
    (portDeliver l dflt d k).sitter = d.sitter ∧ (portDeliver l dflt d k).sram = d.sram ∧
      (portDeliver l dflt d k).sag.standing = d.sag.standing := by
  unfold portDeliver
  dsimp only
  (repeat' split) <;> simp

@[simp] theorem loopFence_aside (d : Dev) (l : Nat) :
    (loopFence d l).sitter = d.sitter ∧ (loopFence d l).sram = d.sram ∧ (loopFence d l).sag.standing = d.sag.standing := by
  simp [loopFence]

@[simp] theorem netifDown_aside (d : Dev) (n : Nat) :
    (netifDown d n).sitter = d.sitter ∧ (netifDown d n).sram = d.sram ∧ (netifDown d n).sag.standing = d.sag.standing := by
  unfold netifDown
  dsimp only
  (repeat' split) <;> simp

@[simp] theorem railFence_aside (d : Dev) (i : Nat) :
    (railFence d i).sitter = d.sitter ∧ (railFence d i).sram = d.sram ∧ (railFence d i).sag.standing = d.sag.standing := by
  unfold railFence
  split <;> simp

@[simp] theorem disarm_aside (d : Dev) (n : Nat) :
    (disarm d n).sitter = d.sitter ∧ (disarm d n).sram = d.sram ∧ (disarm d n).sag.standing = d.sag.standing := by
  unfold disarm
  dsimp only
  (repeat' split) <;> simp

@[simp] theorem zoneUpdate_aside (cause : Word) (d : Dev) (z : Nat) :
    (zoneUpdate cause d z).sitter = d.sitter ∧ (zoneUpdate cause d z).sram = d.sram ∧ (zoneUpdate cause d z).sag.standing = d.sag.standing := by
  unfold zoneUpdate
  dsimp only
  (repeat' split) <;> simp

@[simp] theorem kilnApply_aside (cause : Word) (d : Dev) :
    (kilnApply cause d).sitter = d.sitter ∧ (kilnApply cause d).sram = d.sram ∧ (kilnApply cause d).sag.standing = d.sag.standing := by
  exact aside_trans (foldl_aside (by simp)) (aside_trans (foldl_aside fun _ _ => ⟨rfl, rfl, rfl⟩)
    (foldl_aside fun d z => zoneUpdate_aside cause d z))

@[simp] theorem sensFence_aside (d : Dev) (n : Nat) :
    (sensFence d n).sitter = d.sitter ∧ (sensFence d n).sram = d.sram ∧ (sensFence d n).sag.standing = d.sag.standing := by
  simp [sensFence]

@[simp] theorem Dev.endAll_aside (d : Dev) (h : Word) (st : Status) :
    (Dev.endAll d h st).sitter = d.sitter ∧ (Dev.endAll d h st).sram = d.sram ∧ (Dev.endAll d h st).sag.standing = d.sag.standing := by
  simp [Dev.endAll]

@[simp] theorem endSeqEnables_aside (d : Dev) (q : Nat) (st : Status) :
    (endSeqEnables d q st).sitter = d.sitter ∧ (endSeqEnables d q st).sram = d.sram ∧ (endSeqEnables d q st).sag.standing = d.sag.standing := by
  simp [endSeqEnables]

@[simp] theorem seqHstate_aside (d : Dev) (q : Nat) (on : Bool) :
    (seqHstate d q on).sitter = d.sitter ∧ (seqHstate d q on).sram = d.sram ∧ (seqHstate d q on).sag.standing = d.sag.standing := by
  simp [seqHstate]

@[simp] theorem downDone_aside (d : Dev) (q : Nat) :
    (downDone d q).sitter = d.sitter ∧ (downDone d q).sram = d.sram ∧ (downDone d q).sag.standing = d.sag.standing := by
  unfold downDone
  dsimp only
  (repeat' split) <;> simp

@[simp] theorem dischargeOff_aside (d : Dev) (i : Nat) :
    (dischargeOff d i).sitter = d.sitter ∧ (dischargeOff d i).sram = d.sram ∧ (dischargeOff d i).sag.standing = d.sag.standing := by
  unfold dischargeOff
  split <;> simp

@[simp] theorem elementOff_aside (d : Dev) (t i result : Nat) :
    (elementOff d t i result).sitter = d.sitter ∧ (elementOff d t i result).sram = d.sram ∧
      (elementOff d t i result).sag.standing = d.sag.standing := by
  unfold elementOff
  dsimp only
  (repeat' split) <;> simp

@[simp] theorem railOff_aside (d : Dev) (i : Nat) :
    (railOff d i).sitter = d.sitter ∧ (railOff d i).sram = d.sram ∧ (railOff d i).sag.standing = d.sag.standing := by
  simp [railOff]

@[simp] theorem stepEnds_aside (d : Dev) (q s : Nat) :
    (stepEnds d q s).sitter = d.sitter ∧ (stepEnds d q s).sram = d.sram ∧ (stepEnds d q s).sag.standing = d.sag.standing := by
  unfold stepEnds
  dsimp only
  (repeat' split) <;> simp

@[simp] theorem drivePin_aside (d : Dev) (st : List Word) (active : Bool) :
    (drivePin d st active).sitter = d.sitter ∧ (drivePin d st active).sram = d.sram ∧ (drivePin d st active).sag.standing = d.sag.standing := by
  unfold drivePin
  split <;> simp

@[simp] theorem Dev.endEnables_aside (d : Dev) (h : Word) (st : Status) :
    (Dev.endEnables d h st).sitter = d.sitter ∧ (Dev.endEnables d h st).sram = d.sram ∧
      (Dev.endEnables d h st).sag.standing = d.sag.standing := by
  simp [Dev.endEnables]

@[simp] theorem chanOff_aside (d : Dev) (c : Nat) :
    (chanOff d c).sitter = d.sitter ∧ (chanOff d c).sram = d.sram ∧ (chanOff d c).sag.standing = d.sag.standing := by
  unfold chanOff
  dsimp only
  (repeat' split) <;> simp

@[simp] theorem chanStop_aside (d : Dev) (c : Nat) :
    (chanStop d c).sitter = d.sitter ∧ (chanStop d c).sram = d.sram ∧ (chanStop d c).sag.standing = d.sag.standing := by
  unfold chanStop
  dsimp only
  (repeat' split) <;> simp

@[simp] theorem enterPhase_aside (d : Dev) (i p : Nat) (st : PhaseState) (at_ : Nat) :
    (enterPhase d i p st at_).sitter = d.sitter ∧ (enterPhase d i p st at_).sram = d.sram ∧
      (enterPhase d i p st at_).sag.standing = d.sag.standing := by
  unfold enterPhase
  simp [apply_ite Dev.sitter, apply_ite Dev.sram, apply_ite Dev.sag, apply_ite Sag.standing]

@[simp] theorem railStop_aside (d : Dev) (i : Nat) :
    (railStop d i).sitter = d.sitter ∧ (railStop d i).sram = d.sram ∧ (railStop d i).sag.standing = d.sag.standing := by
  unfold railStop
  simp [apply_ite Dev.sitter, apply_ite Dev.sram, apply_ite Dev.sag, apply_ite Sag.standing]

@[simp] theorem elemStop_aside (d : Dev) (h : Word) :
    (elemStop d h).sitter = d.sitter ∧ (elemStop d h).sram = d.sram ∧ (elemStop d h).sag.standing = d.sag.standing := by
  unfold elemStop
  split <;> simp

@[simp] theorem stopStep_aside (d : Dev) (q s : Nat) :
    (stopStep d q s).sitter = d.sitter ∧ (stopStep d q s).sram = d.sram ∧ (stopStep d q s).sag.standing = d.sag.standing := by
  unfold stopStep
  dsimp only
  (repeat' split) <;> simp

@[simp] theorem downFrom_aside (fuel : Nat) (d : Dev) (q below : Nat) (first : Bool) :
    (downFrom fuel d q below first).sitter = d.sitter ∧
      (downFrom fuel d q below first).sram = d.sram ∧ (downFrom fuel d q below first).sag.standing = d.sag.standing := by
  induction fuel generalizing d below first with
  | zero => exact ⟨rfl, rfl, rfl⟩
  | succ n ih =>
    unfold downFrom
    split
    · simp
    · dsimp only
      (repeat' split) <;> simp [ih]

@[simp] theorem seqAdvance_aside (d : Dev) (q below : Nat) (first : Bool) :
    (seqAdvance d q below first).sitter = d.sitter ∧
      (seqAdvance d q below first).sram = d.sram ∧ (seqAdvance d q below first).sag.standing = d.sag.standing := by
  simp [seqAdvance]

@[simp] theorem seqOff_aside (d : Dev) (q cause : Nat) (brown : Option Nat) :
    (seqOff d q cause brown).sitter = d.sitter ∧ (seqOff d q cause brown).sram = d.sram ∧
      (seqOff d q cause brown).sag.standing = d.sag.standing := by
  unfold seqOff
  dsimp only
  (repeat' split) <;> simp

@[simp] theorem ownFault_aside (d : Dev) (q s reason : Nat) :
    (ownFault d q s reason).sitter = d.sitter ∧ (ownFault d q s reason).sram = d.sram ∧
      (ownFault d q s reason).sag.standing = d.sag.standing := by
  unfold ownFault
  dsimp only
  simp

@[simp] theorem stopNext_aside (l : List (Nat × Nat)) (d : Dev) :
    (stopNext l d).sitter = d.sitter ∧ (stopNext l d).sram = d.sram ∧ (stopNext l d).sag.standing = d.sag.standing := by
  induction l generalizing d with
  | nil => simp [stopNext_nil]
  | cons p l ih =>
    obtain ⟨t, i⟩ := p
    by_cases hpast : (elemGone d t i || (d.seqNaming (d.handleOf t i)).isSome) = true
    · rw [stopNext_past hpast]
      exact ih d
    · by_cases hgone : elemGone (elemStop d (d.handleOf t i)) t i = true
      · rw [stopNext_gone t i l d hpast hgone]
        exact aside_trans (ih _) (elemStop_aside d _)
      · rw [stopNext_waits t i l d hpast hgone]
        exact aside_trans (planeUpdate_aside _ _) (elemStop_aside d _)

@[simp] theorem orderOff_aside (d : Dev) (q : Nat) :
    (orderOff d q).sitter = d.sitter ∧ (orderOff d q).sram = d.sram ∧ (orderOff d q).sag.standing = d.sag.standing := by
  unfold orderOff
  split <;> simp

@[simp] theorem orderNext_aside (l : List Nat) (d : Dev) :
    (orderNext l d).sitter = d.sitter ∧ (orderNext l d).sram = d.sram ∧ (orderNext l d).sag.standing = d.sag.standing := by
  induction l generalizing d with
  | nil => exact stopNext_aside d.plane.stopList { d with plane := { d.plane with downOrders := [], downRunning := none } }
  | cons q l ih =>
    rw [orderNext_cons]
    split
    · exact orderOff_aside d q
    · simp [ih]

@[simp] theorem chainCheck_aside (d : Dev) :
    (chainCheck d).sitter = d.sitter ∧ (chainCheck d).sram = d.sram ∧ (chainCheck d).sag.standing = d.sag.standing := by
  unfold chainCheck
  (repeat' split) <;> simp

@[simp] theorem releaseStuck_aside (d : Dev) :
    (releaseStuck d).sitter = d.sitter ∧ (releaseStuck d).sram = d.sram ∧ (releaseStuck d).sag.standing = d.sag.standing := by
  unfold releaseStuck
  simp [apply_ite Dev.sitter, apply_ite Dev.sram, apply_ite Dev.sag, apply_ite Sag.standing]

@[simp] theorem wdRelease_aside (d : Dev) :
    (wdRelease d).sitter = d.sitter ∧ (wdRelease d).sram = d.sram ∧ (wdRelease d).sag.standing = d.sag.standing := by
  unfold wdRelease
  split <;> simp

@[simp] theorem settle_aside (d : Dev) :
    (settle d).sitter = d.sitter ∧ (settle d).sram = d.sram ∧ (settle d).sag.standing = d.sag.standing := by
  simp [settle]

@[simp] theorem seqFence_aside (d : Dev) (q : Nat) :
    (seqFence d q).sitter = d.sitter ∧ (seqFence d q).sram = d.sram ∧ (seqFence d q).sag.standing = d.sag.standing := by
  simp [seqFence]

@[simp] theorem Dev.modIn_aside (d : Dev) (n x : Nat) (f : SrcInput → SrcInput) :
    (Dev.modIn d n x f).sitter = d.sitter ∧ (Dev.modIn d n x f).sram = d.sram ∧ (Dev.modIn d n x f).sag.standing = d.sag.standing := by
  simp [Dev.modIn]

@[simp] theorem srcBrownout_aside (d : Dev) (n : Nat) :
    (srcBrownout d n).sitter = d.sitter ∧ (srcBrownout d n).sram = d.sram ∧ (srcBrownout d n).sag.standing = d.sag.standing := by
  unfold srcBrownout
  dsimp only
  (repeat' split) <;> simp

@[simp] theorem srcBankLow_aside (d : Dev) (n : Nat) :
    (srcBankLow d n).sitter = d.sitter ∧ (srcBankLow d n).sram = d.sram ∧ (srcBankLow d n).sag.standing = d.sag.standing := by
  unfold srcBankLow
  split <;> simp

@[simp] theorem srcEnterNone_aside (d : Dev) (n : Nat) :
    (srcEnterNone d n).sitter = d.sitter ∧ (srcEnterNone d n).sram = d.sram ∧ (srcEnterNone d n).sag.standing = d.sag.standing := by
  unfold srcEnterNone
  split <;> simp

@[simp] theorem srcBatOpens_aside (d : Dev) (n : Nat) :
    (srcBatOpens d n).sitter = d.sitter ∧ (srcBatOpens d n).sram = d.sram ∧ (srcBatOpens d n).sag.standing = d.sag.standing := by
  unfold srcBatOpens
  dsimp only
  (repeat' split) <;> simp

@[simp] theorem srcFence_aside (d : Dev) (n : Nat) :
    (srcFence d n).sitter = d.sitter ∧ (srcFence d n).sram = d.sram ∧ (srcFence d n).sag.standing = d.sag.standing := by
  simp [srcFence]

@[simp] theorem safeState_aside (d : Dev) (t i : Nat) :
    (safeState d t i).sitter = d.sitter ∧ (safeState d t i).sram = d.sram ∧ (safeState d t i).sag.standing = d.sag.standing := by
  unfold safeState
  (repeat' split) <;> simp

@[simp] theorem pdRestart_aside (d : Dev) (g : Nat) :
    (pdRestart d g).sitter = d.sitter ∧ (pdRestart d g).sram = d.sram ∧ (pdRestart d g).sag.standing = d.sag.standing := by
  unfold pdRestart
  split
  · exact aside_trans (foldl_aside fun _ _ => ⟨rfl, rfl, rfl⟩) ⟨rfl, rfl, rfl⟩
  · simp

@[simp] theorem groupStart_aside (d : Dev) (i : Nat) :
    (groupStart d i).sitter = d.sitter ∧ (groupStart d i).sram = d.sram ∧ (groupStart d i).sag.standing = d.sag.standing := by
  simp [groupStart]

@[simp] theorem hibEvent_aside (d : Dev) (i v : Nat) :
    (hibEvent d i v).sitter = d.sitter ∧ (hibEvent d i v).sram = d.sram ∧ (hibEvent d i v).sag.standing = d.sag.standing := by
  simp [hibEvent]

@[simp] theorem battWake_aside (d : Dev) (i : Nat) :
    (battWake d i).sitter = d.sitter ∧ (battWake d i).sram = d.sram ∧ (battWake d i).sag.standing = d.sag.standing := by
  unfold battWake
  split <;> simp

@[simp] theorem battFullRate_aside (d : Dev) (i : Nat) :
    (battFullRate d i).sitter = d.sitter ∧ (battFullRate d i).sram = d.sram ∧ (battFullRate d i).sag.standing = d.sag.standing := by
  unfold battFullRate
  split <;> simp

@[simp] theorem battSave_aside (d : Dev) (i : Nat) :
    (battSave d i).sitter = d.sitter ∧ (battSave d i).sram = d.sram ∧ (battSave d i).sag.standing = d.sag.standing := by
  unfold battSave
  split <;> simp

@[simp] theorem battEnter_aside (d : Dev) (i : Nat) (s : Service) :
    (battEnter d i s).sitter = d.sitter ∧ (battEnter d i s).sram = d.sram ∧ (battEnter d i s).sag.standing = d.sag.standing := by
  unfold battEnter
  split <;> simp

@[simp] theorem battService_aside (d : Dev) (i : Nat) (s : Service) :
    (battService d i s).sitter = d.sitter ∧ (battService d i s).sram = d.sram ∧ (battService d i s).sag.standing = d.sag.standing := by
  unfold battService
  split <;> simp

@[simp] theorem battSitter_aside (d : Dev) (i : Nat) :
    (battSitter d i).sitter = d.sitter ∧ (battSitter d i).sram = d.sram ∧ (battSitter d i).sag.standing = d.sag.standing := by
  unfold battSitter
  split <;> simp

@[simp] theorem chanFound_aside (d : Dev) (c cause : Nat) (base : Int) :
    (chanFound d c cause base).sitter = d.sitter ∧ (chanFound d c cause base).sram = d.sram ∧
      (chanFound d c cause base).sag.standing = d.sag.standing := by
  unfold chanFound
  dsimp only
  (repeat' split) <;> simp

@[simp] theorem chanSitterTrip_aside (d : Dev) (c tail : Nat) :
    (chanSitterTrip d c tail).sitter = d.sitter ∧ (chanSitterTrip d c tail).sram = d.sram ∧
      (chanSitterTrip d c tail).sag.standing = d.sag.standing := by
  unfold chanSitterTrip
  simp [apply_ite Dev.sitter, apply_ite Dev.sram, apply_ite Dev.sag, apply_ite Sag.standing]

@[simp] theorem chanSitter_aside (d : Dev) (c : Nat) :
    (chanSitter d c).sitter = d.sitter ∧ (chanSitter d c).sram = d.sram ∧ (chanSitter d c).sag.standing = d.sag.standing := by
  exact chanStored_aside (fun d c k => chanSitterTrip_aside d c k) d c

@[simp] theorem noteC3_aside (d : Dev) (n : Nat) :
    (noteC3 d n).sitter = d.sitter ∧ (noteC3 d n).sram = d.sram ∧ (noteC3 d n).sag.standing = d.sag.standing := by
  simp [noteC3]

@[simp] theorem railSitter_aside (d : Dev) (i : Nat) :
    (railSitter d i).sitter = d.sitter ∧ (railSitter d i).sram = d.sram ∧ (railSitter d i).sag.standing = d.sag.standing := by
  unfold railSitter
  split <;> simp

@[simp] theorem seqSitter_aside (d : Dev) (q : Nat) :
    (seqSitter d q).sitter = d.sitter ∧ (seqSitter d q).sram = d.sram ∧ (seqSitter d q).sag.standing = d.sag.standing := by
  unfold seqSitter
  dsimp only
  split
  · simp
  · simp [apply_ite Dev.sitter, apply_ite Dev.sram, apply_ite Dev.sag, apply_ite Sag.standing]
    refine foldl_aside fun d s => ?_
    (repeat' split) <;> simp

@[simp] theorem srcGatesOff_aside (d : Dev) (n : Nat) :
    (srcGatesOff d n).sitter = d.sitter ∧ (srcGatesOff d n).sram = d.sram ∧ (srcGatesOff d n).sag.standing = d.sag.standing := by
  unfold srcGatesOff
  dsimp only
  (repeat' split) <;> simp

@[simp] theorem srcSitter_aside (d : Dev) (n : Nat) :
    (srcSitter d n).sitter = d.sitter ∧ (srcSitter d n).sram = d.sram ∧ (srcSitter d n).sag.standing = d.sag.standing := by
  unfold srcSitter
  split <;> simp

@[simp] theorem setReady_aside (on : Bool) (d : Dev) :
    (setReady on d).sitter = d.sitter ∧ (setReady on d).sram = d.sram ∧ (setReady on d).sag.standing = d.sag.standing := by
  unfold setReady
  split <;> simp

@[simp] theorem coreAborts_aside (d : Dev) :
    (coreAborts d).sitter = d.sitter ∧ (coreAborts d).sram = d.sram ∧ (coreAborts d).sag.standing = d.sag.standing := by
  refine foldl_aside fun d k => ?_
  dsimp only
  (repeat' split) <;> simp

@[simp] theorem witFence_aside (d : Dev) :
    (witFence d).sitter = d.sitter ∧ (witFence d).sram = d.sram ∧ (witFence d).sag.standing = d.sag.standing := by
  unfold witFence
  simp [apply_ite Dev.sitter, apply_ite Dev.sram, apply_ite Dev.sag]

@[simp] theorem ledFence_aside (on : Bool) (d : Dev) :
    (ledFence on d).sitter = d.sitter ∧ (ledFence on d).sram = d.sram ∧ (ledFence on d).sag.standing = d.sag.standing := by
  simp [ledFence]

@[simp] theorem fenceBuffers_aside (d : Dev) :
    (fenceBuffers d).sitter = d.sitter ∧ (fenceBuffers d).sram = d.sram ∧ (fenceBuffers d).sag.standing = d.sag.standing := by
  simp [fenceBuffers]

/-! ### The fence of a handle, the Sitter's trip -/

theorem fenceHandle_aside (t i cause : Nat) (d : Dev) : (fenceHandle t i cause d).sitter = d.sitter ∧
    (fenceHandle t i cause d).sram = d.sram ∧ (fenceHandle t i cause d).sag.fenced = d.sag.fenced := by
  unfold fenceHandle
  dsimp only
  split
  · exact ⟨rfl, rfl, rfl⟩
  · split
    · exact ⟨rfl, rfl, rfl⟩
    · refine ⟨by simp, by simp, ?_⟩
      exact congrArg Prod.fst (show Sag.standing _ = Sag.standing _ by simp; rfl)

/-- The Sitter's latch is set through the whole trip (R375). -/
@[simp] theorem sitterTrip_sitter (n : Nat) (d : Dev) : (sitterTrip n d).sitter = true := by
  simp [sitterTrip, noteC3]

end Sys2Proof.Machine
end

/-! ## O56: Cones, the Sitter, remote sensors, throttling and the black box -/

section
/-! PROOF. Each command is its model function, whose branches the clauses' conditions pick. What a change of a sensor leaves to the
other sensors is said once, as is what the zones leave to all of them. -/

namespace Sys2Proof.Machine

/-! ### What zones and throttles leave to the sensors -/

/-- What the sensors are read by: the slots, the acquisition's queue and words, the sensors' state and the Cones. -/
def Dev.sensing (d : Dev) : List (Nat × Slot) × Acq × List (Nat × SensorRt) × List (Nat × Cones) :=
  (d.slots, d.acq, d.heat.sens, d.heat.cones)

theorem raise_sensing (d : Dev) (code detail : Nat) (h : Word) : (d.raise code detail h).sensing = d.sensing := by
  rw [raise_frame]
  rfl

theorem zoneUpdate_sensing (cause : Word) (d : Dev) (z : Nat) : (zoneUpdate cause d z).sensing = d.sensing := by
  unfold zoneUpdate
  dsimp only
  (repeat' split) <;> simp [raise_sensing] <;> simp [Dev.sensing]

theorem modRails_sensing (l : List Nat) (g : Dev → Nat → Rail → Rail) (d : Dev) :
    (l.foldl (fun d i => d.modRail i (g d i)) d).sensing = d.sensing := 
  foldl_keeps Dev.sensing (fun d i => (rfl : (d.modRail i (g d i)).sensing = d.sensing)) l d

theorem modChans_sensing (l : List Nat) (g : Dev → Nat → Chan → Chan) (d : Dev) :
    (l.foldl (fun d i => d.modChan i (g d i)) d).sensing = d.sensing :=
  foldl_keeps Dev.sensing (fun d i => by simp [Dev.sensing]) l d

/-- The zones and throttles leave every sensor and its Cones as they are. -/
theorem kilnApply_sensing (h : Word) (d : Dev) : (kilnApply h d).sensing = d.sensing :=
  (modChans_sensing _ _ _).trans ((modRails_sensing _ _ _).trans (foldl_keeps Dev.sensing (zoneUpdate_sensing h) _ d))

theorem endKind_sensing (d : Dev) (k : WaitKind) (h : Word) (st : Status) : (d.endKind k h st).sensing = d.sensing := by
  unfold Dev.endKind
  rw [endWaits_frame]
  rfl

theorem raiseOnceTurn_sensing (d : Dev) (key code detail : Nat) (h : Word) :
    (d.raiseOnceTurn key code detail h).sensing = d.sensing := by
  rw [raiseOnceTurn_frame]
  rfl

/-! ### A good conversion (R365, R371) -/

/-- The voltage and temperature of the last good conversion of a sensor, and the queue of conversions. -/
def Dev.lastGood (d : Dev) (n : Nat) : Option (Nat × Int) × List Nat := ((d.sens n).base, d.acq.tdQueue)

theorem lastGood_of_sensing {d e : Dev} {n : Nat} (h : d.sensing = e.sensing) : d.lastGood n = e.lastGood n := by
  have hacq : d.acq = e.acq := congrArg (fun x => x.2.1) h
  have hsens : d.heat.sens = e.heat.sens := congrArg (fun x => x.2.2.1) h
  unfold Dev.lastGood Dev.sens
  rw [hacq, hsens]

theorem lastGood_modSens (d : Dev) (n : Nat) {f : SensorRt → SensorRt} (h : ∀ s, (f s).base = s.base) :
    (d.modSens n f).lastGood n = d.lastGood n := by
  unfold Dev.lastGood
  rw [sens_modSens_self, h]
  rfl

theorem sensGood_lastGood (d : Dev) (n : Nat) (biasOk : Bool) : (sensGood d n biasOk).lastGood n = d.lastGood n := by
  unfold sensGood
  dsimp only
  split
  · split
    · generalize (if biasOk = true then (d.sens n).good + 1 else 0) = good
      split
      · rw [lastGood_of_sensing (kilnApply_sensing _ _), lastGood_of_sensing (raiseOnceTurn_sensing _ _ _ _ _)]
        exact lastGood_modSens d n fun _ => rfl
      · exact lastGood_modSens d n fun _ => rfl
    · rw [lastGood_of_sensing (endKind_sensing _ _ _ _)]
      exact lastGood_modSens d n fun _ => rfl
  · rfl

theorem witValue_sensing (src : Word) (q sub : Nat) (num : Int) (den : Nat) (dflt : Bool) (d : Dev) :
    (witValue src q sub num den dflt d).sensing = d.sensing :=
  (congrArg Dev.sensing (witValue_sansWit src q sub num den dflt d) :)

theorem tdAnswer_sensing (h w : Word) (d : Dev) : (tdAnswer h w d).sensing = d.sensing := by
  unfold tdAnswer
  rw [endWaits_frame]
  rfl

theorem tdSensor_good_lastGood (n : Nat) (value : Int) (uv : Nat) (biasOk : Bool) (d : Dev) :
    (tdSensor n value uv false false false biasOk d).lastGood n = (some (uv, satSigned 16 value), d.acq.tdQueue) := by
  have h : tdSensor n value uv false false false biasOk d =
      sensGood (witValue ((d.modSens n fun s => { s with age := some 0 }).sensHandle n) 0x30 0 value 1 false
        ((d.modSens n fun s => { s with age := some 0 }).modSens n fun s => { s with base := some (uv, satSigned 16 value) })) n biasOk := rfl
  rw [h, sensGood_lastGood, lastGood_of_sensing (witValue_sensing _ _ _ _ _ _ _)]
  unfold Dev.lastGood
  rw [sens_modSens_self]
  rfl

theorem tdConversionDone_good (s : State) (value : Int) (uv n : Nat) (biasOk : Bool) (rest : List Nat)
    (hq : s.dev.acq.tdQueue = n :: rest) (hl : s.dev.live tSensor n = true) :
    ∃ d : Dev, Answers (.tdConversionDone value uv false false false biasOk) s d ∧
      (d.sens n).base = some (uv, satSigned 16 value) ∧ d.acq.tdQueue = rest := by
  refine ⟨_, .congr rfl (tdConversionDone_live hq hl), ?_⟩
  rw [← Prod.mk.injEq]
  exact (lastGood_of_sensing (tdAnswer_sensing _ _ _)).trans (tdSensor_good_lastGood n value uv biasOk _)

/-! ### The comparators' levels (R365, R366) -/

theorem coneLevel_remote {d : Dev} {n c : Nat} (hn : n < 16) (rel : Bool) : d.coneLevel n c rel = (d.sens n).base.map fun b =>
    128 * (b.1 : Int) - (bits ((d.slot tSensor n).w 2) 0 16 : Nat) *
      (d.coneThreshold n c - (if rel then 128 * (d.coneHyst n c : Int) else 0) - b.2) := by
  have : onDie n = false := decide_eq_false (by omega)
  simp [Dev.coneLevel, this]

theorem cones_modCones_self (d : Dev) (n : Nat) (f : Cones → Cones) : (d.modCones n f).cones n = f (d.cones n) := tget_tmod_self ..

theorem cones_modCones_ne (d : Dev) {n k : Nat} (h : k ≠ n) (f : Cones → Cones) : (d.modCones n f).cones k = d.cones k :=
  tget_tmod_ne _ _ _ h

/-- Whether the comparator of a level sees it crossed (R364 to R366). -/
def Dev.coneSeen (d : Dev) (n c : Nat) (rel : Bool) (uv : Nat) : Bool :=
  (d.coneLevel n c rel).any fun v => if rel then decide (v < 128 * (uv : Int)) else decide (128 * (uv : Int) < v)

theorem coneTrip_trips (d : Dev) (n c uv : Nat) : coneTrip n c false uv d = d.modCones n fun x => { x with
    trip := if d.coneSeen n c false uv then x.trip ||| BitVec.ofNat 3 (2 ^ c) else x.trip &&& ~~~BitVec.ofNat 3 (2 ^ c) } := by
  unfold coneTrip Dev.coneSeen
  cases d.coneLevel n c false <;> rfl

theorem coneTrip_releases (d : Dev) (n c uv : Nat) : coneTrip n c true uv d = d.modCones n fun x => { x with
    rel := if d.coneSeen n c true uv then x.rel ||| BitVec.ofNat 3 (2 ^ c) else x.rel &&& ~~~BitVec.ofNat 3 (2 ^ c) } := by
  unfold coneTrip Dev.coneSeen
  cases d.coneLevel n c true <;> rfl

theorem answers_coneTrip (s : State) {n c : Nat} (hn : n < 20) (hc : c < 3) (rel : Bool) (uv : Nat) :
    Answers (.coneTrip n c rel uv) s (coneTrip n c rel uv s.dev) :=
  answersAt hn (if_pos hc) rfl

/-! ### Confirmations (R366) -/

section
variable {d : Dev} {n c : Nat}

theorem coneConfirm_nothing
    (htrips : ¬(d.coneArmed n = true ∧ ¬(d.cones n).conf.toNat / 2 ^ c % 2 = 1 ∧ (d.cones n).trip.toNat / 2 ^ c % 2 = 1))
    (hreleases : ¬((d.cones n).conf.toNat / 2 ^ c % 2 = 1 ∧ (d.cones n).rel.toNat / 2 ^ c % 2 = 1)) : coneConfirm n c d = d := by
  unfold coneConfirm
  dsimp only
  rw [if_neg (by simpa [and_assoc] using htrips), if_neg (by simpa using hreleases)]

theorem coneConfirm_trips
    (h : d.coneArmed n = true ∧ ¬(d.cones n).conf.toNat / 2 ^ c % 2 = 1 ∧ (d.cones n).trip.toNat / 2 ^ c % 2 = 1) :
    coneConfirm n c d =
      if c = 0 then ((setCone d n c true).tally 44 2 1).raise 0x0B01 1 (d.sensHandle n)
      else if c = 1 then kilnApply (d.sensHandle n) ((setCone d n c true).tally 44 2 1)
      else if d.sitter then noteC3 ((setCone d n c true).tally 44 2 1) n
      else sitterTrip n ((setCone d n c true).tally 44 2 1) := by
  unfold coneConfirm
  exact if_pos (by simpa [and_assoc] using h)

theorem coneConfirm_releases (h : (d.cones n).conf.toNat / 2 ^ c % 2 = 1 ∧ (d.cones n).rel.toNat / 2 ^ c % 2 = 1) :
    coneConfirm n c d =
      if c = 0 then (setCone d n c false).raise 0x0B01 0 (d.sensHandle n)
      else if c = 1 then kilnApply (d.sensHandle n) (setCone d n c false)
      else setCone d n c false := by
  unfold coneConfirm
  dsimp only
  rw [if_neg (by simp [h.1])]
  exact if_pos (by simpa using h)

theorem noteSitter_same {e : Dev} {was : Bool} (h : e.sitter = was) : noteSitter was e = e := if_pos h

theorem noteSitter_trip (hs : d.sitter = false) (e : Dev) : noteSitter d.sitter (sitterTrip n e) = (sitterTrip n e).attend 2 := by
  unfold noteSitter
  rw [if_neg (by simp [hs])]

theorem coneConfirm_trips_noted
    (h : d.coneArmed n = true ∧ ¬(d.cones n).conf.toNat / 2 ^ c % 2 = 1 ∧ (d.cones n).trip.toNat / 2 ^ c % 2 = 1) :
    noteSitter d.sitter (coneConfirm n c d) =
      if c = 0 then ((setCone d n c true).tally 44 2 1).raise 0x0B01 1 (d.sensHandle n)
      else if c = 1 then kilnApply (d.sensHandle n) ((setCone d n c true).tally 44 2 1)
      else if d.sitter then noteC3 ((setCone d n c true).tally 44 2 1) n
      else (sitterTrip n ((setCone d n c true).tally 44 2 1)).attend 2 := by
  rw [coneConfirm_trips h]
  split
  · exact noteSitter_same (by simp [setCone])
  · split
    · exact noteSitter_same (by simp [setCone])
    · split
      case isTrue => exact noteSitter_same (by simp [setCone])
      case isFalse hs => exact noteSitter_trip (Bool.eq_false_iff.2 hs) _

theorem coneConfirm_releases_noted (h : (d.cones n).conf.toNat / 2 ^ c % 2 = 1 ∧ (d.cones n).rel.toNat / 2 ^ c % 2 = 1) :
    noteSitter d.sitter (coneConfirm n c d) =
      if c = 0 then (setCone d n c false).raise 0x0B01 0 (d.sensHandle n)
      else if c = 1 then kilnApply (d.sensHandle n) (setCone d n c false)
      else setCone d n c false := by
  rw [coneConfirm_releases h]
  split
  · exact noteSitter_same (by simp [setCone])
  · split <;> exact noteSitter_same (by simp [setCone])

/-- The device as a command stamped with a tick sees it. -/
def Dev.ticking (d : Dev) (t : Nat) : Dev := { d with tickNow := some (t % 65536) }

theorem answers_coneConfirm {s : State} {tick : Nat} {g : Dev → Dev} (hn : n < 20) (hc : c < 3)
    (h : noteSitter (s.dev.ticking tick).sitter (coneConfirm n c (s.dev.ticking tick)) = g (s.dev.ticking tick)) :
    Answers (.coneConfirm n c tick) s (s.dev.atTick tick g) :=
  answersAt hn rfl (atTick_congr ((if_pos hc).trans h))

theorem answers_coneConfirm_nothing {s : State} {tick : Nat} (hn : n < 20) (hc : c < 3)
    (h : coneConfirm n c { s.dev with tickNow := some (tick % 65536) } = { s.dev with tickNow := some (tick % 65536) }) :
    Answers (.coneConfirm n c tick) s { s.dev with tickNow := none } :=
  answersAt hn rfl (atTick_nothing ((if_pos hc).trans (by rw [h]; exact noteSitter_same rfl)))
end

/-! ### The Sitter (R375, R376) -/

/-- The rest of a trip, where no element is live, is its record and its event. -/
theorem sitterTrip_alone (n : Nat) {d e : Dev} (he : noteC3 { d with sitter := true, heat := { d.heat with episode := [], dwell := 0 } } n = e)
    (hlive : ∀ t ∈ [tRail, tFeed, tBranch, tSource, tString, tSeq], e.liveIndices t = [])
    (hdown : e.plane.downRunning = none) (hstop : e.plane.stopping = none) (hwd : e.plane.wdFaultN = false) :
    ∃ (r : List Byte) (fresh : Nat), sitterTrip n d =
      Dev.raise { e with fresh := fresh, kiln := { e.kiln with sitter := e.kiln.sitter.write r } } 0x0B03 1 (e.sensHandle n) := by
  obtain ⟨hrail, hfeed, hbranch, hsource, hstring, hseq⟩ : e.liveIndices tRail = [] ∧ e.liveIndices tFeed = [] ∧
      e.liveIndices tBranch = [] ∧ e.liveIndices tSource = [] ∧ e.liveIndices tString = [] ∧ e.liveIndices tSeq = [] := by
    simpa using hlive
  have hchans : e.liveChans = [] := by simp [Dev.liveChans, hfeed, hbranch]
  unfold sitterTrip
  rw [he]
  dsimp only
  rw [hrail, List.foldl_nil, hchans, List.foldl_nil, hsource, List.foldl_nil, hstring, List.foldl_nil, hseq, List.foldl_nil]
  obtain ⟨t, fresh, hrec⟩ := recordTick_frame e
  rw [hrec]
  dsimp only
  refine ⟨_, fresh, settle_nothing _ (fun q hq => ?_) ?_ ?_ ?_⟩
  · rw [raise_frame] at hq
    exact absurd hq (hseq ▸ List.not_mem_nil)
  · rw [raise_frame]; exact hdown
  · rw [raise_frame]; exact hstop
  · rw [raise_frame]; exact hwd

/-- A trip with no live element. -/
theorem sitterTrip_alone_record (n : Nat) {d : Dev}
    (hlive : ∀ t ∈ [tRail, tFeed, tBranch, tSource, tString, tSeq], d.liveIndices t = [])
    (hdown : d.plane.downRunning = none) (hstop : d.plane.stopping = none) (hwd : d.plane.wdFaultN = false) :
    (sitterTrip n d).heat.episode = [n] ∧ (sitterTrip n d).kiln.sitter.count = satAdd 8 d.kiln.sitter.count 1 ∧
      (sitterTrip n d).kiln.sitter.older = d.kiln.sitter.newer ∧ (sitterTrip n d).pwm = d.pwm := by
  obtain ⟨r, fresh, h⟩ := sitterTrip_alone n rfl hlive hdown hstop hwd
  rw [h, raise_frame]
  exact ⟨rfl, rfl, rfl, rfl⟩

/-- A release with no live element to start again is its record and its event. -/
theorem sitterRelease_alone {d : Dev} (hs : d.sitter = true) (hc3 : d.c3Confirmed = false) (hchans : d.liveChans = [])
    (hseqs : d.liveIndices tSeq = []) : ∃ (r : List Byte) (h : Word), sitterRelease d =
      Dev.raise { d with sitter := false, kiln := { d.kiln with sitter := d.kiln.sitter.write r } } 0x0B03 0 h := by
  have key : ∀ (e : Dev), e.slots = d.slots → tryStarts (e.liveChans.foldl chanSitterRelease e) = e := by
    intro e he
    have h1 : e.liveChans = [] := (congrArg (fun x => ({ e with slots := x } : Dev).liveChans) he).trans hchans
    have h2 : e.liveIndices tSeq = [] := (congrArg (fun x => ({ e with slots := x } : Dev).liveIndices tSeq) he).trans hseqs
    rw [h1, List.foldl_nil, tryStarts, h2, List.foldl_nil]
  unfold sitterRelease
  rw [if_pos (by simp [hs, hc3])]
  exact ⟨_, _, key _ (by rw [raise_frame])⟩

theorem sitterRelease_not {d : Dev} (h : d.sitter = false ∨ d.c3Confirmed = true) : sitterRelease d = d := by
  unfold sitterRelease
  rw [if_neg (by rcases h with h | h <;> simp [h])]

@[simp] theorem attend_alert (d : Dev) (r : Nat) : (d.attend r).twb.alert = true := rfl

theorem sitterRelease_effect (s : State) (hs : s.dev.sitter = true) (hc3 : s.dev.c3Confirmed = false)
    (hchans : s.dev.liveChans = []) (hseqs : s.dev.liveIndices tSeq = []) :
    ∃ d : Dev, Answers .sitterRelease s d ∧ d.sitter = false ∧ d.kiln.sitter.count = satAdd 8 s.dev.kiln.sitter.count 1 ∧
      d.heat = s.dev.heat ∧ d.twb.alert = true := by
  obtain ⟨r, h, he⟩ := sitterRelease_alone hs hc3 hchans hseqs
  have hnote : noteSitter s.dev.sitter (sitterRelease s.dev) = (sitterRelease s.dev).attend 2 := by
    rw [noteSitter, if_neg]
    rw [he, raise_frame, hs]
    exact Bool.false_ne_true
  refine ⟨_, .congr rfl hnote, ?_⟩
  rw [he, attend_frame, raise_frame]
  exact ⟨rfl, rfl, rfl, rfl⟩

/-! ### A broken sensor (R373, R380) -/

theorem disarm_remote {d : Dev} {n : Nat} (hn : n < 16) : (disarm d n).sens n = { d.sens n with armed := false } ∧
    ((disarm d n).cones n).conf = 0 ∧ (disarm d n).slots = d.slots := by
  have hdie : onDie n = false := decide_eq_false (by omega)
  have h : (d.modSens n fun s => { s with armed := false }).sens n = { d.sens n with armed := false } := sens_modSens_self ..
  have hc (e : Dev) : ((e.modCones n fun x => { x with conf := 0 }).cones n).conf = 0 := by rw [cones_modCones_self]
  unfold disarm
  rw [hdie]
  dsimp only
  rw [if_neg Bool.false_ne_true]
  split
  · rw [raise_frame]
    exact ⟨h, hc _, rfl⟩
  · exact ⟨h, hc _, rfl⟩

/-- The state of a sensor that has become BROKEN. -/
def Dev.isBroken (d : Dev) (n : Nat) : Prop :=
  (d.sens n).broken = true ∧ (d.sens n).armed = false ∧ (d.sens n).good = 0 ∧ (d.cones n).conf = 0

theorem isBroken_of_sensing {d e : Dev} {n : Nat} (h : d.sensing = e.sensing) (he : e.isBroken n) : d.isBroken n := by
  have hsens : d.heat.sens = e.heat.sens := congrArg (fun x => x.2.2.1) h
  have hcones : d.heat.cones = e.heat.cones := congrArg (fun x => x.2.2.2) h
  unfold Dev.isBroken Dev.sens Dev.cones at he ⊢
  rwa [hsens, hcones]

theorem sensBreak_remote (d : Dev) {n : Nat} (hn : n < 16) (why : Nat) :
    (sensBreak d n why).isBroken n ∧ (sensBreak d n why).slots = d.slots := by
  have hdie : onDie n = false := decide_eq_false (by omega)
  obtain ⟨hsens, hconf, hslots⟩ := disarm_remote (d := d) hn
  have hb : ((disarm d n).modSens n fun s => { s with broken := true, good := 0 }).isBroken n := by
    unfold Dev.isBroken
    rw [sens_modSens_self, hsens]
    exact ⟨rfl, rfl, rfl, hconf⟩
  have key : (sensBreak d n why).sensing = ((disarm d n).modSens n fun s => { s with broken := true, good := 0 }).sensing := by
    unfold sensBreak
    rw [hdie]
    dsimp only
    rw [if_neg Bool.false_ne_true, kilnApply_sensing]
    split
    · rfl
    · exact raiseOnceTurn_sensing _ _ _ _ _
  exact ⟨isBroken_of_sensing key hb, (congrArg Prod.fst key).trans hslots⟩

/-! ### Throttling (R372) -/

theorem handleOf_of_sensing {d e : Dev} (h : e.sensing = d.sensing) (t i : Nat) : e.handleOf t i = d.handleOf t i := by
  have hslots : e.slots = d.slots := congrArg Prod.fst h
  unfold Dev.handleOf Dev.slot
  rw [hslots]

theorem liveIndices_of_sensing {d e : Dev} (h : e.sensing = d.sensing) (t : Nat) : e.liveIndices t = d.liveIndices t := by
  have hslots : e.slots = d.slots := congrArg Prod.fst h
  unfold Dev.liveIndices
  rw [hslots]

theorem kilnPct_of_sensing {d e : Dev} (h : e.sensing = d.sensing) (w : Word) : kilnPct e w = kilnPct d w := by
  have hslots : e.slots = d.slots := congrArg Prod.fst h
  have hsens : e.heat.sens = d.heat.sens := congrArg (fun x => x.2.2.1) h
  have hcones : e.heat.cones = d.heat.cones := congrArg (fun x => x.2.2.2) h
  have hreads : kilnPct e w =
      kilnPct { d with slots := e.slots, heat := { d.heat with sens := e.heat.sens, cones := e.heat.cones } } w := rfl
  rw [hreads, hslots, hsens, hcones]

theorem throttleRails (d : Dev) (l : List Nat) (e : Dev) (he : e.sensing = d.sensing) (i : Nat)
    (h : i ∈ l ∨ (e.rail i).throttlePct = kilnPct d (d.railHandle i)) :
    ((l.foldl (fun d i => d.modRail i fun r => { r with throttlePct := kilnPct d (d.railHandle i) }) e).rail i).throttlePct =
      kilnPct d (d.railHandle i) := by
  induction l generalizing e with
  | nil => exact h.resolve_left List.not_mem_nil
  | cons a l ih =>
    refine ih _ he ?_
    by_cases hi : i = a
    · right
      rw [hi, rail_modRail_self]
      exact (kilnPct_of_sensing he _).trans (congrArg (kilnPct d) (handleOf_of_sensing he _ _))
    · rw [rail_modRail_ne _ _ hi]
      exact h.imp_left fun hm => (List.mem_cons.1 hm).resolve_left hi

theorem throttleChans (d : Dev) (l : List Nat) (e : Dev) (he : e.sensing = d.sensing) (i : Nat)
    (h : i ∈ l ∨ (e.chan i).throttlePct = kilnPct d (d.chanHandle i)) :
    ((l.foldl (fun d i => d.modChan i fun x => { x with throttlePct := kilnPct d (d.chanHandle i) }) e).chan i).throttlePct =
      kilnPct d (d.chanHandle i) := by
  induction l generalizing e with
  | nil => exact h.resolve_left List.not_mem_nil
  | cons a l ih =>
    refine ih _ ((modChans_sensing [a] (fun d i x => { x with throttlePct := kilnPct d (d.chanHandle i) }) e).trans he) ?_
    by_cases hi : i = a
    · right
      rw [hi, chan_modChan_self]
      exact (kilnPct_of_sensing he _).trans (congrArg (kilnPct d) (handleOf_of_sensing he _ _))
    · rw [chan_modChan_ne _ _ hi]
      exact h.imp_left fun hm => (List.mem_cons.1 hm).resolve_left hi

theorem modChans_rails (l : List Nat) (g : Dev → Nat → Chan → Chan) (d : Dev) (i : Nat) :
    (l.foldl (fun d i => d.modChan i (g d i)) d).rail i = d.rail i :=
  foldl_keeps (fun d => d.rail i) (fun d i => by simp [Dev.rail]) l d

theorem kilnApply_rail (d : Dev) (h : Word) {i : Nat} (hi : i ∈ d.liveIndices tRail) :
    ((kilnApply h d).rail i).throttlePct = kilnPct d (d.railHandle i) := by
  have hz : ((List.range 8).foldl (zoneUpdate h) d).sensing = d.sensing := foldl_keeps Dev.sensing (zoneUpdate_sensing h) _ d
  refine (congrArg Rail.throttlePct (modChans_rails _ _ _ i)).trans (throttleRails d _ _ hz i (.inl ?_))
  rwa [liveIndices_of_sensing hz]

theorem kilnApply_feed (d : Dev) (h : Word) {i : Nat} (hi : i ∈ d.liveIndices tFeed) :
    ((kilnApply h d).chan i).throttlePct = kilnPct d (d.chanHandle i) := by
  have hz : ((List.range 8).foldl (zoneUpdate h) d).sensing = d.sensing := foldl_keeps Dev.sensing (zoneUpdate_sensing h) _ d
  have hr := (modRails_sensing (((List.range 8).foldl (zoneUpdate h) d).liveIndices tRail)
    (fun d i r => { r with throttlePct := kilnPct d (d.railHandle i) }) _).trans hz
  refine throttleChans d _ _ hr i (.inl ?_)
  rwa [liveIndices_of_sensing hr]

/-! ### The black box (R435 to R438) -/

theorem blackBoxStart_disarmed {d : Dev} (h : d.wit.armed = false) : blackBoxStart false d = d := by
  unfold blackBoxStart
  rw [if_pos (by simp [h])]

theorem blackBoxStart_running {d : Dev} (h : d.wit.armed = true) (hc : d.wit.commit ≠ none) : blackBoxStart false d =
    { d with wit := { d.wit with ignored := satAdd 16 d.wit.ignored 1, armed := false } } := by
  unfold blackBoxStart
  rw [if_neg (by simp [h]), if_pos (Option.isSome_iff_ne_none.2 hc), Bool.and_false]

theorem blackBoxStart_free {d : Dev} {t : Nat} (h : d.wit.armed = true) (hc : d.wit.commit = none) (ht : d.tickNow = some t) :
    blackBoxStart false d = Dev.raise { d with wit := { d.wit with
      commit := some 1, trigTurn := d.wheel.turn, trigTick := t, lastOk := false, armed := false } } 0x0F03 257 0 := by
  have hrec : d.recordTick = (t, d) := by simp [Dev.recordTick, ht]
  unfold blackBoxStart
  rw [if_neg (by simp [h]), if_neg (by simp [hc]), hrec]
  dsimp only
  rw [Bool.and_false, if_neg Bool.false_ne_true]

theorem blackBoxDone_none {d : Dev} (h : d.wit.commit = none) : blackBoxDone d = d := by
  unfold blackBoxDone
  rw [h]

/-- A save of the string records changes nothing but the strings and their records. -/
theorem battSaves_frame (l : List Nat) (d : Dev) : ∃ st ks, l.foldl battSave d =
    { d with strs := st, kiln := { d.kiln with strings := ks } } := by
  induction l generalizing d with
  | nil => exact ⟨_, _, rfl⟩
  | cons i l ih =>
    have h : ∃ st ks, battSave d i = { d with strs := st, kiln := { d.kiln with strings := ks } } := by
      unfold battSave
      split <;> exact ⟨_, _, rfl⟩
    obtain ⟨st, ks, h⟩ := h
    rw [List.foldl_cons, h]
    exact ih _

theorem str_modStr_ne (d : Dev) {i k : Nat} (h : k ≠ i) (f : StrRt → StrRt) : (d.modStr i f).str k = d.str k :=
  tget_tmod_ne _ _ f h

/-- But for the state last saved, a save leaves each string as it is. -/
theorem battSave_str (d : Dev) (i k : Nat) (b : Int) : { (battSave d i).str k with bSave := b } = { d.str k with bSave := b } := by
  unfold battSave
  split
  · rfl
  · by_cases h : k = i
    · have : ((d.modStr i fun r => { r with bSave := r.b }).str k) = { d.str k with bSave := (d.str k).b } := by
        rw [h, str_modStr_self]
      exact congrArg (fun r : StrRt => { r with bSave := b }) this
    · exact congrArg (fun r : StrRt => { r with bSave := b }) (str_modStr_ne d h fun r => { r with bSave := r.b })

theorem battSaves_str (l : List Nat) (d : Dev) (k : Nat) (b : Int) :
    { (l.foldl battSave d).str k with bSave := b } = { d.str k with bSave := b } :=
  foldl_keeps (fun d => ({ d.str k with bSave := b } : StrRt)) (fun d i => battSave_str d i k b) l d

theorem battSave_record (d : Dev) {i k : Nat} (h : k ≠ i) :
    tget {} (battSave d i).kiln.strings k = tget {} d.kiln.strings k := by
  have hw (f : Copies → Copies) : tget {} (tmod {} d.kiln.strings i f) k = tget {} d.kiln.strings k := tget_tmod_ne _ _ f h
  unfold battSave
  split
  · rfl
  · dsimp only
    exact hw _

theorem battSaves_record (l : List Nat) (d : Dev) {k : Nat} (h : k ∉ l) :
    tget {} (l.foldl battSave d).kiln.strings k = tget {} d.kiln.strings k := by
  induction l generalizing d with
  | nil => rfl
  | cons i l ih =>
    rw [List.foldl_cons, ih _ fun hm => h (List.mem_cons_of_mem _ hm)]
    exact battSave_record d fun e => h (e ▸ List.mem_cons_self ..)

theorem holdupBlgOn_frame (d : Dev) : ∃ sets, holdupBlgOn d = { d with src := sets } := by
  unfold holdupBlgOn
  (repeat' split) <;> exact ⟨_, rfl⟩

theorem holdupBlgOn_bleeding {d : Dev} {n : Nat} (h : d.holdupSet = some n) (hb : (d.srcSet n).bleeding = true) :
    ((holdupBlgOn d).srcSet n).huBlg = true := by
  unfold holdupBlgOn
  rw [h]
  dsimp only
  rw [if_pos hb, srcSet_modSrc_self]

/-- The end of a commit (R437, R438). -/
theorem blackBoxDone_effect (d : Dev) {cause : Nat} (hc : d.wit.commit = some cause) :
    (blackBoxDone d).wit.commit = none ∧ (blackBoxDone d).wit.lastOk = true ∧
    (blackBoxDone d).kiln.blackBox.count = satAdd 8 d.kiln.blackBox.count 1 ∧
    (blackBoxDone d).kiln.blackBox.older = d.kiln.blackBox.newer ∧
    (blackBoxDone d).kiln.blackBox.newer.take 2 = [0x01, BitVec.ofNat 8 cause] ∧
    (∀ i, { (blackBoxDone d).str i with bSave := (d.str i).bSave } = d.str i) ∧
    (∀ i, i ∉ d.liveIndices tString → tget {} (blackBoxDone d).kiln.strings i = tget {} d.kiln.strings i) ∧
    ∀ n, d.holdupSet = some n → (d.srcSet n).bleeding = true → ((blackBoxDone d).srcSet n).huBlg = true := by
  have hstr := fun k => battSaves_str (d.liveIndices tString) d k (d.str k).bSave
  have hrecord := fun k => battSaves_record (k := k) (d.liveIndices tString) d
  obtain ⟨hbox, hsrc, hslots⟩ : ((d.liveIndices tString).foldl battSave d).kiln.blackBox = d.kiln.blackBox ∧
      ((d.liveIndices tString).foldl battSave d).src = d.src ∧ ((d.liveIndices tString).foldl battSave d).slots = d.slots := by
    obtain ⟨st, ks, hsaves⟩ := battSaves_frame (d.liveIndices tString) d
    rw [hsaves]
    exact ⟨rfl, rfl, rfl⟩
  unfold blackBoxDone
  rw [hc]
  dsimp only
  generalize (d.liveIndices tString).foldl battSave d = f at hstr hrecord hbox hsrc hslots
  rw [← hbox]
  obtain ⟨h, t, g, hraise⟩ : ∃ h t g, Dev.raise { f.tally 42 4 1 with
      kiln := { (f.tally 42 4 1).kiln with blackBox := (f.tally 42 4 1).kiln.blackBox.write (bbImage f cause) }
      wit := { (f.tally 42 4 1).wit with commit := none, lastOk := true } } 0x0F03 cause 0 =
      { f with host := h, tal := t, sag := g, wit := { f.wit with commit := none, lastOk := true }
               kiln := { f.kiln with blackBox := f.kiln.blackBox.write (bbImage f cause) } } := ⟨_, _, _, raise_frame _ _ _ _⟩
  rw [hraise]
  generalize hraised : ({ f with host := h, tal := t, sag := g, wit := { f.wit with commit := none, lastOk := true }
                                 kiln := { f.kiln with blackBox := f.kiln.blackBox.write (bbImage f cause) } } : Dev) = e
  obtain ⟨hwit, hkiln, hstrs, hesrc, heslots⟩ : e.wit = { f.wit with commit := none, lastOk := true } ∧
      e.kiln = { f.kiln with blackBox := f.kiln.blackBox.write (bbImage f cause) } ∧ e.strs = f.strs ∧ e.src = f.src ∧
      e.slots = f.slots := by
    rw [← hraised]
    exact ⟨rfl, rfl, rfl, rfl, rfl⟩
  obtain ⟨sets, hblg⟩ := holdupBlgOn_frame e
  have hkiln' : (holdupBlgOn e).kiln = e.kiln := by rw [hblg]
  have hwit' : (holdupBlgOn e).wit = e.wit := by rw [hblg]
  have hstrs' : (holdupBlgOn e).strs = e.strs := by rw [hblg]
  rw [hkiln', hwit', hkiln, hwit]
  refine ⟨rfl, rfl, rfl, rfl, rfl, fun i => ?_, hrecord, fun n hn hb => holdupBlgOn_bleeding (d := e) ?_ ?_⟩
  · unfold Dev.str
    rw [hstrs', hstrs]
    exact hstr i
  · unfold Dev.holdupSet Dev.liveIndices Dev.srcCfg Dev.slot at hn ⊢
    rwa [heslots, hslots]
  · unfold Dev.srcSet at hb ⊢
    rwa [hesrc, hsrc]

/-- Settles O56: each event is its model function, whose branches the conditions pick; the other Cones, the other sensors and what
a zone does not name stand. -/
theorem kilnAndBlackBox : Obligations.KilnAndBlackBox := by
  unfold Obligations.KilnAndBlackBox
  refine ⟨?_, ?_, ?_, ?_, ?_, ?_, ?_, ?_, ?_⟩
  · exact fun s value uv n biasOk rest => tdConversionDone_good s value uv n biasOk rest
  · intro d n c rel hn
    refine ⟨fun h => by rw [coneLevel_remote hn, h]; rfl, fun v t h => ⟨?_, ?_⟩⟩
    · rw [coneLevel_remote hn, h]
      simp
    · rw [coneLevel_remote hn, h]
      simp
  · intro s n c uv rel hn hc
    cases rel
    · refine ⟨_, answers_coneTrip s hn hc false uv, ?_⟩
      rw [coneTrip_trips]
      refine ⟨rfl, ?_, nofun, fun _ => ?_, fun k hk => cones_modCones_ne _ hk _⟩
      · rw [cones_modCones_self]
      · rw [cones_modCones_self]
        exact ⟨rfl, rfl⟩
    · refine ⟨_, answers_coneTrip s hn hc true uv, ?_⟩
      rw [coneTrip_releases]
      refine ⟨rfl, ?_, fun _ => ?_, nofun, fun k hk => cones_modCones_ne _ hk _⟩
      · rw [cones_modCones_self]
      · rw [cones_modCones_self]
        exact ⟨rfl, rfl⟩
  · intro s n c tick hn hc
    refine ⟨?_, ?_, ?_, ?_, ?_, ?_, ?_, ?_⟩
    · exact fun ht hr => answers_coneConfirm_nothing hn hc (coneConfirm_nothing ht hr)
    · rintro ht rfl
      exact answers_coneConfirm hn hc (coneConfirm_trips_noted (d := s.dev.ticking tick) ht)
    · rintro ht rfl
      exact answers_coneConfirm hn hc (coneConfirm_trips_noted (d := s.dev.ticking tick) ht)
    · rintro ht rfl hs
      exact answers_coneConfirm hn hc ((coneConfirm_trips_noted (d := s.dev.ticking tick) ht).trans (if_pos hs))
    · rintro ht rfl hs
      exact answers_coneConfirm hn hc ((coneConfirm_trips_noted (d := s.dev.ticking tick) ht).trans (if_neg (Bool.eq_false_iff.1 hs)))
    · rintro hr rfl
      exact answers_coneConfirm hn hc (coneConfirm_releases_noted (d := s.dev.ticking tick) hr)
    · rintro hr rfl
      exact answers_coneConfirm hn hc (coneConfirm_releases_noted (d := s.dev.ticking tick) hr)
    · rintro hr rfl
      exact answers_coneConfirm hn hc (coneConfirm_releases_noted (d := s.dev.ticking tick) hr)
  · intro d n hlive hdown hstop hwd
    exact ⟨sitterTrip_sitter n d, sitterTrip_alone_record n hlive hdown hstop hwd⟩
  · refine fun s => ⟨fun h => .congr rfl ?_, sitterRelease_effect s⟩
    exact (congrArg (noteSitter _) (sitterRelease_not h)).trans (noteSitter_same rfl)
  · intro s n hn
    refine ⟨fun h => answersAt hn rfl (if_neg (by simp [h])), fun h => ⟨_, answersAt hn rfl (if_pos h), ?_⟩⟩
    obtain ⟨⟨hbroken, harmed, hgood, hconf⟩, hslots⟩ := sensBreak_remote s.dev hn 4
    exact ⟨hbroken, harmed, hgood, hconf, by simp, hslots⟩
  · exact fun d h => ⟨fun i hi => kilnApply_rail d h hi, fun i hi _ => kilnApply_feed d h hi⟩
  · intro s tick
    refine ⟨fun h => ?_, fun h hc => ?_, fun h hc => ?_, fun h => ?_, fun cause h => ?_, rfl⟩
    · exact .congr rfl (atTick_nothing (blackBoxStart_disarmed h))
    · exact .congr rfl (atTick_congr (g := fun d => { d with wit := { d.wit with ignored := satAdd 16 d.wit.ignored 1, armed := false } })
        (blackBoxStart_running h hc))
    · exact .congr rfl (atTick_congr (blackBoxStart_free h hc rfl))
    · exact .congr rfl (blackBoxDone_none h)
    · exact ⟨_, rfl, blackBoxDone_effect s.dev h⟩

end Sys2Proof.Machine
end

/-! ## O58: frames, links, sessions and stream emissions -/

section
/-! PROOF. Each event is its model function, whose branches the clauses' conditions pick; an answer to a waiting command touches no
stream, and an emission advances its stream's sequence number once a frame. -/

namespace Sys2Proof.Machine

/-! ### Streams and ports -/

@[simp] theorem strm_modStrm_self (d : Dev) (n : Nat) (f : StreamRt → StreamRt) : (d.modStrm n f).strm n = f (d.strm n) :=
  tget_tmod_self ..

@[simp] theorem port_modPort_self (d : Dev) (p : Nat) (f : Port → Port) : (d.modPort p f).port p = f (d.port p) := tget_tmod_self ..

theorem port_modPort_ne (d : Dev) {p q : Nat} (h : q ≠ p) (f : Port → Port) : (d.modPort p f).port q = d.port q := tget_tmod_ne _ _ _ h

theorem otherPort_ne {p : Nat} (hp : p < 2) : 1 - p ≠ p := by omega

theorem strm_of_streams {d e : Dev} (h : d.net.streams = e.net.streams) (n : Nat) : d.strm n = e.strm n := by
  unfold Dev.strm
  rw [h]

theorem port_of_ports {d e : Dev} (h : d.net.ports = e.net.ports) (p : Nat) : d.port p = e.port p := by
  unfold Dev.port
  rw [h]

theorem raise_net (d : Dev) (code detail : Nat) (h : Word) : (d.raise code detail h).net = d.net := by rw [raise_frame]

theorem raiseOnceTurn_net (d : Dev) (key code detail : Nat) (h : Word) : (d.raiseOnceTurn key code detail h).net = d.net := by
  rw [raiseOnceTurn_frame]

/-! ### What an answer leaves of the streams -/

theorem coapReply_streams (d : Dev) (k mid : Nat) (resp : List Byte) : (d.coapReply k mid resp).net.streams = d.net.streams := by
  unfold Dev.coapReply
  split
  · dsimp only
    split <;> rfl
  · rfl

theorem deliver_streams (d : Dev) (src : Option Src) (c : Cpl) : (d.deliver src c).net.streams = d.net.streams := by
  unfold Dev.deliver
  split
  · rfl
  · dsimp only
    split
    · simp
    · rw [attend_frame]
      rfl
  · exact coapReply_streams _ _ _ _
  · rfl

theorem endWaits_streams (d : Dev) (p : Wait → Bool) (f : Wait → Cpl) : (d.endWaits p f).net.streams = d.net.streams := by
  refine foldl_keeps (fun d => d.net.streams) (fun d w => ?_) _ _
  unfold Dev.answerWait
  split
  · rfl
  · exact deliver_streams _ _ _

theorem endKind_streams (d : Dev) (k : WaitKind) (h : Word) (st : Status) : (d.endKind k h st).net.streams = d.net.streams :=
  endWaits_streams _ _ _

theorem endKind_noWait (d : Dev) {k : WaitKind} (hk : k ≠ .lost) (h : Word) (st : Status) : (d.endKind k h st).hasWait k h = false :=
  endWaits_noWait d _ hk fun w hkind hh => by simp [hkind, hh]

/-! ### Frames received (R404, R405) -/

/-- The device at a frame's time. -/
def Dev.atTime (d : Dev) (t : Nat) : Dev := { d with now := max d.now t }

/-- A frame is received at a port and counted. -/
def Dev.received (d : Dev) (p len : Nat) : Dev := (d.modPort p fun x => { x with rx := x.rx + 1 }).tally (35 + p) 2 len

section
variable {d : Dev} {p len t : Nat} {k : EthKind}

theorem ethFrame_stopped (h : d.portRuns p = false) : ethFrame p len k t d = d.atTime t :=
  if_pos (show (!(d.atTime t).portRuns p) = true from congrArg (fun b => !b) h)

theorem atTime_runs (h : d.portRuns p = true) : ¬(!(d.atTime t).portRuns p) = true := by
  rw [show (d.atTime t).portRuns p = true from h]
  exact Bool.false_ne_true

theorem ethFrame_dropped (h : d.portRuns p = true) (hk : 1518 < len ∨ k = .vlan ∨ k = .pause ∨ k = .outside) :
    ethFrame p len k t d = ((d.atTime t).received p len).modPort p fun x => { x with discarded := satAdd 32 x.discarded 1 } := by
  refine (if_neg (atTime_runs h)).trans ?_
  dsimp only
  split
  · rfl
  · obtain rfl | rfl | rfl := hk.resolve_left ‹_› <;> rfl

theorem ethFrame_other (h : d.portRuns p = true) (hlen : len ≤ 1518) : ethFrame p len .other t d = (d.atTime t).received p len :=
  (if_neg (atTime_runs h)).trans (if_neg (Nat.not_lt.2 hlen))

theorem ethFrame_halted (h : d.portRuns p = true) (hlen : len ≤ 1518) (hm : d.plane.mgmtRunning = false)
    (hk : k = .asks ∨ k = .closedPort ∨ k = .plain) : ethFrame p len k t d = (d.atTime t).received p len := by
  refine (if_neg (atTime_runs h)).trans ((if_neg (Nat.not_lt.2 hlen)).trans ?_)
  obtain rfl | rfl | rfl := hk
  · exact if_neg (Bool.eq_false_iff.1 hm)
  · exact if_pos (congrArg (fun b => !b) hm)
  · exact if_neg (Bool.eq_false_iff.1 hm)

theorem ethFrame_asks (h : d.portRuns p = true) (hlen : len ≤ 1518) (hm : d.plane.mgmtRunning = true) :
    ethFrame p len .asks t d = answerUnheard p ((d.atTime t).received p len) :=
  (if_neg (atTime_runs h)).trans ((if_neg (Nat.not_lt.2 hlen)).trans (if_pos hm))

theorem ethFrame_plain (h : d.portRuns p = true) (hlen : len ≤ 1518) (hm : d.plane.mgmtRunning = true) :
    ethFrame p len .plain t d = (((d.atTime t).received p len).tally (35 + p) 5 1).sendOn p [0x81] :=
  (if_neg (atTime_runs h)).trans ((if_neg (Nat.not_lt.2 hlen)).trans (if_pos hm))

/-- The Destination Unreachables of a port in the last second. -/
def Dev.unreachable (d : Dev) (p : Nat) : List Nat := (d.port p).unreach.filter fun u => decide (d.now < u + 100000000)

theorem received_port (d : Dev) (p len : Nat) : (d.received p len).port p = { d.port p with rx := (d.port p).rx + 1 } :=
  (port_modPort_self d p fun x => { x with rx := x.rx + 1 } :)

theorem received_port_ne (d : Dev) {p q : Nat} (h : q ≠ p) (len : Nat) : (d.received p len).port q = d.port q :=
  (port_modPort_ne d h fun x => { x with rx := x.rx + 1 } :)

theorem received_unreachable (d : Dev) (p len : Nat) : (d.received p len).unreachable p = d.unreachable p := by
  unfold Dev.unreachable
  rw [received_port]
  rfl

theorem ethFrame_closedPort (h : d.portRuns p = true) (hlen : len ≤ 1518) (hm : d.plane.mgmtRunning = true) :
    ethFrame p len .closedPort t d = if ((d.atTime t).unreachable p).length < 10 then
      answerUnheard p (((d.atTime t).received p len).modPort p fun x =>
        { x with unreach := (d.atTime t).now :: (d.atTime t).unreachable p })
    else (d.atTime t).received p len := by
  rw [← received_unreachable (d.atTime t) p len]
  exact (if_neg (atTime_runs h)).trans ((if_neg (Nat.not_lt.2 hlen)).trans (if_neg (by simp [hm])))

theorem answerUnheard_port (d : Dev) (p : Nat) : (answerUnheard p d).port p = { d.port p with tx := (d.port p).tx + 1 } :=
  (port_modPort_self (d.freeBits 11).2 p fun x => { x with tx := x.tx + 1 } :)

theorem answerUnheard_port_ne (d : Dev) {p q : Nat} (h : q ≠ p) : (answerUnheard p d).port q = d.port q :=
  (port_modPort_ne (d.freeBits 11).2 h fun x => { x with tx := x.tx + 1 } :)
end

/-! ### The link and the addresses (R405) -/

section
variable {d : Dev} {p n : Nat}

theorem netLink_none (h : d.netif p = none) (up : Bool) (speed : Nat) : netLink p up speed d = d := by
  unfold netLink
  rw [h]

theorem netLink_same (h : d.netif p = some n) {up : Bool} (hs : d.enabled tStream n = false ∨ (d.strm n).link = up) (speed : Nat) :
    netLink p up speed d = d := by
  unfold netLink
  rw [h]
  dsimp only
  rw [if_neg (by rcases hs with hs | hs <;> simp [hs])]

/-- The link of NETIF `n` at port `p` comes up. -/
def linkUp (d : Dev) (n p speed : Nat) : Dev :=
  ((d.modStrm n fun s => { s with link := true }).modPort p fun x => { x with link := true, speed := speed % 4, dad := false }).raise
    0x0D01 (p + 256) (d.handleOf tStream n)

theorem netLink_up (h : d.netif p = some n) (hon : d.enabled tStream n = true) (hdown : (d.strm n).link = false) (speed : Nat) :
    netLink p true speed d =
      if nkV4 (d.strmCfg n) then netifUsable (linkUp d n p speed) n else linkUp d n p speed := by
  have hcfg : (linkUp d n p speed).strmCfg n = d.strmCfg n := by
    unfold linkUp
    rw [raise_frame]
    rfl
  rw [← hcfg]
  unfold netLink
  rw [h]
  dsimp only
  rw [if_pos (by simp [hon, hdown]), if_pos rfl]
  rfl

theorem netLink_down (h : d.netif p = some n) (hon : d.enabled tStream n = true) (hup : (d.strm n).link = true) (speed : Nat) :
    netLink p false speed d = netifDown d n := by
  unfold netLink
  rw [h]
  dsimp only
  rw [if_pos (by simp [hon, hup]), if_neg Bool.false_ne_true]

theorem linkUp_strm : (linkUp d n p speed).strm n = { d.strm n with link := true } :=
  (strm_of_streams (congrArg Net.streams (raise_net _ _ _ _)) n).trans
    (strm_modStrm_self d n fun s => { s with link := true } :)

theorem linkUp_port : ((linkUp d n p speed).port p).link = true ∧ ((linkUp d n p speed).port p).speed = speed % 4 := by
  have h : (linkUp d n p speed).port p =
      ((d.modStrm n fun s => { s with link := true }).modPort p fun x => { x with link := true, speed := speed % 4, dad := false }).port p :=
    port_of_ports (congrArg Net.ports (raise_net _ _ _ _)) p
  rw [h, port_modPort_self]
  exact ⟨rfl, rfl⟩

theorem netifUsable_strm (d : Dev) (n : Nat) : (netifUsable d n).strm n = { d.strm n with addr := true } := by
  have h : (netifUsable d n).net.streams = (d.modStrm n fun s => { s with addr := true }).net.streams :=
    (endKind_streams _ _ _ _).trans (congrArg Net.streams (raise_net _ _ _ _))
  exact (strm_of_streams h n).trans (strm_modStrm_self d n _)

theorem netifUsable_noWait (d : Dev) (n : Nat) : (netifUsable d n).hasWait .enable (d.handleOf tStream n) = false :=
  endKind_noWait _ (by decide) _ _

theorem netifDown_strm (d : Dev) (n : Nat) : (netifDown d n).strm n = { d.strm n with link := false, addr := false } := by
  have h := strm_modStrm_self d n fun s => { s with link := false, addr := false }
  unfold netifDown
  dsimp only
  split
  · exact (strm_of_streams (congrArg Net.streams (raise_net _ _ _ _)) n).trans h
  · exact h

theorem dadComplete_none (h : d.netif p = none) (c : Bool) : dadComplete p c d = d := by
  unfold dadComplete
  rw [h]

theorem dadComplete_idle (h : d.netif p = some n)
    (hidle : d.enabled tStream n = false ∨ (d.strm n).link = false ∨ nkV6 (d.strmCfg n) = false) (c : Bool) : dadComplete p c d = d := by
  unfold dadComplete
  rw [h]
  dsimp only
  rw [if_neg (by rcases hidle with hidle | hidle | hidle <;> simp [hidle])]

theorem dadComplete_due (h : d.netif p = some n) (hon : d.enabled tStream n = true) (hup : (d.strm n).link = true)
    (hv6 : nkV6 (d.strmCfg n) = true) (c : Bool) : dadComplete p c d =
      if c then Dev.raise (d.modPort p fun x => { x with dad := true }) 0x0D04 p (d.handleOf tStream n) else netifUsable d n := by
  unfold dadComplete
  rw [h]
  dsimp only
  rw [if_pos (by simp [hon, hup, hv6])]

theorem linkTimeout_none (h : d.netif p = none) : linkTimeout p d = d := by
  unfold linkTimeout
  rw [h]

theorem linkTimeout_some (h : d.netif p = some n) :
    linkTimeout p d = if (d.strm n).link then d else d.endKind .enable (d.handleOf tStream n) .state := by
  unfold linkTimeout
  rw [h]

end

/-! ### Sessions (R406) -/

section
variable {d : Dev} {p n : Nat} {key : List Byte}

theorem dtlsHandshake_none (h : d.netif p = none) (stage : Handshake) : dtlsHandshake p key stage d = d := by
  unfold dtlsHandshake
  rw [h]

theorem dtlsHandshake_hello (h : d.netif p = some n) : dtlsHandshake p key .hello d = dtlsHello p key d := by
  unfold dtlsHandshake
  rw [h]
  exact if_pos rfl

theorem dtlsHello_refused (h : d.portRuns p = false ∨ d.plane.mgmtRunning = false ∨ 4 ≤ d.net.shaking.length ∨
    8 ≤ d.openSessions + d.net.shaking.length) : dtlsHello p key d = d := by
  refine if_neg ?_
  simp only [Bool.and_eq_true, decide_eq_true_eq]
  rintro ⟨⟨⟨hrun, hm⟩, hshaking⟩, hheld⟩
  rcases h with h | h | h | h
  · simp [h] at hrun
  · simp [h] at hm
  · omega
  · omega

theorem dtlsHello_taken (hrun : d.portRuns p = true) (hm : d.plane.mgmtRunning = true) (hshaking : d.net.shaking.length < 4)
    (hheld : d.openSessions + d.net.shaking.length < 8) :
    dtlsHello p key d = { d with net := { d.net with shaking := d.net.shaking ++ [(p, key)] } } :=
  if_pos (by simp [hrun, hm, hshaking, hheld])

theorem dtlsHandshake_unknown (h : d.netif p = some n) {stage : Handshake} (hstage : stage ≠ .hello)
    (hkey : (p, key) ∉ d.net.shaking) : dtlsHandshake p key stage d = d := by
  unfold dtlsHandshake
  rw [h]
  exact (if_neg hstage).trans (if_pos (by simpa using hkey))

/-- The handshake of a peer at a port is no longer in progress. -/
def handshakeEnds (d : Dev) (p : Nat) (key : List Byte) : Dev :=
  { d with net := { d.net with shaking := d.net.shaking.erase (p, key) } }

theorem dtlsHandshake_fails (h : d.netif p = some n) {stage : Handshake} (hkey : (p, key) ∈ d.net.shaking)
    (hfail : stage = .fails ∨ (stage = .completes ∧ ∀ k < nkPeers (d.strmCfg n), nkPeer (d.strmCfg n) k ≠ key)) :
    dtlsHandshake p key stage d =
      ((handshakeEnds d p key).modPort p fun x => { x with dtlsFail := satAdd 32 x.dtlsFail 1 }).raiseOnceTurn
        (0x0D03 * 2 + p) 0x0D03 p (d.handleOf tStream n) := by
  have hstage : stage ≠ .hello := by
    rintro rfl
    simp at hfail
  have hno : ¬(stage == .completes && (List.range (nkPeers (d.strmCfg n))).any fun k => nkPeer (d.strmCfg n) k == key) = true := by
    rcases hfail with rfl | ⟨-, hfail⟩
    · exact Bool.false_ne_true
    · simpa using fun _ => hfail
  unfold dtlsHandshake
  rw [h]
  exact (if_neg hstage).trans ((if_neg (by simpa using hkey)).trans (if_neg hno))

theorem mem_tinsert_self {α : Type} (t : List (Nat × α)) (k : Nat) (v : α) : (k, v) ∈ tinsert t k v := by
  induction t with
  | nil => exact List.mem_cons_self ..
  | cons e t ih =>
    obtain ⟨j, w⟩ := e
    unfold tinsert
    split
    · exact List.mem_cons_self ..
    · split
      · exact List.mem_cons_self ..
      · exact List.mem_cons_of_mem _ ih

theorem dtlsHandshake_completes (h : d.netif p = some n) (hkey : (p, key) ∈ d.net.shaking) {k : Nat}
    (hk : k < nkPeers (d.strmCfg n)) (hpeer : nkPeer (d.strmCfg n) k = key) : ∃ (i : Nat) (x : Session),
      dtlsHandshake p key .completes d =
        { d with net := { d.net with sessions := tinsert d.net.sessions i x, shaking := d.net.shaking.erase (p, key) } } ∧
      x.port = p ∧ x.peer = key ∧ x.isOpen = true := by
  have hyes : ((Handshake.completes == .completes) && (List.range (nkPeers (d.strmCfg n))).any fun k => nkPeer (d.strmCfg n) k == key) = true := by
    simpa using ⟨k, hk, hpeer⟩
  unfold dtlsHandshake
  rw [h]
  exact ⟨_, _, (if_neg (by decide)).trans ((if_neg (by simpa using hkey)).trans (if_pos hyes)), rfl, rfl, rfl⟩
end

/-! ### Emissions (R412 to R415) -/

/-- What an emission's frames leave as it is until the stream's own count: the streams, the Wheel, the waiting commands. -/
def Dev.unsent (d : Dev) : List (Nat × StreamRt) × Wheel × List Wait := (d.net.streams, d.wheel, d.waits)

theorem ringFrame_unsent (fuel : Nat) (d : Dev) (ring : Nat) (frame : List Byte) (last : Bool) :
    (ringFrame fuel d ring frame last).1.unsent = d.unsent := by
  induction fuel generalizing d with
  | zero => rfl
  | succ fuel ih =>
    unfold ringFrame
    split
    · rfl
    · dsimp only
      split
      · split <;> rfl
      · exact ih _

theorem sendOn_unsent (d : Dev) (p : Nat) (payload : List Byte) : (d.sendOn p payload).unsent = d.unsent := rfl

/-- A frame leaves, or is dropped, before it is counted. -/
def frameOut (resolved : Bool) (n : Nat) (d : Dev) (f : Nat × List Byte) (last : Bool) : Dev × Bool :=
  if nkKind (d.strmCfg n) = 0 then
    ringFrame 64 d (nkBind (d.strmCfg n)).toNat (ksfHeader d n f.1 f.2.length last ++ f.2) last
  else if resolved && d.namesLive tStream (nkBind (d.strmCfg n)) && d.portRuns (nkPort (d.strmCfg (hIndex (nkBind (d.strmCfg n))))) then
    (d.sendOn (nkPort (d.strmCfg (hIndex (nkBind (d.strmCfg n))))) (ksfHeader d n f.1 f.2.length last ++ f.2), true)
  else ((d.modPort (nkPort (d.strmCfg (hIndex (nkBind (d.strmCfg n))))) fun x => { x with drops := satAdd 32 x.drops 1 }).tally
    (35 + nkPort (d.strmCfg (hIndex (nkBind (d.strmCfg n))))) 7 1, false)

theorem frameOut_unsent (resolved : Bool) (n : Nat) (d : Dev) (f : Nat × List Byte) (last : Bool) :
    (frameOut resolved n d f last).1.unsent = d.unsent := by
  unfold frameOut
  split
  · exact ringFrame_unsent _ _ _ _ _
  · split <;> rfl

/-- The counts of a frame. -/
def frameCounted (d : Dev) (n len : Nat) (ok : Bool) : Dev :=
  (((d.tally 33 1 (b2n ok)).tally 33 2 (if ok then len else 0)).tally 33 3 (b2n (!ok))).modStrm n fun s =>
    { s with seq := s.seq + 1, gap := if ok then false else true, dropped := if ok then s.dropped else satAdd 32 s.dropped 1 }

theorem emitFrame_counted (resolved : Bool) (n : Nat) (d : Dev) (f : Nat × List Byte) (last : Bool) :
    (emitFrame resolved n d f last).1 =
      frameCounted (frameOut resolved n d f last).1 n (ksfHeader d n f.1 f.2.length last ++ f.2).length (frameOut resolved n d f last).2 :=
  rfl

theorem frameCounted_seq (d : Dev) (n len : Nat) (ok : Bool) : ((frameCounted d n len ok).strm n).seq = (d.strm n).seq + 1 := by
  unfold frameCounted
  rw [strm_modStrm_self]
  rfl

theorem frameCounted_wheel_waits (d : Dev) (n len : Nat) (ok : Bool) :
    (frameCounted d n len ok).wheel = d.wheel ∧ (frameCounted d n len ok).waits = d.waits := by
  simp [frameCounted]

theorem emitFrame_effect (resolved : Bool) (n : Nat) (d : Dev) (f : Nat × List Byte) (last : Bool) :
    ((emitFrame resolved n d f last).1.strm n).seq = (d.strm n).seq + 1 ∧ (emitFrame resolved n d f last).1.wheel = d.wheel ∧
      (emitFrame resolved n d f last).1.waits = d.waits := by
  have h := frameOut_unsent resolved n d f last
  rw [emitFrame_counted, frameCounted_seq]
  obtain ⟨hwheel, hwaits⟩ := frameCounted_wheel_waits (frameOut resolved n d f last).1 n
    (ksfHeader d n f.1 f.2.length last ++ f.2).length (frameOut resolved n d f last).2
  rw [hwheel, hwaits, strm_of_streams (congrArg Prod.fst h)]
  exact ⟨rfl, congrArg (fun x => x.2.1) h, congrArg (fun x => x.2.2) h⟩

theorem emitFrames_cons (resolved : Bool) (n : Nat) (d : Dev) (f : Nat × List Byte) (fs : List (Nat × List Byte)) :
    (emitFrames resolved n d (f :: fs)).1 = (emitFrames resolved n (emitFrame resolved n d f fs.isEmpty).1 fs).1 := rfl

/-- One sequence number a frame (R414). -/
theorem emitFrames_effect (resolved : Bool) (n : Nat) (fs : List (Nat × List Byte)) (d : Dev) :
    ((emitFrames resolved n d fs).1.strm n).seq = (d.strm n).seq + BitVec.ofNat 32 fs.length ∧
      (emitFrames resolved n d fs).1.wheel = d.wheel ∧ (emitFrames resolved n d fs).1.waits = d.waits := by
  induction fs generalizing d with
  | nil => exact ⟨(BitVec.add_zero _).symm, rfl, rfl⟩
  | cons f fs ih =>
    obtain ⟨hseq, hwheel, hwaits⟩ := ih (emitFrame resolved n d f fs.isEmpty).1
    obtain ⟨hseq', hwheel', hwaits'⟩ := emitFrame_effect resolved n d f fs.isEmpty
    rw [emitFrames_cons]
    refine ⟨?_, hwheel.trans hwheel', hwaits.trans hwaits'⟩
    rw [hseq, hseq', List.length_cons, BitVec.add_assoc, BitVec.ofNat_add, BitVec.add_comm 1]
    rfl

/-- Whether an emission of a stream is due (R412). -/
def Dev.emissionDue (d : Dev) (n : Nat) : Bool :=
  d.enabled tStream n && nkKind (d.strmCfg n) != 2 && d.wheel.turn.toNat % max 1 (nkEvery (d.strmCfg n)) == 0 &&
    (d.strm n).lastEmit != some d.wheel.turn && !d.sag.fenced.contains 10

/-- The frames of an emission. -/
def Dev.frames (d : Dev) (block : Dev → Word → Nat → List Byte) (n : Nat) : List (Nat × List Byte) :=
  packFrames (if nkKind (d.strmCfg n) = 0 then 4096 else 1452)
    ((List.range (nkSources (d.strmCfg n))).flatMap (sourceRecords d block n))

theorem streamEmission_idle (block : Dev → Word → Nat → List Byte) {n : Nat} (resolved : Bool) {d : Dev} (h : d.emissionDue n = false) :
    streamEmission block n resolved d = d := if_neg (Bool.eq_false_iff.1 h)

theorem streamEmission_due (block : Dev → Word → Nat → List Byte) {n : Nat} (resolved : Bool) {d : Dev} (h : d.emissionDue n = true) :
    ((streamEmission block n resolved d).strm n).lastEmit = some d.wheel.turn ∧ (streamEmission block n resolved d).wheel = d.wheel ∧
      (streamEmission block n resolved d).waits = d.waits ∧
      ((streamEmission block n resolved d).strm n).seq = (d.strm n).seq + BitVec.ofNat 32 (d.frames block n).length := by
  obtain ⟨e, k, he, hk⟩ : ∃ e k, emitFrames resolved n
      (d.tally 33 0 ((List.range (nkSources (d.strmCfg n))).flatMap (sourceRecords d block n)).length) (d.frames block n) = (e, k) ∧
      streamEmission block n resolved d =
        if k = 0 then e.modStrm n fun s => { s with lastEmit := some e.wheel.turn }
        else (e.modStrm n fun s => { s with lastEmit := some e.wheel.turn }).raise 0x0D02 k
          ((e.modStrm n fun s => { s with lastEmit := some e.wheel.turn }).handleOf tStream n) :=
    ⟨_, _, rfl, if_pos h⟩
  obtain ⟨hseq, hwheel, hwaits⟩ := emitFrames_effect resolved n (d.frames block n)
    (d.tally 33 0 ((List.range (nkSources (d.strmCfg n))).flatMap (sourceRecords d block n)).length)
  rw [he] at hseq hwheel hwaits
  have hmod := strm_modStrm_self e n fun s => { s with lastEmit := some e.wheel.turn }
  have hturn : some e.wheel.turn = some d.wheel.turn := congrArg (fun w : Wheel => some w.turn) hwheel
  rw [hk]
  split
  · rw [hmod]
    exact ⟨hturn, hwheel, hwaits, hseq⟩
  · rw [strm_of_streams (congrArg Net.streams (raise_net _ _ _ _)), hmod, raise_frame]
    exact ⟨hturn, hwheel, hwaits, hseq⟩

/-! ### The obligation -/

/-- Settles O58: each event is its model function, whose branches the clauses' conditions pick. -/
theorem networkEvents : Obligations.NetworkEvents := by
  unfold Obligations.NetworkEvents
  refine ⟨?_, ?_, ?_, ?_, ?_, ?_⟩
  · intro s p len k t hp
    have hne := otherPort_ne hp
    refine ⟨fun h => answersAt hp rfl (ethFrame_stopped h), fun h hk => answersAt hp rfl (ethFrame_dropped h hk), ?_, ?_, ?_⟩
    · rintro h hlen rfl
      exact answersAt hp rfl (ethFrame_other h hlen)
    · exact fun h hlen hm hk => answersAt hp rfl (ethFrame_halted h hlen hm hk)
    · intro h hlen hm
      refine ⟨?_, ?_, ?_⟩
      · rintro rfl
        refine ⟨_, answersAt hp rfl (ethFrame_asks h hlen hm), answerUnheard_port _ _, ?_⟩
        rw [answerUnheard_port_ne _ hne, received_port_ne _ hne]
        rfl
      · rintro rfl
        exact answersAt hp rfl (ethFrame_plain h hlen hm)
      · rintro rfl
        refine ⟨fun hfull => answersAt hp rfl ?_, fun hroom => ⟨_, answersAt hp rfl rfl, ?_, ?_⟩⟩
        · exact (ethFrame_closedPort h hlen hm).trans (if_neg (Nat.not_lt.2 hfull))
        · rw [ethFrame_closedPort h hlen hm]
          refine (congrArg (fun d : Dev => d.port p) (if_pos hroom)).trans ?_
          rw [answerUnheard_port, port_modPort_self]
          rfl
        · rw [ethFrame_closedPort h hlen hm]
          refine (congrArg (fun d : Dev => d.port (1 - p)) (if_pos hroom)).trans ?_
          rw [answerUnheard_port_ne _ hne, port_modPort_ne _ hne, received_port_ne _ hne]
          rfl
  · intro s p hp h
    exact ⟨fun up speed => answersAt hp rfl (netLink_none h up speed), fun key stage => answersAt hp rfl (dtlsHandshake_none h stage),
      answersAt hp rfl (linkTimeout_none h), fun c => answersAt hp rfl (dadComplete_none h c)⟩
  · intro s p n hp h
    refine ⟨fun v speed hs => answersAt hp rfl (netLink_same h hs speed), ?_, ?_, ?_, ?_, ?_, ?_, ?_, ?_, ?_, ?_, ?_, ?_, ?_⟩
    · intro speed hon hup hv4
      refine ⟨_, answersAt hp rfl ((netLink_up h hon hup speed).trans (if_neg (Bool.eq_false_iff.1 hv4))), ?_⟩
      rw [linkUp_strm]
      exact ⟨rfl, rfl, linkUp_port⟩
    · intro speed hon hup hv4
      refine ⟨_, answersAt hp rfl ((netLink_up h hon hup speed).trans (if_pos hv4)), ?_⟩
      rw [netifUsable_strm, linkUp_strm]
      refine ⟨rfl, rfl, ?_⟩
      have hh : (linkUp s.dev n p speed).handleOf tStream n = s.dev.handleOf tStream n := by
        unfold linkUp
        rw [raise_frame]
        rfl
      exact hh ▸ netifUsable_noWait _ n
    · intro speed hon hup
      refine ⟨_, answersAt hp rfl (netLink_down h hon hup speed), ?_⟩
      rw [netifDown_strm]
      exact ⟨rfl, rfl⟩
    · exact fun hidle c => answersAt hp rfl (dadComplete_idle h hidle c)
    · intro hon hup hv6
      refine ⟨_, answersAt hp rfl ((dadComplete_due h hon hup hv6 false).trans (if_neg Bool.false_ne_true)), ?_, netifUsable_noWait _ n⟩
      rw [netifUsable_strm]
    · intro hon hup hv6
      refine ⟨_, answersAt hp rfl ((dadComplete_due h hon hup hv6 true).trans (if_pos rfl)), ?_, ?_, ?_⟩
      · exact congrArg StreamRt.addr (strm_of_streams (congrArg Net.streams (raise_net _ _ _ _)) n)
      · refine (congrArg Port.dad (port_of_ports (congrArg Net.ports (raise_net _ _ _ _)) p)).trans ?_
        rw [port_modPort_self]
      · rw [raise_frame]
        rfl
    · exact fun hup => answersAt hp rfl ((linkTimeout_some h).trans (if_pos hup))
    · intro hup
      exact ⟨_, answersAt hp rfl ((linkTimeout_some h).trans (if_neg (Bool.eq_false_iff.1 hup))), endKind_noWait _ (by decide) _ _,
        endKind_streams _ _ _ _⟩
    · exact fun key hno => answersAt hp rfl ((dtlsHandshake_hello h).trans (dtlsHello_refused hno))
    · exact fun key hrun hm hshaking hheld =>
        answersAt hp rfl ((dtlsHandshake_hello h).trans (dtlsHello_taken hrun hm hshaking hheld))
    · exact fun key stage hstage hkey => answersAt hp rfl (dtlsHandshake_unknown h hstage hkey)
    · intro key stage hkey hfail
      refine ⟨_, answersAt hp rfl (dtlsHandshake_fails h hkey hfail), ?_⟩
      have hnet := raiseOnceTurn_net ((handshakeEnds s.dev p key).modPort p fun x => { x with dtlsFail := satAdd 32 x.dtlsFail 1 })
        (0x0D03 * 2 + p) 0x0D03 p (s.dev.handleOf tStream n)
      rw [port_of_ports (congrArg Net.ports hnet), port_modPort_self, hnet]
      exact ⟨rfl, rfl, rfl⟩
    · intro key k hkey hk hpeer
      obtain ⟨i, x, he, hport, hxpeer, hopen⟩ := dtlsHandshake_completes h hkey hk hpeer
      exact ⟨_, i, x, answersAt hp rfl he, mem_tinsert_self _ i x, hport, hxpeer, hopen, rfl⟩
  · exact fun s i hi => answersAt hi rfl rfl
  · intro s p hp
    refine ⟨fun h => answersAt hp rfl (if_neg ?_), fun hrun hm => answersAt hp rfl (if_pos ?_)⟩
    · rcases h with h | h <;> simp [h]
    · simp [hrun, hm]
  · intro s n resolved hn
    exact ⟨fun h => answersAt hn rfl (streamEmission_idle _ resolved h), fun h => ⟨_, answersAt hn rfl rfl, streamEmission_due _ resolved h⟩⟩

end Sys2Proof.Machine
end

/-! ## O59: mailboxes, attention, bus faults and modules -/

section
/-! PROOF. The events of the two-wire ports change the ports' state and counts, and raise events. What each operation makes of the
ports' state is said once; the clauses read it off. -/

namespace Sys2Proof.Machine

/-! ### Counts, boxes and transactions -/

theorem twbCount_frame (d : Dev) (off : Nat) : ∃ t, d.twbCount off =
    { d with tal := t, twb := { d.twb with counts := tmod 0 d.twb.counts off fun n => satAdd 16 n 1 } } := by
  unfold Dev.twbCount
  split <;> exact ⟨_, rfl⟩

@[simp] theorem twbCount_twb (d : Dev) (off : Nat) :
    (d.twbCount off).twb = { d.twb with counts := tmod 0 d.twb.counts off fun n => satAdd 16 n 1 } := by
  obtain ⟨t, h⟩ := twbCount_frame d off
  rw [h]

@[simp] theorem TwoWire.box_counts (t : TwoWire) (c : List (Nat × Nat)) (peer : Bool) : { t with counts := c }.box peer = t.box peer := rfl

@[simp] theorem box_modBox_self (d : Dev) (peer : Bool) (f : Mbox → Mbox) : (d.modBox peer f).twb.box peer = f (d.twb.box peer) := by
  cases peer <;> rfl

@[simp] theorem box_modBox_other (d : Dev) (peer : Bool) (f : Mbox → Mbox) : (d.modBox peer f).twb.box (!peer) = d.twb.box (!peer) := by
  cases peer <;> rfl

/-- What the ports hold beside their mailboxes and counts. -/
def TwoWire.sansBoxes (t : TwoWire) : TwoWire := { t with boxA := {}, boxB := {}, counts := [] }

theorem modBox_sansBoxes (d : Dev) (peer : Bool) (f : Mbox → Mbox) : (d.modBox peer f).twb.sansBoxes = d.twb.sansBoxes := by
  cases peer <;> rfl

@[simp] theorem boxWrite_twb (peer : Bool) (d : Dev) : (boxWrite peer d).twb = d.twb := by
  cases peer <;> rfl

theorem frameError_box (peer : Bool) (code : Nat) (d : Dev) : (frameError peer code d).twb.box peer =
    { d.twb.box peer with lastErr := code, errs := satAdd 8 (d.twb.box peer).errs 1 } := by
  simp [frameError]

theorem frameError_other (peer : Bool) (code : Nat) (d : Dev) : (frameError peer code d).twb.box (!peer) = d.twb.box (!peer) := by
  simp [frameError]

theorem frameError_sansBoxes (peer : Bool) (code : Nat) (d : Dev) : (frameError peer code d).twb.sansBoxes = d.twb.sansBoxes := by
  unfold frameError
  dsimp only
  rw [Dev.raiseOnceTurn_twb, twbCount_twb]
  exact modBox_sansBoxes d peer _

/-! ### Mailboxes (R480 to R487) -/

section
variable (d : Dev) (peer : Bool)

/-- A read of the mailbox begins: on Port B it ends the alert. -/
def readBegins (d : Dev) (peer : Bool) : Dev := if peer then d else Dev.tally { d with twb := { d.twb with alert := false } } 46 1 1

theorem readBegins_box (x : Bool) : (readBegins d peer).twb.box x = d.twb.box x := by
  cases peer <;> rfl

theorem readBegins_alert (h : peer = false) : (readBegins d peer).twb.alert = false := by
  rw [h]
  rfl

/-- The bytes that the controller reads. -/
def busRead (d : Dev) (bs : List Byte) : Dev := { d with twb := { d.twb with read := bs } }

theorem mboxRead_response {n : Nat} (h : (d.twb.box peer).st = .response) : mboxRead peer n d =
    if (d.twb.box peer).resp.length - (d.twb.box peer).pos < n then
      frameError peer 7 ((busRead (readBegins d peer) (readBytes (d.twb.box peer).resp (d.twb.box peer).pos n)).modBox peer
        fun b => { b with st := .empty, resp := [], pos := 0 })
    else if (d.twb.box peer).resp.length - (d.twb.box peer).pos ≤ n then
      (busRead (readBegins d peer) (readBytes (d.twb.box peer).resp (d.twb.box peer).pos n)).modBox peer
        fun b => { b with st := .empty, resp := [], pos := 0 }
    else (busRead (readBegins d peer) (readBytes (d.twb.box peer).resp (d.twb.box peer).pos n)).modBox peer
        fun b => { b with pos := b.pos + n } := by
  unfold mboxRead
  refine (if_pos h).trans ?_
  dsimp only
  split
  case isTrue hlt => rw [if_pos (Nat.le_of_lt hlt)]; rfl
  case isFalse => rfl

theorem statusFrame_readBegins : statusFrame (readBegins d peer) peer =
    statusFrame (if peer then d else { d with twb := { d.twb with alert := false } }) peer := by
  cases peer <;> rfl

theorem mboxRead_status {n : Nat} (h : (d.twb.box peer).st ≠ .response) : mboxRead peer n d =
    if (statusFrame (readBegins d peer) peer).length < n then
      frameError peer 7 ((busRead (readBegins d peer) (readBytes (statusFrame (readBegins d peer) peer) 0 n)).modBox peer
        fun b => { b with attn := 0, errs := 0 })
    else (busRead (readBegins d peer) (readBytes (statusFrame (readBegins d peer) peer) 0 n)).modBox peer
        fun b => { b with attn := 0, errs := 0 } := by
  unfold mboxRead
  exact if_neg h

theorem read_of_sansBoxes {t u : TwoWire} (h : t.sansBoxes = u.sansBoxes) : t.read = u.read ∧ t.alert = u.alert ∧
    t.busErrRun = u.busErrRun ∧ t.abandoned = u.abandoned :=
  ⟨(congrArg TwoWire.read h :), (congrArg TwoWire.alert h :), (congrArg TwoWire.busErrRun h :), (congrArg TwoWire.abandoned h :)⟩

/-- A read of a pending response (R485). -/
theorem mboxRead_response_effect (n : Nat) (h : (d.twb.box peer).st = .response) :
    (mboxRead peer n d).twb.read = readBytes (d.twb.box peer).resp (d.twb.box peer).pos n ∧
    ((d.twb.box peer).resp.length - (d.twb.box peer).pos ≤ n →
      ((mboxRead peer n d).twb.box peer).st = .empty ∧ ((mboxRead peer n d).twb.box peer).resp = []) ∧
    (n < (d.twb.box peer).resp.length - (d.twb.box peer).pos →
      (mboxRead peer n d).twb.box peer = { d.twb.box peer with pos := (d.twb.box peer).pos + n }) ∧
    ((d.twb.box peer).resp.length - (d.twb.box peer).pos < n → ((mboxRead peer n d).twb.box peer).lastErr = 7) ∧
    (peer = false → (mboxRead peer n d).twb.alert = false) := by
  rw [mboxRead_response d peer h]
  have hsans (f : Mbox → Mbox) := modBox_sansBoxes (busRead (readBegins d peer) (readBytes (d.twb.box peer).resp (d.twb.box peer).pos n)) peer f
  split
  case isTrue hlt =>
    obtain ⟨hread, halert, -⟩ :=
      read_of_sansBoxes ((frameError_sansBoxes peer 7 _).trans (hsans fun b => { b with st := .empty, resp := [], pos := 0 }))
    rw [frameError_box, box_modBox_self, hread, halert]
    exact ⟨rfl, fun _ => ⟨rfl, rfl⟩, fun hgt => absurd hgt (Nat.lt_asymm hlt), fun _ => rfl, readBegins_alert d peer⟩
  case isFalse hlt =>
    split
    case isTrue hle =>
      obtain ⟨hread, halert, -⟩ := read_of_sansBoxes (hsans fun b => { b with st := .empty, resp := [], pos := 0 })
      rw [box_modBox_self, hread, halert]
      exact ⟨rfl, fun _ => ⟨rfl, rfl⟩, fun hgt => absurd hle (Nat.not_le.2 hgt), fun hl => absurd hl hlt, readBegins_alert d peer⟩
    case isFalse hle =>
      obtain ⟨hread, halert, -⟩ := read_of_sansBoxes (hsans fun b => { b with pos := b.pos + n })
      rw [box_modBox_self, hread, halert]
      refine ⟨rfl, fun hl => absurd hl hle, fun _ => ?_, fun hl => absurd hl hlt, readBegins_alert d peer⟩
      exact congrArg (fun b : Mbox => { b with pos := b.pos + n }) (readBegins_box d peer peer)

/-- A read of the status frame (R485, R487). -/
theorem mboxRead_status_effect (n : Nat) (h : (d.twb.box peer).st ≠ .response) :
    (mboxRead peer n d).twb.read =
      readBytes (statusFrame (if peer then d else { d with twb := { d.twb with alert := false } }) peer) 0 n ∧
    ((mboxRead peer n d).twb.box peer).attn = 0 ∧ ((mboxRead peer n d).twb.box peer).st = (d.twb.box peer).st ∧
    (peer = false → (mboxRead peer n d).twb.alert = false) := by
  have hsans := modBox_sansBoxes (busRead (readBegins d peer) (readBytes (statusFrame (readBegins d peer) peer) 0 n)) peer
    fun b => { b with attn := 0, errs := 0 }
  have hst : ((busRead (readBegins d peer) (readBytes (statusFrame (readBegins d peer) peer) 0 n)).twb.box peer).st =
    (d.twb.box peer).st := congrArg Mbox.st (readBegins_box d peer peer)
  rw [mboxRead_status d peer h, ← statusFrame_readBegins]
  split
  · obtain ⟨hread, halert, -⟩ := read_of_sansBoxes ((frameError_sansBoxes peer 7 _).trans hsans)
    rw [frameError_box, box_modBox_self, hread, halert]
    exact ⟨rfl, rfl, hst, readBegins_alert d peer⟩
  · obtain ⟨hread, halert, -⟩ := read_of_sansBoxes hsans
    rw [box_modBox_self, hread, halert]
    exact ⟨rfl, rfl, hst, readBegins_alert d peer⟩

/-- The error code of a transaction that breaks a rule of Table 18.10. -/
def faultCode (st : MboxState) : FrameFault → Option Nat
  | .timeout => some 5
  | .abort => some 6
  | .bytes bs => frameCode st bs

theorem mboxFault_none {f : FrameFault} (h : faultCode (d.twb.box peer).st f = none) : mboxFault peer f d = d := by
  cases f with
  | timeout => contradiction
  | abort => contradiction
  | bytes bs =>
    unfold mboxFault
    dsimp only
    rw [show frameCode (d.twb.box peer).st bs = none from h]

theorem mboxFault_some {f : FrameFault} {code : Nat} (h : faultCode (d.twb.box peer).st f = some code) :
    mboxFault peer f d = frameError peer code (boxWrite peer d) := by
  cases f with
  | timeout => cases h; rfl
  | abort => cases h; rfl
  | bytes bs =>
    unfold mboxFault
    dsimp only
    rw [show frameCode (d.twb.box peer).st bs = some code from h]
end

theorem mailboxes (s : State) (peer : Bool) :
    let b := s.dev.twb.box peer
    (∃ d : Dev, Answers (.mboxReread peer) s d ∧ d.twb.box peer = { b with pos := 0 } ∧ d.twb.box (!peer) = s.dev.twb.box (!peer) ∧
      d = { s.dev with twb := d.twb, tal := d.tal }) ∧
    (∃ d : Dev, Answers (.mboxDiscard peer) s d ∧ d.twb.box (!peer) = s.dev.twb.box (!peer) ∧
      d.twb.box peer = (if b.st = .response then { b with st := .empty, resp := [], pos := 0 } else b)) := by
  refine ⟨⟨_, rfl, ?_, ?_, ?_⟩, ⟨_, rfl, ?_, ?_⟩⟩
  · exact (box_modBox_self (boxWrite peer s.dev) peer _).trans (by rw [boxWrite_twb])
  · exact (box_modBox_other (boxWrite peer s.dev) peer _).trans (by rw [boxWrite_twb])
  · cases peer <;> rfl
  · exact (box_modBox_other (boxWrite peer s.dev) peer _).trans (by rw [boxWrite_twb])
  · exact (box_modBox_self (boxWrite peer s.dev) peer _).trans (by rw [boxWrite_twb])

theorem mailboxFrames (s : State) (peer : Bool) (f : FrameFault) :
    match faultCode (s.dev.twb.box peer).st f with
    | none => Answers (.mboxFrameError peer f) s s.dev
    | some code => ∃ d : Dev, Answers (.mboxFrameError peer f) s d ∧
      d.twb.box peer = { s.dev.twb.box peer with lastErr := code, errs := satAdd 8 (s.dev.twb.box peer).errs 1 } ∧
      d.twb.box (!peer) = s.dev.twb.box (!peer) := by
  split
  case h_1 h => exact .congr rfl (mboxFault_none s.dev peer h)
  case h_2 code h =>
    refine ⟨_, .congr rfl (mboxFault_some s.dev peer h), ?_, ?_⟩
    · rw [frameError_box, boxWrite_twb]
    · rw [frameError_other, boxWrite_twb]

/-! ### Attention (R487, R488) -/

theorem alertResponse_idle {d : Dev} (h : d.twb.alert = false) : alertResponse d = d := if_neg (Bool.eq_false_iff.1 h)

theorem alertResponse_answers {d : Dev} (h : d.twb.alert = true) : (alertResponse d).twb = { d.twb with
    alert := false, read := [BitVec.ofNat 8 (0xB0 + 2 * d.pow.strapAddr)]
    counts := tmod 0 d.twb.counts 24 fun n => satAdd 16 n 1 } := by
  unfold alertResponse
  rw [if_pos h, twbCount_twb]

/-- Whether the last attention pulse lies 10 ms back. -/
def Dev.pulseFree (d : Dev) : Bool :=
  match d.twb.lastPulse with
  | some t => decide (t + 1000000 ≤ d.now)
  | none => true

theorem attentionPulse_held {d : Dev} {t : Nat} (h : d.twb.pulseDue = false ∨ (d.atTime t).pulseFree = false) :
    attentionPulse t d = d.atTime t := by
  refine if_neg (show ¬(d.twb.pulseDue && (d.atTime t).pulseFree) = true from ?_)
  rcases h with h | h <;> simp [h]

theorem attentionPulse_sent {d : Dev} {t : Nat} (h : d.twb.pulseDue = true) (hfree : (d.atTime t).pulseFree = true) :
    attentionPulse t d =
      ({ d.atTime t with twb := { d.twb with pulseDue := false, lastPulse := some (d.atTime t).now } } : Dev).twbCount 20 :=
  if_pos (show (d.twb.pulseDue && (d.atTime t).pulseFree) = true by rw [h, hfree]; rfl)

theorem pulseFree_false {d : Dev} {l : Nat} (h : d.twb.lastPulse = some l) (hl : d.now < l + 1000000) : d.pulseFree = false := by
  unfold Dev.pulseFree
  rw [h]
  exact decide_eq_false (Nat.not_le.2 hl)

theorem pulseFree_true {d : Dev} (h : ∀ l, d.twb.lastPulse = some l → l + 1000000 ≤ d.now) : d.pulseFree = true := by
  unfold Dev.pulseFree
  split
  case h_1 l hl => exact decide_eq_true (h l hl)
  case h_2 => rfl

theorem pulseCollision_idle {d : Dev} (h : d.twb.pulseDue = false) : pulseCollision d = d := if_neg (Bool.eq_false_iff.1 h)

theorem pulseCollision_due {d : Dev} (h : d.twb.pulseDue = true) : (pulseCollision d).twb = { d.twb with
    lastPulse := none, counts := tmod 0 d.twb.counts 22 fun n => satAdd 16 n 1 } := by
  unfold pulseCollision
  rw [if_pos h, twbCount_twb]

/-! ### Timeouts and bus errors (R469 to R471, R489) -/

section
variable (d : Dev) (a : Nat)

theorem mem_abandon : a ∈ (abandon a d).twb.abandoned := by
  show a ∈ if d.twb.abandoned.contains a then d.twb.abandoned else d.twb.abandoned ++ [a]
  split
  case isTrue h => exact List.contains_iff_mem.1 h
  case isFalse => simp

theorem abandon_twb : (abandon a d).twb = { d.twb with arbRun := 0, busErrRun := 0, abandoned := (abandon a d).twb.abandoned } := rfl

/-- A transaction to an address goes on, or another begins. -/
theorem onTransaction_twb : (onTransaction a d).twb = { d.twb with
    running := a, arbRun := if d.twb.running = a then d.twb.arbRun else 0
    busErrRun := if d.twb.running = a then d.twb.busErrRun else 0 } := by
  unfold onTransaction
  split
  case isTrue h => rw [← h]
  case isFalse => rfl

/-- A timeout is counted and raised. -/
def timedOut (d : Dev) (peer : Bool) : Dev :=
  (d.twbCount (if peer then 12 else 14)).raiseOnceTurn (0x1002 * 2 + b2n peer) 0x1002 (b2n (!peer)) 0

theorem timedOut_twb (peer : Bool) : (timedOut d peer).twb =
    { d.twb with counts := tmod 0 d.twb.counts (if peer then 12 else 14) fun n => satAdd 16 n 1 } := by
  unfold timedOut
  rw [Dev.raiseOnceTurn_twb, twbCount_twb]

theorem twbTimeout_eq (peer ctl : Bool) :
    twbTimeout peer ctl a d = if ctl && peer then abandon a (timedOut d peer) else frameError peer 5 (timedOut d peer) := rfl

theorem frameError_target (peer : Bool) (code : Nat) {e : Dev} (h : e.twb.sansBoxes = d.twb.sansBoxes) :
    ((frameError peer code e).twb.box peer).lastErr = code ∧ (frameError peer code e).twb.busErrRun = d.twb.busErrRun ∧
      (frameError peer code e).twb.abandoned = d.twb.abandoned := by
  obtain ⟨-, -, hbus, habandoned⟩ := read_of_sansBoxes ((frameError_sansBoxes peer code e).trans h)
  rw [frameError_box]
  exact ⟨rfl, hbus, habandoned⟩

theorem not_controller {peer ctl : Bool} (h : ctl = false ∨ peer = false) : ¬(ctl && peer) = true := by
  rcases h with rfl | rfl <;> simp

theorem twbAbort_target {peer ctl : Bool} (h : ctl = false ∨ peer = false) : twbAbort peer ctl a d = frameError peer 6 d :=
  if_neg (not_controller h)

theorem twbAbort_controller : twbAbort true true a d =
    if (onTransaction a (d.twbCount 8)).twb.busErrRun = 0 then
      { onTransaction a (d.twbCount 8) with twb := { (onTransaction a (d.twbCount 8)).twb with busErrRun := 1 } }
    else abandon a (onTransaction a (d.twbCount 8)) := rfl

/-- The transaction to an address after an error that is counted at an offset. -/
theorem transaction_twb (off : Nat) : (onTransaction a (d.twbCount off)).twb = { d.twb with
    counts := tmod 0 d.twb.counts off fun n => satAdd 16 n 1, running := a
    arbRun := if d.twb.running = a then d.twb.arbRun else 0, busErrRun := if d.twb.running = a then d.twb.busErrRun else 0 } := by
  rw [onTransaction_twb, twbCount_twb]

/-- An abort of Port A's own transaction is retried once (R470). -/
theorem twbAbort_controller_effect :
    (twbAbort true true a d).twb.boxA = d.twb.boxA ∧ (twbAbort true true a d).twb.running = a ∧
    ((if d.twb.running = a then d.twb.busErrRun else 0) = 0 →
      (twbAbort true true a d).twb.busErrRun = 1 ∧ (twbAbort true true a d).twb.abandoned = d.twb.abandoned) ∧
    ((if d.twb.running = a then d.twb.busErrRun else 0) ≠ 0 →
      (twbAbort true true a d).twb.busErrRun = 0 ∧ (twbAbort true true a d).twb.arbRun = 0 ∧
        a ∈ (twbAbort true true a d).twb.abandoned) := by
  have hmem := mem_abandon (onTransaction a (d.twbCount 8)) a
  have htwb := transaction_twb d a 8
  rw [twbAbort_controller]
  generalize onTransaction a (d.twbCount 8) = e at hmem htwb
  split
  case isTrue h =>
    rw [htwb] at h ⊢
    exact ⟨rfl, rfl, fun _ => ⟨rfl, rfl⟩, fun hne => absurd h hne⟩
  case isFalse h =>
    rw [abandon_twb]
    rw [htwb] at h ⊢
    exact ⟨rfl, rfl, fun he => absurd he h, fun _ => ⟨rfl, rfl, hmem⟩⟩

/-- A stuck bus is counted and raised. -/
theorem busClear_eq (cleared : Bool) : busClear cleared a d =
    if cleared then (d.twbCount 10).raiseOnceTurn 0x1001 0x1001 (b2n cleared) 0
    else abandon a ((d.twbCount 10).raiseOnceTurn 0x1001 0x1001 (b2n cleared) 0) := rfl

theorem busClear_effect (cleared : Bool) :
    tget 0 (busClear cleared a d).twb.counts 10 = satAdd 16 (tget 0 d.twb.counts 10) 1 ∧
    (busClear cleared a d).twb.mods = d.twb.mods ∧
    (cleared = true → (busClear cleared a d).twb.abandoned = d.twb.abandoned) ∧
    (cleared = false → a ∈ (busClear cleared a d).twb.abandoned) := by
  have hcount : tget 0 (tmod 0 d.twb.counts 10 fun n => satAdd 16 n 1) 10 = satAdd 16 (tget 0 d.twb.counts 10) 1 := tget_tmod_self ..
  have htwb : ((d.twbCount 10).raiseOnceTurn 0x1001 0x1001 (b2n cleared) 0).twb =
      { d.twb with counts := tmod 0 d.twb.counts 10 fun n => satAdd 16 n 1 } := by rw [Dev.raiseOnceTurn_twb, twbCount_twb]
  have hmem := mem_abandon ((d.twbCount 10).raiseOnceTurn 0x1001 0x1001 (b2n cleared) 0) a
  rw [busClear_eq]
  generalize (d.twbCount 10).raiseOnceTurn 0x1001 0x1001 (b2n cleared) 0 = e at hmem htwb
  cases cleared
  · rw [if_neg Bool.false_ne_true, abandon_twb, htwb]
    exact ⟨hcount, rfl, nofun, fun _ => hmem⟩
  · rw [if_pos rfl, htwb]
    exact ⟨hcount, rfl, fun _ => rfl, nofun⟩

/-- A loss of the arbitration, and whether the winner's transaction is served. -/
def lostTo (d : Dev) (served : Bool) (a : Nat) : Dev :=
  if served then (onTransaction a (d.twbCount 4)).twbCount 6 else onTransaction a (d.twbCount 4)

theorem arbitrationLost_eq (served : Bool) : arbitrationLost served a d =
    if 7 ≤ (lostTo d served a).twb.arbRun then abandon a (lostTo d served a)
    else { lostTo d served a with twb := { (lostTo d served a).twb with arbRun := (lostTo d served a).twb.arbRun + 1 } } := rfl

theorem lostTo_twb (served : Bool) : ∃ c, tget 0 c 4 = satAdd 16 (tget 0 d.twb.counts 4) 1 ∧ (lostTo d served a).twb = { d.twb with
    counts := c, running := a
    arbRun := if d.twb.running = a then d.twb.arbRun else 0, busErrRun := if d.twb.running = a then d.twb.busErrRun else 0 } := by
  have hcount : tget 0 (tmod 0 d.twb.counts 4 fun n => satAdd 16 n 1) 4 = satAdd 16 (tget 0 d.twb.counts 4) 1 := tget_tmod_self ..
  cases served
  · exact ⟨_, hcount, transaction_twb d a 4⟩
  · refine ⟨_, ?_, (twbCount_twb _ 6).trans (congrArg (fun t : TwoWire => { t with counts := tmod 0 t.counts 6 fun n => satAdd 16 n 1 })
      (transaction_twb d a 4))⟩
    exact (tget_tmod_ne _ _ _ (by decide)).trans hcount

theorem arbitrationLost_effect (served : Bool) :
    (arbitrationLost served a d).twb.running = a ∧
    tget 0 (arbitrationLost served a d).twb.counts 4 = satAdd 16 (tget 0 d.twb.counts 4) 1 ∧
    ((if d.twb.running = a then d.twb.arbRun else 0) < 7 →
      (arbitrationLost served a d).twb.arbRun = (if d.twb.running = a then d.twb.arbRun else 0) + 1 ∧
      (arbitrationLost served a d).twb.abandoned = d.twb.abandoned) ∧
    (7 ≤ (if d.twb.running = a then d.twb.arbRun else 0) →
      (arbitrationLost served a d).twb.arbRun = 0 ∧ a ∈ (arbitrationLost served a d).twb.abandoned) := by
  have hmem := mem_abandon (lostTo d served a) a
  obtain ⟨c, hcount, htwb⟩ := lostTo_twb d a served
  rw [arbitrationLost_eq]
  generalize lostTo d served a = e at hmem htwb
  split
  case isTrue h =>
    rw [abandon_twb]
    rw [htwb] at h ⊢
    exact ⟨rfl, hcount, fun hlt => absurd h (Nat.not_le.2 hlt), fun _ => ⟨rfl, hmem⟩⟩
  case isFalse h =>
    rw [htwb] at h ⊢
    exact ⟨rfl, hcount, fun _ => ⟨rfl, rfl⟩, fun hle => absurd hle h⟩
end

/-! ### Modules (R475 to R479) -/

theorem module_modMod_self (d : Dev) (a : Nat) (f : Module → Module) : (d.modMod a f).module_ a = f (d.module_ a) := tget_tmod_self ..

theorem module_modMod_ne (d : Dev) {a x : Nat} (h : x ≠ a) (f : Module → Module) : (d.modMod a f).module_ x = d.module_ x :=
  tget_tmod_ne _ _ _ h

theorem module_of_twb {d e : Dev} (h : d.twb = e.twb) (a : Nat) : d.module_ a = e.module_ a := by
  unfold Dev.module_
  rw [h]

theorem modWrites_of_slots {d e : Dev} (h : d.slots = e.slots) (n a : Nat) : d.modWrites n a = e.modWrites n a := by
  unfold Dev.modWrites Dev.mb Dev.slot
  rw [h]

theorem statusChanges_twb (n a status : Nat) (d : Dev) : (statusChanges n a status d).twb = d.twb := by
  unfold statusChanges
  split <;> simp

theorem statusChanges_slots (n a status : Nat) (d : Dev) : (statusChanges n a status d).slots = d.slots := by
  unfold statusChanges
  split <;> simp

section
variable {d : Dev} {n a : Nat}

theorem moduleDiscovery_none : moduleDiscovery a none d = d := by
  unfold moduleDiscovery
  split
  case h_1 h => exact nomatch h
  case h_2 => rfl

theorem moduleDiscovery_off (h : d.setOfModule a = none ∨ d.plane.mgmtRunning = false) (r : Option (Nat × Nat)) :
    moduleDiscovery a r d = d := by
  have hset : (if d.plane.mgmtRunning = true then d.setOfModule a else none) = none := by
    rcases h with h | h <;> simp [h]
  unfold moduleDiscovery
  rw [hset]

/-- A module that answers a discovery is PRESENT with what it answers. -/
def moduleFound (d e : Dev) (n a mode status : Nat) : Dev :=
  e.modMod a fun m => { m with
    present := true, lost := false, streak := if !(d.module_ a).present then 0 else m.streak, vmode := bitsN mode 5 3 != 0
    exp := sx 5 (bitsN mode 0 5), status := status % 65536, pend := e.modWrites n a && bitsN mode 5 3 == 0 }

theorem moduleDiscovery_answered (hset : d.setOfModule a = some n) (hm : d.plane.mgmtRunning = true) (mode status : Nat) :
    moduleDiscovery a (some (mode, status)) d =
      if !(d.module_ a).present then
        (moduleFound d (if !(d.module_ a).present then d else statusChanges n a status d) n a mode status).raise 0x1004 a
          ((moduleFound d (if !(d.module_ a).present then d else statusChanges n a status d) n a mode status).srcHandle n)
      else moduleFound d (if !(d.module_ a).present then d else statusChanges n a status d) n a mode status := by
  unfold moduleDiscovery
  rw [if_pos hm, hset]
  rfl

theorem moduleDiscovery_effect (hset : d.setOfModule a = some n) (hm : d.plane.mgmtRunning = true) (mode status : Nat) :
    (moduleDiscovery a (some (mode, status)) d).module_ a = { d.module_ a with
      present := true, lost := false, streak := if (d.module_ a).present then (d.module_ a).streak else 0
      vmode := bitsN mode 5 3 != 0, exp := sx 5 (bitsN mode 0 5), status := status % 65536
      pend := d.modWrites n a && bitsN mode 5 3 == 0 } ∧
    ∀ x, x ≠ a → (moduleDiscovery a (some (mode, status)) d).module_ x = d.module_ x := by
  have hbefore : ∀ e : Dev, e.twb = d.twb → e.slots = d.slots → (moduleFound d e n a mode status).module_ a = { d.module_ a with
      present := true, lost := false, streak := if (d.module_ a).present then (d.module_ a).streak else 0
      vmode := bitsN mode 5 3 != 0, exp := sx 5 (bitsN mode 0 5), status := status % 65536
      pend := d.modWrites n a && bitsN mode 5 3 == 0 } ∧ ∀ x, x ≠ a → (moduleFound d e n a mode status).module_ x = d.module_ x := by
    intro e htwb hslots
    refine ⟨?_, fun x hx => (module_modMod_ne e hx _).trans (module_of_twb htwb x)⟩
    unfold moduleFound
    rw [module_modMod_self, module_of_twb htwb, modWrites_of_slots hslots]
    cases (d.module_ a).present <;> rfl
  rw [moduleDiscovery_answered hset hm]
  have hfound := hbefore (if !(d.module_ a).present then d else statusChanges n a status d)
    (by split <;> simp [statusChanges_twb]) (by split <;> simp [statusChanges_slots])
  generalize moduleFound d (if !(d.module_ a).present then d else statusChanges n a status d) n a mode status = e at hfound
  split
  · exact ⟨(module_of_twb (Dev.raise_twb ..) a).trans hfound.1, fun x hx => (module_of_twb (Dev.raise_twb ..) x).trans (hfound.2 x hx)⟩
  · exact hfound

/-! ### The writes of a module (R477) -/

theorem moduleWrite_off (h : d.setOfModule a = none) (k : Option Nat) : moduleWrite a k d = d := by
  unfold moduleWrite
  rw [h]

theorem moduleWrite_not (hset : d.setOfModule a = some n) (h : (d.module_ a).present = false ∨ (d.module_ a).vmode = true ∨
    d.modWrites n a = false ∨ (d.module_ a).pend = false ∨ d.plane.mgmtRunning = false) (k : Option Nat) : moduleWrite a k d = d := by
  unfold moduleWrite
  rw [hset]
  refine if_neg ?_
  rcases h with h | h | h | h | h <;> simp [h]

/-- VOUT_COMMAND is written, but for a set voltage of 0. -/
def sendVout (d : Dev) (a v vout : Nat) : Dev :=
  if v = 0 then d.modMod a fun m => { m with voutWritten := none }
  else (d.sendTo a (0x21 :: leBytes 2 vout)).modMod a fun m => { m with voutWritten := some vout }

/-- VOUT_DROOP is written. -/
def sendDroop (d : Dev) (a droop : Nat) : Dev :=
  (d.sendTo a (0x28 :: leBytes 2 droop)).modMod a fun m => { m with droopWritten := some droop }

/-- OPERATION is written, the last of the three. -/
def sendOp (d : Dev) (a op : Nat) : Dev :=
  (d.sendTo a [0x01, BitVec.ofNat 8 op]).modMod a fun m => { m with opWritten := some op, pend := false, proved := false }

/-- A write transaction to a module's address with its PEC. -/
def withPec (a : Nat) (bs : List Byte) : Nat × List Byte := (a, bs ++ [BitVec.ofNat 8 (crc8 (BitVec.ofNat 8 (2 * a) :: bs))])

theorem sendVout_effect (d : Dev) (a v vout : Nat) :
    (sendVout d a v vout).module_ a = { d.module_ a with voutWritten := if v = 0 then none else some vout } ∧
    (sendVout d a v vout).twb.sends = d.twb.sends ++ (if v = 0 then [] else [withPec a (0x21 :: leBytes 2 vout)]) := by
  unfold sendVout
  split
  · exact ⟨module_modMod_self .., (List.append_nil _).symm⟩
  · exact ⟨module_modMod_self .., rfl⟩

theorem sendDroop_effect (d : Dev) (a droop : Nat) :
    (sendDroop d a droop).module_ a = { d.module_ a with droopWritten := some droop } ∧
    (sendDroop d a droop).twb.sends = d.twb.sends ++ [withPec a (0x28 :: leBytes 2 droop)] := ⟨module_modMod_self .., rfl⟩

theorem sendOp_effect (d : Dev) (a op : Nat) :
    (sendOp d a op).module_ a = { d.module_ a with opWritten := some op, pend := false, proved := false } ∧
    (sendOp d a op).twb.sends = d.twb.sends ++ [withPec a [0x01, BitVec.ofNat 8 op]] := ⟨module_modMod_self .., rfl⟩

/-- The three values that a module's write writes. -/
def voutSent (d : Dev) (n a : Nat) : Nat := voutCommand (bits (d.mb n (modInput a).1) 0 16) (d.module_ a).exp
/-- VOUT_DROOP's word. -/
def droopSent (d : Dev) (n a : Nat) : Nat := droopWord (bits (d.mb n (modInput a).1) 16 8)
/-- OPERATION's byte. -/
def opSent (d : Dev) (n a : Nat) : Nat := if bit (d.mb n (modInput a).1) 24 then 0x80 else 0

section
variable (hset : d.setOfModule a = some n) (hm : d.plane.mgmtRunning = true) (hp : (d.module_ a).present = true)
  (hv : (d.module_ a).vmode = false) (hw : d.modWrites n a = true) (hpend : (d.module_ a).pend = true)
include hset hm hp hv hw hpend

theorem moduleWrite_all : moduleWrite a none d =
    sendOp (sendDroop (sendVout d a (bits (d.mb n (modInput a).1) 0 16) (voutSent d n a)) a (droopSent d n a)) a (opSent d n a) := by
  unfold moduleWrite
  rw [hset]
  exact if_pos (by simp [hm, hp, hv, hw, hpend])

theorem moduleWrite_refused (c : Nat) : moduleWrite a (some c) d = writeFails n a c
    (if c = 0x21 then d
     else if c = 0x28 then sendVout d a (bits (d.mb n (modInput a).1) 0 16) (voutSent d n a)
     else sendDroop (sendVout d a (bits (d.mb n (modInput a).1) 0 16) (voutSent d n a)) a (droopSent d n a)) := by
  unfold moduleWrite
  rw [hset]
  exact if_pos (by simp [hm, hp, hv, hw, hpend])

theorem moduleWrite_all_effect :
    ((moduleWrite a none d).module_ a).pend = false ∧ ((moduleWrite a none d).module_ a).opWritten = some (opSent d n a) ∧
    ((moduleWrite a none d).module_ a).voutWritten = (if bits (d.mb n (modInput a).1) 0 16 = 0 then none else some (voutSent d n a)) ∧
    ((moduleWrite a none d).module_ a).droopWritten = some (droopSent d n a) ∧
    (moduleWrite a none d).twb.sends = d.twb.sends ++
      (if bits (d.mb n (modInput a).1) 0 16 = 0 then [] else [withPec a (0x21 :: leBytes 2 (voutSent d n a))]) ++
      [withPec a (0x28 :: leBytes 2 (droopSent d n a)), withPec a [0x01, BitVec.ofNat 8 (opSent d n a)]] := by
  rw [moduleWrite_all hset hm hp hv hw hpend]
  obtain ⟨hvout, hvsends⟩ := sendVout_effect d a (bits (d.mb n (modInput a).1) 0 16) (voutSent d n a)
  obtain ⟨hdroop, hdsends⟩ := sendDroop_effect (sendVout d a (bits (d.mb n (modInput a).1) 0 16) (voutSent d n a)) a (droopSent d n a)
  obtain ⟨hop, hsends⟩ := sendOp_effect
    (sendDroop (sendVout d a (bits (d.mb n (modInput a).1) 0 16) (voutSent d n a)) a (droopSent d n a)) a (opSent d n a)
  rw [hop, hdroop, hvout, hsends, hdsends, hvsends, List.append_assoc _ [_] [_]]
  exact ⟨rfl, rfl, rfl, rfl, rfl⟩

end

theorem writeFails_effect (n a c : Nat) (d : Dev) : (writeFails n a c d).module_ a = { d.module_ a with pend := true } ∧
    (writeFails n a c d).twb.sends = d.twb.sends := by
  unfold writeFails
  exact ⟨(module_of_twb (Dev.raiseOnceTurn_twb ..) a).trans (module_modMod_self ..),
    (congrArg TwoWire.sends (Dev.raiseOnceTurn_twb (d.modMod a fun m => { m with pend := true }) ..) :)⟩

section
variable (hset : d.setOfModule a = some n) (hm : d.plane.mgmtRunning = true) (hp : (d.module_ a).present = true)
  (hv : (d.module_ a).vmode = false) (hw : d.modWrites n a = true) (hpend : (d.module_ a).pend = true)
include hset hm hp hv hw hpend

theorem moduleWrite_refused_effect (c : Nat) : ((moduleWrite a (some c) d).module_ a).pend = true ∧
    ((moduleWrite a (some c) d).module_ a).opWritten = (d.module_ a).opWritten ∧
    (c = 0x21 → (moduleWrite a (some c) d).twb.sends = d.twb.sends) := by
  have hvout := (sendVout_effect d a (bits (d.mb n (modInput a).1) 0 16) (voutSent d n a)).1
  have hdroop := (sendDroop_effect (sendVout d a (bits (d.mb n (modInput a).1) 0 16) (voutSent d n a)) a (droopSent d n a)).1
  obtain ⟨hmod, hsends⟩ := writeFails_effect n a c
    (if c = 0x21 then d
     else if c = 0x28 then sendVout d a (bits (d.mb n (modInput a).1) 0 16) (voutSent d n a)
     else sendDroop (sendVout d a (bits (d.mb n (modInput a).1) 0 16) (voutSent d n a)) a (droopSent d n a))
  rw [moduleWrite_refused hset hm hp hv hw hpend, hmod, hsends]
  refine ⟨rfl, ?_, fun hc => by rw [if_pos hc]⟩
  split
  · rfl
  · split
    · rw [hvout]
    · rw [hdroop, hvout]
end
end

/-! ### The polls (R476) -/

section
variable {d : Dev} {n a : Nat} {r : Option PollReads}

theorem pollModule_absent (h : (d.module_ a).present = false) : pollModule n a r d = d := by
  unfold pollModule
  exact if_pos (by simp [h])

theorem pollModule_failed (hp : (d.module_ a).present = true) (h : r = none ∨ a ∈ d.twb.abandoned) :
    pollModule n a r d = pollFails n a d := by
  have hnone : (if d.twb.abandoned.contains a = true then none else r) = none := by
    rcases h with h | h
    · rw [h]
      split <;> rfl
    · rw [if_pos (List.contains_iff_mem.2 h)]
  unfold pollModule
  dsimp only
  rw [if_neg (by simp [hp]), hnone]

/-- A failed poll of a module. -/
def pollFailed (m : Module) : Module := { m with lastFailed := true, streak := m.streak + 1, fails := satAdd 16 m.fails 1 }

theorem pollFails_eq (n a : Nat) (d : Dev) : pollFails n a d =
    if 3 ≤ (((d.twbCount 26).modMod a pollFailed).module_ a).streak then
      (((d.twbCount 26).modMod a pollFailed).modMod a fun m => { m with present := false, lost := true, streak := 0 }).raise 0x1005 a
        ((((d.twbCount 26).modMod a pollFailed).modMod a fun m => { m with present := false, lost := true, streak := 0 }).srcHandle n)
    else (d.twbCount 26).modMod a pollFailed := rfl

theorem failed_module (d : Dev) (a : Nat) : ((d.twbCount 26).modMod a pollFailed).module_ a = pollFailed (d.module_ a) := by
  rw [module_modMod_self]
  refine congrArg pollFailed ?_
  unfold Dev.module_
  rw [twbCount_twb]

theorem pollFails_held (h : (d.module_ a).streak + 1 < 3) : (pollFails n a d).module_ a = pollFailed (d.module_ a) := by
  rw [pollFails_eq, failed_module, if_neg (show ¬3 ≤ (pollFailed (d.module_ a)).streak from Nat.not_le.2 h), failed_module]

theorem pollFails_lost (h : 3 ≤ (d.module_ a).streak + 1) : (pollFails n a d).module_ a =
    { pollFailed (d.module_ a) with present := false, lost := true, streak := 0 } := by
  rw [pollFails_eq, failed_module, if_pos (show 3 ≤ (pollFailed (d.module_ a)).streak from h), module_of_twb (Dev.raise_twb ..),
    module_modMod_self, failed_module]

/-- What a poll reads of a module. -/
def pollRead (r : PollReads) (m : Module) : Module := { m with
  status := r.status % 65536, vin := fitU 16 (linear11 r.vin 100), vOut := fitU 16 (scale2 (r.vOut % 65536 : Nat) m.exp 100)
  iOut := fitS 16 (linear11 r.iOut 100), temp := fitS 16 (linear11 r.temp 128), age := 0, streak := 0, lastFailed := false }

/-- A module but for its pending write and its proof. -/
def Module.sansPend (m : Module) : Module := { m with pend := false, proved := false }

theorem pollReadBack_sansPend (n a : Nat) (r : PollReads) (d : Dev) :
    ((pollReadBack n a r d).module_ a).sansPend = (d.module_ a).sansPend := by
  have hproved : ((d.modMod a fun m => { m with proved := true }).module_ a).sansPend = (d.module_ a).sansPend := by
    rw [module_modMod_self]
    rfl
  have hpend : ((d.modMod a fun m => { m with pend := true }).module_ a).sansPend = (d.module_ a).sansPend := by
    rw [module_modMod_self]
    rfl
  have hfails (c : Nat) : ((writeFails n a c d).module_ a).sansPend = (d.module_ a).sansPend := by
    rw [(writeFails_effect n a c d).1]
    rfl
  unfold pollReadBack
  dsimp only
  split
  · rfl
  · split
    · exact hproved
    · split
      · exact hpend
      · exact hfails _

theorem pollModule_read {p : PollReads} (hp : (d.module_ a).present = true) (h : a ∉ d.twb.abandoned) :
    ((pollModule n a (some p) d).module_ a).sansPend = (pollRead p (d.module_ a)).sansPend := by
  have hsome : (if d.twb.abandoned.contains a = true then none else some p) = some p :=
    if_neg fun hc => h (List.contains_iff_mem.1 hc)
  have hread : (((statusChanges n a p.status d).modMod a (pollRead p)).module_ a) =
      pollRead p (d.module_ a) := by
    rw [module_modMod_self, module_of_twb (statusChanges_twb ..)]
  unfold pollModule
  dsimp only
  rw [if_neg (by simp [hp]), hsome]
  dsimp only
  split
  · exact (pollReadBack_sansPend n a p _).trans (congrArg Module.sansPend hread)
  · exact congrArg Module.sansPend hread

/-- What a poll cycle's polls leave as it is. -/
def Dev.unpolled (d : Dev) : Wheel × List (Nat × Slot) × List Nat := (d.wheel, d.slots, d.twb.abandoned)

theorem raise_unpolled (d : Dev) (code detail : Nat) (h : Word) : (d.raise code detail h).unpolled = d.unpolled := by
  rw [raise_frame]
  rfl

theorem raiseOnceTurn_unpolled (d : Dev) (key code detail : Nat) (h : Word) :
    (d.raiseOnceTurn key code detail h).unpolled = d.unpolled := by
  rw [raiseOnceTurn_frame]
  rfl

theorem statusChanges_unpolled (n a status : Nat) (d : Dev) : (statusChanges n a status d).unpolled = d.unpolled := by
  unfold statusChanges
  split
  · rw [raiseOnceRound_frame]
    rfl
  · rfl

theorem pollFails_unpolled (n a : Nat) (d : Dev) : (pollFails n a d).unpolled = d.unpolled := by
  have h : ((d.twbCount 26).modMod a pollFailed).unpolled = d.unpolled := by
    obtain ⟨t, ht⟩ := twbCount_frame d 26
    rw [ht]
    rfl
  rw [pollFails_eq]
  split
  · rw [raise_unpolled]
    exact h
  · exact h

theorem pollReadBack_unpolled (n a : Nat) (r : PollReads) (d : Dev) : (pollReadBack n a r d).unpolled = d.unpolled := by
  unfold pollReadBack
  dsimp only
  split
  · rfl
  · split
    · rfl
    · split
      · rfl
      · exact raiseOnceTurn_unpolled _ _ _ _ _

theorem pollModule_unpolled (n a : Nat) (r : Option PollReads) (d : Dev) : (pollModule n a r d).unpolled = d.unpolled := by
  unfold pollModule
  dsimp only
  split
  · rfl
  · split
    · exact pollFails_unpolled n a d
    · split
      · rw [pollReadBack_unpolled]
        exact statusChanges_unpolled _ _ _ _
      · exact statusChanges_unpolled _ _ _ _

/-- The modules of a poll cycle are polled. -/
def pollsMade (n : Nat) (polls : List (Nat × Option PollReads)) (d : Dev) : Dev :=
  polls.foldl (fun d p => if (d.setOfModule p.1).isSome then pollModule n p.1 p.2 d else d) d

theorem pollsMade_unpolled (n : Nat) (polls : List (Nat × Option PollReads)) (d : Dev) : (pollsMade n polls d).unpolled = d.unpolled :=
  foldl_keeps Dev.unpolled (fun d p => by split; exacts [pollModule_unpolled _ _ _ _, rfl]) polls d

/-- A poll cycle is closed. -/
def pollClosed (d : Dev) : Dev :=
  { d with twb := { d.twb with pollTurn := d.wheel.turn, sincePoll := 0, arbRun := 0, busErrRun := 0, abandoned := [] } }

/-- The peer's status frame of a poll cycle. -/
def peerPolled (n : Nat) (ok : Bool) (d : Dev) : Dev :=
  if !bit (d.mb n 5) 3 then d
  else if ok then
    let was := d.twb.peerLost
    let d := { d with twb := { d.twb with peerStreak := 0, peerLost := false } }
    if was then d.raise 0x1008 0 0 else d
  else
    let d := { d with twb := { d.twb with peerStreak := d.twb.peerStreak + 1 } }
    if 3 ≤ d.twb.peerStreak && !d.twb.peerLost then Dev.raise { d with twb := { d.twb with peerLost := true } } 0x1008 1 0 else d

theorem pollCycle_idle (polls : List (Nat × Option PollReads)) (peer : Bool)
    (h : d.modSet.filter (fun n => d.plane.mgmtRunning && d.pollDue n) = none) : pollCycle polls peer d = d := by
  unfold pollCycle
  rw [h]

theorem pollCycle_due (polls : List (Nat × Option PollReads)) (peer : Bool)
    (h : d.modSet.filter (fun n => d.plane.mgmtRunning && d.pollDue n) = some n) : pollCycle polls peer d =
      peerPolled n (peer && !(pollsMade n polls d).twb.abandoned.contains (0x70 + bits ((pollsMade n polls d).mb n 5) 0 3))
        (pollClosed (pollsMade n polls d)) := by
  unfold pollCycle
  rw [h]
  rfl

/-- What a closed cycle reports beside the peer. -/
def Dev.pollReport (d : Dev) : BitVec 48 × Nat × Nat × Nat × List Nat :=
  (d.twb.pollTurn, d.twb.sincePoll, d.twb.arbRun, d.twb.busErrRun, d.twb.abandoned)

theorem peerPolled_report (n : Nat) (ok : Bool) (d : Dev) : (peerPolled n ok d).pollReport = d.pollReport := by
  unfold peerPolled Dev.pollReport
  dsimp only
  (repeat' split) <;> simp

theorem peerPolled_answered (h : bit (d.mb n 5) 3 = true) :
    (peerPolled n true d).twb.peerStreak = 0 ∧ (peerPolled n true d).twb.peerLost = false := by
  unfold peerPolled
  rw [if_neg (by simp [h]), if_pos rfl]
  dsimp only
  split <;> simp

theorem pollCycle_effect (polls : List (Nat × Option PollReads)) (peer : Bool)
    (h : d.modSet.filter (fun n => d.plane.mgmtRunning && d.pollDue n) = some n) :
    (pollCycle polls peer d).pollReport = (d.wheel.turn, 0, 0, 0, []) ∧
    (bit (d.mb n 5) 3 = true → peer = true → (0x70 + bits (d.mb n 5) 0 3) ∉ d.twb.abandoned →
      (pollCycle polls peer d).twb.peerStreak = 0 ∧ (pollCycle polls peer d).twb.peerLost = false) := by
  have hpolls := pollsMade_unpolled n polls d
  have hwheel : (pollsMade n polls d).wheel = d.wheel := congrArg Prod.fst hpolls
  have hslots : (pollsMade n polls d).slots = d.slots := congrArg (fun x => x.2.1) hpolls
  have habandoned : (pollsMade n polls d).twb.abandoned = d.twb.abandoned := congrArg (fun x => x.2.2) hpolls
  have hmb : (pollsMade n polls d).mb n 5 = d.mb n 5 := by
    unfold Dev.mb Dev.slot
    rw [hslots]
  rw [pollCycle_due polls peer h, peerPolled_report, habandoned, hmb]
  refine ⟨congrArg (fun w : Wheel => (w.turn, 0, 0, 0, [])) hwheel, fun hbit hpeer hno => ?_⟩
  rw [hpeer, show (true && !d.twb.abandoned.contains (0x70 + bits (d.mb n 5) 0 3)) = true by simp [hno]]
  exact peerPolled_answered ((congrArg (fun w => bit w 3) hmb).trans hbit)
end

/-! ### The obligation -/

/-- Settles O59: each event is its model function, whose branches the conditions pick. -/
theorem twoWireEvents : Obligations.TwoWireEvents := by
  unfold Obligations.TwoWireEvents
  refine ⟨?_, ?_, ?_, ?_, ?_⟩
  · intro s peer
    obtain ⟨hreread, hdiscard⟩ := mailboxes s peer
    refine ⟨hreread, hdiscard, fun f => ?_, fun n h => ⟨_, rfl, mboxRead_response_effect s.dev peer n h⟩,
      fun n h => ⟨_, rfl, mboxRead_status_effect s.dev peer n h⟩⟩
    have h := mailboxFrames s peer f
    cases f <;> exact h
  · intro s
    refine ⟨fun h => .congr rfl (alertResponse_idle h), fun h => ⟨_, rfl, ?_⟩, fun t => ⟨fun h => ?_, fun h hfree => ?_⟩,
      fun h => .congr rfl (pulseCollision_idle h), fun h => ⟨_, rfl, ?_⟩, fun peer ctl a h => ?_, fun a => ?_,
      fun peer ctl a h => ?_, fun a => ⟨_, rfl, twbAbort_controller_effect s.dev a⟩,
      fun cleared a => ⟨_, rfl, busClear_effect s.dev a cleared⟩, fun served a => ⟨_, rfl, arbitrationLost_effect s.dev a served⟩⟩
    · rw [alertResponse_answers h]
      exact ⟨rfl, rfl, rfl, rfl⟩
    · refine .congr rfl (attentionPulse_held (h.imp_right ?_))
      rintro ⟨l, hl, hlt⟩
      exact pulseFree_false hl hlt
    · refine ⟨_, .congr rfl (attentionPulse_sent h (pulseFree_true hfree)), ?_⟩
      obtain ⟨c, hc⟩ := twbCount_frame
        ({ s.dev.atTime t with twb := { s.dev.twb with pulseDue := false, lastPulse := some (s.dev.atTime t).now } } : Dev) 20
      rw [hc]
      exact ⟨rfl, rfl, rfl⟩
    · rw [pulseCollision_due h]
      exact ⟨h, rfl⟩
    · exact ⟨_, .congr rfl ((twbTimeout_eq s.dev a peer ctl).trans (if_neg (not_controller h))),
        frameError_target s.dev peer 5 (congrArg TwoWire.sansBoxes (timedOut_twb s.dev peer) :)⟩
    · exact ⟨_, .congr rfl ((twbTimeout_eq s.dev a true true).trans (if_pos rfl)), rfl, rfl, mem_abandon _ a,
        (congrArg TwoWire.boxA (timedOut_twb s.dev true) :)⟩
    · exact ⟨_, .congr rfl (twbAbort_target s.dev a h), frameError_target s.dev peer 6 rfl⟩
  · intro s a
    refine ⟨fun h => ⟨fun r => .congr rfl (moduleDiscovery_off h r), fun k => ?_⟩, .congr rfl moduleDiscovery_none,
      fun n mode status hset hm => ⟨_, rfl, moduleDiscovery_effect hset hm mode status⟩, fun n k hset h => ?_,
      fun n hset hm hp hv hw hpend => ⟨⟨_, rfl, moduleWrite_all_effect hset hm hp hv hw hpend⟩,
        fun c => ⟨_, rfl, moduleWrite_refused_effect hset hm hp hv hw hpend c⟩⟩⟩
    · cases hset : s.dev.setOfModule a with
      | none => exact .congr rfl (moduleWrite_off hset k)
      | some n =>
        have hm := h.resolve_left (by simp [hset])
        exact .congr rfl (moduleWrite_not hset (.inr (.inr (.inr (.inr hm)))) k)
    · refine .congr rfl (moduleWrite_not hset ?_ k)
      rcases h with h | h | h | h <;> simp [h]
  · intro s peer
    refine ⟨fun h polls => .congr rfl (pollCycle_idle polls peer ?_), fun n polls hset hturn hsince => .congr rfl (pollCycle_idle polls peer ?_),
      fun n polls hset hm hdue => ⟨_, rfl, ?_⟩⟩
    · rcases h with h | h
      · rw [h]
        rfl
      · rw [h]
        cases s.dev.modSet <;> rfl
    · have : s.dev.pollDue n = false := by
        unfold Dev.pollDue
        rw [beq_false_of_ne hturn, decide_eq_false (Nat.not_le.2 hsince)]
        rfl
      rw [hset]
      simp [Option.filter, this]
    · have hdue' : s.dev.pollDue n = true := by
        rcases hdue with hdue | hdue <;> simp [Dev.pollDue, hdue]
      obtain ⟨hreport, hpeer⟩ := pollCycle_effect (d := s.dev) (n := n) polls peer (by rw [hset]; simp [Option.filter, hm, hdue'])
      simp only [Dev.pollReport, Prod.mk.injEq] at hreport
      obtain ⟨hturn, hsince, harb, hbus, habandoned⟩ := hreport
      exact ⟨hturn, hsince, harb, hbus, habandoned, hpeer⟩
  · intro d n a r
    refine ⟨pollModule_absent, fun hp h hlt => ?_, fun hp h hle => ?_, fun p hp hr h => ?_⟩
    · rw [pollModule_failed hp h]
      exact pollFails_held hlt
    · rw [pollModule_failed hp h, pollFails_lost hle]
      exact ⟨rfl, rfl, rfl⟩
    · rw [hr]
      have hread := pollModule_read (n := n) (p := p) hp h
      exact ⟨(congrArg Module.present hread).trans hp, (congrArg Module.status hread :), (congrArg Module.vin hread :),
        (congrArg Module.iOut hread :), (congrArg Module.vOut hread :), (congrArg Module.temp hread :), (congrArg Module.age hread :),
        (congrArg Module.streak hread :), (congrArg Module.lastFailed hread :)⟩

end Sys2Proof.Machine
end

/-! ## The inner code of the shared SRAM (R394) -/

section
/-! PROOF. The sum of the places and the parity of a codeword are linear over XOR. A codeword's check bits cancel the sum of its data
bits and its parity bit the parity; so one flipped bit leaves its own place as the sum, and two flipped bits leave an even parity and
a sum that is not 0. -/

namespace Sys2Proof.Machine

/-! ### Sums without a carry -/

/-- Numbers that share no bit add as they XOR. -/
theorem add_eq_xor_of_disjoint (x y : Nat) (h : ∀ p, (x.testBit p && y.testBit p) = false) : x + y = x ^^^ y := by
  induction x using Nat.strong_induction_on generalizing y with
  | _ x ih =>
    by_cases hx : x = 0
    · simp [hx]
    · have hhalf := ih (x / 2) (by omega) (y / 2) fun p => by rw [Nat.testBit_div_two, Nat.testBit_div_two]; exact h (p + 1)
      have hdiv : (x ^^^ y) / 2 = x / 2 ^^^ y / 2 := Nat.xor_div_two
      have hmod : (x ^^^ y) % 2 = (x + y) % 2 := Nat.xor_mod_two_eq
      have hbits := h 0
      simp only [Nat.testBit_zero, Bool.and_eq_false_iff, decide_eq_false_iff_not] at hbits
      omega

/-! ### Bits laid out at places -/

theorem testBit_low_mul (w p q : Nat) : (w % 2 * 2 ^ p).testBit q = (decide (p = q) && decide (w % 2 = 1)) := by
  rcases Nat.mod_two_eq_zero_or_one w with h | h
  · simp [h]
  · rw [h, Nat.one_mul, Nat.testBit_two_pow]
    simp

theorem testBit_spreadBits_mem {ps : List Nat} (hps : ps.Pairwise (· < ·)) {w q : Nat} (h : (spreadBits ps w).testBit q = true) : q ∈ ps := by
  induction ps generalizing w q with
  | nil => simp [spreadBits] at h
  | cons p ps ih =>
    obtain ⟨hp, hps⟩ := List.pairwise_cons.1 hps
    have hdisjoint : ∀ r, ((w % 2 * 2 ^ p).testBit r && (spreadBits ps (w / 2)).testBit r) = false := by
      intro r
      rw [testBit_low_mul]
      by_cases hr : p = r
      · have hrest : (spreadBits ps (w / 2)).testBit r = false :=
          Bool.eq_false_iff.2 fun ht => Nat.lt_irrefl _ (hr ▸ hp r (ih hps ht))
        simp [hrest]
      · simp [hr]
    rw [spreadBits, add_eq_xor_of_disjoint _ _ hdisjoint, Nat.testBit_xor, testBit_low_mul] at h
    by_cases hq : p = q
    · exact hq ▸ List.mem_cons_self ..
    · simp only [hq, decide_false, Bool.false_and, Bool.false_bne] at h
      exact List.mem_cons_of_mem _ (ih hps h)

theorem spreadBits_cons {p : Nat} {ps : List Nat} (hps : (p :: ps).Pairwise (· < ·)) (w : Nat) :
    spreadBits (p :: ps) w = w % 2 * 2 ^ p ^^^ spreadBits ps (w / 2) := by
  obtain ⟨hp, hps⟩ := List.pairwise_cons.1 hps
  refine add_eq_xor_of_disjoint _ _ fun r => ?_
  rw [testBit_low_mul]
  by_cases hr : p = r
  · have hrest : (spreadBits ps (w / 2)).testBit r = false :=
      Bool.eq_false_iff.2 fun ht => Nat.lt_irrefl _ (hr ▸ hp r (testBit_spreadBits_mem hps ht))
    simp [hrest]
  · simp [hr]

theorem gatherBits_congr {ps : List Nat} {c e : Nat} (h : ∀ p ∈ ps, c.testBit p = e.testBit p) : gatherBits ps c = gatherBits ps e := by
  induction ps with
  | nil => rfl
  | cons p ps ih =>
    rw [gatherBits, gatherBits, h p (List.mem_cons_self ..), ih fun q hq => h q (List.mem_cons_of_mem _ hq)]

/-- What is laid out at places is read back. -/
theorem gatherBits_spreadBits {ps : List Nat} (hps : ps.Pairwise (· < ·)) (w : Nat) :
    gatherBits ps (spreadBits ps w) = w % 2 ^ ps.length := by
  induction ps generalizing w with
  | nil => simp [gatherBits, Nat.mod_one]
  | cons p ps ih =>
    obtain ⟨hp, hps'⟩ := List.pairwise_cons.1 hps
    have hrest : (spreadBits ps (w / 2)).testBit p = false :=
      Bool.eq_false_iff.2 fun ht => Nat.lt_irrefl _ (hp p (testBit_spreadBits_mem hps' ht))
    have hhead : (spreadBits (p :: ps) w).testBit p = decide (w % 2 = 1) := by
      rw [spreadBits_cons hps, Nat.testBit_xor, testBit_low_mul, hrest]
      simp
    have htail : gatherBits ps (spreadBits (p :: ps) w) = gatherBits ps (spreadBits ps (w / 2)) := by
      refine gatherBits_congr fun q hq => ?_
      have hne : p ≠ q := Nat.ne_of_lt (hp q hq)
      rw [spreadBits_cons hps, Nat.testBit_xor, testBit_low_mul]
      simp [hne]
    rw [gatherBits, hhead, htail, ih hps', List.length_cons, Nat.pow_succ']
    have hmod := Nat.mod_mul (x := w) (a := 2) (b := 2 ^ ps.length)
    rcases Nat.mod_two_eq_zero_or_one w with h | h <;> simp [h, b2n] at hmod ⊢ <;> omega

/-! ### The sum of places and the parity over XOR -/

theorem placeSum_xor (l : List Nat) (a b s t : Nat) :
    l.foldl (fun s p => if (a ^^^ b).testBit p then s ^^^ p else s) (s ^^^ t) =
      l.foldl (fun s p => if a.testBit p then s ^^^ p else s) s ^^^ l.foldl (fun s p => if b.testBit p then s ^^^ p else s) t := by
  induction l generalizing s t with
  | nil => rfl
  | cons p l ih =>
    have hstep : (if (a ^^^ b).testBit p then (s ^^^ t) ^^^ p else s ^^^ t) =
        (if a.testBit p then s ^^^ p else s) ^^^ (if b.testBit p then t ^^^ p else t) := by
      rw [Nat.testBit_xor]
      cases a.testBit p <;> cases b.testBit p
      · rfl
      · exact Nat.xor_assoc s t p
      · exact (Nat.xor_right_comm s t p)
      · simp only [bne_self_eq_false, Bool.false_eq_true, if_false, if_true]
        rw [Nat.xor_assoc s p, ← Nat.xor_assoc p, Nat.xor_comm p t, Nat.xor_assoc t, Nat.xor_self, Nat.xor_zero]
    rw [List.foldl_cons, List.foldl_cons, List.foldl_cons, hstep, ih]

theorem hammingSum_xor (a b : Nat) : hammingSum (a ^^^ b) = hammingSum a ^^^ hammingSum b := placeSum_xor _ a b 0 0

theorem hammingSum_zero : hammingSum 0 = 0 := by
  have h := hammingSum_xor 0 0
  rwa [Nat.xor_self, Nat.xor_self] at h

theorem parity_xor (l : List Nat) (a b : Nat) (s t : Bool) :
    l.foldl (fun s p => s != (a ^^^ b).testBit p) (s != t) =
      (l.foldl (fun s p => s != a.testBit p) s != l.foldl (fun s p => s != b.testBit p) t) := by
  induction l generalizing s t with
  | nil => rfl
  | cons p l ih =>
    have hstep : ((s != t) != (a ^^^ b).testBit p) = ((s != a.testBit p) != (t != b.testBit p)) := by
      rw [Nat.testBit_xor]
      cases s <;> cases t <;> cases a.testBit p <;> cases b.testBit p <;> rfl
    rw [List.foldl_cons, List.foldl_cons, List.foldl_cons, hstep, ih]

theorem oddParity_xor (a b : Nat) : oddParity (a ^^^ b) = (oddParity a != oddParity b) := parity_xor _ a b false false

theorem oddParity_zero : oddParity 0 = false := by
  have h := oddParity_xor 0 0
  rwa [Nat.xor_self, bne_self_eq_false] at h

theorem placeSum_two_pow {l : List Nat} (hl : l.Nodup) (k s : Nat) :
    l.foldl (fun s p => if (2 ^ k).testBit p then s ^^^ p else s) s = if k ∈ l then s ^^^ k else s := by
  induction l generalizing s with
  | nil => rfl
  | cons p l ih =>
    obtain ⟨hp, hl⟩ := List.nodup_cons.1 hl
    rw [List.foldl_cons, ih hl, Nat.testBit_two_pow]
    by_cases h : k = p
    · subst h
      simp [hp]
    · simp [h]

theorem hammingSum_two_pow {k : Nat} (hk : k < 72) : hammingSum (2 ^ k) = k :=
  (placeSum_two_pow List.nodup_range k 0).trans ((if_pos (List.mem_range.2 hk)).trans (Nat.zero_xor k))

theorem parity_two_pow {l : List Nat} (hl : l.Nodup) (k : Nat) (s : Bool) :
    l.foldl (fun s p => s != (2 ^ k).testBit p) s = (s != decide (k ∈ l)) := by
  induction l generalizing s with
  | nil => simp
  | cons p l ih =>
    obtain ⟨hp, hl⟩ := List.nodup_cons.1 hl
    rw [List.foldl_cons, ih hl, Nat.testBit_two_pow]
    by_cases h : k = p
    · subst h
      simp [hp]
    · simp [h]

theorem oddParity_two_pow {k : Nat} (hk : k < 72) : oddParity (2 ^ k) = true :=
  (parity_two_pow List.nodup_range k false).trans (by simp [hk])

theorem placeSum_lt {l : List Nat} (hl : ∀ p ∈ l, p < 128) (c : Nat) {s : Nat} (hs : s < 128) :
    l.foldl (fun s p => if c.testBit p then s ^^^ p else s) s < 128 := by
  induction l generalizing s with
  | nil => exact hs
  | cons p l ih =>
    refine ih (fun q hq => hl q (List.mem_cons_of_mem _ hq)) ?_
    dsimp only
    split
    · exact Nat.xor_lt_two_pow (n := 7) hs (hl p (List.mem_cons_self ..))
    · exact hs

theorem hammingSum_lt (c : Nat) : hammingSum c < 128 :=
  placeSum_lt (fun p hp => Nat.lt_trans (List.mem_range.1 hp) (by decide)) c (by decide)

/-! ### A codeword (R394) -/

/-- The check bits of a sum of places, at the powers of two. -/
def checkBits (s : Nat) : Nat := (List.range 7).foldl (fun a j => a + b2n (s.testBit j) * 2 ^ (2 ^ j)) 0

/-- The places of the check bits. -/
def checkPlaces : List Nat := [1, 2, 4, 8, 16, 32, 64]

theorem b2n_testBit (s j : Nat) : b2n (s.testBit j) = s / 2 ^ j % 2 := by
  rw [Nat.testBit_eq_decide_div_mod_eq]
  rcases Nat.mod_two_eq_zero_or_one (s / 2 ^ j) with h | h <;> simp [h, b2n]

theorem checkSum_eq (s : Nat) (n j a : Nat) :
    (List.range' j n).foldl (fun a j => a + b2n (s.testBit j) * 2 ^ (2 ^ j)) a =
      a + spreadBits ((List.range' j n).map (2 ^ ·)) (s / 2 ^ j) := by
  induction n generalizing j a with
  | zero => rfl
  | succ n ih =>
    rw [List.range'_succ, List.foldl_cons, ih, List.map_cons, spreadBits, b2n_testBit, Nat.div_div_eq_div_mul, ← Nat.pow_succ,
      Nat.add_assoc]

theorem checkBits_eq (s : Nat) : checkBits s = spreadBits checkPlaces s := by
  have h := checkSum_eq s 7 0 0
  rw [Nat.pow_zero, Nat.div_one, Nat.zero_add] at h
  exact h

theorem checkPlaces_sorted : checkPlaces.Pairwise (· < ·) := by decide

theorem dataPlaces_sorted : dataPlaces.Pairwise (· < ·) := by decide

theorem hammingSum_low_mul (w : Nat) {p : Nat} (hp : p < 72) : hammingSum (w % 2 * 2 ^ p) = w % 2 * p := by
  rcases Nat.mod_two_eq_zero_or_one w with h | h
  · rw [h, Nat.zero_mul, Nat.zero_mul, hammingSum_zero]
  · rw [h, Nat.one_mul, Nat.one_mul, hammingSum_two_pow hp]

/-- The XOR of the places whose bits are set. -/
def placesOf : List Nat → Nat → Nat
  | [], _ => 0
  | p :: ps, w => w % 2 * p ^^^ placesOf ps (w / 2)

theorem hammingSum_spreadBits {ps : List Nat} (hps : ps.Pairwise (· < ·)) (hlt : ∀ p ∈ ps, p < 72) (w : Nat) :
    hammingSum (spreadBits ps w) = placesOf ps w := by
  induction ps generalizing w with
  | nil => exact hammingSum_zero
  | cons p ps ih =>
    rw [spreadBits_cons hps, hammingSum_xor, hammingSum_low_mul w (hlt p (List.mem_cons_self ..)),
      ih (List.pairwise_cons.1 hps).2 fun q hq => hlt q (List.mem_cons_of_mem _ hq)]
    rfl

theorem placesOf_checkPlaces : ∀ s < 128, placesOf checkPlaces s = s := by decide

theorem checkBits_sum {s : Nat} (hs : s < 128) : hammingSum (checkBits s) = s := by
  rw [checkBits_eq, hammingSum_spreadBits checkPlaces_sorted (by decide), placesOf_checkPlaces s hs]

theorem checkPlaces_disjoint : ∀ p ∈ 0 :: dataPlaces, p ∉ checkPlaces := by decide

theorem checkBits_testBit (s : Nat) {p : Nat} (hp : p ∉ checkPlaces) : (checkBits s).testBit p = false := by
  rw [checkBits_eq]
  exact Bool.eq_false_iff.2 fun h => hp (testBit_spreadBits_mem checkPlaces_sorted h)

theorem places_lt : ∀ p ∈ dataPlaces ++ checkPlaces, p < 72 := by decide

/-- The data bits of a word in their places. -/
def dataBits (w : BitVec 64) : Nat := spreadBits dataPlaces w.toNat

theorem dataBits_testBit (w : BitVec 64) {p : Nat} (hp : p ∉ dataPlaces) : (dataBits w).testBit p = false :=
  Bool.eq_false_iff.2 fun h => hp (testBit_spreadBits_mem dataPlaces_sorted h)

/-- The data bits with their check bits. -/
def checked (w : BitVec 64) : Nat := dataBits w ^^^ checkBits (hammingSum (dataBits w))

theorem data_add_checks (w : BitVec 64) : dataBits w + checkBits (hammingSum (dataBits w)) = checked w := by
  refine add_eq_xor_of_disjoint _ _ fun p => ?_
  by_cases hp : p ∈ dataPlaces
  · rw [checkBits_testBit _ (checkPlaces_disjoint p (List.mem_cons_of_mem _ hp)), Bool.and_false]
  · rw [dataBits_testBit w hp, Bool.false_and]

theorem checked_sum (w : BitVec 64) : hammingSum (checked w) = 0 := by
  rw [checked, hammingSum_xor, checkBits_sum (hammingSum_lt _), Nat.xor_self]

theorem zero_not_data : 0 ∉ dataPlaces := by decide

theorem checked_testBit_zero (w : BitVec 64) : (checked w).testBit 0 = false := by
  rw [checked, Nat.testBit_xor, dataBits_testBit w zero_not_data, checkBits_testBit _ (checkPlaces_disjoint 0 (List.mem_cons_self ..))]
  rfl

/-- The codeword of a word as a number. -/
def codeword (w : BitVec 64) : Nat := checked w ^^^ b2n (oddParity (checked w))

theorem b2n_low (b : Bool) (p : Nat) : (b2n b).testBit p = (b && decide (p = 0)) := by
  cases b
  · simp [b2n]
  · have h := @Nat.testBit_two_pow 0 p
    simpa [b2n, eq_comm] using h

theorem checked_add_parity (w : BitVec 64) : checked w + b2n (oddParity (checked w)) = codeword w := by
  refine add_eq_xor_of_disjoint _ _ fun p => ?_
  rw [b2n_low]
  by_cases hp : p = 0
  · rw [hp, checked_testBit_zero, Bool.false_and]
  · simp [hp]

theorem codeword_testBit_data (w : BitVec 64) {p : Nat} (hp : p ∈ dataPlaces) : (codeword w).testBit p = (dataBits w).testBit p := by
  have hp0 : p ≠ 0 := fun h => zero_not_data (h ▸ hp)
  rw [codeword, checked, Nat.testBit_xor, Nat.testBit_xor, checkBits_testBit _ (checkPlaces_disjoint p (List.mem_cons_of_mem _ hp)), b2n_low]
  simp [hp0]

theorem codeword_lt (w : BitVec 64) : codeword w < 2 ^ 72 := by
  refine Nat.lt_pow_two_of_testBit _ fun p hp => ?_
  have hdata : p ∉ dataPlaces := fun h => Nat.not_le.2 (places_lt p (List.mem_append_left _ h)) hp
  have hcheck : p ∉ checkPlaces := fun h => Nat.not_le.2 (places_lt p (List.mem_append_right _ h)) hp
  have hp0 : p ≠ 0 := by omega
  rw [codeword, checked, Nat.testBit_xor, Nat.testBit_xor, dataBits_testBit w hdata, checkBits_testBit _ hcheck, b2n_low]
  simp [hp0]

theorem encodeWord_toNat (w : BitVec 64) : (encodeWord w).toNat = codeword w := by
  have h : encodeWord w = BitVec.ofNat 72 (dataBits w + checkBits (hammingSum (dataBits w)) +
    b2n (oddParity (dataBits w + checkBits (hammingSum (dataBits w))))) := rfl
  rw [h, data_add_checks, checked_add_parity, BitVec.toNat_ofNat, Nat.mod_eq_of_lt (codeword_lt w)]

theorem hammingSum_b2n (b : Bool) : hammingSum (b2n b) = 0 := by
  cases b
  · exact hammingSum_zero
  · exact hammingSum_two_pow (k := 0) (by decide)

theorem oddParity_b2n (b : Bool) : oddParity (b2n b) = b := by
  cases b
  · exact oddParity_zero
  · exact oddParity_two_pow (k := 0) (by decide)

theorem codeword_sum (w : BitVec 64) : hammingSum (codeword w) = 0 := by
  rw [codeword, hammingSum_xor, checked_sum, hammingSum_b2n, Nat.xor_self]

theorem codeword_parity (w : BitVec 64) : oddParity (codeword w) = false := by
  rw [codeword, oddParity_xor, oddParity_b2n, bne_self_eq_false]

theorem codeword_value (w : BitVec 64) : BitVec.ofNat 64 (gatherBits dataPlaces (codeword w)) = w := by
  have hlength : dataPlaces.length = 64 := by decide
  rw [gatherBits_congr fun p hp => codeword_testBit_data w hp, dataBits, gatherBits_spreadBits dataPlaces_sorted, hlength,
    Nat.mod_eq_of_lt w.isLt, BitVec.ofNat_toNat, BitVec.setWidth_eq]

/-! ### What the decoder makes of flipped bits -/

theorem decodeWord_even {c : BitVec 72} (h : oddParity c.toNat = false) :
    decodeWord c = ⟨BitVec.ofNat 64 (gatherBits dataPlaces c.toNat), false, hammingSum c.toNat != 0⟩ := by
  unfold decodeWord
  exact if_neg (Bool.eq_false_iff.1 h)

theorem decodeWord_odd {c : BitVec 72} (h : oddParity c.toNat = true) (hs : hammingSum c.toNat < 72) :
    decodeWord c = ⟨BitVec.ofNat 64 (gatherBits dataPlaces (c.toNat ^^^ 2 ^ hammingSum c.toNat)), true, false⟩ := by
  unfold decodeWord
  exact (if_pos h).trans (if_pos hs)

theorem flip_toNat (c : BitVec 72) {k : Nat} (hk : k < 72) : (c ^^^ BitVec.ofNat 72 (2 ^ k)).toNat = c.toNat ^^^ 2 ^ k := by
  rw [BitVec.toNat_xor, BitVec.toNat_ofNat, Nat.mod_eq_of_lt (Nat.pow_lt_pow_right (by decide) hk)]

/-- The inner code gives every word back. -/
theorem decodeWord_encodeWord (w : BitVec 64) : decodeWord (encodeWord w) = ⟨w, false, false⟩ := by
  have hn := encodeWord_toNat w
  rw [decodeWord_even (by rw [hn, codeword_parity]), hn, codeword_value, codeword_sum]
  rfl

/-- It corrects every single flipped bit. -/
theorem decodeWord_one_flip (w : BitVec 64) {k : Nat} (hk : k < 72) :
    decodeWord (encodeWord w ^^^ BitVec.ofNat 72 (2 ^ k)) = ⟨w, true, false⟩ := by
  have hn : (encodeWord w ^^^ BitVec.ofNat 72 (2 ^ k)).toNat = codeword w ^^^ 2 ^ k := by rw [flip_toNat _ hk, encodeWord_toNat]
  have hparity : oddParity (codeword w ^^^ 2 ^ k) = true := by rw [oddParity_xor, codeword_parity, oddParity_two_pow hk]; rfl
  have hsum : hammingSum (codeword w ^^^ 2 ^ k) = k := by
    rw [hammingSum_xor, codeword_sum, hammingSum_two_pow hk, Nat.zero_xor]
  rw [decodeWord_odd (by rw [hn, hparity]) (by rw [hn, hsum]; exact hk), hn, hsum, Nat.xor_assoc, Nat.xor_self, Nat.xor_zero, codeword_value]

/-- It detects every two flipped bits. -/
theorem decodeWord_two_flips (w : BitVec 64) {j k : Nat} (hj : j < 72) (hk : k < 72) (hne : j ≠ k) :
    (decodeWord (encodeWord w ^^^ BitVec.ofNat 72 (2 ^ j) ^^^ BitVec.ofNat 72 (2 ^ k))).fixed = false ∧
    (decodeWord (encodeWord w ^^^ BitVec.ofNat 72 (2 ^ j) ^^^ BitVec.ofNat 72 (2 ^ k))).double = true := by
  have hn : (encodeWord w ^^^ BitVec.ofNat 72 (2 ^ j) ^^^ BitVec.ofNat 72 (2 ^ k)).toNat = codeword w ^^^ 2 ^ j ^^^ 2 ^ k := by
    rw [flip_toNat _ hk, flip_toNat _ hj, encodeWord_toNat]
  have hparity : oddParity (codeword w ^^^ 2 ^ j ^^^ 2 ^ k) = false := by
    rw [oddParity_xor, oddParity_xor, codeword_parity, oddParity_two_pow hj, oddParity_two_pow hk]
    rfl
  have hsum : hammingSum (codeword w ^^^ 2 ^ j ^^^ 2 ^ k) = j ^^^ k := by
    rw [hammingSum_xor, hammingSum_xor, codeword_sum, hammingSum_two_pow hj, hammingSum_two_pow hk, Nat.zero_xor]
  rw [decodeWord_even (by rw [hn, hparity]), hn, hsum]
  exact ⟨rfl, bne_iff_ne.2 fun h => hne (Nat.xor_eq_zero_iff.1 h)⟩

end Sys2Proof.Machine
end

/-! ## O57: fences, lanes, and the memory's lines and banks -/

section
/-! PROOF. A fence of a unit leaves the shared SRAM as it is, and a change of a stored line leaves the scrubber's counts; what a read of a
line depends on is the stored words, the poison and the banks out of service. -/

namespace Sys2Proof.Machine

/-! ### The fence of a unit (R382, R385, R389) -/

@[simp] theorem mgmtHalt_aside (d : Dev) :
    (mgmtHalt d).sitter = d.sitter ∧ (mgmtHalt d).sram = d.sram ∧ (mgmtHalt d).sag.standing = d.sag.standing := by
  unfold mgmtHalt
  dsimp only
  split <;> split <;> simp

@[simp] theorem unitSafe_aside (u : Nat) (d : Dev) :
    (unitSafe u d).sitter = d.sitter ∧ (unitSafe u d).sram = d.sram ∧ (unitSafe u d).sag.standing = d.sag.standing := by
  unfold unitSafe
  dsimp only
  (repeat' split) <;> simp

/-- The saggars as a first fence of a unit leaves them, but for what is in them of the time. -/
def unitFenced (u cause : Nat) (d : Dev) : List Nat × Nat × List (Nat × Nat) :=
  (sortNat (u :: d.sag.fenced), satAdd 32 d.sag.fences 1, tset 0 d.sag.cause u cause)

theorem fenceUnit_again {u : Nat} (cause : Nat) {d : Dev} (h : u ∈ d.sag.fenced) :
    fenceUnit u cause d = { d with sag := { d.sag with fences := satAdd 32 d.sag.fences 1 } } := by
  unfold fenceUnit
  exact if_pos (List.contains_iff_mem.2 h)

/-- The first fence of a unit, and what it sets going. -/
theorem fenceUnit_first {u : Nat} (cause : Nat) {d : Dev} (h : u ∉ d.sag.fenced) :
    ∃ e : Dev, fenceUnit u cause d = unitSafe u e ∧ e.sram = d.sram ∧ e.sag.standing = unitFenced u cause d := by
  unfold fenceUnit
  dsimp only
  rw [if_neg fun hc => h (List.contains_iff_mem.1 hc)]
  refine ⟨_, rfl, by simp, ?_⟩
  rw [Dev.raise_standing]
  rfl

theorem fenceUnit_first_standing {u : Nat} (cause : Nat) {d : Dev} (h : u ∉ d.sag.fenced) :
    (fenceUnit u cause d).sag.standing = unitFenced u cause d := by
  obtain ⟨e, he, -, hstanding⟩ := fenceUnit_first cause h
  rw [he, (unitSafe_aside u e).2.2, hstanding]

theorem fenceUnit_sram (u cause : Nat) (d : Dev) : (fenceUnit u cause d).sram = d.sram := by
  by_cases h : u ∈ d.sag.fenced
  · rw [fenceUnit_again cause h]
  · obtain ⟨e, he, hsram, -⟩ := fenceUnit_first cause h
    rw [he, (unitSafe_aside u e).2.1, hsram]

theorem fenceUnit_fences (u cause : Nat) (d : Dev) : (fenceUnit u cause d).sag.fences = satAdd 32 d.sag.fences 1 := by
  by_cases h : u ∈ d.sag.fenced
  · rw [fenceUnit_again cause h]
  · exact congrArg (fun x => x.2.1) (fenceUnit_first_standing cause h)

theorem mem_fenceUnit {u cause v : Nat} {d : Dev} : v ∈ (fenceUnit u cause d).sag.fenced ↔ v = u ∨ v ∈ d.sag.fenced := by
  by_cases h : u ∈ d.sag.fenced
  · rw [fenceUnit_again cause h]
    exact ⟨.inr, fun hv => hv.elim (fun e => e ▸ h) id⟩
  · have hf : (fenceUnit u cause d).sag.fenced = sortNat (u :: d.sag.fenced) := congrArg Prod.fst (fenceUnit_first_standing cause h)
    rw [hf, mem_sortNat, List.mem_cons]

theorem fenceUnit_cause {u cause : Nat} {d : Dev} (h : u ∉ d.sag.fenced) : tget 0 (fenceUnit u cause d).sag.cause u = cause := by
  have hc : (fenceUnit u cause d).sag.cause = tset 0 d.sag.cause u cause := congrArg (fun x => x.2.2) (fenceUnit_first_standing cause h)
  rw [hc, tget_tset_self]

theorem fenceUnit_ledger {cause : Nat} {d : Dev} (h : 6 ∉ d.sag.fenced) : (fenceUnit 6 cause d).led.fenced = true := by
  obtain ⟨e, he, -⟩ := fenceUnit_first cause h
  rw [he]
  have hsafe : unitSafe 6 e = ledFence true e := rfl
  rw [hsafe]
  simp [ledFence]

theorem fenceUnit_cores {u cause : Nat} {d : Dev} (h : u ∉ d.sag.fenced) (hu : u ≤ 3) (hall : ∀ v < 4, v ≠ u → v ∈ d.sag.fenced) :
    (fenceUnit u cause d).plane.mgmtRunning = false := by
  obtain ⟨e, he, -, hstanding⟩ := fenceUnit_first cause h
  have hf : (coreAborts e).sag.fenced = sortNat (u :: d.sag.fenced) :=
    congrArg Prod.fst ((coreAborts_aside e).2.2.trans hstanding)
  have hcores : [0, 1, 2, 3].all (coreAborts e).sag.fenced.contains = true := by
    refine List.all_eq_true.2 fun v hv => List.contains_iff_mem.2 ?_
    rw [hf, mem_sortNat, List.mem_cons]
    by_cases hvu : v = u
    · exact .inl hvu
    · refine .inr (hall v ?_ hvu)
      simp only [List.mem_cons, List.not_mem_nil, or_false] at hv
      omega
  rw [he]
  have hsafe : unitSafe u e = mgmtHalt (coreAborts e) := (if_pos hu).trans (if_pos hcores)
  rw [hsafe, mgmtHalt_running]

/-! ### What the Hearth keeps where the Flue is fenced (R548) -/

theorem keepKnown_sram (f : Dev → Dev) (d : Dev) : (keepKnown f d).sram = (f d).sram := by
  unfold keepKnown
  dsimp only
  split <;> rfl

theorem keepKnown_standing (f : Dev → Dev) (d : Dev) : (keepKnown f d).sag.standing = (f d).sag.standing := by
  unfold keepKnown
  dsimp only
  split <;> rfl

theorem keepKnown_lanes (f : Dev → Dev) (d : Dev) : (keepKnown f d).lanes = (f d).lanes := by
  unfold keepKnown
  dsimp only
  split <;> rfl

/-- A change that does not fence the Flue. -/
theorem keepKnown_eq {f : Dev → Dev} {d : Dev} (h : 9 ∈ (f d).sag.fenced → 9 ∈ d.sag.fenced) : keepKnown f d = f d := by
  unfold keepKnown
  refine if_neg ?_
  simp only [Bool.and_eq_true, Bool.not_eq_true', List.contains_eq_mem, decide_eq_true_eq, decide_eq_false_iff_not]
  exact fun hc => hc.2 (h hc.1)

theorem keepKnown_of_standing {f : Dev → Dev} {d : Dev} (h : (f d).sag.standing = d.sag.standing) : keepKnown f d = f d := by
  have hf : (f d).sag.fenced = d.sag.fenced := congrArg Prod.fst h
  exact keepKnown_eq fun hm => hf ▸ hm

theorem flueFenced_known {d : Dev} (h : 9 ∉ d.sag.fenced) : (keepKnown (fenceUnit 9 8) d).sag.known = knownValues d := by
  have hm : 9 ∈ (fenceUnit 9 8 d).sag.fenced := mem_fenceUnit.2 (.inl rfl)
  unfold keepKnown
  exact congrArg (fun e : Dev => e.sag.known) (if_pos (by simp [hm, h]))

theorem flueFenced_standing (d : Dev) : 9 ∈ (keepKnown (fenceUnit 9 8) d).sag.fenced ∧
    (keepKnown (fenceUnit 9 8) d).sag.fences = satAdd 32 d.sag.fences 1 ∧
    (9 ∉ d.sag.fenced → tget 0 (keepKnown (fenceUnit 9 8) d).sag.cause 9 = 8) := by
  have hstanding := keepKnown_standing (fenceUnit 9 8) d
  have hfenced : (keepKnown (fenceUnit 9 8) d).sag.fenced = (fenceUnit 9 8 d).sag.fenced := congrArg Prod.fst hstanding
  have hfences : (keepKnown (fenceUnit 9 8) d).sag.fences = (fenceUnit 9 8 d).sag.fences := congrArg (fun x => x.2.1) hstanding
  have hcause : (keepKnown (fenceUnit 9 8) d).sag.cause = (fenceUnit 9 8 d).sag.cause := congrArg (fun x => x.2.2) hstanding
  rw [hfenced, hfences, hcause]
  exact ⟨mem_fenceUnit.2 (.inl rfl), fenceUnit_fences 9 8 d, fenceUnit_cause⟩

/-! ### The banks (R400) -/

section
variable {d : Dev} {b : Nat}

theorem bankTrouble_down (h : d.bankDown b = true) : bankTrouble b d = d := by
  unfold bankTrouble
  exact if_pos h

/-- A bank is in trouble again within 1,024 turns of a rebuild's end. -/
def Dev.bankAgain (d : Dev) (b : Nat) : Bool :=
  d.sram.rebuildEnd.any fun p => p.1 == b && decide ((d.wheel.turn - p.2).toNat ≤ 1024)

theorem bankAgain_iff : d.bankAgain b = true ↔ ∃ t, (b, t) ∈ d.sram.rebuildEnd ∧ (d.wheel.turn - t).toNat ≤ 1024 := by
  unfold Dev.bankAgain
  rw [List.any_eq_true]
  constructor
  · rintro ⟨⟨c, t⟩, hm, h⟩
    obtain ⟨hc, ht⟩ := Bool.and_eq_true_iff.1 h
    exact ⟨t, eq_of_beq hc ▸ hm, of_decide_eq_true ht⟩
  · rintro ⟨t, hm, ht⟩
    exact ⟨(b, t), hm, Bool.and_eq_true_iff.2 ⟨beq_self_eq_true b, decide_eq_true ht⟩⟩

theorem bankTrouble_again (h : d.bankDown b = false) (hagain : d.bankAgain b = true) : bankTrouble b d =
    if d.sram.retired.isEmpty then
      Dev.raise { d with sram := { d.sram with retired := [b], rebuiltPass := tdrop d.sram.rebuiltPass b } } 0x0C06 b 0
    else d := by
  unfold bankTrouble
  exact (if_neg (Bool.eq_false_iff.1 h)).trans (if_pos hagain)

theorem bankTrouble_rebuild (h : d.bankDown b = false) (hagain : d.bankAgain b = false) : bankTrouble b d =
    { d with sram := { d.sram with rebuilding := tinsert d.sram.rebuilding b 0, rebuiltPass := tdrop d.sram.rebuiltPass b } } := by
  unfold bankTrouble
  exact (if_neg (Bool.eq_false_iff.1 h)).trans (if_neg (Bool.eq_false_iff.1 hagain))
end

/-! ### The Flue's lanes (R391) -/

section
variable {d : Dev} {n run : Nat}

theorem flueCrcFail_retired (h : n ∈ d.lanes.retired) : flueCrcFail n run d = d := by
  unfold flueCrcFail
  exact if_pos (List.contains_iff_mem.2 h)

/-- A flit of a lane fails its CRC and is retried. -/
def flitRetried (d : Dev) (n : Nat) : Dev :=
  (Dev.tally { d with lanes := { d.lanes with retries := d.lanes.retries + 1, fails := tmod 0 d.lanes.fails n (· + 1) } }
    (if 20 ≤ n then 31 else 30) 1 1).tally (if 20 ≤ n then 31 else 30) 2 1

theorem flitRetried_fails (d : Dev) (n : Nat) : tget 0 (flitRetried d n).lanes.fails n = tget 0 d.lanes.fails n + 1 :=
  (tget_tmod_self 0 d.lanes.fails n (· + 1) :)

theorem flueCrcFail_serves (h : n ∉ d.lanes.retired) : flueCrcFail n run d =
    if 16 ≤ run ∨ 1024 < tget 0 (flitRetried d n).lanes.fails n then retireLane n (flitRetried d n) else flitRetried d n := by
  unfold flueCrcFail
  exact if_neg fun hc => h (List.contains_iff_mem.1 hc)

theorem fenceUnit_flue_lanes (cause : Nat) (d : Dev) : (fenceUnit 9 cause d).lanes = d.lanes := by
  unfold fenceUnit
  dsimp only
  split
  · rfl
  · have hsafe (e : Dev) : unitSafe 9 e = e := rfl
    rw [hsafe, raise_frame]

/-- A lane that is retired, before its direction's losses are judged. -/
def laneRetired (d : Dev) (n : Nat) : Dev :=
  ({ d with lanes := { d.lanes with retired := sortNat (n :: d.lanes.retired) } } : Dev).raise 0x0C07 n 0

theorem laneRetired_lanes (d : Dev) (n : Nat) :
    (laneRetired d n).lanes = { d.lanes with retired := sortNat (n :: d.lanes.retired) } := by
  unfold laneRetired
  rw [raise_frame]

theorem retireLane_serves (h : n ∉ d.lanes.retired) : retireLane n d =
    if 4 < laneLoss (laneRetired d n) false ∨ 2 < laneLoss (laneRetired d n) true then fenceUnit 9 8 (laneRetired d n)
    else laneRetired d n := by
  unfold retireLane
  exact if_neg fun hc => h (List.contains_iff_mem.1 hc)

theorem retireLane_lanes (h : n ∉ d.lanes.retired) : (retireLane n d).lanes =
    { d.lanes with retired := sortNat (n :: d.lanes.retired) } := by
  rw [retireLane_serves h, ← laneRetired_lanes]
  split
  · exact fenceUnit_flue_lanes _ _
  · rfl

theorem laneRetired_fenced (d : Dev) (n : Nat) : (laneRetired d n).sag.fenced = d.sag.fenced :=
  congrArg Prod.fst (Dev.raise_standing _ _ _ _)

/-- The first lane that is lost fences nothing. -/
theorem retireLane_first (h : d.lanes.retired = []) : (retireLane n d).sag.fenced = d.sag.fenced := by
  have hloss (down : Bool) : laneLoss (laneRetired d n) down ≤ 1 := by
    unfold laneLoss
    rw [laneRetired_lanes, h]
    exact List.length_filter_le _ _
  have h0 := hloss false
  have h1 := hloss true
  rw [retireLane_serves (by simp [h]), if_neg (by omega), laneRetired_fenced]

end

/-! ### Stored lines (R393, R396) -/

section
variable {d e : Dev} {b i k j : Nat}

theorem lineKey_inj (hi : i < 8192) (hj : j < 8192) (h : lineKey k j = lineKey b i) : k = b ∧ j = i := by
  unfold lineKey at h
  omega

theorem storedLine_modLine_self (d : Dev) (b i : Nat) (f : SramLine → SramLine) : (d.modLine b i f).storedLine b i = f (d.storedLine b i) :=
  tget_tmod_self ..

theorem storedLine_modLine_key_ne (d : Dev) (h : lineKey k j ≠ lineKey b i) (f : SramLine → SramLine) :
    (d.modLine b i f).storedLine k j = d.storedLine k j := tget_tmod_ne _ _ _ h

theorem storedLine_modLine_ne (d : Dev) (hi : i < 8192) (hj : j < 8192) (h : ¬(k = b ∧ j = i)) (f : SramLine → SramLine) :
    (d.modLine b i f).storedLine k j = d.storedLine k j := storedLine_modLine_key_ne d (fun he => h (lineKey_inj hi hj he)) f

/-- A new owner leaves every line's words. -/
theorem words_modLine_owner (d : Dev) (b i k j : Nat) (o : SramOwner) :
    ((d.modLine b i fun l => { l with owner := o }).storedLine k j).words = (d.storedLine k j).words := by
  by_cases h : lineKey k j = lineKey b i
  · unfold Dev.storedLine
    rw [h]
    exact (congrArg SramLine.words (storedLine_modLine_self d b i fun l => { l with owner := o }) :)
  · rw [storedLine_modLine_key_ne d h]

/-- A line that is not poisoned keeps the list of poisoned lines. -/
theorem poisoned_filter_of_clean (h : d.linePoisoned b i = false) :
    d.sram.poisoned.filter (fun p => !(p.bank == b && p.index == i)) = d.sram.poisoned := by
  refine List.filter_eq_self.2 fun p hp => ?_
  rw [List.any_eq_false.1 h p hp |> Bool.eq_false_iff.2]
  rfl

/-- The line's poison is cleared. -/
def poisonCleared (d : Dev) (b i : Nat) : Dev :=
  { d with sram := { d.sram with poisoned := d.sram.poisoned.filter fun p => !(p.bank == b && p.index == i) } }

theorem putLine_in_service (h : b ∉ d.sram.retired) (i : Nat) (ws : List (BitVec 64)) :
    d.putLine b i ws = (poisonCleared d b i).modLine b i fun l => { l with words := storedWords ws } := by
  unfold Dev.putLine
  exact if_neg fun hc => h (List.contains_iff_mem.1 hc)

theorem putLine_words (h : b ∉ d.sram.retired) (i : Nat) (ws : List (BitVec 64)) :
    ((d.putLine b i ws).storedLine b i).words = storedWords ws := by
  rw [putLine_in_service h, storedLine_modLine_self]

theorem putLine_line_ne (h : b ∉ d.sram.retired) (hi : i < 8192) (hj : j < 8192) (hne : ¬(k = b ∧ j = i)) (ws : List (BitVec 64)) :
    (d.putLine b i ws).storedLine k j = d.storedLine k j := by
  rw [putLine_in_service h, storedLine_modLine_ne _ hi hj hne]
  rfl

theorem putLine_clean (d : Dev) (b i : Nat) (ws : List (BitVec 64)) : (d.putLine b i ws).linePoisoned b i = false := by
  have h : (poisonCleared d b i).linePoisoned b i = false := by
    refine List.any_eq_false.2 fun p hp hb => ?_
    have hkept := (List.mem_filter.1 hp).2
    rw [hb] at hkept
    exact Bool.false_ne_true hkept
  unfold Dev.putLine
  dsimp only
  split <;> exact h

/-- What is counted and kept of the memory beside its lines and its poison. -/
def Sram.sansLines (s : Sram) : Sram := { s with lines := [], poisoned := [] }

theorem putLine_sansLines (d : Dev) (b i : Nat) (ws : List (BitVec 64)) : (d.putLine b i ws).sram.sansLines = d.sram.sansLines := by
  unfold Dev.putLine
  dsimp only
  split <;> rfl

theorem retired_of_sansLines (h : e.sram.sansLines = d.sram.sansLines) : e.sram.retired = d.sram.retired :=
  (congrArg Sram.retired h :)

/-- A full line written where P is known: P takes the change, and the line its words (R396). -/
theorem writeLine_known (hb : b < 16) (hret : b ∉ d.sram.retired) (hclean : d.linePoisoned 16 i = false)
    (hgood : (readWords (d.storedLine 16 i).words).good = true) (old ws : List (BitVec 64)) :
    d.writeLine b i (some old) ws =
      (d.putLine 16 i (xorLines [(readWords (d.storedLine 16 i).words).words, old, ws])).putLine b i ws := by
  unfold Dev.writeLine
  rw [if_neg (by omega)]
  dsimp only
  rw [if_neg (by simp [hret, hclean, hgood])]

theorem writeLine_known_effect (hb : b < 16) (hi : i < 8192) (hret : b ∉ d.sram.retired) (hret16 : 16 ∉ d.sram.retired)
    (hclean : d.linePoisoned 16 i = false) (hgood : (readWords (d.storedLine 16 i).words).good = true) (old ws : List (BitVec 64)) :
    ((d.writeLine b i (some old) ws).storedLine b i).words = storedWords ws ∧ (d.writeLine b i (some old) ws).linePoisoned b i = false ∧
    ((d.writeLine b i (some old) ws).storedLine 16 i).words =
      storedWords (xorLines [(readWords (d.storedLine 16 i).words).words, old, ws]) ∧
    ∀ k j, k < 17 → j < 8192 → j ≠ i ∨ (k ≠ b ∧ k ≠ 16) → (d.writeLine b i (some old) ws).storedLine k j = d.storedLine k j := by
  rw [writeLine_known hb hret hclean hgood]
  have hret' : b ∉ (d.putLine 16 i (xorLines [(readWords (d.storedLine 16 i).words).words, old, ws])).sram.retired := by
    rw [retired_of_sansLines (putLine_sansLines _ _ _ _)]
    exact hret
  refine ⟨putLine_words hret' i ws, putLine_clean _ b i ws, ?_, fun k j _ hj hne => ?_⟩
  · rw [putLine_line_ne hret' hi hi (by omega), putLine_words hret16]
  · rw [putLine_line_ne hret' hi hj (by omega), putLine_line_ne hret16 hi hj (by omega)]
end

/-! ### The scrubber's counts stand through every change of a line -/

/-- The scrubber's passes. -/
def Dev.scrubbed (d : Dev) : Nat × BitVec 48 := (d.sram.passes, d.sram.passTurn)

theorem scrubbed_of_sansLines {d e : Dev} (h : e.sram.sansLines = d.sram.sansLines) : e.scrubbed = d.scrubbed :=
  (congrArg (fun s : Sram => (s.passes, s.passTurn)) h :)

theorem scrubbed_of_sram {d e : Dev} (h : e.sram = d.sram) : e.scrubbed = d.scrubbed :=
  congrArg (fun s : Sram => (s.passes, s.passTurn)) h

theorem modLine_scrubbed (d : Dev) (b i : Nat) (f : SramLine → SramLine) : (d.modLine b i f).scrubbed = d.scrubbed := rfl

theorem putLine_scrubbed (d : Dev) (b i : Nat) (ws : List (BitVec 64)) : (d.putLine b i ws).scrubbed = d.scrubbed :=
  scrubbed_of_sansLines (putLine_sansLines d b i ws)

theorem rewriteP_scrubbed (d : Dev) (b i : Nat) (ws : List (BitVec 64)) : (d.rewriteP b i ws).scrubbed = d.scrubbed :=
  putLine_scrubbed _ _ _ _

theorem writeLine_scrubbed (d : Dev) (b i : Nat) (old : Option (List (BitVec 64))) (ws : List (BitVec 64)) :
    (d.writeLine b i old ws).scrubbed = d.scrubbed := by
  unfold Dev.writeLine
  split
  · exact putLine_scrubbed _ _ _ _
  · dsimp only
    rw [putLine_scrubbed]
    split
    · split
      · exact rewriteP_scrubbed _ _ _ _
      · exact putLine_scrubbed _ _ _ _
    · exact rewriteP_scrubbed _ _ _ _

theorem noteRead_scrubbed (b : Nat) (x : LineData) (d : Dev) : (noteRead b x d).scrubbed = d.scrubbed := by
  unfold noteRead
  dsimp only
  split
  · rfl
  · rw [raiseOnceTurn_frame]
    rfl

theorem reconstruct_scrubbed (b i : Nat) (d : Dev) : (reconstruct b i d).2.scrubbed = d.scrubbed := by
  unfold reconstruct
  exact foldl_keeps Dev.scrubbed (fun d (r : Nat × LineData) => noteRead_scrubbed r.1 r.2 d) _ d

theorem bankTrouble_scrubbed (b : Nat) (d : Dev) : (bankTrouble b d).scrubbed = d.scrubbed := by
  unfold bankTrouble
  dsimp only
  split
  · rfl
  · split
    · split
      · rw [raise_frame]
        rfl
      · rfl
    · rfl

/-- A line that has been reconstructed is counted and reported. -/
def rebuiltCounted (b : Nat) (d : Dev) : Dev :=
  ({ d with sram := { d.sram with
    rebuilt := satAdd 32 d.sram.rebuilt 1
    rebuiltPass := if d.bankDown b then d.sram.rebuiltPass else tmod 0 d.sram.rebuiltPass b (· + 1) } } : Dev).raiseOnceTurn
      (0x0C04 * 32 + b) 0x0C04 b 0

theorem lineRebuilt_eq (b : Nat) (d : Dev) : lineRebuilt b d =
    if 64 < tget 0 (rebuiltCounted b d).sram.rebuiltPass b then bankTrouble b (rebuiltCounted b d) else rebuiltCounted b d := rfl

theorem rebuiltCounted_sram (b : Nat) (d : Dev) : (rebuiltCounted b d).sram = { d.sram with
    rebuilt := satAdd 32 d.sram.rebuilt 1
    rebuiltPass := if d.bankDown b then d.sram.rebuiltPass else tmod 0 d.sram.rebuiltPass b (· + 1) } := by
  unfold rebuiltCounted
  rw [raiseOnceTurn_frame]

theorem lineRebuilt_scrubbed (b : Nat) (d : Dev) : (lineRebuilt b d).scrubbed = d.scrubbed := by
  have h : (rebuiltCounted b d).scrubbed = d.scrubbed :=
    (congrArg (fun s : Sram => (s.passes, s.passTurn)) (rebuiltCounted_sram b d) :)
  rw [lineRebuilt_eq]
  split
  · rw [bankTrouble_scrubbed, h]
  · exact h

theorem fenceRing_standing (d : Dev) (n r : Nat) : (d.fenceRing n r).sag.standing = d.sag.standing := by
  unfold Dev.fenceRing
  dsimp only
  split
  · rw [Dev.raise_standing]
  · rfl

/-- The fence of a line's owner leaves the memory as it is. -/
theorem fencePoison_sram (o : SramOwner) (d : Dev) : (fencePoison o d).sram = d.sram := by
  unfold fencePoison
  split
  · exact fenceUnit_sram _ _ _
  · split
    · exact (fenceHandle_aside _ _ _ _).2.1
    · rfl
  · rw [fenceRing_frame]
  · split
    · exact fenceUnit_sram _ _ _
    · rfl
  · rfl

/-- It fences no unit but a unit that owns the line, or the core. -/
theorem fencePoison_flue {o : SramOwner} {d : Dev} (ho : ∀ u, o ≠ .unit u) (h : 9 ∈ (fencePoison o d).sag.fenced) :
    9 ∈ d.sag.fenced := by
  cases o with
  | none_ => exact h
  | core n => exact (mem_fenceUnit.1 h).resolve_left (by omega)
  | handle w =>
    have hf : (fencePoison (.handle w) d).sag.fenced = d.sag.fenced := by
      unfold fencePoison
      dsimp only
      split
      · exact (fenceHandle_aside _ _ _ _).2.2
      · rfl
    exact hf ▸ h
  | ring n =>
    have hf : (d.fenceRing (n % 128) 4).sag.fenced = d.sag.fenced := congrArg Prod.fst (fenceRing_standing d (n % 128) 4)
    exact hf ▸ h
  | unit u => exact absurd rfl (ho u)

/-- A line is poisoned and reported, before its owner is fenced. -/
def poisonNoted (b i : Nat) (d : Dev) : Dev :=
  ({ d with sram := { d.sram with
    poisoned := d.sram.poisoned ++ [PoisonLine.mk b i (d.storedLine b i).owner], poisonCount := satAdd 32 d.sram.poisonCount 1
    lastTurn := d.wheel.turn, lastAddr := lineAddr b i } } : Dev).raise 0x0C05 b 0

theorem linePoison_clean {b i : Nat} {d : Dev} (h : d.linePoisoned b i = false) : linePoison b i d =
    if ownerIsHandle (d.storedLine b i).owner then fencePoison (d.storedLine b i).owner (poisonNoted b i d) else poisonNoted b i d := by
  unfold linePoison
  exact if_neg (Bool.eq_false_iff.1 h)

theorem poisonNoted_sram (b i : Nat) (d : Dev) : (poisonNoted b i d).sram = { d.sram with
    poisoned := d.sram.poisoned ++ [PoisonLine.mk b i (d.storedLine b i).owner], poisonCount := satAdd 32 d.sram.poisonCount 1
    lastTurn := d.wheel.turn, lastAddr := lineAddr b i } := by
  unfold poisonNoted
  rw [raise_frame]

theorem linePoison_scrubbed (b i : Nat) (d : Dev) : (linePoison b i d).scrubbed = d.scrubbed := by
  have hnoted : (poisonNoted b i d).scrubbed = d.scrubbed :=
    (congrArg (fun s : Sram => (s.passes, s.passTurn)) (poisonNoted_sram b i d) :)
  by_cases h : d.linePoisoned b i = true
  · unfold linePoison
    rw [if_pos h]
  · rw [linePoison_clean (Bool.eq_false_iff.2 h)]
    split
    · rw [scrubbed_of_sram (fencePoison_sram _ _), hnoted]
    · exact hnoted

/-! ### What a read of a line finds (R395) -/

/-- Steps 1 and 2 are counted where the bank is in service. -/
def fetchNoted (b i : Nat) (d : Dev) : Dev := if d.bankDown b then d else noteRead b (readWords (d.storedLine b i).words) d

section
variable {d : Dev} {back : Bool} {b i : Nat}

theorem lineFetch_poisoned (h : d.linePoisoned b i = true) : lineFetch back b i d = (none, d) := by
  unfold lineFetch
  exact if_pos h

theorem lineFetch_good (hp : d.linePoisoned b i = false) (hgood : (readWords (d.storedLine b i).words).good = true)
    (hdown : d.bankDown b = false) : lineFetch back b i d = (some (readWords (d.storedLine b i).words).words,
      if back && (readWords (d.storedLine b i).words).fixed != 0 then
        (noteRead b (readWords (d.storedLine b i).words) d).putLine b i (readWords (d.storedLine b i).words).words
      else noteRead b (readWords (d.storedLine b i).words) d) := by
  unfold lineFetch
  refine (if_neg (Bool.eq_false_iff.1 hp)).trans ((if_pos ?_).trans ?_)
  · rw [hgood, hdown]
    rfl
  · rw [hdown]
    rfl

theorem lineFetch_rebuilt (hp : d.linePoisoned b i = false)
    (hbad : (readWords (d.storedLine b i).words).good = false ∨ d.bankDown b = true) {ws : List (BitVec 64)}
    (hr : (reconstruct b i (fetchNoted b i d)).1 = some ws) :
    lineFetch back b i d = (some ws, lineRebuilt b ((reconstruct b i (fetchNoted b i d)).2.putLine b i ws)) := by
  unfold fetchNoted at hr ⊢
  unfold lineFetch
  dsimp only
  rw [if_neg (Bool.eq_false_iff.1 hp), if_neg (by rcases hbad with h | h <;> simp [h]), hr]

theorem lineFetch_lost (hp : d.linePoisoned b i = false)
    (hbad : (readWords (d.storedLine b i).words).good = false ∨ d.bankDown b = true)
    (hr : (reconstruct b i (fetchNoted b i d)).1 = none) :
    lineFetch back b i d = (none, linePoison b i (reconstruct b i (fetchNoted b i d)).2) := by
  unfold fetchNoted at hr ⊢
  unfold lineFetch
  dsimp only
  rw [if_neg (Bool.eq_false_iff.1 hp), if_neg (by rcases hbad with h | h <;> simp [h]), hr]
end

/-- What a fetch of a line leaves: four ways. -/
theorem lineFetch_scrubbed (back : Bool) (b i : Nat) (d : Dev) : (lineFetch back b i d).2.scrubbed = d.scrubbed := by
  have hnoted : (fetchNoted b i d).scrubbed = d.scrubbed := by
    unfold fetchNoted
    split
    · rfl
    · exact noteRead_scrubbed _ _ _
  by_cases hp : d.linePoisoned b i = true
  · rw [lineFetch_poisoned hp]
  · have hclean := Bool.eq_false_iff.2 hp
    by_cases hbad : (readWords (d.storedLine b i).words).good = false ∨ d.bankDown b = true
    · cases hr : (reconstruct b i (fetchNoted b i d)).1 with
      | some ws =>
        rw [lineFetch_rebuilt hclean hbad hr]
        exact (lineRebuilt_scrubbed _ _).trans ((putLine_scrubbed _ _ _ _).trans ((reconstruct_scrubbed _ _ _).trans hnoted))
      | none =>
        rw [lineFetch_lost hclean hbad hr]
        exact (linePoison_scrubbed _ _ _).trans ((reconstruct_scrubbed _ _ _).trans hnoted)
    · obtain ⟨hgood, hdown⟩ := not_or.1 hbad
      rw [lineFetch_good hclean (Bool.not_eq_false _ ▸ hgood) (Bool.eq_false_iff.2 hdown)]
      dsimp only
      split
      · rw [putLine_scrubbed]
        exact noteRead_scrubbed _ _ _
      · exact noteRead_scrubbed _ _ _

theorem lineWrite_scrubbed (b i off : Nat) (bytes : List Byte) (writer : SramOwner) (d : Dev) :
    (lineWrite b i off bytes writer d).scrubbed = d.scrubbed := by
  have hfetch := lineFetch_scrubbed false b i d
  unfold lineWrite
  dsimp only
  split
  · rfl
  · split
    · rw [writeLine_scrubbed, hfetch]
    · split
      · rw [writeLine_scrubbed, hfetch]
      · rw [scrubbed_of_sram (fencePoison_sram _ _)]
        exact hfetch

theorem lineEvents_scrubbed (es : List LineEvent) (d : Dev) : (lineEvents es d).scrubbed = d.scrubbed := by
  refine foldl_keeps Dev.scrubbed (fun d e => ?_) es d
  unfold lineEvent
  dsimp only
  split
  · rfl
  · exact lineWrite_scrubbed _ _ _ _ _ _

theorem scrubLine_scrubbed (i : Nat) (d : Dev) (b : Nat) : (scrubLine i d b).scrubbed = d.scrubbed := by
  unfold scrubLine
  split
  · exact lineFetch_scrubbed _ _ _ _
  · rfl

theorem scrubOne_scrubbed (d : Dev) (i : Nat) : (scrubOne d i).scrubbed = d.scrubbed :=
  foldl_keeps Dev.scrubbed (scrubLine_scrubbed i) _ d

theorem rebuildStep_scrubbed (d : Dev) (p : Nat × Nat) : (rebuildStep d p).scrubbed = d.scrubbed := by
  unfold rebuildStep
  generalize List.range 64 = l
  exact (foldl_keeps Dev.scrubbed (fun d k => scrubLine_scrubbed (p.2 + k) d p.1) l d :)

/-- The lines that a SCRUB reads. -/
def stripesRead (s : Nat) (d : Dev) : Dev := ((List.range 8).map (s + ·)).foldl scrubOne d

/-- The device as a SCRUB has read its stripes and gone on with its rebuilds. -/
def scrubRead (es : List LineEvent) (d : Dev) : Dev :=
  (stripesRead (scrubStripe d) (lineEvents es d)).sram.rebuilding.foldl rebuildStep (stripesRead (scrubStripe d) (lineEvents es d))

/-- The scrubber's counts at the end of its stripes. -/
def scrubEnded (s : Nat) (d : Dev) : Dev :=
  { d.tally 34 6 136 with sram := { d.sram with
    stripe := (s + 8) % 8192
    passes := if decide (s + 8 = 8192) then satAdd 32 d.sram.passes 1 else d.sram.passes
    passTurn := if decide (s + 8 = 8192) then d.wheel.turn else d.sram.passTurn
    rebuiltPass := if decide (s + 8 = 8192) then [] else d.sram.rebuiltPass } }

theorem scrub_eq (es : List LineEvent) (d : Dev) : scrub es d = scrubEnded (scrubStripe d) (scrubRead es d) := by
  unfold scrub scrubRead stripesRead
  generalize List.range 8 = l
  rfl

theorem scrubRead_scrubbed (es : List LineEvent) (d : Dev) : (scrubRead es d).scrubbed = d.scrubbed :=
  (foldl_keeps Dev.scrubbed rebuildStep_scrubbed _ _).trans
    ((foldl_keeps Dev.scrubbed scrubOne_scrubbed _ _).trans (lineEvents_scrubbed es d))

theorem scrubRead_wheel (es : List LineEvent) (d : Dev) : (scrubRead es d).wheel = d.wheel :=
  ((foldl_keeps Dev.wheel (fun d p => rebuildStep_wheel d p) _ _).trans
    ((foldl_keeps Dev.wheel (fun d i => scrubOne_wheel d i) _ _).trans (lineEvents_wheel es d)))

theorem scrubbed_fields {d e : Dev} (h : e.scrubbed = d.scrubbed) :
    e.sram.passes = d.sram.passes ∧ e.sram.passTurn = d.sram.passTurn := ⟨congrArg Prod.fst h, congrArg Prod.snd h⟩

/-- What a SCRUB reports. -/
theorem scrub_report (es : List LineEvent) (d : Dev) :
    (scrub es d).sram.stripe = (scrubStripe d + 8) % 8192 ∧
    (scrubStripe d + 8 = 8192 → (scrub es d).sram.passes = satAdd 32 d.sram.passes 1 ∧ (scrub es d).sram.passTurn = d.wheel.turn ∧
      (scrub es d).sram.rebuiltPass = []) ∧
    (scrubStripe d + 8 ≠ 8192 → (scrub es d).sram.passes = d.sram.passes ∧ (scrub es d).sram.passTurn = d.sram.passTurn) := by
  obtain ⟨hpasses, hturn⟩ := scrubbed_fields (scrubRead_scrubbed es d)
  have hwheel := scrubRead_wheel es d
  rw [scrub_eq]
  generalize scrubRead es d = e at hpasses hturn hwheel
  rw [← hpasses, ← hturn, ← hwheel]
  refine ⟨rfl, fun h => ?_, fun h => ?_⟩
  · have hdone : decide (scrubStripe d + 8 = 8192) = true := decide_eq_true h
    exact ⟨if_pos hdone, if_pos hdone, if_pos hdone⟩
  · have hgoing : ¬decide (scrubStripe d + 8 = 8192) = true := by simp [h]
    exact ⟨if_neg hgoing, if_neg hgoing⟩

/-- A memory of zeros with every bank in service is read without a change. -/
theorem scrubLine_zero {d : Dev} (hlines : d.sram.lines = []) (hrebuilding : d.sram.rebuilding = []) (hretired : d.sram.retired = [])
    (i b : Nat) : scrubLine i d b = d := by
  have hdown : d.bankDown b = false := by simp [Dev.bankDown, hrebuilding, hretired]
  have hwords : (d.storedLine b i).words = zeroLine := by
    unfold Dev.storedLine
    rw [hlines]
    rfl
  unfold scrubLine
  rw [hdown, hwords]
  exact if_neg (by simp)

theorem scrubRead_zero {d : Dev} (hlines : d.sram.lines = []) (hrebuilding : d.sram.rebuilding = []) (hretired : d.sram.retired = []) :
    scrubRead [] d = d := by
  have hone (i : Nat) : scrubOne d i = d := foldl_nothing _ fun b _ => scrubLine_zero hlines hrebuilding hretired i b
  have hstripes : stripesRead (scrubStripe d) (lineEvents [] d) = d := foldl_nothing _ fun i _ => hone i
  unfold scrubRead
  rw [hstripes, hrebuilding]
  rfl

/-! ### A read of a line (R395 to R398) -/

/-- What a reconstruction depends on: the words stored, the poison, and the banks out of service. -/
structure SameStripes (d e : Dev) : Prop where
  words : ∀ k j, (e.storedLine k j).words = (d.storedLine k j).words
  poisoned : e.sram.poisoned = d.sram.poisoned
  retired : e.sram.retired = d.sram.retired
  rebuilding : e.sram.rebuilding = d.sram.rebuilding

namespace SameStripes
variable {d e f : Dev}

theorem trans (h : SameStripes d e) (h' : SameStripes e f) : SameStripes d f :=
  ⟨fun k j => (h'.words k j).trans (h.words k j), h'.poisoned.trans h.poisoned, h'.retired.trans h.retired,
    h'.rebuilding.trans h.rebuilding⟩

theorem bankDown (h : SameStripes d e) (b : Nat) : e.bankDown b = d.bankDown b := by
  unfold Dev.bankDown
  rw [h.retired, h.rebuilding]

theorem linePoisoned (h : SameStripes d e) (b i : Nat) : e.linePoisoned b i = d.linePoisoned b i := by
  unfold Dev.linePoisoned
  rw [h.poisoned]

theorem reconstruct (h : SameStripes d e) (b i : Nat) : (reconstruct b i e).1 = (reconstruct b i d).1 := by
  unfold Machine.reconstruct
  dsimp only
  simp only [h.words, h.bankDown, h.linePoisoned, h.retired]

theorem owner (d : Dev) (b i : Nat) (o : SramOwner) : SameStripes d (d.modLine b i fun l => { l with owner := o }) :=
  ⟨fun k j => words_modLine_owner d b i k j o, rfl, rfl, rfl⟩

end SameStripes

/-- The memory but for what steps 1 and 2 of a read count. -/
def Sram.sansReads (s : Sram) : Sram := { s with corrected := 0, miscorrect := 0 }

/-- What steps 1 and 2 of a read leave as it is. -/
def Dev.unread (d : Dev) : Sram × Wheel × (List Nat × Nat × List (Nat × Nat)) := (d.sram.sansReads, d.wheel, d.sag.standing)

theorem noteRead_unread (b : Nat) (x : LineData) (d : Dev) : (noteRead b x d).unread = d.unread := by
  have hraise (e : Dev) : (e.raiseOnceTurn 0x0C03 0x0C03 b 0).unread = e.unread := by
    unfold Dev.unread
    rw [Dev.raiseOnceTurn_standing]
    simp
  unfold noteRead
  dsimp only
  split
  · rfl
  · rw [hraise]
    rfl

theorem reconstruct_unread (b i : Nat) (d : Dev) : (reconstruct b i d).2.unread = d.unread := by
  unfold reconstruct
  exact foldl_keeps Dev.unread (fun d (r : Nat × LineData) => noteRead_unread r.1 r.2 d) _ d

theorem fetchNoted_unread (b i : Nat) (d : Dev) : (fetchNoted b i d).unread = d.unread := by
  unfold fetchNoted
  split
  · rfl
  · exact noteRead_unread _ _ _

theorem sameStripes_of_unread {d e : Dev} (h : e.unread = d.unread) : SameStripes d e := by
  have hsram : e.sram.sansReads = d.sram.sansReads := congrArg Prod.fst h
  have hlines : e.sram.lines = d.sram.lines := (congrArg Sram.lines hsram :)
  refine ⟨fun k j => ?_, (congrArg Sram.poisoned hsram :), (congrArg Sram.retired hsram :), (congrArg Sram.rebuilding hsram :)⟩
  unfold Dev.storedLine
  rw [hlines]

/-- The memory but for its banks' troubles. -/
def Sram.sansBanks (s : Sram) : Sram := { s with retired := [], rebuiltPass := [], rebuilding := [] }

theorem bankTrouble_sansBanks (b : Nat) (d : Dev) : (bankTrouble b d).sram.sansBanks = d.sram.sansBanks := by
  unfold bankTrouble
  dsimp only
  split
  · rfl
  · split
    · split
      · rw [raise_frame]
        rfl
      · rfl
    · rfl

theorem lineRebuilt_sansBanks (b : Nat) (d : Dev) :
    (lineRebuilt b d).sram.sansBanks = { d.sram.sansBanks with rebuilt := satAdd 32 d.sram.rebuilt 1 } := by
  have h : (rebuiltCounted b d).sram.sansBanks = { d.sram.sansBanks with rebuilt := satAdd 32 d.sram.rebuilt 1 } :=
    (congrArg Sram.sansBanks (rebuiltCounted_sram b d) :)
  rw [lineRebuilt_eq]
  split
  · exact (bankTrouble_sansBanks _ _).trans h
  · exact h

section
variable {s t : Sram}

theorem Sram.rebuilt_consumed_of_sansLines (h : s.sansLines = t.sansLines) : s.rebuilt = t.rebuilt ∧ s.consumed = t.consumed :=
  ⟨(congrArg Sram.rebuilt h :), (congrArg Sram.consumed h :)⟩

theorem Sram.lines_of_sansReads (h : s.sansReads = t.sansReads) : s.lines = t.lines := (congrArg Sram.lines h :)

theorem Sram.counts_of_sansReads (h : s.sansReads = t.sansReads) :
    s.rebuilt = t.rebuilt ∧ s.poisonCount = t.poisonCount ∧ s.consumed = t.consumed :=
  ⟨(congrArg Sram.rebuilt h :), (congrArg Sram.poisonCount h :), (congrArg Sram.consumed h :)⟩

theorem Sram.of_sansBanks {n : Nat} (h : s.sansBanks = { t.sansBanks with rebuilt := n }) :
    s.rebuilt = n ∧ s.poisoned = t.poisoned ∧ s.consumed = t.consumed ∧ s.lines = t.lines :=
  ⟨(congrArg Sram.rebuilt h :), (congrArg Sram.poisoned h :), (congrArg Sram.consumed h :), (congrArg Sram.lines h :)⟩
end

/-- The line is owned as its reader says. -/
def lineOwned (d : Dev) (r : LineRead) : Dev := d.modLine r.bank r.index fun l => { l with owner := r.owner }

section
variable {d : Dev} {r : LineRead}

theorem lineOwned_stripes : SameStripes d (lineOwned d r) := .owner d r.bank r.index r.owner

theorem LineRead.folded (hb : r.bank < 17) (hi : r.index < 8192) : { r with bank := r.bank % 17, index := r.index % 8192 } = r := by
  rw [Nat.mod_eq_of_lt hb, Nat.mod_eq_of_lt hi]

theorem lineRead_found (hb : r.bank < 17) (hi : r.index < 8192) {ws : List (BitVec 64)} {e : Dev}
    (h : lineFetch false r.bank r.index (lineOwned d r) = (some ws, e)) : lineRead [] r d = e := by
  unfold lineRead
  rw [LineRead.folded hb hi]
  have hf : lineFetch false r.bank r.index ((lineEvents [] d).modLine r.bank r.index fun l => { l with owner := r.owner }) =
    (some ws, e) := h
  dsimp only
  rw [hf]

theorem lineRead_lost (hb : r.bank < 17) (hi : r.index < 8192) {e : Dev}
    (h : lineFetch false r.bank r.index (lineOwned d r) = (none, e)) :
    lineRead [] r d = lineConsumed r (!(lineOwned d r).linePoisoned r.bank r.index) e := by
  unfold lineRead
  rw [LineRead.folded hb hi]
  have hf : lineFetch false r.bank r.index ((lineEvents [] d).modLine r.bank r.index fun l => { l with owner := r.owner }) =
    (none, e) := h
  dsimp only
  rw [hf]
  rfl

/-- Steps 1 and 2 of R395 find the line. -/
theorem lineRead_good (hb : r.bank < 17) (hi : r.index < 8192) (hp : d.linePoisoned r.bank r.index = false)
    (hok : ¬((readWords (d.storedLine r.bank r.index).words).good = false ∨ d.bankDown r.bank = true)) :
    lineRead [] r d = noteRead r.bank (readWords (d.storedLine r.bank r.index).words) (lineOwned d r) := by
  obtain ⟨hgood, hdown⟩ := not_or.1 hok
  have hs := lineOwned_stripes (d := d) (r := r)
  rw [← hs.words] at hgood ⊢
  refine lineRead_found hb hi (lineFetch_good ((hs.linePoisoned _ _).trans hp) (eq_true_of_ne_false hgood) ?_)
  exact (hs.bankDown _).trans (Bool.eq_false_iff.2 hdown)

/-- The memory as a reconstruction has read it. -/
def reconstructed (d : Dev) (r : LineRead) : Dev := (reconstruct r.bank r.index (fetchNoted r.bank r.index (lineOwned d r))).2

theorem reconstructed_unread : (reconstructed d r).unread = (lineOwned d r).unread :=
  (reconstruct_unread _ _ _).trans (fetchNoted_unread _ _ _)

theorem reconstruct_fetched : (reconstruct r.bank r.index (fetchNoted r.bank r.index (lineOwned d r))).1 =
    (reconstruct r.bank r.index d).1 :=
  (lineOwned_stripes.trans (sameStripes_of_unread (fetchNoted_unread _ _ _))).reconstruct _ _

/-- Step 3 of R395 finds the line. -/
theorem lineRead_rebuilt (hb : r.bank < 17) (hi : r.index < 8192) (hp : d.linePoisoned r.bank r.index = false)
    (hbad : (readWords (d.storedLine r.bank r.index).words).good = false ∨ d.bankDown r.bank = true) {ws : List (BitVec 64)}
    (hr : (reconstruct r.bank r.index d).1 = some ws) :
    lineRead [] r d = lineRebuilt r.bank ((reconstructed d r).putLine r.bank r.index ws) := by
  have hs := lineOwned_stripes (d := d) (r := r)
  rw [← hs.words, ← hs.bankDown] at hbad
  exact lineRead_found hb hi (lineFetch_rebuilt ((hs.linePoisoned _ _).trans hp) hbad (reconstruct_fetched.trans hr))

theorem lineRead_rebuilt_effect (hb : r.bank < 17) (hi : r.index < 8192) (hp : d.linePoisoned r.bank r.index = false)
    (hbad : (readWords (d.storedLine r.bank r.index).words).good = false ∨ d.bankDown r.bank = true) {ws : List (BitVec 64)}
    (hr : (reconstruct r.bank r.index d).1 = some ws) :
    (lineRead [] r d).sram.rebuilt = satAdd 32 d.sram.rebuilt 1 ∧ (lineRead [] r d).sram.poisoned = d.sram.poisoned ∧
    (lineRead [] r d).sram.consumed = d.sram.consumed ∧
    (r.bank ∉ d.sram.retired → ((lineRead [] r d).storedLine r.bank r.index).words = storedWords ws) := by
  have hstripes : SameStripes d (reconstructed d r) := lineOwned_stripes.trans (sameStripes_of_unread reconstructed_unread)
  have hreads : (reconstructed d r).sram.sansReads = (lineOwned d r).sram.sansReads := congrArg Prod.fst reconstructed_unread
  have hput := putLine_sansLines (reconstructed d r) r.bank r.index ws
  have hputPoison : ((reconstructed d r).putLine r.bank r.index ws).sram.poisoned = d.sram.poisoned := by
    have hfilter := poisoned_filter_of_clean ((hstripes.linePoisoned r.bank r.index).trans hp)
    unfold Dev.putLine
    dsimp only
    split <;> exact hfilter.trans hstripes.poisoned
  rw [lineRead_rebuilt hb hi hp hbad hr]
  obtain ⟨hrebuilt, hpoisoned, hconsumed, hlines⟩ :=
    Sram.of_sansBanks (lineRebuilt_sansBanks r.bank ((reconstructed d r).putLine r.bank r.index ws))
  obtain ⟨hputRebuilt, hputConsumed⟩ := Sram.rebuilt_consumed_of_sansLines hput
  obtain ⟨hreadRebuilt, -, hreadConsumed⟩ := Sram.counts_of_sansReads hreads
  have howned : (lineOwned d r).sram.rebuilt = d.sram.rebuilt ∧ (lineOwned d r).sram.consumed = d.sram.consumed := ⟨rfl, rfl⟩
  refine ⟨hrebuilt.trans ?_, hpoisoned.trans hputPoison, hconsumed.trans (hputConsumed.trans (hreadConsumed.trans howned.2)),
    fun hret => ?_⟩
  · rw [hputRebuilt, hreadRebuilt, howned.1]
  · have hwords := putLine_words (show r.bank ∉ (reconstructed d r).sram.retired by rw [hstripes.retired]; exact hret) r.index ws
    unfold Dev.storedLine at hwords ⊢
    rw [hlines]
    exact hwords

theorem lineConsumed_sram (h : r.reader ≠ .owner) (fenced : Bool) (e : Dev) : (lineConsumed r fenced e).sram =
    { e.sram with consumed := if r.reader = .scrubber then e.sram.consumed else satAdd 32 e.sram.consumed 1 } := by
  unfold lineConsumed
  split
  case h_1 hr => rw [if_pos hr]
  case h_2 hr => rw [if_neg (by rw [hr]; decide)]; rfl
  case h_3 hr => exact absurd hr h

/-- No step of R395 finds the line: it is poisoned (R397). -/
theorem lineRead_lost_effect (hb : r.bank < 17) (hi : r.index < 8192) (hp : d.linePoisoned r.bank r.index = false)
    (hbad : (readWords (d.storedLine r.bank r.index).words).good = false ∨ d.bankDown r.bank = true)
    (hr : (reconstruct r.bank r.index d).1 = none) (hreader : r.reader ≠ .owner) (howner : ∀ h, r.owner ≠ .handle h) :
    (lineRead [] r d).sram.rebuilt = d.sram.rebuilt ∧
    (lineRead [] r d).sram.poisoned = d.sram.poisoned ++ [⟨r.bank, r.index, r.owner⟩] ∧
    (lineRead [] r d).sram.poisonCount = satAdd 32 d.sram.poisonCount 1 ∧ (lineRead [] r d).sram.lastTurn = d.wheel.turn ∧
    (lineRead [] r d).sram.lastAddr = lineAddr r.bank r.index ∧
    (lineRead [] r d).sram.consumed = (if r.reader = .scrubber then d.sram.consumed else satAdd 32 d.sram.consumed 1) := by
  have hs := lineOwned_stripes (d := d) (r := r)
  have hstripes : SameStripes d (reconstructed d r) := hs.trans (sameStripes_of_unread reconstructed_unread)
  have hreads : (reconstructed d r).sram.sansReads = (lineOwned d r).sram.sansReads := congrArg Prod.fst reconstructed_unread
  have hwheel : (reconstructed d r).wheel = d.wheel := congrArg (fun x => x.2.1) reconstructed_unread
  have hlines := Sram.lines_of_sansReads hreads
  have hline : ((reconstructed d r).storedLine r.bank r.index).owner = r.owner := by
    have h := storedLine_modLine_self d r.bank r.index fun l => { l with owner := r.owner }
    unfold Dev.storedLine at h ⊢
    rw [hlines]
    exact congrArg SramLine.owner h
  have hnohandle : ownerIsHandle ((reconstructed d r).storedLine r.bank r.index).owner = false := by
    rw [hline]
    cases ho : r.owner with
    | handle h => exact absurd ho (howner h)
    | none_ => rfl
    | core n => rfl
    | ring n => rfl
    | unit u => rfl
  have hpoison : linePoison r.bank r.index (reconstructed d r) = poisonNoted r.bank r.index (reconstructed d r) := by
    rw [linePoison_clean ((hstripes.linePoisoned _ _).trans hp), hnohandle]
    rfl
  rw [← hs.words, ← hs.bankDown] at hbad
  rw [lineRead_lost hb hi (lineFetch_lost ((hs.linePoisoned _ _).trans hp) hbad (reconstruct_fetched.trans hr)),
    lineConsumed_sram hreader]
  have hnoted := poisonNoted_sram r.bank r.index (reconstructed d r)
  rw [hline, hstripes.poisoned, hwheel] at hnoted
  have hmemory : (linePoison r.bank r.index (reconstructed d r)).sram = _ := (congrArg Dev.sram hpoison).trans hnoted
  obtain ⟨hrebuilt, hcount, hconsumed⟩ := Sram.counts_of_sansReads hreads
  show (linePoison r.bank r.index (reconstructed d r)).sram.rebuilt = _ ∧ (linePoison r.bank r.index (reconstructed d r)).sram.poisoned = _ ∧
    (linePoison r.bank r.index (reconstructed d r)).sram.poisonCount = _ ∧
    (linePoison r.bank r.index (reconstructed d r)).sram.lastTurn = _ ∧ (linePoison r.bank r.index (reconstructed d r)).sram.lastAddr = _ ∧
    (if r.reader = .scrubber then (linePoison r.bank r.index (reconstructed d r)).sram.consumed
      else satAdd 32 (linePoison r.bank r.index (reconstructed d r)).sram.consumed 1) = _
  rw [hmemory, hrebuilt, hcount, hconsumed]
  exact ⟨rfl, rfl, rfl, rfl, rfl, rfl⟩

/-- A read of a poisoned line is consumed (R398). -/
theorem lineRead_poisoned (hb : r.bank < 17) (hi : r.index < 8192) (hp : d.linePoisoned r.bank r.index = true) :
    lineRead [] r d = lineConsumed r false (lineOwned d r) := by
  have hs : (lineOwned d r).linePoisoned r.bank r.index = true := (lineOwned_stripes.linePoisoned _ _).trans hp
  rw [lineRead_lost hb hi (lineFetch_poisoned hs), hs]
  rfl

theorem lineConsumed_scrubber (h : r.reader = .scrubber) (fenced : Bool) : lineConsumed r fenced d = d := by
  unfold lineConsumed
  rw [h]

theorem lineConsumed_bar4 (h : r.reader = .bar4) (fenced : Bool) : lineConsumed r fenced d = countConsumed d := by
  unfold lineConsumed
  rw [h]

theorem lineConsumed_owner (h : r.reader = .owner) : lineConsumed r false d = fencePoison r.owner (countConsumed d) := by
  unfold lineConsumed
  rw [h]
  rfl

theorem answers_lineRead {s : State} {e : Dev} (h : lineRead [] r s.dev = e) (hflue : 9 ∈ e.sag.fenced → 9 ∈ s.dev.sag.fenced) :
    Answers (.sramLineRead [] r) s e :=
  .congr rfl ((keepKnown_eq (f := lineRead [] r) fun hm => hflue (h ▸ hm)).trans h)
end

theorem lineWrite_part {d : Dev} {b i off : Nat} {bytes : List Byte} (writer : SramOwner) (hb : b < 16)
    (hp : d.linePoisoned b i = true) (hpart : off ≠ 0 ∨ bytes.length < 64) :
    lineWrite b i off bytes writer d = fencePoison writer (countConsumed d) := by
  unfold lineWrite
  dsimp only
  rw [if_neg (by omega), lineFetch_poisoned hp]
  refine if_neg fun hfull => ?_
  obtain ⟨hoff, hlen⟩ := hfull
  rw [List.length_take] at hlen
  omega

/-! ### The obligation -/

/-- Settles O57: the fences, the lanes and the banks by the branches that the conditions pick; the code by its linearity. -/
theorem fencesAndMemory : Obligations.FencesAndMemory := by
  unfold Obligations.FencesAndMemory
  refine ⟨?_, ?_, ?_, ?_, ?_, ?_, ?_, ?_, ?_, ?_⟩
  · refine fun d u cause => ⟨fenceUnit_fences u cause d, fenceUnit_again cause, fun h => ⟨mem_fenceUnit.2 (.inl rfl), fenceUnit_cause h,
      ?_, fenceUnit_cores h⟩⟩
    rintro rfl
    exact fenceUnit_ledger h
  · exact fun s u hu => ⟨fun h => answersAt hu rfl (if_pos h), fun h => answersAt hu rfl (if_neg h)⟩
  · intro s
    obtain ⟨hfenced, hfences, hcause⟩ := flueFenced_standing s.dev
    refine ⟨⟨_, rfl, hfenced, hfences, fun h => ⟨flueFenced_known h, hcause h⟩⟩, fun h => .congr rfl (if_pos ?_), fun h htake hstart =>
      ⟨_, .congr rfl (if_neg ?_), hfenced, flueFenced_known h⟩⟩
    · rcases h with h | h | h <;> simp [h]
    · simp [h, htake, hstart]
  · intro s b hb
    refine ⟨fun h => answersAt hb rfl ?_, fun hdown hagain hret => ⟨_, answersAt hb rfl rfl, ?_⟩, fun hdown hagain => answersAt hb rfl ?_⟩
    · cases hdown : s.dev.bankDown b with
      | true => exact bankTrouble_down hdown
      | false =>
        obtain ⟨hagain, hret⟩ := h.resolve_left (by simp [hdown])
        exact (bankTrouble_again hdown (bankAgain_iff.2 hagain)).trans (if_neg (by simpa using hret))
    · have heq : bankTrouble b s.dev = _ := (bankTrouble_again hdown (bankAgain_iff.2 hagain)).trans (if_pos (by simp [hret]))
      rw [show bankRebuild b s.dev = bankTrouble b s.dev from rfl, heq, raise_frame]
      exact ⟨rfl, rfl⟩
    · exact bankTrouble_rebuild hdown (Bool.eq_false_iff.2 fun h => hagain (bankAgain_iff.1 h))
  · intro s n run hn
    refine ⟨fun h => answersAt hn rfl ?_, fun h hrun hfails => ?_, fun h htoo => ?_⟩
    · exact (keepKnown_of_standing (congrArg (fun d : Dev => d.sag.standing) (flueCrcFail_retired h))).trans (flueCrcFail_retired h)
    · have heq : flueCrcFail n run s.dev = flitRetried s.dev n :=
        (flueCrcFail_serves h).trans (if_neg (by rw [flitRetried_fails]; omega))
      have hkeep : keepKnown (flueCrcFail n run) s.dev = flitRetried s.dev n :=
        (keepKnown_of_standing (congrArg (fun d : Dev => d.sag.standing) heq :)).trans heq
      exact ⟨_, answersAt hn rfl hkeep, rfl, flitRetried_fails s.dev n, rfl, rfl⟩
    · have heq : flueCrcFail n run s.dev = retireLane n (flitRetried s.dev n) :=
        (flueCrcFail_serves h).trans (if_pos (by rw [flitRetried_fails]; omega))
      have hlanes : (keepKnown (flueCrcFail n run) s.dev).lanes =
          { (flitRetried s.dev n).lanes with retired := sortNat (n :: s.dev.lanes.retired) } :=
        (keepKnown_lanes _ _).trans ((congrArg Dev.lanes heq).trans (retireLane_lanes (d := flitRetried s.dev n) h))
      refine ⟨_, answersAt hn rfl rfl, ?_, ?_, fun hret => ?_⟩
      · rw [hlanes]
        rfl
      · rw [hlanes]
        exact mem_sortNat.2 (List.mem_cons_self ..)
      · have hf : (keepKnown (flueCrcFail n run) s.dev).sag.fenced = (flueCrcFail n run s.dev).sag.fenced :=
          congrArg Prod.fst (keepKnown_standing _ _)
        rw [hf, heq]
        exact retireLane_first (d := flitRetried s.dev n) hret
  · intro s es
    have hsram := keepKnown_sram (scrub es) s.dev
    obtain ⟨hstripe, hdone, hgoing⟩ := scrub_report es s.dev
    refine ⟨keepKnown (scrub es) s.dev, rfl, ?_⟩
    rw [hsram]
    refine ⟨hstripe, hdone, hgoing, fun hes hlines hrebuilding hretired => ?_⟩
    have heq : scrub es s.dev = scrubEnded (scrubStripe s.dev) s.dev := by
      rw [scrub_eq, hes, scrubRead_zero hlines hrebuilding hretired]
    have hkeep : keepKnown (scrub es) s.dev = scrubEnded (scrubStripe s.dev) s.dev :=
      (keepKnown_of_standing (by rw [heq]; rfl)).trans heq
    rw [hkeep, heq]
    exact ⟨rfl, rfl, hlines, rfl⟩
  · intro s r hb hi
    refine ⟨fun hp hok => ?_, fun hp hbad hr => ⟨_, rfl, ?_⟩, fun hp hbad hr hreader howner => ⟨_, rfl, ?_⟩, fun hp => ⟨fun hreader => ?_,
      fun hreader => ?_, fun hreader howner => ?_⟩⟩
    · refine answers_lineRead (lineRead_good hb hi hp hok) fun hm => ?_
      have hf : (noteRead r.bank (readWords (s.dev.storedLine r.bank r.index).words) (lineOwned s.dev r)).sag.fenced = s.dev.sag.fenced :=
        congrArg (fun x => x.2.2.1) (noteRead_unread r.bank _ (lineOwned s.dev r))
      exact hf ▸ hm
    · obtain ⟨ws, hws⟩ := Option.ne_none_iff_exists'.1 hr
      obtain ⟨hrebuilt, hpoisoned, hconsumed, hwords⟩ := lineRead_rebuilt_effect hb hi hp hbad hws
      have hsram := keepKnown_sram (lineRead [] r) s.dev
      refine ⟨(congrArg Sram.rebuilt hsram).trans hrebuilt, (congrArg Sram.poisoned hsram).trans hpoisoned,
        (congrArg Sram.consumed hsram).trans hconsumed, fun ws' hws' hret => ?_⟩
      have hline : (keepKnown (lineRead [] r) s.dev).storedLine r.bank r.index = (lineRead [] r s.dev).storedLine r.bank r.index := by
        unfold Dev.storedLine
        rw [hsram]
      rw [Option.some.inj (hws'.symm.trans hws)]
      exact (congrArg SramLine.words hline).trans (hwords hret)
    · have hsram := keepKnown_sram (lineRead [] r) s.dev
      obtain ⟨hrebuilt, hpoisoned, hcount, hturn, haddr, hconsumed⟩ := lineRead_lost_effect hb hi hp hbad hr hreader howner
      exact ⟨(congrArg Sram.rebuilt hsram).trans hrebuilt, (congrArg Sram.poisoned hsram).trans hpoisoned,
        (congrArg Sram.poisonCount hsram).trans hcount, (congrArg Sram.lastTurn hsram).trans hturn,
        (congrArg Sram.lastAddr hsram).trans haddr, (congrArg Sram.consumed hsram).trans hconsumed⟩
    · exact answers_lineRead ((lineRead_poisoned hb hi hp).trans (lineConsumed_scrubber hreader false)) id
    · exact answers_lineRead ((lineRead_poisoned hb hi hp).trans (lineConsumed_bar4 hreader false)) id
    · exact answers_lineRead ((lineRead_poisoned hb hi hp).trans (lineConsumed_owner hreader)) fun hm =>
        fencePoison_flue (d := countConsumed (lineOwned s.dev r)) howner hm
  · exact fun d b i old ws hb hi hret hret16 hclean hgood => writeLine_known_effect hb hi hret hret16 hclean hgood old ws
  · exact fun d b i off bytes writer hb hp hpart => lineWrite_part writer hb hp hpart
  · exact fun w => ⟨decodeWord_encodeWord w, fun k hk => decodeWord_one_flip w hk, fun j k hj hk hne => decodeWord_two_flips w hj hk hne⟩

end Sys2Proof.Machine
end

/-! ## O52: the hold-up bank -/

section
/-! PROOF. Every clause of O52 holds but the one on a measured charge: there the model changes the SOURCE_SET twice, and the statement
once. A change to the default entry delists it, so on a table out of key order the two differ. A charge is measured only where the
bank's full scale, which the spec leaves open, is not 0: O52 holds just where that free value is 0. -/

namespace Sys2Proof.Machine

variable {d : Dev} {n : Nat}

/-! ### No set holds the bank -/

theorem holdup_unused (hset : d.holdupSet = none) : (∀ on, holdupRelease on d = d) ∧ holdupChargeEnd d = d ∧
    (∀ time, holdupBleedGate time d = d) ∧ ∀ late time, holdupBleedEnd late time d = d := by
  unfold holdupRelease holdupChargeEnd holdupBleedGate holdupBleedEnd
  rw [hset]
  exact ⟨fun _ => rfl, rfl, fun _ => rfl, fun _ _ => rfl⟩

theorem holdupBleedStart_unused (hset : d.holdupSet = none) (time : Nat) : holdupBleedStart time d = d := by
  unfold holdupBleedStart
  rw [hset]

/-! ### The release and the charge path (R261, R262) -/

theorem holdupRelease_off (hset : d.holdupSet = some n)
    (h : (d.slot tSource n).hstate = .disabled ∨ (d.srcSet n).bleeding = true ∨ d.sitter = true) (on : Bool) :
    holdupRelease on d = d := by
  unfold holdupRelease
  rw [hset]
  exact if_pos h

theorem holdupRelease_works (hset : d.holdupSet = some n)
    (h : ¬((d.slot tSource n).hstate = .disabled ∨ (d.srcSet n).bleeding = true ∨ d.sitter = true)) (on : Bool) :
    holdupRelease on d = d.modSrc n fun r => { r with huRel := on, huChg := r.huChg && !on } := by
  unfold holdupRelease
  rw [hset]
  exact if_neg h

theorem holdupChargeEnd_unmeasured (hset : d.holdupSet = some n) (h : (d.srcSet n).charge.bind (chargeMeasure (d.srcCfg n)) = none) :
    holdupChargeEnd d = d.modSrc n fun r => { r with huChg := false, charge := none } := by
  unfold holdupChargeEnd
  rw [hset]
  dsimp only
  rw [h]

theorem holdupChargeEnd_enough (hset : d.holdupSet = some n) {m : Nat}
    (h : (d.srcSet n).charge.bind (chargeMeasure (d.srcCfg n)) = some m) (hm : d.srcB n 6 16 16 ≤ m) :
    holdupChargeEnd d = (d.modSrc n fun r => { r with huChg := false, charge := none }).modSrc n fun r => { r with cMeas := m } := by
  unfold holdupChargeEnd
  rw [hset]
  dsimp only
  rw [h]
  exact if_neg (Nat.not_lt.2 hm)

theorem chargeMeasure_none (h : Config.bankFullScale = 0) (ws : List Word) (c : HuCharge) : chargeMeasure ws c = none := by
  simp [chargeMeasure, h]

theorem srcCharge_huChg (d : Dev) (n : Nat) : ((srcCharge d n).srcSet n).huChg =
    (d.srcRuns n && !(d.srcSet n).inNone && !(d.srcSet n).huRel && !(d.srcSet n).bleeding && !(d.srcSet n).bleedDue && !d.sitter &&
      decide (d.bankCv2 n < ((d.srcB n 5 0 16 : Int) - (if (d.srcSet n).huChg then 0 else (d.srcB n 5 16 16 : Int))) *
        20000000 * 2 ^ 46)) := by
  unfold srcCharge
  rw [srcSet_modSrc_self]
  cases (d.srcSet n).huChg <;> simp [Dev.bankBelow]

/-! ### The start and the gate of a bleed (R263, R435) -/

/-- A bleed starts, or goes on with, a black-box commit, and leaves the SOURCE_SETs alone. -/
theorem blackBoxStart_bleed (d : Dev) : (blackBoxStart true d).src = d.src ∧ (blackBoxStart true d).wit.commit ≠ none := by
  unfold blackBoxStart
  cases hc : d.wit.commit with
  | none =>
    unfold Dev.recordTick
    cases d.tickNow <;> simp [Dev.freeBits]
  | some c => simp [hc]

/-- A SOURCE_SET as the start of a bleed leaves it. -/
def SrcRt.bleeds (r : SrcRt) (now : Nat) : SrcRt :=
  { r with bleeding := true, bleedDue := false, bleedLate := false, huChg := false, huRel := false, bleedAt := now }

theorem holdupBleedStart_due (hset : d.holdupSet = some n) (hdue : d.bleedIsDue n = true) (hb : (d.srcSet n).bleeding = false)
    (time : Nat) : holdupBleedStart time d =
      blackBoxStart true (Dev.modSrc { d with now := max d.now time } n fun r => r.bleeds (max d.now time)) := by
  unfold holdupBleedStart
  rw [hset]
  exact if_pos (by simp [hdue, hb])

theorem holdupBleedStart_idle (hset : d.holdupSet = some n) (h : d.bleedIsDue n = false ∨ (d.srcSet n).bleeding = true) (time : Nat) :
    holdupBleedStart time d = d := by
  unfold holdupBleedStart
  rw [hset]
  exact if_neg (by rcases h with h | h <;> simp [h])

theorem holdupBleedGate_opens (hset : d.holdupSet = some n) (hb : (d.srcSet n).bleeding = true) {time : Nat}
    (h : d.wit.commit = none ∨ (d.srcSet n).bleedAt + 1000000 ≤ time) :
    holdupBleedGate time d = d.modSrc n fun r => { r with huBlg := true } := by
  unfold holdupBleedGate holdupBlgOn
  rw [hset]
  dsimp only
  rw [if_pos (by simpa using h), if_pos hb]

theorem holdupBleedGate_shut (hset : d.holdupSet = some n) {time : Nat}
    (h : (d.srcSet n).bleeding = false ∨ d.wit.commit ≠ none ∧ time < (d.srcSet n).bleedAt + 1000000) : holdupBleedGate time d = d := by
  unfold holdupBleedGate holdupBlgOn
  rw [hset]
  dsimp only
  rcases h with h | ⟨hc, ht⟩
  · rw [if_neg (c := (d.srcSet n).bleeding = true) (by simp [h]), ite_self]
  · exact if_neg (by simp [hc, ht])

/-! ### The end of a bleed (R263, R266) -/

theorem holdupBleedEnd_idle (hset : d.holdupSet = some n) (hb : (d.srcSet n).bleeding = false) (late : Bool) (time : Nat) :
    holdupBleedEnd late time d = d := by
  unfold holdupBleedEnd
  rw [hset]
  exact if_pos (by simp [hb])

theorem holdupBleedEnd_late (hset : d.holdupSet = some n) (hb : (d.srcSet n).bleeding = true) (time : Nat) :
    holdupBleedEnd true time d =
      if (d.srcSet n).bleedLate = true ∨ time < (d.srcSet n).bleedAt + field (d.srcCfg n) 33 0 16 * 100000 then d
      else Dev.raise (d.modSrc n fun r => { r with bleedLate := true }) 0x0706 (fitU 16 (d.bankMv10 n)) (d.srcHandle n) := by
  unfold holdupBleedEnd
  rw [hset]
  simp [hb]

theorem holdupBleedEnd_safe (hset : d.holdupSet = some n) (hb : (d.srcSet n).bleeding = true) (time : Nat) :
    holdupBleedEnd false time d =
      if (Config.bankFullScale : Int) * d.bankVal n < (field (d.srcCfg n) 32 16 16 : Int) * 2 ^ 23 then
        srcOff (d.modSrc n fun r => { r with bleeding := false, huBlg := false }) n
      else d := by
  unfold holdupBleedEnd
  rw [hset]
  simp [hb]

theorem srcOff_nothing (h : d.hasWait .disable (d.srcHandle n) = false) (hf : d.hasWait .destroyForce (d.srcHandle n) = false) :
    srcOff d n = d := if_neg (by simp [h, hf])

/-- Without a forced DESTROY waiting, the stop of a set ends its waiting DISABLE and leaves the SOURCE_SETs alone. -/
theorem elementOff_src (d : Dev) (t i result : Nat) (h : d.hasWait .destroyForce (d.handleOf t i) = false) :
    (elementOff d t i result).src = d.src ∧ (elementOff d t i result).hasWait .disable (d.handleOf t i) = false := by
  unfold elementOff
  dsimp only
  rw [if_neg (by rw [endWaits_noWait_of (d.modSlot t i _) _ _ (by decide) h]; decide)]
  refine ⟨endWaits_src .., endWaits_noWait _ _ (by decide) fun w hk hw => ?_⟩
  simp [hk, hw]

theorem srcOff_disabled (h : d.hasWait .disable (d.srcHandle n) = true) (hf : d.hasWait .destroyForce (d.srcHandle n) = false)
    (hs : (d.slot tSource n).hstate ≠ .fenced) :
    ((srcOff d n).slot tSource n).hstate = .disabled ∧ (srcOff d n).srcSet n = { d.srcSet n with stopping := false } ∧
      (srcOff d n).hasWait .disable (d.srcHandle n) = false := by
  have hoff : srcOff d n = ledNote (elementOff (d.modSrc n fun r => { r with stopping := false }) tSource n 0) :=
    if_pos (by simp [h])
  obtain ⟨-, hslot⟩ := elementOff_kept (d.modSrc n fun r => { r with stopping := false }) tSource n 0 hf
  obtain ⟨hsrc, hw⟩ := elementOff_src (d.modSrc n fun r => { r with stopping := false }) tSource n 0 hf
  rw [hoff]
  refine ⟨(hslot tSource n).trans (if_pos ⟨rfl, hs⟩), ?_, hw⟩
  exact (congrArg (fun t => tget ({} : SrcRt) t n) hsrc).trans (srcSet_modSrc_self d n fun r => { r with stopping := false })

/-! ### The measured charge -/

/-- A bank whose charge is measured: the set's entry stands out of key order and is its default but for that charge. -/
def measuredCharge : State :=
  let c : HuCharge := { start := 0, last := 1, sum := 8192 * Config.bankFullScale }
  { pending := [], setup := {}, dev := {
      slots := [(slotKey tSource 0, { live := true, hstate := .enabled, cfg := [0x10] })]
      src := [(1, { huRel := true }), (0, { charge := some c })] } }

theorem measuredCharge_measures (h : Config.bankFullScale ≠ 0) :
    (measuredCharge.dev.srcSet 0).charge.bind (chargeMeasure (measuredCharge.dev.srcCfg 0)) = some 1000 := by
  have hpos : 0 < Config.bankFullScale := Nat.pos_of_ne_zero h
  have hr : field (measuredCharge.dev.srcCfg 0) 30 16 16 = 0 := by decide
  have hquot : (8192 * (Config.bankFullScale : Int) * 1000) = ((8192 * Config.bankFullScale : Nat) : Int) * 1000 := by push_cast; ring
  have hround : roundOpen (8192 * (Config.bankFullScale : Int) * 1000) (8192 * Config.bankFullScale) = 1000 := by
    have hne : ((8192 * Config.bankFullScale : Nat) : Int) ≠ 0 := by omega
    unfold roundOpen
    rw [hquot, if_pos (Int.mul_emod_right ..), Int.mul_ediv_cancel_left _ hne]
  show chargeMeasure (measuredCharge.dev.srcCfg 0) { start := 0, last := 1, sum := 8192 * Config.bankFullScale } = _
  simp [chargeMeasure, hpos, hr, hround, fitU]

/-- The model lists the set's entry once; one change of the entry would list it twice. -/
theorem measuredCharge_twice {m : Nat} (hm : m ≠ 0) :
    (((measuredCharge.dev.modSrc 0 fun r => { r with huChg := false, charge := none }).modSrc 0
      fun r => { r with cMeas := m }).src).length = 2 ∧
    ((measuredCharge.dev.modSrc 0 fun r => { r with cMeas := m, huChg := false, charge := none }).src).length = 3 := by
  constructor <;> simp [measuredCharge, Dev.modSrc, tmod, tset, tget, tdrop, tinsert, hm]

/-- The state of a measured charge refutes O52 wherever a charge can be measured. -/
theorem not_holdUp_of_fullScale (h : Config.bankFullScale ≠ 0) : ¬ Obligations.HoldUp := by
  unfold Obligations.HoldUp
  rintro ⟨-, hclauses, -⟩
  have hset : measuredCharge.dev.holdupSet = some 0 := rfl
  obtain ⟨-, -, -, hmeasured, -⟩ := hclauses measuredCharge 0 hset
  have hm := measuredCharge_measures h
  obtain ⟨henough, -⟩ := hmeasured 1000 hm
  have hmin : measuredCharge.dev.srcB 0 6 16 16 ≤ 1000 := by decide
  have hone := henough hmin
  have htwo : Answers .holdupChargeEnd measuredCharge _ := .congr rfl (holdupChargeEnd_enough hset hm hmin)
  have hlen := congrArg (fun e : Dev => e.src.length) (hone.unique htwo)
  obtain ⟨h2, h3⟩ := measuredCharge_twice (m := 1000) (by decide)
  exact absurd (h3.symm.trans (hlen.trans h2)) (by decide)

/-- Where no charge can be measured, every clause of O52 holds. -/
theorem holdUp_of_noFullScale (h : Config.bankFullScale = 0) : Obligations.HoldUp := by
  unfold Obligations.HoldUp
  refine ⟨?_, ?_, srcCharge_huChg⟩
  · intro s hset on late time tick
    obtain ⟨hrelease, hend, hgate, hsafe⟩ := holdup_unused hset
    refine ⟨?_, .congr rfl (atTick_nothing (holdupBleedStart_unused (d := { s.dev with tickNow := some (tick % 65536) }) hset time))⟩
    simp only [List.forall_mem_cons, List.not_mem_nil, false_imp_iff, implies_true, and_true]
    exact ⟨.congr rfl (hrelease on), .congr rfl hend, .congr rfl (hgate time), .congr rfl (hsafe late time)⟩
  · intro s n hset
    have hnone : (s.dev.srcSet n).charge.bind (chargeMeasure (s.dev.srcCfg n)) = none := by
      cases (s.dev.srcSet n).charge with
      | none => rfl
      | some c => exact chargeMeasure_none h _ c
    refine ⟨fun on ho => .congr rfl (holdupRelease_off hset ho on), fun on ho => .congr rfl (holdupRelease_works hset ho on),
      fun hc => .congr rfl (holdupChargeEnd_unmeasured hset hc), fun m hm => absurd (hnone.symm.trans hm) nofun, ?_,
      fun time tick hi => .congr rfl (atTick_nothing (holdupBleedStart_idle
        (d := { s.dev with tickNow := some (tick % 65536) }) hset hi time)),
      fun time hb hg => .congr rfl (holdupBleedGate_opens hset hb hg), fun time hg => .congr rfl (holdupBleedGate_shut hset hg),
      fun late time hb => .congr rfl (holdupBleedEnd_idle hset hb late time), ?_⟩
    · intro time tick hdue hb
      let e : Dev := { s.dev with tickNow := some (tick % 65536) }
      have hstart := holdupBleedStart_due (d := e) hset hdue hb time
      obtain ⟨hsrc, hcommit⟩ := blackBoxStart_bleed (Dev.modSrc { e with now := max e.now time } n fun r => r.bleeds (max e.now time))
      refine ⟨{ blackBoxStart true _ with tickNow := none }, .congr rfl ?_, hsrc, hcommit⟩
      exact congrArg (fun d : Dev => { d with tickNow := none }) hstart
    · intro time hb
      let e := s.dev.modSrc n fun r => { r with bleeding := false, huBlg := false }
      refine ⟨fun hl => .congr rfl ((holdupBleedEnd_late hset hb time).trans (if_pos hl)),
        fun hl hd => .congr rfl ((holdupBleedEnd_late hset hb time).trans (if_neg (by simp [hl, hd]))),
        fun hv => .congr rfl ((holdupBleedEnd_safe hset hb time).trans (if_neg (not_lt.2 hv))),
        fun hv => ⟨srcOff e n, .congr rfl ((holdupBleedEnd_safe hset hb time).trans (if_pos hv)), srcOff_nothing (d := e),
          fun hw hf hs => ?_⟩⟩
      obtain ⟨hstate, hrt, hwait⟩ := srcOff_disabled (d := e) hw hf hs
      rw [hrt, srcSet_modSrc_self]
      exact ⟨hstate, rfl, rfl, hwait⟩

/-- O52 is neither proved nor refuted: it says of the model that the bank's full scale, a value that the spec does not state and that
the model leaves free (log entry 19), is 0. -/
theorem holdUp_iff : Obligations.HoldUp ↔ Config.bankFullScale = 0 :=
  ⟨fun h => by_contra fun hne => not_holdUp_of_fullScale hne h, holdUp_of_noFullScale⟩

end Sys2Proof.Machine

end
